-- ==== Sys2Proof/Word.lean ====
section
/-! DEFINITION. The widths of the machine (R3, R17, R18, R26). -/

namespace Sys2Proof

/-- A byte of memory. -/
abbrev Byte := BitVec 8

/-- A register of a lane, or an instruction word: 32 bits (R26, R42). -/
abbrev Word := BitVec 32

/-- A register pair or a virtual address: 64 bits (R3, R158). -/
abbrev DWord := BitVec 64

/-- A program counter: 56 bits (R18). -/
abbrev Pc := BitVec 56

/-- A set of lanes of one warp: bit `l` is lane `l` (R17). -/
abbrev Mask := BitVec 32

end Sys2Proof
end

