-- ==== Sys2Proof/Machine/Float.lean ====
section
/-! DEFINITION. The number formats and their arithmetic: decoding, Round, sums, products, comparisons and conversions
(R12, R112 to R116, R120, R122, R188, R254 to R258). Values are exact until they are rounded. -/

namespace Sys2Proof.Machine

/-- The floating-point formats of R254. -/
inductive Fmt where
  | f32 | f16 | bf16 | e4m3 | e5m2 | e2m1
  deriving DecidableEq, Repr

/-- The rounding modes of R12. -/
inductive Rm where
  | rne | rz | rdn | rup
  deriving DecidableEq, Repr

/-- The five flags of R104: NV, DZ, OF, UF, NX from bit 4 down. -/
abbrev Flags := BitVec 5

def flagNV : Flags := 16#5
def flagDZ : Flags := 8#5
def flagOF : Flags := 4#5
def flagUF : Flags := 2#5
def flagNX : Flags := 1#5

def Fmt.bits : Fmt → Nat
  | .f32 => 32 | .f16 => 16 | .bf16 => 16 | .e4m3 => 8 | .e5m2 => 8 | .e2m1 => 4

/-- Bits of the mantissa field M. -/
def Fmt.mant : Fmt → Nat
  | .f32 => 23 | .f16 => 10 | .bf16 => 7 | .e4m3 => 3 | .e5m2 => 2 | .e2m1 => 1

def Fmt.bias : Fmt → Nat
  | .f32 => 127 | .f16 => 15 | .bf16 => 127 | .e4m3 => 7 | .e5m2 => 15 | .e2m1 => 1

/-- The code of the largest finite value, without sign. -/
def Fmt.largest : Fmt → Nat
  | .f32 => 0x7F7FFFFF | .f16 => 0x7BFF | .bf16 => 0x7F7F | .e4m3 => 0x7E | .e5m2 => 0x7B | .e2m1 => 0x7

/-- The canonical NaN (R255); e2m1 has none and gives +0 (R256). -/
def Fmt.canonical : Fmt → Nat
  | .f32 => 0x7FC00000 | .f16 => 0x7E00 | .bf16 => 0x7FC0 | .e4m3 => 0x7F | .e5m2 => 0x7E | .e2m1 => 0

/-- Formats that R256 treats as narrow. -/
def Fmt.narrow : Fmt → Bool
  | .e4m3 | .e5m2 | .e2m1 => true
  | _ => false

/-- Formats whose all-ones exponent holds infinities and NaNs. -/
def Fmt.ieee : Fmt → Bool
  | .e4m3 | .e2m1 => false
  | _ => true

/-- A decoded value: `fin neg m e` is (−1)^neg × m × 2^e. -/
inductive FVal where
  | nan (signalling : Bool)
  | inf (neg : Bool)
  | fin (neg : Bool) (m : Nat) (e : Int)
  deriving DecidableEq, Repr

/-- The value of a code, its bits above the format's width ignored (R254, R255). -/
def Fmt.decode (f : Fmt) (code : Nat) : FVal :=
  let m := f.mant
  let neg := code / 2 ^ (f.bits - 1) % 2 == 1
  let ex := code / 2 ^ m % 2 ^ (f.bits - 1 - m)
  let fr := code % 2 ^ m
  let top := 2 ^ (f.bits - 1 - m) - 1
  if f.ieee && ex == top then
    if fr == 0 then .inf neg else .nan (fr / 2 ^ (m - 1) % 2 == 0)
  else if f == .e4m3 && ex == top && fr == 7 then .nan false
  else if ex == 0 then .fin neg fr (1 - (f.bias : Int) - m)
  else .fin neg (2 ^ m + fr) ((ex : Int) - f.bias - m)

def FVal.isNan : FVal → Bool
  | .nan _ => true
  | _ => false

def FVal.isSignalling : FVal → Bool
  | .nan s => s
  | _ => false

def FVal.neg : FVal → FVal
  | .nan s => .nan s
  | .inf n => .inf (!n)
  | .fin n m e => .fin (!n) m e

def FVal.isNeg : FVal → Bool
  | .nan _ => false
  | .inf n => n
  | .fin n _ _ => n

def FVal.isZero : FVal → Bool
  | .fin _ m _ => m == 0
  | _ => false

/-- `x × 2^k` for a signed exponent, as a fraction. -/
def scaleUp (x : Nat) (k : Int) : Nat := if k ≥ 0 then x * 2 ^ k.toNat else x

/-- The integer nearest `num / den` in mode `m`, for a value of sign `neg`; and whether it is exact (R256, R258). -/
def roundNat (m : Rm) (neg : Bool) (num den : Nat) : Nat × Bool :=
  let q := num / den
  let r := num % den
  let up :=
    match m with
    | .rne => decide (2 * r > den) || (2 * r == den && q % 2 == 1)
    | .rz => false
    | .rdn => neg && r != 0
    | .rup => !neg && r != 0
  (if up then q + 1 else q, r == 0)

/-- The same at the quantum 2^k: `num / den` as a multiple of 2^k. -/
def roundAt (m : Rm) (neg : Bool) (num den : Nat) (k : Int) : Nat × Bool :=
  roundNat m neg (scaleUp num (-k)) (scaleUp den k)

/-- The exponent of the leading bit of `num / den`, both positive. -/
def leading (num den : Nat) : Int :=
  let l : Int := (Nat.log2 num : Int) - Nat.log2 den
  if scaleUp num (-l) < scaleUp den l then l - 1 else l

/-- Round(x, f, m) for x = ±num/den (R256), with its flags. `sat` is the saturating form of narrow formats. In e4m3 under a mode other than
RNE every magnitude above 448 overflows, as the table row of 470.0 after R259 has it and R256's words do not (DEDUCED, log 74). -/
def roundFrac (f : Fmt) (m : Rm) (sat neg : Bool) (num den : Nat) : Nat × Flags :=
  let sign := if neg then 2 ^ (f.bits - 1) else 0
  if num = 0 then (sign, 0)
  else
    let mb := f.mant
    let emin : Int := 1 - f.bias
    let k := leading num den
    let q := max k emin - mb
    let (n, exact) := roundAt m neg num den q
    let big := f.largest
    let bigE : Int := ((big / 2 ^ mb : Nat) : Int) - f.bias - mb
    let bigM := 2 ^ mb + big % 2 ^ mb
    if scaleUp n (q - bigE) > scaleUp bigM (bigE - q) || (f == .e4m3 && m != .rne && decide (num > 448 * den)) then
      let toInf := m == .rne || (m == .rup && !neg) || (m == .rdn && neg)
      if toInf && !sat && f.ieee then (sign + (2 ^ (f.bits - 1 - mb) - 1) * 2 ^ mb, flagOF ||| flagNX)
      else if toInf && !sat && f == .e4m3 then (f.canonical, flagOF ||| flagNX)
      else (sign + big, if sat then flagNX else flagOF ||| flagNX)
    else
      let code := if n < 2 ^ mb then n else ((q + mb + f.bias).toNat * 2 ^ mb) + (n - 2 ^ mb)
      let tiny :=
        let u := (roundAt m neg num den (k - mb)).1
        decide (scaleUp u (k - mb - emin) < scaleUp 1 (emin - (k - mb)))
      (sign + code, if exact then 0 else if tiny then flagUF ||| flagNX else flagNX)

/-- Round of a decoded value to a format, infinities and NaNs as the table of R256 has them. -/
def roundVal (f : Fmt) (m : Rm) (sat : Bool) (v : FVal) : Nat × Flags :=
  match v with
  | .nan s => (f.canonical, if s || f == .e2m1 then flagNV else 0)
  | .inf neg =>
    let sign := if neg then 2 ^ (f.bits - 1) else 0
    if f.ieee && !(f.narrow && sat) then (sign + (2 ^ (f.bits - 1 - f.mant) - 1) * 2 ^ f.mant, 0)
    else if f == .e4m3 && !sat then (f.canonical, flagNV)
    else (sign + f.largest, flagNV)
  | .fin neg x e => roundFrac f m sat neg (scaleUp x e) (scaleUp 1 (-e))

/-- The exact sum of two values; a zero sum of opposite signs takes the sign of R112. -/
def addVal (m : Rm) (x y : FVal) : FVal × Bool :=
  match x, y with
  | .nan s, .nan t => (.nan false, s || t)
  | .nan s, _ => (.nan false, s)
  | _, .nan t => (.nan false, t)
  | .inf a, .inf b => if a == b then (.inf a, false) else (.nan false, true)
  | .inf a, _ => (.inf a, false)
  | _, .inf b => (.inf b, false)
  | .fin a p i, .fin b q j =>
    let e := min i j
    let u := p * 2 ^ (i - e).toNat
    let v := q * 2 ^ (j - e).toNat
    if a == b then (.fin a (u + v) e, false)
    else if u = v then (.fin (m == .rdn) 0 e, false)
    else if u > v then (.fin a (u - v) e, false)
    else (.fin b (v - u) e, false)

/-- The exact product. -/
def mulVal (x y : FVal) : FVal × Bool :=
  match x, y with
  | .nan s, .nan t => (.nan false, s || t)
  | .nan s, _ => (.nan false, s)
  | _, .nan t => (.nan false, t)
  | .inf a, .inf b => (.inf (a != b), false)
  | .inf a, .fin b q _ => if q = 0 then (.nan false, true) else (.inf (a != b), false)
  | .fin a p _, .inf b => if p = 0 then (.nan false, true) else (.inf (a != b), false)
  | .fin a p i, .fin b q j => (.fin (a != b) (p * q) (i + j), false)

/-- NV where an operation was invalid. -/
def nvIf (b : Bool) : Flags := if b then flagNV else 0

/-- Round a computed value once; `bad` says the operation was invalid (R112). -/
def finish (f : Fmt) (m : Rm) (r : FVal × Bool) : Nat × Flags :=
  match r.1 with
  | .nan _ => (f.canonical, nvIf r.2)
  | v => ((roundVal f m false v).1, (roundVal f m false v).2 ||| nvIf r.2)

/-- `fadd` (R112, R120, R188). -/
def fpAdd (f : Fmt) (m : Rm) (a b : Nat) : Nat × Flags := finish f m (addVal m (f.decode a) (f.decode b))

/-- `fsub`. -/
def fpSub (f : Fmt) (m : Rm) (a b : Nat) : Nat × Flags := finish f m (addVal m (f.decode a) (f.decode b).neg)

/-- `fmul`. -/
def fpMul (f : Fmt) (m : Rm) (a b : Nat) : Nat × Flags := finish f m (mulVal (f.decode a) (f.decode b))

/-- `ffma`: one rounding, and 0 × ∞ is invalid even beside a quiet NaN. -/
def fpFma (f : Fmt) (m : Rm) (a b c : Nat) : Nat × Flags :=
  let p := mulVal (f.decode a) (f.decode b)
  let s := addVal m p.1 (f.decode c)
  finish f m (s.1, p.2 || s.2)

/-- Whether x is below y as numbers; infinities and signed zeros included, no NaN. -/
def ltVal (x y : FVal) : Bool :=
  match x, y with
  | .inf a, .inf b => a && !b
  | .inf a, _ => a
  | _, .inf b => !b
  | .fin a p i, .fin b q j =>
    let e := min i j
    let u : Int := p * 2 ^ (i - e).toNat
    let v : Int := q * 2 ^ (j - e).toNat
    decide ((if a then -u else u) < (if b then -v else v))
  | _, _ => false

/-- Whether x equals y as numbers; −0 equals +0. -/
def eqVal (x y : FVal) : Bool := !x.isNan && !y.isNan && !ltVal x y && !ltVal y x

/-- x before y in the order of R113, which puts −0 below +0. -/
def ltTotal (x y : FVal) : Bool :=
  ltVal x y || (x.isZero && y.isZero && x.isNeg && !y.isNeg)

/-- `fmin` (R113): the chosen operand bit for bit. -/
def fpMin (f : Fmt) (a b : Nat) : Nat × Flags :=
  let x := f.decode a
  let y := f.decode b
  let nv := nvIf (x.isSignalling || y.isSignalling)
  if x.isNan && y.isNan then (f.canonical, nv)
  else if x.isNan then (b, nv)
  else if y.isNan then (a, nv)
  else (if ltTotal y x then b else a, nv)

/-- `fmax` (R113). -/
def fpMax (f : Fmt) (a b : Nat) : Nat × Flags :=
  let x := f.decode a
  let y := f.decode b
  let nv := nvIf (x.isSignalling || y.isSignalling)
  if x.isNan && y.isNan then (f.canonical, nv)
  else if x.isNan then (b, nv)
  else if y.isNan then (a, nv)
  else (if ltTotal x y then b else a, nv)

/-- `fclass` (R115). -/
def fpClass (a : Nat) : Nat :=
  match Fmt.f32.decode a with
  | .nan s => if s then 2 ^ 8 else 2 ^ 9
  | .inf n => if n then 1 else 2 ^ 7
  | .fin n m _ =>
    if m = 0 then (if n then 2 ^ 3 else 2 ^ 4)
    else if m < 2 ^ 23 then (if n then 2 ^ 2 else 2 ^ 5)
    else (if n then 2 else 2 ^ 6)

/-- The bit of an `fcmp` condition code (R49, R122), none where the code is unallocated; and whether NV is raised. -/
def fpCompare (cond : Nat) (x y : FVal) : Option (Bool × Bool) :=
  let nan := x.isNan || y.isNan
  let sig := x.isSignalling || y.isSignalling
  let ord (c : Nat) : Bool :=
    match c with
    | 0 => eqVal x y
    | 1 => !eqVal x y
    | 2 => ltVal x y
    | 3 => ltVal x y || eqVal x y
    | 4 => ltVal y x
    | _ => ltVal y x || eqVal x y
  if cond ≤ 1 then some (!nan && ord cond, sig)
  else if cond ≤ 5 then some (!nan && ord cond, nan)
  else if cond = 6 then some (!nan, sig)
  else if cond = 7 then some (nan, sig)
  else if cond ≤ 13 then some (nan || ord (cond - 8), sig)
  else none

/-- ToInteger(x, t, m) of R258 for a target of least value `lo` and greatest value `hi`. -/
def toInteger (lo hi : Int) (m : Rm) (v : FVal) : Int × Flags :=
  match v with
  | .nan _ => (0, flagNV)
  | .inf n => (if n then lo else hi, flagNV)
  | .fin n x e =>
    let (q, exact) := roundNat m n (scaleUp x e) (scaleUp 1 (-e))
    let i : Int := if n then -(q : Int) else q
    if i < lo then (lo, flagNV)
    else if i > hi then (hi, flagNV)
    else (i, if exact then 0 else flagNX)

/-- An integer as a value to round. -/
def ofInt (i : Int) : FVal := .fin (decide (i < 0)) i.natAbs 0

/-- The greatest r with r² ≤ n, found bit by bit below `2^k`. -/
def isqrt (n : Nat) : Nat → Nat → Nat
  | 0, r => r
  | k + 1, r => if (r + 2 ^ k) * (r + 2 ^ k) ≤ n then isqrt n k (r + 2 ^ k) else isqrt n k r

/-- √(num/den) as a fraction that rounds as the exact root does in every mode: the root to `2^-t`, with a half unit
added where it is not exact. -/
def rootFrac (num den t : Nat) : Nat × Nat :=
  let n := num * 2 ^ (2 * t)
  let r := isqrt (n / den) (Nat.log2 (n / den) / 2 + 1) 0
  if r * r * den = n then (r, 2 ^ t) else (2 * r + 1, 2 ^ (t + 1))

/-- `fsqrt` (R117): rounded once in m, with all IEEE flags. -/
def fpSqrt (m : Rm) (a : Nat) : Nat × Flags :=
  match Fmt.f32.decode a with
  | .nan s => (Fmt.f32.canonical, nvIf s)
  | .inf n => if n then (Fmt.f32.canonical, flagNV) else (a, 0)
  | .fin n x e =>
    if x = 0 then (a, 0)
    else if n then (Fmt.f32.canonical, flagNV)
    else
      let (p, q) := rootFrac (scaleUp x e) (scaleUp 1 (-e)) 128
      roundFrac .f32 m false false p q

/-- `frint` in mode m (R119). -/
def fpRint (m : Rm) (a : Nat) : Nat × Flags :=
  match Fmt.f32.decode a with
  | .nan s => (Fmt.f32.canonical, nvIf s)
  | .inf _ => (a, 0)
  | .fin n x e =>
    if e ≥ 0 then (a, 0)
    else
      let q := (roundNat m n x (2 ^ (-e).toNat)).1
      ((roundFrac .f32 .rne false n q 1).1, 0)

/-- Two 16-bit halves acted on separately (R120). -/
def packed (op : Nat → Nat → Nat × Flags) (a b : Nat) : Nat × Flags :=
  let l := op (a % 2 ^ 16) (b % 2 ^ 16)
  let h := op (a / 2 ^ 16 % 2 ^ 16) (b / 2 ^ 16 % 2 ^ 16)
  (l.1 + 2 ^ 16 * h.1, l.2 ||| h.2)

/-- The same with a third source. -/
def packed3 (op : Nat → Nat → Nat → Nat × Flags) (a b c : Nat) : Nat × Flags :=
  let l := op (a % 2 ^ 16) (b % 2 ^ 16) (c % 2 ^ 16)
  let h := op (a / 2 ^ 16 % 2 ^ 16) (b / 2 ^ 16 % 2 ^ 16) (c / 2 ^ 16 % 2 ^ 16)
  (l.1 + 2 ^ 16 * h.1, l.2 ||| h.2)

/-- A bf16 value rounded down or up from a key element (R322, R328), raising no flag. -/
def toBf16 (m : Rm) (v : FVal) : Nat := (roundVal .bf16 m false v).1

end Sys2Proof.Machine
end

