-- ==== Sys2Proof/Syntax.lean ====
section
/-! DEFINITION. The instructions of the Praesk 9: one constructor for each row of the opcode table. -/

namespace Sys2Proof

/-- One constructor per row of the opcode table. A word row (class 00 to 11 of R43) carries the fields of its format
(R44) as numbers; an event row carries what identifies the thing it happens to: an operation, a warp and a lane, a
context, a message. -/
inductive Instr where
  | sAdd (d a b : Nat)
  | sAddImm (d a i : Nat)
  | vAdd (d a b : Nat)
  | vAddImm (d a i : Nat)
  | sSub (d a b : Nat)
  | sSubImm (d a i : Nat)
  | vSub (d a b : Nat)
  | vSubImm (d a i : Nat)
  | sMullo (d a b : Nat)
  | sMulloImm (d a i : Nat)
  | vMullo (d a b : Nat)
  | vMulloImm (d a i : Nat)
  | sMulhiS (d a b : Nat)
  | sMulhiSImm (d a i : Nat)
  | vMulhiS (d a b : Nat)
  | vMulhiSImm (d a i : Nat)
  | sMulhiZ (d a b : Nat)
  | sMulhiZImm (d a i : Nat)
  | vMulhiZ (d a b : Nat)
  | vMulhiZImm (d a i : Nat)
  | sMad (d a b : Nat)
  | sMadImm (d a i : Nat)
  | vMad (d a b : Nat)
  | vMadImm (d a i : Nat)
  | sMinS (d a b : Nat)
  | sMinSImm (d a i : Nat)
  | vMinS (d a b : Nat)
  | vMinSImm (d a i : Nat)
  | sMaxS (d a b : Nat)
  | sMaxSImm (d a i : Nat)
  | vMaxS (d a b : Nat)
  | vMaxSImm (d a i : Nat)
  | sMinZ (d a b : Nat)
  | sMinZImm (d a i : Nat)
  | vMinZ (d a b : Nat)
  | vMinZImm (d a i : Nat)
  | sMaxZ (d a b : Nat)
  | sMaxZImm (d a i : Nat)
  | vMaxZ (d a b : Nat)
  | vMaxZImm (d a i : Nat)
  | sAbsdiff (d a b : Nat)
  | sAbsdiffImm (d a i : Nat)
  | vAbsdiff (d a b : Nat)
  | vAbsdiffImm (d a i : Nat)
  | sAddsatS (d a b : Nat)
  | sAddsatSImm (d a i : Nat)
  | vAddsatS (d a b : Nat)
  | vAddsatSImm (d a i : Nat)
  | sSubsatS (d a b : Nat)
  | sSubsatSImm (d a i : Nat)
  | vSubsatS (d a b : Nat)
  | vSubsatSImm (d a i : Nat)
  | sAvgZ (d a b : Nat)
  | sAvgZImm (d a i : Nat)
  | vAvgZ (d a b : Nat)
  | vAvgZImm (d a i : Nat)
  | sAnd (d a b : Nat)
  | sAndImm (d a i : Nat)
  | vAnd (d a b : Nat)
  | vAndImm (d a i : Nat)
  | sOr (d a b : Nat)
  | sOrImm (d a i : Nat)
  | vOr (d a b : Nat)
  | vOrImm (d a i : Nat)
  | sXor (d a b : Nat)
  | sXorImm (d a i : Nat)
  | vXor (d a b : Nat)
  | vXorImm (d a i : Nat)
  | sAndn (d a b : Nat)
  | sAndnImm (d a i : Nat)
  | vAndn (d a b : Nat)
  | vAndnImm (d a i : Nat)
  | sOrn (d a b : Nat)
  | sOrnImm (d a i : Nat)
  | vOrn (d a b : Nat)
  | vOrnImm (d a i : Nat)
  | sXnor (d a b : Nat)
  | sXnorImm (d a i : Nat)
  | vXnor (d a b : Nat)
  | vXnorImm (d a i : Nat)
  | sShl (d a b : Nat)
  | sShlImm (d a i : Nat)
  | vShl (d a b : Nat)
  | vShlImm (d a i : Nat)
  | sShr (d a b : Nat)
  | sShrImm (d a i : Nat)
  | vShr (d a b : Nat)
  | vShrImm (d a i : Nat)
  | sSar (d a b : Nat)
  | sSarImm (d a i : Nat)
  | vSar (d a b : Nat)
  | vSarImm (d a i : Nat)
  | sRotl (d a b : Nat)
  | sRotlImm (d a i : Nat)
  | vRotl (d a b : Nat)
  | vRotlImm (d a i : Nat)
  | sRotr (d a b : Nat)
  | sRotrImm (d a i : Nat)
  | vRotr (d a b : Nat)
  | vRotrImm (d a i : Nat)
  | sClz (d a : Nat)
  | vClz (d a : Nat)
  | sPopc (d a : Nat)
  | vPopc (d a : Nat)
  | sBrev (d a : Nat)
  | vBrev (d a : Nat)
  | sMov (d a : Nat)
  | sMovImm (d i : Nat)
  | vMov (d a : Nat)
  | vMovImm (d i : Nat)
  | sNot (d a : Nat)
  | vNot (d a : Nat)
  | sBfeS (d a b : Nat)
  | vBfeS (d a b : Nat)
  | sBfeZ (d a b : Nat)
  | vBfeZ (d a b : Nat)
  | sBfi (d a b : Nat)
  | vBfi (d a b : Nat)
  | sPrmt (d a b : Nat)
  | vPrmt (d a b : Nat)
  | sAdd64 (d a b : Nat)
  | vAdd64 (d a b : Nat)
  | sSub64 (d a b : Nat)
  | vSub64 (d a b : Nat)
  | sShl64 (d a b : Nat)
  | vShl64 (d a b : Nat)
  | sShr64 (d a b : Nat)
  | vShr64 (d a b : Nat)
  | sSar64 (d a b : Nat)
  | vSar64 (d a b : Nat)
  | sMul64lo (d a b : Nat)
  | vMul64lo (d a b : Nat)
  | sMovi (d i : Nat)
  | vMovi (d i : Nat)
  | sFadd (d a b : Nat)
  | vFadd (d a b : Nat)
  | sFsub (d a b : Nat)
  | vFsub (d a b : Nat)
  | sFmul (d a b : Nat)
  | vFmul (d a b : Nat)
  | sFfma (d a b : Nat)
  | vFfma (d a b : Nat)
  | sFmin (d a b : Nat)
  | vFmin (d a b : Nat)
  | sFmax (d a b : Nat)
  | vFmax (d a b : Nat)
  | sFabs (d a : Nat)
  | vFabs (d a : Nat)
  | sFneg (d a : Nat)
  | vFneg (d a : Nat)
  | sFcopysign (d a b : Nat)
  | vFcopysign (d a b : Nat)
  | sFclass (d a : Nat)
  | vFclass (d a : Nat)
  | sFrcp (d a : Nat)
  | vFrcp (d a : Nat)
  | sFrsq (d a : Nat)
  | vFrsq (d a : Nat)
  | sFsqrt (d a : Nat)
  | vFsqrt (d a : Nat)
  | sFexp2 (d a : Nat)
  | vFexp2 (d a : Nat)
  | sFlog2 (d a : Nat)
  | vFlog2 (d a : Nat)
  | sFsinpi (d a : Nat)
  | vFsinpi (d a : Nat)
  | sFcospi (d a : Nat)
  | vFcospi (d a : Nat)
  | sFtanh (d a : Nat)
  | vFtanh (d a : Nat)
  | sFrintNe (d a : Nat)
  | vFrintNe (d a : Nat)
  | sFrintZ (d a : Nat)
  | vFrintZ (d a : Nat)
  | sFrintDn (d a : Nat)
  | vFrintDn (d a : Nat)
  | sFrintUp (d a : Nat)
  | vFrintUp (d a : Nat)
  | sFaddF16x2 (d a b : Nat)
  | vFaddF16x2 (d a b : Nat)
  | sFsubF16x2 (d a b : Nat)
  | vFsubF16x2 (d a b : Nat)
  | sFmulF16x2 (d a b : Nat)
  | vFmulF16x2 (d a b : Nat)
  | sFfmaF16x2 (d a b : Nat)
  | vFfmaF16x2 (d a b : Nat)
  | sFminF16x2 (d a b : Nat)
  | vFminF16x2 (d a b : Nat)
  | sFmaxF16x2 (d a b : Nat)
  | vFmaxF16x2 (d a b : Nat)
  | sFaddBf16x2 (d a b : Nat)
  | vFaddBf16x2 (d a b : Nat)
  | sFsubBf16x2 (d a b : Nat)
  | vFsubBf16x2 (d a b : Nat)
  | sFmulBf16x2 (d a b : Nat)
  | vFmulBf16x2 (d a b : Nat)
  | sFfmaBf16x2 (d a b : Nat)
  | vFfmaBf16x2 (d a b : Nat)
  | sFminBf16x2 (d a b : Nat)
  | vFminBf16x2 (d a b : Nat)
  | sFmaxBf16x2 (d a b : Nat)
  | vFmaxBf16x2 (d a b : Nat)
  | sCvt (f d a s t : Nat)
  | vCvt (f d a s t : Nat)
  | sCmp (k t m a b : Nat)
  | vCmp (k t m a b : Nat)
  | sFcmp (k t m a b : Nat)
  | vFcmp (k t m a b : Nat)
  | sSel (k d a b : Nat)
  | vSel (k d a b : Nat)
  | sPget (d : Nat)
  | vPget (d : Nat)
  | vPpop (n : Nat)
  | vPdup (k : Nat)
  | vPand (k : Nat)
  | vPor (k : Nat)
  | vPxor (k : Nat)
  | vPnot (k : Nat)
  | vPswap (k : Nat)
  | vPpush (b : Nat)
  | vPset (b : Nat)
  | vShflIdx (d a b : Nat)
  | vShflUp (d a b : Nat)
  | vShflDown (d a b : Nat)
  | vShflXor (d a b : Nat)
  | vBcast (d a b : Nat)
  | vVoteBallot (d a : Nat)
  | vReduxAdd (d a t : Nat)
  | vReduxMin (d a t : Nat)
  | vReduxMax (d a t : Nat)
  | vScanIncl (d a t : Nat)
  | vScanExcl (d a t : Nat)
  | vMatch (d a : Nat)
  | vIsect (d a b : Nat)
  | sMovx (d i k : Nat)
  | vMovx (d i k : Nat)
  | sMovxw (s i k : Nat)
  | vMovxw (s i k : Nat)
  | mLd (z d a o : Nat)
  | mLdPr (z d a o : Nat)
  | mLdAcq (z d a o : Nat)
  | mLdu (z d a o : Nat)
  | mSt (z d a o : Nat)
  | mStRel (z d a o : Nat)
  | mAtomAddS32 (d a b : Nat)
  | mAtomAndB32 (d a b : Nat)
  | mAtomOrB32 (d a b : Nat)
  | mAtomXorB32 (d a b : Nat)
  | mAtomMinS32 (d a b : Nat)
  | mAtomMaxS32 (d a b : Nat)
  | mAtomMinZ32 (d a b : Nat)
  | mAtomMaxZ32 (d a b : Nat)
  | mAtomExchB32 (d a b : Nat)
  | mAtomAddS64 (d a b : Nat)
  | mAtomAndB64 (d a b : Nat)
  | mAtomOrB64 (d a b : Nat)
  | mAtomXorB64 (d a b : Nat)
  | mAtomMinS64 (d a b : Nat)
  | mAtomMaxS64 (d a b : Nat)
  | mAtomMinZ64 (d a b : Nat)
  | mAtomMaxZ64 (d a b : Nat)
  | mAtomExchB64 (d a b : Nat)
  | mAtomAddF32 (d a b : Nat)
  | mAtomMinF32 (d a b : Nat)
  | mAtomMaxF32 (d a b : Nat)
  | mAtomAddF16x2 (d a b : Nat)
  | mAtomAddBf16x2 (d a b : Nat)
  | mRedAddS32 (a b : Nat)
  | mRedAddS64 (a b : Nat)
  | mRedAddF32 (a b : Nat)
  | mRedMinS32 (a b : Nat)
  | mRedMaxS32 (a b : Nat)
  | mRedMinZ32 (a b : Nat)
  | mRedMaxZ32 (a b : Nat)
  | mRedAndB32 (a b : Nat)
  | mRedOrB32 (a b : Nat)
  | mRedXorB32 (a b : Nat)
  | mRedMinF32 (a b : Nat)
  | mRedMaxF32 (a b : Nat)
  | mRedAddF16x2 (a b : Nat)
  | mRedAddBf16x2 (a b : Nat)
  | mCasB32 (d a b : Nat)
  | mCasB64 (d a b : Nat)
  | mFenceAcq (s : Nat)
  | mFenceRel (s : Nat)
  | mFenceFull (s : Nat)
  | mMwait (o a b : Nat)
  | mPgreq (a : Nat)
  | mPgprobe (d a : Nat)
  | mPref (a : Nat)
  | mTexSample (d a b : Nat)
  | mTexSampleLod (d a b : Nat)
  | mTexSampleGrad (d a b : Nat)
  | mTexFetch (d a b : Nat)
  | mTexGath4 (d a b : Nat)
  | mTexqSize (d a b : Nat)
  | mTexqLevels (d a : Nat)
  | mTexqFormat (d a : Nat)
  | eCpy (p t s : Nat)
  | eGath (p t : Nat)
  | eScat (o p t : Nat)
  | eMma (p : Nat)
  | eMsrch (p : Nat)
  | eQuant (p : Nat)
  | eKselThr (p t : Nat)
  | eKselTopk (p t : Nat)
  | eKgat (p t : Nat)
  | eKsum (p t : Nat)
  | eSpawn (p : Nat)
  | eSpawnDie (p x : Nat)
  | eEnq (p q : Nat)
  | eSsbld (p t : Nat)
  | eBind (p k : Nat)
  | eEmit (p : Nat)
  | eRelaunch (p : Nat)
  | eTdset (p : Nat)
  | cBr (k m o : Nat)
  | cCall (j o : Nat)
  | cJmp (a : Nat)
  | cCallx (d a : Nat)
  | cRet (a : Nat)
  | cWait (l s c x : Nat)
  | cTwaitAny (a : Nat)
  | cTwaitAll (a : Nat)
  | cTffs (d a : Nat)
  | cTclr (a : Nat)
  | cBarArrive (s i : Nat)
  | cBarWait (s i : Nat)
  | cBarSync (s i : Nat)
  | cNop
  | cYield
  | cExit
  | cBrk (b : Nat)
  | cTrap (n : Nat)
  | yGsr (d r : Nat)
  | ySsr (r b : Nat)
  | yResume (a b : Nat)
  | yKill (a b : Nat)
  | yCtxinfo (d n : Nat)
  | hImm (x : Nat)
  | hGuard (k n : Nat)
  | hGuardNot (k n : Nat)
  | hSrc3 (c : Nat)
  | hReuse (x n : Nat)
  | hLast (x y n : Nat)
  | hRnd (m : Nat)
  | hScope (s : Nat)
  | hSched (n : Nat)
  | hCache (p : Nat)
  | loadRetire (op : Nat) (lanes : Nat)
  | storePerform (op : Nat) (lanes : Nat)
  | atomicPerform (op : Nat) (lanes : Nat)
  | reductionPlace (op : Nat) (lanes : Nat)
  | updateLineMerge (core : Nat) (line : Nat)
  | texRetire (op : Nat)
  | waitComplete (warp : Nat) (lane : Nat)
  | tagSet (op : Nat)
  | tagWaitComplete (warp : Nat) (lane : Nat)
  | barrierPhaseComplete (bar : Nat)
  | monitorWake (warp : Nat) (lane : Nat)
  | monitorReread (warp : Nat) (lane : Nat)
  | blockSwapOut (block : Nat) (ok : Bool)
  | blockSwapIn (block : Nat)
  | scratchRefill (block : Nat) (page : Nat) (ok : Bool)
  | pageWaitRetry (warp : Nat) (lane : Nat)
  | pteChange (ctx : Nat) (level : Nat) (va : Nat) (value : Nat) (frames : List Nat)
  | residencyPresent (ctx : Nat) (va : Nat)
  | residencyRefuse (ctx : Nat) (va : Nat)
  | residencyEvict (ctx : Nat) (va : Nat)
  | migration (ctx : Nat) (va : Nat) (frame : Nat)
  | migrationRequest (ctx : Nat) (va : Nat) (agent : Nat) (frame : Nat)
  | kickWrite (ctx : Nat) (queue : Nat) (value : Nat)
  | packetTake (ctx : Nat) (queue : Nat)
  | packetHeaderWake (ctx : Nat) (queue : Nat)
  | launch (job : Nat)
  | seed (job : Nat)
  | graphReplay (job : Nat)
  | relaunch (job : Nat)
  | signal (job : Nat)
  | waitValue (job : Nat)
  | waitValueRecheck (job : Nat)
  | barrierOnly (job : Nat)
  | queueCreate (job : Nat)
  | queueDestroy (job : Nat)
  | settings (job : Nat)
  | graphBind (job : Nat)
  | packetComplete (job : Nat)
  | graphKick (ctx : Nat) (slot : Nat) (table : Nat)
  | graphNodeStart (ctx : Nat) (slot : Nat) (node : Nat)
  | blockStart (launch : Nat) (block : Nat)
  | warpPlace (warp : Nat) (core : Nat)
  | warpEnd (warp : Nat)
  | spawnRetire (op : Nat)
  | binTimerExpiry (die : Nat) (bin : Nat)
  | spillRingMove (ctx : Nat) (die : Nat)
  | hangDetected (ctx : Nat)
  | cpyComplete (op : Nat)
  | gathComplete (op : Nat)
  | scatComplete (op : Nat)
  | mmaComplete (op : Nat)
  | msrchComplete (op : Nat)
  | quantComplete (op : Nat)
  | kselComplete (op : Nat)
  | kgatComplete (op : Nat)
  | ksumInstall (op : Nat)
  | ksumComplete (op : Nat)
  | engineStallResume (op : Nat)
  | engineFaultStop (op : Nat)
  | enqRetire (op : Nat)
  | emitAccept (op : Nat) (lanes : Nat)
  | binnerAccept (op : Nat) (lane : Nat)
  | buildComplete (build : Nat)
  | buildRecord (op : Nat) (lane : Nat)
  | rasterLeaf (pass : Nat) (leaf : Nat) (cluster : Nat)
  | blenderApply (pass : Nat)
  | passEnd (pass : Nat)
  | passAutoClose (pass : Nat)
  | pixelPreemptDeadline (ctx : Nat)
  | inboundRmaWrite (host : Nat) (key : Nat) (addr : Nat) (data : List Nat)
  | inboundRmaRead (host : Nat) (key : Nat) (addr : Nat) (len : Nat)
  | inboundFetchAdd (host : Nat) (key : Nat) (addr : Nat) (value : Nat)
  | inboundSwap (host : Nat) (key : Nat) (addr : Nat) (value : Nat)
  | inboundCas (host : Nat) (key : Nat) (addr : Nat) (expect : Nat) (value : Nat)
  | inboundRateRelease (region : Nat) (place : Nat)
  | remoteCompletion (req : Nat) (status : Nat) (data : List Nat)
  | remoteTimeout (req : Nat)
  | remoteStoreFailure (req : Nat) (status : Nat)
  | peerReset (peer : Nat)
  | hostDetach (host : Nat)
  | contextCreate (host : Nat) (msg : List Nat)
  | contextDestroy (host : Nat) (msg : List Nat)
  | preempt (host : Nat) (msg : List Nat)
  | resume (host : Nat) (msg : List Nat)
  | regionSet (host : Nat) (msg : List Nat)
  | regionClear (host : Nat) (msg : List Nat)
  | stampRead (host : Nat) (msg : List Nat)
  | fencePart (host : Nat) (msg : List Nat)
  | returnPart (host : Nat) (msg : List Nat)
  | partLeaveService (core : Nat)
  | firmwarePush (host : Nat) (msg : List Nat)
  | attest (host : Nat) (msg : List Nat)
  | powerCap (host : Nat) (msg : List Nat)
  | debugStepOn (host : Nat) (msg : List Nat)
  | debugStepOff (host : Nat) (msg : List Nat)
  | debugWatchSet (host : Nat) (msg : List Nat)
  | debugWatchClear (host : Nat) (msg : List Nat)
  | debugHalt (host : Nat) (msg : List Nat)
  | keepalive (host : Nat) (msg : List Nat)
  | moduleReset
  | schedulerHeartbeat (core : Nat)
  | heartbeatTimeout (core : Nat)
  | hbmRowRetire (stack : Nat) (row : Nat)
  | coreFailure (core : Nat)
  | thermalThrottle (die : Nat)
  | thermalShutdown (die : Nat)
  | unallocatedWord (w : Nat)
  | fetchFault
  | engineUnitWrite (op : Nat)
  | contextTimeout (ctx : Nat)
  | contextWipe (ctx : Nat)
  | linkDown (port : Nat)
  | linkUp (port : Nat)
  | egressRateRelease (req : Nat)
  | connectionSetup (peer : Nat) (kind : Nat)
  | unknownOp (host : Nat) (msg : List Nat)
  | eccError (place : Nat) (loc : Nat) (corrected : Bool)
  | thermalThrottleEnd (die : Nat)
  deriving DecidableEq, Repr

end Sys2Proof
end

