-- ==== Sys2Proof/WellFormed.lean ====
section
/-! DEFINITION. Which terms of Instr an encoding can hold: every field fits in its bits. -/

namespace Sys2Proof

/-- A field value fits in `n` bits. -/
def fits (n v : Nat) : Bool := decide (v < 2 ^ n)

/-- Every field of a word row fits the bits its format gives it (R44). The operands of an event name things of the
state or carry a message of bytes; a lane number is below 32, a lane mask below 2^32, and a byte below 256. -/
def Instr.wf (i : Instr) : Bool :=
  match i with
  | .sAdd d a b => fits 7 d && fits 7 a && fits 7 b
  | .sAddImm d a i => fits 7 d && fits 7 a && fits 7 i
  | .vAdd d a b => fits 7 d && fits 7 a && fits 7 b
  | .vAddImm d a i => fits 7 d && fits 7 a && fits 7 i
  | .sSub d a b => fits 7 d && fits 7 a && fits 7 b
  | .sSubImm d a i => fits 7 d && fits 7 a && fits 7 i
  | .vSub d a b => fits 7 d && fits 7 a && fits 7 b
  | .vSubImm d a i => fits 7 d && fits 7 a && fits 7 i
  | .sMullo d a b => fits 7 d && fits 7 a && fits 7 b
  | .sMulloImm d a i => fits 7 d && fits 7 a && fits 7 i
  | .vMullo d a b => fits 7 d && fits 7 a && fits 7 b
  | .vMulloImm d a i => fits 7 d && fits 7 a && fits 7 i
  | .sMulhiS d a b => fits 7 d && fits 7 a && fits 7 b
  | .sMulhiSImm d a i => fits 7 d && fits 7 a && fits 7 i
  | .vMulhiS d a b => fits 7 d && fits 7 a && fits 7 b
  | .vMulhiSImm d a i => fits 7 d && fits 7 a && fits 7 i
  | .sMulhiZ d a b => fits 7 d && fits 7 a && fits 7 b
  | .sMulhiZImm d a i => fits 7 d && fits 7 a && fits 7 i
  | .vMulhiZ d a b => fits 7 d && fits 7 a && fits 7 b
  | .vMulhiZImm d a i => fits 7 d && fits 7 a && fits 7 i
  | .sMad d a b => fits 7 d && fits 7 a && fits 7 b
  | .sMadImm d a i => fits 7 d && fits 7 a && fits 7 i
  | .vMad d a b => fits 7 d && fits 7 a && fits 7 b
  | .vMadImm d a i => fits 7 d && fits 7 a && fits 7 i
  | .sMinS d a b => fits 7 d && fits 7 a && fits 7 b
  | .sMinSImm d a i => fits 7 d && fits 7 a && fits 7 i
  | .vMinS d a b => fits 7 d && fits 7 a && fits 7 b
  | .vMinSImm d a i => fits 7 d && fits 7 a && fits 7 i
  | .sMaxS d a b => fits 7 d && fits 7 a && fits 7 b
  | .sMaxSImm d a i => fits 7 d && fits 7 a && fits 7 i
  | .vMaxS d a b => fits 7 d && fits 7 a && fits 7 b
  | .vMaxSImm d a i => fits 7 d && fits 7 a && fits 7 i
  | .sMinZ d a b => fits 7 d && fits 7 a && fits 7 b
  | .sMinZImm d a i => fits 7 d && fits 7 a && fits 7 i
  | .vMinZ d a b => fits 7 d && fits 7 a && fits 7 b
  | .vMinZImm d a i => fits 7 d && fits 7 a && fits 7 i
  | .sMaxZ d a b => fits 7 d && fits 7 a && fits 7 b
  | .sMaxZImm d a i => fits 7 d && fits 7 a && fits 7 i
  | .vMaxZ d a b => fits 7 d && fits 7 a && fits 7 b
  | .vMaxZImm d a i => fits 7 d && fits 7 a && fits 7 i
  | .sAbsdiff d a b => fits 7 d && fits 7 a && fits 7 b
  | .sAbsdiffImm d a i => fits 7 d && fits 7 a && fits 7 i
  | .vAbsdiff d a b => fits 7 d && fits 7 a && fits 7 b
  | .vAbsdiffImm d a i => fits 7 d && fits 7 a && fits 7 i
  | .sAddsatS d a b => fits 7 d && fits 7 a && fits 7 b
  | .sAddsatSImm d a i => fits 7 d && fits 7 a && fits 7 i
  | .vAddsatS d a b => fits 7 d && fits 7 a && fits 7 b
  | .vAddsatSImm d a i => fits 7 d && fits 7 a && fits 7 i
  | .sSubsatS d a b => fits 7 d && fits 7 a && fits 7 b
  | .sSubsatSImm d a i => fits 7 d && fits 7 a && fits 7 i
  | .vSubsatS d a b => fits 7 d && fits 7 a && fits 7 b
  | .vSubsatSImm d a i => fits 7 d && fits 7 a && fits 7 i
  | .sAvgZ d a b => fits 7 d && fits 7 a && fits 7 b
  | .sAvgZImm d a i => fits 7 d && fits 7 a && fits 7 i
  | .vAvgZ d a b => fits 7 d && fits 7 a && fits 7 b
  | .vAvgZImm d a i => fits 7 d && fits 7 a && fits 7 i
  | .sAnd d a b => fits 7 d && fits 7 a && fits 7 b
  | .sAndImm d a i => fits 7 d && fits 7 a && fits 7 i
  | .vAnd d a b => fits 7 d && fits 7 a && fits 7 b
  | .vAndImm d a i => fits 7 d && fits 7 a && fits 7 i
  | .sOr d a b => fits 7 d && fits 7 a && fits 7 b
  | .sOrImm d a i => fits 7 d && fits 7 a && fits 7 i
  | .vOr d a b => fits 7 d && fits 7 a && fits 7 b
  | .vOrImm d a i => fits 7 d && fits 7 a && fits 7 i
  | .sXor d a b => fits 7 d && fits 7 a && fits 7 b
  | .sXorImm d a i => fits 7 d && fits 7 a && fits 7 i
  | .vXor d a b => fits 7 d && fits 7 a && fits 7 b
  | .vXorImm d a i => fits 7 d && fits 7 a && fits 7 i
  | .sAndn d a b => fits 7 d && fits 7 a && fits 7 b
  | .sAndnImm d a i => fits 7 d && fits 7 a && fits 7 i
  | .vAndn d a b => fits 7 d && fits 7 a && fits 7 b
  | .vAndnImm d a i => fits 7 d && fits 7 a && fits 7 i
  | .sOrn d a b => fits 7 d && fits 7 a && fits 7 b
  | .sOrnImm d a i => fits 7 d && fits 7 a && fits 7 i
  | .vOrn d a b => fits 7 d && fits 7 a && fits 7 b
  | .vOrnImm d a i => fits 7 d && fits 7 a && fits 7 i
  | .sXnor d a b => fits 7 d && fits 7 a && fits 7 b
  | .sXnorImm d a i => fits 7 d && fits 7 a && fits 7 i
  | .vXnor d a b => fits 7 d && fits 7 a && fits 7 b
  | .vXnorImm d a i => fits 7 d && fits 7 a && fits 7 i
  | .sShl d a b => fits 7 d && fits 7 a && fits 7 b
  | .sShlImm d a i => fits 7 d && fits 7 a && fits 7 i
  | .vShl d a b => fits 7 d && fits 7 a && fits 7 b
  | .vShlImm d a i => fits 7 d && fits 7 a && fits 7 i
  | .sShr d a b => fits 7 d && fits 7 a && fits 7 b
  | .sShrImm d a i => fits 7 d && fits 7 a && fits 7 i
  | .vShr d a b => fits 7 d && fits 7 a && fits 7 b
  | .vShrImm d a i => fits 7 d && fits 7 a && fits 7 i
  | .sSar d a b => fits 7 d && fits 7 a && fits 7 b
  | .sSarImm d a i => fits 7 d && fits 7 a && fits 7 i
  | .vSar d a b => fits 7 d && fits 7 a && fits 7 b
  | .vSarImm d a i => fits 7 d && fits 7 a && fits 7 i
  | .sRotl d a b => fits 7 d && fits 7 a && fits 7 b
  | .sRotlImm d a i => fits 7 d && fits 7 a && fits 7 i
  | .vRotl d a b => fits 7 d && fits 7 a && fits 7 b
  | .vRotlImm d a i => fits 7 d && fits 7 a && fits 7 i
  | .sRotr d a b => fits 7 d && fits 7 a && fits 7 b
  | .sRotrImm d a i => fits 7 d && fits 7 a && fits 7 i
  | .vRotr d a b => fits 7 d && fits 7 a && fits 7 b
  | .vRotrImm d a i => fits 7 d && fits 7 a && fits 7 i
  | .sClz d a => fits 7 d && fits 7 a
  | .vClz d a => fits 7 d && fits 7 a
  | .sPopc d a => fits 7 d && fits 7 a
  | .vPopc d a => fits 7 d && fits 7 a
  | .sBrev d a => fits 7 d && fits 7 a
  | .vBrev d a => fits 7 d && fits 7 a
  | .sMov d a => fits 7 d && fits 7 a
  | .sMovImm d i => fits 7 d && fits 7 i
  | .vMov d a => fits 7 d && fits 7 a
  | .vMovImm d i => fits 7 d && fits 7 i
  | .sNot d a => fits 7 d && fits 7 a
  | .vNot d a => fits 7 d && fits 7 a
  | .sBfeS d a b => fits 7 d && fits 7 a && fits 7 b
  | .vBfeS d a b => fits 7 d && fits 7 a && fits 7 b
  | .sBfeZ d a b => fits 7 d && fits 7 a && fits 7 b
  | .vBfeZ d a b => fits 7 d && fits 7 a && fits 7 b
  | .sBfi d a b => fits 7 d && fits 7 a && fits 7 b
  | .vBfi d a b => fits 7 d && fits 7 a && fits 7 b
  | .sPrmt d a b => fits 7 d && fits 7 a && fits 7 b
  | .vPrmt d a b => fits 7 d && fits 7 a && fits 7 b
  | .sAdd64 d a b => fits 7 d && fits 7 a && fits 7 b
  | .vAdd64 d a b => fits 7 d && fits 7 a && fits 7 b
  | .sSub64 d a b => fits 7 d && fits 7 a && fits 7 b
  | .vSub64 d a b => fits 7 d && fits 7 a && fits 7 b
  | .sShl64 d a b => fits 7 d && fits 7 a && fits 7 b
  | .vShl64 d a b => fits 7 d && fits 7 a && fits 7 b
  | .sShr64 d a b => fits 7 d && fits 7 a && fits 7 b
  | .vShr64 d a b => fits 7 d && fits 7 a && fits 7 b
  | .sSar64 d a b => fits 7 d && fits 7 a && fits 7 b
  | .vSar64 d a b => fits 7 d && fits 7 a && fits 7 b
  | .sMul64lo d a b => fits 7 d && fits 7 a && fits 7 b
  | .vMul64lo d a b => fits 7 d && fits 7 a && fits 7 b
  | .sMovi d i => fits 7 d && fits 18 i
  | .vMovi d i => fits 7 d && fits 18 i
  | .sFadd d a b => fits 7 d && fits 7 a && fits 7 b
  | .vFadd d a b => fits 7 d && fits 7 a && fits 7 b
  | .sFsub d a b => fits 7 d && fits 7 a && fits 7 b
  | .vFsub d a b => fits 7 d && fits 7 a && fits 7 b
  | .sFmul d a b => fits 7 d && fits 7 a && fits 7 b
  | .vFmul d a b => fits 7 d && fits 7 a && fits 7 b
  | .sFfma d a b => fits 7 d && fits 7 a && fits 7 b
  | .vFfma d a b => fits 7 d && fits 7 a && fits 7 b
  | .sFmin d a b => fits 7 d && fits 7 a && fits 7 b
  | .vFmin d a b => fits 7 d && fits 7 a && fits 7 b
  | .sFmax d a b => fits 7 d && fits 7 a && fits 7 b
  | .vFmax d a b => fits 7 d && fits 7 a && fits 7 b
  | .sFabs d a => fits 7 d && fits 7 a
  | .vFabs d a => fits 7 d && fits 7 a
  | .sFneg d a => fits 7 d && fits 7 a
  | .vFneg d a => fits 7 d && fits 7 a
  | .sFcopysign d a b => fits 7 d && fits 7 a && fits 7 b
  | .vFcopysign d a b => fits 7 d && fits 7 a && fits 7 b
  | .sFclass d a => fits 7 d && fits 7 a
  | .vFclass d a => fits 7 d && fits 7 a
  | .sFrcp d a => fits 7 d && fits 7 a
  | .vFrcp d a => fits 7 d && fits 7 a
  | .sFrsq d a => fits 7 d && fits 7 a
  | .vFrsq d a => fits 7 d && fits 7 a
  | .sFsqrt d a => fits 7 d && fits 7 a
  | .vFsqrt d a => fits 7 d && fits 7 a
  | .sFexp2 d a => fits 7 d && fits 7 a
  | .vFexp2 d a => fits 7 d && fits 7 a
  | .sFlog2 d a => fits 7 d && fits 7 a
  | .vFlog2 d a => fits 7 d && fits 7 a
  | .sFsinpi d a => fits 7 d && fits 7 a
  | .vFsinpi d a => fits 7 d && fits 7 a
  | .sFcospi d a => fits 7 d && fits 7 a
  | .vFcospi d a => fits 7 d && fits 7 a
  | .sFtanh d a => fits 7 d && fits 7 a
  | .vFtanh d a => fits 7 d && fits 7 a
  | .sFrintNe d a => fits 7 d && fits 7 a
  | .vFrintNe d a => fits 7 d && fits 7 a
  | .sFrintZ d a => fits 7 d && fits 7 a
  | .vFrintZ d a => fits 7 d && fits 7 a
  | .sFrintDn d a => fits 7 d && fits 7 a
  | .vFrintDn d a => fits 7 d && fits 7 a
  | .sFrintUp d a => fits 7 d && fits 7 a
  | .vFrintUp d a => fits 7 d && fits 7 a
  | .sFaddF16x2 d a b => fits 7 d && fits 7 a && fits 7 b
  | .vFaddF16x2 d a b => fits 7 d && fits 7 a && fits 7 b
  | .sFsubF16x2 d a b => fits 7 d && fits 7 a && fits 7 b
  | .vFsubF16x2 d a b => fits 7 d && fits 7 a && fits 7 b
  | .sFmulF16x2 d a b => fits 7 d && fits 7 a && fits 7 b
  | .vFmulF16x2 d a b => fits 7 d && fits 7 a && fits 7 b
  | .sFfmaF16x2 d a b => fits 7 d && fits 7 a && fits 7 b
  | .vFfmaF16x2 d a b => fits 7 d && fits 7 a && fits 7 b
  | .sFminF16x2 d a b => fits 7 d && fits 7 a && fits 7 b
  | .vFminF16x2 d a b => fits 7 d && fits 7 a && fits 7 b
  | .sFmaxF16x2 d a b => fits 7 d && fits 7 a && fits 7 b
  | .vFmaxF16x2 d a b => fits 7 d && fits 7 a && fits 7 b
  | .sFaddBf16x2 d a b => fits 7 d && fits 7 a && fits 7 b
  | .vFaddBf16x2 d a b => fits 7 d && fits 7 a && fits 7 b
  | .sFsubBf16x2 d a b => fits 7 d && fits 7 a && fits 7 b
  | .vFsubBf16x2 d a b => fits 7 d && fits 7 a && fits 7 b
  | .sFmulBf16x2 d a b => fits 7 d && fits 7 a && fits 7 b
  | .vFmulBf16x2 d a b => fits 7 d && fits 7 a && fits 7 b
  | .sFfmaBf16x2 d a b => fits 7 d && fits 7 a && fits 7 b
  | .vFfmaBf16x2 d a b => fits 7 d && fits 7 a && fits 7 b
  | .sFminBf16x2 d a b => fits 7 d && fits 7 a && fits 7 b
  | .vFminBf16x2 d a b => fits 7 d && fits 7 a && fits 7 b
  | .sFmaxBf16x2 d a b => fits 7 d && fits 7 a && fits 7 b
  | .vFmaxBf16x2 d a b => fits 7 d && fits 7 a && fits 7 b
  | .sCvt f d a s t => fits 4 f && fits 7 d && fits 7 a && fits 4 s && fits 1 t
  | .vCvt f d a s t => fits 4 f && fits 7 d && fits 7 a && fits 4 s && fits 1 t
  | .sCmp k t m a b => fits 4 k && fits 3 t && fits 4 m && fits 7 a && fits 7 b
  | .vCmp k t m a b => fits 4 k && fits 3 t && fits 4 m && fits 7 a && fits 7 b
  | .sFcmp k t m a b => fits 4 k && fits 3 t && fits 4 m && fits 7 a && fits 7 b
  | .vFcmp k t m a b => fits 4 k && fits 3 t && fits 4 m && fits 7 a && fits 7 b
  | .sSel k d a b => fits 3 k && fits 7 d && fits 7 a && fits 7 b
  | .vSel k d a b => fits 3 k && fits 7 d && fits 7 a && fits 7 b
  | .sPget d => fits 7 d
  | .vPget d => fits 7 d
  | .vPpop n => fits 3 n
  | .vPdup k => fits 3 k
  | .vPand k => fits 3 k
  | .vPor k => fits 3 k
  | .vPxor k => fits 3 k
  | .vPnot k => fits 3 k
  | .vPswap k => fits 3 k
  | .vPpush b => fits 7 b
  | .vPset b => fits 7 b
  | .vShflIdx d a b => fits 7 d && fits 7 a && fits 7 b
  | .vShflUp d a b => fits 7 d && fits 7 a && fits 7 b
  | .vShflDown d a b => fits 7 d && fits 7 a && fits 7 b
  | .vShflXor d a b => fits 7 d && fits 7 a && fits 7 b
  | .vBcast d a b => fits 7 d && fits 7 a && fits 7 b
  | .vVoteBallot d a => fits 7 d && fits 7 a
  | .vReduxAdd d a t => fits 7 d && fits 7 a && fits 7 t
  | .vReduxMin d a t => fits 7 d && fits 7 a && fits 7 t
  | .vReduxMax d a t => fits 7 d && fits 7 a && fits 7 t
  | .vScanIncl d a t => fits 7 d && fits 7 a && fits 7 t
  | .vScanExcl d a t => fits 7 d && fits 7 a && fits 7 t
  | .vMatch d a => fits 7 d && fits 7 a
  | .vIsect d a b => fits 7 d && fits 7 a && fits 7 b
  | .sMovx d i k => fits 7 d && fits 7 i && fits 7 k
  | .vMovx d i k => fits 7 d && fits 7 i && fits 7 k
  | .sMovxw s i k => fits 7 s && fits 7 i && fits 7 k
  | .vMovxw s i k => fits 7 s && fits 7 i && fits 7 k
  | .mLd z d a o => fits 3 z && fits 7 d && fits 7 a && fits 8 o
  | .mLdPr z d a o => fits 3 z && fits 7 d && fits 7 a && fits 8 o
  | .mLdAcq z d a o => fits 3 z && fits 7 d && fits 7 a && fits 8 o
  | .mLdu z d a o => fits 3 z && fits 7 d && fits 7 a && fits 8 o
  | .mSt z d a o => fits 3 z && fits 7 d && fits 7 a && fits 8 o
  | .mStRel z d a o => fits 3 z && fits 7 d && fits 7 a && fits 8 o
  | .mAtomAddS32 d a b => fits 7 d && fits 7 a && fits 7 b
  | .mAtomAndB32 d a b => fits 7 d && fits 7 a && fits 7 b
  | .mAtomOrB32 d a b => fits 7 d && fits 7 a && fits 7 b
  | .mAtomXorB32 d a b => fits 7 d && fits 7 a && fits 7 b
  | .mAtomMinS32 d a b => fits 7 d && fits 7 a && fits 7 b
  | .mAtomMaxS32 d a b => fits 7 d && fits 7 a && fits 7 b
  | .mAtomMinZ32 d a b => fits 7 d && fits 7 a && fits 7 b
  | .mAtomMaxZ32 d a b => fits 7 d && fits 7 a && fits 7 b
  | .mAtomExchB32 d a b => fits 7 d && fits 7 a && fits 7 b
  | .mAtomAddS64 d a b => fits 7 d && fits 7 a && fits 7 b
  | .mAtomAndB64 d a b => fits 7 d && fits 7 a && fits 7 b
  | .mAtomOrB64 d a b => fits 7 d && fits 7 a && fits 7 b
  | .mAtomXorB64 d a b => fits 7 d && fits 7 a && fits 7 b
  | .mAtomMinS64 d a b => fits 7 d && fits 7 a && fits 7 b
  | .mAtomMaxS64 d a b => fits 7 d && fits 7 a && fits 7 b
  | .mAtomMinZ64 d a b => fits 7 d && fits 7 a && fits 7 b
  | .mAtomMaxZ64 d a b => fits 7 d && fits 7 a && fits 7 b
  | .mAtomExchB64 d a b => fits 7 d && fits 7 a && fits 7 b
  | .mAtomAddF32 d a b => fits 7 d && fits 7 a && fits 7 b
  | .mAtomMinF32 d a b => fits 7 d && fits 7 a && fits 7 b
  | .mAtomMaxF32 d a b => fits 7 d && fits 7 a && fits 7 b
  | .mAtomAddF16x2 d a b => fits 7 d && fits 7 a && fits 7 b
  | .mAtomAddBf16x2 d a b => fits 7 d && fits 7 a && fits 7 b
  | .mRedAddS32 a b => fits 7 a && fits 7 b
  | .mRedAddS64 a b => fits 7 a && fits 7 b
  | .mRedAddF32 a b => fits 7 a && fits 7 b
  | .mRedMinS32 a b => fits 7 a && fits 7 b
  | .mRedMaxS32 a b => fits 7 a && fits 7 b
  | .mRedMinZ32 a b => fits 7 a && fits 7 b
  | .mRedMaxZ32 a b => fits 7 a && fits 7 b
  | .mRedAndB32 a b => fits 7 a && fits 7 b
  | .mRedOrB32 a b => fits 7 a && fits 7 b
  | .mRedXorB32 a b => fits 7 a && fits 7 b
  | .mRedMinF32 a b => fits 7 a && fits 7 b
  | .mRedMaxF32 a b => fits 7 a && fits 7 b
  | .mRedAddF16x2 a b => fits 7 a && fits 7 b
  | .mRedAddBf16x2 a b => fits 7 a && fits 7 b
  | .mCasB32 d a b => fits 7 d && fits 7 a && fits 7 b
  | .mCasB64 d a b => fits 7 d && fits 7 a && fits 7 b
  | .mFenceAcq s => fits 3 s
  | .mFenceRel s => fits 3 s
  | .mFenceFull s => fits 3 s
  | .mMwait o a b => fits 4 o && fits 7 a && fits 7 b
  | .mPgreq a => fits 7 a
  | .mPgprobe d a => fits 7 d && fits 7 a
  | .mPref a => fits 7 a
  | .mTexSample d a b => fits 7 d && fits 7 a && fits 7 b
  | .mTexSampleLod d a b => fits 7 d && fits 7 a && fits 7 b
  | .mTexSampleGrad d a b => fits 7 d && fits 7 a && fits 7 b
  | .mTexFetch d a b => fits 7 d && fits 7 a && fits 7 b
  | .mTexGath4 d a b => fits 7 d && fits 7 a && fits 7 b
  | .mTexqSize d a b => fits 7 d && fits 7 a && fits 7 b
  | .mTexqLevels d a => fits 7 d && fits 7 a
  | .mTexqFormat d a => fits 7 d && fits 7 a
  | .eCpy p t s => fits 7 p && fits 6 t && fits 2 s
  | .eGath p t => fits 7 p && fits 6 t
  | .eScat o p t => fits 4 o && fits 7 p && fits 6 t
  | .eMma p => fits 7 p
  | .eMsrch p => fits 7 p
  | .eQuant p => fits 7 p
  | .eKselThr p t => fits 7 p && fits 6 t
  | .eKselTopk p t => fits 7 p && fits 6 t
  | .eKgat p t => fits 7 p && fits 6 t
  | .eKsum p t => fits 7 p && fits 6 t
  | .eSpawn p => fits 7 p
  | .eSpawnDie p x => fits 7 p && fits 7 x
  | .eEnq p q => fits 7 p && fits 6 q
  | .eSsbld p t => fits 7 p && fits 6 t
  | .eBind p k => fits 7 p && fits 3 k
  | .eEmit p => fits 7 p
  | .eRelaunch p => fits 7 p
  | .eTdset p => fits 7 p
  | .cBr k m o => fits 3 k && fits 3 m && fits 19 o
  | .cCall j o => fits 6 j && fits 19 o
  | .cJmp a => fits 7 a
  | .cCallx d a => fits 7 d && fits 7 a
  | .cRet a => fits 7 a
  | .cWait l s c x => fits 6 l && fits 6 s && fits 6 c && fits 6 x
  | .cTwaitAny a => fits 7 a
  | .cTwaitAll a => fits 7 a
  | .cTffs d a => fits 7 d && fits 7 a
  | .cTclr a => fits 7 a
  | .cBarArrive s i => fits 3 s && fits 4 i
  | .cBarWait s i => fits 3 s && fits 4 i
  | .cBarSync s i => fits 3 s && fits 4 i
  | .cNop => true
  | .cYield => true
  | .cExit => true
  | .cBrk b => fits 7 b
  | .cTrap n => fits 3 n
  | .yGsr d r => fits 7 d && fits 7 r
  | .ySsr r b => fits 7 r && fits 7 b
  | .yResume a b => fits 7 a && fits 7 b
  | .yKill a b => fits 7 a && fits 7 b
  | .yCtxinfo d n => fits 7 d && fits 7 n
  | .hImm x => fits 25 x
  | .hGuard k n => fits 3 k && fits 3 n
  | .hGuardNot k n => fits 3 k && fits 3 n
  | .hSrc3 c => fits 7 c
  | .hReuse x n => fits 7 x && fits 2 n
  | .hLast x y n => fits 7 x && fits 7 y && fits 2 n
  | .hRnd m => fits 2 m
  | .hScope s => fits 3 s
  | .hSched n => fits 5 n
  | .hCache p => fits 3 p
  | .loadRetire _ lanes => fits 32 lanes
  | .storePerform _ lanes => fits 32 lanes
  | .atomicPerform _ lanes => fits 32 lanes
  | .reductionPlace _ lanes => fits 32 lanes
  | .updateLineMerge _ _ => true
  | .texRetire _ => true
  | .waitComplete _ lane => fits 5 lane
  | .tagSet _ => true
  | .tagWaitComplete _ lane => fits 5 lane
  | .barrierPhaseComplete _ => true
  | .monitorWake _ lane => fits 5 lane
  | .monitorReread _ lane => fits 5 lane
  | .blockSwapOut _ _ => true
  | .blockSwapIn _ => true
  | .scratchRefill _ _ _ => true
  | .pageWaitRetry _ lane => fits 5 lane
  | .pteChange _ level va value _ => fits 3 level && fits 64 va && fits 64 value
  | .residencyPresent _ va => fits 64 va
  | .residencyRefuse _ va => fits 64 va
  | .residencyEvict _ va => fits 64 va
  | .migration _ va _ => fits 64 va
  | .migrationRequest _ va _ _ => fits 64 va
  | .kickWrite _ _ value => fits 64 value
  | .packetTake _ _ => true
  | .packetHeaderWake _ _ => true
  | .launch _ => true
  | .seed _ => true
  | .graphReplay _ => true
  | .relaunch _ => true
  | .signal _ => true
  | .waitValue _ => true
  | .waitValueRecheck _ => true
  | .barrierOnly _ => true
  | .queueCreate _ => true
  | .queueDestroy _ => true
  | .settings _ => true
  | .graphBind _ => true
  | .packetComplete _ => true
  | .graphKick _ _ table => fits 64 table
  | .graphNodeStart _ _ _ => true
  | .blockStart _ _ => true
  | .warpPlace _ _ => true
  | .warpEnd _ => true
  | .spawnRetire _ => true
  | .binTimerExpiry die _ => fits 2 die
  | .spillRingMove _ die => fits 2 die
  | .hangDetected _ => true
  | .cpyComplete _ => true
  | .gathComplete _ => true
  | .scatComplete _ => true
  | .mmaComplete _ => true
  | .msrchComplete _ => true
  | .quantComplete _ => true
  | .kselComplete _ => true
  | .kgatComplete _ => true
  | .ksumInstall _ => true
  | .ksumComplete _ => true
  | .engineStallResume _ => true
  | .engineFaultStop _ => true
  | .enqRetire _ => true
  | .emitAccept _ lanes => fits 32 lanes
  | .binnerAccept _ lane => fits 5 lane
  | .buildComplete _ => true
  | .buildRecord _ lane => fits 5 lane
  | .rasterLeaf _ _ _ => true
  | .blenderApply _ => true
  | .passEnd _ => true
  | .passAutoClose _ => true
  | .pixelPreemptDeadline _ => true
  | .inboundRmaWrite _ _ addr data => fits 64 addr && data.all (fits 8)
  | .inboundRmaRead _ _ addr _ => fits 64 addr
  | .inboundFetchAdd _ _ addr value => fits 64 addr && fits 64 value
  | .inboundSwap _ _ addr value => fits 64 addr && fits 64 value
  | .inboundCas _ _ addr expect value => fits 64 addr && fits 64 expect && fits 64 value
  | .inboundRateRelease _ _ => true
  | .remoteCompletion _ _ data => data.all (fits 8)
  | .remoteTimeout _ => true
  | .remoteStoreFailure _ _ => true
  | .peerReset _ => true
  | .hostDetach _ => true
  | .contextCreate _ msg => msg.all (fits 8)
  | .contextDestroy _ msg => msg.all (fits 8)
  | .preempt _ msg => msg.all (fits 8)
  | .resume _ msg => msg.all (fits 8)
  | .regionSet _ msg => msg.all (fits 8)
  | .regionClear _ msg => msg.all (fits 8)
  | .stampRead _ msg => msg.all (fits 8)
  | .fencePart _ msg => msg.all (fits 8)
  | .returnPart _ msg => msg.all (fits 8)
  | .partLeaveService _ => true
  | .firmwarePush _ msg => msg.all (fits 8)
  | .attest _ msg => msg.all (fits 8)
  | .powerCap _ msg => msg.all (fits 8)
  | .debugStepOn _ msg => msg.all (fits 8)
  | .debugStepOff _ msg => msg.all (fits 8)
  | .debugWatchSet _ msg => msg.all (fits 8)
  | .debugWatchClear _ msg => msg.all (fits 8)
  | .debugHalt _ msg => msg.all (fits 8)
  | .keepalive _ msg => msg.all (fits 8)
  | .moduleReset => true
  | .schedulerHeartbeat _ => true
  | .heartbeatTimeout _ => true
  | .hbmRowRetire _ _ => true
  | .coreFailure _ => true
  | .thermalThrottle die => fits 2 die
  | .thermalShutdown die => fits 2 die
  | .unallocatedWord w => fits 32 w
  | .fetchFault => true
  | .engineUnitWrite _ => true
  | .contextTimeout _ => true
  | .contextWipe _ => true
  | .linkDown _ => true
  | .linkUp _ => true
  | .egressRateRelease _ => true
  | .connectionSetup _ _ => true
  | .unknownOp _ msg => msg.all (fits 8)
  | .eccError _ _ _ => true
  | .thermalThrottleEnd die => fits 2 die

end Sys2Proof
end

