-- ==== Sys2Proof/Decode.lean ====
section
/-! DEFINITION. The decoder (R42 to R58), total on any word and any bytes, and the encoder. -/

namespace Sys2Proof

/-- Why a word is no instruction (R58), or why bytes hold none. -/
inductive DecodeError where
  /-- The word lies in an unallocated cell of R51 to R56, or is an unallocated hint kind: ILLEGAL_OPCODE. -/
  | illegalOpcode
  /-- The word is allocated and reserved bits of it are set, which the mask names: RESERVED_FIELD. -/
  | reservedField (mask : Nat)
  /-- Fewer bytes than one word are left. -/
  | truncated
  deriving DecidableEq, Repr

/-- The field of `n` bits that starts at bit `lo` of the word. -/
def fld (w lo n : Nat) : Nat := w / 2 ^ lo % 2 ^ n

/-- The same field left in its place, for a mask of offending bits. -/
def held (w lo n : Nat) : Nat := fld w lo n * 2 ^ lo

/-- An allocated word is its instruction when its reserved bits are all zero (R58). -/
def whenZero (r : Nat) (i : Instr) : Except DecodeError Instr :=
  if r = 0 then .ok i else .error (.reservedField r)

/-- Class 0, major 0x00. -/
noncomputable def decode00 (w : Nat) : Except DecodeError Instr :=
  match fld w 21 4 with
  | 0 => .ok (.sAdd (fld w 14 7) (fld w 7 7) (fld w 0 7))
  | 1 => .ok (.sSub (fld w 14 7) (fld w 7 7) (fld w 0 7))
  | 2 => .ok (.sMullo (fld w 14 7) (fld w 7 7) (fld w 0 7))
  | 3 => .ok (.sMulhiS (fld w 14 7) (fld w 7 7) (fld w 0 7))
  | 4 => .ok (.sMulhiZ (fld w 14 7) (fld w 7 7) (fld w 0 7))
  | 5 => .ok (.sMad (fld w 14 7) (fld w 7 7) (fld w 0 7))
  | 6 => .ok (.sMinS (fld w 14 7) (fld w 7 7) (fld w 0 7))
  | 7 => .ok (.sMaxS (fld w 14 7) (fld w 7 7) (fld w 0 7))
  | 8 => .ok (.sMinZ (fld w 14 7) (fld w 7 7) (fld w 0 7))
  | 9 => .ok (.sMaxZ (fld w 14 7) (fld w 7 7) (fld w 0 7))
  | 10 => .ok (.sAbsdiff (fld w 14 7) (fld w 7 7) (fld w 0 7))
  | 11 => .ok (.sAddsatS (fld w 14 7) (fld w 7 7) (fld w 0 7))
  | 12 => .ok (.sSubsatS (fld w 14 7) (fld w 7 7) (fld w 0 7))
  | 13 => .ok (.sAvgZ (fld w 14 7) (fld w 7 7) (fld w 0 7))
  | _ => .error .illegalOpcode

/-- Class 0, major 0x01. -/
noncomputable def decode01 (w : Nat) : Except DecodeError Instr :=
  match fld w 21 4 with
  | 0 => .ok (.sAddImm (fld w 14 7) (fld w 7 7) (fld w 0 7))
  | 1 => .ok (.sSubImm (fld w 14 7) (fld w 7 7) (fld w 0 7))
  | 2 => .ok (.sMulloImm (fld w 14 7) (fld w 7 7) (fld w 0 7))
  | 3 => .ok (.sMulhiSImm (fld w 14 7) (fld w 7 7) (fld w 0 7))
  | 4 => .ok (.sMulhiZImm (fld w 14 7) (fld w 7 7) (fld w 0 7))
  | 5 => .ok (.sMadImm (fld w 14 7) (fld w 7 7) (fld w 0 7))
  | 6 => .ok (.sMinSImm (fld w 14 7) (fld w 7 7) (fld w 0 7))
  | 7 => .ok (.sMaxSImm (fld w 14 7) (fld w 7 7) (fld w 0 7))
  | 8 => .ok (.sMinZImm (fld w 14 7) (fld w 7 7) (fld w 0 7))
  | 9 => .ok (.sMaxZImm (fld w 14 7) (fld w 7 7) (fld w 0 7))
  | 10 => .ok (.sAbsdiffImm (fld w 14 7) (fld w 7 7) (fld w 0 7))
  | 11 => .ok (.sAddsatSImm (fld w 14 7) (fld w 7 7) (fld w 0 7))
  | 12 => .ok (.sSubsatSImm (fld w 14 7) (fld w 7 7) (fld w 0 7))
  | 13 => .ok (.sAvgZImm (fld w 14 7) (fld w 7 7) (fld w 0 7))
  | _ => .error .illegalOpcode

/-- Class 0, major 0x02. -/
noncomputable def decode02 (w : Nat) : Except DecodeError Instr :=
  match fld w 21 4 with
  | 0 => .ok (.sAnd (fld w 14 7) (fld w 7 7) (fld w 0 7))
  | 1 => .ok (.sOr (fld w 14 7) (fld w 7 7) (fld w 0 7))
  | 2 => .ok (.sXor (fld w 14 7) (fld w 7 7) (fld w 0 7))
  | 3 => .ok (.sAndn (fld w 14 7) (fld w 7 7) (fld w 0 7))
  | 4 => .ok (.sOrn (fld w 14 7) (fld w 7 7) (fld w 0 7))
  | 5 => .ok (.sXnor (fld w 14 7) (fld w 7 7) (fld w 0 7))
  | 6 => .ok (.sShl (fld w 14 7) (fld w 7 7) (fld w 0 7))
  | 7 => .ok (.sShr (fld w 14 7) (fld w 7 7) (fld w 0 7))
  | 8 => .ok (.sSar (fld w 14 7) (fld w 7 7) (fld w 0 7))
  | 9 => .ok (.sRotl (fld w 14 7) (fld w 7 7) (fld w 0 7))
  | 10 => .ok (.sRotr (fld w 14 7) (fld w 7 7) (fld w 0 7))
  | 11 => whenZero (held w 0 7) (.sClz (fld w 14 7) (fld w 7 7))
  | 12 => whenZero (held w 0 7) (.sPopc (fld w 14 7) (fld w 7 7))
  | 13 => whenZero (held w 0 7) (.sBrev (fld w 14 7) (fld w 7 7))
  | 14 => whenZero (held w 0 7) (.sMov (fld w 14 7) (fld w 7 7))
  | 15 => whenZero (held w 0 7) (.sNot (fld w 14 7) (fld w 7 7))
  | _ => .error .illegalOpcode

/-- Class 0, major 0x03. -/
noncomputable def decode03 (w : Nat) : Except DecodeError Instr :=
  match fld w 21 4 with
  | 0 => .ok (.sAndImm (fld w 14 7) (fld w 7 7) (fld w 0 7))
  | 1 => .ok (.sOrImm (fld w 14 7) (fld w 7 7) (fld w 0 7))
  | 2 => .ok (.sXorImm (fld w 14 7) (fld w 7 7) (fld w 0 7))
  | 3 => .ok (.sAndnImm (fld w 14 7) (fld w 7 7) (fld w 0 7))
  | 4 => .ok (.sOrnImm (fld w 14 7) (fld w 7 7) (fld w 0 7))
  | 5 => .ok (.sXnorImm (fld w 14 7) (fld w 7 7) (fld w 0 7))
  | 6 => .ok (.sShlImm (fld w 14 7) (fld w 7 7) (fld w 0 7))
  | 7 => .ok (.sShrImm (fld w 14 7) (fld w 7 7) (fld w 0 7))
  | 8 => .ok (.sSarImm (fld w 14 7) (fld w 7 7) (fld w 0 7))
  | 9 => .ok (.sRotlImm (fld w 14 7) (fld w 7 7) (fld w 0 7))
  | 10 => .ok (.sRotrImm (fld w 14 7) (fld w 7 7) (fld w 0 7))
  | 14 => whenZero (held w 7 7) (.sMovImm (fld w 14 7) (fld w 0 7))
  | _ => .error .illegalOpcode

/-- Class 0, major 0x04. -/
noncomputable def decode04 (w : Nat) : Except DecodeError Instr :=
  match fld w 21 4 with
  | 0 => .ok (.sBfeS (fld w 14 7) (fld w 7 7) (fld w 0 7))
  | 1 => .ok (.sBfeZ (fld w 14 7) (fld w 7 7) (fld w 0 7))
  | 2 => .ok (.sBfi (fld w 14 7) (fld w 7 7) (fld w 0 7))
  | 3 => .ok (.sPrmt (fld w 14 7) (fld w 7 7) (fld w 0 7))
  | 4 => .ok (.sAdd64 (fld w 14 7) (fld w 7 7) (fld w 0 7))
  | 5 => .ok (.sSub64 (fld w 14 7) (fld w 7 7) (fld w 0 7))
  | 6 => .ok (.sShl64 (fld w 14 7) (fld w 7 7) (fld w 0 7))
  | 7 => .ok (.sShr64 (fld w 14 7) (fld w 7 7) (fld w 0 7))
  | 8 => .ok (.sSar64 (fld w 14 7) (fld w 7 7) (fld w 0 7))
  | 9 => .ok (.sMul64lo (fld w 14 7) (fld w 7 7) (fld w 0 7))
  | _ => .error .illegalOpcode

/-- Class 0, major 0x05. -/
noncomputable def decode05 (w : Nat) : Except DecodeError Instr :=
  .ok (.sMovi (fld w 18 7) (fld w 0 18))

/-- Class 0, major 0x06. -/
noncomputable def decode06 (w : Nat) : Except DecodeError Instr :=
  match fld w 21 4 with
  | 0 => .ok (.sFadd (fld w 14 7) (fld w 7 7) (fld w 0 7))
  | 1 => .ok (.sFsub (fld w 14 7) (fld w 7 7) (fld w 0 7))
  | 2 => .ok (.sFmul (fld w 14 7) (fld w 7 7) (fld w 0 7))
  | 3 => .ok (.sFfma (fld w 14 7) (fld w 7 7) (fld w 0 7))
  | 4 => .ok (.sFmin (fld w 14 7) (fld w 7 7) (fld w 0 7))
  | 5 => .ok (.sFmax (fld w 14 7) (fld w 7 7) (fld w 0 7))
  | 6 => whenZero (held w 0 7) (.sFabs (fld w 14 7) (fld w 7 7))
  | 7 => whenZero (held w 0 7) (.sFneg (fld w 14 7) (fld w 7 7))
  | 8 => .ok (.sFcopysign (fld w 14 7) (fld w 7 7) (fld w 0 7))
  | 9 => whenZero (held w 0 7) (.sFclass (fld w 14 7) (fld w 7 7))
  | _ => .error .illegalOpcode

/-- Class 0, major 0x07. -/
noncomputable def decode07 (w : Nat) : Except DecodeError Instr :=
  match fld w 21 4 with
  | 0 => whenZero (held w 0 7) (.sFrcp (fld w 14 7) (fld w 7 7))
  | 1 => whenZero (held w 0 7) (.sFrsq (fld w 14 7) (fld w 7 7))
  | 2 => whenZero (held w 0 7) (.sFsqrt (fld w 14 7) (fld w 7 7))
  | 3 => whenZero (held w 0 7) (.sFexp2 (fld w 14 7) (fld w 7 7))
  | 4 => whenZero (held w 0 7) (.sFlog2 (fld w 14 7) (fld w 7 7))
  | 5 => whenZero (held w 0 7) (.sFsinpi (fld w 14 7) (fld w 7 7))
  | 6 => whenZero (held w 0 7) (.sFcospi (fld w 14 7) (fld w 7 7))
  | 7 => whenZero (held w 0 7) (.sFtanh (fld w 14 7) (fld w 7 7))
  | 8 => whenZero (held w 0 7) (.sFrintNe (fld w 14 7) (fld w 7 7))
  | 9 => whenZero (held w 0 7) (.sFrintZ (fld w 14 7) (fld w 7 7))
  | 10 => whenZero (held w 0 7) (.sFrintDn (fld w 14 7) (fld w 7 7))
  | 11 => whenZero (held w 0 7) (.sFrintUp (fld w 14 7) (fld w 7 7))
  | _ => .error .illegalOpcode

/-- Class 0, major 0x08. -/
noncomputable def decode08 (w : Nat) : Except DecodeError Instr :=
  match fld w 21 4 with
  | 0 => .ok (.sFaddF16x2 (fld w 14 7) (fld w 7 7) (fld w 0 7))
  | 1 => .ok (.sFsubF16x2 (fld w 14 7) (fld w 7 7) (fld w 0 7))
  | 2 => .ok (.sFmulF16x2 (fld w 14 7) (fld w 7 7) (fld w 0 7))
  | 3 => .ok (.sFfmaF16x2 (fld w 14 7) (fld w 7 7) (fld w 0 7))
  | 4 => .ok (.sFminF16x2 (fld w 14 7) (fld w 7 7) (fld w 0 7))
  | 5 => .ok (.sFmaxF16x2 (fld w 14 7) (fld w 7 7) (fld w 0 7))
  | 8 => .ok (.sFaddBf16x2 (fld w 14 7) (fld w 7 7) (fld w 0 7))
  | 9 => .ok (.sFsubBf16x2 (fld w 14 7) (fld w 7 7) (fld w 0 7))
  | 10 => .ok (.sFmulBf16x2 (fld w 14 7) (fld w 7 7) (fld w 0 7))
  | 11 => .ok (.sFfmaBf16x2 (fld w 14 7) (fld w 7 7) (fld w 0 7))
  | 12 => .ok (.sFminBf16x2 (fld w 14 7) (fld w 7 7) (fld w 0 7))
  | 13 => .ok (.sFmaxBf16x2 (fld w 14 7) (fld w 7 7) (fld w 0 7))
  | _ => .error .illegalOpcode

/-- Class 0, major 0x09. -/
noncomputable def decode09 (w : Nat) : Except DecodeError Instr :=
  whenZero (held w 0 2) (.sCvt (fld w 21 4) (fld w 14 7) (fld w 7 7) (fld w 3 4) (fld w 2 1))

/-- Class 0, major 0x0A. -/
noncomputable def decode0A (w : Nat) : Except DecodeError Instr :=
  .ok (.sCmp (fld w 21 4) (fld w 18 3) (fld w 14 4) (fld w 7 7) (fld w 0 7))

/-- Class 0, major 0x0B. -/
noncomputable def decode0B (w : Nat) : Except DecodeError Instr :=
  .ok (.sFcmp (fld w 21 4) (fld w 18 3) (fld w 14 4) (fld w 7 7) (fld w 0 7))

/-- Class 0, major 0x0C. -/
noncomputable def decode0C (w : Nat) : Except DecodeError Instr :=
  match fld w 21 1 with
  | 0 => .ok (.sSel (fld w 22 3) (fld w 14 7) (fld w 7 7) (fld w 0 7))
  | 1 => whenZero (held w 0 14 + held w 22 3) (.sPget (fld w 14 7))
  | _ => .error .illegalOpcode

/-- Class 0, major 0x0F. -/
noncomputable def decode0F (w : Nat) : Except DecodeError Instr :=
  match fld w 21 4 with
  | 0 => .ok (.sMovx (fld w 14 7) (fld w 7 7) (fld w 0 7))
  | 1 => .ok (.sMovxw (fld w 14 7) (fld w 7 7) (fld w 0 7))
  | _ => .error .illegalOpcode

/-- Class 1, major 0x00. -/
noncomputable def decode20 (w : Nat) : Except DecodeError Instr :=
  match fld w 21 4 with
  | 0 => .ok (.vAdd (fld w 14 7) (fld w 7 7) (fld w 0 7))
  | 1 => .ok (.vSub (fld w 14 7) (fld w 7 7) (fld w 0 7))
  | 2 => .ok (.vMullo (fld w 14 7) (fld w 7 7) (fld w 0 7))
  | 3 => .ok (.vMulhiS (fld w 14 7) (fld w 7 7) (fld w 0 7))
  | 4 => .ok (.vMulhiZ (fld w 14 7) (fld w 7 7) (fld w 0 7))
  | 5 => .ok (.vMad (fld w 14 7) (fld w 7 7) (fld w 0 7))
  | 6 => .ok (.vMinS (fld w 14 7) (fld w 7 7) (fld w 0 7))
  | 7 => .ok (.vMaxS (fld w 14 7) (fld w 7 7) (fld w 0 7))
  | 8 => .ok (.vMinZ (fld w 14 7) (fld w 7 7) (fld w 0 7))
  | 9 => .ok (.vMaxZ (fld w 14 7) (fld w 7 7) (fld w 0 7))
  | 10 => .ok (.vAbsdiff (fld w 14 7) (fld w 7 7) (fld w 0 7))
  | 11 => .ok (.vAddsatS (fld w 14 7) (fld w 7 7) (fld w 0 7))
  | 12 => .ok (.vSubsatS (fld w 14 7) (fld w 7 7) (fld w 0 7))
  | 13 => .ok (.vAvgZ (fld w 14 7) (fld w 7 7) (fld w 0 7))
  | _ => .error .illegalOpcode

/-- Class 1, major 0x01. -/
noncomputable def decode21 (w : Nat) : Except DecodeError Instr :=
  match fld w 21 4 with
  | 0 => .ok (.vAddImm (fld w 14 7) (fld w 7 7) (fld w 0 7))
  | 1 => .ok (.vSubImm (fld w 14 7) (fld w 7 7) (fld w 0 7))
  | 2 => .ok (.vMulloImm (fld w 14 7) (fld w 7 7) (fld w 0 7))
  | 3 => .ok (.vMulhiSImm (fld w 14 7) (fld w 7 7) (fld w 0 7))
  | 4 => .ok (.vMulhiZImm (fld w 14 7) (fld w 7 7) (fld w 0 7))
  | 5 => .ok (.vMadImm (fld w 14 7) (fld w 7 7) (fld w 0 7))
  | 6 => .ok (.vMinSImm (fld w 14 7) (fld w 7 7) (fld w 0 7))
  | 7 => .ok (.vMaxSImm (fld w 14 7) (fld w 7 7) (fld w 0 7))
  | 8 => .ok (.vMinZImm (fld w 14 7) (fld w 7 7) (fld w 0 7))
  | 9 => .ok (.vMaxZImm (fld w 14 7) (fld w 7 7) (fld w 0 7))
  | 10 => .ok (.vAbsdiffImm (fld w 14 7) (fld w 7 7) (fld w 0 7))
  | 11 => .ok (.vAddsatSImm (fld w 14 7) (fld w 7 7) (fld w 0 7))
  | 12 => .ok (.vSubsatSImm (fld w 14 7) (fld w 7 7) (fld w 0 7))
  | 13 => .ok (.vAvgZImm (fld w 14 7) (fld w 7 7) (fld w 0 7))
  | _ => .error .illegalOpcode

/-- Class 1, major 0x02. -/
noncomputable def decode22 (w : Nat) : Except DecodeError Instr :=
  match fld w 21 4 with
  | 0 => .ok (.vAnd (fld w 14 7) (fld w 7 7) (fld w 0 7))
  | 1 => .ok (.vOr (fld w 14 7) (fld w 7 7) (fld w 0 7))
  | 2 => .ok (.vXor (fld w 14 7) (fld w 7 7) (fld w 0 7))
  | 3 => .ok (.vAndn (fld w 14 7) (fld w 7 7) (fld w 0 7))
  | 4 => .ok (.vOrn (fld w 14 7) (fld w 7 7) (fld w 0 7))
  | 5 => .ok (.vXnor (fld w 14 7) (fld w 7 7) (fld w 0 7))
  | 6 => .ok (.vShl (fld w 14 7) (fld w 7 7) (fld w 0 7))
  | 7 => .ok (.vShr (fld w 14 7) (fld w 7 7) (fld w 0 7))
  | 8 => .ok (.vSar (fld w 14 7) (fld w 7 7) (fld w 0 7))
  | 9 => .ok (.vRotl (fld w 14 7) (fld w 7 7) (fld w 0 7))
  | 10 => .ok (.vRotr (fld w 14 7) (fld w 7 7) (fld w 0 7))
  | 11 => whenZero (held w 0 7) (.vClz (fld w 14 7) (fld w 7 7))
  | 12 => whenZero (held w 0 7) (.vPopc (fld w 14 7) (fld w 7 7))
  | 13 => whenZero (held w 0 7) (.vBrev (fld w 14 7) (fld w 7 7))
  | 14 => whenZero (held w 0 7) (.vMov (fld w 14 7) (fld w 7 7))
  | 15 => whenZero (held w 0 7) (.vNot (fld w 14 7) (fld w 7 7))
  | _ => .error .illegalOpcode

/-- Class 1, major 0x03. -/
noncomputable def decode23 (w : Nat) : Except DecodeError Instr :=
  match fld w 21 4 with
  | 0 => .ok (.vAndImm (fld w 14 7) (fld w 7 7) (fld w 0 7))
  | 1 => .ok (.vOrImm (fld w 14 7) (fld w 7 7) (fld w 0 7))
  | 2 => .ok (.vXorImm (fld w 14 7) (fld w 7 7) (fld w 0 7))
  | 3 => .ok (.vAndnImm (fld w 14 7) (fld w 7 7) (fld w 0 7))
  | 4 => .ok (.vOrnImm (fld w 14 7) (fld w 7 7) (fld w 0 7))
  | 5 => .ok (.vXnorImm (fld w 14 7) (fld w 7 7) (fld w 0 7))
  | 6 => .ok (.vShlImm (fld w 14 7) (fld w 7 7) (fld w 0 7))
  | 7 => .ok (.vShrImm (fld w 14 7) (fld w 7 7) (fld w 0 7))
  | 8 => .ok (.vSarImm (fld w 14 7) (fld w 7 7) (fld w 0 7))
  | 9 => .ok (.vRotlImm (fld w 14 7) (fld w 7 7) (fld w 0 7))
  | 10 => .ok (.vRotrImm (fld w 14 7) (fld w 7 7) (fld w 0 7))
  | 14 => whenZero (held w 7 7) (.vMovImm (fld w 14 7) (fld w 0 7))
  | _ => .error .illegalOpcode

/-- Class 1, major 0x04. -/
noncomputable def decode24 (w : Nat) : Except DecodeError Instr :=
  match fld w 21 4 with
  | 0 => .ok (.vBfeS (fld w 14 7) (fld w 7 7) (fld w 0 7))
  | 1 => .ok (.vBfeZ (fld w 14 7) (fld w 7 7) (fld w 0 7))
  | 2 => .ok (.vBfi (fld w 14 7) (fld w 7 7) (fld w 0 7))
  | 3 => .ok (.vPrmt (fld w 14 7) (fld w 7 7) (fld w 0 7))
  | 4 => .ok (.vAdd64 (fld w 14 7) (fld w 7 7) (fld w 0 7))
  | 5 => .ok (.vSub64 (fld w 14 7) (fld w 7 7) (fld w 0 7))
  | 6 => .ok (.vShl64 (fld w 14 7) (fld w 7 7) (fld w 0 7))
  | 7 => .ok (.vShr64 (fld w 14 7) (fld w 7 7) (fld w 0 7))
  | 8 => .ok (.vSar64 (fld w 14 7) (fld w 7 7) (fld w 0 7))
  | 9 => .ok (.vMul64lo (fld w 14 7) (fld w 7 7) (fld w 0 7))
  | _ => .error .illegalOpcode

/-- Class 1, major 0x05. -/
noncomputable def decode25 (w : Nat) : Except DecodeError Instr :=
  .ok (.vMovi (fld w 18 7) (fld w 0 18))

/-- Class 1, major 0x06. -/
noncomputable def decode26 (w : Nat) : Except DecodeError Instr :=
  match fld w 21 4 with
  | 0 => .ok (.vFadd (fld w 14 7) (fld w 7 7) (fld w 0 7))
  | 1 => .ok (.vFsub (fld w 14 7) (fld w 7 7) (fld w 0 7))
  | 2 => .ok (.vFmul (fld w 14 7) (fld w 7 7) (fld w 0 7))
  | 3 => .ok (.vFfma (fld w 14 7) (fld w 7 7) (fld w 0 7))
  | 4 => .ok (.vFmin (fld w 14 7) (fld w 7 7) (fld w 0 7))
  | 5 => .ok (.vFmax (fld w 14 7) (fld w 7 7) (fld w 0 7))
  | 6 => whenZero (held w 0 7) (.vFabs (fld w 14 7) (fld w 7 7))
  | 7 => whenZero (held w 0 7) (.vFneg (fld w 14 7) (fld w 7 7))
  | 8 => .ok (.vFcopysign (fld w 14 7) (fld w 7 7) (fld w 0 7))
  | 9 => whenZero (held w 0 7) (.vFclass (fld w 14 7) (fld w 7 7))
  | _ => .error .illegalOpcode

/-- Class 1, major 0x07. -/
noncomputable def decode27 (w : Nat) : Except DecodeError Instr :=
  match fld w 21 4 with
  | 0 => whenZero (held w 0 7) (.vFrcp (fld w 14 7) (fld w 7 7))
  | 1 => whenZero (held w 0 7) (.vFrsq (fld w 14 7) (fld w 7 7))
  | 2 => whenZero (held w 0 7) (.vFsqrt (fld w 14 7) (fld w 7 7))
  | 3 => whenZero (held w 0 7) (.vFexp2 (fld w 14 7) (fld w 7 7))
  | 4 => whenZero (held w 0 7) (.vFlog2 (fld w 14 7) (fld w 7 7))
  | 5 => whenZero (held w 0 7) (.vFsinpi (fld w 14 7) (fld w 7 7))
  | 6 => whenZero (held w 0 7) (.vFcospi (fld w 14 7) (fld w 7 7))
  | 7 => whenZero (held w 0 7) (.vFtanh (fld w 14 7) (fld w 7 7))
  | 8 => whenZero (held w 0 7) (.vFrintNe (fld w 14 7) (fld w 7 7))
  | 9 => whenZero (held w 0 7) (.vFrintZ (fld w 14 7) (fld w 7 7))
  | 10 => whenZero (held w 0 7) (.vFrintDn (fld w 14 7) (fld w 7 7))
  | 11 => whenZero (held w 0 7) (.vFrintUp (fld w 14 7) (fld w 7 7))
  | _ => .error .illegalOpcode

/-- Class 1, major 0x08. -/
noncomputable def decode28 (w : Nat) : Except DecodeError Instr :=
  match fld w 21 4 with
  | 0 => .ok (.vFaddF16x2 (fld w 14 7) (fld w 7 7) (fld w 0 7))
  | 1 => .ok (.vFsubF16x2 (fld w 14 7) (fld w 7 7) (fld w 0 7))
  | 2 => .ok (.vFmulF16x2 (fld w 14 7) (fld w 7 7) (fld w 0 7))
  | 3 => .ok (.vFfmaF16x2 (fld w 14 7) (fld w 7 7) (fld w 0 7))
  | 4 => .ok (.vFminF16x2 (fld w 14 7) (fld w 7 7) (fld w 0 7))
  | 5 => .ok (.vFmaxF16x2 (fld w 14 7) (fld w 7 7) (fld w 0 7))
  | 8 => .ok (.vFaddBf16x2 (fld w 14 7) (fld w 7 7) (fld w 0 7))
  | 9 => .ok (.vFsubBf16x2 (fld w 14 7) (fld w 7 7) (fld w 0 7))
  | 10 => .ok (.vFmulBf16x2 (fld w 14 7) (fld w 7 7) (fld w 0 7))
  | 11 => .ok (.vFfmaBf16x2 (fld w 14 7) (fld w 7 7) (fld w 0 7))
  | 12 => .ok (.vFminBf16x2 (fld w 14 7) (fld w 7 7) (fld w 0 7))
  | 13 => .ok (.vFmaxBf16x2 (fld w 14 7) (fld w 7 7) (fld w 0 7))
  | _ => .error .illegalOpcode

/-- Class 1, major 0x09. -/
noncomputable def decode29 (w : Nat) : Except DecodeError Instr :=
  whenZero (held w 0 2) (.vCvt (fld w 21 4) (fld w 14 7) (fld w 7 7) (fld w 3 4) (fld w 2 1))

/-- Class 1, major 0x0A. -/
noncomputable def decode2A (w : Nat) : Except DecodeError Instr :=
  .ok (.vCmp (fld w 21 4) (fld w 18 3) (fld w 14 4) (fld w 7 7) (fld w 0 7))

/-- Class 1, major 0x0B. -/
noncomputable def decode2B (w : Nat) : Except DecodeError Instr :=
  .ok (.vFcmp (fld w 21 4) (fld w 18 3) (fld w 14 4) (fld w 7 7) (fld w 0 7))

/-- Class 1, major 0x0C. -/
noncomputable def decode2C (w : Nat) : Except DecodeError Instr :=
  match fld w 21 1 with
  | 0 => .ok (.vSel (fld w 22 3) (fld w 14 7) (fld w 7 7) (fld w 0 7))
  | 1 => whenZero (held w 0 14 + held w 22 3) (.vPget (fld w 14 7))
  | _ => .error .illegalOpcode

/-- Class 1, major 0x0D. -/
noncomputable def decode2D (w : Nat) : Except DecodeError Instr :=
  match fld w 21 4 with
  | 0 => whenZero (held w 0 18) (.vPpop (fld w 18 3))
  | 1 => whenZero (held w 0 18) (.vPdup (fld w 18 3))
  | 2 => whenZero (held w 0 18) (.vPand (fld w 18 3))
  | 3 => whenZero (held w 0 18) (.vPor (fld w 18 3))
  | 4 => whenZero (held w 0 18) (.vPxor (fld w 18 3))
  | 5 => whenZero (held w 0 18) (.vPnot (fld w 18 3))
  | 6 => whenZero (held w 0 18) (.vPswap (fld w 18 3))
  | 7 => whenZero (held w 7 14) (.vPpush (fld w 0 7))
  | 8 => whenZero (held w 7 14) (.vPset (fld w 0 7))
  | _ => .error .illegalOpcode

/-- Class 1, major 0x0E. -/
noncomputable def decode2E (w : Nat) : Except DecodeError Instr :=
  match fld w 21 4 with
  | 0 => .ok (.vShflIdx (fld w 14 7) (fld w 7 7) (fld w 0 7))
  | 1 => .ok (.vShflUp (fld w 14 7) (fld w 7 7) (fld w 0 7))
  | 2 => .ok (.vShflDown (fld w 14 7) (fld w 7 7) (fld w 0 7))
  | 3 => .ok (.vShflXor (fld w 14 7) (fld w 7 7) (fld w 0 7))
  | 4 => .ok (.vBcast (fld w 14 7) (fld w 7 7) (fld w 0 7))
  | 5 => whenZero (held w 0 7) (.vVoteBallot (fld w 14 7) (fld w 7 7))
  | 6 => .ok (.vReduxAdd (fld w 14 7) (fld w 7 7) (fld w 0 7))
  | 7 => .ok (.vReduxMin (fld w 14 7) (fld w 7 7) (fld w 0 7))
  | 8 => .ok (.vReduxMax (fld w 14 7) (fld w 7 7) (fld w 0 7))
  | 9 => .ok (.vScanIncl (fld w 14 7) (fld w 7 7) (fld w 0 7))
  | 10 => .ok (.vScanExcl (fld w 14 7) (fld w 7 7) (fld w 0 7))
  | 11 => whenZero (held w 0 7) (.vMatch (fld w 14 7) (fld w 7 7))
  | 12 => .ok (.vIsect (fld w 14 7) (fld w 7 7) (fld w 0 7))
  | _ => .error .illegalOpcode

/-- Class 1, major 0x0F. -/
noncomputable def decode2F (w : Nat) : Except DecodeError Instr :=
  match fld w 21 4 with
  | 0 => .ok (.vMovx (fld w 14 7) (fld w 7 7) (fld w 0 7))
  | 1 => .ok (.vMovxw (fld w 14 7) (fld w 7 7) (fld w 0 7))
  | _ => .error .illegalOpcode

/-- Class 2, major 0x00. -/
noncomputable def decode40 (w : Nat) : Except DecodeError Instr :=
  .ok (.mLd (fld w 22 3) (fld w 15 7) (fld w 8 7) (fld w 0 8))

/-- Class 2, major 0x01. -/
noncomputable def decode41 (w : Nat) : Except DecodeError Instr :=
  .ok (.mLdPr (fld w 22 3) (fld w 15 7) (fld w 8 7) (fld w 0 8))

/-- Class 2, major 0x02. -/
noncomputable def decode42 (w : Nat) : Except DecodeError Instr :=
  .ok (.mLdAcq (fld w 22 3) (fld w 15 7) (fld w 8 7) (fld w 0 8))

/-- Class 2, major 0x03. -/
noncomputable def decode43 (w : Nat) : Except DecodeError Instr :=
  .ok (.mLdu (fld w 22 3) (fld w 15 7) (fld w 8 7) (fld w 0 8))

/-- Class 2, major 0x04. -/
noncomputable def decode44 (w : Nat) : Except DecodeError Instr :=
  .ok (.mSt (fld w 22 3) (fld w 15 7) (fld w 8 7) (fld w 0 8))

/-- Class 2, major 0x05. -/
noncomputable def decode45 (w : Nat) : Except DecodeError Instr :=
  .ok (.mStRel (fld w 22 3) (fld w 15 7) (fld w 8 7) (fld w 0 8))

/-- Class 2, major 0x06. -/
noncomputable def decode46 (w : Nat) : Except DecodeError Instr :=
  match fld w 21 4 with
  | 0 => .ok (.mAtomAddS32 (fld w 14 7) (fld w 7 7) (fld w 0 7))
  | 1 => .ok (.mAtomAndB32 (fld w 14 7) (fld w 7 7) (fld w 0 7))
  | 2 => .ok (.mAtomOrB32 (fld w 14 7) (fld w 7 7) (fld w 0 7))
  | 3 => .ok (.mAtomXorB32 (fld w 14 7) (fld w 7 7) (fld w 0 7))
  | 4 => .ok (.mAtomMinS32 (fld w 14 7) (fld w 7 7) (fld w 0 7))
  | 5 => .ok (.mAtomMaxS32 (fld w 14 7) (fld w 7 7) (fld w 0 7))
  | 6 => .ok (.mAtomMinZ32 (fld w 14 7) (fld w 7 7) (fld w 0 7))
  | 7 => .ok (.mAtomMaxZ32 (fld w 14 7) (fld w 7 7) (fld w 0 7))
  | 8 => .ok (.mAtomExchB32 (fld w 14 7) (fld w 7 7) (fld w 0 7))
  | _ => .error .illegalOpcode

/-- Class 2, major 0x07. -/
noncomputable def decode47 (w : Nat) : Except DecodeError Instr :=
  match fld w 21 4 with
  | 0 => .ok (.mAtomAddS64 (fld w 14 7) (fld w 7 7) (fld w 0 7))
  | 1 => .ok (.mAtomAndB64 (fld w 14 7) (fld w 7 7) (fld w 0 7))
  | 2 => .ok (.mAtomOrB64 (fld w 14 7) (fld w 7 7) (fld w 0 7))
  | 3 => .ok (.mAtomXorB64 (fld w 14 7) (fld w 7 7) (fld w 0 7))
  | 4 => .ok (.mAtomMinS64 (fld w 14 7) (fld w 7 7) (fld w 0 7))
  | 5 => .ok (.mAtomMaxS64 (fld w 14 7) (fld w 7 7) (fld w 0 7))
  | 6 => .ok (.mAtomMinZ64 (fld w 14 7) (fld w 7 7) (fld w 0 7))
  | 7 => .ok (.mAtomMaxZ64 (fld w 14 7) (fld w 7 7) (fld w 0 7))
  | 8 => .ok (.mAtomExchB64 (fld w 14 7) (fld w 7 7) (fld w 0 7))
  | _ => .error .illegalOpcode

/-- Class 2, major 0x08. -/
noncomputable def decode48 (w : Nat) : Except DecodeError Instr :=
  match fld w 21 4 with
  | 0 => .ok (.mAtomAddF32 (fld w 14 7) (fld w 7 7) (fld w 0 7))
  | 1 => .ok (.mAtomMinF32 (fld w 14 7) (fld w 7 7) (fld w 0 7))
  | 2 => .ok (.mAtomMaxF32 (fld w 14 7) (fld w 7 7) (fld w 0 7))
  | 3 => .ok (.mAtomAddF16x2 (fld w 14 7) (fld w 7 7) (fld w 0 7))
  | 4 => .ok (.mAtomAddBf16x2 (fld w 14 7) (fld w 7 7) (fld w 0 7))
  | _ => .error .illegalOpcode

/-- Class 2, major 0x09. -/
noncomputable def decode49 (w : Nat) : Except DecodeError Instr :=
  match fld w 21 4 with
  | 0 => whenZero (held w 14 7) (.mRedAddS32 (fld w 7 7) (fld w 0 7))
  | 1 => whenZero (held w 14 7) (.mRedAddS64 (fld w 7 7) (fld w 0 7))
  | 2 => whenZero (held w 14 7) (.mRedAddF32 (fld w 7 7) (fld w 0 7))
  | 3 => whenZero (held w 14 7) (.mRedMinS32 (fld w 7 7) (fld w 0 7))
  | 4 => whenZero (held w 14 7) (.mRedMaxS32 (fld w 7 7) (fld w 0 7))
  | 5 => whenZero (held w 14 7) (.mRedMinZ32 (fld w 7 7) (fld w 0 7))
  | 6 => whenZero (held w 14 7) (.mRedMaxZ32 (fld w 7 7) (fld w 0 7))
  | 7 => whenZero (held w 14 7) (.mRedAndB32 (fld w 7 7) (fld w 0 7))
  | 8 => whenZero (held w 14 7) (.mRedOrB32 (fld w 7 7) (fld w 0 7))
  | 9 => whenZero (held w 14 7) (.mRedXorB32 (fld w 7 7) (fld w 0 7))
  | 10 => whenZero (held w 14 7) (.mRedMinF32 (fld w 7 7) (fld w 0 7))
  | 11 => whenZero (held w 14 7) (.mRedMaxF32 (fld w 7 7) (fld w 0 7))
  | 12 => whenZero (held w 14 7) (.mRedAddF16x2 (fld w 7 7) (fld w 0 7))
  | 13 => whenZero (held w 14 7) (.mRedAddBf16x2 (fld w 7 7) (fld w 0 7))
  | _ => .error .illegalOpcode

/-- Class 2, major 0x0A. -/
noncomputable def decode4A (w : Nat) : Except DecodeError Instr :=
  match fld w 21 4 with
  | 0 => .ok (.mCasB32 (fld w 14 7) (fld w 7 7) (fld w 0 7))
  | 1 => .ok (.mCasB64 (fld w 14 7) (fld w 7 7) (fld w 0 7))
  | _ => .error .illegalOpcode

/-- Class 2, major 0x0B. -/
noncomputable def decode4B (w : Nat) : Except DecodeError Instr :=
  match fld w 20 2 with
  | 0 => whenZero (held w 0 20) (.mFenceAcq (fld w 22 3))
  | 1 => whenZero (held w 0 20) (.mFenceRel (fld w 22 3))
  | 2 => whenZero (held w 0 20) (.mFenceFull (fld w 22 3))
  | _ => .error (.reservedField (held w 0 20 + held w 20 2))

/-- Class 2, major 0x0C. -/
noncomputable def decode4C (w : Nat) : Except DecodeError Instr :=
  whenZero (held w 14 7) (.mMwait (fld w 21 4) (fld w 7 7) (fld w 0 7))

/-- Class 2, major 0x0D. -/
noncomputable def decode4D (w : Nat) : Except DecodeError Instr :=
  match fld w 21 4 with
  | 0 => whenZero (held w 0 7 + held w 14 7) (.mPgreq (fld w 7 7))
  | 1 => whenZero (held w 0 7) (.mPgprobe (fld w 14 7) (fld w 7 7))
  | 2 => whenZero (held w 0 7 + held w 14 7) (.mPref (fld w 7 7))
  | _ => .error .illegalOpcode

/-- Class 2, major 0x0E. -/
noncomputable def decode4E (w : Nat) : Except DecodeError Instr :=
  match fld w 21 4 with
  | 0 => .ok (.mTexSample (fld w 14 7) (fld w 7 7) (fld w 0 7))
  | 1 => .ok (.mTexSampleLod (fld w 14 7) (fld w 7 7) (fld w 0 7))
  | 2 => .ok (.mTexSampleGrad (fld w 14 7) (fld w 7 7) (fld w 0 7))
  | 3 => .ok (.mTexFetch (fld w 14 7) (fld w 7 7) (fld w 0 7))
  | 4 => .ok (.mTexGath4 (fld w 14 7) (fld w 7 7) (fld w 0 7))
  | _ => .error .illegalOpcode

/-- Class 2, major 0x0F. -/
noncomputable def decode4F (w : Nat) : Except DecodeError Instr :=
  match fld w 21 4 with
  | 0 => .ok (.mTexqSize (fld w 14 7) (fld w 7 7) (fld w 0 7))
  | 1 => whenZero (held w 0 7) (.mTexqLevels (fld w 14 7) (fld w 7 7))
  | 2 => whenZero (held w 0 7) (.mTexqFormat (fld w 14 7) (fld w 7 7))
  | _ => .error .illegalOpcode

/-- Class 2, major 0x10. -/
noncomputable def decode50 (w : Nat) : Except DecodeError Instr :=
  match fld w 21 4 with
  | 0 => whenZero (held w 2 6) (.eCpy (fld w 14 7) (fld w 8 6) (fld w 0 2))
  | _ => .error .illegalOpcode

/-- Class 2, major 0x11. -/
noncomputable def decode51 (w : Nat) : Except DecodeError Instr :=
  match fld w 21 4 with
  | 0 => whenZero (held w 0 8) (.eGath (fld w 14 7) (fld w 8 6))
  | _ => .error .illegalOpcode

/-- Class 2, major 0x12. -/
noncomputable def decode52 (w : Nat) : Except DecodeError Instr :=
  whenZero (held w 0 8) (.eScat (fld w 21 4) (fld w 14 7) (fld w 8 6))

/-- Class 2, major 0x13. -/
noncomputable def decode53 (w : Nat) : Except DecodeError Instr :=
  match fld w 21 4 with
  | 0 => whenZero (held w 0 14) (.eMma (fld w 14 7))
  | _ => .error .illegalOpcode

/-- Class 2, major 0x14. -/
noncomputable def decode54 (w : Nat) : Except DecodeError Instr :=
  match fld w 21 4 with
  | 0 => whenZero (held w 0 14) (.eMsrch (fld w 14 7))
  | _ => .error .illegalOpcode

/-- Class 2, major 0x15. -/
noncomputable def decode55 (w : Nat) : Except DecodeError Instr :=
  match fld w 21 4 with
  | 0 => whenZero (held w 0 14) (.eQuant (fld w 14 7))
  | _ => .error .illegalOpcode

/-- Class 2, major 0x16. -/
noncomputable def decode56 (w : Nat) : Except DecodeError Instr :=
  match fld w 21 4 with
  | 0 => whenZero (held w 0 8) (.eKselThr (fld w 14 7) (fld w 8 6))
  | 1 => whenZero (held w 0 8) (.eKselTopk (fld w 14 7) (fld w 8 6))
  | _ => .error .illegalOpcode

/-- Class 2, major 0x17. -/
noncomputable def decode57 (w : Nat) : Except DecodeError Instr :=
  match fld w 21 4 with
  | 0 => whenZero (held w 0 8) (.eKgat (fld w 14 7) (fld w 8 6))
  | _ => .error .illegalOpcode

/-- Class 2, major 0x18. -/
noncomputable def decode58 (w : Nat) : Except DecodeError Instr :=
  match fld w 21 4 with
  | 0 => whenZero (held w 0 8) (.eKsum (fld w 14 7) (fld w 8 6))
  | _ => .error .illegalOpcode

/-- Class 2, major 0x19. -/
noncomputable def decode59 (w : Nat) : Except DecodeError Instr :=
  match fld w 21 4 with
  | 0 => whenZero (held w 0 14) (.eSpawn (fld w 14 7))
  | 1 => whenZero (held w 7 7) (.eSpawnDie (fld w 14 7) (fld w 0 7))
  | _ => .error .illegalOpcode

/-- Class 2, major 0x1A. -/
noncomputable def decode5A (w : Nat) : Except DecodeError Instr :=
  match fld w 21 4 with
  | 0 => whenZero (held w 6 8) (.eEnq (fld w 14 7) (fld w 0 6))
  | _ => .error .illegalOpcode

/-- Class 2, major 0x1B. -/
noncomputable def decode5B (w : Nat) : Except DecodeError Instr :=
  match fld w 21 4 with
  | 0 => whenZero (held w 0 8) (.eSsbld (fld w 14 7) (fld w 8 6))
  | _ => .error .illegalOpcode

/-- Class 2, major 0x1C. -/
noncomputable def decode5C (w : Nat) : Except DecodeError Instr :=
  match fld w 21 4 with
  | 0 => whenZero (held w 3 11) (.eBind (fld w 14 7) (fld w 0 3))
  | _ => .error .illegalOpcode

/-- Class 2, major 0x1D. -/
noncomputable def decode5D (w : Nat) : Except DecodeError Instr :=
  match fld w 21 4 with
  | 0 => whenZero (held w 0 14) (.eEmit (fld w 14 7))
  | _ => .error .illegalOpcode

/-- Class 2, major 0x1E. -/
noncomputable def decode5E (w : Nat) : Except DecodeError Instr :=
  match fld w 21 4 with
  | 0 => whenZero (held w 0 14) (.eRelaunch (fld w 14 7))
  | _ => .error .illegalOpcode

/-- Class 2, major 0x1F. -/
noncomputable def decode5F (w : Nat) : Except DecodeError Instr :=
  match fld w 21 4 with
  | 0 => whenZero (held w 0 14) (.eTdset (fld w 14 7))
  | _ => .error .illegalOpcode

/-- Class 3, major 0x00. -/
noncomputable def decode60 (w : Nat) : Except DecodeError Instr :=
  .ok (.cBr (fld w 22 3) (fld w 19 3) (fld w 0 19))

/-- Class 3, major 0x01. -/
noncomputable def decode61 (w : Nat) : Except DecodeError Instr :=
  .ok (.cCall (fld w 19 6) (fld w 0 19))

/-- Class 3, major 0x02. -/
noncomputable def decode62 (w : Nat) : Except DecodeError Instr :=
  match fld w 21 4 with
  | 0 => whenZero (held w 0 7 + held w 14 7) (.cJmp (fld w 7 7))
  | 1 => whenZero (held w 0 7) (.cCallx (fld w 14 7) (fld w 7 7))
  | 2 => whenZero (held w 0 7 + held w 14 7) (.cRet (fld w 7 7))
  | _ => .error .illegalOpcode

/-- Class 3, major 0x03. -/
noncomputable def decode63 (w : Nat) : Except DecodeError Instr :=
  whenZero (held w 0 1) (.cWait (fld w 19 6) (fld w 13 6) (fld w 7 6) (fld w 1 6))

/-- Class 3, major 0x04. -/
noncomputable def decode64 (w : Nat) : Except DecodeError Instr :=
  match fld w 21 4 with
  | 0 => whenZero (held w 0 7 + held w 14 7) (.cTwaitAny (fld w 7 7))
  | 1 => whenZero (held w 0 7 + held w 14 7) (.cTwaitAll (fld w 7 7))
  | 2 => whenZero (held w 0 7) (.cTffs (fld w 14 7) (fld w 7 7))
  | 3 => whenZero (held w 0 7 + held w 14 7) (.cTclr (fld w 7 7))
  | _ => .error .illegalOpcode

/-- Class 3, major 0x05. -/
noncomputable def decode65 (w : Nat) : Except DecodeError Instr :=
  match fld w 21 4 with
  | 0 => whenZero (held w 0 14) (.cBarArrive (fld w 18 3) (fld w 14 4))
  | 1 => whenZero (held w 0 14) (.cBarWait (fld w 18 3) (fld w 14 4))
  | 2 => whenZero (held w 0 14) (.cBarSync (fld w 18 3) (fld w 14 4))
  | _ => .error .illegalOpcode

/-- Class 3, major 0x06. -/
noncomputable def decode66 (w : Nat) : Except DecodeError Instr :=
  match fld w 21 4 with
  | 0 => whenZero (held w 0 21) (.cNop)
  | 1 => whenZero (held w 0 21) (.cYield)
  | 2 => whenZero (held w 0 21) (.cExit)
  | 3 => whenZero (held w 7 14) (.cBrk (fld w 0 7))
  | _ => .error .illegalOpcode

/-- Class 3, major 0x07. -/
noncomputable def decode67 (w : Nat) : Except DecodeError Instr :=
  whenZero (held w 3 22) (.cTrap (fld w 0 3))

/-- Class 3, major 0x08. -/
noncomputable def decode68 (w : Nat) : Except DecodeError Instr :=
  match fld w 21 4 with
  | 0 => whenZero (held w 0 7) (.yGsr (fld w 14 7) (fld w 7 7))
  | _ => .error .illegalOpcode

/-- Class 3, major 0x09. -/
noncomputable def decode69 (w : Nat) : Except DecodeError Instr :=
  match fld w 21 4 with
  | 0 => whenZero (held w 14 7) (.ySsr (fld w 7 7) (fld w 0 7))
  | _ => .error .illegalOpcode

/-- Class 3, major 0x0A. -/
noncomputable def decode6A (w : Nat) : Except DecodeError Instr :=
  match fld w 21 4 with
  | 0 => whenZero (held w 14 7) (.yResume (fld w 7 7) (fld w 0 7))
  | 1 => whenZero (held w 14 7) (.yKill (fld w 7 7) (fld w 0 7))
  | _ => .error .illegalOpcode

/-- Class 3, major 0x0B. -/
noncomputable def decode6B (w : Nat) : Except DecodeError Instr :=
  match fld w 21 4 with
  | 0 => whenZero (held w 0 7) (.yCtxinfo (fld w 14 7) (fld w 7 7))
  | _ => .error .illegalOpcode

/-- Class 3, major 0x1E. -/
noncomputable def decode7E (w : Nat) : Except DecodeError Instr :=
  .ok (.hImm (fld w 0 25))

/-- Class 3, major 0x1F. -/
noncomputable def decode7F (w : Nat) : Except DecodeError Instr :=
  match fld w 21 4 with
  | 0 => whenZero (held w 0 14) (if fld w 14 1 = 0 then .hGuard (fld w 18 3) (fld w 15 3) else .hGuardNot (fld w 18 3) (fld w 15 3))
  | 1 => whenZero (held w 0 14) (.hSrc3 (fld w 14 7))
  | 2 => whenZero (held w 2 12) (.hReuse (fld w 14 7) (fld w 0 2))
  | 3 => whenZero (held w 2 5) (.hLast (fld w 14 7) (fld w 7 7) (fld w 0 2))
  | 4 => whenZero (held w 0 19) (.hRnd (fld w 19 2))
  | 5 => whenZero (held w 0 18) (.hScope (fld w 18 3))
  | 6 => whenZero (held w 0 16) (.hSched (fld w 16 5))
  | 7 => whenZero (held w 0 18) (.hCache (fld w 18 3))
  | _ => .error .illegalOpcode

/-- What one 32-bit word is: an instruction, or why it is none (R58). -/
noncomputable def decodeWord (w : Nat) : Except DecodeError Instr :=
  match fld w 25 7 with
  | 0 => decode00 w
  | 1 => decode01 w
  | 2 => decode02 w
  | 3 => decode03 w
  | 4 => decode04 w
  | 5 => decode05 w
  | 6 => decode06 w
  | 7 => decode07 w
  | 8 => decode08 w
  | 9 => decode09 w
  | 10 => decode0A w
  | 11 => decode0B w
  | 12 => decode0C w
  | 15 => decode0F w
  | 32 => decode20 w
  | 33 => decode21 w
  | 34 => decode22 w
  | 35 => decode23 w
  | 36 => decode24 w
  | 37 => decode25 w
  | 38 => decode26 w
  | 39 => decode27 w
  | 40 => decode28 w
  | 41 => decode29 w
  | 42 => decode2A w
  | 43 => decode2B w
  | 44 => decode2C w
  | 45 => decode2D w
  | 46 => decode2E w
  | 47 => decode2F w
  | 64 => decode40 w
  | 65 => decode41 w
  | 66 => decode42 w
  | 67 => decode43 w
  | 68 => decode44 w
  | 69 => decode45 w
  | 70 => decode46 w
  | 71 => decode47 w
  | 72 => decode48 w
  | 73 => decode49 w
  | 74 => decode4A w
  | 75 => decode4B w
  | 76 => decode4C w
  | 77 => decode4D w
  | 78 => decode4E w
  | 79 => decode4F w
  | 80 => decode50 w
  | 81 => decode51 w
  | 82 => decode52 w
  | 83 => decode53 w
  | 84 => decode54 w
  | 85 => decode55 w
  | 86 => decode56 w
  | 87 => decode57 w
  | 88 => decode58 w
  | 89 => decode59 w
  | 90 => decode5A w
  | 91 => decode5B w
  | 92 => decode5C w
  | 93 => decode5D w
  | 94 => decode5E w
  | 95 => decode5F w
  | 96 => decode60 w
  | 97 => decode61 w
  | 98 => decode62 w
  | 99 => decode63 w
  | 100 => decode64 w
  | 101 => decode65 w
  | 102 => decode66 w
  | 103 => decode67 w
  | 104 => decode68 w
  | 105 => decode69 w
  | 106 => decode6A w
  | 107 => decode6B w
  | 126 => decode7E w
  | 127 => decode7F w
  | _ => .error .illegalOpcode

/-- The value of bytes, least significant first (R3). -/
def bytesToNat : List (BitVec 8) → Nat
  | [] => 0
  | b :: bs => b.toNat + 256 * bytesToNat bs

/-- The `n` low bytes of a value, least significant first (R3). -/
def natToBytes : Nat → Nat → List (BitVec 8)
  | 0, _ => []
  | n + 1, v => BitVec.ofNat 8 v :: natToBytes n (v / 256)

/-- Decode the next instruction of a byte string: one little-endian word (R42), and the bytes after it. -/
noncomputable def decodeBytes (bs : List (BitVec 8)) : Except DecodeError (Instr × List (BitVec 8)) :=
  match bs with
  | b0 :: b1 :: b2 :: b3 :: rest => (decodeWord (bytesToNat [b0, b1, b2, b3])).map (fun i => (i, rest))
  | _ => .error .truncated

/-- The instruction the decoder reads from the word `w` of `nbits` bits, laid out in memory as the device stores it. -/
noncomputable def decodeTableWord (nbits w : Nat) : Option Instr :=
  match decodeBytes (natToBytes 4 (w % 2 ^ nbits)) with
  | .ok (i, _) => some i
  | .error _ => none

/-- A word with fields at bits 0 (R44). -/
def put0 (base x0 : Nat) : Nat :=
  base + x0

/-- A word with fields at bits 7 (R44). -/
def put7 (base x7 : Nat) : Nat :=
  base + x7 * 2 ^ 7

/-- A word with fields at bits 7, 0 (R44). -/
def put7_0 (base x7 x0 : Nat) : Nat :=
  base + x7 * 2 ^ 7 + x0

/-- A word with fields at bits 14 (R44). -/
def put14 (base x14 : Nat) : Nat :=
  base + x14 * 2 ^ 14

/-- A word with fields at bits 14, 0 (R44). -/
def put14_0 (base x14 x0 : Nat) : Nat :=
  base + x14 * 2 ^ 14 + x0

/-- A word with fields at bits 14, 7 (R44). -/
def put14_7 (base x14 x7 : Nat) : Nat :=
  base + x14 * 2 ^ 14 + x7 * 2 ^ 7

/-- A word with fields at bits 14, 7, 0 (R44). -/
def put14_7_0 (base x14 x7 x0 : Nat) : Nat :=
  base + x14 * 2 ^ 14 + x7 * 2 ^ 7 + x0

/-- A word with fields at bits 14, 8 (R44). -/
def put14_8 (base x14 x8 : Nat) : Nat :=
  base + x14 * 2 ^ 14 + x8 * 2 ^ 8

/-- A word with fields at bits 14, 8, 0 (R44). -/
def put14_8_0 (base x14 x8 x0 : Nat) : Nat :=
  base + x14 * 2 ^ 14 + x8 * 2 ^ 8 + x0

/-- A word with fields at bits 16 (R44). -/
def put16 (base x16 : Nat) : Nat :=
  base + x16 * 2 ^ 16

/-- A word with fields at bits 18 (R44). -/
def put18 (base x18 : Nat) : Nat :=
  base + x18 * 2 ^ 18

/-- A word with fields at bits 18, 0 (R44). -/
def put18_0 (base x18 x0 : Nat) : Nat :=
  base + x18 * 2 ^ 18 + x0

/-- A word with fields at bits 18, 14 (R44). -/
def put18_14 (base x18 x14 : Nat) : Nat :=
  base + x18 * 2 ^ 18 + x14 * 2 ^ 14

/-- A word with fields at bits 18, 15 (R44). -/
def put18_15 (base x18 x15 : Nat) : Nat :=
  base + x18 * 2 ^ 18 + x15 * 2 ^ 15

/-- A word with fields at bits 19 (R44). -/
def put19 (base x19 : Nat) : Nat :=
  base + x19 * 2 ^ 19

/-- A word with fields at bits 19, 0 (R44). -/
def put19_0 (base x19 x0 : Nat) : Nat :=
  base + x19 * 2 ^ 19 + x0

/-- A word with fields at bits 19, 13, 7, 1 (R44). -/
def put19_13_7_1 (base x19 x13 x7 x1 : Nat) : Nat :=
  base + x19 * 2 ^ 19 + x13 * 2 ^ 13 + x7 * 2 ^ 7 + x1 * 2 ^ 1

/-- A word with fields at bits 21, 7, 0 (R44). -/
def put21_7_0 (base x21 x7 x0 : Nat) : Nat :=
  base + x21 * 2 ^ 21 + x7 * 2 ^ 7 + x0

/-- A word with fields at bits 21, 14, 7, 3, 2 (R44). -/
def put21_14_7_3_2 (base x21 x14 x7 x3 x2 : Nat) : Nat :=
  base + x21 * 2 ^ 21 + x14 * 2 ^ 14 + x7 * 2 ^ 7 + x3 * 2 ^ 3 + x2 * 2 ^ 2

/-- A word with fields at bits 21, 14, 8 (R44). -/
def put21_14_8 (base x21 x14 x8 : Nat) : Nat :=
  base + x21 * 2 ^ 21 + x14 * 2 ^ 14 + x8 * 2 ^ 8

/-- A word with fields at bits 21, 18, 14, 7, 0 (R44). -/
def put21_18_14_7_0 (base x21 x18 x14 x7 x0 : Nat) : Nat :=
  base + x21 * 2 ^ 21 + x18 * 2 ^ 18 + x14 * 2 ^ 14 + x7 * 2 ^ 7 + x0

/-- A word with fields at bits 22 (R44). -/
def put22 (base x22 : Nat) : Nat :=
  base + x22 * 2 ^ 22

/-- A word with fields at bits 22, 14, 7, 0 (R44). -/
def put22_14_7_0 (base x22 x14 x7 x0 : Nat) : Nat :=
  base + x22 * 2 ^ 22 + x14 * 2 ^ 14 + x7 * 2 ^ 7 + x0

/-- A word with fields at bits 22, 15, 8, 0 (R44). -/
def put22_15_8_0 (base x22 x15 x8 x0 : Nat) : Nat :=
  base + x22 * 2 ^ 22 + x15 * 2 ^ 15 + x8 * 2 ^ 8 + x0

/-- A word with fields at bits 22, 19, 0 (R44). -/
def put22_19_0 (base x22 x19 x0 : Nat) : Nat :=
  base + x22 * 2 ^ 22 + x19 * 2 ^ 19 + x0

/-- The word of an instruction, from the formats of R44 and the codes of R51 to R59. An event row has no word. -/
def encode (i : Instr) : Option Nat :=
  match i with
  | .sAdd d a b => some (put14_7_0 0x00000000 d a b)
  | .sAddImm d a i => some (put14_7_0 0x02000000 d a i)
  | .vAdd d a b => some (put14_7_0 0x40000000 d a b)
  | .vAddImm d a i => some (put14_7_0 0x42000000 d a i)
  | .sSub d a b => some (put14_7_0 0x00200000 d a b)
  | .sSubImm d a i => some (put14_7_0 0x02200000 d a i)
  | .vSub d a b => some (put14_7_0 0x40200000 d a b)
  | .vSubImm d a i => some (put14_7_0 0x42200000 d a i)
  | .sMullo d a b => some (put14_7_0 0x00400000 d a b)
  | .sMulloImm d a i => some (put14_7_0 0x02400000 d a i)
  | .vMullo d a b => some (put14_7_0 0x40400000 d a b)
  | .vMulloImm d a i => some (put14_7_0 0x42400000 d a i)
  | .sMulhiS d a b => some (put14_7_0 0x00600000 d a b)
  | .sMulhiSImm d a i => some (put14_7_0 0x02600000 d a i)
  | .vMulhiS d a b => some (put14_7_0 0x40600000 d a b)
  | .vMulhiSImm d a i => some (put14_7_0 0x42600000 d a i)
  | .sMulhiZ d a b => some (put14_7_0 0x00800000 d a b)
  | .sMulhiZImm d a i => some (put14_7_0 0x02800000 d a i)
  | .vMulhiZ d a b => some (put14_7_0 0x40800000 d a b)
  | .vMulhiZImm d a i => some (put14_7_0 0x42800000 d a i)
  | .sMad d a b => some (put14_7_0 0x00A00000 d a b)
  | .sMadImm d a i => some (put14_7_0 0x02A00000 d a i)
  | .vMad d a b => some (put14_7_0 0x40A00000 d a b)
  | .vMadImm d a i => some (put14_7_0 0x42A00000 d a i)
  | .sMinS d a b => some (put14_7_0 0x00C00000 d a b)
  | .sMinSImm d a i => some (put14_7_0 0x02C00000 d a i)
  | .vMinS d a b => some (put14_7_0 0x40C00000 d a b)
  | .vMinSImm d a i => some (put14_7_0 0x42C00000 d a i)
  | .sMaxS d a b => some (put14_7_0 0x00E00000 d a b)
  | .sMaxSImm d a i => some (put14_7_0 0x02E00000 d a i)
  | .vMaxS d a b => some (put14_7_0 0x40E00000 d a b)
  | .vMaxSImm d a i => some (put14_7_0 0x42E00000 d a i)
  | .sMinZ d a b => some (put14_7_0 0x01000000 d a b)
  | .sMinZImm d a i => some (put14_7_0 0x03000000 d a i)
  | .vMinZ d a b => some (put14_7_0 0x41000000 d a b)
  | .vMinZImm d a i => some (put14_7_0 0x43000000 d a i)
  | .sMaxZ d a b => some (put14_7_0 0x01200000 d a b)
  | .sMaxZImm d a i => some (put14_7_0 0x03200000 d a i)
  | .vMaxZ d a b => some (put14_7_0 0x41200000 d a b)
  | .vMaxZImm d a i => some (put14_7_0 0x43200000 d a i)
  | .sAbsdiff d a b => some (put14_7_0 0x01400000 d a b)
  | .sAbsdiffImm d a i => some (put14_7_0 0x03400000 d a i)
  | .vAbsdiff d a b => some (put14_7_0 0x41400000 d a b)
  | .vAbsdiffImm d a i => some (put14_7_0 0x43400000 d a i)
  | .sAddsatS d a b => some (put14_7_0 0x01600000 d a b)
  | .sAddsatSImm d a i => some (put14_7_0 0x03600000 d a i)
  | .vAddsatS d a b => some (put14_7_0 0x41600000 d a b)
  | .vAddsatSImm d a i => some (put14_7_0 0x43600000 d a i)
  | .sSubsatS d a b => some (put14_7_0 0x01800000 d a b)
  | .sSubsatSImm d a i => some (put14_7_0 0x03800000 d a i)
  | .vSubsatS d a b => some (put14_7_0 0x41800000 d a b)
  | .vSubsatSImm d a i => some (put14_7_0 0x43800000 d a i)
  | .sAvgZ d a b => some (put14_7_0 0x01A00000 d a b)
  | .sAvgZImm d a i => some (put14_7_0 0x03A00000 d a i)
  | .vAvgZ d a b => some (put14_7_0 0x41A00000 d a b)
  | .vAvgZImm d a i => some (put14_7_0 0x43A00000 d a i)
  | .sAnd d a b => some (put14_7_0 0x04000000 d a b)
  | .sAndImm d a i => some (put14_7_0 0x06000000 d a i)
  | .vAnd d a b => some (put14_7_0 0x44000000 d a b)
  | .vAndImm d a i => some (put14_7_0 0x46000000 d a i)
  | .sOr d a b => some (put14_7_0 0x04200000 d a b)
  | .sOrImm d a i => some (put14_7_0 0x06200000 d a i)
  | .vOr d a b => some (put14_7_0 0x44200000 d a b)
  | .vOrImm d a i => some (put14_7_0 0x46200000 d a i)
  | .sXor d a b => some (put14_7_0 0x04400000 d a b)
  | .sXorImm d a i => some (put14_7_0 0x06400000 d a i)
  | .vXor d a b => some (put14_7_0 0x44400000 d a b)
  | .vXorImm d a i => some (put14_7_0 0x46400000 d a i)
  | .sAndn d a b => some (put14_7_0 0x04600000 d a b)
  | .sAndnImm d a i => some (put14_7_0 0x06600000 d a i)
  | .vAndn d a b => some (put14_7_0 0x44600000 d a b)
  | .vAndnImm d a i => some (put14_7_0 0x46600000 d a i)
  | .sOrn d a b => some (put14_7_0 0x04800000 d a b)
  | .sOrnImm d a i => some (put14_7_0 0x06800000 d a i)
  | .vOrn d a b => some (put14_7_0 0x44800000 d a b)
  | .vOrnImm d a i => some (put14_7_0 0x46800000 d a i)
  | .sXnor d a b => some (put14_7_0 0x04A00000 d a b)
  | .sXnorImm d a i => some (put14_7_0 0x06A00000 d a i)
  | .vXnor d a b => some (put14_7_0 0x44A00000 d a b)
  | .vXnorImm d a i => some (put14_7_0 0x46A00000 d a i)
  | .sShl d a b => some (put14_7_0 0x04C00000 d a b)
  | .sShlImm d a i => some (put14_7_0 0x06C00000 d a i)
  | .vShl d a b => some (put14_7_0 0x44C00000 d a b)
  | .vShlImm d a i => some (put14_7_0 0x46C00000 d a i)
  | .sShr d a b => some (put14_7_0 0x04E00000 d a b)
  | .sShrImm d a i => some (put14_7_0 0x06E00000 d a i)
  | .vShr d a b => some (put14_7_0 0x44E00000 d a b)
  | .vShrImm d a i => some (put14_7_0 0x46E00000 d a i)
  | .sSar d a b => some (put14_7_0 0x05000000 d a b)
  | .sSarImm d a i => some (put14_7_0 0x07000000 d a i)
  | .vSar d a b => some (put14_7_0 0x45000000 d a b)
  | .vSarImm d a i => some (put14_7_0 0x47000000 d a i)
  | .sRotl d a b => some (put14_7_0 0x05200000 d a b)
  | .sRotlImm d a i => some (put14_7_0 0x07200000 d a i)
  | .vRotl d a b => some (put14_7_0 0x45200000 d a b)
  | .vRotlImm d a i => some (put14_7_0 0x47200000 d a i)
  | .sRotr d a b => some (put14_7_0 0x05400000 d a b)
  | .sRotrImm d a i => some (put14_7_0 0x07400000 d a i)
  | .vRotr d a b => some (put14_7_0 0x45400000 d a b)
  | .vRotrImm d a i => some (put14_7_0 0x47400000 d a i)
  | .sClz d a => some (put14_7 0x05600000 d a)
  | .vClz d a => some (put14_7 0x45600000 d a)
  | .sPopc d a => some (put14_7 0x05800000 d a)
  | .vPopc d a => some (put14_7 0x45800000 d a)
  | .sBrev d a => some (put14_7 0x05A00000 d a)
  | .vBrev d a => some (put14_7 0x45A00000 d a)
  | .sMov d a => some (put14_7 0x05C00000 d a)
  | .sMovImm d i => some (put14_0 0x07C00000 d i)
  | .vMov d a => some (put14_7 0x45C00000 d a)
  | .vMovImm d i => some (put14_0 0x47C00000 d i)
  | .sNot d a => some (put14_7 0x05E00000 d a)
  | .vNot d a => some (put14_7 0x45E00000 d a)
  | .sBfeS d a b => some (put14_7_0 0x08000000 d a b)
  | .vBfeS d a b => some (put14_7_0 0x48000000 d a b)
  | .sBfeZ d a b => some (put14_7_0 0x08200000 d a b)
  | .vBfeZ d a b => some (put14_7_0 0x48200000 d a b)
  | .sBfi d a b => some (put14_7_0 0x08400000 d a b)
  | .vBfi d a b => some (put14_7_0 0x48400000 d a b)
  | .sPrmt d a b => some (put14_7_0 0x08600000 d a b)
  | .vPrmt d a b => some (put14_7_0 0x48600000 d a b)
  | .sAdd64 d a b => some (put14_7_0 0x08800000 d a b)
  | .vAdd64 d a b => some (put14_7_0 0x48800000 d a b)
  | .sSub64 d a b => some (put14_7_0 0x08A00000 d a b)
  | .vSub64 d a b => some (put14_7_0 0x48A00000 d a b)
  | .sShl64 d a b => some (put14_7_0 0x08C00000 d a b)
  | .vShl64 d a b => some (put14_7_0 0x48C00000 d a b)
  | .sShr64 d a b => some (put14_7_0 0x08E00000 d a b)
  | .vShr64 d a b => some (put14_7_0 0x48E00000 d a b)
  | .sSar64 d a b => some (put14_7_0 0x09000000 d a b)
  | .vSar64 d a b => some (put14_7_0 0x49000000 d a b)
  | .sMul64lo d a b => some (put14_7_0 0x09200000 d a b)
  | .vMul64lo d a b => some (put14_7_0 0x49200000 d a b)
  | .sMovi d i => some (put18_0 0x0A000000 d i)
  | .vMovi d i => some (put18_0 0x4A000000 d i)
  | .sFadd d a b => some (put14_7_0 0x0C000000 d a b)
  | .vFadd d a b => some (put14_7_0 0x4C000000 d a b)
  | .sFsub d a b => some (put14_7_0 0x0C200000 d a b)
  | .vFsub d a b => some (put14_7_0 0x4C200000 d a b)
  | .sFmul d a b => some (put14_7_0 0x0C400000 d a b)
  | .vFmul d a b => some (put14_7_0 0x4C400000 d a b)
  | .sFfma d a b => some (put14_7_0 0x0C600000 d a b)
  | .vFfma d a b => some (put14_7_0 0x4C600000 d a b)
  | .sFmin d a b => some (put14_7_0 0x0C800000 d a b)
  | .vFmin d a b => some (put14_7_0 0x4C800000 d a b)
  | .sFmax d a b => some (put14_7_0 0x0CA00000 d a b)
  | .vFmax d a b => some (put14_7_0 0x4CA00000 d a b)
  | .sFabs d a => some (put14_7 0x0CC00000 d a)
  | .vFabs d a => some (put14_7 0x4CC00000 d a)
  | .sFneg d a => some (put14_7 0x0CE00000 d a)
  | .vFneg d a => some (put14_7 0x4CE00000 d a)
  | .sFcopysign d a b => some (put14_7_0 0x0D000000 d a b)
  | .vFcopysign d a b => some (put14_7_0 0x4D000000 d a b)
  | .sFclass d a => some (put14_7 0x0D200000 d a)
  | .vFclass d a => some (put14_7 0x4D200000 d a)
  | .sFrcp d a => some (put14_7 0x0E000000 d a)
  | .vFrcp d a => some (put14_7 0x4E000000 d a)
  | .sFrsq d a => some (put14_7 0x0E200000 d a)
  | .vFrsq d a => some (put14_7 0x4E200000 d a)
  | .sFsqrt d a => some (put14_7 0x0E400000 d a)
  | .vFsqrt d a => some (put14_7 0x4E400000 d a)
  | .sFexp2 d a => some (put14_7 0x0E600000 d a)
  | .vFexp2 d a => some (put14_7 0x4E600000 d a)
  | .sFlog2 d a => some (put14_7 0x0E800000 d a)
  | .vFlog2 d a => some (put14_7 0x4E800000 d a)
  | .sFsinpi d a => some (put14_7 0x0EA00000 d a)
  | .vFsinpi d a => some (put14_7 0x4EA00000 d a)
  | .sFcospi d a => some (put14_7 0x0EC00000 d a)
  | .vFcospi d a => some (put14_7 0x4EC00000 d a)
  | .sFtanh d a => some (put14_7 0x0EE00000 d a)
  | .vFtanh d a => some (put14_7 0x4EE00000 d a)
  | .sFrintNe d a => some (put14_7 0x0F000000 d a)
  | .vFrintNe d a => some (put14_7 0x4F000000 d a)
  | .sFrintZ d a => some (put14_7 0x0F200000 d a)
  | .vFrintZ d a => some (put14_7 0x4F200000 d a)
  | .sFrintDn d a => some (put14_7 0x0F400000 d a)
  | .vFrintDn d a => some (put14_7 0x4F400000 d a)
  | .sFrintUp d a => some (put14_7 0x0F600000 d a)
  | .vFrintUp d a => some (put14_7 0x4F600000 d a)
  | .sFaddF16x2 d a b => some (put14_7_0 0x10000000 d a b)
  | .vFaddF16x2 d a b => some (put14_7_0 0x50000000 d a b)
  | .sFsubF16x2 d a b => some (put14_7_0 0x10200000 d a b)
  | .vFsubF16x2 d a b => some (put14_7_0 0x50200000 d a b)
  | .sFmulF16x2 d a b => some (put14_7_0 0x10400000 d a b)
  | .vFmulF16x2 d a b => some (put14_7_0 0x50400000 d a b)
  | .sFfmaF16x2 d a b => some (put14_7_0 0x10600000 d a b)
  | .vFfmaF16x2 d a b => some (put14_7_0 0x50600000 d a b)
  | .sFminF16x2 d a b => some (put14_7_0 0x10800000 d a b)
  | .vFminF16x2 d a b => some (put14_7_0 0x50800000 d a b)
  | .sFmaxF16x2 d a b => some (put14_7_0 0x10A00000 d a b)
  | .vFmaxF16x2 d a b => some (put14_7_0 0x50A00000 d a b)
  | .sFaddBf16x2 d a b => some (put14_7_0 0x11000000 d a b)
  | .vFaddBf16x2 d a b => some (put14_7_0 0x51000000 d a b)
  | .sFsubBf16x2 d a b => some (put14_7_0 0x11200000 d a b)
  | .vFsubBf16x2 d a b => some (put14_7_0 0x51200000 d a b)
  | .sFmulBf16x2 d a b => some (put14_7_0 0x11400000 d a b)
  | .vFmulBf16x2 d a b => some (put14_7_0 0x51400000 d a b)
  | .sFfmaBf16x2 d a b => some (put14_7_0 0x11600000 d a b)
  | .vFfmaBf16x2 d a b => some (put14_7_0 0x51600000 d a b)
  | .sFminBf16x2 d a b => some (put14_7_0 0x11800000 d a b)
  | .vFminBf16x2 d a b => some (put14_7_0 0x51800000 d a b)
  | .sFmaxBf16x2 d a b => some (put14_7_0 0x11A00000 d a b)
  | .vFmaxBf16x2 d a b => some (put14_7_0 0x51A00000 d a b)
  | .sCvt f d a s t => some (put21_14_7_3_2 0x12000000 f d a s t)
  | .vCvt f d a s t => some (put21_14_7_3_2 0x52000000 f d a s t)
  | .sCmp k t m a b => some (put21_18_14_7_0 0x14000000 k t m a b)
  | .vCmp k t m a b => some (put21_18_14_7_0 0x54000000 k t m a b)
  | .sFcmp k t m a b => some (put21_18_14_7_0 0x16000000 k t m a b)
  | .vFcmp k t m a b => some (put21_18_14_7_0 0x56000000 k t m a b)
  | .sSel k d a b => some (put22_14_7_0 0x18000000 k d a b)
  | .vSel k d a b => some (put22_14_7_0 0x58000000 k d a b)
  | .sPget d => some (put14 0x18200000 d)
  | .vPget d => some (put14 0x58200000 d)
  | .vPpop n => some (put18 0x5A000000 n)
  | .vPdup k => some (put18 0x5A200000 k)
  | .vPand k => some (put18 0x5A400000 k)
  | .vPor k => some (put18 0x5A600000 k)
  | .vPxor k => some (put18 0x5A800000 k)
  | .vPnot k => some (put18 0x5AA00000 k)
  | .vPswap k => some (put18 0x5AC00000 k)
  | .vPpush b => some (put0 0x5AE00000 b)
  | .vPset b => some (put0 0x5B000000 b)
  | .vShflIdx d a b => some (put14_7_0 0x5C000000 d a b)
  | .vShflUp d a b => some (put14_7_0 0x5C200000 d a b)
  | .vShflDown d a b => some (put14_7_0 0x5C400000 d a b)
  | .vShflXor d a b => some (put14_7_0 0x5C600000 d a b)
  | .vBcast d a b => some (put14_7_0 0x5C800000 d a b)
  | .vVoteBallot d a => some (put14_7 0x5CA00000 d a)
  | .vReduxAdd d a t => some (put14_7_0 0x5CC00000 d a t)
  | .vReduxMin d a t => some (put14_7_0 0x5CE00000 d a t)
  | .vReduxMax d a t => some (put14_7_0 0x5D000000 d a t)
  | .vScanIncl d a t => some (put14_7_0 0x5D200000 d a t)
  | .vScanExcl d a t => some (put14_7_0 0x5D400000 d a t)
  | .vMatch d a => some (put14_7 0x5D600000 d a)
  | .vIsect d a b => some (put14_7_0 0x5D800000 d a b)
  | .sMovx d i k => some (put14_7_0 0x1E000000 d i k)
  | .vMovx d i k => some (put14_7_0 0x5E000000 d i k)
  | .sMovxw s i k => some (put14_7_0 0x1E200000 s i k)
  | .vMovxw s i k => some (put14_7_0 0x5E200000 s i k)
  | .mLd z d a o => some (put22_15_8_0 0x80000000 z d a o)
  | .mLdPr z d a o => some (put22_15_8_0 0x82000000 z d a o)
  | .mLdAcq z d a o => some (put22_15_8_0 0x84000000 z d a o)
  | .mLdu z d a o => some (put22_15_8_0 0x86000000 z d a o)
  | .mSt z d a o => some (put22_15_8_0 0x88000000 z d a o)
  | .mStRel z d a o => some (put22_15_8_0 0x8A000000 z d a o)
  | .mAtomAddS32 d a b => some (put14_7_0 0x8C000000 d a b)
  | .mAtomAndB32 d a b => some (put14_7_0 0x8C200000 d a b)
  | .mAtomOrB32 d a b => some (put14_7_0 0x8C400000 d a b)
  | .mAtomXorB32 d a b => some (put14_7_0 0x8C600000 d a b)
  | .mAtomMinS32 d a b => some (put14_7_0 0x8C800000 d a b)
  | .mAtomMaxS32 d a b => some (put14_7_0 0x8CA00000 d a b)
  | .mAtomMinZ32 d a b => some (put14_7_0 0x8CC00000 d a b)
  | .mAtomMaxZ32 d a b => some (put14_7_0 0x8CE00000 d a b)
  | .mAtomExchB32 d a b => some (put14_7_0 0x8D000000 d a b)
  | .mAtomAddS64 d a b => some (put14_7_0 0x8E000000 d a b)
  | .mAtomAndB64 d a b => some (put14_7_0 0x8E200000 d a b)
  | .mAtomOrB64 d a b => some (put14_7_0 0x8E400000 d a b)
  | .mAtomXorB64 d a b => some (put14_7_0 0x8E600000 d a b)
  | .mAtomMinS64 d a b => some (put14_7_0 0x8E800000 d a b)
  | .mAtomMaxS64 d a b => some (put14_7_0 0x8EA00000 d a b)
  | .mAtomMinZ64 d a b => some (put14_7_0 0x8EC00000 d a b)
  | .mAtomMaxZ64 d a b => some (put14_7_0 0x8EE00000 d a b)
  | .mAtomExchB64 d a b => some (put14_7_0 0x8F000000 d a b)
  | .mAtomAddF32 d a b => some (put14_7_0 0x90000000 d a b)
  | .mAtomMinF32 d a b => some (put14_7_0 0x90200000 d a b)
  | .mAtomMaxF32 d a b => some (put14_7_0 0x90400000 d a b)
  | .mAtomAddF16x2 d a b => some (put14_7_0 0x90600000 d a b)
  | .mAtomAddBf16x2 d a b => some (put14_7_0 0x90800000 d a b)
  | .mRedAddS32 a b => some (put7_0 0x92000000 a b)
  | .mRedAddS64 a b => some (put7_0 0x92200000 a b)
  | .mRedAddF32 a b => some (put7_0 0x92400000 a b)
  | .mRedMinS32 a b => some (put7_0 0x92600000 a b)
  | .mRedMaxS32 a b => some (put7_0 0x92800000 a b)
  | .mRedMinZ32 a b => some (put7_0 0x92A00000 a b)
  | .mRedMaxZ32 a b => some (put7_0 0x92C00000 a b)
  | .mRedAndB32 a b => some (put7_0 0x92E00000 a b)
  | .mRedOrB32 a b => some (put7_0 0x93000000 a b)
  | .mRedXorB32 a b => some (put7_0 0x93200000 a b)
  | .mRedMinF32 a b => some (put7_0 0x93400000 a b)
  | .mRedMaxF32 a b => some (put7_0 0x93600000 a b)
  | .mRedAddF16x2 a b => some (put7_0 0x93800000 a b)
  | .mRedAddBf16x2 a b => some (put7_0 0x93A00000 a b)
  | .mCasB32 d a b => some (put14_7_0 0x94000000 d a b)
  | .mCasB64 d a b => some (put14_7_0 0x94200000 d a b)
  | .mFenceAcq s => some (put22 0x96000000 s)
  | .mFenceRel s => some (put22 0x96100000 s)
  | .mFenceFull s => some (put22 0x96200000 s)
  | .mMwait o a b => some (put21_7_0 0x98000000 o a b)
  | .mPgreq a => some (put7 0x9A000000 a)
  | .mPgprobe d a => some (put14_7 0x9A200000 d a)
  | .mPref a => some (put7 0x9A400000 a)
  | .mTexSample d a b => some (put14_7_0 0x9C000000 d a b)
  | .mTexSampleLod d a b => some (put14_7_0 0x9C200000 d a b)
  | .mTexSampleGrad d a b => some (put14_7_0 0x9C400000 d a b)
  | .mTexFetch d a b => some (put14_7_0 0x9C600000 d a b)
  | .mTexGath4 d a b => some (put14_7_0 0x9C800000 d a b)
  | .mTexqSize d a b => some (put14_7_0 0x9E000000 d a b)
  | .mTexqLevels d a => some (put14_7 0x9E200000 d a)
  | .mTexqFormat d a => some (put14_7 0x9E400000 d a)
  | .eCpy p t s => some (put14_8_0 0xA0000000 p t s)
  | .eGath p t => some (put14_8 0xA2000000 p t)
  | .eScat o p t => some (put21_14_8 0xA4000000 o p t)
  | .eMma p => some (put14 0xA6000000 p)
  | .eMsrch p => some (put14 0xA8000000 p)
  | .eQuant p => some (put14 0xAA000000 p)
  | .eKselThr p t => some (put14_8 0xAC000000 p t)
  | .eKselTopk p t => some (put14_8 0xAC200000 p t)
  | .eKgat p t => some (put14_8 0xAE000000 p t)
  | .eKsum p t => some (put14_8 0xB0000000 p t)
  | .eSpawn p => some (put14 0xB2000000 p)
  | .eSpawnDie p x => some (put14_0 0xB2200000 p x)
  | .eEnq p q => some (put14_0 0xB4000000 p q)
  | .eSsbld p t => some (put14_8 0xB6000000 p t)
  | .eBind p k => some (put14_0 0xB8000000 p k)
  | .eEmit p => some (put14 0xBA000000 p)
  | .eRelaunch p => some (put14 0xBC000000 p)
  | .eTdset p => some (put14 0xBE000000 p)
  | .cBr k m o => some (put22_19_0 0xC0000000 k m o)
  | .cCall j o => some (put19_0 0xC2000000 j o)
  | .cJmp a => some (put7 0xC4000000 a)
  | .cCallx d a => some (put14_7 0xC4200000 d a)
  | .cRet a => some (put7 0xC4400000 a)
  | .cWait l s c x => some (put19_13_7_1 0xC6000000 l s c x)
  | .cTwaitAny a => some (put7 0xC8000000 a)
  | .cTwaitAll a => some (put7 0xC8200000 a)
  | .cTffs d a => some (put14_7 0xC8400000 d a)
  | .cTclr a => some (put7 0xC8600000 a)
  | .cBarArrive s i => some (put18_14 0xCA000000 s i)
  | .cBarWait s i => some (put18_14 0xCA200000 s i)
  | .cBarSync s i => some (put18_14 0xCA400000 s i)
  | .cNop => some 0xCC000000
  | .cYield => some 0xCC200000
  | .cExit => some 0xCC400000
  | .cBrk b => some (put0 0xCC600000 b)
  | .cTrap n => some (put0 0xCE000000 n)
  | .yGsr d r => some (put14_7 0xD0000000 d r)
  | .ySsr r b => some (put7_0 0xD2000000 r b)
  | .yResume a b => some (put7_0 0xD4000000 a b)
  | .yKill a b => some (put7_0 0xD4200000 a b)
  | .yCtxinfo d n => some (put14_7 0xD6000000 d n)
  | .hImm x => some (put0 0xFC000000 x)
  | .hGuard k n => some (put18_15 0xFE000000 k n)
  | .hGuardNot k n => some (put18_15 0xFE004000 k n)
  | .hSrc3 c => some (put14 0xFE200000 c)
  | .hReuse x n => some (put14_0 0xFE400000 x n)
  | .hLast x y n => some (put14_7_0 0xFE600000 x y n)
  | .hRnd m => some (put19 0xFE800000 m)
  | .hScope s => some (put18 0xFEA00000 s)
  | .hSched n => some (put16 0xFEC00000 n)
  | .hCache p => some (put18 0xFEE00000 p)
  | .loadRetire _ _ => none
  | .storePerform _ _ => none
  | .atomicPerform _ _ => none
  | .reductionPlace _ _ => none
  | .updateLineMerge _ _ => none
  | .texRetire _ => none
  | .waitComplete _ _ => none
  | .tagSet _ => none
  | .tagWaitComplete _ _ => none
  | .barrierPhaseComplete _ => none
  | .monitorWake _ _ => none
  | .monitorReread _ _ => none
  | .blockSwapOut _ _ => none
  | .blockSwapIn _ => none
  | .scratchRefill _ _ _ => none
  | .pageWaitRetry _ _ => none
  | .pteChange _ _ _ _ _ => none
  | .residencyPresent _ _ => none
  | .residencyRefuse _ _ => none
  | .residencyEvict _ _ => none
  | .migration _ _ _ => none
  | .migrationRequest _ _ _ _ => none
  | .kickWrite _ _ _ => none
  | .packetTake _ _ => none
  | .packetHeaderWake _ _ => none
  | .launch _ => none
  | .seed _ => none
  | .graphReplay _ => none
  | .relaunch _ => none
  | .signal _ => none
  | .waitValue _ => none
  | .waitValueRecheck _ => none
  | .barrierOnly _ => none
  | .queueCreate _ => none
  | .queueDestroy _ => none
  | .settings _ => none
  | .graphBind _ => none
  | .packetComplete _ => none
  | .graphKick _ _ _ => none
  | .graphNodeStart _ _ _ => none
  | .blockStart _ _ => none
  | .warpPlace _ _ => none
  | .warpEnd _ => none
  | .spawnRetire _ => none
  | .binTimerExpiry _ _ => none
  | .spillRingMove _ _ => none
  | .hangDetected _ => none
  | .cpyComplete _ => none
  | .gathComplete _ => none
  | .scatComplete _ => none
  | .mmaComplete _ => none
  | .msrchComplete _ => none
  | .quantComplete _ => none
  | .kselComplete _ => none
  | .kgatComplete _ => none
  | .ksumInstall _ => none
  | .ksumComplete _ => none
  | .engineStallResume _ => none
  | .engineFaultStop _ => none
  | .enqRetire _ => none
  | .emitAccept _ _ => none
  | .binnerAccept _ _ => none
  | .buildComplete _ => none
  | .buildRecord _ _ => none
  | .rasterLeaf _ _ _ => none
  | .blenderApply _ => none
  | .passEnd _ => none
  | .passAutoClose _ => none
  | .pixelPreemptDeadline _ => none
  | .inboundRmaWrite _ _ _ _ => none
  | .inboundRmaRead _ _ _ _ => none
  | .inboundFetchAdd _ _ _ _ => none
  | .inboundSwap _ _ _ _ => none
  | .inboundCas _ _ _ _ _ => none
  | .inboundRateRelease _ _ => none
  | .remoteCompletion _ _ _ => none
  | .remoteTimeout _ => none
  | .remoteStoreFailure _ _ => none
  | .peerReset _ => none
  | .hostDetach _ => none
  | .contextCreate _ _ => none
  | .contextDestroy _ _ => none
  | .preempt _ _ => none
  | .resume _ _ => none
  | .regionSet _ _ => none
  | .regionClear _ _ => none
  | .stampRead _ _ => none
  | .fencePart _ _ => none
  | .returnPart _ _ => none
  | .partLeaveService _ => none
  | .firmwarePush _ _ => none
  | .attest _ _ => none
  | .powerCap _ _ => none
  | .debugStepOn _ _ => none
  | .debugStepOff _ _ => none
  | .debugWatchSet _ _ => none
  | .debugWatchClear _ _ => none
  | .debugHalt _ _ => none
  | .keepalive _ _ => none
  | .moduleReset => none
  | .schedulerHeartbeat _ => none
  | .heartbeatTimeout _ => none
  | .hbmRowRetire _ _ => none
  | .coreFailure _ => none
  | .thermalThrottle _ => none
  | .thermalShutdown _ => none
  | .unallocatedWord _ => none
  | .fetchFault => none
  | .engineUnitWrite _ => none
  | .contextTimeout _ => none
  | .contextWipe _ => none
  | .linkDown _ => none
  | .linkUp _ => none
  | .egressRateRelease _ => none
  | .connectionSetup _ _ => none
  | .unknownOp _ _ => none
  | .eccError _ _ _ => none
  | .thermalThrottleEnd _ => none

/-- The word of an instruction, 0 where it has none: what a trap's detail names (R150). -/
def wordOf (i : Instr) : Nat := (encode i).getD 0

end Sys2Proof
end

