-- ==== Sys2Proof/Machine/State.lean ====
section
/-! DEFINITION. The state of a Praesk 9 module: everything the spec gives the machine, as plain data. -/

namespace Sys2Proof.Machine

open Host (Cell)

/-! ### Outcomes that are no next state -/

/-- Why the model stops. The spec stops the machine nowhere: a fault here is never taken by `step`. -/
inductive Fault where
  /-- Raised by `exec` of a word row when no run is selected for issue (R19); `step` always selects one first. Safe: no
  next state is claimed. -/
  | noRunSelected
  deriving DecidableEq, Repr

/-- Why the model gives an instruction no meaning. -/
inductive Refusal where
  /-- Raised by an arm of `exec` whose instruction has no meaning yet. Safe: no next state is claimed. -/
  | notModelled (mnemonic : String)
  /-- Raised by a load or store of an I/O-die register other than a kick register: R164 says such registers stand there
  and no rule says what they hold or do. Safe: no next state is claimed. -/
  | ioDieRegister
  deriving DecidableEq, Repr

/-! ### Registers, predicates and lanes -/

/-- The storage form of a register of a warp (R28). -/
inductive RegForm where
  | uniform (w : Word)
  | compressed (base stride : Word)
  | perLane (v : Vector Word 32)
  deriving DecidableEq, Repr

/-- A pending mark (R33): register `reg` is pending in `lanes` for the LD operation numbered `seq` of its warp. -/
structure Mark where
  reg : Nat
  lanes : Mask
  seq : Nat
  deriving DecidableEq, Repr

/-- An entry of a predicate stack (R29) and, where an `m.ld.pr` has not been waited for, its operation (R182). -/
structure Pred where
  val : Bool
  pend : Option Nat
  deriving DecidableEq, Repr

/-- A write that `h.last` may still discard (R30): register, issue number in the lane, the value before the write. -/
structure Recent where
  reg : Nat
  at_ : Nat
  old : Word
  deriving DecidableEq, Repr

/-- An arrival of a lane at a barrier that it has not waited for (R141). It is a release: it counts once the warp's
operations with an id below `before` are performed (R211). -/
structure Arrival where
  scope : Nat
  id : Nat
  phase : Nat
  before : Nat
  deriving DecidableEq, Repr

/-- Where an access leads (R158 to R168, R176). -/
inductive Target where
  /-- a byte of local HBM, by physical address -/
  | hbm (pa : Nat)
  /-- a byte of a block's scratchpad (R160) -/
  | scratch (block off : Nat)
  /-- a byte of a block's accumulator tiles (R161) -/
  | tile (block off : Nat)
  /-- a byte of the residency window (R170) -/
  | residency (off : Nat)
  /-- memory of the controlling host (0) or of a peer, by address there (R176) -/
  | remote (peer addr : Nat)
  /-- a queue's kick register (R155) -/
  | kick (ctx queue : Nat)
  /-- a graph slot's kick register (R248) -/
  | graphKick (ctx slot : Nat)
  /-- another register of the I/O die (R164) -/
  | io (pa : Nat)
  /-- a valid page whose frame is absent (R170) -/
  | absent
  deriving DecidableEq, Repr

/-- A leaf entry (R166) and the page it maps. -/
structure Leaf where
  entryAddr : Nat
  page : Nat
  size : Nat
  frame : Nat
  tgt : Nat
  cache : Nat
  rem : Bool
  sum : Bool
  trk : Bool
  cow : Bool
  x : Bool
  w : Bool
  p : Bool
  deriving DecidableEq, Repr

/-- What a waiting run waits for (R18, R136, R162, R171, R342). -/
inductive Wait where
  /-- `c.wait` (R137): per counter LD, ST, CP, MX the operations numbered below it must have retired; and the limits -/
  | counters (below limits : List Nat)
  /-- a tag wait (R139) -/
  | tags (all : Bool) (mask : DWord)
  /-- a barrier phase (R141); `sync` says that the instruction arrives as well -/
  | barrier (scope id phase : Nat) (sync : Bool)
  /-- `m.mwait` (R195): op, the word's address, its bytes, the value, and whether the wait
  may end -/
  | monitor (op addr size value : Nat) (hit : Bool)
  /-- held before issue on pages that are not present (R171) -/
  | pages (vas : List Nat)
  /-- held before issue on a scratchpad page that is not refilled (R162) -/
  | refill (block page : Nat)
  /-- held before issue while a counter stands at 63 (R136): 0 LD, 1 ST, 2 CP, 3 MX -/
  | full (counter : Nat)
  /-- held at issue while sixteen relaunches are queued (R342) -/
  | relaunch
  /-- held before issue until the word that stands at the instruction's address arrives from a remote page (R176) -/
  | fetch (va peer addr : Nat)
  deriving DecidableEq, Repr

/-- The condition of a lane (R18). A waiting lane holds where it goes on and since which clock it waits. -/
inductive Cond where
  | ready
  | waiting (what : Wait) (next : Pc) (since : Nat)
  | stopped (handle : Nat)
  | exited
  deriving DecidableEq, Repr

/-- A lane of a warp. -/
structure Lane where
  cond : Cond
  pc : Pc
  /-- R19 -/
  age : Nat
  /-- R29: p0 first -/
  preds : Vector Pred 8
  /-- R61 -/
  residue : Nat
  pass : Bool
  /-- SR.FPFLAGS (R40) -/
  fpflags : BitVec 5
  /-- how many instructions the lane has issued, hints counted (R30) -/
  issued : Nat
  recent : List Recent
  arrivals : List Arrival
  /-- R337: the static block whose record the lane's accesses join; none for a lane that does not exist and in a handler that no run
  started -/
  origin : Option Nat
  /-- R299: a pixel lane has emitted -/
  emitted : Bool
  /-- R194: the fence the lane stands at has raised its fault and is now performed -/
  pastFence : Bool
  deriving DecidableEq, Repr

/-! ### Outstanding operations -/

/-- A failure that a wait takes later (R138). -/
structure OpFault where
  cause : Nat
  lanes : Mask
  addr : Nat
  detail : List Nat
  deriving DecidableEq, Repr

/-- One lane's access of an operation. -/
structure Part where
  lane : Nat
  va : Nat
  size : Nat
  /-- as translated at issue (R169) -/
  tgt : Target
  leaf : Option Leaf
  /-- what a texture access reads besides its descriptor: address, bytes, target as translated at issue -/
  also : List (Nat × Nat × Target)
  /-- store data, atomic operand, or spawn record -/
  data : Nat
  /-- `cas`: the expected value -/
  expect : Nat
  /-- texture coordinates, a spawn's die -/
  args : List Nat
  done : Bool
  /-- the value read -/
  got : Nat
  /-- R182: the page was present -/
  present : Bool
  /-- R362, R242: refused, with the cause -/
  refused : Option Nat
  /-- R352: handed to the ports -/
  sent : Bool
  deriving DecidableEq, Repr

/-- The arithmetic of an atomic or a reduction (R187, R188). -/
inductive AtomFn where
  | add32 | and32 | or32 | xor32 | minS32 | maxS32 | minZ32 | maxZ32 | exch32
  | add64 | and64 | or64 | xor64 | minS64 | maxS64 | minZ64 | maxZ64 | exch64
  | addF32 | minF32 | maxF32 | addF16x2 | addBf16x2
  deriving DecidableEq, Repr

/-- A tensor descriptor (R267). -/
structure Tensor where
  id : Nat
  base : Nat
  fmt : Nat
  ndim : Nat
  swz : Nat
  trl : Bool
  lay : Bool
  sumd : Bool
  ext : List Nat
  str : List Int
  scaleb : Nat
  tagb : Nat
  sumb : Nat
  page : Nat
  deriving DecidableEq, Repr

/-- The commands of the copy, matrix and selection engines (R55). -/
inductive EngineOp where
  | cpy | gath | scat (fn : AtomFn) | mma | msrch | quant | kselThr | kselTopk | kgat | ksum | ssbld
  deriving DecidableEq, Repr

/-- An engine command in progress (R271 to R276). -/
structure Command where
  op : EngineOp
  /-- address of the parameter block, or of the sample-set header -/
  addr : Nat
  /-- the block's 64 bytes -/
  params : List Nat
  tensors : List Tensor
  swizzle : Nat
  scope : Nat
  lane : Nat
  core : Nat
  /-- units the command has, and units done (R273) -/
  total : Nat
  progress : Nat
  /-- a barrier of the block awaits this command's arrival (R278) -/
  signal : Option Nat
  /-- values read once: a query, a list, a count, a pending install, source bytes -/
  held : List Nat
  /-- `e.scat`: values combined for table elements in HBM and not yet placed: address, bytes, value (R283) -/
  items : List (Nat × Nat × Nat)
  /-- `e.ksel`: it was stopped, and reads its list again before it goes on (R327); `e.kgat`: the rows of the next entry that fit
  are written, and the next one traps (R319) -/
  again : Bool
  /-- everything is done but the answers to its writes of remote pages, and what it owes; the fault it then reports, if any -/
  closing : Option (Option OpFault)
  /-- the restart word that it has to write and whose page is not present (R171, R273) -/
  owed : Option Nat
  /-- waiting for a page (R274) -/
  stalled : Option Nat
  deriving DecidableEq, Repr

/-- What an outstanding operation does. -/
inductive OpKind where
  /-- no active lane (R62) -/
  | none
  | load (d size : Nat) (signed uniform pr : Bool) (acquire : Option Nat)
  | store (release : Option Nat)
  | atomic (fn : AtomFn) (d : Nat)
  | cas (d size : Nat)
  | reduce (fn : AtomFn)
  | probe (d : Nat)
  | tex (fn d : Nat)
  | texq (fn d : Nat)
  | spawn
  /-- the image, the index reserved, whether body and header stand in the ring -/
  | enq (queue : Nat) (image : List Nat) (index : Option Nat) (written : Bool)
  | emit
  | engine (c : Command)
  deriving DecidableEq, Repr

inductive OpState where
  | running
  | done
  | failed (f : OpFault)
  deriving DecidableEq, Repr

/-- An operation a warp has issued and that has not retired (R136). -/
structure Op where
  id : Nat
  /-- 0 LD, 1 ST, 2 CP, 3 MX -/
  counter : Nat
  /-- its number among the warp's operations of its counter -/
  seq : Nat
  kind : OpKind
  parts : List Part
  scope : Nat
  tag : Option Nat
  state : OpState
  deriving DecidableEq, Repr

/-- A fence a warp has issued (R194): every operation with an id below `before` was issued before it. -/
structure Fence where
  before : Nat
  kind : Nat
  scope : Nat
  deriving DecidableEq, Repr

/-! ### Warps and blocks -/

inductive WarpKind where
  | static
  | seed
  | formed
  /-- R146, R151: the handle it received, 0 for a context-level cause -/
  | handler (handle : Nat)
  /-- R298: pass, leaf and primitive -/
  | pixel (pass leaf prim : Nat)
  deriving DecidableEq, Repr

/-- A warp (R17, R41). -/
structure Warp where
  id : Nat
  ctx : Nat
  launch : Nat
  block : Option Nat
  /-- SR.WARP -/
  number : Nat
  kind : WarpKind
  /-- the enabled-core snapshot it is placed under (R237) -/
  snap : BitVec 256
  /-- R23: core and resident index; none while it waits for room (R365) or its block is swapped out -/
  place : Option (Nat × Nat)
  /-- where it may be placed (R365): the die, and for a pixel warp the cluster, 8 × die + cluster -/
  die : Nat
  cluster : Option Nat
  /-- R26, R27: one form for each register of the allocation -/
  regs : List RegForm
  marks : List Mark
  lanes : Vector Lane 32
  /-- oldest first -/
  ops : List Op
  /-- a number above that of every operation issued (the model's own) -/
  bound : Nat
  /-- operations issued on LD, ST, CP, MX -/
  issued : Vector Nat 4
  fences : List Fence
  /-- SR.ABSENT -/
  absent : Word
  /-- the hint words issued, the run that issued them (R63), and the ready lanes it was selected from (R20) -/
  group : List Word
  groupRun : Mask
  groupReady : Mask
  /-- lanes whose run yielded at the previous issue (R19) -/
  yielded : Mask
  /-- R353: failures of remote stores not yet raised -/
  lateFaults : List OpFault
  /-- R358: 64-bit words of the register file that hold uncorrectable data: a register, and j for its lanes 2j and 2j + 1
  (log 48) -/
  bad : List (Nat × Nat)
  deriving DecidableEq, Repr

inductive BlockState where
  | running
  /-- its pages are unpinned and it holds no core (R197) -/
  | swapped
  deriving DecidableEq, Repr

/-- A block placed on a core. -/
structure Block where
  id : Nat
  ctx : Nat
  launch : Nat
  /-- B of R39 -/
  number : Nat
  core : Nat
  state : BlockState
  scratch : List Cell
  pages : Nat
  /-- scratchpad pages not refilled since the block came back (R162) -/
  unpinned : List Nat
  tiles : List Cell
  tileCount : Nat
  deriving DecidableEq, Repr

/-- A barrier's current phase, and the copies whose arrival it expects (R141, R278). `owner` is the warp (warp scope),
the block (core scope), or the launch with the index that names the participants (R140). -/
structure Bar where
  key : Nat
  scope : Nat
  id : Nat
  owner : Nat
  group : Nat
  phase : Nat
  expected : Nat
  deriving DecidableEq, Repr

/-! ### Launches, jobs, queues -/

structure Level where
  extent : Nat
  domain : Nat
  scope : Nat
  deriving DecidableEq, Repr

/-- A launch record (R235). -/
structure LaunchRec where
  regs : Nat
  partition : Nat
  scratch : Nat
  accum : Nat
  entry : Nat
  trapEntry : Nat
  params : Nat
  spawnCtr : Nat
  dist : Nat
  launchId : Nat
  trace : Nat
  levels : List Level
  deriving DecidableEq, Repr

/-- What the trace of one block holds so far (R332, R333, R338). -/
structure TraceSet where
  block : Nat
  reads : List Nat
  writes : List Nat
  always : Bool
  deriving DecidableEq, Repr

inductive LaunchKind where
  | blocks
  | seed
  /-- R335: the blocks selected -/
  | relaunch (selected : List Nat)
  /-- a relaunch of a traced SEED launch that was selected (R337) -/
  | reseed
  deriving DecidableEq, Repr

/-- A launch, or the run of a relaunch. -/
structure Launch where
  id : Nat
  ctx : Nat
  rec_ : LaunchRec
  kind : LaunchKind
  snapshot : BitVec 256
  /-- R144 item 1 -/
  packet : Nat
  job : Nat
  /-- block numbers started, and those whose warps have all ended -/
  started : List Nat
  ended : List Nat
  /-- R241: the count, where the device holds it -/
  spawned : Nat
  /-- R334 -/
  generation : Nat
  traces : List TraceSet
  /-- blocks whose trace record has been written (R332) -/
  recorded : List Nat
  /-- a relaunch: the launch whose record it runs again (R335) -/
  again : Option Nat
  /-- its SPAWNCTR word has still to be set, and nothing of it runs (R241, R364) -/
  unset : Bool
  deriving DecidableEq, Repr

/-- Where a job comes from: a queue's packet with its index, a graph node, `e.relaunch` (R343). -/
inductive JobSource where
  | packet (queue index : Nat)
  | node (slot node : Nat)
  | relaunch
  deriving DecidableEq, Repr

inductive JobState where
  | held
  | running
  deriving DecidableEq, Repr

/-- A packet taken, a graph node or a queued relaunch that has not completed. -/
structure Job where
  id : Nat
  ctx : Nat
  source : JobSource
  /-- its 64 bytes (R230) -/
  bytes : List Nat
  state : JobState
  /-- enabled-core snapshot attached when it was taken (R237) -/
  snapshot : BitVec 256
  /-- order of taking -/
  order : Nat
  /-- of a packet taken from a queue, kept should the queue be destroyed: the queue's key, the slot's address, the index
  modulo N (R234, R236) -/
  key : Nat
  slot : Nat
  place : Nat
  deriving DecidableEq, Repr

/-- A queue (R152, R155, R156). -/
structure Queue where
  number : Nat
  ring : Nat
  size : Nat
  wAddr : Nat
  rAddr : Nat
  /-- the device's own R -/
  read : Nat
  tail : Nat
  /-- waits for an empty header to become non-zero -/
  stalled : Bool
  /-- the packet read, its slot zeroed, while the store of R waits (R156) -/
  taking : Option (List Nat)
  /-- tells the queue from another that had its number before (the model's own, log 6) -/
  key : Nat
  deriving DecidableEq, Repr

/-- A task graph as the device keeps it (R246, R247). -/
structure Graph where
  nodes : List (List Nat)
  edges : List (Nat × Nat)
  deriving DecidableEq, Repr

/-- A replay in progress (R248). -/
structure Replay where
  graph : Graph
  started : List Nat
  completed : List Nat
  /-- the packet that started it, none for a kick store -/
  job : Option Nat
  deriving DecidableEq, Repr

/-- A graph slot: its graph, a bind that waits for the running replay, patch tables of queued kicks. -/
structure GraphSlot where
  number : Nat
  graph : Option Graph
  rebind : Option (Option Graph)
  pending : List Nat
  running : Option Replay
  deriving DecidableEq, Repr

/-- A record spawned and not yet in a warp (R242): its 16 words and its lane's origin block. -/
structure Record where
  words : List Word
  origin : Nat
  deriving DecidableEq, Repr

/-- A Carafe bin (R243). -/
structure Bin where
  die : Nat
  ctx : Nat
  launch : Nat
  entry : Nat
  records : List Record
  /-- clock at which its timer stood at 0 -/
  since : Nat
  deriving DecidableEq, Repr

/-- A record on a spill ring (R243). -/
structure Spilled where
  die : Nat
  launch : Nat
  entry : Nat
  record : Record
  deriving DecidableEq, Repr

/-! ### Raster -/

/-- A triangle record the binner accepted (R295), in the order of acceptance, with the spawn and the lane it stems from
(R305). -/
structure Triangle where
  verts : List Nat
  seq : Nat
  attr : Nat
  rate : Nat
  op : Nat
  lane : Nat
  deriving DecidableEq, Repr

/-- The header fields a pass copies at its close (R307). -/
structure SetCopy where
  count : Nat
  xmin : Nat
  ymin : Nat
  xmax : Nat
  ymax : Nat
  tile : Nat
  leaf : Nat
  reject : Nat
  nleaf : Nat
  leafb : Nat
  permb : Nat
  attBase : Nat
  attFmt : Nat
  deriving DecidableEq, Repr

inductive FragState where
  /-- its pixel lane is live and has not emitted -/
  | pending
  | emitted (value : Nat)
  /-- applied, dropped, or its lane exited without emitting -/
  | settled
  deriving DecidableEq, Repr

/-- A fragment of one sample (R298, R310): the sample, its place in the list order of R296, its pixel lane. -/
structure Frag where
  sample : Nat
  order : Nat
  warp : Nat
  lane : Nat
  state : FragState
  deriving DecidableEq, Repr

/-- A leaf as read (R308): its tile, and the samples that can be covered, in leaf order: index and snapped point. -/
structure LeafData where
  tile : Nat
  points : List (Nat × Nat × Nat)
  deriving DecidableEq, Repr

/-- A raster unit at work (R298, R306, R315): its cluster, 8 × die + cluster, its leaf, what it has read of it, and the place in
the tile's list of the first primitive whose pixel warps it has not formed. -/
structure RasterUnit where
  cluster : Nat
  leaf : Nat
  data : Option LeafData
  next : Nat
  deriving DecidableEq, Repr

/-- A pass (R295, R301). -/
structure Pass where
  id : Nat
  ctx : Nat
  slot : Nat
  launch : Nat
  /-- R337 -/
  origin : Nat
  setAddr : Nat
  pixel : Nat
  att : Nat
  op : Nat
  done : Nat
  doneVal : Nat
  open_ : Bool
  tris : List Triangle
  copy : Option SetCopy
  /-- dies with an enabled core at the close (R305) -/
  dies : List Nat
  /-- leaves not yet handed to a raster unit, in leaf order -/
  leaves : List Nat
  units : List RasterUnit
  frags : List Frag
  /-- R366: cause of the first error-log entry written for it -/
  failed : Option Nat
  deriving DecidableEq, Repr

/-- A Thicket build in progress (R294, R304). -/
structure Build where
  id : Nat
  ctx : Nat
  launch : Nat
  origin : Nat
  setAddr : Nat
  /-- as read; one byte, the value of STATUS, once only that is left to write; none once only the end is left -/
  header : List Nat
  /-- the `e.ssbld` that started it, or none for a build record -/
  op : Option Nat
  /-- the block whose scratchpad its addresses name, if any -/
  block : Option Nat
  done : Nat
  doneVal : Nat
  /-- why it failed, once STATUS = 3 is to be written or is written; only that and the end are left then -/
  fault : Option OpFault
  deriving DecidableEq, Repr

/-! ### Contexts -/

/-- A page being moved or made private (R173, R175): lines still at the old frame. -/
structure Move where
  page : Nat
  size : Nat
  oldFrame : Nat
  newFrame : Nat
  pulled : List Nat
  deriving DecidableEq, Repr

/-- A traced launch registered with its context (R331). -/
structure Traced where
  launchId : Nat
  launch : Nat
  rec_ : LaunchRec
  /-- it is a SEED launch (R337) -/
  seed : Bool
  deriving DecidableEq, Repr

/-- Pre-emption (R315, R316): the clock of the request; whether pixel warps are stopped too and state is saved. -/
inductive Preempt where
  | running
  | stopping (since : Nat) (host seq : Nat)
  | saved
  deriving DecidableEq, Repr

/-- A context (R228). -/
structure Ctx where
  number : Nat
  live : Bool
  /-- R348 -/
  host : Nat
  root : Nat
  trapBase : Nat
  logCount : Nat
  queues : List Queue
  slots : List GraphSlot
  ringBase : List Nat
  ringLog : Nat
  spilled : List Spilled
  spawnTimer : Nat
  hangExp : Nat
  swapUs : Nat
  /-- the descriptors set; an entry not listed is all zeros (R267) -/
  tensors : List Tensor
  /-- R363: per core the tags clear; a core not listed has every tag set -/
  tagsClear : List (Nat × DWord)
  /-- R334 -/
  generation : Nat
  stamps : List (Nat × Nat)
  traced : List Traced
  /-- traced works started and not completed (R339) -/
  tracedRunning : Nat
  /-- handles in use have been given up to this number (R146) -/
  lastHandle : Nat
  /-- R170: states 1 and 3 of pages, by page base -/
  residency : List (Nat × Nat)
  moves : List Move
  /-- R174: page and the clock until which requests are answered by a remote mapping -/
  holds : List (Nat × Nat)
  /-- R174: page and a die that reaches it through a remote mapping -/
  farMaps : List (Nat × Nat)
  stepping : Bool
  /-- ranges 0 to 3: base and length; length 0 is none -/
  watches : List (Nat × Nat)
  preempt : Preempt
  egressTargets : BitVec 256
  egressRates : List Nat
  /-- R250: the clock from which the hang detector's count runs, later by the clocks that do not count -/
  hangSince : Nat
  /-- R351: inbound requests dropped since the last trap, and that trap's clock -/
  dropped : Nat
  droppedTrap : Option Nat
  /-- writes of the trap area and of failed completion words that wait for a page (R229, R233, R364) -/
  pendingWrites : List (Nat × List Nat)
  deriving DecidableEq, Repr

/-! ### The module -/

/-- One partial of an update-only line (R192). -/
structure Partial where
  pa : Nat
  va : Nat
  ctx : Nat
  fn : AtomFn
  value : Nat
  /-- the operations of warps it stems from, for R220 -/
  op : Nat
  deriving DecidableEq, Repr

/-- An update-only line of a core's L1 (R164). -/
structure UpdateLine where
  core : Nat
  line : Nat
  parts : List Partial
  deriving DecidableEq, Repr

/-- An inbound request that waits at a region (R351): initiator, its stream (0 unordered, R221), kind 0 write, 1 read, 2 add,
3 swap, 4 cas, address offset, values, its number in the order of arrival, whether it waits for a page, a remote target or an
earlier write of its stream, not for the region's rate, and whether it has been handed to the ports as a write or an atomic of a
remote page. -/
structure Inbound where
  host : Nat
  stream : Nat
  kind : Nat
  key : Nat
  addr : Nat
  values : List Nat
  order : Nat
  held : Bool
  sent : Bool
  deriving DecidableEq, Repr

/-- An exposed region (R350). -/
structure Region where
  index : Nat
  vbase : Nat
  length : Nat
  ctx : Nat
  perm : Nat
  rate : Nat
  key : Nat
  queue : List Inbound
  /-- requests performed in the microsecond that began at the clock -/
  window : Nat
  count : Nat
  deriving DecidableEq, Repr

/-- A remote access (R352): sent at a clock through a port, or held for rate. `fill` is 0 for a lane's own access; else
the request brings so many bytes for an instruction fetch of the warp (`op` is then the warp), for a texture access or an
engine command. `kind` and `bytes` are the message it is sent as. -/
structure RemoteReq where
  id : Nat
  ctx : Nat
  warp : Nat
  /-- its launch (R232) -/
  launch : Nat
  op : Nat
  lane : Nat
  peer : Nat
  addr : Nat
  va : Nat
  write : Bool
  fill : Nat
  kind : Nat
  bytes : List Nat
  port : Nat
  sentAt : Option Nat
  deriving DecidableEq, Repr

/-- Bytes that a read of a remote page has brought for a warp's fetch or for an operation, until they are used (R176). -/
structure Brought where
  user : Nat
  peer : Nat
  addr : Nat
  bytes : List Nat
  deriving DecidableEq, Repr

/-- What leaves the module: answers to hosts and peers, and accesses to their memory. -/
structure Message where
  to_ : Nat
  kind : Nat
  bytes : List Nat
  deriving DecidableEq, Repr

/-- A place whose data is uncorrectable (R358): kind 0 an HBM sector, by its number; 1 a 64-bit word in L2, by the number of
the word of HBM it holds; kind 2 a word of core SRAM, numbered by `sramWord`. -/
structure BadPlace where
  kind : Nat
  loc : Nat
  deriving DecidableEq, Repr

/-- A part on its way out of service (R237, R359): the host that asked, the head of its request, and the cores that are
still in service. -/
structure Fencing where
  host : Nat
  head : List Nat
  cores : List Nat
  deriving DecidableEq, Repr

/-- The module outside its contexts (R2, R237, R347 to R360). -/
structure Module where
  clock : Nat
  /-- R355 -/
  measurement : List Nat
  /-- bytes of the image pushed into the carve-out -/
  imageLen : Nat
  locked : Bool
  released : Bool
  heartbeats : List Nat
  /-- R237 -/
  snapshot : BitVec 256
  snapGen : Nat
  fencing : List Fencing
  fencedRows : List (Nat × Nat)
  regions : List Region
  portsUp : BitVec 16
  remotes : List RemoteReq
  brought : List Brought
  /-- the warp or operation whose access is being performed (the model's own) -/
  reader : Nat
  /-- requests a context sent through a port in the microsecond that began at the clock: 16 × context + port, clock, count
  (R352) -/
  portUse : List (Nat × Nat × Nat)
  connections : List (Nat × Nat)
  /-- R354: host and the clock of its last KEEPALIVE -/
  hosts : List (Nat × Nat)
  powerCap : Nat
  throttled : BitVec 4
  shut : BitVec 4
  /-- R359: corrected errors, (stack, row, clock); rows retired, (stack, row) -/
  corrected : List (Nat × Nat × Nat)
  retired : List (Nat × Nat)
  bad : List BadPlace
  /-- contexts that end at the next step: context, cause, address, detail words (R358, R364) -/
  doomed : List (Nat × Nat × Nat × List Nat)
  /-- frames system software has given for private copies (R175) -/
  frames : List Nat
  sent : List Message
  deriving DecidableEq, Repr

/-! ### The machine -/

/-- The run selected for issue (R19): its warp, its lanes, the ready lanes the selection was made from, the address of
the first word of its hint group, and the address and content of the word at issue. -/
structure Sel where
  warp : Nat
  run : Mask
  ready : Mask
  first : Pc
  addr : Pc
  word : Word
  deriving DecidableEq, Repr

/-- One entry of the schedule: which agent moves (log 2). -/
inductive Turn where
  /-- the warp issues one word -/
  | issue (warp : Nat)
  /-- an event row happens -/
  | event (i : Instr)
  /-- clocks pass and nothing else happens -/
  | tick (clocks : Nat)
  deriving DecidableEq, Repr

structure State where
  /-- HBM contents: physical address and byte, ascending, no byte 0 (R164) -/
  mem : List Cell
  mod : Module
  ctxs : List Ctx
  launches : List Launch
  jobs : List Job
  blocks : List Block
  warps : List Warp
  bars : List Bar
  lines : List UpdateLine
  bins : List Bin
  passes : List Pass
  builds : List Build
  /-- which agent moves next, oldest first (the model's own, log 2) -/
  schedule : List Turn
  /-- the run `step` has selected (the model's own) -/
  cur : Option Sel
  /-- the next number for an operation, warp, block, launch, job, pass (the model's own, log 6) -/
  nextId : Nat
  /-- draws of free values so far (the model's own, log 8) -/
  free : Nat
  deriving DecidableEq, Repr

/-- The module right after module reset (R355): M is zero, the scheduler cores are held in reset, no context exists. -/
def Module.reset : Module where
  clock := 0
  measurement := List.replicate 48 0
  imageLen := 0
  locked := false
  released := false
  heartbeats := List.replicate 16 0
  snapshot := BitVec.allOnes 256
  snapGen := 0
  fencing := []
  fencedRows := []
  regions := []
  portsUp := BitVec.allOnes 16
  remotes := []
  brought := []
  reader := 0
  portUse := []
  connections := []
  hosts := []
  powerCap := 3000
  throttled := 0
  shut := 0
  corrected := []
  retired := []
  bad := []
  doomed := []
  frames := []
  sent := []

def State.reset : State where
  mem := []
  mod := Module.reset
  ctxs := []
  launches := []
  jobs := []
  blocks := []
  warps := []
  bars := []
  lines := []
  bins := []
  passes := []
  builds := []
  schedule := []
  cur := none
  nextId := 1
  free := 0

end Sys2Proof.Machine
end

