-- ==== Sys2Proof/Machine/Lookup.lean ====
section
/-! DEFINITION. Finding and replacing the parts of the state by their numbers, and sets of lanes. -/

namespace Sys2Proof.Machine

/-! ### Sets of lanes -/

/-- Lane `l` is in the set. -/
def inMask (m : Mask) (l : Nat) : Bool := m.getLsbD l

/-- The set of the lanes below 32 that satisfy `p`. -/
def maskOf (p : Nat → Bool) : Mask :=
  BitVec.ofNat 32 ((List.range 32).foldl (fun n l => if p l then n + 2 ^ l else n) 0)

/-- The lanes of a set in ascending order (R7). -/
def lanesOf (m : Mask) : List Nat := (List.range 32).filter (inMask m)

/-- The lowest lane of a set: `lead` of a run. -/
def leadOf (m : Mask) : Nat := ((lanesOf m).head?).getD 0

/-- The set holding one lane. -/
def oneLane (l : Nat) : Mask := maskOf (· == l)

/-- All 32 lanes. -/
def allLanes : Mask := BitVec.allOnes 32

/-! ### Lists keyed by a number -/

/-- The first element with the key, changed. -/
def updFirst {α : Type} (p : α → Bool) (f : α → α) : List α → List α
  | [] => []
  | x :: xs => if p x then f x :: xs else x :: updFirst p f xs

/-- The value a key stands for in a list of pairs. -/
def assoc (l : List (Nat × Nat)) (k : Nat) : Option Nat := (l.find? (fun x => x.1 == k)).map Prod.snd

/-- The list with the key standing for the value. -/
def setAssoc (l : List (Nat × Nat)) (k v : Nat) : List (Nat × Nat) := (k, v) :: l.filter (fun x => x.1 != k)

/-- The list without the key. -/
def dropAssoc (l : List (Nat × Nat)) (k : Nat) : List (Nat × Nat) := l.filter (fun x => x.1 != k)

/-! ### Warps, blocks, launches, jobs, contexts, passes -/

def State.warp? (s : State) (id : Nat) : Option Warp := s.warps.find? (fun w => w.id == id)

def State.setWarp (s : State) (w : Warp) : State :=
  { s with warps := updFirst (fun x => x.id == w.id) (fun _ => w) s.warps }

def State.block? (s : State) (id : Nat) : Option Block := s.blocks.find? (fun b => b.id == id)

def State.setBlock (s : State) (b : Block) : State :=
  { s with blocks := updFirst (fun x => x.id == b.id) (fun _ => b) s.blocks }

def State.launch? (s : State) (id : Nat) : Option Launch := s.launches.find? (fun l => l.id == id)

def State.setLaunch (s : State) (l : Launch) : State :=
  { s with launches := updFirst (fun x => x.id == l.id) (fun _ => l) s.launches }

def State.job? (s : State) (id : Nat) : Option Job := s.jobs.find? (fun j => j.id == id)

def State.setJob (s : State) (j : Job) : State :=
  { s with jobs := updFirst (fun x => x.id == j.id) (fun _ => j) s.jobs }

def State.ctx? (s : State) (n : Nat) : Option Ctx := s.ctxs.find? (fun c => c.number == n)

def State.setCtx (s : State) (c : Ctx) : State :=
  { s with ctxs := updFirst (fun x => x.number == c.number) (fun _ => c) s.ctxs }

def State.updCtx (s : State) (n : Nat) (f : Ctx → Ctx) : State :=
  { s with ctxs := updFirst (fun x => x.number == n) f s.ctxs }

def State.updWarp (s : State) (id : Nat) (f : Warp → Warp) : State :=
  { s with warps := updFirst (fun x => x.id == id) f s.warps }

def State.updLaunch (s : State) (id : Nat) (f : Launch → Launch) : State :=
  { s with launches := updFirst (fun x => x.id == id) f s.launches }

def State.updBlock (s : State) (id : Nat) (f : Block → Block) : State :=
  { s with blocks := updFirst (fun x => x.id == id) f s.blocks }

def State.pass? (s : State) (id : Nat) : Option Pass := s.passes.find? (fun p => p.id == id)

def State.updPass (s : State) (id : Nat) (f : Pass → Pass) : State :=
  { s with passes := updFirst (fun x => x.id == id) f s.passes }

def State.build? (s : State) (id : Nat) : Option Build := s.builds.find? (fun b => b.id == id)

/-- The warp that has an operation outstanding, and the operation. -/
def State.op? (s : State) (id : Nat) : Option (Warp × Op) :=
  s.warps.findSome? (fun w => (w.ops.find? (fun o => o.id == id)).map (fun o => (w, o)))

/-- The state of a context is saved (R41, R315): nothing of it changes but by memory. -/
def State.saved (s : State) (ctx : Nat) : Bool := ((s.ctx? ctx).map (fun c => c.preempt == .saved)).getD false

/-- A warp of a context that is not saved. -/
def State.awakeWarp? (s : State) (id : Nat) : Option Warp := (s.warp? id).filter (fun w => !s.saved w.ctx)

/-- An operation of such a warp. -/
def State.awakeOp? (s : State) (id : Nat) : Option (Warp × Op) := (s.op? id).filter (fun x => !s.saved x.1.ctx)

/-- The warp with one of its operations replaced. -/
def Warp.setOp (w : Warp) (o : Op) : Warp :=
  { w with ops := updFirst (fun x => x.id == o.id) (fun _ => o) w.ops }

/-- Replace an operation wherever it stands. -/
def State.setOp (s : State) (o : Op) : State :=
  { s with warps := s.warps.map (fun w => if w.ops.any (fun x => x.id == o.id) then w.setOp o else w) }

/-- The register allocation of a warp (R27): its registers are v0 to v(alloc − 1). -/
def Warp.alloc (w : Warp) : Nat := w.regs.length

/-- A lane of a warp; a lane number is below 32. -/
def Warp.lane (w : Warp) (l : Nat) : Lane := w.lanes[l % 32]'(Nat.mod_lt _ (by decide))

/-- A warp with one lane replaced. -/
def Warp.setLane (w : Warp) (l : Nat) (x : Lane) : Warp :=
  { w with lanes := w.lanes.set (l % 32) x (Nat.mod_lt _ (by decide)) }

/-- A warp with every lane of a set changed. -/
def Warp.mapLanes (w : Warp) (m : Mask) (f : Nat → Lane → Lane) : Warp :=
  { w with lanes := Vector.ofFn (fun i => if inMask m i then f i (w.lane i) else w.lane i) }

def Lane.isReady (x : Lane) : Bool := match x.cond with | .ready => true | _ => false
def Lane.isExited (x : Lane) : Bool := match x.cond with | .exited => true | _ => false
def Lane.isStopped (x : Lane) : Bool := match x.cond with | .stopped _ => true | _ => false
def Lane.isWaiting (x : Lane) : Bool := match x.cond with | .waiting _ _ _ => true | _ => false

/-- What a waiting lane waits for. -/
def Lane.waits (x : Lane) : Option Wait := match x.cond with | .waiting w _ _ => some w | _ => none

/-- Lanes that have not exited. -/
def Warp.live (w : Warp) : Mask := maskOf (fun l => !(w.lane l).isExited)

/-- Lanes that are ready (R18). -/
def Warp.readyLanes (w : Warp) : Mask := maskOf (fun l => (w.lane l).isReady)

/-- The core a warp is on. -/
def Warp.core? (w : Warp) : Option Nat := w.place.map Prod.fst

/-- A fresh number (log 6). -/
def State.fresh (s : State) : Nat × State := (s.nextId, { s with nextId := s.nextId + 1 })

/-- The die of a core (R237): core n is 64 × die + 8 × cluster + core. -/
def dieOf (core : Nat) : Nat := core / 64 % 4

/-- The cluster of a core, 8 × die + cluster. -/
def clusterOf (core : Nat) : Nat := core / 8 % 32

/-- Cores enabled in a snapshot, ascending (R237). -/
def enabledCores (snap : BitVec 256) : List Nat := (List.range 256).filter (fun n => snap.getLsbD n)

/-- A list of bytes as a number, least significant first (R3). -/
def leNat : List Nat → Nat
  | [] => 0
  | b :: bs => b % 256 + 256 * leNat bs

/-- The `n` low bytes of a number, least significant first. -/
def natLe : Nat → Nat → List Nat
  | 0, _ => []
  | n + 1, v => v % 256 :: natLe n (v / 256)

/-- Bytes `at` to `at + n − 1` of a structure, as a number. -/
def fieldAt (bytes : List Nat) (at_ n : Nat) : Nat := leNat ((bytes.drop at_).take n)

end Sys2Proof.Machine
end

