-- ==== Sys2Proof/Machine/Memory.lean ====
section
/-! DEFINITION. Memory: the sparse canonical contents, the walk and the fixed windows (R158 to R168), residency (R170),
moving and private pages (R173, R175), update-only lines and what every write does at its home (R192, R196, R322, R334). -/

namespace Sys2Proof.Machine

open Host (Cell)

/-! ### Sparse contents -/

/-- Contents of an address space: cells ascending, none holding 0, which is what an unlisted address reads as (log 1). -/
abbrev Memory := List Cell

/-- The byte at an address. -/
def Memory.read : Memory → Nat → Byte
  | [], _ => 0#8
  | (x, b) :: m, a => if x = a then b else if a < x then 0#8 else Memory.read m a

/-- The contents with one byte written; a byte 0 is not listed. -/
def Memory.write : Memory → Nat → Byte → Memory
  | [], a, b => if b = 0#8 then [] else [(a, b)]
  | (x, c) :: m, a, b =>
    if a < x then (if b = 0#8 then (x, c) :: m else (a, b) :: (x, c) :: m)
    else if a = x then (if b = 0#8 then m else (a, b) :: m)
    else (x, c) :: Memory.write m a b

/-- The canonical form from an address on: ascending, every cell at or above `lo`, no cell 0. -/
def Memory.wfFrom : Nat → Memory → Bool
  | _, [] => true
  | lo, (x, b) :: m => decide (lo ≤ x) && b != 0#8 && Memory.wfFrom (x + 1) m

/-- The canonical form. -/
def Memory.wf (m : Memory) : Bool := Memory.wfFrom 0 m

/-- The value of `n` bytes from an address, little-endian (R3). -/
def Memory.readN (m : Memory) (a : Nat) : Nat → Nat
  | 0 => 0
  | n + 1 => (Memory.read m a).toNat + 256 * Memory.readN m (a + 1) n

/-- Write the `n` low bytes of a value from an address, little-endian. -/
def Memory.writeN (m : Memory) (a : Nat) : Nat → Nat → Memory
  | 0, _ => m
  | n + 1, v => Memory.writeN (Memory.write m a (BitVec.ofNat 8 v)) (a + 1) n (v / 256)

/-! ### The address map -/

def windowBase : Nat := 0x00FFF80000000000
def nodeBase : Nat := 0x00FFFE0000000000
def scratchBase : Nat := 0x00FFFF0000000000
def tileBase : Nat := 0x00FFFF0100000000
def hbmEnd : Nat := 0x00C000000000
def carveBase : Nat := 0x00BFC0000000
def ioBase : Nat := 0x000F000000000000
def ioEnd : Nat := 0x000F000100000000

/-- An address lies in one of the fixed windows (R158, R159). -/
def inFixedWindow (va : Nat) : Bool :=
  (decide (windowBase ≤ va) && decide (va < windowBase + 2 ^ 42)) || (decide (nodeBase ≤ va) && decide (va < nodeBase + 2 ^ 20))
    || (decide (scratchBase ≤ va) && decide (va < scratchBase + 2 ^ 24)) || (decide (tileBase ≤ va) && decide (va < tileBase + 2 ^ 24))

/-- A physical address lies in HBM, in the carve-out (R361), among the I/O-die registers (R164). -/
def inHbm (pa : Nat) : Bool := decide (pa < hbmEnd)
def inCarve (pa : Nat) : Bool := decide (carveBase ≤ pa) && decide (pa < hbmEnd)
def inIo (pa : Nat) : Bool := decide (ioBase ≤ pa) && decide (pa < ioEnd)

/-- The physical address of a queue's kick register: DESIGN CHOICE (log 10), the spec places none. -/
def kickAddr (ctx q : Nat) : Nat := ioBase + 0x10000 * (64 * ctx + q)

/-- The physical address of a graph slot's kick register (log 10). -/
def graphKickAddr (ctx slot : Nat) : Nat := kickAddr ctx slot + 0x8000

/-- What an I/O-die address is: a queue's or a slot's kick register, or another register. -/
def ioTarget (pa : Nat) : Target :=
  let o := pa - ioBase
  if o % 0x10000 < 8 then .kick (o / 0x10000 / 64) (o / 0x10000 % 64)
  else if 0x8000 ≤ o % 0x10000 ∧ o % 0x10000 < 0x8008 then .graphKick (o / 0x10000 / 64) (o / 0x10000 % 64)
  else .io pa

/-! ### The walk -/

/-- The outcome of a walk (R165, R167). -/
inductive Walk where
  | leaf (l : Leaf)
  | invalid
  | malformed
  deriving DecidableEq, Repr

/-- Bit `i` of an entry. -/
def bitAt (e i : Nat) : Bool := e / 2 ^ i % 2 == 1

/-- Bits `lo` to `lo + n − 1` of an entry. -/
def bitsAt (e lo n : Nat) : Nat := e / 2 ^ lo % 2 ^ n

/-- A leaf entry read at a level whose pages have `2^low` bytes, for the page that holds `va`; none where it is
malformed (R167). -/
def readLeaf (level low entryAddr e va : Nat) : Option Leaf :=
  let rem := bitAt e 9
  let frame := bitsAt e 16 36 * 2 ^ 16
  let tgt := bitsAt e 56 8
  let cache := bitsAt e 10 2
  let bad :=
    decide (level < 2) || bitsAt e 52 4 != 0 || bitsAt e 12 4 != 0 || bitAt e 2 || (!rem && tgt != 0)
      || frame % 2 ^ low != 0 || cache == 3 || (rem && tgt == 255) || (rem && (bitAt e 8 || bitAt e 7))
      || (!rem && !inHbm frame && !(inIo frame && cache == 2))
  if bad then none
  else some {
    entryAddr := entryAddr, page := va - va % 2 ^ low, size := 2 ^ low, frame := frame, tgt := tgt, cache := cache
    rem := rem, sum := bitAt e 8, trk := bitAt e 7, cow := bitAt e 6, x := bitAt e 5, w := bitAt e 4, p := bitAt e 3 }

/-- The walk from a table down the levels still to come, each given by its number, lowest index bit and index width. A table outside
HBM reads as zeros, so that the walk finds no valid entry (DESIGN CHOICE, log 73). -/
def walkFrom (m : Memory) (va : Nat) : List (Nat × Nat × Nat) → Nat → Walk
  | [], _ => .malformed
  | (level, low, width) :: rest, table =>
    let entryAddr := table + 8 * bitsAt va low width
    let e := Memory.readN m entryAddr 8
    if bitAt e 0 = false then .invalid
    else if bitAt e 1 then
      match readLeaf level low entryAddr e va with
      | some l => .leaf l
      | none => .malformed
    else if level = 4 || bitsAt e 52 12 != 0 || bitsAt e 2 10 != 0 then .malformed
    else walkFrom m va rest (bitsAt e 12 40 * 2 ^ 12)

/-- The five levels of R165. -/
def walkLevels : List (Nat × Nat × Nat) := [(0, 48, 8), (1, 39, 9), (2, 30, 9), (3, 21, 9), (4, 16, 5)]

/-- The walk of a context's tables for an address below the fixed windows. -/
def walk (s : State) (c : Ctx) (va : Nat) : Walk := walkFrom s.mem va walkLevels c.root

/-- The residency state of a page (R170): present, or what the device last recorded for the absent page. -/
def pageState (c : Ctx) (l : Leaf) : Nat := if l.p || l.rem then 2 else (assoc c.residency l.page).getD 0

/-- The residency word of a 64 KiB unit (R170). -/
def residencyWord (s : State) (c : Ctx) (unit : Nat) : Nat :=
  let va := unit * 2 ^ 16
  if va ≥ windowBase then 0
  else match walk s c va with
    | .leaf l => pageState c l
    | _ => 0

/-! ### Where an access leads, and what refuses it -/

inductive Access where
  | read | write | atomic | fetch
  deriving DecidableEq, Repr

/-- Why an access is not performed. -/
inductive AccErr where
  /-- a cause of R177, its address and detail -/
  | trap (cause addr : Nat) (detail : List Nat)
  /-- malformed entry: the context ends with PT_WALK (R167) -/
  | walk (addr : Nat)
  /-- the page is valid and not present (R171) -/
  | wait (va page : Nat)
  /-- the page is refused (R171) -/
  | refused (va : Nat)
  /-- the scratchpad page has not been refilled (R162) -/
  | refill (block page : Nat)
  /-- the context ends with KICK_FAULT (R155, R248) -/
  | kick (addr slot : Nat)
  /-- `n` bytes lie at the host or a peer, at an address there (R176) -/
  | remote (va peer addr n : Nat)
  /-- another register of the I/O die -/
  | io (va : Nat)
  /-- uncorrectable data: the context ends with this cause (R358) -/
  | bad (cause addr : Nat) (detail : List Nat)
  deriving DecidableEq, Repr

/-- The same refusal at another address. -/
def AccErr.at_ (e : AccErr) (a : Nat) : AccErr :=
  match e with
  | .trap cause _ d => .trap cause a d
  | .walk _ => .walk a
  | .wait _ page => .wait a page
  | .refused _ => .refused a
  | .refill b p => .refill b p
  | .kick _ slot => .kick a slot
  | .remote _ peer addr n => .remote a peer addr n
  | .io _ => .io a
  | .bad cause _ d => .bad cause a d

/-- A resolved access. -/
structure Place where
  tgt : Target
  leaf : Option Leaf
  deriving DecidableEq, Repr

/-- Whether a line of a page still stands at the old frame, and where (R173, R175). -/
def moveOf (c : Ctx) (l : Leaf) : Option Move := c.moves.find? (fun m => m.page == l.page && m.newFrame == l.frame)

/-- The frame address that now holds a byte of a page. -/
def framePlace (c : Ctx) (l : Leaf) (va : Nat) : Nat :=
  let off := va - l.page
  match moveOf c l with
  | some m => if m.pulled.contains (off / 128) then l.frame + off else m.oldFrame + off
  | none => l.frame + off

/-- Resolve an access of `size` bytes at `va`, which do not cross a page: the windows (R158 to R161), the walk (R165,
R167), permission (R168) and the carve-out (R361), in the order of R177. A page of the I/O-die range leads to its register
whether or not it is present: the form is judged first (R177). `kind` is the access kind of cause 0x11. -/
def resolve (s : State) (c : Ctx) (blk : Option Nat) (acc : Access) (kind va size : Nat) : Except AccErr Place :=
  if va ≥ 2 ^ 56 then .error (.trap 0x10 va [])
  else if va ≥ windowBase then
    if acc == .fetch then
      -- R159: detail 2 in a window, detail 1 in none
      if inFixedWindow va then .error (.trap 0x05 va [2]) else .error (.trap 0x05 va [1])
    else if va < windowBase + 2 ^ 42 then
      if acc == .read then .ok ⟨.residency (va - windowBase), none⟩ else .error (.trap 0x12 va [])
    else if scratchBase ≤ va && va < scratchBase + 2 ^ 24 then
      match blk.bind s.block? with
      | none => .error (.trap 0x14 va [])
      | some b =>
        if va - scratchBase + size > 4096 * b.pages then .error (.trap 0x14 va [])
        else if b.unpinned.contains ((va - scratchBase) / 4096) then .error (.refill b.id ((va - scratchBase) / 4096))
        else .ok ⟨.scratch b.id (va - scratchBase), none⟩
    else if tileBase ≤ va && va < tileBase + 2 ^ 24 then
      let t := (va - tileBase) / 65536
      match blk.bind s.block? with
      | none => .error (.trap 0x1D va [t])
      | some b => if t ≥ b.tileCount then .error (.trap 0x1D va [t]) else .ok ⟨.tile b.id (va - tileBase), none⟩
    else .error (.trap 0x11 va [kind])
  else
    match walk s c va with
    | .malformed => .error (.walk va)
    | .invalid => if acc == .fetch then .error (.trap 0x05 va [1]) else .error (.trap 0x11 va [kind])
    | .leaf l =>
      if acc == .fetch && !l.x then .error (.trap 0x05 va [2])
      else if (acc == .write || acc == .atomic) && !l.w then .error (.trap 0x12 va [])
      else if !l.rem && inCarve l.frame then .error (.trap 0x1C va [])
      else if l.rem then .ok ⟨.remote l.tgt (l.frame + (va - l.page)), some l⟩
      else if inIo l.frame then .ok ⟨ioTarget (l.frame + (va - l.page)), some l⟩
      else if !l.p then .ok ⟨.absent, some l⟩
      else .ok ⟨.hbm (framePlace c l va), some l⟩

/-- The leaf that maps an address, if one does. -/
def leafOf (s : State) (c : Ctx) (va : Nat) : Option Leaf :=
  if va ≥ windowBase then none
  else match walk s c va with
    | .leaf l => some l
    | _ => none

/-- What an absent page does to an access that waits for it (R171, R364). -/
def absentErr (c : Ctx) (l : Leaf) (va : Nat) : AccErr :=
  if pageState c l = 3 then .refused va else .wait va l.page

/-! ### The arithmetic of atomics and reductions (R187, R188) -/

def AtomFn.bytes : AtomFn → Nat
  | .add64 | .and64 | .or64 | .xor64 | .minS64 | .maxS64 | .minZ64 | .maxZ64 | .exch64 => 8
  | _ => 4

/-- A signed reading of the low `n` bits. -/
def signed (n v : Nat) : Int := if v % 2 ^ n < 2 ^ (n - 1) then (v % 2 ^ n : Nat) else ((v % 2 ^ n : Nat) : Int) - 2 ^ n

/-- min.f32 and max.f32 of R188: as R113, a signalling NaN being ignored as a quiet one is. -/
def AtomFn.apply (fn : AtomFn) (old b : Nat) : Nat :=
  match fn with
  | .add32 => (old + b) % 2 ^ 32
  | .add64 => (old + b) % 2 ^ 64
  | .and32 | .and64 => old &&& b
  | .or32 | .or64 => old ||| b
  | .xor32 | .xor64 => old ^^^ b
  | .minS32 => if signed 32 b < signed 32 old then b else old
  | .maxS32 => if signed 32 b > signed 32 old then b else old
  | .minS64 => if signed 64 b < signed 64 old then b else old
  | .maxS64 => if signed 64 b > signed 64 old then b else old
  | .minZ32 | .minZ64 => min old b
  | .maxZ32 | .maxZ64 => max old b
  | .exch32 | .exch64 => b
  | .addF32 => (fpAdd .f32 .rne old b).1
  | .minF32 => (fpMin .f32 old b).1
  | .maxF32 => (fpMax .f32 old b).1
  | .addF16x2 => (packed (fpAdd .f16 .rne) old b).1
  | .addBf16x2 => (packed (fpAdd .bf16 .rne) old b).1

/-- The identity a fresh update-only copy starts from (R192). -/
def AtomFn.identity (fn : AtomFn) : Nat :=
  match fn with
  | .and32 => 2 ^ 32 - 1
  | .and64 => 2 ^ 64 - 1
  | .minS32 => 0x7FFFFFFF
  | .maxS32 => 0x80000000
  | .minS64 => 2 ^ 63 - 1
  | .maxS64 => 2 ^ 63
  | .minZ32 => 2 ^ 32 - 1
  | .minZ64 => 2 ^ 64 - 1
  | .addF32 => 0x80000000
  | .minF32 | .maxF32 => 0x7FC00000
  | .addF16x2 | .addBf16x2 => 0x80008000
  | _ => 0

/-! ### Monitors (R195, R196) -/

/-- The condition of an `m.mwait` op code on the word and the value; the `any` codes hold at a write alone. -/
def monitorHolds (op size w b : Nat) : Bool :=
  let n := 8 * size
  match op % 8 with
  | 0 => w == b
  | 1 => w != b
  | 2 => decide (signed n w < signed n b)
  | 3 => decide (signed n w ≥ signed n b)
  | 4 => decide (w < b)
  | 5 => decide (w ≥ b)
  | _ => false

/-- Whether a byte range of a target overlaps another (the same store). -/
def Target.overlaps (a : Target) (n : Nat) (b : Target) (k : Nat) : Bool :=
  match a, b with
  | .hbm x, .hbm y => decide (x < y + k) && decide (y < x + n)
  | .scratch i x, .scratch j y => i == j && decide (x < y + k) && decide (y < x + n)
  | .tile i x, .tile j y => i == j && decide (x < y + k) && decide (y < x + n)
  | .residency x, .residency y => decide (x < y + k) && decide (y < x + n)
  | .remote p x, .remote q y => p == q && decide (x < y + k) && decide (y < x + n)
  | .kick c q, .kick d r => c == d && q == r
  | .graphKick c q, .graphKick d r => c == d && q == r
  | _, _ => false

/-- The value of a monitored word as it stands: zero on a page that is not present (R171). A word of the scratchpad stands in its
page's backing storage while the page is unpinned (R162). -/
def wordNow (s : State) (c : Ctx) (blk : Option Nat) (va size : Nat) : Nat :=
  match resolve s c blk .read 0 va size with
  | .ok ⟨.hbm pa, _⟩ => Memory.readN s.mem pa size
  | .ok ⟨.scratch b o, _⟩ => ((s.block? b).map (fun k => Memory.readN k.scratch o size)).getD 0
  | .ok ⟨.residency o, _⟩ =>
    if size = 8 then residencyWord s c (o / 4) + 2 ^ 32 * residencyWord s c (o / 4 + 1) else residencyWord s c (o / 4)
  | .error (.refill b _) => ((s.block? b).map (fun k => Memory.readN k.scratch (va - scratchBase) size)).getD 0
  | _ => 0

/-- Bytes of a place of HBM or L2 whose data is uncorrectable: a sector, or a 64-bit word (R358). -/
def BadPlace.bytes (b : BadPlace) : Nat := if b.kind = 0 then 32 else 8

/-- A place of HBM or L2 lies among bytes, in part. -/
def BadPlace.meets (b : BadPlace) (pa n : Nat) : Bool :=
  (b.kind == 0 || b.kind == 1) && decide (pa < b.loc * b.bytes + b.bytes) && decide (b.loc * b.bytes < pa + n)

/-- Uncorrectable data among bytes of HBM (R358): the cause, 0x51 for HBM and 0x52 for L2. -/
def badAt (s : State) (pa n : Nat) : Option Nat :=
  (s.mod.bad.find? (fun b => b.meets pa n)).map (fun b => if b.kind = 0 then 0x51 else 0x52)

/-- The number of a 64-bit word of a block's scratchpad or accumulator tiles. -/
def sramWord (block : Nat) (tile : Bool) (off : Nat) : Nat := block * 2 ^ 22 + (if tile then 2 ^ 21 else 0) + off / 8

/-- Uncorrectable data among bytes of a block's SRAM (R358). -/
def sramBad (s : State) (block : Nat) (tile : Bool) (off n : Nat) : Bool :=
  s.mod.bad.any (fun x => x.kind == 2 && decide (sramWord block tile off ≤ x.loc) && decide (x.loc ≤ sramWord block tile (off + n - 1)))

/-- The cause of uncorrectable data in a monitor's word, where it holds such data. -/
def wordBad (s : State) (p : Place) (size : Nat) : Option Nat :=
  match p.tgt with
  | .hbm pa => badAt s pa size
  | .scratch b o => if sramBad s b false o size then some 0x50 else none
  | _ => none

/-- A monitor's wait after its word was tested: the test may have met uncorrectable data, which ends the context when the run
wakes (R358): the op is then 16 and the value the cause. -/
def tested (s : State) (p : Place) (op addr size value : Nat) (hit : Bool) : Wait :=
  match wordBad s p size with
  | some cause => .monitor 16 addr size cause true
  | none => .monitor op addr size value hit

/-- A waiting lane after a write to the target: its monitor's condition is tested, and any write ends an `any` wait. -/
def noteLane (s : State) (c : Ctx) (w : Warp) (touched : Target → Nat → Bool) (x : Lane) : Lane :=
  match x.cond with
  | .waiting (.monitor op addr size value hit) next since =>
    match resolve s c w.block .read 0 addr size with
    | .ok p =>
      if touched p.tgt size then
        { x with cond := .waiting (tested s p op addr size value
            (hit || op % 8 == 6 || monitorHolds op size (wordNow s c w.block addr size) value)) next since }
      else x
    | .error _ => x
  | _ => x

/-- Every monitor of some warps whose word a write touched is tested (R196). -/
def noteWriteOf (s : State) (who : Warp → Bool) (touched : Target → Nat → Bool) : State :=
  { s with warps := s.warps.map (fun w =>
      if who w && (lanesOf allLanes).any (fun l => match (w.lane l).waits with | some (.monitor _ _ _ _ _) => true | _ => false) then
        match s.ctx? w.ctx with
        | some c => w.mapLanes allLanes (fun _ x => noteLane s c w touched x)
        | none => w
      else w) }

/-- Every monitor whose word a write touched is tested. -/
def noteWrite (s : State) (touched : Target → Nat → Bool) : State := noteWriteOf s (fun _ => true) touched

/-! ### Requests for pages (R172) -/

/-- A request for a page: state 0 becomes 1, which is a write of the residency words of the page's units; every other state
stays. -/
def requestPage (s : State) (ctx page : Nat) : State :=
  match s.ctx? ctx with
  | none => s
  | some c =>
    match leafOf s c page with
    | none => s
    | some l =>
      if pageState c l = 0 then
        noteWriteOf (s.updCtx ctx (fun c => { c with residency := setAssoc c.residency l.page 1 })) (fun w => w.ctx == ctx)
          (fun t k => t.overlaps k (.residency (4 * (l.page / 2 ^ 16))) (4 * (l.size / 2 ^ 16)))
      else s

/-- Requests for several pages. -/
def requestPages (s : State) (ctx : Nat) (pages : List Nat) : State := pages.foldl (fun s p => requestPage s ctx p) s

/-! ### What a write does at its home -/

/-- The stamp of a tracked tile (R334). -/
def stampTile (s : State) (ctx : Nat) (l : Leaf) (va : Nat) : State :=
  if l.trk then s.updCtx ctx (fun c => { c with stamps := setAssoc c.stamps (va / 4096) c.generation }) else s

/-- Data is replaced where the whole sector that holds it is written (R358). -/
def clearBad (s : State) (pa n : Nat) : State :=
  { s with mod := { s.mod with bad := s.mod.bad.filter (fun b =>
      !((b.kind == 0 || b.kind == 1) && decide (pa ≤ b.loc * b.bytes / 32 * 32) && decide (b.loc * b.bytes / 32 * 32 + 32 ≤ pa + n))) } }

/-- Store bytes at a frame place: contents, stamp, monitors. -/
def rawStore (s : State) (ctx : Nat) (l : Leaf) (va pa n v : Nat) : State :=
  let s := { s with mem := Memory.writeN s.mem pa n v }
  let s := stampTile s ctx l va
  noteWrite (clearBad s pa n) (fun t k => t.overlaps k (.hbm pa) n)

/-- A context has consumed uncorrectable data at a home; it ends at the next step (`endDoomed`). -/
def doom (s : State) (ctx cause va : Nat) : State :=
  { s with mod := { s.mod with doomed := s.mod.doomed ++ [(ctx, cause, va, [])] } }

/-- The home merges one partial (R192 step 3): read, combine, store and stamp. A page with SUM = 1 has no partials (log 31).
A context whose reduction meets uncorrectable data ends (R358). -/
def mergePartial (s : State) (p : Partial) : State :=
  match s.ctx? p.ctx with
  | none => s
  | some c =>
    let n := p.fn.bytes
    match badAt s p.pa n with
    | some cause => doom s p.ctx cause p.va
    | none =>
      let new := p.fn.apply (Memory.readN s.mem p.pa n) p.value
      match leafOf s c p.va with
      | none => { s with mem := Memory.writeN s.mem p.pa n new }
      | some l => rawStore s p.ctx l p.va p.pa n new

/-- The home merges every update-only copy of a line, core by core (R193). -/
def mergeLine (s : State) (line : Nat) : State :=
  let mine := s.lines.filter (fun l => l.line == line)
  let s := { s with lines := s.lines.filter (fun l => l.line != line) }
  mine.foldl (fun s l => l.parts.foldl mergePartial s) s

/-- The marks of uncorrectable data after a line is copied: those at its old place stand at the new one too. -/
def copyBad (bad : List BadPlace) (from_ to_ : Nat) : List BadPlace :=
  let inLine (a : Nat) (b : BadPlace) : Bool := (b.kind == 0 || b.kind == 1) && b.loc * b.bytes / 128 == a / 128
  bad.filter (fun b => !inLine to_ b) ++
    (bad.filter (inLine from_)).map (fun b => { b with loc := (to_ / 128 * 128 + b.loc * b.bytes % 128) / b.bytes })

/-- A target in one line of HBM that the line's move takes along. -/
def Target.follow (t : Target) (from_ to_ : Nat) : Target :=
  match t with
  | .hbm pa => if pa / 128 = from_ / 128 then .hbm (to_ / 128 * 128 + pa % 128) else t
  | _ => t

/-- Change the parts of every operation of a context. -/
def updParts (s : State) (ctx : Nat) (f : Part → Part) : State :=
  { s with warps := s.warps.map (fun w =>
      if w.ctx == ctx then { w with ops := w.ops.map (fun o => { o with parts := o.parts.map f }) } else w) }

/-- Accesses that have issued and were found to lead to the line at `va` are passed on to its new home (R173). -/
def followLine (s : State) (ctx va from_ to_ : Nat) : State :=
  updParts s ctx (fun p => { p with
    tgt := if p.va / 128 = va / 128 then p.tgt.follow from_ to_ else p.tgt
    also := p.also.map (fun a => if a.1 / 128 = va / 128 then (a.1, a.2.1, a.2.2.follow from_ to_) else a) })

/-- Accesses that have issued under a page's entry follow the page to a frame that the device gives it; `cow` is the entry's bit
then (R173, R175). -/
def followPage (s : State) (ctx : Nat) (l : Leaf) (frame : Nat) (cow : Bool) : State :=
  updParts s ctx (fun p => { p with leaf := p.leaf.map (fun k =>
    if k.page = l.page ∧ k.frame = l.frame ∧ k.rem = false then { k with frame := frame, cow := cow } else k) })

/-- A line of a page is copied to its new home, with the marks of uncorrectable data; what was on its way to it follows. -/
def copyLine (s : State) (ctx va from_ to_ : Nat) : State :=
  followLine { s with
    mem := Memory.writeN s.mem to_ 128 (Memory.readN s.mem from_ 128)
    mod := { s.mod with bad := copyBad s.mod.bad from_ to_ } } ctx va from_ to_

/-- Pull the line that holds a byte from the old frame, if it still stands there; its monitors move with it (R173, R196). -/
def pullLine (s : State) (c : Ctx) (l : Leaf) (va : Nat) : State :=
  match moveOf c l with
  | none => s
  | some m =>
    let k := (va - l.page) / 128
    if m.pulled.contains k then s
    else
      let s := mergeLine s ((m.oldFrame + 128 * k) / 128)
      let s := copyLine s c.number (l.page + 128 * k) (m.oldFrame + 128 * k) (l.frame + 128 * k)
      let s := s.updCtx c.number (fun c => { c with moves := updFirst (fun x => x.page == l.page) (fun x => { x with pulled := k :: x.pulled }) c.moves })
      noteWrite s (fun t n => t.overlaps n (.hbm (l.frame + 128 * k)) 128)

/-- Pull every line of a page that still stands at an old frame, and forget the move. -/
def pullAll (s : State) (c : Ctx) (l : Leaf) : State :=
  match moveOf c l with
  | none => s
  | some m =>
    let s := (List.range (m.size / 128)).foldl (fun s k => pullLine s c l (l.page + 128 * k)) s
    s.updCtx c.number (fun c => { c with moves := c.moves.filter (fun x => x.page != l.page) })

/-- The die of a physical address of HBM is shut down. -/
def dieShut (s : State) (pa : Nat) : Bool := s.mod.shut.getLsbD (pa / 2 ^ 36 / 3)

/-- Whether the old home of a moving page can no longer give its line (log 11): its die is shut down. -/
def pullFails (s : State) (c : Ctx) (l : Leaf) (va : Nat) : Bool :=
  match moveOf c l with
  | none => false
  | some m => !m.pulled.contains ((va - l.page) / 128) && dieShut s m.oldFrame

/-- The same for the lines that a page has left at an old home: as long as one cannot be pulled the page does not leave its frame
again (R173). -/
def pagePullFails (s : State) (c : Ctx) (l : Leaf) : Bool :=
  match moveOf c l with
  | none => false
  | some m => dieShut s m.oldFrame && decide (m.pulled.length < m.size / 128)

/-- The same for a write, whose line of a shared page is pulled into the private frame, with whatever an earlier move has
left behind (R175). -/
def writePullFails (s : State) (c : Ctx) (l : Leaf) (va : Nat) : Bool :=
  if l.cow then dieShut s l.frame || pagePullFails s c l else pullFails s c l va

/-- The frame that a page's private copy takes (R175): the first of those provided that fits. -/
def privateFrame (s : State) (l : Leaf) : Option Nat := s.mod.frames.find? (fun f => f % l.size == 0 && inHbm f && !inCarve f)

/-- A frame is taken for a private copy. -/
def takeFrame (s : State) (f : Nat) : State := { s with mod := { s.mod with frames := s.mod.frames.erase f } }

/-- The first write to a shared page (R175): a private frame with every line still at the shared one; an earlier move of
the page ends first. None where no frame is available. -/
def breakCow (s : State) (c : Ctx) (l : Leaf) : Option State :=
  match privateFrame s l with
  | none => none
  | some f =>
    let s := takeFrame (followPage (pullAll s c l) c.number l f false) f
    let e := Memory.readN s.mem l.entryAddr 8
    let e := e - 2 ^ 6 - l.frame + f
    some { s with
      mem := Memory.writeN s.mem l.entryAddr 8 e
      ctxs := updFirst (fun x => x.number == c.number) (fun c => { c with
        moves := { page := l.page, size := l.size, oldFrame := l.frame, newFrame := f, pulled := [] }
          :: c.moves.filter (fun m => m.page != l.page) }) s.ctxs }

/-- Prepare a page of HBM for a write at `va`: present, private, its line at home. -/
def prepareWrite (s : State) (c : Ctx) (l : Leaf) (va : Nat) : Except AccErr State :=
  if !l.p then .error (absentErr c l va)
  else if writePullFails s c l va then .error (.trap 0x1A va [])
  else if l.cow then
    match breakCow s c l with
    | none => .error (.trap 0x19 va [])
    | some s =>
      match s.ctx? c.number with
      | none => .error (.trap 0x11 va [1])
      | some c =>
        match leafOf s c va with
        | none => .error (.trap 0x11 va [1])
        | some l => .ok (pullLine s c l va)
  else .ok (pullLine s c l va)

/-- Store to translated memory with no widening: the summary area itself (R323). -/
def storeVa (s : State) (ctx va n v : Nat) : Except AccErr State :=
  match s.ctx? ctx with
  | none => .error (.trap 0x11 va [1])
  | some c =>
    match resolve s c none .write 1 va n with
    | .error e => .error e
    | .ok p =>
      match p.leaf with
      | none => .error (.trap 0x14 va [])
      | some l =>
        if l.rem then .error (.remote va l.tgt (l.frame + (va - l.page)) n)
        else if inIo l.frame then .error (.io va)
        else
          match prepareWrite s c l va with
          | .error e => .error e
          | .ok s =>
            match (s.ctx? ctx).bind (fun c => (leafOf s c va).map (fun l => (c, l))) with
            | none => .error (.trap 0x11 va [1])
            | some (c, l) => .ok (rawStore s ctx l va (framePlace c l va) n v)

/-- Size of an element of a type code (R268); a narrow or tagged tensor counts bytes. -/
def elemBytes (fmt : Nat) : Nat :=
  if fmt = 0 ∨ fmt = 1 ∨ fmt = 2 then 4
  else if fmt = 3 ∨ fmt = 4 ∨ fmt = 0xB ∨ fmt = 0xC then 2
  else if fmt = 9 ∨ fmt = 0xA then 8
  else 1

/-- The floating-point format of a type code, where it is one (R52). -/
def fmtOfCode : Nat → Option Fmt
  | 2 => some .f32
  | 3 => some .f16
  | 4 => some .bf16
  | 5 => some .e4m3
  | 6 => some .e5m2
  | 7 => some .e2m1
  | _ => none

/-- A bound after a key of the page takes a value (R322): low and high bf16 bounds. -/
def widenBound (lo hi : Nat) (k : FVal) : Nat × Nat :=
  if (Fmt.bf16.decode lo).isNan || (Fmt.bf16.decode hi).isNan then (lo, hi)
  else if k.isNan then (0x7FC0, 0x7FC0)
  else
    let d := toBf16 .rdn k
    let u := toBf16 .rup k
    (if ltVal (Fmt.bf16.decode d) (Fmt.bf16.decode lo) then d else lo,
     if ltVal (Fmt.bf16.decode hi) (Fmt.bf16.decode u) then u else hi)

/-- Bytes of a summarised tensor's key range (R320). -/
def keyBytes (t : Tensor) : Nat :=
  ((t.ext.getD 1 1) - 1) * (t.str.getD 1 0).toNat + t.ext.getD 0 0 * elemBytes t.fmt

/-- The row and the channel of a tensor whose element of `n` bytes begins at an address. -/
def Tensor.elemAt (t : Tensor) (va n : Nat) : Option (Nat × Nat) :=
  let o := va - t.base
  let str := (t.str.getD 1 0).toNat
  if t.base ≤ va ∧ elemBytes t.fmt = n ∧ str ≠ 0 ∧ o / str < t.ext.getD 1 1 ∧ o % str < t.ext.getD 0 0 * n ∧ o % str % n = 0
  then some (o / str, o % str / n) else none

/-- A pending install of an `e.ksum` after the element of `n` bytes at an address takes the bits `raw`: `held` keeps the low bounds,
then the high ones, of the page that the command's own copy of the descriptor puts the element in (R271, R322). -/
def Command.noteKey (c : Command) (va n raw : Nat) : Command :=
  match c.tensors.head? with
  | none => c
  | some t =>
    match t.elemAt va n, fmtOfCode t.fmt with
    | some (r, ch), some f =>
      if c.op == .ksum && !c.held.isEmpty && fieldAt c.params 4 4 + c.progress == r / 64 then
        let d := t.ext.getD 0 0
        let b := widenBound (c.held.getD ch 0) (c.held.getD (d + ch) 0) (f.decode raw)
        { c with held := (c.held.set ch b.1).set (d + ch) b.2 }
      else c
    | _, _ => c

/-- The home applies R322 to the pending installs of the `e.ksum` commands that have read the page (R329). -/
def notePending (s : State) (ctx va n raw : Nat) : State :=
  { s with warps := s.warps.map (fun w =>
      if w.ctx == ctx then
        { w with ops := w.ops.map (fun o =>
            match o.kind with
            | .engine c => { o with kind := .engine (c.noteKey va n raw) }
            | _ => o) }
      else w) }

/-- A summary area that no widening can reach (R323, R364): the page of an I/O-die register, or a page with REM = 1, which serves no
16-bit read and write as one (R178: ATOMIC_UNSUPPORTED; DEDUCED, log 31). -/
def summaryBarred (t : Target) (area : Nat) : Option AccErr :=
  match t with
  | .remote _ _ => some (.trap 0x15 area [])
  | .io _ => some (.trap 0x15 area [])
  | .kick _ q => some (.kick area q)
  | .graphKick _ q => some (.kick area (64 + q))
  | _ => none

/-- Widen one element's bounds in the summary area (R322): row `r`, channel `ch`, the bits `raw` of format `f`. -/
def widenElem (s : State) (ctx : Nat) (t : Tensor) (f : Fmt) (r ch raw : Nat) : Except AccErr State :=
  match s.ctx? ctx with
  | none => .ok s
  | some c =>
    let d := t.ext.getD 0 0
    let area := t.sumb + 4 * d * (r / 64)
    let rd (a : Nat) : Except AccErr Nat :=
      match resolve s c none .read 0 a 2 with
      | .error e => .error e
      | .ok ⟨.hbm pa, _⟩ =>
        match badAt s pa 2 with
        | some cause => .error (.bad cause a [])
        | none => .ok (Memory.readN s.mem pa 2)
      | .ok ⟨.absent, some l⟩ => .error (absentErr c l a)
      | .ok ⟨t, _⟩ => .error ((summaryBarred t a).getD (.trap 0x14 a []))
    match rd (area + 2 * ch), rd (area + 2 * d + 2 * ch) with
    | .ok lo, .ok hi =>
      let b := widenBound lo hi (f.decode raw)
      let key := t.base + r * (t.str.getD 1 0).toNat + ch * elemBytes t.fmt
      match storeVa s ctx (area + 2 * ch) 2 b.1 with
      | .error e => .error (e.at_ area)
      | .ok s =>
        match storeVa (notePending s ctx key (elemBytes t.fmt) raw) ctx (area + 2 * d + 2 * ch) 2 b.2 with
        | .error e => .error (e.at_ area)
        | .ok s => .ok s
    | .error e, _ => .error (e.at_ area)
    | _, .error e => .error (e.at_ area)

/-- The elements of a tensor that a write of bytes `va` to `va + n − 1` reaches, by offset from BASE. -/
def widenBytes (s : State) (ctx : Nat) (t : Tensor) (elemAt : Nat → Nat) : List Nat → Except AccErr State
  | [] => .ok s
  | o :: os =>
    let es := elemBytes t.fmt
    let str := (t.str.getD 1 0).toNat
    if str = 0 then .ok s
    else
      let r := o / str
      let within := o % str
      if within < t.ext.getD 0 0 * es && within % es == 0 then
        match fmtOfCode t.fmt with
        | none => widenBytes s ctx t elemAt os
        | some f =>
          match widenElem s ctx t f r (within / es) (elemAt o) with
          | .error e => .error e
          | .ok s => widenBytes s ctx t elemAt os
      else widenBytes s ctx t elemAt os

/-- A byte of a context as it stands. -/
def byteNow (ctx : Nat) (s : State) (a : Nat) : Nat :=
  match s.ctx? ctx with
  | some c => wordNow s c none a 1
  | none => 0

/-- The widenings a write of `n` bytes of value `v` causes (R321, R322): every registered tensor whose key range the
bytes reach, element by element, the element's new value read with the write laid over memory as `rd` reads it. -/
def widenAll (s : State) (ctx va n v : Nat) (rd : State → Nat → Nat) : List Tensor → Except AccErr State
  | [] => .ok s
  | t :: ts =>
    if t.sumd && decide (va < t.base + keyBytes t) && decide (t.base < va + n) then
      let es := elemBytes t.fmt
      let first := (if va > t.base then va - t.base else 0) / es * es
      let last := min (va + n - t.base) (keyBytes t)
      let offs := (List.range ((last - first + es - 1) / es)).map (fun i => first + es * i)
      let byteAt (a : Nat) : Nat :=
        if va ≤ a ∧ a < va + n then v / 256 ^ (a - va) % 256
        else rd s a
      let elemAt (o : Nat) : Nat := leNat ((List.range es).map (fun i => byteAt (t.base + o + i)))
      match widenBytes s ctx t elemAt offs with
      | .error e => .error e
      | .ok s => widenAll s ctx va n v rd ts
    else widenAll s ctx va n v rd ts

/-- A core's update-only copies are pushed to their homes (R183, R194). -/
def pushLines (s : State) (core : Nat) : State :=
  let mine := s.lines.filter (fun l => l.core == core)
  let s := { s with lines := s.lines.filter (fun l => l.core != core) }
  mine.foldl (fun s l => l.parts.foldl mergePartial s) s

/-- Whole words of SRAM that are written hold good data again. -/
def clearSram (s : State) (block : Nat) (tile : Bool) (off n : Nat) : State :=
  { s with mod := { s.mod with bad := s.mod.bad.filter (fun x =>
      !(x.kind == 2 && decide (sramWord block tile (off + 7) ≤ x.loc) && decide (x.loc < sramWord block tile (off + n)))) } }

/-- What a read of a remote page has brought for the access being performed (R176). -/
def broughtAt (s : State) (peer addr n : Nat) : Option Nat :=
  (s.mod.brought.find? (fun b => s.mod.reader != 0 && b.user == s.mod.reader && b.peer == peer && decide (b.addr ≤ addr)
      && decide (addr + n ≤ b.addr + b.bytes.length))).map (fun b => fieldAt b.bytes (addr - b.addr) n)

/-- An access to an I/O-die page that the target does not serve: its page is judged before the register is reached. -/
def ioErr (c : Ctx) (p : Place) (va : Nat) (e : AccErr) : AccErr :=
  match p.leaf with
  | some l => if l.p then e else absentErr c l va
  | none => e

/-- Read bytes that lie in one 128-byte line: a line that still stands at an old frame is pulled (R173), copies of the line
are merged first (R193). -/
def readChunk (s : State) (c : Ctx) (blk : Option Nat) (kind va n : Nat) : Except AccErr (Nat × State) :=
  match resolve s c blk .read kind va n with
  | .error e => .error e
  | .ok p =>
    match p.tgt with
    | .hbm _ =>
      match p.leaf with
      | none => .error (.trap 0x11 va [kind])
      | some l =>
        if pullFails s c l va then .error (.trap 0x1A va [])
        else
          let pa := l.frame + (va - l.page)
          let s := mergeLine (pullLine s c l va) (pa / 128)
          match badAt s pa n with
          | some cause => .error (.bad cause va [])
          | none => .ok (Memory.readN s.mem pa n, s)
    | .scratch b o =>
      match s.block? b with
      | none => .error (.trap 0x14 va [])
      | some k =>
        if sramBad s b false o n then .error (.bad 0x50 0 [k.core]) else .ok (Memory.readN k.scratch o n, s)
    | .tile b o =>
      match s.block? b with
      | none => .error (.trap 0x1D va [])
      | some k =>
        if sramBad s b true o n then .error (.bad 0x50 0 [k.core]) else .ok (Memory.readN k.tiles o n, s)
    | .residency o =>
      let bytes := (List.range n).map (fun i => residencyWord s c ((o + i) / 4) / 256 ^ ((o + i) % 4) % 256)
      .ok (leNat bytes, s)
    | .remote peer addr =>
      match broughtAt s peer addr n with
      | some v => .ok (v, s)
      | none => .error (.remote va peer addr n)
    | .kick _ q => .error (ioErr c p va (.kick va q))
    | .graphKick _ q => .error (ioErr c p va (.kick va (64 + q)))
    | .io _ => .error (ioErr c p va (.io va))
    | .absent =>
      match p.leaf with
      | some l => .error (absentErr c l va)
      | none => .error (.trap 0x11 va [kind])

/-- A write at its home under a leaf: summaries widened first (R323), the page, as that has left its entry, prepared, the bytes stored,
stamped and shown to monitors. -/
def writeHome (s : State) (c : Ctx) (l : Leaf) (va n v : Nat) : Except AccErr State :=
  let s := mergeLine s (framePlace c l va / 128)
  match (if l.sum then widenAll s c.number va n (v % 256 ^ n) (byteNow c.number) c.tensors else .ok s) with
  | .error e => .error e
  | .ok s =>
    match (s.ctx? c.number).bind (fun c => (leafOf s c va).map (fun l => (c, l))) with
    | none => .error (.trap 0x11 va [1])
    | some (c, l) =>
      match prepareWrite s c l va with
      | .error e => .error e
      | .ok s =>
        match (s.ctx? c.number).bind (fun c => (leafOf s c va).map (fun l => (c, l))) with
        | none => .error (.trap 0x11 va [1])
        | some (c, l) => .ok (rawStore s c.number l va (framePlace c l va) n v)

/-- Write bytes that lie in one 128-byte line. -/
def writeChunk (s : State) (c : Ctx) (blk : Option Nat) (kind va n v : Nat) : Except AccErr State :=
  match resolve s c blk .write kind va n with
  | .error e => .error e
  | .ok p =>
    match p.tgt with
    | .scratch b o =>
      .ok (noteWrite ((clearSram s b false o n).updBlock b (fun k => { k with scratch := Memory.writeN k.scratch o n v }))
        (fun t k => t.overlaps k (.scratch b o) n))
    | .tile b o => .ok ((clearSram s b true o n).updBlock b (fun k => { k with tiles := Memory.writeN k.tiles o n v }))
    | .remote peer addr => .error (.remote va peer addr n)
    | .kick _ q => .error (ioErr c p va (.kick va q))
    | .graphKick _ q => .error (ioErr c p va (.kick va (64 + q)))
    | .io _ => .error (ioErr c p va (.io va))
    | .residency _ => .error (.trap 0x12 va [])
    | _ =>
      match p.leaf with
      | none => .error (.trap 0x11 va [kind])
      | some l => if !l.p then .error (absentErr c l va) else writeHome s c l va n v

/-- Read `n` bytes at `va` line by line; `fuel` bounds the lines. The context is looked up afresh, since a read may
merge lines. -/
def readBytes (s : State) (ctx : Nat) (blk : Option Nat) (kind : Nat) : Nat → Nat → Nat → Except AccErr (List Nat × State)
  | 0, _, _ => .ok ([], s)
  | fuel + 1, va, n =>
    if n = 0 then .ok ([], s)
    else
      match s.ctx? ctx with
      | none => .error (.trap 0x11 va [kind])
      | some c =>
        let k := min n (128 - va % 128)
        match readChunk s c blk kind va k with
        | .error e => .error e
        | .ok (v, s) =>
          match readBytes s ctx blk kind fuel (va + k) (n - k) with
          | .error e => .error e
          | .ok (rest, s) => .ok (natLe k v ++ rest, s)

/-- Write bytes at `va` line by line. -/
def writeBytes (s : State) (ctx : Nat) (blk : Option Nat) (kind : Nat) : Nat → Nat → List Nat → Except AccErr State
  | 0, _, _ => .ok s
  | fuel + 1, va, bytes =>
    match bytes with
    | [] => .ok s
    | _ :: _ =>
      match s.ctx? ctx with
      | none => .error (.trap 0x11 va [kind])
      | some c =>
        let k := min bytes.length (128 - va % 128)
        match writeChunk s c blk kind va k (leNat (bytes.take k)) with
        | .error e => .error e
        | .ok s => writeBytes s ctx blk kind fuel (va + k) (bytes.drop k)

/-- Read `n` bytes as a list. -/
def readMem (s : State) (ctx : Nat) (blk : Option Nat) (kind va n : Nat) : Except AccErr (List Nat × State) :=
  readBytes s ctx blk kind (n + 1) va n

/-- Write a list of bytes. -/
def writeMem (s : State) (ctx : Nat) (blk : Option Nat) (kind va : Nat) (bytes : List Nat) : Except AccErr State :=
  writeBytes s ctx blk kind (bytes.length + 1) va bytes

/-- The device writes a 64-bit word of its own (R364). -/
def writeWord64 (s : State) (ctx va v : Nat) : Except AccErr State := writeMem s ctx none 1 va (natLe 8 v)

/-! ### Traces (R333, R338) -/

/-- What an access adds to the record of its origin block. -/
inductive TraceKind where
  | read | write | always
  deriving DecidableEq, Repr

/-- Insert into an ascending list without repeats. -/
def insertAsc (x : Nat) : List Nat → List Nat
  | [] => [x]
  | y :: ys => if x < y then x :: y :: ys else if x = y then y :: ys else y :: insertAsc x ys

/-- The tiles of 4 KiB that bytes touch. -/
def tilesOf (va n : Nat) : List Nat := (List.range ((va + n - 1) / 4096 - va / 4096 + 1)).map (fun i => va / 4096 + i)

/-- Change the trace set of a block of a traced launch. -/
def updTrace (s : State) (launch origin : Nat) (f : TraceSet → TraceSet) : State :=
  s.updLaunch launch (fun l =>
    if l.rec_.trace = 0 then l
    else
      let t := (l.traces.find? (fun t => t.block == origin)).getD { block := origin, reads := [], writes := [], always := false }
      { l with traces := f t :: l.traces.filter (fun t => t.block != origin) })

/-- ALWAYS is set. -/
def traceAlways (s : State) (launch origin : Nat) : State := updTrace s launch origin (fun t => { t with always := true })

/-- What an access to one tile adds to a trace, where the tile's page is translated: on a tracked page `f` adds the tile, on
another `other` says whether ALWAYS is set. -/
def traceTile (ctx launch origin : Nat) (f : Nat → TraceSet → TraceSet) (other : Bool) (s : State) (tile : Nat) : State :=
  match (s.ctx? ctx).bind (fun c => leafOf s c (4096 * tile)) with
  | some l =>
    if l.trk then updTrace s launch origin (f tile) else if other then traceAlways s launch origin else s
  | none => s

/-- A read of bytes: its tiles on a tracked page, ALWAYS on any other translated page, nothing in a fixed window. -/
def traceRead (s : State) (ctx launch origin va n : Nat) : State :=
  if n = 0 || decide (va ≥ windowBase) then s
  else (tilesOf va n).foldl (traceTile ctx launch origin (fun x t => { t with reads := insertAsc x t.reads }) true) s

/-- A write of bytes: its tiles on a tracked page. -/
def traceWrite (s : State) (ctx launch origin va n : Nat) : State :=
  if n = 0 || decide (va ≥ windowBase) then s
  else (tilesOf va n).foldl (traceTile ctx launch origin (fun x t => { t with writes := insertAsc x t.writes }) false) s

/-- A state with the reads that another one traced besides its own (R338). -/
def keepReads (s s1 : State) : State :=
  { s with launches := s.launches.map (fun l =>
      match s1.launch? l.id with
      | none => l
      | some k => { l with traces := k.traces.map (fun t =>
          { t with writes := ((l.traces.find? (fun u => u.block == t.block)).map TraceSet.writes).getD [] }) }) }

end Sys2Proof.Machine
end

