-- ==== Sys2Proof/Machine/Ops.lean ====
section
/-! DEFINITION. The shared operations on a warp: registers and their forms (R8, R9, R28, R33), the issue of one instruction
with its hints (R59 to R67), ages (R19), joining (R18), taking a trap (R146 to R150) and returning from one (R16, R147),
the end of a context (R233), the error log (R229), and the retirement of operations (R136). -/

namespace Sys2Proof.Machine

/-! ### Why an instruction does not complete -/

/-- How the issue of an instruction ends where it does not complete. -/
inductive Stop where
  /-- a trap of the run (R13): lanes that raise it, cause, address, detail words -/
  | trap (lanes : Mask) (cause addr : Nat) (detail : List Nat)
  /-- the context ends (R150, E): cause, address, detail words -/
  | endCtx (cause addr : Nat) (detail : List Nat)
  /-- the run waits and the instruction is tried again (R136, R162, R171); pages to request -/
  | hold (w : Wait) (pages : List Nat)
  /-- an I/O-die register whose behaviour the spec does not give -/
  | ioRegister
  deriving DecidableEq, Repr

/-! ### Registers -/

/-- The value a lane sees in a form (R28). -/
def RegForm.get (f : RegForm) (l : Nat) : Word :=
  match f with
  | .uniform w => w
  | .compressed b s => b + BitVec.ofNat 32 l * s
  | .perLane v => v[l % 32]'(Nat.mod_lt _ (by decide))

/-- A register of a lane; what lies at or above the allocation is refused before it is read. -/
def Warp.reg (w : Warp) (l n : Nat) : Word := (w.regs.getD n (.uniform 0#32)).get l

/-- The same as a number. -/
def Warp.val (w : Warp) (l n : Nat) : Nat := (w.reg l n).toNat

/-- The 64-bit pair (R3). -/
def Warp.pair (w : Warp) (l n : Nat) : Nat := (w.reg l n).toNat + 2 ^ 32 * (w.reg l (n + 1)).toNat

/-- The form of a register. -/
def Warp.form (w : Warp) (n : Nat) : RegForm := w.regs.getD n (.uniform 0#32)

/-- A register is pending for a lane (R33). -/
def Warp.isPending (w : Warp) (l n : Nat) : Bool := w.marks.any (fun m => m.reg == n && inMask m.lanes l)

/-- A register set to a form. -/
def Warp.setForm (w : Warp) (n : Nat) (f : RegForm) : Warp := { w with regs := w.regs.set n f }

/-- A register written in the lanes of a set and kept in the others, per lane (R9, R28). -/
def Warp.setLanes (w : Warp) (n : Nat) (m : Mask) (x : Nat → Word) : Warp :=
  w.setForm n (.perLane (Vector.ofFn (fun i => if inMask m i then x i else w.reg i n)))

/-- The lanes of a set in which a register written in uniform form takes the value: all of them where every lane that
has not exited is written, which is how R22 writes. -/
def Warp.setUniform (w : Warp) (n : Nat) (x : Word) : Warp := w.setForm n (.uniform x)

/-- A register of a lane lies in a word of the register file whose data is uncorrectable (R358, log 48). -/
def Warp.isBad (w : Warp) (l n : Nat) : Bool := w.bad.contains (n, l / 2)

/-- The two lanes whose halves make the word of the register file numbered `j`, those that have not exited, are among a set, and there
is one (R358, log 48). -/
def Warp.wholeWord (w : Warp) (m : Nat → Bool) (j : Nat) : Bool :=
  [2 * j, 2 * j + 1].all (fun l => decide (l < 32) && (m l || (w.lane l).isExited)) &&
  [2 * j, 2 * j + 1].any (fun l => !(w.lane l).isExited)

/-- A register was written in the lanes of a set: a word of it that was written whole holds good data again (R358). -/
def Warp.wrote (w : Warp) (m : Mask) (n : Nat) : Warp :=
  { w with bad := w.bad.filter (fun b => !(b.1 == n && w.wholeWord (inMask m) b.2)) }

/-- Forget that `h.last` may discard a write to a register: another write follows it (R30). -/
def Lane.forget (x : Lane) (n : Nat) : Lane := { x with recent := x.recent.filter (fun r => r.reg != n) }

/-- Remember a write by a class 00 or 01 instruction (R30): its number in the lane and the value it replaces. -/
def Lane.remember (x : Lane) (n at_ : Nat) (old : Word) : Lane :=
  { x with recent := { reg := n, at_ := at_, old := old } :: (x.recent.filter (fun r => r.reg != n && decide (r.at_ + 9 > at_))) }

/-! ### Predicates (R11) -/

def Lane.pred (x : Lane) (k : Nat) : Pred := x.preds[k % 8]'(Nat.mod_lt _ (by decide))

def Lane.setPred (x : Lane) (k : Nat) (p : Pred) : Lane := { x with preds := x.preds.set (k % 8) p (Nat.mod_lt _ (by decide)) }

/-- Push(l, b): every entry moves down with its mark and p7 is lost. -/
def Lane.push (x : Lane) (p : Pred) : Lane :=
  { x with preds := Vector.ofFn (fun i : Fin 8 => if i.val = 0 then p else x.pred (i.val - 1)) }

/-- Pop(l): p7 becomes 0. -/
def Lane.pop (x : Lane) : Lane :=
  { x with preds := Vector.ofFn (fun i : Fin 8 => if i.val = 7 then { val := false, pend := none } else x.pred (i.val + 1)) }

/-- Pop(l) n times. -/
def Lane.popN (x : Lane) : Nat → Lane
  | 0 => x
  | n + 1 => Lane.popN x.pop n

/-- p7 : … : p0 in bits 7 to 0 (R123). -/
def Lane.predBits (x : Lane) : Nat := (List.range 8).foldl (fun n k => if (x.pred k).val then n + 2 ^ k else n) 0

/-! ### Register checks (R8, R9, R67) -/

/-- The lanes of a set that satisfy `p`, with the lowest of them, if there is one. -/
def lanesWhere (m : Mask) (p : Nat → Bool) : Option (Mask × Nat) :=
  match (lanesOf m).filter p with
  | [] => none
  | l :: _ => some (maskOf (fun k => inMask m k && p k), l)

/-- REG_INDEX_RANGE for the registers that each lane names; the detail is the lowest such lane's first register, its sources before
its destinations (DEDUCED, log 72). -/
def checkRange (w : Warp) (m : Mask) (regs : Nat → List Nat) : Except Stop Unit :=
  match lanesWhere m (fun l => (regs l).any (fun n => decide (n ≥ w.alloc))) with
  | none => .ok ()
  | some (who, l) =>
    .error (.trap who 0x04 0 [((regs l).find? (fun n => decide (n ≥ w.alloc))).getD 0, 0, w.alloc])

/-- The first pending register, else the first pending predicate entry, that a lane names (R182): detail v8 of
REG_PENDING. -/
def pendingIn (w : Warp) (l : Nat) (regs preds : List Nat) : Option Nat :=
  match regs.find? (w.isPending l) with
  | some n => some n
  | none => (preds.find? (fun k => ((w.lane l).pred k).pend.isSome)).map (fun k => 0x80 + k)

/-- REG_PENDING for the registers and predicate entries that each lane names: what stands pending waits for a load or an
atomic, counter LD. -/
def checkPending (w : Warp) (m : Mask) (regs preds : Nat → List Nat) : Except Stop Unit :=
  match lanesWhere m (fun l => (pendingIn w l (regs l) (preds l)).isSome) with
  | none => .ok ()
  | some (who, l) => .error (.trap who 0x03 0 [(pendingIn w l (regs l) (preds l)).getD 0, 0])

/-- Uncorrectable data in a register that a lane reads ends the context (R358). The registers are read once the checks on them have
passed (log 48). -/
def checkGood (w : Warp) (m : Mask) (srcs : Nat → List Nat) : Except Stop Unit :=
  if (lanesOf m).any (fun l => (srcs l).any (w.isBad l)) then .error (.endCtx 0x53 0 [(w.core?).getD 0]) else .ok ()

/-- The checks on the registers that each lane reads and writes and the predicate entries it reads, then the reading. -/
def checkNamed (w : Warp) (m : Mask) (srcs dsts preds : Nat → List Nat) : Except Stop Unit :=
  match checkRange w m (fun l => srcs l ++ dsts l) with
  | .error e => .error e
  | .ok _ =>
    match checkPending w m (fun l => srcs l ++ dsts l) preds with
    | .error e => .error e
    | .ok _ => checkGood w m srcs

/-- The same for the same registers in every lane of a set. -/
def checkRegs (w : Warp) (m : Mask) (srcs dsts : List Nat) : Except Stop Unit :=
  checkNamed w m (fun _ => srcs) (fun _ => dsts) (fun _ => [])

/-- The checks of a uniform instruction (R22): its sources in `lead`, its destinations in every lane that has not
exited, each of which a bad destination names (DEDUCED, log 72). -/
def checkUniform (w : Warp) (lead : Nat) (srcs dsts : List Nat) : Except Stop Unit :=
  checkNamed w w.live (fun l => if l = lead then srcs else []) (fun _ => dsts) (fun _ => [])

/-- A register field that must be even, or a multiple of `2^b` (R45): the offending bits in place. -/
def misaligned (field lo b : Nat) : Nat := field % 2 ^ b * 2 ^ lo

/-! ### Trap records and the error log -/

/-- The 16 words of a trap record (R146). -/
def recordWords (cause handle pc : Nat) (run lanes : Mask) (addr : Nat) (detail : List Nat) : List Nat :=
  [cause, handle, pc % 2 ^ 32, pc / 2 ^ 32, run.toNat, lanes.toNat, addr % 2 ^ 32, addr / 2 ^ 32 % 2 ^ 32]
    ++ (List.range 8).map (fun i => detail.getD i 0 % 2 ^ 32)

/-- The address of a report: R150 names none for ACCUM_TILE, LINK_DOWN, RATE_LIMIT and TRANSPORT_ERROR, and R146 gives 0 where none is
named. -/
def reportAddr (cause va : Nat) : Nat := if cause = 0x1D ∨ cause = 0x45 ∨ cause = 0x48 ∨ cause = 0x4B then 0 else va

/-- The bytes of words. -/
def wordBytes (ws : List Nat) : List Nat := ws.flatMap (natLe 4)

/-- The two words of a 64-bit value. -/
def twoWords (v : Nat) : List Nat := [v % 2 ^ 32, v / 2 ^ 32 % 2 ^ 32]

/-! ### Kick registers (R155, R248) -/

/-- A write of a queue's kick register. -/
def kickQueue (s : State) (ctx q v : Nat) : State :=
  s.updCtx ctx (fun c => { c with queues := updFirst (fun x => x.number == q) (fun x => { x with tail := max x.tail v }) c.queues })

/-- A read of a queue's kick register: its tail. -/
def queueTail (s : State) (ctx q : Nat) : Nat :=
  ((s.ctx? ctx).bind (fun c => (c.queues.find? (fun x => x.number == q)).map Queue.tail)).getD 0

/-- 64 kicks of a graph slot are pending. -/
def kicksFull (c : Ctx) (slot : Nat) : Bool :=
  decide (((c.slots.find? (fun g => g.number == slot)).map (fun g => g.pending.length)).getD 0 ≥ 64)

/-- One more kick of a graph slot is pending. -/
def addKick (s : State) (ctx slot table : Nat) : State :=
  s.updCtx ctx (fun c =>
    let fresh : GraphSlot := { number := slot, graph := none, rebind := none, pending := [], running := none }
    let slots := if c.slots.any (fun g => g.number == slot) then c.slots else c.slots ++ [fresh]
    { c with slots := updFirst (fun g => g.number == slot) (fun g => { g with pending := g.pending ++ [table] }) slots })

/-- The kick register, on a page that is present, that an aligned 8-byte store reaches. -/
def kickTarget (s : State) (ctx va n : Nat) : Option Target :=
  if n = 8 && va % 8 == 0 then
    match (s.ctx? ctx).map (fun c => resolve s c none .write 1 va 8) with
    | some (.ok ⟨.kick c q, some l⟩) => if l.p then some (.kick c q) else none
    | some (.ok ⟨.graphKick c q, some l⟩) => if l.p then some (.graphKick c q) else none
    | _ => none
  else none

/-- A store of the device's own (R364): an aligned one of 8 bytes that reaches a kick register is a kick. -/
def deviceStore (s : State) (ctx va : Nat) (bytes : List Nat) : Except AccErr State :=
  match kickTarget s ctx va bytes.length, s.ctx? ctx with
  | some (.kick n q), _ => .ok (kickQueue s n q (leNat bytes))
  | some (.graphKick n k), some c => if kicksFull c k then .error (.kick va (64 + k)) else .ok (addKick s n k (leNat bytes))
  | _, _ => writeMem s ctx none 1 va bytes

/-! ### The device's pending writes (R229, R233, R364) -/

/-- Perform the pending device writes of a context in order; one that waits for a page holds the rest, one that cannot
be performed is skipped. In a live context a malformed walk ends the context with PT_WALK, and a store that a kick register
does not take with KICK_FAULT. -/
def drainWrites (s : State) (ctx : Nat) : Nat → State
  | 0 => s
  | n + 1 =>
    match s.ctx? ctx with
    | none => s
    | some c =>
      match c.pendingWrites with
      | [] => s
      | (va, bytes) :: rest =>
        let ends (s : State) (cause a : Nat) (d : List Nat) : State :=
          if c.live then { s with mod := { s.mod with doomed := s.mod.doomed ++ [(ctx, cause, a, d)] } } else s
        let go (s : State) : State := drainWrites (s.updCtx ctx (fun c => { c with pendingWrites := rest })) ctx n
        match deviceStore s ctx va bytes with
        | .ok s => go s
        | .error (.wait _ page) => requestPage s ctx page
        | .error (.walk a) => go (ends s 0x17 a [])
        | .error (.kick a slot) => go (ends s 0x4E a [slot])
        | .error _ => go s

/-- Add device writes to those pending and perform what can be performed. -/
def deviceWrites (s : State) (ctx : Nat) (ws : List (Nat × List Nat)) : State :=
  let s := s.updCtx ctx (fun c => { c with pendingWrites := c.pendingWrites ++ ws })
  drainWrites s ctx (((s.ctx? ctx).map (fun c => c.pendingWrites.length)).getD 0)

/-- An error-log entry and its count (R229). -/
def logEntry (s : State) (ctx : Nat) (words : List Nat) : State :=
  match s.ctx? ctx with
  | none => s
  | some c =>
    let s := s.updCtx ctx (fun c => { c with logCount := (c.logCount + 1) % 2 ^ 64 })
    deviceWrites s ctx [(c.trapBase + 0x1000 + 64 * (c.logCount % 256), wordBytes words),
      (c.trapBase + 0x40, natLe 8 (c.logCount + 1))]

/-- A log entry for a fault with no run stopped: handle 0 and the masks given. -/
def logFault (s : State) (ctx pc : Nat) (run : Mask) (f : OpFault) : State :=
  logEntry s ctx (recordWords f.cause 0 pc run f.lanes f.addr f.detail)

/-! ### The end of a context (R233) -/

/-- Where a packet's image keeps its completion word, for the types that have one (R230); 0 where it names none that can be
stored to. -/
def compAddr (bytes : List Nat) : Nat :=
  let t := fieldAt bytes 0 1
  if (t = 1 ∨ t = 2 ∨ t = 3 ∨ t = 4) ∧ fieldAt bytes 24 8 % 8 = 0 then fieldAt bytes 24 8 else 0

/-- The order of R233 step 2: index order within each queue, an older queue of one number first; queued relaunches follow. -/
def jobBefore (a b : Job) : Bool :=
  match a.source, b.source with
  | .packet q i, .packet r j =>
    decide (q < r) || (q == r && (decide (a.key < b.key) || (a.key == b.key && decide (i < j))))
  | .packet _ _, _ => true
  | _, .packet _ _ => false
  | _, _ => decide (a.order ≤ b.order)

/-- Insert a job by that order. -/
def insertJob (j : Job) : List Job → List Job
  | [] => [j]
  | k :: ks => if jobBefore j k then j :: k :: ks else k :: insertJob j ks

/-- The failure stores of the packets taken and not completed. -/
def failureStores (s : State) (ctx cause : Nat) : List (Nat × List Nat) :=
  let js := (s.jobs.filter (fun j => j.ctx == ctx)).foldl (fun a j => insertJob j a) []
  js.filterMap (fun j =>
    match j.source with
    | .node _ _ => none
    | _ => if compAddr j.bytes = 0 then none else some (compAddr j.bytes, natLe 8 (2 ^ 63 + cause)))

/-- A message leaves the module. -/
def sendMessage (s : State) (m : Message) : State := { s with mod := { s.mod with sent := s.mod.sent ++ [m] } }

/-- The head of a management completion, and what follows it (R349). -/
def completion (op status seq ctx : Nat) (results : List Nat) : List Nat :=
  natLe 2 op ++ natLe 2 status ++ natLe 4 seq ++ natLe 4 ctx ++ natLe 4 results.length ++ results

/-- A pre-emption that was under way is answered when its context ends before its state is saved: there is no such live context
any more (R348, R349; DEDUCED, log 67). -/
def answerPreempt (s : State) (c : Ctx) : State :=
  match c.preempt with
  | .stopping _ host seq => sendMessage s { to_ := host, kind := 0, bytes := completion 3 4 seq c.number [] }
  | _ => s

/-- The context ends (R233): the end record and the failure stores are written, its work and what was not taken is
discarded, and no warp of it issues again. `words` is the end record (R229). -/
def endContext (s : State) (ctx : Nat) (words : List Nat) : State :=
  match s.ctx? ctx with
  | none => s
  | some c =>
    if c.live then
      let stores := failureStores s ctx (words.getD 0 0)
      let s := s.updCtx ctx (fun c => { c with live := false, queues := [], slots := [], spilled := [], traced := [] })
      let s := { s with
        warps := s.warps.filter (fun w => w.ctx != ctx)
        blocks := s.blocks.filter (fun b => b.ctx != ctx)
        launches := s.launches.filter (fun l => l.ctx != ctx)
        jobs := s.jobs.filter (fun j => j.ctx != ctx)
        bins := s.bins.filter (fun b => b.ctx != ctx)
        passes := s.passes.filter (fun p => p.ctx != ctx)
        builds := s.builds.filter (fun b => b.ctx != ctx)
        mod := { s.mod with
          remotes := s.mod.remotes.filter (fun r => r.ctx != ctx)
          doomed := s.mod.doomed.filter (fun d => d.1 != ctx) } }
      deviceWrites (answerPreempt s c) ctx ((c.trapBase, wordBytes words) :: stores)
    else s

/-- The end with a cause that no run raised. -/
def endWith (s : State) (ctx cause addr : Nat) (detail : List Nat) : State :=
  endContext s ctx (recordWords cause 0 0 0#32 0#32 addr detail)

/-- The contexts whose end is due end now (R358, R364). -/
def endDoomed (s : State) : State :=
  s.mod.doomed.foldl (fun s d => endWith s d.1 d.2.1 d.2.2.1 d.2.2.2) { s with mod := { s.mod with doomed := [] } }

/-! ### The spawn-tree count (R241) -/

/-- The count of a launch goes up or down by `n`: held by the device, or the word at SPAWNCTR. A non-resident page holds the
cause of the update; an update that cannot be performed or leaves the range ends the context with SPAWN_COUNTER, and one that reaches a kick
register with KICK_FAULT (R155). -/
def countUpdate (s : State) (lid : Nat) (up : Bool) (n : Nat) : Except AccErr State :=
  match s.launch? lid with
  | none => .ok s
  | some l =>
    let next (old at_ : Nat) : Except AccErr Nat :=
      if up then (if old + n ≥ 2 ^ 64 then .error (.bad 0x33 at_ []) else .ok (old + n))
      else if n > old then .error (.bad 0x33 at_ []) else .ok (old - n)
    let own := match l.kind with | .relaunch _ => true | .reseed => true | _ => l.rec_.spawnCtr == 0
    if n = 0 then .ok s
    else if own then
      match next l.spawned 0 with
      | .error e => .error e
      | .ok v => .ok (s.setLaunch { l with spawned := v })
    else
      let at_ := l.rec_.spawnCtr
      let hard (e : AccErr) : AccErr :=
        match e with
        | .wait _ _ => e
        | .walk _ => e
        | .bad _ _ _ => e
        | .kick a slot => .bad 0x4E a [slot]
        | _ => .bad 0x33 at_ []
      match (if at_ + 8 > windowBase then .error (.bad 0x33 at_ []) else readMem s l.ctx none 0 at_ 8) with
      | .error e => .error (hard e)
      | .ok (b, s) =>
        match next (leNat b) at_ with
        | .error e => .error e
        | .ok v =>
          match writeWord64 s l.ctx at_ v with
          | .error e => .error (hard e)
          | .ok s => .ok s

/-- A warp whose lanes count in the spawn-tree count of its launch. -/
def Warp.counts (w : Warp) : Bool :=
  match w.kind with
  | .seed => true
  | .formed => true
  | _ => false

/-- Lanes of a warp exit: the count falls by as many (R241). -/
def countExits (s : State) (w : Warp) (m : Mask) : Except AccErr State :=
  if w.counts then countUpdate s w.launch false (lanesOf (m &&& w.live)).length else .ok s

/-! ### Taking a trap (R146 to R149) -/

/-- A lane that does not exist or has ended. -/
def Lane.gone : Lane where
  cond := .exited
  pc := 0#56
  age := 0
  preds := Vector.replicate 8 { val := false, pend := none }
  residue := 0
  pass := false
  fpflags := 0#5
  issued := 0
  recent := []
  arrivals := []
  origin := none
  emitted := false
  pastFence := false

/-- A lane at its start (R14): age 0, predicates 0. -/
def Lane.start (pc : Pc) (origin : Nat) : Lane := { Lane.gone with cond := .ready, pc := pc, origin := some origin }

/-- A warp that begins: its lanes and registers given, everything else zero (R14, R244, R298). -/
def freshWarp (id ctx launch : Nat) (block : Option Nat) (number : Nat) (kind : WarpKind) (snap : BitVec 256)
    (die : Nat) (cluster : Option Nat) (alloc : Nat) (regs : List RegForm) (lanes : Vector Lane 32) : Warp where
  id := id
  ctx := ctx
  launch := launch
  block := block
  number := number
  kind := kind
  snap := snap
  place := none
  die := die
  cluster := cluster
  regs := (regs ++ List.replicate (alloc - regs.length) (RegForm.uniform 0#32)).take alloc
  marks := []
  lanes := lanes
  ops := []
  bound := 0
  issued := Vector.replicate 4 0
  fences := []
  absent := 0#32
  group := []
  groupRun := 0#32
  groupReady := 0#32
  yielded := 0#32
  lateFaults := []
  bad := []

/-- A die under a snapshot where it has an enabled core, else the lowest-numbered die that has one (R365). -/
def dieUnder (snap : BitVec 256) (die : Nat) : Nat :=
  if (enabledCores snap).any (fun c => dieOf c == die) then die
  else (((enabledCores snap).map dieOf).head?).getD die

/-- A handler warp (R15, R146, R151): lane 0 alone, holding the record in v0 to v15, with no block. Its predicate stacks
start at 0, as R14 has them for the other kinds of warp: R15 names none (DESIGN CHOICE, log 17). -/
def handlerWarp (s : State) (l : Launch) (handle die : Nat) (origin : Option Nat) (words : List Nat) : Warp :=
  let snap := s.mod.snapshot
  freshWarp s.nextId l.ctx l.id none 0 (.handler handle) snap (dieUnder snap die) none
    (max l.rec_.regs 16)
    ((words.take 16).map (fun v => .perLane (Vector.ofFn (fun i : Fin 32 => if i.val = 0 then BitVec.ofNat 32 v else 0#32))))
    (Vector.ofFn (fun i : Fin 32 => if i.val = 0 then { Lane.start (BitVec.ofNat 56 l.rec_.trapEntry) 0 with origin := origin } else Lane.gone))

/-- Handler warps of a context that have not been placed (R149). -/
def waitingHandlers (s : State) (ctx : Nat) : Nat :=
  (s.warps.filter (fun w => w.ctx == ctx && w.place.isNone && (match w.kind with | .handler _ => true | _ => false))).length

/-- Start a handler warp; the 1,024th that waits ends the context with TRAP_STORM (R149). -/
def startHandler (s : State) (w : Warp) : State :=
  let s := { s with warps := s.warps ++ [w], nextId := s.nextId + 1 }
  if waitingHandlers s w.ctx ≥ 1024 then endWith s w.ctx 0x0E 0 [] else s

/-- Whether a lane of the context is stopped under a handle. -/
def handleInUse (s : State) (ctx h : Nat) : Bool :=
  h != 0 && s.warps.any (fun w => w.ctx == ctx && (lanesOf allLanes).any (fun l => (w.lane l).cond == .stopped h))

/-- The next handle: non-zero, and unique while a lane of the context is stopped under it (R146). The number after the last one given, or
the least free one where that is in use (log 34). -/
def nextHandle (s : State) (c : Ctx) : Nat :=
  let h := (c.lastHandle + 1) % 2 ^ 32 + (if (c.lastHandle + 1) % 2 ^ 32 = 0 then 1 else 0)
  if handleInUse s c.number h then
    (((List.range (min (32 * s.warps.length + 1) (2 ^ 32 - 1))).map (· + 1)).find? (fun k => !handleInUse s c.number k)).getD h
  else h

/-- The core whose tags and records a warp's operations belong to: its own, or the one its block returns to while it is
swapped out (R363, R197). -/
def homeCore (s : State) (w : Warp) : Option Nat :=
  match w.core? with
  | some core => some core
  | none => (w.block.bind s.block?).map Block.core

/-- The die a warp traps on (R146): of its core, or of the core its block returns to, or the one it is to be placed on. -/
def trapDie (s : State) (w : Warp) : Nat := ((homeCore s w).map dieOf).getD w.die

/-- TAKING A TRAP: the run of a warp stops at `pc` under a fresh handle, the record is formed and a handler warp starts at
the launch's trap entry (R146). In a handler warp the context ends with NESTED_TRAP, its record logged first (R148), with handle 0
(DESIGN CHOICE, log 34); with trap entry 0 the context ends with the cause. -/
def takeTrap (s : State) (wid : Nat) (run : Mask) (pc : Pc) (lanes : Mask) (cause addr : Nat) (detail : List Nat) : State :=
  match s.warp? wid with
  | none => s
  | some w =>
    match s.ctx? w.ctx, s.launch? w.launch with
    | some c, some l =>
      match w.kind with
      | .handler _ =>
        let words := recordWords cause 0 pc.toNat run lanes addr detail
        let s := logEntry s w.ctx words
        endContext s w.ctx (recordWords 0x0D 0 pc.toNat run lanes addr (cause :: detail))
      | _ =>
        if l.rec_.trapEntry = 0 then endContext s w.ctx (recordWords cause 0 pc.toNat run lanes addr detail)
        else
          let h := nextHandle s c
          let words := recordWords cause h pc.toNat run lanes addr detail
          let w := { w.mapLanes run (fun _ x => { x with cond := .stopped h, pc := pc }) with
            group := [], groupRun := 0#32, groupReady := 0#32 }
          let s := (s.setWarp w).updCtx w.ctx (fun c => { c with lastHandle := h })
          startHandler s (handlerWarp s l h (trapDie s w) ((w.lane (leadOf run)).origin) words)
    | _, _ => s

/-! ### Joining (R18) and ages (R19) -/

/-- The wait of a waiting lane at a program counter. -/
def Warp.waitAt (w : Warp) (pc : Pc) : Option (Wait × Pc × Nat) :=
  (lanesOf allLanes).findSome? (fun l =>
    match (w.lane l).cond with
    | .waiting what next since => if (w.lane l).pc = pc then some (what, next, since) else none
    | _ => none)

/-- A number above that of every operation the warp has issued. -/
def Warp.opBound (w : Warp) : Nat := w.bound

/-- Every ready lane whose program counter is that of a waiting run joins it (R18). One that joins a `c.bar.sync` arrives, and one
whose arrival at that barrier is open neither arrives again nor traps (DEDUCED, log 12). A lane with an open guard that joins keeps
its residue: the wait takes nothing from it (DESIGN CHOICE, log 12). -/
def joinWaits (w : Warp) : Warp :=
  w.mapLanes w.readyLanes (fun _ x =>
    match w.waitAt x.pc with
    | none => x
    | some (what, next, since) =>
      let x := { x with cond := .waiting what next since }
      match what with
      | .barrier sc id ph true =>
        if x.arrivals.any (fun a => a.scope == sc && a.id == id) then x
        else { x with arrivals := { scope := sc, id := id, phase := ph, before := w.opBound } :: x.arrivals }
      | _ => x)

/-- Ages after the issue of a non-hint instruction (R19): the run's go to 0 unless it yielded, the other ready lanes' rise. -/
def stepAges (w : Warp) (ready run : Mask) (yielded : Bool) : Warp :=
  w.mapLanes ready (fun l x =>
    if inMask run l then (if yielded then x else { x with age := 0 }) else { x with age := min (x.age + 1) 511 })

/-! ### Hints (R59 to R61) -/

/-- The hint group of an instruction, read. `last` holds each named register with the place of its `h.last` in the group. -/
structure Hints where
  imm : Option Nat
  guard : Option (Nat × Nat × Bool)
  src3 : Option Nat
  rnd : Option Rm
  scope : Option Nat
  last : List (Nat × Nat)
  reuse : Option Nat
  deriving DecidableEq, Repr

def Hints.none : Hints where
  imm := .none
  guard := .none
  src3 := .none
  rnd := .none
  scope := .none
  last := []
  reuse := .none

/-- The kind of a hint word: 0 to 15 for major 0x1F, 16 for `h.imm`. -/
def hintKind (h : Nat) : Nat := if fld h 25 7 = 0x7E then 16 else fld h 21 4

/-- A word is a hint (R43): class 11, major 0x1E or 0x1F. -/
def isHint (h : Nat) : Bool := fld h 25 7 == 0x7E || fld h 25 7 == 0x7F

/-- Bits of a hint word that are set in a reserved field or hold a reserved value (R31, R32, R44, R48, R59). -/
def hintReserved (h : Nat) : Nat :=
  match hintKind h with
  | 0 | 1 => held h 0 14
  | 2 => held h 2 12 + (if fld h 0 2 = 3 then 3 else 0)
  | 3 =>
    held h 2 5 + (if fld h 0 2 = 0 || fld h 0 2 = 3 then 3 else 0) + (if fld h 0 2 = 1 then held h 7 7 else 0)
  | 4 => held h 0 19
  | 5 => held h 0 18 + (if fld h 18 3 ≥ 6 then 7 * 2 ^ 18 else 0)
  | 6 => held h 0 16
  | 7 => held h 0 18 + (if fld h 18 3 ≥ 5 then 7 * 2 ^ 18 else 0)
  | _ => 0

/-- The rounding mode of a code (R59). -/
def rmOf (n : Nat) : Rm := if n = 0 then .rne else if n = 1 then .rz else if n = 2 then .rdn else .rup

/-- Add a hint word, the `i`-th of its group, to what the group holds. -/
def Hints.add (g : Hints) (i h : Nat) : Hints :=
  match hintKind h with
  | 0 => { g with guard := some (fld h 18 3, fld h 15 3 + 1, fld h 14 1 == 1) }
  | 1 => { g with src3 := some (fld h 14 7) }
  | 2 => { g with reuse := some (fld h 14 7) }
  | 3 => { g with last := (fld h 14 7, i) :: (if fld h 0 2 = 2 then [(fld h 7 7, i)] else []) }
  | 4 => { g with rnd := some (rmOf (fld h 19 2)) }
  | 5 => { g with scope := some (fld h 18 3) }
  | 16 => { g with imm := some (fld h 0 25) }
  | _ => g

/-- Read a group word by word. -/
def readHints : Nat → Hints → List Nat → Hints
  | _, g, [] => g
  | i, g, h :: hs => readHints (i + 1) (g.add i h) hs

/-- What an instruction is toward R59, R61 and R66: its class, the hints that apply to it (`guard` is false for an
instruction of class 10 whose description takes no hint but `h.last` and the advisory ones), whether its own code is
unallocated, and the bits of it that hold a reserved value. -/
structure Info where
  cls : Nat
  imm : Bool
  src3 : Bool
  rnd : Bool
  scope : Bool
  guard : Bool
  illegal : Bool
  reserved : Nat
  deriving DecidableEq, Repr

/-- An instruction of a class that no hint but `h.last`, the advisory ones and, in classes 01 and 10, `h.guard` applies to. -/
def Info.plain (cls : Nat) : Info :=
  { cls := cls, imm := false, src3 := false, rnd := false, scope := false, guard := true, illegal := false, reserved := 0 }

/-- A hint does not apply to the instruction (R59), or `h.guard` opens over an open guard (R61). -/
def hintMismatch (i : Info) (openGuard : Bool) (h : Nat) : Bool :=
  match hintKind h with
  | 0 => i.cls == 0 || i.cls == 3 || !i.guard || openGuard
  | 1 => !i.src3
  | 4 => !i.rnd
  | 5 => !i.scope
  | 16 => !i.imm
  | _ => false

/-- The first hint of a group that breaks R59 or R61, given the kinds before it. -/
def firstMismatch (i : Info) (openGuard : Bool) (seen : List Nat) : List Nat → Option Nat
  | [] => none
  | h :: hs =>
    if seen.contains (hintKind h) || hintMismatch i openGuard h then some h
    else firstMismatch i openGuard (hintKind h :: seen) hs

/-! ### The issue of one instruction (R66) -/

/-- What an instruction's meaning works on: the state and the warp before it, the warp with the discards of `h.last`
applied, its hints, run, lead and active lanes. -/
structure Cx where
  s : State
  w : Warp
  wd : Warp
  c : Ctx
  l : Launch
  sel : Sel
  hints : Hints
  act : Mask
  deriving DecidableEq, Repr

def Cx.lead (x : Cx) : Nat := leadOf x.sel.run
def Cx.run (x : Cx) : Mask := x.sel.run
def Cx.word (x : Cx) : Nat := x.sel.word.toNat

/-- The lanes of a run with a guard residue. -/
def residueLanes (w : Warp) (run : Mask) : List Nat := (lanesOf run).filter (fun l => decide ((w.lane l).residue > 0))

/-- The first four checks of R66 on the group and the word: each names the first offending word in group order. -/
def checkWords (w : Warp) (run : Mask) (group : List Nat) (word : Nat) (i : Info) : Except Stop Unit :=
  let openLanes := residueLanes w run
  match group.find? (fun h => decide (8 ≤ hintKind h) && decide (hintKind h < 16)) with
  | some h => .error (.trap run 0x00 0 [h])
  | none =>
    if i.illegal then .error (.trap run 0x00 0 [word])
    else
      match group.find? (fun h => hintReserved h != 0) with
      | some h => .error (.trap run 0x01 0 [h, hintReserved h])
      | none =>
        if i.reserved != 0 then .error (.trap run 0x01 0 [word, i.reserved])
        else
          match firstMismatch i (!openLanes.isEmpty) [] group with
          | some h => .error (.trap run 0x02 0 [h, word])
          | none =>
            match openLanes with
            | l :: _ => if i.cls = 0 || i.cls = 3 then .error (.trap run 0x02 0 [0, word, (w.lane l).residue]) else .ok ()
            | [] => .ok ()

/-- `h.guard` opens for each lane of the run (R61). -/
def openGuard (w : Warp) (run : Mask) (g : Option (Nat × Nat × Bool)) : Warp :=
  match g with
  | none => w
  | some (k, n, sense) => w.mapLanes run (fun _ x => { x with residue := n, pass := (x.pred k).val != sense })

/-- The lanes of the run active for the instruction (R61). -/
def activeLanes (w : Warp) (run : Mask) : Mask :=
  maskOf (fun l => inMask run l && ((w.lane l).residue == 0 || (w.lane l).pass))

/-- A lane's write that an `h.last` at place `i` of the group discards (R30), if the latest write of the register is one
of the 8 instructions before it. -/
def Lane.discarded (x : Lane) (n i : Nat) : Option Word :=
  (x.recent.find? (fun r => r.reg == n && decide (r.at_ + 8 ≥ x.issued + i))).map Recent.old

/-- The discards of a group's `h.last` (R30): each named register takes the value it held before the discarded write. R130 says that one
never names the register that n selects and gives no consequence: such a one acts as any other (DESIGN CHOICE, log 22). -/
def applyLast (w : Warp) (run : Mask) : List (Nat × Nat) → Warp
  | [] => w
  | (n, i) :: rest =>
    let hit := maskOf (fun l => inMask run l && ((w.lane l).discarded n i).isSome)
    let w' := if hit = 0#32 then w
      else (w.setLanes n hit (fun l => ((w.lane l).discarded n i).getD 0#32)).mapLanes hit (fun _ x => x.forget n)
    applyLast w' run rest

/-- Begin the issue of the selected run's instruction (R66, R67): the checks on its words, the pending guard, the active
lanes, the registers its hints name. -/
def beginIssue (s : State) (i : Info) : Except Fault (Except Stop Cx) :=
  match s.cur with
  | none => .error .noRunSelected
  | some sel =>
    match s.warp? sel.warp with
    | none => .error .noRunSelected
    | some w =>
      match s.ctx? w.ctx, s.launch? w.launch with
      | some c, some l => .ok (
        let group := w.group.map BitVec.toNat
        match checkWords w sel.run group sel.word.toNat i with
        | .error e => .error e
        | .ok _ =>
          let h := readHints 0 Hints.none group
          match (match h.guard with | none => Except.ok () | some (k, _, _) => checkPending w sel.run (fun _ => []) (fun _ => [k])) with
          | .error e => .error e
          | .ok _ =>
            match checkRange w sel.run (fun _ => h.last.map Prod.fst ++ h.reuse.toList) with
            | .error e => .error e
            | .ok _ =>
              let w := openGuard w sel.run h.guard
              .ok { s := s, w := w, wd := applyLast w sel.run h.last, c := c, l := l, sel := sel, hints := h,
                    act := activeLanes w sel.run })
      | _, _ => .error .noRunSelected

/-- The address after the instruction (R42). -/
def Cx.next (x : Cx) : Pc := x.sel.addr + 4#56

/-- The runs a set of lanes forms: one set per program counter, the set of its lowest lane first. -/
def splitByPc (w : Warp) : Nat → Mask → List Mask
  | 0, _ => []
  | n + 1, m =>
    match lanesOf m with
    | [] => []
    | l :: _ =>
      let here := maskOf (fun k => inMask m k && (w.lane k).pc == (w.lane l).pc)
      here :: splitByPc w n (m &&& ~~~here)

/-- SINGLE_STEP after a completed instruction while the context's step control is set (R150, R348): each run the lanes
now form stops where it stands. -/
def stepTrap (s : State) (wid : Nat) (lanes : Mask) (addr : Pc) : State :=
  match s.warp? wid with
  | none => s
  | some w =>
    match s.ctx? w.ctx with
    | none => s
    | some c =>
      if c.stepping then
        let m := maskOf (fun l => inMask lanes l && (w.lane l).isReady)
        (splitByPc w 32 m).foldl (fun s r =>
          takeTrap s wid r ((w.lane (leadOf r)).pc) r 0x0B 0 (twoWords addr.toNat)) s
      else s

/-- The warp with its waiting lanes and its operations as the state has them: what the instruction did to memory may have
met their monitors (R196) or widened a pending install (R329). -/
def syncWaits (s : State) (w : Warp) : Warp :=
  match s.warp? w.id with
  | none => w
  | some v =>
    { w.mapLanes allLanes (fun l y => if y.isWaiting then { y with cond := (v.lane l).cond } else y) with
      ops := w.ops.map (fun o => (v.ops.find? (fun q => q.id == o.id)).getD o) }

/-- Complete the issue (R66): `w` is the warp with the instruction's effects, `pc` the counter each lane of the run goes
on at. Residues fall, ages move, lanes count the words issued, and the group ends. -/
def Cx.advance (x : Cx) (s : State) (w : Warp) (pc : Nat → Pc) (yielded : Bool) : State :=
  let words := x.w.group.length + 1
  let w := w.mapLanes x.run (fun l y =>
    { y with residue := y.residue - 1, issued := y.issued + words, pc := pc l })
  let w := stepAges w x.sel.ready x.run yielded
  let w := { w with group := [], groupRun := 0#32, groupReady := 0#32, yielded := if yielded then x.run else 0#32 }
  { s.setWarp w with cur := none }

/-- The same, and lanes that reach a waiting run join it (R18); under step control the runs then stop (R150). -/
def Cx.finish (x : Cx) (s : State) (w : Warp) (pc : Nat → Pc) (yielded : Bool) : State :=
  let s := (x.advance s w pc yielded).updWarp x.w.id joinWaits
  stepTrap s x.w.id x.run x.sel.addr

/-- The same for an instruction that goes on at the next word. -/
def Cx.done (x : Cx) (s : State) (w : Warp) : State := x.finish s w (fun _ => x.next) false

/-- A trap at the issue of the selected run: the ages of the issue (R19), then the run stops at the first word of its
group (R63). An instruction that traps does not count among those the lanes issued, for `h.last` (R30); a wait that has
begun counts, whether or not it ends in a fault (DESIGN CHOICE, log 22). -/
def trapNow (s : State) (sel : Sel) (lanes : Mask) (cause addr : Nat) (detail : List Nat) : State :=
  let s := s.updWarp sel.warp (fun w => { stepAges w sel.ready sel.run false with yielded := 0#32 })
  { takeTrap s sel.warp sel.run sel.first lanes cause addr detail with cur := none }

/-- What a stop does to the state. A trap stops the run at the first word of its group (R63), after the ages of the issue
(R19); a hold leaves the run waiting there. -/
def applyStop (s : State) (e : Stop) : Host.Outcome State Fault Refusal :=
  match s.cur with
  | none => .fault .noRunSelected
  | some sel =>
    let ended := fun (s : State) => { s with cur := none }
    match e with
    | .trap lanes cause addr detail => .next (trapNow s sel lanes cause addr detail)
    | .endCtx cause addr detail =>
      match s.warp? sel.warp with
      | none => .fault .noRunSelected
      | some w => .next (ended (endContext s w.ctx (recordWords cause 0 sel.first.toNat sel.run sel.run addr detail)))
    | .hold what pages =>
      match s.warp? sel.warp with
      | none => .fault .noRunSelected
      | some w =>
        let w := w.mapLanes sel.run (fun _ x => { x with cond := .waiting what sel.first s.mod.clock })
        let w := joinWaits { w with group := [], groupRun := 0#32, groupReady := 0#32 }
        .next (ended (requestPages (s.setWarp w) w.ctx pages))
    | .ioRegister => .refused .ioDieRegister

/-- Run a meaning: the checks of R66 and R67, then the instruction's own. -/
def issue (s : State) (i : Info) (body : Cx → Except Stop State) : Host.Outcome State Fault Refusal :=
  match beginIssue s i with
  | .error f => .fault f
  | .ok (.error e) => applyStop s e
  | .ok (.ok x) =>
    match body x with
    | .error e => applyStop s e
    | .ok s' => .next s'

/-! ### Memory errors at issue -/

/-- What an access that R177 refuses does to the run: `lanes` raise it. -/
def stopOf (lanes : Mask) (e : AccErr) : Stop :=
  match e with
  | .trap cause addr detail => .trap lanes cause (reportAddr cause addr) detail
  | .walk addr => .endCtx 0x17 addr []
  | .wait va page => .hold (.pages [va]) [page]
  | .refused va => .trap lanes 0x1F va []
  | .refill b p => .hold (.refill b p) []
  | .kick addr slot => .endCtx 0x4E addr [slot]
  | .remote va peer addr _ => .hold (.fetch va peer addr) []
  | .io _ => .ioRegister
  | .bad cause addr detail => .endCtx cause addr detail

/-! ### Operations and their counters (R136) -/

/-- Operations of a counter that have not retired: 6 bits (R136). -/
def Warp.outstanding (w : Warp) (k : Nat) : Nat := (w.ops.filter (fun o => o.counter == k)).length

/-- The number of operations issued on a counter. -/
def Warp.issuedOn (w : Warp) (k : Nat) : Nat := w.issued[k % 4]'(Nat.mod_lt _ (by decide))

/-- A counter at 63 holds the run before it issues another (R136). -/
def holdFull (w : Warp) (k : Nat) : Except Stop Unit :=
  if w.outstanding k ≥ 63 then .error (.hold (.full k) []) else .ok ()

/-- Add an operation to a warp; it takes the state's next number. -/
def addOp (s : State) (w : Warp) (k : Nat) (kind : OpKind) (parts : List Part) (scope : Nat) (tag : Option Nat)
    (state : OpState) : State × Warp :=
  let o : Op := { id := s.nextId, counter := k, seq := w.issuedOn k, kind := kind, parts := parts, scope := scope,
                  tag := tag, state := state }
  ({ s with nextId := s.nextId + 1 },
   { w with ops := w.ops ++ [o], bound := s.nextId + 1, issued := w.issued.set (k % 4) (w.issuedOn k + 1) (Nat.mod_lt _ (by decide)) })

/-- The tag map of a context on a core (R363): 1 where the tag is set. -/
def tagMap (c : Ctx) (core : Nat) : DWord := ~~~ (((c.tagsClear.find? (fun t => t.1 == core)).map Prod.snd).getD 0#64)

/-- Change the clear tags of a context on a core. -/
def updTags (c : Ctx) (core : Nat) (f : DWord → DWord) : Ctx :=
  let old := ((c.tagsClear.find? (fun t => t.1 == core)).map Prod.snd).getD 0#64
  { c with tagsClear := (core, f old) :: c.tagsClear.filter (fun t => t.1 != core) }

/-- A tag's bit as a mask. -/
def tagBit (t : Nat) : DWord := 1#64 <<< t

/-- Whether a command of the context that names a tag is outstanding on a core, besides one operation (R363). -/
def tagBusy (s : State) (ctx core t except : Nat) : Bool :=
  s.warps.any (fun w => w.ctx == ctx && homeCore s w == some core && w.ops.any (fun o => o.id != except && o.tag == some t))

/-- Set a tag when the command retires, where no other command naming it is outstanding. -/
def setTag (s : State) (w : Warp) (o : Op) : State :=
  match o.tag, homeCore s w with
  | some t, some core =>
    if tagBusy s w.ctx core t o.id then s else s.updCtx w.ctx (fun c => updTags c core (fun m => m &&& ~~~ tagBit t))
  | _, _ => s

/-- What the retirement of an operation writes (R181, R182, R188, R199): the loaded values into the registers marked for
it, the residency flag, NV of a float minimum or maximum. -/
def retireWrites (w : Warp) (o : Op) : Warp :=
  let parts := o.parts
  let lanesHere := maskOf (fun l => parts.any (fun p => p.lane == l))
  let part (l : Nat) : Option Part := parts.find? (fun p => p.lane == l)
  let put (w : Warp) (n : Nat) (x : Nat → Nat) : Warp :=
    ((w.setLanes n (lanesHere &&& w.live) (fun l => BitVec.ofNat 32 (x l))).mapLanes (lanesHere &&& w.live) (fun _ y => y.forget n)).wrote
      (lanesHere &&& w.live) n
  let got (l : Nat) : Nat := ((part l).map Part.got).getD 0
  match o.kind with
  | .load d size sgn uniform pr _ =>
    let value (l : Nat) : Nat :=
      if sgn then (BitVec.ofInt 32 (signed (8 * size) (got l))).toNat else got l
    let words := (size + 3) / 4
    if uniform then
      let v := ((parts.head?).map Part.got).getD 0
      let v := if sgn then (BitVec.ofInt 32 (signed (8 * size) v)).toNat else v
      (List.range words).foldl (fun w i =>
        ((w.setUniform (d + i) (BitVec.ofNat 32 (v / 2 ^ (32 * i)))).mapLanes w.live (fun _ y => y.forget (d + i))).wrote w.live (d + i)) w
    else
      let w := (List.range words).foldl (fun w i => put w (d + i) (fun l => value l / 2 ^ (32 * i))) w
      if pr then
        w.mapLanes allLanes (fun l y => { y with preds := y.preds.map (fun p =>
          if p.pend == some o.seq then { p with val := ((part l).map Part.present).getD false } else p) })
      else w
  | .atomic fn d =>
    let w := put w d got
    let w := if fn.bytes = 8 then put w (d + 1) (fun l => got l / 2 ^ 32) else w
    match fn with
    | .minF32 | .maxF32 =>
      w.mapLanes lanesHere (fun l y =>
        let nv := ((part l).map (fun p => (Fmt.f32.decode p.got).isSignalling || (Fmt.f32.decode p.data).isSignalling)).getD false
        { y with fpflags := y.fpflags ||| nvIf nv })
    | _ => w
  | .cas d size =>
    let w := put w d got
    if size = 8 then put w (d + 1) (fun l => got l / 2 ^ 32) else w
  | .probe d => put w d got
  | .tex _ d => (List.range 4).foldl (fun w i => put w (d + i) (fun l => got l / 2 ^ (32 * i))) w
  | .texq fn d =>
    let w := put w d got
    if fn = 0 then put w (d + 1) (fun l => got l / 2 ^ 32) else w
  | _ => w

/-- Retire the operations of a counter that are done and that no earlier operation of the counter holds (R136), oldest
first: registers are written, tags set. -/
def retireReady (s : State) (wid k : Nat) : Nat → State
  | 0 => s
  | n + 1 =>
    match s.warp? wid with
    | none => s
    | some w =>
      match w.ops.find? (fun o => o.counter == k) with
      | none => s
      | some o =>
        if o.state = .done then
          let s := setTag s w o
          let w := retireWrites w o
          let s := s.setWarp { w with ops := w.ops.filter (fun p => p.id != o.id) }
          retireReady s wid k n
        else s

/-- Retire whatever can retire on a counter of a warp. -/
def retireAll (s : State) (wid k : Nat) : State :=
  retireReady s wid k (((s.warp? wid).map (fun w => w.ops.length)).getD 0)

/-- A fault that a wait has taken: the operation retires and its tag is set (R138), and nothing else changes (R13). The
operations behind it that are done retire when their own events come (`retireOp`). -/
def retireFailed (s : State) (wid : Nat) (o : Op) : State :=
  match s.warp? wid with
  | none => s
  | some w => (setTag s w o).setWarp { w with ops := w.ops.filter (fun p => p.id != o.id) }

/-- An operation that is done retires, with those behind it, where no earlier one of its counter stands before it (R136). -/
def retireOp (s : State) (oid : Nat) : State :=
  match s.op? oid with
  | none => s
  | some (w, o) => if o.state = .done then retireAll s w.id o.counter else s

/-- The faults of a warp that has no live lane are logged, in issue order, and their operations retire (R138). The entry has
handle 0; its program counter and run are 0, which R138 leaves open (DESIGN CHOICE, log 23). -/
def logUnreported (s : State) (wid : Nat) : Nat → State
  | 0 => s
  | n + 1 =>
    match s.warp? wid with
    | none => s
    | some w =>
      if w.live != 0#32 then s
      else
        match w.ops.findSome? (fun o => match o.state with | .failed f => some (o, f) | _ => none) with
        | none => s
        | some (o, f) => logUnreported (retireAll (retireFailed (logFault s w.ctx 0 0#32 f) wid o) wid o.counter) wid n

/-- An operation is done or has failed: record it and retire what can. What remote reads brought for it is used up. -/
def closeOp (s : State) (o : Op) (st : OpState) : State :=
  match s.op? o.id with
  | none => s
  | some (w, _) =>
    let s := { s with mod := { s.mod with brought := s.mod.brought.filter (fun b => b.user != o.id) } }
    logUnreported (retireAll (s.setOp { o with state := st }) w.id o.counter) w.id (w.ops.length + 1)

/-- The scope of a scoped instruction: its `h.scope`, or the default of the launch's outermost level (R48). -/
def Cx.scope (x : Cx) : Nat := x.hints.scope.getD (((x.l.rec_.levels.getLast?).map Level.scope).getD 0)

/-! ### Returning from a trap (R16, R147) -/

end Sys2Proof.Machine
end

