-- ==== Sys2Proof/Config.lean ====
section
/-! DEFINITION. What one implementation fixes, and the values the spec leaves open. None of the opaque constants has a
body: no proof can see its value, so a statement that holds, holds whatever it is. -/

namespace Sys2Proof.Config

/-- Which of its two neighbours a special function gives where the fixed-point evaluation of Machine/Special.lean does
not settle how the exact result rounds: function code and operand. DEDUCED (log 5). -/
opaque unsettledRounding : Nat → Nat → Bool

/-- Whether a firmware image's signature verifies (R355): the image's bytes. DESIGN CHOICE (log 9). -/
opaque signatureValid : List Nat → Bool

/-- The 96 bytes of the quote's signature (R356): what is signed. DESIGN CHOICE (log 9). -/
opaque quoteSignature : List Nat → List Nat

/-- The module's serial number (R356). DESIGN CHOICE (log 9). -/
opaque serialNumber : Nat

/-- A value the spec leaves open, drawn afresh with the counter of State. DESIGN CHOICE (log 8). -/
opaque freeValue : Nat → Nat

/-- How many requests may wait for rate on a port beside the first (R352 gives the egress queue no depth). DESIGN CHOICE (log 27). -/
opaque egressRoom : Nat

/-- The 32-byte sectors of an HBM row, over which R359 counts corrected errors, less one. DESIGN CHOICE (log 48). -/
opaque hbmRowSectors : BitVec 31

/-- The bytes of an HBM row: a whole number of sectors, at least one and no more than a stack holds (log 48). -/
def hbmRowBytes : Nat := 32 * (hbmRowSectors.toNat + 1)

/-- The slice of its die that is the home of a 128-byte line (R163 fixes no function). DESIGN CHOICE (log 33). -/
opaque homeSlice : Nat → Nat

/-- How much longer than the lane before it a lane of a spawn takes to reach the binner of a die, by die, spawn and lane; the
first lane's also carries what the spawn as a whole takes (R305: arrival depends on timing). DESIGN CHOICE (log 55). -/
opaque binnerDelay : Nat → Nat → Nat → Nat

end Sys2Proof.Config
end

