-- ==== Sys2Proof/Machine/Special.lean ====
section
/-! DEFINITION. The special functions of major 0x07 (R117, R118): the exact result rounded once to f32. A result that is
not a fraction is enclosed between two fractions, in units of 2^-192; where both round alike, that is the result (log 5). -/

namespace Sys2Proof.Machine

/-- Bits after the point. -/
def fracBits : Nat := 192

/-- ln 2 and π in units of 2^-192, rounded down. -/
def ln2Fix : Nat := 0xb17217f7d1cf79abc9e3b39803f2f6af40f343267298b62d8a0d175b8baafa2b / 2 ^ 64
def piFix : Nat := 0x3243f6a8885a308d313198a2e03707344a4093822299f31d0082efa98ec4e6c89 / 2 ^ 64

/-- A result enclosed: sign, then a lower and an upper fraction over one denominator. -/
structure Enclosed where
  neg : Bool
  lo : Nat
  hi : Nat
  den : Nat
  deriving DecidableEq, Repr

/-- Round an enclosed result to f32 in RNE, with no flag (R118). -/
def roundEnclosed (fn arg : Nat) (x : Enclosed) : Nat :=
  let a := (roundFrac .f32 .rne false x.neg x.lo x.den).1
  let b := (roundFrac .f32 .rne false x.neg x.hi x.den).1
  if a = b then a else if Config.unsettledRounding fn arg then a else b

/-- `1 + t/1! + t²/2! + …`, each term rounded down; `term` is the term of index `i`. -/
def expSum (t : Nat) : Nat → Nat → Nat → Nat
  | 0, _, _ => 0
  | n + 1, i, term => term + expSum t n (i + 1) (term * t / 2 ^ fracBits / (i + 1))

/-- `1 + t/2! + t²/3! + …`, that is `(e^t − 1)/t`. -/
def expm1Sum (t : Nat) : Nat → Nat → Nat → Nat
  | 0, _, _ => 0
  | n + 1, i, term => term + expm1Sum t n (i + 1) (term * t / 2 ^ fracBits / (i + 2))

/-- `z + z³/3 + z⁵/5 + …` from `pow = z^(2i+1)` and `sq = z²`. -/
def atanhSum (sq : Nat) : Nat → Nat → Nat → Nat
  | 0, _, _ => 0
  | n + 1, i, pow => pow / (2 * i + 1) + atanhSum sq n (i + 1) (pow * sq / 2 ^ fracBits)

/-- The sums of the positive and of the negative terms of `1 − s/(k(k+1)) + …`, for sine (k from 2) and cosine (k from
1); `term` is the next term, `plus` its sign. -/
def altSum (s : Nat) : Nat → Nat → Nat → Bool → Nat × Nat
  | 0, _, _, _ => (0, 0)
  | n + 1, k, term, plus =>
    let r := altSum s n (k + 2) (term * s / 2 ^ fracBits / (k * (k + 1))) (!plus)
    if plus then (r.1 + term, r.2) else (r.1, r.2 + term)

/-- More than every rounding error of the sums above. -/
def slack : Nat := 2 ^ 60

/-- `frcp` (R117). -/
def fpRcp (a : Nat) : Nat × Flags :=
  match Fmt.f32.decode a with
  | .nan s => (Fmt.f32.canonical, nvIf s)
  | .inf n => (if n then 0x80000000 else 0, 0)
  | .fin n x e =>
    let inf := if n then 0xFF800000 else 0x7F800000
    if x = 0 then (inf, flagDZ)
    else if scaleUp x (e + 128) < scaleUp 1 (-(e + 128)) then (inf, 0)
    else ((roundFrac .f32 .rne false n (scaleUp 1 (-e)) (scaleUp x e)).1, 0)

/-- `frsq` (R117). -/
def fpRsq (a : Nat) : Nat × Flags :=
  match Fmt.f32.decode a with
  | .nan s => (Fmt.f32.canonical, nvIf s)
  | .inf n => if n then (Fmt.f32.canonical, flagNV) else (0, 0)
  | .fin n x e =>
    if x = 0 then (if n then 0xFF800000 else 0x7F800000, flagDZ)
    else if n then (Fmt.f32.canonical, flagNV)
    else
      let (p, q) := rootFrac (scaleUp 1 (-e)) (scaleUp x e) 192
      ((roundFrac .f32 .rne false false p q).1, 0)

/-- 2^(i + t/2^192) enclosed. -/
def exp2Enclosed (i : Int) (t : Nat) : Enclosed :=
  let s := expSum (t * ln2Fix / 2 ^ fracBits) 60 0 (2 ^ fracBits)
  { neg := false, lo := scaleUp s i, hi := scaleUp (s + slack) i, den := scaleUp (2 ^ fracBits) (-i) }

/-- `fexp2` (R117). -/
def fpExp2 (a : Nat) : Nat × Flags :=
  match Fmt.f32.decode a with
  | .nan s => (Fmt.f32.canonical, nvIf s)
  | .inf n => (if n then 0 else 0x7F800000, 0)
  | .fin n x e =>
    let num := scaleUp x e
    let den := scaleUp 1 (-e)
    if x = 0 then (0x3F800000, 0)
    else if !n && num ≥ 128 * den then (0x7F800000, 0)
    else if n && num > 150 * den then (0, 0)
    else
      -- a = i + r/den with 0 ≤ r < den
      let i : Int := if n then -(((num + den - 1) / den : Nat) : Int) else ((num / den : Nat) : Int)
      let r := if n then (num + den - 1) / den * den - num else num % den
      if r = 0 then ((roundFrac .f32 .rne false false (scaleUp 1 i) (scaleUp 1 (-i))).1, 0)
      else (roundEnclosed 3 a (exp2Enclosed i (r * 2 ^ fracBits / den)), 0)

/-- `flog2` (R117). -/
def fpLog2 (a : Nat) : Nat × Flags :=
  match Fmt.f32.decode a with
  | .nan s => (Fmt.f32.canonical, nvIf s)
  | .inf n => if n then (Fmt.f32.canonical, flagNV) else (0x7F800000, 0)
  | .fin n x e =>
    if x = 0 then (0xFF800000, flagDZ)
    else if n then (Fmt.f32.canonical, flagNV)
    else
      let b := Nat.log2 x
      let i : Int := b + e
      if x = 2 ^ b then ((roundVal .f32 .rne false (ofInt i)).1, 0)
      else
        -- log2 of x/2^b is 2·atanh((x − 2^b)/(x + 2^b)) / ln 2
        let z := (x - 2 ^ b) * 2 ^ fracBits / (x + 2 ^ b)
        let s := 2 * atanhSum (z * z / 2 ^ fracBits) 70 0 z
        let lo := s * 2 ^ fracBits / (ln2Fix + 1)
        let v : Int := i * 2 ^ fracBits + lo
        if v ≥ 0 then (roundEnclosed 4 a { neg := false, lo := v.natAbs, hi := v.natAbs + slack, den := 2 ^ fracBits }, 0)
        else (roundEnclosed 4 a { neg := true, lo := v.natAbs - slack, hi := v.natAbs, den := 2 ^ fracBits }, 0)

/-- sin(π p/q) enclosed, for 0 ≤ p/q ≤ 1/4: the fraction p/q stays exact, so a small result keeps its bits. -/
def sinPart (neg : Bool) (p q : Nat) : Enclosed :=
  let y := p * piFix / q
  let s := altSum (y * y / 2 ^ fracBits) 40 2 (2 ^ fracBits) true
  let c := s.1 - s.2
  { neg := neg, lo := p * (piFix * (c - slack)), hi := p * ((piFix + 1) * (c + slack)), den := q * 2 ^ (2 * fracBits) }

/-- cos(π p/q) enclosed, for 0 ≤ p/q ≤ 1/4. -/
def cosPart (neg : Bool) (p q : Nat) : Enclosed :=
  let y := p * piFix / q
  let s := altSum (y * y / 2 ^ fracBits) 40 1 (2 ^ fracBits) true
  let c := s.1 - s.2
  { neg := neg, lo := c - slack, hi := c + slack, den := 2 ^ fracBits }

/-- sin(π r/den) for 0 < r/den < 1, not at a quarter turn that is exact. -/
def sinHalf (neg : Bool) (r den : Nat) : Enclosed :=
  let r := if 2 * r > den then den - r else r
  if 4 * r ≤ den then sinPart neg r den else cosPart neg (den - 2 * r) (2 * den)

/-- `fsinpi` (R117). -/
def fpSinpi (a : Nat) : Nat × Flags :=
  match Fmt.f32.decode a with
  | .nan s => (Fmt.f32.canonical, nvIf s)
  | .inf _ => (Fmt.f32.canonical, flagNV)
  | .fin n x e =>
    let num := scaleUp x e
    let den := scaleUp 1 (-e)
    let r := num % (2 * den)
    let neg := n != decide (r > den)
    if num % den = 0 then (if n then 0x80000000 else 0, 0)
    else if 2 * num % den = 0 then (if neg then 0xBF800000 else 0x3F800000, 0)
    else (roundEnclosed 5 a (sinHalf neg (num % den) den), 0)

/-- `fcospi` (R117). -/
def fpCospi (a : Nat) : Nat × Flags :=
  match Fmt.f32.decode a with
  | .nan s => (Fmt.f32.canonical, nvIf s)
  | .inf _ => (Fmt.f32.canonical, flagNV)
  | .fin _ x e =>
    let num := scaleUp x e
    let den := scaleUp 1 (-e)
    let r := num % (2 * den)
    if num % den = 0 then (if r = 0 then 0x3F800000 else 0xBF800000, 0)
    else if 2 * num % den = 0 then (0, 0)
    else
      -- cos(πr) is positive for r below 1/2 and above 3/2, and |cos(πr)| = sin(π(r + 1/2) mod 1)
      let neg := decide (2 * r > den && 2 * r < 3 * den)
      (roundEnclosed 6 a (sinHalf neg ((2 * num + den) % (2 * den)) (2 * den)), 0)

/-- `ftanh` (R117): with Q = (e^2x − 1)/2x, tanh x is xQ/(xQ + 1). -/
def fpTanh (a : Nat) : Nat × Flags :=
  match Fmt.f32.decode a with
  | .nan s => (Fmt.f32.canonical, nvIf s)
  | .inf n => (if n then 0xBF800000 else 0x3F800000, 0)
  | .fin n x e =>
    let num := scaleUp x e
    let den := scaleUp 1 (-e)
    if x = 0 then (a, 0)
    else if 2 * num ≥ 19 * den then (if n then 0xBF800000 else 0x3F800000, 0)
    else
      let q := expm1Sum (2 * num * 2 ^ fracBits / den) 160 0 (2 ^ fracBits)
      let frac (q : Nat) : Nat × Nat := (num * q, num * q + den * 2 ^ fracBits)
      let l := frac q
      let h := frac (q + slack)
      (roundEnclosed 7 a { neg := n, lo := l.1 * h.2, hi := h.1 * l.2, den := l.2 * h.2 }, 0)

end Sys2Proof.Machine
end

