-- ==== Sys2Proof/Machine/Flags.lean ====
section
/-! DEFINITION. Flags: how raised flags reach SR.FPFLAGS (R104), the conditions of `cmp` and `fcmp` (R49, R121, R122) and
what a compare does to a predicate stack. -/

namespace Sys2Proof.Machine

/-- Flags ORed into SR.FPFLAGS of the lanes of a set (R104). -/
def Warp.orFlags (w : Warp) (m : Mask) (f : Nat → Flags) : Warp :=
  w.mapLanes m (fun l y => { y with fpflags := y.fpflags ||| f l })

/-- The condition of `cmp` on two exact values (R49). -/
def intCompare (cond : Nat) (x y : Int) : Bool :=
  match cond with
  | 0 => decide (x = y)
  | 1 => decide (x ≠ y)
  | 2 => decide (x < y)
  | 3 => decide (x ≤ y)
  | 4 => decide (x > y)
  | _ => decide (x ≥ y)

/-- A value read as a type of `cmp`: 0 s32, 1 z32, 2 s64, 3 z64. -/
def cmpValue (t v : Nat) : Int :=
  match t with
  | 0 => signed 32 v
  | 2 => signed 64 v
  | _ => v

/-- The types of `cmp` that are pairs. -/
def cmpPair (t : Nat) : Bool := t == 2 || t == 3

/-- The format of a type of `fcmp`: 0 f32, 1 f16, 2 bf16. -/
def fcmpFmt (t : Nat) : Fmt :=
  match t with
  | 0 => .f32
  | 1 => .f16
  | _ => .bf16

/-- The bit of `fcmp` and its flags (R122). -/
def fcmpBit (cond t a b : Nat) : Bool × Flags :=
  match fpCompare cond ((fcmpFmt t).decode a) ((fcmpFmt t).decode b) with
  | some (r, nv) => (r, nvIf nv)
  | none => (false, 0)

/-- What a compare does to a stack (R121): 0 push, 1 and, 2 or, 3 set. -/
def Lane.take (x : Lane) (mode : Nat) (t : Bool) : Lane :=
  match mode with
  | 0 => x.push { val := t, pend := none }
  | 1 => x.setPred 0 { val := (x.pred 0).val && t, pend := none }
  | 2 => x.setPred 0 { val := (x.pred 0).val || t, pend := none }
  | _ => x.setPred 0 { val := t, pend := none }

/-- The entries a push mode reads or writes (R182): none for a push. -/
def modeReads (mode : Nat) : List Nat := if mode = 0 then [] else [0]

end Sys2Proof.Machine
end

