-- ==== Sys2Proof/Machine/Operands.lean ====
section
/-! DEFINITION. The operand forms of classes 00 and 01 (R22, R66, R101 to R105, R129): what an instruction reads and
writes, the immediates of R46 and R60, the storage forms of R28, and the two ways to execute: once for the run, or in
each active lane. -/

namespace Sys2Proof.Machine

/-- What an ALU instruction does, its hints known: registers read, registers written, and from the values read the values
written, in the order of `dsts`, with the flags raised. -/
structure Alu where
  srcs : List Nat
  dsts : List Nat
  fn : (Nat → Nat) → List Nat × Flags

/-- imm7 as 32 bits (R46, R60). -/
def imm7 (h : Hints) (i : Nat) : Nat :=
  match h.imm with
  | none => (BitVec.ofInt 32 (signed 7 i)).toNat
  | some x => (x * 2 ^ 7 + i) % 2 ^ 32

/-- imm18 of `movi` as 32 bits (R46, R60). -/
def imm18 (h : Hints) (i : Nat) : Nat :=
  match h.imm with
  | none => (BitVec.ofInt 32 (signed 18 i)).toNat
  | some x => (x * 2 ^ 7 + i % 2 ^ 7) % 2 ^ 32

/-- The third source of R103. -/
def third (h : Hints) (d : Nat) : Nat := h.src3.getD d

/-- The rounding mode of an instruction (R112). -/
def Hints.mode (h : Hints) : Rm := h.rnd.getD .rne

/-- A pair as the values read give it. -/
def pairOf (rd : Nat → Nat) (n : Nat) : Nat := rd n + 2 ^ 32 * rd (n + 1)

/-- d from a. -/
def alu1 (d a : Nat) (f : Nat → Nat) (_ : Hints) : Alu := ⟨[a], [d], fun rd => ([f (rd a)], 0)⟩

/-- d from a and b. -/
def alu2 (d a b : Nat) (f : Nat → Nat → Nat) (_ : Hints) : Alu := ⟨[a, b], [d], fun rd => ([f (rd a) (rd b)], 0)⟩

/-- d from a and the immediate (R102). -/
def alu2i (d a i : Nat) (f : Nat → Nat → Nat) (h : Hints) : Alu := ⟨[a], [d], fun rd => ([f (rd a) (imm7 h i)], 0)⟩

/-- d from a, b and the third source. -/
def alu3 (d a b : Nat) (f : Nat → Nat → Nat → Nat) (h : Hints) : Alu :=
  ⟨[a, b, third h d], [d], fun rd => ([f (rd a) (rd b) (rd (third h d))], 0)⟩

/-- d from a, the immediate and the third source. -/
def alu3i (d a i : Nat) (f : Nat → Nat → Nat → Nat) (h : Hints) : Alu :=
  ⟨[a, third h d], [d], fun rd => ([f (rd a) (imm7 h i) (rd (third h d))], 0)⟩

/-- The pair d from the pairs a and b. -/
def alu64 (d a b : Nat) (f : Nat → Nat → Nat) (_ : Hints) : Alu :=
  ⟨[a, a + 1, b, b + 1], [d, d + 1], fun rd => (twoWords (f (pairOf rd a) (pairOf rd b)), 0)⟩

/-- The pair d from the pair a and the register b. -/
def alu64by (d a b : Nat) (f : Nat → Nat → Nat) (_ : Hints) : Alu :=
  ⟨[a, a + 1, b], [d, d + 1], fun rd => (twoWords (f (pairOf rd a) (rd b)), 0)⟩

/-- d from a, with flags, in the mode of the hints. -/
def fp1 (d a : Nat) (f : Rm → Nat → Nat × Flags) (h : Hints) : Alu :=
  ⟨[a], [d], fun rd => ([(f h.mode (rd a)).1], (f h.mode (rd a)).2)⟩

/-- d from a and b, with flags. -/
def fp2 (d a b : Nat) (f : Rm → Nat → Nat → Nat × Flags) (h : Hints) : Alu :=
  ⟨[a, b], [d], fun rd => ([(f h.mode (rd a) (rd b)).1], (f h.mode (rd a) (rd b)).2)⟩

/-- d from a, b and the third source, with flags. -/
def fp3 (d a b : Nat) (f : Rm → Nat → Nat → Nat → Nat × Flags) (h : Hints) : Alu :=
  ⟨[a, b, third h d], [d], fun rd =>
    ([(f h.mode (rd a) (rd b) (rd (third h d))).1], (f h.mode (rd a) (rd b) (rd (third h d))).2)⟩

/-! ### What the instruction is toward the checks of R66 -/

/-- The class of a twin: 0 `s.`, 1 `v.`. -/
def Info.of (cls : Nat) (imm src3 rnd : Bool) : Info :=
  { cls := cls, imm := imm, src3 := src3, rnd := rnd, scope := false, guard := true, illegal := false, reserved := 0 }

/-- The same with bits that break R45 or hold a reserved value. -/
def Info.bad (i : Info) (reserved : Nat) : Info := { i with reserved := reserved }

/-- Pair fields of format A3 that are odd (R45): which of d, a, b are pairs. -/
def oddPairs (d a b : Nat) (pd pa pb : Bool) : Nat :=
  (if pd then misaligned d 14 1 else 0) + (if pa then misaligned a 7 1 else 0) + (if pb then misaligned b 0 1 else 0)

/-! ### Writing -/

/-- The number in lane `l` of the instruction at issue, hints counted (R30). -/
def Cx.number (x : Cx) (w : Warp) (l : Nat) : Nat := (w.lane l).issued + x.w.group.length

/-- A class 00 or 01 write of a register in the lanes of `m`: lanes of the run remember the value replaced (R30), and in
every other lane written an older write can no longer be discarded. -/
def Cx.write (x : Cx) (w : Warp) (m : Mask) (n : Nat) (f : RegForm) : Warp :=
  ((w.mapLanes m (fun l y =>
    if inMask x.run l then y.remember n (x.number w l) (w.reg l n) else y.forget n)).setForm n f).wrote m n

/-- The lanes an `s.` twin writes: every lane that has not exited (R22). -/
def Cx.everyone (x : Cx) : Mask := x.w.live

/-- Write values to registers in uniform form (R22). -/
def Cx.writeUniform (x : Cx) (w : Warp) : List Nat → List Nat → Warp
  | n :: ns, v :: vs => Cx.writeUniform x (x.write w x.everyone n (.uniform (BitVec.ofNat 32 v))) ns vs
  | _, _ => w

/-- The per-lane form of a register after the lanes of `m` take values. -/
def laneForm (w : Warp) (n : Nat) (m : Mask) (v : Nat → Nat) : RegForm :=
  .perLane (Vector.ofFn (fun i => if inMask m i then BitVec.ofNat 32 (v i) else w.reg i n))

/-- Write values to registers in each active lane; `v l` are lane `l`'s values. -/
def Cx.writeLanes (x : Cx) (w : Warp) (v : Nat → List Nat) : Nat → List Nat → Warp
  | _, [] => w
  | k, n :: ns => Cx.writeLanes x (x.write w x.act n (laneForm w n x.act (fun l => (v l).getD k 0))) v (k + 1) ns

/-! ### Executing -/

/-- Execute once for the run, with the values of `lead`, and write every lane that has not exited (R22). -/
def uniformAlu (s : State) (i : Info) (op : Hints → Alu) : Host.Outcome State Fault Refusal :=
  issue s i (fun x =>
    let o := op x.hints
    match checkUniform x.w x.lead o.srcs o.dsts with
    | .error e => .error e
    | .ok _ =>
      let r := o.fn (fun n => (x.w.reg x.lead n).toNat)
      .ok (x.done x.s ((x.writeUniform x.wd o.dsts r.1).orFlags x.everyone (fun _ => r.2))))

/-- Execute in each active lane; `keep` gives the form of the destination where R28 keeps one. -/
def laneAlu (s : State) (i : Info) (op : Hints → Alu) (keep : Hints → Warp → Option RegForm) :
    Host.Outcome State Fault Refusal :=
  issue s i (fun x =>
    let o := op x.hints
    match checkRegs x.w x.act o.srcs o.dsts with
    | .error e => .error e
    | .ok _ =>
      let r := fun l => o.fn (fun n => (x.w.reg l n).toNat)
      let w :=
        match (if x.act = allLanes then keep x.hints x.w else none), o.dsts with
        | some f, [d] => x.write x.wd x.act d f
        | _, _ => if x.act = 0#32 then x.wd else x.writeLanes x.wd (fun l => (r l).1) 0 o.dsts
      .ok (x.done x.s (w.orFlags x.act (fun l => (r l).2))))

/-- The same where the result is always per-lane. -/
def perLaneAlu (s : State) (i : Info) (op : Hints → Alu) : Host.Outcome State Fault Refusal :=
  laneAlu s i op (fun _ _ => none)

/-! ### Storage forms that a `v.` twin keeps (R28) -/

/-- `v.add` of a compressed register and a uniform value. -/
def keepAdd (a b : RegForm) : Option RegForm :=
  match a, b with
  | .compressed x t, .uniform y => some (.compressed (x + y) t)
  | .uniform x, .compressed y t => some (.compressed (x + y) t)
  | _, _ => none

/-- `v.sub` of a compressed register and a uniform value. -/
def keepSub (a b : RegForm) : Option RegForm :=
  match a, b with
  | .compressed x t, .uniform y => some (.compressed (x - y) t)
  | _, _ => none

/-- `v.mullo` of a compressed register by a uniform value. -/
def keepMul (a b : RegForm) : Option RegForm :=
  match a, b with
  | .compressed x t, .uniform y => some (.compressed (x * y) (t * y))
  | .uniform x, .compressed y t => some (.compressed (x * y) (x * t))
  | _, _ => none

/-- `v.shl` of a compressed register by a uniform count below 32. -/
def keepShl (a b : RegForm) : Option RegForm :=
  match a, b with
  | .compressed x t, .uniform y => if y.toNat < 32 then some (.compressed (x <<< y.toNat) (t <<< y.toNat)) else none
  | _, _ => none

/-- `v.mov` of a uniform or compressed register. -/
def keepMov (a : RegForm) : Option RegForm :=
  match a with
  | .perLane _ => none
  | f => some f

/-- A form rule over registers a and b. -/
def keepRR (k : RegForm → RegForm → Option RegForm) (a b : Nat) (_ : Hints) (w : Warp) : Option RegForm := k (w.form a) (w.form b)

/-- A form rule over register a and the immediate. -/
def keepRI (k : RegForm → RegForm → Option RegForm) (a i : Nat) (h : Hints) (w : Warp) : Option RegForm :=
  k (w.form a) (.uniform (BitVec.ofNat 32 (imm7 h i)))

end Sys2Proof.Machine
end

