-- ==== Sys2Proof/Machine/AluFp.lean ====
section
/-! DEFINITION. The floating-point functions of majors 0x06 to 0x08 (R112 to R120) and the conversions of major 0x09 (R257
to R259). -/

namespace Sys2Proof.Machine

/-! ### Conversions -/

/-- The type codes that are 64-bit pairs. -/
def cvtPair (t : Nat) : Bool := t == 9 || t == 0xA

/-- The range of an integer type code (R6, R258), none for a format. -/
def intRange (t : Nat) : Option (Int × Int) :=
  match t with
  | 0 => some (-(2 ^ 31), 2 ^ 31 - 1)
  | 1 => some (0, 2 ^ 32 - 1)
  | 8 => some (-2, 1)
  | 9 => some (-(2 ^ 63), 2 ^ 63 - 1)
  | 0xA => some (0, 2 ^ 64 - 1)
  | 0xB => some (-(2 ^ 15), 2 ^ 15 - 1)
  | 0xC => some (0, 2 ^ 16 - 1)
  | 0xD => some (-(2 ^ 7), 2 ^ 7 - 1)
  | 0xE => some (0, 2 ^ 8 - 1)
  | _ => none

/-- The bits of an integer type code. -/
def intBits (t : Nat) : Nat :=
  match t with
  | 8 => 2
  | 0xD | 0xE => 8
  | 0xB | 0xC => 16
  | 9 | 0xA => 64
  | _ => 32

/-- The exact value of a code read as a type, its higher bits ignored (R257). -/
def cvtValue (t y : Nat) : FVal :=
  match fmtOfCode t with
  | some f => f.decode (y % 2 ^ f.bits)
  | none =>
    match t with
    | 1 | 0xA | 0xC | 0xE => ofInt (y % 2 ^ intBits t : Nat)
    | _ => ofInt (signed (intBits t) y)

/-- The pairs that `cvt` converts (R258, R259): to and from f32, f16 and bf16. -/
def cvtListed (dst src : Nat) : Bool :=
  decide (dst < 0xF) && decide (src < 0xF) && dst != src &&
  ((decide (2 ≤ dst) && decide (dst ≤ 4)) || (decide (2 ≤ src) && decide (src ≤ 4)))

/-- The value written and the flags: the format's code, or the integer in the destination's bits, extended (R257). -/
def cvtResult (dst src : Nat) (sat : Bool) (m : Rm) (y : Nat) : Nat × Flags :=
  match fmtOfCode dst with
  | some f => roundVal f m sat (cvtValue src y)
  | none =>
    match intRange dst with
    | some (lo, hi) =>
      let r := toInteger lo hi m (cvtValue src y)
      if dst = 8 then ((r.1 % 4).toNat, r.2)
      else if cvtPair dst then ((r.1 % 2 ^ 64).toNat, r.2)
      else ((r.1 % 2 ^ 32).toNat, r.2)
    | none => (0, 0)

/-- The checks of a `cvt` word (R53, R259). -/
def cvtInfo (cls f d a src t : Nat) : Info :=
  { cls := cls, imm := false, src3 := false, rnd := true, scope := false, guard := true, illegal := !cvtListed f src
    reserved := oddPairs d a 0 (cvtPair f) (cvtPair src) false
      + (if t = 1 && !(decide (5 ≤ f) && decide (f ≤ 7)) then 4 else 0) }

/-- What a `cvt` reads and writes. -/
def cvtAlu (f d a src t : Nat) (h : Hints) : Alu :=
  { srcs := if cvtPair src then [a, a + 1] else [a]
    dsts := if cvtPair f then [d, d + 1] else [d]
    fn := fun rd =>
      let r := cvtResult f src (t == 1) h.mode (if cvtPair src then pairOf rd a else rd a)
      (if cvtPair f then twoWords r.1 else [r.1], r.2) }

/-! ### The instructions -/

/-- `s.fadd` (R112). -/
def execSFadd (d a b : Nat) (s : State) : Host.Outcome State Fault Refusal :=
  uniformAlu s (Info.of 0 false false true) (fp2 d a b (fpAdd .f32))

/-- `s.fsub` (R112). -/
def execSFsub (d a b : Nat) (s : State) : Host.Outcome State Fault Refusal :=
  uniformAlu s (Info.of 0 false false true) (fp2 d a b (fpSub .f32))

/-- `s.fmul` (R112). -/
def execSFmul (d a b : Nat) (s : State) : Host.Outcome State Fault Refusal :=
  uniformAlu s (Info.of 0 false false true) (fp2 d a b (fpMul .f32))

/-- `s.ffma` (R112, R103). -/
def execSFfma (d a b : Nat) (s : State) : Host.Outcome State Fault Refusal :=
  uniformAlu s (Info.of 0 false true true) (fp3 d a b (fpFma .f32))

/-- `s.fmin` (R113). -/
def execSFmin (d a b : Nat) (s : State) : Host.Outcome State Fault Refusal :=
  uniformAlu s (Info.of 0 false false false) (fp2 d a b (fun _ => fpMin .f32))

/-- `s.fmax` (R113). -/
def execSFmax (d a b : Nat) (s : State) : Host.Outcome State Fault Refusal :=
  uniformAlu s (Info.of 0 false false false) (fp2 d a b (fun _ => fpMax .f32))

/-- `s.fabs` (R114). -/
def execSFabs (d a : Nat) (s : State) : Host.Outcome State Fault Refusal :=
  uniformAlu s (Info.of 0 false false false) (alu1 d a (fun a => a % 2 ^ 31))

/-- `s.fneg` (R114). -/
def execSFneg (d a : Nat) (s : State) : Host.Outcome State Fault Refusal :=
  uniformAlu s (Info.of 0 false false false) (alu1 d a (fun a => a ^^^ 2 ^ 31))

/-- `s.fcopysign` (R114). -/
def execSFcopysign (d a b : Nat) (s : State) : Host.Outcome State Fault Refusal :=
  uniformAlu s (Info.of 0 false false false) (alu2 d a b (fun a b => a % 2 ^ 31 + b / 2 ^ 31 * 2 ^ 31))

/-- `s.fclass` (R115). -/
def execSFclass (d a : Nat) (s : State) : Host.Outcome State Fault Refusal :=
  uniformAlu s (Info.of 0 false false false) (alu1 d a fpClass)

/-- `s.frcp` (R117, R118). -/
def execSFrcp (d a : Nat) (s : State) : Host.Outcome State Fault Refusal :=
  uniformAlu s (Info.of 0 false false false) (fp1 d a (fun _ => fpRcp))

/-- `s.frsq` (R117, R118). -/
def execSFrsq (d a : Nat) (s : State) : Host.Outcome State Fault Refusal :=
  uniformAlu s (Info.of 0 false false false) (fp1 d a (fun _ => fpRsq))

/-- `s.fexp2` (R117, R118). -/
def execSFexp2 (d a : Nat) (s : State) : Host.Outcome State Fault Refusal :=
  uniformAlu s (Info.of 0 false false false) (fp1 d a (fun _ => fpExp2))

/-- `s.flog2` (R117, R118). -/
def execSFlog2 (d a : Nat) (s : State) : Host.Outcome State Fault Refusal :=
  uniformAlu s (Info.of 0 false false false) (fp1 d a (fun _ => fpLog2))

/-- `s.fsinpi` (R117, R118). -/
def execSFsinpi (d a : Nat) (s : State) : Host.Outcome State Fault Refusal :=
  uniformAlu s (Info.of 0 false false false) (fp1 d a (fun _ => fpSinpi))

/-- `s.fcospi` (R117, R118). -/
def execSFcospi (d a : Nat) (s : State) : Host.Outcome State Fault Refusal :=
  uniformAlu s (Info.of 0 false false false) (fp1 d a (fun _ => fpCospi))

/-- `s.ftanh` (R117, R118). -/
def execSFtanh (d a : Nat) (s : State) : Host.Outcome State Fault Refusal :=
  uniformAlu s (Info.of 0 false false false) (fp1 d a (fun _ => fpTanh))

/-- `s.fsqrt` (R117). -/
def execSFsqrt (d a : Nat) (s : State) : Host.Outcome State Fault Refusal :=
  uniformAlu s (Info.of 0 false false true) (fp1 d a fpSqrt)

/-- `s.frint.ne` (R119). -/
def execSFrintNe (d a : Nat) (s : State) : Host.Outcome State Fault Refusal :=
  uniformAlu s (Info.of 0 false false false) (fp1 d a (fun _ => fpRint .rne))

/-- `s.frint.z` (R119). -/
def execSFrintZ (d a : Nat) (s : State) : Host.Outcome State Fault Refusal :=
  uniformAlu s (Info.of 0 false false false) (fp1 d a (fun _ => fpRint .rz))

/-- `s.frint.dn` (R119). -/
def execSFrintDn (d a : Nat) (s : State) : Host.Outcome State Fault Refusal :=
  uniformAlu s (Info.of 0 false false false) (fp1 d a (fun _ => fpRint .rdn))

/-- `s.frint.up` (R119). -/
def execSFrintUp (d a : Nat) (s : State) : Host.Outcome State Fault Refusal :=
  uniformAlu s (Info.of 0 false false false) (fp1 d a (fun _ => fpRint .rup))

/-- `s.fadd.f16x2` (R120). -/
def execSFaddF16x2 (d a b : Nat) (s : State) : Host.Outcome State Fault Refusal :=
  uniformAlu s (Info.of 0 false false true) (fp2 d a b (fun m => packed (fpAdd .f16 m)))

/-- `s.fsub.f16x2` (R120). -/
def execSFsubF16x2 (d a b : Nat) (s : State) : Host.Outcome State Fault Refusal :=
  uniformAlu s (Info.of 0 false false true) (fp2 d a b (fun m => packed (fpSub .f16 m)))

/-- `s.fmul.f16x2` (R120). -/
def execSFmulF16x2 (d a b : Nat) (s : State) : Host.Outcome State Fault Refusal :=
  uniformAlu s (Info.of 0 false false true) (fp2 d a b (fun m => packed (fpMul .f16 m)))

/-- `s.ffma.f16x2` (R120, R103). -/
def execSFfmaF16x2 (d a b : Nat) (s : State) : Host.Outcome State Fault Refusal :=
  uniformAlu s (Info.of 0 false true true) (fp3 d a b (fun m => packed3 (fpFma .f16 m)))

/-- `s.fmin.f16x2` (R120). -/
def execSFminF16x2 (d a b : Nat) (s : State) : Host.Outcome State Fault Refusal :=
  uniformAlu s (Info.of 0 false false false) (fp2 d a b (fun _ => packed (fpMin .f16)))

/-- `s.fmax.f16x2` (R120). -/
def execSFmaxF16x2 (d a b : Nat) (s : State) : Host.Outcome State Fault Refusal :=
  uniformAlu s (Info.of 0 false false false) (fp2 d a b (fun _ => packed (fpMax .f16)))

/-- `s.fadd.bf16x2` (R120). -/
def execSFaddBf16x2 (d a b : Nat) (s : State) : Host.Outcome State Fault Refusal :=
  uniformAlu s (Info.of 0 false false true) (fp2 d a b (fun m => packed (fpAdd .bf16 m)))

/-- `s.fsub.bf16x2` (R120). -/
def execSFsubBf16x2 (d a b : Nat) (s : State) : Host.Outcome State Fault Refusal :=
  uniformAlu s (Info.of 0 false false true) (fp2 d a b (fun m => packed (fpSub .bf16 m)))

/-- `s.fmul.bf16x2` (R120). -/
def execSFmulBf16x2 (d a b : Nat) (s : State) : Host.Outcome State Fault Refusal :=
  uniformAlu s (Info.of 0 false false true) (fp2 d a b (fun m => packed (fpMul .bf16 m)))

/-- `s.ffma.bf16x2` (R120, R103). -/
def execSFfmaBf16x2 (d a b : Nat) (s : State) : Host.Outcome State Fault Refusal :=
  uniformAlu s (Info.of 0 false true true) (fp3 d a b (fun m => packed3 (fpFma .bf16 m)))

/-- `s.fmin.bf16x2` (R120). -/
def execSFminBf16x2 (d a b : Nat) (s : State) : Host.Outcome State Fault Refusal :=
  uniformAlu s (Info.of 0 false false false) (fp2 d a b (fun _ => packed (fpMin .bf16)))

/-- `s.fmax.bf16x2` (R120). -/
def execSFmaxBf16x2 (d a b : Nat) (s : State) : Host.Outcome State Fault Refusal :=
  uniformAlu s (Info.of 0 false false false) (fp2 d a b (fun _ => packed (fpMax .bf16)))

/-- `s.cvt` (R257, R258). -/
def execSCvt (f d a src t : Nat) (s : State) : Host.Outcome State Fault Refusal :=
  uniformAlu s (cvtInfo 0 f d a src t) (cvtAlu f d a src t)

/-- `v.fadd` (R112). -/
def execVFadd (d a b : Nat) (s : State) : Host.Outcome State Fault Refusal :=
  perLaneAlu s (Info.of 1 false false true) (fp2 d a b (fpAdd .f32))

/-- `v.fsub` (R112). -/
def execVFsub (d a b : Nat) (s : State) : Host.Outcome State Fault Refusal :=
  perLaneAlu s (Info.of 1 false false true) (fp2 d a b (fpSub .f32))

/-- `v.fmul` (R112). -/
def execVFmul (d a b : Nat) (s : State) : Host.Outcome State Fault Refusal :=
  perLaneAlu s (Info.of 1 false false true) (fp2 d a b (fpMul .f32))

/-- `v.ffma` (R112, R103). -/
def execVFfma (d a b : Nat) (s : State) : Host.Outcome State Fault Refusal :=
  perLaneAlu s (Info.of 1 false true true) (fp3 d a b (fpFma .f32))

/-- `v.fmin` (R113). -/
def execVFmin (d a b : Nat) (s : State) : Host.Outcome State Fault Refusal :=
  perLaneAlu s (Info.of 1 false false false) (fp2 d a b (fun _ => fpMin .f32))

/-- `v.fmax` (R113). -/
def execVFmax (d a b : Nat) (s : State) : Host.Outcome State Fault Refusal :=
  perLaneAlu s (Info.of 1 false false false) (fp2 d a b (fun _ => fpMax .f32))

/-- `v.fabs` (R114). -/
def execVFabs (d a : Nat) (s : State) : Host.Outcome State Fault Refusal :=
  perLaneAlu s (Info.of 1 false false false) (alu1 d a (fun a => a % 2 ^ 31))

/-- `v.fneg` (R114). -/
def execVFneg (d a : Nat) (s : State) : Host.Outcome State Fault Refusal :=
  perLaneAlu s (Info.of 1 false false false) (alu1 d a (fun a => a ^^^ 2 ^ 31))

/-- `v.fcopysign` (R114). -/
def execVFcopysign (d a b : Nat) (s : State) : Host.Outcome State Fault Refusal :=
  perLaneAlu s (Info.of 1 false false false) (alu2 d a b (fun a b => a % 2 ^ 31 + b / 2 ^ 31 * 2 ^ 31))

/-- `v.fclass` (R115). -/
def execVFclass (d a : Nat) (s : State) : Host.Outcome State Fault Refusal :=
  perLaneAlu s (Info.of 1 false false false) (alu1 d a fpClass)

/-- `v.frcp` (R117, R118). -/
def execVFrcp (d a : Nat) (s : State) : Host.Outcome State Fault Refusal :=
  perLaneAlu s (Info.of 1 false false false) (fp1 d a (fun _ => fpRcp))

/-- `v.frsq` (R117, R118). -/
def execVFrsq (d a : Nat) (s : State) : Host.Outcome State Fault Refusal :=
  perLaneAlu s (Info.of 1 false false false) (fp1 d a (fun _ => fpRsq))

/-- `v.fexp2` (R117, R118). -/
def execVFexp2 (d a : Nat) (s : State) : Host.Outcome State Fault Refusal :=
  perLaneAlu s (Info.of 1 false false false) (fp1 d a (fun _ => fpExp2))

/-- `v.flog2` (R117, R118). -/
def execVFlog2 (d a : Nat) (s : State) : Host.Outcome State Fault Refusal :=
  perLaneAlu s (Info.of 1 false false false) (fp1 d a (fun _ => fpLog2))

/-- `v.fsinpi` (R117, R118). -/
def execVFsinpi (d a : Nat) (s : State) : Host.Outcome State Fault Refusal :=
  perLaneAlu s (Info.of 1 false false false) (fp1 d a (fun _ => fpSinpi))

/-- `v.fcospi` (R117, R118). -/
def execVFcospi (d a : Nat) (s : State) : Host.Outcome State Fault Refusal :=
  perLaneAlu s (Info.of 1 false false false) (fp1 d a (fun _ => fpCospi))

/-- `v.ftanh` (R117, R118). -/
def execVFtanh (d a : Nat) (s : State) : Host.Outcome State Fault Refusal :=
  perLaneAlu s (Info.of 1 false false false) (fp1 d a (fun _ => fpTanh))

/-- `v.fsqrt` (R117). -/
def execVFsqrt (d a : Nat) (s : State) : Host.Outcome State Fault Refusal :=
  perLaneAlu s (Info.of 1 false false true) (fp1 d a fpSqrt)

/-- `v.frint.ne` (R119). -/
def execVFrintNe (d a : Nat) (s : State) : Host.Outcome State Fault Refusal :=
  perLaneAlu s (Info.of 1 false false false) (fp1 d a (fun _ => fpRint .rne))

/-- `v.frint.z` (R119). -/
def execVFrintZ (d a : Nat) (s : State) : Host.Outcome State Fault Refusal :=
  perLaneAlu s (Info.of 1 false false false) (fp1 d a (fun _ => fpRint .rz))

/-- `v.frint.dn` (R119). -/
def execVFrintDn (d a : Nat) (s : State) : Host.Outcome State Fault Refusal :=
  perLaneAlu s (Info.of 1 false false false) (fp1 d a (fun _ => fpRint .rdn))

/-- `v.frint.up` (R119). -/
def execVFrintUp (d a : Nat) (s : State) : Host.Outcome State Fault Refusal :=
  perLaneAlu s (Info.of 1 false false false) (fp1 d a (fun _ => fpRint .rup))

/-- `v.fadd.f16x2` (R120). -/
def execVFaddF16x2 (d a b : Nat) (s : State) : Host.Outcome State Fault Refusal :=
  perLaneAlu s (Info.of 1 false false true) (fp2 d a b (fun m => packed (fpAdd .f16 m)))

/-- `v.fsub.f16x2` (R120). -/
def execVFsubF16x2 (d a b : Nat) (s : State) : Host.Outcome State Fault Refusal :=
  perLaneAlu s (Info.of 1 false false true) (fp2 d a b (fun m => packed (fpSub .f16 m)))

/-- `v.fmul.f16x2` (R120). -/
def execVFmulF16x2 (d a b : Nat) (s : State) : Host.Outcome State Fault Refusal :=
  perLaneAlu s (Info.of 1 false false true) (fp2 d a b (fun m => packed (fpMul .f16 m)))

/-- `v.ffma.f16x2` (R120, R103). -/
def execVFfmaF16x2 (d a b : Nat) (s : State) : Host.Outcome State Fault Refusal :=
  perLaneAlu s (Info.of 1 false true true) (fp3 d a b (fun m => packed3 (fpFma .f16 m)))

/-- `v.fmin.f16x2` (R120). -/
def execVFminF16x2 (d a b : Nat) (s : State) : Host.Outcome State Fault Refusal :=
  perLaneAlu s (Info.of 1 false false false) (fp2 d a b (fun _ => packed (fpMin .f16)))

/-- `v.fmax.f16x2` (R120). -/
def execVFmaxF16x2 (d a b : Nat) (s : State) : Host.Outcome State Fault Refusal :=
  perLaneAlu s (Info.of 1 false false false) (fp2 d a b (fun _ => packed (fpMax .f16)))

/-- `v.fadd.bf16x2` (R120). -/
def execVFaddBf16x2 (d a b : Nat) (s : State) : Host.Outcome State Fault Refusal :=
  perLaneAlu s (Info.of 1 false false true) (fp2 d a b (fun m => packed (fpAdd .bf16 m)))

/-- `v.fsub.bf16x2` (R120). -/
def execVFsubBf16x2 (d a b : Nat) (s : State) : Host.Outcome State Fault Refusal :=
  perLaneAlu s (Info.of 1 false false true) (fp2 d a b (fun m => packed (fpSub .bf16 m)))

/-- `v.fmul.bf16x2` (R120). -/
def execVFmulBf16x2 (d a b : Nat) (s : State) : Host.Outcome State Fault Refusal :=
  perLaneAlu s (Info.of 1 false false true) (fp2 d a b (fun m => packed (fpMul .bf16 m)))

/-- `v.ffma.bf16x2` (R120, R103). -/
def execVFfmaBf16x2 (d a b : Nat) (s : State) : Host.Outcome State Fault Refusal :=
  perLaneAlu s (Info.of 1 false true true) (fp3 d a b (fun m => packed3 (fpFma .bf16 m)))

/-- `v.fmin.bf16x2` (R120). -/
def execVFminBf16x2 (d a b : Nat) (s : State) : Host.Outcome State Fault Refusal :=
  perLaneAlu s (Info.of 1 false false false) (fp2 d a b (fun _ => packed (fpMin .bf16)))

/-- `v.fmax.bf16x2` (R120). -/
def execVFmaxBf16x2 (d a b : Nat) (s : State) : Host.Outcome State Fault Refusal :=
  perLaneAlu s (Info.of 1 false false false) (fp2 d a b (fun _ => packed (fpMax .bf16)))

/-- `v.cvt` (R257, R258). -/
def execVCvt (f d a src t : Nat) (s : State) : Host.Outcome State Fault Refusal :=
  perLaneAlu s (cvtInfo 1 f d a src t) (cvtAlu f d a src t)

end Sys2Proof.Machine
end

