-- ==== Sys2Proof/Machine/AluInt.lean ====
section
/-! DEFINITION. The integer functions of majors 0x00 to 0x05 (R106 to R111). -/

namespace Sys2Proof.Machine

/-! ### The values -/

/-- An exact integer kept to its low 32 bits (R7). -/
def low32 (i : Int) : Nat := (BitVec.ofInt 32 i).toNat

def intAdd (a b : Nat) : Nat := a + b
def intSub (a b : Nat) : Nat := low32 ((a : Int) - b)
def intMullo (a b : Nat) : Nat := a * b
def intMulhiS (a b : Nat) : Nat := low32 ((signed 32 a * signed 32 b) / 2 ^ 32)
def intMulhiZ (a b : Nat) : Nat := a * b / 2 ^ 32
def intMad (a b c : Nat) : Nat := a * b + c
def intMinS (a b : Nat) : Nat := if signed 32 a ≤ signed 32 b then a else b
def intMaxS (a b : Nat) : Nat := if signed 32 a ≥ signed 32 b then a else b
def intMinZ (a b : Nat) : Nat := min a b
def intMaxZ (a b : Nat) : Nat := max a b
def intAbsdiff (a b : Nat) : Nat := (signed 32 a - signed 32 b).natAbs

/-- Clamped to −2^31 … 2^31 − 1. -/
def clamp32 (i : Int) : Nat := low32 (max (-(2 ^ 31)) (min (2 ^ 31 - 1) i))

def intAddsatS (a b : Nat) : Nat := clamp32 (signed 32 a + signed 32 b)
def intSubsatS (a b : Nat) : Nat := clamp32 (signed 32 a - signed 32 b)
def intAvgZ (a b : Nat) : Nat := (a + b + 1) / 2
def bitAnd (a b : Nat) : Nat := a &&& b
def bitOr (a b : Nat) : Nat := a ||| b
def bitXor (a b : Nat) : Nat := a ^^^ b
def bitNot (a : Nat) : Nat := 2 ^ 32 - 1 - a % 2 ^ 32
def bitAndn (a b : Nat) : Nat := a &&& bitNot b
def bitOrn (a b : Nat) : Nat := a ||| bitNot b
def bitXnor (a b : Nat) : Nat := bitNot (a ^^^ b)
def bitShl (a n : Nat) : Nat := if n < 32 then a * 2 ^ n else 0
def bitShr (a n : Nat) : Nat := if n < 32 then a / 2 ^ n else 0
def bitSar (a n : Nat) : Nat := low32 (signed 32 a / 2 ^ (min n 31))
def bitRotl (a n : Nat) : Nat := a * 2 ^ (n % 32) % 2 ^ 32 + a / 2 ^ (32 - n % 32)
def bitRotr (a n : Nat) : Nat := bitRotl a (32 - n % 32)
def bitClz (a : Nat) : Nat := if a = 0 then 32 else 31 - Nat.log2 a
def bitPopc (a : Nat) : Nat := ((List.range 32).filter (fun i => a / 2 ^ i % 2 == 1)).length
def bitBrev (a : Nat) : Nat := (List.range 32).foldl (fun n i => n + a / 2 ^ i % 2 * 2 ^ (31 - i)) 0

/-- The field that `bfe` and `bfi` name in b (R110): its position and length. -/
def fieldPos (b : Nat) : Nat := b % 2 ^ 8
def fieldLen (b : Nat) : Nat := min (b / 2 ^ 8 % 2 ^ 8) 32

def bfeZ (a b : Nat) : Nat := a / 2 ^ fieldPos b % 2 ^ fieldLen b

def bfeS (a b : Nat) : Nat :=
  let len := fieldLen b
  let f : Int := (signed 32 a / 2 ^ fieldPos b) % 2 ^ len
  low32 (if len > 0 ∧ f ≥ 2 ^ (len - 1) then f - 2 ^ len else f)

def bfi (a b c : Nat) : Nat :=
  let pos := fieldPos b
  let m := (2 ^ fieldLen b - 1) * 2 ^ pos
  c - (c &&& m) + (a * 2 ^ pos &&& m)

/-- A byte with its bits in reverse order. -/
def reverseByte (y : Nat) : Nat := (List.range 8).foldl (fun n i => n + y / 2 ^ i % 2 * 2 ^ (7 - i)) 0

/-- One output byte of `prmt`, the byte below it being `below`. -/
def prmtByte (x c i below : Nat) : Nat :=
  let y := x / 2 ^ (8 * (c / 2 ^ (3 * i) % 8)) % 256
  let y := if bitAt c (16 + i) then reverseByte y else y
  let y := if bitAt c (12 + i) then 0 else y
  if i > 0 && bitAt c (20 + i) then 255 * (below / 2 ^ 7) else y

def prmt (a b c : Nat) : Nat :=
  let x := b * 2 ^ 32 + a
  let d0 := prmtByte x c 0 0
  let d1 := prmtByte x c 1 d0
  let d2 := prmtByte x c 2 d1
  let d3 := prmtByte x c 3 d2
  d0 + 2 ^ 8 * d1 + 2 ^ 16 * d2 + 2 ^ 24 * d3

def add64 (a b : Nat) : Nat := a + b
def sub64 (a b : Nat) : Nat := a + 2 ^ 64 - b
def shl64 (a n : Nat) : Nat := if n < 64 then a * 2 ^ n else 0
def shr64 (a n : Nat) : Nat := if n < 64 then a / 2 ^ n else 0
def sar64 (a n : Nat) : Nat := (BitVec.ofInt 64 (signed 64 a / 2 ^ (min n 63))).toNat
def mul64lo (a b : Nat) : Nat := a * b

/-- A non-zero imm18[17:7] with `h.imm` (R60, R111): judged where the group is known. -/
def moviBad (s : State) (i : Nat) : Nat :=
  match s.cur.bind (fun c => s.warp? c.warp) with
  | none => 0
  | some w => if w.group.any (fun h => fld h.toNat 25 7 == 0x7E) then held i 7 11 else 0

/-! ### The instructions -/

/-- `s.add` (R106). -/
def execSAdd (d a b : Nat) (s : State) : Host.Outcome State Fault Refusal :=
  uniformAlu s (Info.of 0 false false false) (alu2 d a b intAdd)

/-- `s.add d, a, imm` (R106, R102). -/
def execSAddImm (d a i : Nat) (s : State) : Host.Outcome State Fault Refusal :=
  uniformAlu s (Info.of 0 true false false) (alu2i d a i intAdd)

/-- `v.add` (R106, R28). -/
def execVAdd (d a b : Nat) (s : State) : Host.Outcome State Fault Refusal :=
  laneAlu s (Info.of 1 false false false) (alu2 d a b intAdd) (keepRR keepAdd a b)

/-- `v.add d, a, imm` (R106, R28, R102). -/
def execVAddImm (d a i : Nat) (s : State) : Host.Outcome State Fault Refusal :=
  laneAlu s (Info.of 1 true false false) (alu2i d a i intAdd) (keepRI keepAdd a i)

/-- `s.sub` (R106). -/
def execSSub (d a b : Nat) (s : State) : Host.Outcome State Fault Refusal :=
  uniformAlu s (Info.of 0 false false false) (alu2 d a b intSub)

/-- `s.sub d, a, imm` (R106, R102). -/
def execSSubImm (d a i : Nat) (s : State) : Host.Outcome State Fault Refusal :=
  uniformAlu s (Info.of 0 true false false) (alu2i d a i intSub)

/-- `v.sub` (R106, R28). -/
def execVSub (d a b : Nat) (s : State) : Host.Outcome State Fault Refusal :=
  laneAlu s (Info.of 1 false false false) (alu2 d a b intSub) (keepRR keepSub a b)

/-- `v.sub d, a, imm` (R106, R28, R102). -/
def execVSubImm (d a i : Nat) (s : State) : Host.Outcome State Fault Refusal :=
  laneAlu s (Info.of 1 true false false) (alu2i d a i intSub) (keepRI keepSub a i)

/-- `s.mullo` (R106). -/
def execSMullo (d a b : Nat) (s : State) : Host.Outcome State Fault Refusal :=
  uniformAlu s (Info.of 0 false false false) (alu2 d a b intMullo)

/-- `s.mullo d, a, imm` (R106, R102). -/
def execSMulloImm (d a i : Nat) (s : State) : Host.Outcome State Fault Refusal :=
  uniformAlu s (Info.of 0 true false false) (alu2i d a i intMullo)

/-- `v.mullo` (R106, R28). -/
def execVMullo (d a b : Nat) (s : State) : Host.Outcome State Fault Refusal :=
  laneAlu s (Info.of 1 false false false) (alu2 d a b intMullo) (keepRR keepMul a b)

/-- `v.mullo d, a, imm` (R106, R28, R102). -/
def execVMulloImm (d a i : Nat) (s : State) : Host.Outcome State Fault Refusal :=
  laneAlu s (Info.of 1 true false false) (alu2i d a i intMullo) (keepRI keepMul a i)

/-- `s.mulhi.s` (R106). -/
def execSMulhiS (d a b : Nat) (s : State) : Host.Outcome State Fault Refusal :=
  uniformAlu s (Info.of 0 false false false) (alu2 d a b intMulhiS)

/-- `s.mulhi.s d, a, imm` (R106, R102). -/
def execSMulhiSImm (d a i : Nat) (s : State) : Host.Outcome State Fault Refusal :=
  uniformAlu s (Info.of 0 true false false) (alu2i d a i intMulhiS)

/-- `v.mulhi.s` (R106). -/
def execVMulhiS (d a b : Nat) (s : State) : Host.Outcome State Fault Refusal :=
  perLaneAlu s (Info.of 1 false false false) (alu2 d a b intMulhiS)

/-- `v.mulhi.s d, a, imm` (R106, R102). -/
def execVMulhiSImm (d a i : Nat) (s : State) : Host.Outcome State Fault Refusal :=
  perLaneAlu s (Info.of 1 true false false) (alu2i d a i intMulhiS)

/-- `s.mulhi.z` (R106). -/
def execSMulhiZ (d a b : Nat) (s : State) : Host.Outcome State Fault Refusal :=
  uniformAlu s (Info.of 0 false false false) (alu2 d a b intMulhiZ)

/-- `s.mulhi.z d, a, imm` (R106, R102). -/
def execSMulhiZImm (d a i : Nat) (s : State) : Host.Outcome State Fault Refusal :=
  uniformAlu s (Info.of 0 true false false) (alu2i d a i intMulhiZ)

/-- `v.mulhi.z` (R106). -/
def execVMulhiZ (d a b : Nat) (s : State) : Host.Outcome State Fault Refusal :=
  perLaneAlu s (Info.of 1 false false false) (alu2 d a b intMulhiZ)

/-- `v.mulhi.z d, a, imm` (R106, R102). -/
def execVMulhiZImm (d a i : Nat) (s : State) : Host.Outcome State Fault Refusal :=
  perLaneAlu s (Info.of 1 true false false) (alu2i d a i intMulhiZ)

/-- `s.min.s` (R106). -/
def execSMinS (d a b : Nat) (s : State) : Host.Outcome State Fault Refusal :=
  uniformAlu s (Info.of 0 false false false) (alu2 d a b intMinS)

/-- `s.min.s d, a, imm` (R106, R102). -/
def execSMinSImm (d a i : Nat) (s : State) : Host.Outcome State Fault Refusal :=
  uniformAlu s (Info.of 0 true false false) (alu2i d a i intMinS)

/-- `v.min.s` (R106). -/
def execVMinS (d a b : Nat) (s : State) : Host.Outcome State Fault Refusal :=
  perLaneAlu s (Info.of 1 false false false) (alu2 d a b intMinS)

/-- `v.min.s d, a, imm` (R106, R102). -/
def execVMinSImm (d a i : Nat) (s : State) : Host.Outcome State Fault Refusal :=
  perLaneAlu s (Info.of 1 true false false) (alu2i d a i intMinS)

/-- `s.max.s` (R106). -/
def execSMaxS (d a b : Nat) (s : State) : Host.Outcome State Fault Refusal :=
  uniformAlu s (Info.of 0 false false false) (alu2 d a b intMaxS)

/-- `s.max.s d, a, imm` (R106, R102). -/
def execSMaxSImm (d a i : Nat) (s : State) : Host.Outcome State Fault Refusal :=
  uniformAlu s (Info.of 0 true false false) (alu2i d a i intMaxS)

/-- `v.max.s` (R106). -/
def execVMaxS (d a b : Nat) (s : State) : Host.Outcome State Fault Refusal :=
  perLaneAlu s (Info.of 1 false false false) (alu2 d a b intMaxS)

/-- `v.max.s d, a, imm` (R106, R102). -/
def execVMaxSImm (d a i : Nat) (s : State) : Host.Outcome State Fault Refusal :=
  perLaneAlu s (Info.of 1 true false false) (alu2i d a i intMaxS)

/-- `s.min.z` (R106). -/
def execSMinZ (d a b : Nat) (s : State) : Host.Outcome State Fault Refusal :=
  uniformAlu s (Info.of 0 false false false) (alu2 d a b intMinZ)

/-- `s.min.z d, a, imm` (R106, R102). -/
def execSMinZImm (d a i : Nat) (s : State) : Host.Outcome State Fault Refusal :=
  uniformAlu s (Info.of 0 true false false) (alu2i d a i intMinZ)

/-- `v.min.z` (R106). -/
def execVMinZ (d a b : Nat) (s : State) : Host.Outcome State Fault Refusal :=
  perLaneAlu s (Info.of 1 false false false) (alu2 d a b intMinZ)

/-- `v.min.z d, a, imm` (R106, R102). -/
def execVMinZImm (d a i : Nat) (s : State) : Host.Outcome State Fault Refusal :=
  perLaneAlu s (Info.of 1 true false false) (alu2i d a i intMinZ)

/-- `s.max.z` (R106). -/
def execSMaxZ (d a b : Nat) (s : State) : Host.Outcome State Fault Refusal :=
  uniformAlu s (Info.of 0 false false false) (alu2 d a b intMaxZ)

/-- `s.max.z d, a, imm` (R106, R102). -/
def execSMaxZImm (d a i : Nat) (s : State) : Host.Outcome State Fault Refusal :=
  uniformAlu s (Info.of 0 true false false) (alu2i d a i intMaxZ)

/-- `v.max.z` (R106). -/
def execVMaxZ (d a b : Nat) (s : State) : Host.Outcome State Fault Refusal :=
  perLaneAlu s (Info.of 1 false false false) (alu2 d a b intMaxZ)

/-- `v.max.z d, a, imm` (R106, R102). -/
def execVMaxZImm (d a i : Nat) (s : State) : Host.Outcome State Fault Refusal :=
  perLaneAlu s (Info.of 1 true false false) (alu2i d a i intMaxZ)

/-- `s.absdiff` (R106). -/
def execSAbsdiff (d a b : Nat) (s : State) : Host.Outcome State Fault Refusal :=
  uniformAlu s (Info.of 0 false false false) (alu2 d a b intAbsdiff)

/-- `s.absdiff d, a, imm` (R106, R102). -/
def execSAbsdiffImm (d a i : Nat) (s : State) : Host.Outcome State Fault Refusal :=
  uniformAlu s (Info.of 0 true false false) (alu2i d a i intAbsdiff)

/-- `v.absdiff` (R106). -/
def execVAbsdiff (d a b : Nat) (s : State) : Host.Outcome State Fault Refusal :=
  perLaneAlu s (Info.of 1 false false false) (alu2 d a b intAbsdiff)

/-- `v.absdiff d, a, imm` (R106, R102). -/
def execVAbsdiffImm (d a i : Nat) (s : State) : Host.Outcome State Fault Refusal :=
  perLaneAlu s (Info.of 1 true false false) (alu2i d a i intAbsdiff)

/-- `s.addsat.s` (R106). -/
def execSAddsatS (d a b : Nat) (s : State) : Host.Outcome State Fault Refusal :=
  uniformAlu s (Info.of 0 false false false) (alu2 d a b intAddsatS)

/-- `s.addsat.s d, a, imm` (R106, R102). -/
def execSAddsatSImm (d a i : Nat) (s : State) : Host.Outcome State Fault Refusal :=
  uniformAlu s (Info.of 0 true false false) (alu2i d a i intAddsatS)

/-- `v.addsat.s` (R106). -/
def execVAddsatS (d a b : Nat) (s : State) : Host.Outcome State Fault Refusal :=
  perLaneAlu s (Info.of 1 false false false) (alu2 d a b intAddsatS)

/-- `v.addsat.s d, a, imm` (R106, R102). -/
def execVAddsatSImm (d a i : Nat) (s : State) : Host.Outcome State Fault Refusal :=
  perLaneAlu s (Info.of 1 true false false) (alu2i d a i intAddsatS)

/-- `s.subsat.s` (R106). -/
def execSSubsatS (d a b : Nat) (s : State) : Host.Outcome State Fault Refusal :=
  uniformAlu s (Info.of 0 false false false) (alu2 d a b intSubsatS)

/-- `s.subsat.s d, a, imm` (R106, R102). -/
def execSSubsatSImm (d a i : Nat) (s : State) : Host.Outcome State Fault Refusal :=
  uniformAlu s (Info.of 0 true false false) (alu2i d a i intSubsatS)

/-- `v.subsat.s` (R106). -/
def execVSubsatS (d a b : Nat) (s : State) : Host.Outcome State Fault Refusal :=
  perLaneAlu s (Info.of 1 false false false) (alu2 d a b intSubsatS)

/-- `v.subsat.s d, a, imm` (R106, R102). -/
def execVSubsatSImm (d a i : Nat) (s : State) : Host.Outcome State Fault Refusal :=
  perLaneAlu s (Info.of 1 true false false) (alu2i d a i intSubsatS)

/-- `s.avg.z` (R106). -/
def execSAvgZ (d a b : Nat) (s : State) : Host.Outcome State Fault Refusal :=
  uniformAlu s (Info.of 0 false false false) (alu2 d a b intAvgZ)

/-- `s.avg.z d, a, imm` (R106, R102). -/
def execSAvgZImm (d a i : Nat) (s : State) : Host.Outcome State Fault Refusal :=
  uniformAlu s (Info.of 0 true false false) (alu2i d a i intAvgZ)

/-- `v.avg.z` (R106). -/
def execVAvgZ (d a b : Nat) (s : State) : Host.Outcome State Fault Refusal :=
  perLaneAlu s (Info.of 1 false false false) (alu2 d a b intAvgZ)

/-- `v.avg.z d, a, imm` (R106, R102). -/
def execVAvgZImm (d a i : Nat) (s : State) : Host.Outcome State Fault Refusal :=
  perLaneAlu s (Info.of 1 true false false) (alu2i d a i intAvgZ)

/-- `s.mad` (R106, R103). -/
def execSMad (d a b : Nat) (s : State) : Host.Outcome State Fault Refusal :=
  uniformAlu s (Info.of 0 false true false) (alu3 d a b intMad)

/-- `s.mad d, a, imm` (R106, R103). -/
def execSMadImm (d a i : Nat) (s : State) : Host.Outcome State Fault Refusal :=
  uniformAlu s (Info.of 0 true true false) (alu3i d a i intMad)

/-- `v.mad` (R106, R103). -/
def execVMad (d a b : Nat) (s : State) : Host.Outcome State Fault Refusal :=
  perLaneAlu s (Info.of 1 false true false) (alu3 d a b intMad)

/-- `v.mad d, a, imm` (R106, R103). -/
def execVMadImm (d a i : Nat) (s : State) : Host.Outcome State Fault Refusal :=
  perLaneAlu s (Info.of 1 true true false) (alu3i d a i intMad)

/-- `s.and` (R108). -/
def execSAnd (d a b : Nat) (s : State) : Host.Outcome State Fault Refusal :=
  uniformAlu s (Info.of 0 false false false) (alu2 d a b bitAnd)

/-- `s.and d, a, imm` (R108, R102). -/
def execSAndImm (d a i : Nat) (s : State) : Host.Outcome State Fault Refusal :=
  uniformAlu s (Info.of 0 true false false) (alu2i d a i bitAnd)

/-- `v.and` (R108). -/
def execVAnd (d a b : Nat) (s : State) : Host.Outcome State Fault Refusal :=
  perLaneAlu s (Info.of 1 false false false) (alu2 d a b bitAnd)

/-- `v.and d, a, imm` (R108, R102). -/
def execVAndImm (d a i : Nat) (s : State) : Host.Outcome State Fault Refusal :=
  perLaneAlu s (Info.of 1 true false false) (alu2i d a i bitAnd)

/-- `s.or` (R108). -/
def execSOr (d a b : Nat) (s : State) : Host.Outcome State Fault Refusal :=
  uniformAlu s (Info.of 0 false false false) (alu2 d a b bitOr)

/-- `s.or d, a, imm` (R108, R102). -/
def execSOrImm (d a i : Nat) (s : State) : Host.Outcome State Fault Refusal :=
  uniformAlu s (Info.of 0 true false false) (alu2i d a i bitOr)

/-- `v.or` (R108). -/
def execVOr (d a b : Nat) (s : State) : Host.Outcome State Fault Refusal :=
  perLaneAlu s (Info.of 1 false false false) (alu2 d a b bitOr)

/-- `v.or d, a, imm` (R108, R102). -/
def execVOrImm (d a i : Nat) (s : State) : Host.Outcome State Fault Refusal :=
  perLaneAlu s (Info.of 1 true false false) (alu2i d a i bitOr)

/-- `s.xor` (R108). -/
def execSXor (d a b : Nat) (s : State) : Host.Outcome State Fault Refusal :=
  uniformAlu s (Info.of 0 false false false) (alu2 d a b bitXor)

/-- `s.xor d, a, imm` (R108, R102). -/
def execSXorImm (d a i : Nat) (s : State) : Host.Outcome State Fault Refusal :=
  uniformAlu s (Info.of 0 true false false) (alu2i d a i bitXor)

/-- `v.xor` (R108). -/
def execVXor (d a b : Nat) (s : State) : Host.Outcome State Fault Refusal :=
  perLaneAlu s (Info.of 1 false false false) (alu2 d a b bitXor)

/-- `v.xor d, a, imm` (R108, R102). -/
def execVXorImm (d a i : Nat) (s : State) : Host.Outcome State Fault Refusal :=
  perLaneAlu s (Info.of 1 true false false) (alu2i d a i bitXor)

/-- `s.andn` (R108). -/
def execSAndn (d a b : Nat) (s : State) : Host.Outcome State Fault Refusal :=
  uniformAlu s (Info.of 0 false false false) (alu2 d a b bitAndn)

/-- `s.andn d, a, imm` (R108, R102). -/
def execSAndnImm (d a i : Nat) (s : State) : Host.Outcome State Fault Refusal :=
  uniformAlu s (Info.of 0 true false false) (alu2i d a i bitAndn)

/-- `v.andn` (R108). -/
def execVAndn (d a b : Nat) (s : State) : Host.Outcome State Fault Refusal :=
  perLaneAlu s (Info.of 1 false false false) (alu2 d a b bitAndn)

/-- `v.andn d, a, imm` (R108, R102). -/
def execVAndnImm (d a i : Nat) (s : State) : Host.Outcome State Fault Refusal :=
  perLaneAlu s (Info.of 1 true false false) (alu2i d a i bitAndn)

/-- `s.orn` (R108). -/
def execSOrn (d a b : Nat) (s : State) : Host.Outcome State Fault Refusal :=
  uniformAlu s (Info.of 0 false false false) (alu2 d a b bitOrn)

/-- `s.orn d, a, imm` (R108, R102). -/
def execSOrnImm (d a i : Nat) (s : State) : Host.Outcome State Fault Refusal :=
  uniformAlu s (Info.of 0 true false false) (alu2i d a i bitOrn)

/-- `v.orn` (R108). -/
def execVOrn (d a b : Nat) (s : State) : Host.Outcome State Fault Refusal :=
  perLaneAlu s (Info.of 1 false false false) (alu2 d a b bitOrn)

/-- `v.orn d, a, imm` (R108, R102). -/
def execVOrnImm (d a i : Nat) (s : State) : Host.Outcome State Fault Refusal :=
  perLaneAlu s (Info.of 1 true false false) (alu2i d a i bitOrn)

/-- `s.xnor` (R108). -/
def execSXnor (d a b : Nat) (s : State) : Host.Outcome State Fault Refusal :=
  uniformAlu s (Info.of 0 false false false) (alu2 d a b bitXnor)

/-- `s.xnor d, a, imm` (R108, R102). -/
def execSXnorImm (d a i : Nat) (s : State) : Host.Outcome State Fault Refusal :=
  uniformAlu s (Info.of 0 true false false) (alu2i d a i bitXnor)

/-- `v.xnor` (R108). -/
def execVXnor (d a b : Nat) (s : State) : Host.Outcome State Fault Refusal :=
  perLaneAlu s (Info.of 1 false false false) (alu2 d a b bitXnor)

/-- `v.xnor d, a, imm` (R108, R102). -/
def execVXnorImm (d a i : Nat) (s : State) : Host.Outcome State Fault Refusal :=
  perLaneAlu s (Info.of 1 true false false) (alu2i d a i bitXnor)

/-- `s.shl` (R108). -/
def execSShl (d a b : Nat) (s : State) : Host.Outcome State Fault Refusal :=
  uniformAlu s (Info.of 0 false false false) (alu2 d a b bitShl)

/-- `s.shl d, a, imm` (R108, R102). -/
def execSShlImm (d a i : Nat) (s : State) : Host.Outcome State Fault Refusal :=
  uniformAlu s (Info.of 0 true false false) (alu2i d a i bitShl)

/-- `v.shl` (R108, R28). -/
def execVShl (d a b : Nat) (s : State) : Host.Outcome State Fault Refusal :=
  laneAlu s (Info.of 1 false false false) (alu2 d a b bitShl) (keepRR keepShl a b)

/-- `v.shl d, a, imm` (R108, R28, R102). -/
def execVShlImm (d a i : Nat) (s : State) : Host.Outcome State Fault Refusal :=
  laneAlu s (Info.of 1 true false false) (alu2i d a i bitShl) (keepRI keepShl a i)

/-- `s.shr` (R108). -/
def execSShr (d a b : Nat) (s : State) : Host.Outcome State Fault Refusal :=
  uniformAlu s (Info.of 0 false false false) (alu2 d a b bitShr)

/-- `s.shr d, a, imm` (R108, R102). -/
def execSShrImm (d a i : Nat) (s : State) : Host.Outcome State Fault Refusal :=
  uniformAlu s (Info.of 0 true false false) (alu2i d a i bitShr)

/-- `v.shr` (R108). -/
def execVShr (d a b : Nat) (s : State) : Host.Outcome State Fault Refusal :=
  perLaneAlu s (Info.of 1 false false false) (alu2 d a b bitShr)

/-- `v.shr d, a, imm` (R108, R102). -/
def execVShrImm (d a i : Nat) (s : State) : Host.Outcome State Fault Refusal :=
  perLaneAlu s (Info.of 1 true false false) (alu2i d a i bitShr)

/-- `s.sar` (R108). -/
def execSSar (d a b : Nat) (s : State) : Host.Outcome State Fault Refusal :=
  uniformAlu s (Info.of 0 false false false) (alu2 d a b bitSar)

/-- `s.sar d, a, imm` (R108, R102). -/
def execSSarImm (d a i : Nat) (s : State) : Host.Outcome State Fault Refusal :=
  uniformAlu s (Info.of 0 true false false) (alu2i d a i bitSar)

/-- `v.sar` (R108). -/
def execVSar (d a b : Nat) (s : State) : Host.Outcome State Fault Refusal :=
  perLaneAlu s (Info.of 1 false false false) (alu2 d a b bitSar)

/-- `v.sar d, a, imm` (R108, R102). -/
def execVSarImm (d a i : Nat) (s : State) : Host.Outcome State Fault Refusal :=
  perLaneAlu s (Info.of 1 true false false) (alu2i d a i bitSar)

/-- `s.rotl` (R108). -/
def execSRotl (d a b : Nat) (s : State) : Host.Outcome State Fault Refusal :=
  uniformAlu s (Info.of 0 false false false) (alu2 d a b bitRotl)

/-- `s.rotl d, a, imm` (R108, R102). -/
def execSRotlImm (d a i : Nat) (s : State) : Host.Outcome State Fault Refusal :=
  uniformAlu s (Info.of 0 true false false) (alu2i d a i bitRotl)

/-- `v.rotl` (R108). -/
def execVRotl (d a b : Nat) (s : State) : Host.Outcome State Fault Refusal :=
  perLaneAlu s (Info.of 1 false false false) (alu2 d a b bitRotl)

/-- `v.rotl d, a, imm` (R108, R102). -/
def execVRotlImm (d a i : Nat) (s : State) : Host.Outcome State Fault Refusal :=
  perLaneAlu s (Info.of 1 true false false) (alu2i d a i bitRotl)

/-- `s.rotr` (R108). -/
def execSRotr (d a b : Nat) (s : State) : Host.Outcome State Fault Refusal :=
  uniformAlu s (Info.of 0 false false false) (alu2 d a b bitRotr)

/-- `s.rotr d, a, imm` (R108, R102). -/
def execSRotrImm (d a i : Nat) (s : State) : Host.Outcome State Fault Refusal :=
  uniformAlu s (Info.of 0 true false false) (alu2i d a i bitRotr)

/-- `v.rotr` (R108). -/
def execVRotr (d a b : Nat) (s : State) : Host.Outcome State Fault Refusal :=
  perLaneAlu s (Info.of 1 false false false) (alu2 d a b bitRotr)

/-- `v.rotr d, a, imm` (R108, R102). -/
def execVRotrImm (d a i : Nat) (s : State) : Host.Outcome State Fault Refusal :=
  perLaneAlu s (Info.of 1 true false false) (alu2i d a i bitRotr)

/-- `s.clz` (R108). -/
def execSClz (d a : Nat) (s : State) : Host.Outcome State Fault Refusal :=
  uniformAlu s (Info.of 0 false false false) (alu1 d a bitClz)

/-- `v.clz` (R108). -/
def execVClz (d a : Nat) (s : State) : Host.Outcome State Fault Refusal :=
  perLaneAlu s (Info.of 1 false false false) (alu1 d a bitClz)

/-- `s.popc` (R108). -/
def execSPopc (d a : Nat) (s : State) : Host.Outcome State Fault Refusal :=
  uniformAlu s (Info.of 0 false false false) (alu1 d a bitPopc)

/-- `v.popc` (R108). -/
def execVPopc (d a : Nat) (s : State) : Host.Outcome State Fault Refusal :=
  perLaneAlu s (Info.of 1 false false false) (alu1 d a bitPopc)

/-- `s.brev` (R108). -/
def execSBrev (d a : Nat) (s : State) : Host.Outcome State Fault Refusal :=
  uniformAlu s (Info.of 0 false false false) (alu1 d a bitBrev)

/-- `v.brev` (R108). -/
def execVBrev (d a : Nat) (s : State) : Host.Outcome State Fault Refusal :=
  perLaneAlu s (Info.of 1 false false false) (alu1 d a bitBrev)

/-- `s.not` (R108). -/
def execSNot (d a : Nat) (s : State) : Host.Outcome State Fault Refusal :=
  uniformAlu s (Info.of 0 false false false) (alu1 d a bitNot)

/-- `v.not` (R108). -/
def execVNot (d a : Nat) (s : State) : Host.Outcome State Fault Refusal :=
  perLaneAlu s (Info.of 1 false false false) (alu1 d a bitNot)

/-- `s.mov` (R108). -/
def execSMov (d a : Nat) (s : State) : Host.Outcome State Fault Refusal :=
  uniformAlu s (Info.of 0 false false false) (alu1 d a id)

/-- `v.mov` (R108, R28). -/
def execVMov (d a : Nat) (s : State) : Host.Outcome State Fault Refusal :=
  laneAlu s (Info.of 1 false false false) (alu1 d a id) (fun _ w => keepMov (w.form a))

/-- `s.mov d, imm` (R108). -/
def execSMovImm (d i : Nat) (s : State) : Host.Outcome State Fault Refusal :=
  uniformAlu s (Info.of 0 true false false) (fun h => ⟨[], [d], fun _ => ([imm7 h i], 0)⟩)

/-- `v.mov d, imm` (R108). -/
def execVMovImm (d i : Nat) (s : State) : Host.Outcome State Fault Refusal :=
  perLaneAlu s (Info.of 1 true false false) (fun h => ⟨[], [d], fun _ => ([imm7 h i], 0)⟩)

/-- `s.bfe.s` (R110). -/
def execSBfeS (d a b : Nat) (s : State) : Host.Outcome State Fault Refusal :=
  uniformAlu s (Info.of 0 false false false) (alu2 d a b bfeS)

/-- `s.bfe.z` (R110). -/
def execSBfeZ (d a b : Nat) (s : State) : Host.Outcome State Fault Refusal :=
  uniformAlu s (Info.of 0 false false false) (alu2 d a b bfeZ)

/-- `s.bfi` (R110, R103). -/
def execSBfi (d a b : Nat) (s : State) : Host.Outcome State Fault Refusal :=
  uniformAlu s (Info.of 0 false true false) (alu3 d a b bfi)

/-- `s.prmt` (R110, R103). -/
def execSPrmt (d a b : Nat) (s : State) : Host.Outcome State Fault Refusal :=
  uniformAlu s (Info.of 0 false true false) (alu3 d a b prmt)

/-- `s.add64` (R109). -/
def execSAdd64 (d a b : Nat) (s : State) : Host.Outcome State Fault Refusal :=
  uniformAlu s ((Info.of 0 false false false).bad (oddPairs d a b true true true)) (alu64 d a b add64)

/-- `s.sub64` (R109). -/
def execSSub64 (d a b : Nat) (s : State) : Host.Outcome State Fault Refusal :=
  uniformAlu s ((Info.of 0 false false false).bad (oddPairs d a b true true true)) (alu64 d a b sub64)

/-- `s.mul64lo` (R109). -/
def execSMul64lo (d a b : Nat) (s : State) : Host.Outcome State Fault Refusal :=
  uniformAlu s ((Info.of 0 false false false).bad (oddPairs d a b true true true)) (alu64 d a b mul64lo)

/-- `s.shl64` (R109). -/
def execSShl64 (d a b : Nat) (s : State) : Host.Outcome State Fault Refusal :=
  uniformAlu s ((Info.of 0 false false false).bad (oddPairs d a b true true false)) (alu64by d a b shl64)

/-- `s.shr64` (R109). -/
def execSShr64 (d a b : Nat) (s : State) : Host.Outcome State Fault Refusal :=
  uniformAlu s ((Info.of 0 false false false).bad (oddPairs d a b true true false)) (alu64by d a b shr64)

/-- `s.sar64` (R109). -/
def execSSar64 (d a b : Nat) (s : State) : Host.Outcome State Fault Refusal :=
  uniformAlu s ((Info.of 0 false false false).bad (oddPairs d a b true true false)) (alu64by d a b sar64)

/-- `s.movi` (R111). -/
def execSMovi (d i : Nat) (s : State) : Host.Outcome State Fault Refusal :=
  uniformAlu s ((Info.of 0 true false false).bad (moviBad s i)) (fun h => ⟨[], [d], fun _ => ([imm18 h i], 0)⟩)

/-- `v.bfe.s` (R110). -/
def execVBfeS (d a b : Nat) (s : State) : Host.Outcome State Fault Refusal :=
  perLaneAlu s (Info.of 1 false false false) (alu2 d a b bfeS)

/-- `v.bfe.z` (R110). -/
def execVBfeZ (d a b : Nat) (s : State) : Host.Outcome State Fault Refusal :=
  perLaneAlu s (Info.of 1 false false false) (alu2 d a b bfeZ)

/-- `v.bfi` (R110, R103). -/
def execVBfi (d a b : Nat) (s : State) : Host.Outcome State Fault Refusal :=
  perLaneAlu s (Info.of 1 false true false) (alu3 d a b bfi)

/-- `v.prmt` (R110, R103). -/
def execVPrmt (d a b : Nat) (s : State) : Host.Outcome State Fault Refusal :=
  perLaneAlu s (Info.of 1 false true false) (alu3 d a b prmt)

/-- `v.add64` (R109). -/
def execVAdd64 (d a b : Nat) (s : State) : Host.Outcome State Fault Refusal :=
  perLaneAlu s ((Info.of 1 false false false).bad (oddPairs d a b true true true)) (alu64 d a b add64)

/-- `v.sub64` (R109). -/
def execVSub64 (d a b : Nat) (s : State) : Host.Outcome State Fault Refusal :=
  perLaneAlu s ((Info.of 1 false false false).bad (oddPairs d a b true true true)) (alu64 d a b sub64)

/-- `v.mul64lo` (R109). -/
def execVMul64lo (d a b : Nat) (s : State) : Host.Outcome State Fault Refusal :=
  perLaneAlu s ((Info.of 1 false false false).bad (oddPairs d a b true true true)) (alu64 d a b mul64lo)

/-- `v.shl64` (R109). -/
def execVShl64 (d a b : Nat) (s : State) : Host.Outcome State Fault Refusal :=
  perLaneAlu s ((Info.of 1 false false false).bad (oddPairs d a b true true false)) (alu64by d a b shl64)

/-- `v.shr64` (R109). -/
def execVShr64 (d a b : Nat) (s : State) : Host.Outcome State Fault Refusal :=
  perLaneAlu s ((Info.of 1 false false false).bad (oddPairs d a b true true false)) (alu64by d a b shr64)

/-- `v.sar64` (R109). -/
def execVSar64 (d a b : Nat) (s : State) : Host.Outcome State Fault Refusal :=
  perLaneAlu s ((Info.of 1 false false false).bad (oddPairs d a b true true false)) (alu64by d a b sar64)

/-- `v.movi` (R111). -/
def execVMovi (d i : Nat) (s : State) : Host.Outcome State Fault Refusal :=
  perLaneAlu s ((Info.of 1 true false false).bad (moviBad s i)) (fun h => ⟨[], [d], fun _ => ([imm18 h i], 0)⟩)

end Sys2Proof.Machine
end

