-- ==== Sys2Proof/Machine/Access.lean ====
section
/-! DEFINITION. Accesses of warps: the checks at issue and their order (R177, R178), the order in which operations perform
(R179, R183, R194, R208, R215), and one lane's access performed at its home, at a window, at a kick register or at a
remote target (R155, R171, R176, R248, R352, R353, R362). -/

namespace Sys2Proof.Machine

/-! ### Checks at issue -/

/-- The form of an access (R178). -/
inductive Form where
  | load
  /-- a load that `m.tex` makes of a texel or a network -/
  | texel
  | store
  | atomic (remote : Bool)
  | reduce (remote : Bool)
  | monitor
  deriving DecidableEq, Repr

def Form.access : Form → Access
  | .load => .read
  | .texel => .read
  | .monitor => .read
  | .store => .write
  | _ => .atomic

/-- Access kind of cause 0x11 (R150). -/
def Form.kind : Form → Nat
  | .load => 0
  | .texel => 0
  | .monitor => 0
  | .store => 1
  | _ => 2

def Form.writes : Form → Bool
  | .load => false
  | .texel => false
  | .monitor => false
  | _ => true

/-- Whether the target serves the form (R155, R178, R248): the refusal, if it does not. `op` is the op field. -/
def notServed (f : Form) (op va size : Nat) (t : Target) : Option AccErr :=
  let unsupported := some (AccErr.trap 0x15 va [op])
  match t, f with
  | .tile _ _, .load => none
  | .tile _ _, .texel => none
  | .tile _ _, .store => none
  | .tile _ _, _ => unsupported
  | .remote _ _, .load => none
  | .remote _ _, .texel => none
  | .remote _ _, .store => none
  | .remote _ _, .atomic ok => if ok then none else unsupported
  | .remote _ _, .reduce ok => if ok then none else unsupported
  | .remote _ _, .monitor => some (.trap 0x18 va [])
  | .kick _ _, .load => if size = 8 then none else some (.kick va 0)
  | .kick _ _, .store => if size = 8 then none else some (.kick va 0)
  | .kick _ _, _ => some (.kick va 0)
  | .graphKick _ _, .store => if size = 8 then none else some (.kick va 0)
  | .graphKick _ _, _ => some (.kick va 0)
  | .io _, .load => if size = 4 || size = 8 then none else some (.io va)
  | .io _, .store => if size = 4 || size = 8 then none else some (.io va)
  | .io _, .texel => if size = 4 || size = 8 then none else some (.io va)
  | .io _, _ => unsupported
  | _, _ => none

/-- The queue or 64 + graph slot that a kick fault names (R150). -/
def kickSlot (t : Target) : Nat :=
  match t with
  | .kick _ q => q
  | .graphKick _ q => 64 + q
  | _ => 0

/-- No frame is left for the private copy that a write to a shared page needs (R175). -/
def frameLack (s : State) (l : Leaf) : Bool :=
  l.cow && (privateFrame s l).isNone

/-- The summary words of the elements that a write of `n` bytes at `va` reaches in a tensor, each after the address of its
page's summary (R320 to R322). -/
def summaryWords (t : Tensor) (va n : Nat) : List (Nat × Nat) :=
  if t.sumd && decide (va < t.base + keyBytes t) && decide (t.base < va + n) then
    let es := elemBytes t.fmt
    let str := max (t.str.getD 1 0).toNat 1
    let d := t.ext.getD 0 0
    let first := (if va > t.base then va - t.base else 0) / es * es
    let last := min (va + n - t.base) (keyBytes t)
    let offs := (List.range ((last - first + es - 1) / es)).map (fun i => first + es * i)
    offs.flatMap (fun o =>
      if o % str < d * es then
        let area := t.sumb + 4 * d * (o / str / 64)
        [(area, area + 2 * (o % str / es)), (area, area + 2 * d + 2 * (o % str / es))]
      else [])
  else []

/-- Why a write to a summary word could not be performed (R323): the summary's own cause and address. -/
def summaryErr (s : State) (c : Ctx) : List (Nat × Nat) → Option AccErr
  | [] => none
  | (area, a) :: as =>
    match resolve s c none .write 1 a 2 with
    | .error e => some (e.at_ area)
    | .ok p =>
      match p.tgt, p.leaf with
      | .hbm _, some l => if frameLack s l then some (.trap 0x19 area []) else summaryErr s c as
      | .absent, some l => some ((absentErr c l a).at_ area)
      | t, _ => some ((summaryBarred t area).getD (.trap 0x14 area []))

/-- The last checks of R177 on a place in memory: a frame, the old home of a moving line, the summaries, residency. -/
def homeErr (s : State) (c : Ctx) (f : Form) (va size : Nat) (p : Place) : Option AccErr :=
  match p.leaf with
  | none => none
  | some l =>
    match p.tgt with
    | .remote _ _ => none
    | .hbm _ =>
      if f.writes then
        if frameLack s l then some (.trap 0x19 va [])
        else if writePullFails s c l va then some (.trap 0x1A va [])
        else if l.sum then summaryErr s c (c.tensors.flatMap (fun t => summaryWords t va size)) else none
      else if pullFails s c l va then some (.trap 0x1A va [])
      else none
    | _ => if f.writes && !l.p then some (absentErr c l va) else none

/-- A core's die reaches a page through a remote mapping (R174). -/
def farFrom (c : Ctx) (l : Leaf) (core : Option Nat) : Bool := core.any (fun k => c.farMaps.contains (l.page, dieOf k))

/-- The target as the form is judged: a page that the die of the warp that issues reaches through a remote mapping serves what a page
with REM = 1 does, and its bytes stand at its home (R174; DEDUCED, log 43). -/
def judgedTarget (s : State) (c : Ctx) (p : Place) : Target :=
  match p.leaf with
  | none => p.tgt
  | some l => if farFrom c l ((s.cur.bind (fun i => s.warp? i.warp)).bind Warp.core?) then .remote 0 0 else p.tgt

/-- All checks of one lane's access (R177). -/
def judge (s : State) (c : Ctx) (blk : Option Nat) (f : Form) (op va size : Nat) : Except AccErr Place :=
  if va ≥ 2 ^ 56 then .error (.trap 0x10 va [])
  else if va % size != 0 then .error (.trap 0x13 va [size])
  else
    match resolve s c blk f.access f.kind va size with
    | .error e => .error e
    | .ok p =>
      match notServed f op va size (judgedTarget s c p) with
      | some (.kick a _) => .error (.kick a (kickSlot p.tgt))
      | some e => .error e
      | none =>
        match homeErr s c f va size p with
        | some e => .error e
        | none => .ok p

/-- The place of a refusal in the order of R177. -/
def errRank (va : Nat) (e : AccErr) : Nat :=
  match e with
  | .trap cause _ _ =>
    if cause = 0x10 then 10
    else if cause = 0x13 then 20
    else if cause = 0x14 then 30
    else if cause = 0x1D then 31
    else if cause = 0x11 then (if va ≥ windowBase then 32 else 40)
    else if cause = 0x12 then (if va ≥ windowBase then 33 else 50)
    else if cause = 0x1C then 60
    else if cause = 0x15 then 70
    else if cause = 0x18 then 71
    else if cause = 0x19 then 80
    else 85
  | .walk _ => 41
  | .kick _ _ => 72
  | .io _ => 73
  | .remote _ _ _ _ => 74
  | .bad _ _ _ => 86
  | .refused _ => 90
  | .wait _ _ => 91
  | .refill _ _ => 92

/-- Two refusals that are taken together: of one place in the order of R177 and one cause. A window and a walk that refuse
with the same cause stand at different places. -/
def sameRefusal (a b : Nat × AccErr) : Bool :=
  a.1 == b.1 &&
  (match a.2, b.2 with
   | .trap k _ _, .trap j _ _ => k == j
   | .bad k _ _, .bad j _ _ => k == j
   | _, _ => true)

/-- The lane with the earliest refusal, by order and then by lane. -/
def worst : List (Nat × Nat × AccErr) → Option (Nat × Nat × AccErr)
  | [] => none
  | x :: xs =>
    match worst xs with
    | none => some x
    | some y => if y.2.1 < x.2.1 then some y else some x

/-- The stop that the refusals of several lanes come to (R67, R171, R177). -/
def stopOfLanes (errs : List (Nat × Nat × AccErr)) : Option Stop :=
  match worst errs with
  | none => none
  | some (_, r, e) =>
    match e with
    | .wait _ _ =>
      let waits := errs.filterMap (fun x => match x.2.2 with | .wait va page => some (va, page) | _ => none)
      some (.hold (.pages (waits.map Prod.fst)) (waits.map Prod.snd))
    | _ => some (stopOf (maskOf (fun l => errs.any (fun x => x.1 == l && sameRefusal x.2 (r, e)))) e)

/-- The first watch range an access meets (R150, R348). -/
def watchHit (c : Ctx) (va size : Nat) : Option Nat :=
  (List.range 4).find? (fun i =>
    let r := c.watches.getD i (0, 0)
    decide (r.2 > 0) && decide (va < r.1 + r.2) && decide (r.1 < va + size))

/-- The checks of every lane of a set, and where each lane's access leads. Watch ranges are judged last (log 26). -/
def judgeLanes (s : State) (c : Ctx) (blk : Option Nat) (f : Form) (op size : Nat) (addr : Nat → Nat) (m : Mask) :
    Except Stop (List (Nat × Place)) :=
  let judged := (lanesOf m).map (fun l => (l, judge s c blk f op (addr l) size))
  let errs := judged.filterMap (fun x => match x.2 with | .error e => some (x.1, errRank (addr x.1) e, e) | .ok _ => none)
  match stopOfLanes errs with
  | some e => .error e
  | none =>
    match lanesWhere m (fun l => (watchHit c (addr l) size).isSome) with
    | some (who, l) => .error (.trap who 0x0C (addr l) [(watchHit c (addr l) size).getD 0])
    | none => .ok (judged.filterMap (fun x => match x.2 with | .ok p => some (x.1, p) | .error _ => none))

/-! ### The order in which operations perform -/

/-- An operation of a warp is performed, or will never be (R210). -/
def Op.settled (o : Op) : Bool := o.state != .running || (!o.parts.isEmpty && o.parts.all (fun p => p.done || p.refused.isSome))

/-- An engine's operation. -/
def Op.isEngine (o : Op) : Bool :=
  match o.kind with
  | .engine _ => true
  | _ => false

/-- `m.ld.acq` with an active lane. -/
def Op.isAcquire (o : Op) : Bool :=
  match o.kind with
  | .load _ _ _ _ _ a => a.isSome
  | _ => false

/-- `m.st.rel` with an active lane. -/
def Op.isRelease (o : Op) : Bool :=
  match o.kind with
  | .store r => r.isSome
  | _ => false

/-- Operations that fences count as loads; an engine command counts as a load and a store (R215). -/
def Op.reads (o : Op) : Bool :=
  match o.kind with
  | .load _ _ _ _ _ _ => true
  | .atomic _ _ => true
  | .cas _ _ => true
  | .probe _ => true
  | .tex _ _ => true
  | .texq _ _ => true
  | .enq _ _ _ _ => true
  | .emit => true
  | .spawn => true
  | .engine _ => true
  | _ => false

/-- Operations that fences count as stores: `e.emit` and `e.spawn` are engine commands too. -/
def Op.writes (o : Op) : Bool :=
  match o.kind with
  | .store _ => true
  | .atomic _ _ => true
  | .cas _ _ => true
  | .reduce _ => true
  | .enq _ _ _ _ => true
  | .emit => true
  | .spawn => true
  | .engine _ => true
  | _ => false

/-- A remote write of the warp that was issued before number `n` and is not yet answered, so not yet performed (R210, R353). -/
def remoteWrites (s : State) (w : Warp) (n : Nat) : Bool :=
  s.mod.remotes.any (fun r => r.write && r.warp == w.id && decide (r.op < n))

/-- Acquires, releases and fences let an operation with the number `id` perform now (R183, R194): `release` says that it is
one itself, `writes` that a release fence orders it. -/
def orderAt (s : State) (w : Warp) (id : Nat) (release writes : Bool) : Bool :=
  let earlier := w.ops.filter (fun q => decide (q.id < id) && !q.settled)
  earlier.all (fun q => !q.isAcquire) && (!release || (earlier.isEmpty && !remoteWrites s w id)) &&
  w.fences.all (fun f =>
    decide (id < f.before) ||
    (let before := earlier.filter (fun q => decide (q.id < f.before))
     match f.kind with
     | 0 => before.all (fun q => !q.reads)
     | 1 => !writes || (before.isEmpty && !remoteWrites s w f.before)
     | _ => before.isEmpty && !remoteWrites s w f.before))

/-- The same for an operation of the warp. -/
def orderOk (s : State) (w : Warp) (o : Op) : Bool := orderAt s w o.id o.isRelease o.writes

/-- The bytes an access names: address, number, where they were found to lead. -/
def Part.ranges (p : Part) : List (Nat × Nat × Target) := (p.va, p.size, p.tgt) :: p.also

/-- Two ranges name a common byte, by address or where they were found to lead. -/
def rangesMeet (a b : Nat × Nat × Target) : Bool :=
  (decide (a.1 < b.1 + b.2.1) && decide (b.1 < a.1 + a.2.1)) || a.2.2.overlaps a.2.1 b.2.2 b.2.1

/-- Two accesses name a common byte. -/
def Part.overlaps (p q : Part) : Bool := p.ranges.any (fun a => q.ranges.any (rangesMeet a))

/-- A part waits for no access of its lane to its bytes in an earlier operation (R208). -/
def laneOk (w : Warp) (o : Op) (p : Part) : Bool :=
  w.ops.all (fun q => decide (q.id ≥ o.id) || q.state != .running ||
    q.parts.all (fun r => r.done || r.refused.isSome || r.lane != p.lane || !r.overlaps p))

/-- Nor for an access of a lower lane to its bytes in its own operation (R179). -/
def partOk (w : Warp) (o : Op) (p : Part) : Bool :=
  laneOk w o p && o.parts.all (fun r => r.done || r.refused.isSome || decide (r.lane ≥ p.lane) || !r.overlaps p)

/-- Bytes cut at the bounds of 128-byte lines: address and length of each piece; `fuel` bounds them. -/
def linePieces : Nat → Nat → Nat → List (Nat × Nat)
  | 0, _, _ => []
  | fuel + 1, va, n =>
    if n = 0 then []
    else
      let k := min n (128 - va % 128)
      (va, k) :: linePieces fuel (va + k) (n - k)

/-- Where ranges of a warp's context lead, line by line. -/
def rangePlaces (s : State) (w : Warp) (rs : List (Nat × Nat)) : List (Nat × Nat × Target) :=
  match s.ctx? w.ctx with
  | none => []
  | some c =>
    (rs.flatMap (fun r => linePieces (r.2 + 1) r.1 r.2)).map (fun r =>
      (r.1, r.2, match resolve s c w.block .read 0 r.1 r.2 with | .ok p => p.tgt | .error _ => .absent))

/-- A byte range is free of the lane's accesses issued before an operation and not yet performed (R208), whichever of a frame's addresses
they named. -/
def rangeOk (s : State) (w : Warp) (id lane va n : Nat) : Bool :=
  let here := (va, n, .absent) :: rangePlaces s w [(va, n)]
  w.ops.all (fun q => decide (q.id ≥ id) || q.state != .running ||
    q.parts.all (fun r => r.done || r.refused.isSome || r.lane != lane || !r.ranges.any (fun a => here.any (rangesMeet a))))

/-- Memory that an instruction reads as it issues, in one lane: it waits for the warp's acquires and fences (R183, R194,
R215), of which `writes` says whether a release fence counts, and for the lane's own earlier accesses (R208). The run is
tried again (PAGE_WAIT_RETRY, no page named). -/
def holdRead (s : State) (w : Warp) (lane va n : Nat) (writes : Bool) : Except Stop Unit :=
  if orderAt s w s.nextId false writes && rangeOk s w s.nextId lane va n then .ok () else .error (.hold (.pages []) [])

/-! ### Kick registers (R155, R248) -/

/-- A store to a graph slot's kick register queues a replay; the 65th pending ends the context. -/
def kickSlotStore (s : State) (ctx slot table va : Nat) : State :=
  match s.ctx? ctx with
  | none => s
  | some c => if kicksFull c slot then endWith s ctx 0x4E va [64 + slot] else addKick s ctx slot table

/-! ### Remote targets (R176, R352, R353) -/

/-- Requests that wait for rate on one port at most: at least one, and else the implementation's (log 27). -/
def egressDepth : Nat := Config.egressRoom + 1

/-- Requests that a context sent through a port in the current microsecond. -/
def portCount (s : State) (ctx port : Nat) : Nat :=
  match s.mod.portUse.find? (fun x => x.1 == 16 * ctx + port) with
  | some (_, t, n) => if s.mod.clock < t + 600 then n else 0
  | none => 0

/-- Count a request of a context sent through a port. -/
def countPort (s : State) (ctx port : Nat) : State :=
  let key := 16 * ctx + port
  let entry : Nat × Nat × Nat :=
    match s.mod.portUse.find? (fun x => x.1 == key) with
    | some (_, t, n) => if s.mod.clock < t + 600 then (key, t, n + 1) else (key, s.mod.clock, 1)
    | none => (key, s.mod.clock, 1)
  { s with mod := { s.mod with portUse := entry :: s.mod.portUse.filter (fun x => x.1 != key) } }

/-- The lowest usable port of the context's allowance, or the port that LINK_DOWN names. -/
def choosePort (s : State) (c : Ctx) : Except Nat Nat :=
  let allowed := (List.range 16).filter (fun p => decide (c.egressRates.getD p 0 > 0))
  match allowed.find? (fun p => s.mod.portsUp.getLsbD p) with
  | some p => .ok p
  | none => .error ((allowed.head?).getD 0)

/-- What an access does at a remote target: Ultra Ethernet operation and the bytes it carries. -/
structure Carried where
  kind : Nat
  write : Bool
  bytes : List Nat
  deriving DecidableEq, Repr

/-- The remote operation of an atomic or reduction: 3 fetch-and-add, 4 swap, 5 compare-and-swap. -/
def remoteAtom (k : OpKind) (p : Part) : Carried :=
  match k with
  | .cas _ _ => { kind := 5, write := false, bytes := natLe 8 p.expect ++ natLe 8 p.data }
  | .atomic .exch64 _ => { kind := 4, write := false, bytes := natLe 8 p.data }
  | .atomic _ _ => { kind := 3, write := false, bytes := natLe 8 p.data }
  | _ => { kind := 3, write := true, bytes := natLe 8 p.data }

/-- What the access of a lane carries: 1 an RMA write, 2 an RMA read, or an atomic. -/
def carried (k : OpKind) (p : Part) : Carried :=
  match k with
  | .store _ => { kind := 1, write := true, bytes := natLe p.size p.data }
  | .atomic _ _ => remoteAtom k p
  | .cas _ _ => remoteAtom k p
  | .reduce _ => remoteAtom k p
  | _ => { kind := 2, write := false, bytes := natLe 4 p.size }

/-- The endpoint that a context's target number names: 0 its controlling host (R348), 1 to 254 a peer module. Hosts are
numbered from 0, peer modules from 2^32 on (log 46). -/
def endpoint (c : Ctx) (peer : Nat) : Nat := if peer = 0 then c.host else 2 ^ 32 + peer

/-- The message of a request leaves through its port. -/
def transmit (s : State) (c : Ctx) (r : RemoteReq) : State :=
  sendMessage (countPort s c.number r.port) { to_ := endpoint c r.peer, kind := r.kind, bytes := natLe 8 r.addr ++ r.bytes }

/-- Hand a request to the ports (R352): refused with a cause and detail, sent, or held for rate; the answer says whether it
was sent. -/
def submit (s : State) (c : Ctx) (r : RemoteReq) : Except (Nat × List Nat) (State × Bool) :=
  if !c.egressTargets.getLsbD r.peer then .error (0x44, [])
  else
    match choosePort s c with
    | .error port => .error (0x45, [port])
    | .ok port =>
      let now := decide (portCount s c.number port < c.egressRates.getD port 0)
      if !now && decide ((s.mod.remotes.filter (fun r => r.port == port && r.sentAt.isNone)).length ≥ egressDepth)
      then .error (0x48, [port])
      else
        let r := { r with id := s.nextId, port := port, sentAt := if now then some s.mod.clock else none }
        let s := { s with nextId := s.nextId + 1, mod := { s.mod with remotes := s.mod.remotes ++ [r] } }
        .ok (if now then transmit s c r else s, now)

/-- Hand one lane's access to the ports. A write is over when it is sent (R353). -/
def sendPart (s : State) (c : Ctx) (w : Warp) (o : Op) (p : Part) (peer addr : Nat) : State × Part :=
  let m := carried o.kind p
  match submit s c {
      id := 0, ctx := c.number, warp := w.id, launch := w.launch, op := o.id, lane := p.lane, peer := peer, addr := addr
      va := p.va
      write := m.write, fill := 0, kind := m.kind, bytes := m.bytes, port := 0, sentAt := none } with
  | .error e => (s, { p with refused := some e.1, args := e.2 })
  | .ok (s, now) => (s, { p with sent := true, done := m.write && now })

/-- Ask a remote target for `n` bytes, for a fetch of a warp or for an operation (`user`), unless they are asked for. -/
def askRemote (s : State) (c : Ctx) (wid user lane va peer addr n : Nat) : Except (Nat × List Nat) State :=
  if s.mod.remotes.any (fun r => r.fill == n && r.op == user && r.peer == peer && r.addr == addr) then .ok s
  else
    match submit s c {
        id := 0, ctx := c.number, warp := wid, launch := ((s.warp? wid).map Warp.launch).getD 0, op := user, lane := lane
        peer := peer, addr := addr, va := va
        write := false, fill := n, kind := 2, bytes := natLe 4 n, port := 0, sentAt := none } with
    | .error e => .error e
    | .ok (s, _) => .ok s

/-- An RMA write of bytes for an operation that is no lane's access. -/
def writeRemote (s : State) (c : Ctx) (wid user lane va peer addr : Nat) (bytes : List Nat) : Except (Nat × List Nat) State :=
  match submit s c {
      id := 0, ctx := c.number, warp := wid, launch := ((s.warp? wid).map Warp.launch).getD 0, op := user, lane := lane
      peer := peer, addr := addr, va := va
      write := true, fill := bytes.length, kind := 1, bytes := bytes, port := 0, sentAt := none } with
  | .error e => .error e
  | .ok (s, _) => .ok s

/-- The accesses that follow are those of a warp's fetch or of an operation: what its reads of remote pages have brought is
found (0 for nobody's). -/
def asReader (s : State) (user : Nat) : State := { s with mod := { s.mod with reader := user } }

/-- What was brought for a user is used up. -/
def dropBrought (s : State) (user : Nat) : State :=
  { s with mod := { s.mod with reader := 0, brought := s.mod.brought.filter (fun b => b.user != user) } }

/-! ### The fetch of a word (R42, R158, R159, R168, R176) -/

/-- The bytes of an instruction word at an address, and the state after the fetch: its line is pulled, its update-only copies
are merged. A word on a remote page is found where the warp has had it brought. -/
def fetchWord (s : State) (c : Ctx) (w : Warp) (va : Nat) : Except AccErr (List Byte × State) :=
  match resolve s c w.block .fetch 0 va 4 with
  | .error e => .error e
  | .ok _ =>
    match readChunk (asReader s w.id) c w.block 0 va 4 with
    | .error e => .error e
    | .ok (v, s) =>
      .ok (natToBytes 4 v, dropBrought s w.id)

/-! ### One lane's access performed -/

/-- What performing a part comes to. -/
inductive Performed where
  /-- performed, or sent, or refused: the state and the part -/
  | yes (s : State) (p : Part)
  /-- it waits; pages were requested -/
  | held (s : State)
  /-- the context has ended -/
  | ended (s : State)

/-- The target so many bytes further on. -/
def Target.plus (t : Target) (n : Nat) : Target :=
  match t with
  | .hbm pa => .hbm (pa + n)
  | .scratch b o => .scratch b (o + n)
  | .tile b o => .tile b (o + n)
  | .residency o => .residency (o + n)
  | .remote p a => .remote p (a + n)
  | t => t

/-- The bytes at a target that translation at issue found, where a page-table change has since taken the page away
(R169). Where that page was not present the access has the new entry's result. -/
def oldRead (s : State) (t : Target) (va n : Nat) : Except AccErr (Nat × State) :=
  match t with
  | .hbm pa =>
    let s := mergeLine s (pa / 128)
    match badAt s pa n with
    | some cause => .error (.bad cause va [])
    | none => .ok (Memory.readN s.mem pa n, s)
  | .scratch b o => .ok (((s.block? b).map (fun k => Memory.readN k.scratch o n)).getD 0, s)
  | .tile b o => .ok (((s.block? b).map (fun k => Memory.readN k.tiles o n)).getD 0, s)
  | .remote peer addr =>
    match broughtAt s peer addr n with
    | some v => .ok (v, s)
    | none => .error (.remote va peer addr n)
  | .io _ => .error (.io va)
  | _ => .error (.trap 0x11 va [0])

/-- Where a write that translated to a byte of HBM before its page's entry changed is performed: the state with the line at its home, the
leaf it used and the home. A page still mapped at the frame has its line pulled as ever (R173); a shared page gets its private frame,
or FRAME_EXHAUSTED (R175); a line that the entry's frame has not yet is pulled there. -/
def oldHome (s : State) (c : Ctx) (l : Leaf) (pa va : Nat) : Except AccErr (State × Leaf × Nat) :=
  let off := va - l.page
  let pull (s : State) (l : Leaf) : Except AccErr (State × Leaf × Nat) :=
    if pa = l.frame + off then .ok (s, l, pa)
    else if dieShut s pa then .error (.trap 0x1A va [])
    else .ok (copyLine s c.number va (pa / 128 * 128) (l.frame + off / 128 * 128), l, l.frame + off)
  let ours : Option Leaf := (leafOf s c va).bind (fun k =>
    if k.page == l.page && k.frame == l.frame && !k.rem && !k.cow && !l.cow then some k else none)
  match ours with
  | some k => if pullFails s c k va then .error (.trap 0x1A va []) else .ok (pullLine s c k va, l, l.frame + off)
  | none =>
    if l.cow then
      match privateFrame s l with
      | none => .error (.trap 0x19 va [])
      | some f => pull (takeFrame (followPage s c.number l f false) f) { l with frame := f, cow := false }
    else pull s l

/-- A write to such a target: it widens, stamps and is seen by monitors as any write under its leaf. The rest of an element that it
changes in part stands in the line of the write. -/
def oldWrite (s : State) (c : Ctx) (leaf : Option Leaf) (t : Target) (va n v : Nat) : Except AccErr State :=
  match t, leaf with
  | .hbm pa, some l =>
    let s := mergeLine s (pa / 128)
    match (if l.sum then widenAll s c.number va n (v % 256 ^ n) (fun s a => Memory.readN s.mem (pa + a - va) 1) c.tensors else .ok s) with
    | .error e => .error e
    | .ok s =>
      match oldHome s ((s.ctx? c.number).getD c) l pa va with
      | .error e => .error e
      | .ok (s, l, pa) => .ok (rawStore s c.number l va pa n v)
  | .scratch b o, _ => .ok (s.updBlock b (fun k => { k with scratch := Memory.writeN k.scratch o n v }))
  | .tile b o, _ => .ok (s.updBlock b (fun k => { k with tiles := Memory.writeN k.tiles o n v }))
  | _, _ => .ok s

/-- A refusal met when an access is performed. -/
def refusal (s : State) (w : Warp) (p : Part) (e : AccErr) : Performed :=
  match e with
  | .wait _ page => .held (requestPage s w.ctx page)
  | .refused va => .yes s { p with refused := some 0x1F, va := va }
  | .bad cause addr detail => .ended (endWith s w.ctx cause addr detail)
  | .walk addr => .ended (endWith s w.ctx 0x17 addr [])
  | .kick addr slot => .ended (endWith s w.ctx 0x4E addr [slot])
  | .refill _ _ => .held s
  | .trap cause va detail => .yes s { p with refused := some cause, va := va, args := detail }
  | .remote va _ _ _ => .yes s { p with refused := some 0x15, va := va, args := [] }
  | .io _ => .held s

/-- Whether a refusal is of the mapping itself, so that an access issued before completes under the old entry. -/
def mappingGone (e : AccErr) : Bool :=
  match e with
  | .trap cause _ _ => cause == 0x11 || cause == 0x12
  | .walk _ => true
  | _ => false

/-- A number that no block has: the origin of a handler that no run started (R151, R337). -/
def noOrigin : Nat := 2 ^ 64

/-- The origin block of a lane (R337). -/
def Warp.origin (w : Warp) (l : Nat) : Nat := ((w.lane l).origin).getD noOrigin

/-- What an access that lies in one page adds to the trace of its lane's origin block: its tiles on a tracked page, ALWAYS
on another page that it reads, nothing in a fixed window (R333, R338). -/
def tracePart (s : State) (w : Warp) (p : Part) (leaf : Option Leaf) (rd wr always : Bool) : State :=
  match leaf with
  | none => s
  | some l =>
    let origin := w.origin p.lane
    if l.trk then
      let add (on : Bool) (xs : List Nat) : List Nat := if on then (tilesOf p.va p.size).foldl (fun a x => insertAsc x a) xs else xs
      updTrace s w.launch origin (fun t => { t with reads := add rd t.reads, writes := add wr t.writes, always := t.always || always })
    else if rd || always then traceAlways s w.launch origin
    else s

/-- Where an access leads when it is performed, and whether under the entry it used at issue: the entry is gone, or the page
has moved to where its form is not served (R169). -/
def placeNow (s : State) (c : Ctx) (w : Warp) (f : Form) (p : Part) : Except AccErr (Place × Bool) :=
  match resolve s c w.block f.access f.kind p.va p.size with
  | .ok pl => .ok (if (notServed f 0 p.va p.size pl.tgt).isNone then (pl, false) else (⟨p.tgt, p.leaf⟩, true))
  | .error e => if mappingGone e then .ok (⟨p.tgt, p.leaf⟩, true) else .error e

/-- The page of a place is present, as a window is. -/
def Place.present (p : Place) : Bool := (p.leaf.map Leaf.p).getD true

/-- A load of one lane (R171, R181): the bytes, or zero and the SR.ABSENT bit. An I/O-die register gives a value the spec does
not state (log 18). -/
def performLoad (s : State) (w : Warp) (o : Op) (p : Part) : Performed :=
  match s.ctx? w.ctx with
  | none => .held s
  | some c =>
    let got (s : State) (v : Nat) : Performed := .yes s { p with done := true, got := v, present := true }
    match placeNow s c w .load p with
    | .error e => refusal s w p e
    | .ok (pl, old) =>
      let absent : Performed :=
        let bit := oneLane p.lane
        let s := tracePart s w p pl.leaf true false true
        .yes (s.updWarp w.id (fun w => { w with absent := w.absent ||| bit })) { p with done := true, got := 0, present := false }
      let traced := tracePart s w p pl.leaf true false false
      match pl.tgt with
      | .remote peer addr => if p.sent then .held s else
          let r := sendPart traced c w o p peer addr
          .yes r.1 r.2
      | .absent => absent
      | .kick ctx q => if pl.present then got traced (queueTail s ctx q) else absent
      | .io _ => if pl.present then got { traced with free := s.free + 1 } (Config.freeValue s.free % 256 ^ p.size) else absent
      | t =>
        match (if old then oldRead traced t p.va p.size else readChunk traced c w.block 0 p.va p.size) with
        | .ok (v, s) => got s v
        | .error (.wait _ _) => absent
        | .error (.refused _) => absent
        | .error e => refusal s w p e

/-- A write at a place: under the entry of the issue, or the one that stands. -/
def writePlace (s : State) (c : Ctx) (w : Warp) (kind : Nat) (p : Part) (pl : Place) (old : Bool) (v : Nat) : Except AccErr State :=
  if old then oldWrite s c pl.leaf pl.tgt p.va p.size v else writeChunk s c w.block kind p.va p.size v

/-- A store of one lane (R185, R362). A store to an I/O-die register that is no kick register completes; what the register
does is not the spec's to say (log 18). -/
def performStore (s : State) (w : Warp) (o : Op) (p : Part) : Performed :=
  match s.ctx? w.ctx with
  | none => .held s
  | some c =>
    match placeNow s c w .store p with
    | .error e => refusal s w p e
    | .ok (pl, old) =>
      let done (s : State) : Performed := .yes (tracePart s w p pl.leaf false true false) { p with done := true }
      match pl.leaf with
      | some l =>
        if !pl.present && !l.rem && !old then refusal s w p (absentErr c l p.va)
        else
          match pl.tgt with
          | .remote peer addr => if p.sent then .held s else
              let r := sendPart s c w o p peer addr
              .yes r.1 r.2
          | .kick ctx q => done (kickQueue s ctx q p.data)
          | .graphKick ctx q =>
            let s := kickSlotStore s ctx q p.data p.va
            if ((s.ctx? w.ctx).map Ctx.live).getD false then done s else .ended s
          | .io _ => done s
          | _ =>
            match writePlace s c w 1 p pl old p.data with
            | .ok s => done s
            | .error e => refusal s w p e
      | none =>
        match writePlace s c w 1 p pl old p.data with
        | .ok s => done s
        | .error e => refusal s w p e

/-- Read, compute and write in one step at the target (R187, R189): `f` gives the value stored, none where nothing is. Where
nothing is stored a shared page gets no private frame (DEDUCED, log 30). -/
def performRmw (s : State) (w : Warp) (p : Part) (pl : Place) (old : Bool) (f : Nat → Option Nat) : Performed :=
  match s.ctx? w.ctx with
  | none => .held s
  | some c =>
    match (if old then oldRead s pl.tgt p.va p.size else readChunk s c w.block 2 p.va p.size) with
    | .error e => refusal s w p e
    | .ok (x, s1) =>
      let q := { p with done := true, got := x, present := true }
      match f x with
      | none => .yes s1 q
      | some v =>
        match s1.ctx? w.ctx with
        | none => .held s
        | some c =>
          match writePlace s1 c w 2 p pl old v with
          | .ok s => .yes s q
          | .error e => refusal s w p e

/-- What an atomic does to a value at its target. -/
def atomEffect (k : OpKind) (p : Part) (old : Nat) : Option Nat :=
  match k with
  | .atomic fn _ => some (fn.apply old p.data)
  | .cas _ _ => if old = p.expect then some p.data else none
  | .reduce fn => some (fn.apply old p.data)
  | _ => none

/-- The form of an atomic operation: whether a remote target serves it (R178). -/
def atomForm (k : OpKind) : Form :=
  match k with
  | .atomic fn _ => .atomic (fn == .add64 || fn == .exch64)
  | .cas _ n => .atomic (n == 8)
  | .reduce fn => .reduce (fn == .add64)
  | _ => .atomic false

/-- An atomic, `cas`, or reduction applied singly, of one lane: read, write and ALWAYS for the first two, a write for the
last (R338). -/
def performAtomic (s : State) (w : Warp) (o : Op) (p : Part) : Performed :=
  match s.ctx? w.ctx with
  | none => .held s
  | some c =>
    let returns := match o.kind with | .reduce _ => false | _ => true
    match placeNow s c w (atomForm o.kind) p with
    | .error e => refusal s w p e
    | .ok (pl, old) =>
      match pl.tgt, pl.leaf with
      | .remote peer addr, leaf => if p.sent then .held s else
          let r := sendPart (tracePart s w p leaf returns false returns) c w o p peer addr
          .yes r.1 r.2
      | .absent, some l => refusal s w p (absentErr c l p.va)
      | _, leaf =>
        match performRmw s w p pl old (atomEffect o.kind p) with
        | .yes s q => .yes (if q.done then tracePart s w p leaf returns true returns else s) q
        | r => r

/-! ### Parts of an operation -/

/-- The fault of an operation some of whose parts were refused: the cause of the lowest refused lane, and the lanes that
share it. -/
def partsFault (parts : List Part) : Option OpFault :=
  match parts.find? (fun p => p.refused.isSome) with
  | none => none
  | some p =>
    some { cause := p.refused.getD 0
           lanes := maskOf (fun l => parts.any (fun q => q.lane == l && q.refused == p.refused))
           addr := reportAddr (p.refused.getD 0) p.va, detail := p.args }

/-- The state of an operation from its parts: running, done, or failed. -/
def partsState (parts : List Part) : OpState :=
  if parts.all (fun p => p.done || p.refused.isSome) then
    match partsFault parts with
    | none => .done
    | some f => .failed f
  else .running

/-- Put a part back and close the operation when every part is settled. -/
def setPart (s : State) (oid : Nat) (p : Part) : State :=
  match s.op? oid with
  | none => s
  | some (_, o) =>
    let o := { o with parts := updFirst (fun q => q.lane == p.lane) (fun _ => p) o.parts }
    match partsState o.parts with
    | .running => s.setOp o
    | st => closeOp s o st

/-- Perform the parts of an operation for lanes in ascending order, each if nothing holds it. -/
def performParts (f : State → Warp → Op → Part → Performed) (oid : Nat) : State → List Nat → State
  | s, [] => s
  | s, l :: ls =>
    match s.op? oid with
    | none => s
    | some (w, o) =>
      match o.parts.find? (fun p => p.lane == l && !p.done && p.refused.isNone) with
      | none => performParts f oid s ls
      | some p =>
        if o.state == .running && orderOk s w o && partOk w o p then
          match f s w o p with
          | .yes s p => performParts f oid (setPart s oid p) ls
          | .held s => performParts f oid s ls
          | .ended s => s
        else performParts f oid s ls

/-- An operation's event: its parts for some lanes are performed, and it retires in order where it is done. -/
def performOp (f : State → Warp → Op → Part → Performed) (oid : Nat) (s : State) (lanes : List Nat) : State :=
  retireOp (performParts f oid s lanes) oid

end Sys2Proof.Machine
end

