-- ==== Sys2Proof/Machine/Control.lean ====
section
/-! DEFINITION. Hints as words (R59, R63), words that are no instruction (R58), the fetch that fails (R66), and class 11:
branches, calls, waits, barriers, exits and traps (R132 to R142), and the events that complete waits. -/

namespace Sys2Proof.Machine

open Host (Outcome)

/-! ### Hints -/

/-- A hint word joins the group of its run; the run's counter stays at the group's first word (R63). -/
def appendHint (s : State) : Outcome State Fault Refusal :=
  match s.cur with
  | none => .fault .noRunSelected
  | some sel =>
    .next { s.updWarp sel.warp (fun w =>
        { w with group := w.group ++ [sel.word], groupRun := sel.run, groupReady := sel.ready }) with cur := none }

/-- `h.imm` (R60). -/
def execHImm (_x : Nat) (s : State) : Outcome State Fault Refusal := appendHint s

/-- `h.guard` (R61): it takes effect at the issue of its group, `openGuard`. -/
def execHGuard (_k _n : Nat) (s : State) : Outcome State Fault Refusal := appendHint s

/-- `h.guard.not` (R61). -/
def execHGuardNot (_k _n : Nat) (s : State) : Outcome State Fault Refusal := appendHint s

/-- `h.src3` (R103). -/
def execHSrc3 (_c : Nat) (s : State) : Outcome State Fault Refusal := appendHint s

/-- `h.reuse` (R32): timing only. -/
def execHReuse (_x _n : Nat) (s : State) : Outcome State Fault Refusal := appendHint s

/-- `h.last` (R30): `applyLast`. -/
def execHLast (_x _y _n : Nat) (s : State) : Outcome State Fault Refusal := appendHint s

/-- `h.rnd` (R145). -/
def execHRnd (_m : Nat) (s : State) : Outcome State Fault Refusal := appendHint s

/-- `h.scope` (R48, R145). -/
def execHScope (_sc : Nat) (s : State) : Outcome State Fault Refusal := appendHint s

/-- `h.sched` (R145): timing only. -/
def execHSched (_n : Nat) (s : State) : Outcome State Fault Refusal := appendHint s

/-- `h.cache` (R145): timing only. -/
def execHCache (_p : Nat) (s : State) : Outcome State Fault Refusal := appendHint s

/-! ### A fetch that fails -/

/-- The fetch of the selected run's word failed: the run traps with FETCH_FAULT, waits for the page, or takes the cause
the fetch met (R66, R168, R171); a word on a remote page is asked for at its target, and the run waits for it (R176). -/
def execFetchFault (s : State) : Outcome State Fault Refusal :=
  match s.cur with
  | none => .fault .noRunSelected
  | some sel =>
    match s.warp? sel.warp with
    | none => .fault .noRunSelected
    | some w =>
      match s.ctx? w.ctx with
      | none => .fault .noRunSelected
      | some c =>
        match fetchWord s c w sel.addr.toNat with
        | .ok _ => .next { s with cur := none }
        | .error (.remote va peer addr n) =>
          (match askRemote s c w.id w.id (leadOf sel.run) va peer addr n with
           | .error e => applyStop s (.trap sel.run e.1 (reportAddr e.1 va) e.2)
           | .ok s => applyStop s (.hold (.fetch va peer addr) []))
        | .error e => applyStop s (stopOf sel.run e)

/-! ### Branches, calls, jumps (R133 to R135) -/

/-- The address a word offset names (R46). -/
def Cx.target (x : Cx) (o : Nat) : Pc := x.sel.addr + BitVec.ofInt 56 (4 * signed 19 o)

/-- The lanes of a run that take a branch of a mode (R133). -/
def takenLanes (w : Warp) (run : Mask) (k m : Nat) : Mask :=
  let t := maskOf (fun l => inMask run l && ((w.lane l).pred k).val)
  match m with
  | 0 => run
  | 1 => t
  | 2 => run &&& ~~~t
  | 3 => if t != 0#32 then run else 0#32
  | 4 => if t = run then run else 0#32
  | _ => if t = 0#32 then run else 0#32

/-- Reserved values of `c.br` (R50): modes 6 and 7, a depth with mode 0. -/
def brReserved (k m : Nat) : Nat := if m ≥ 6 then 7 * 2 ^ 19 else if m = 0 then k * 2 ^ 22 else 0

/-- `c.br` (R133): every mode reads the entry, so a pending one traps (R182). -/
def execCBr (k m o : Nat) (s : State) : Outcome State Fault Refusal :=
  issue s { Info.plain 3 with reserved := brReserved k m } (fun x =>
    match checkPending x.w x.run (fun _ => []) (fun _ => [k]) with
    | .error e => .error e
    | .ok _ =>
      let take := takenLanes x.w x.run k m
      .ok (x.finish x.s x.wd (fun l => if inMask take l then x.target o else x.next) false))

/-- A register written in lanes of the run by an instruction of another class than 00 and 01: earlier writes of it can no
longer be discarded (R30). -/
def Warp.put (w : Warp) (m : Mask) (n : Nat) (f : RegForm) : Warp := ((w.mapLanes m (fun _ y => y.forget n)).setForm n f).wrote m n

/-- The return address written to a link pair in each lane of the run (R134). -/
def Cx.link (x : Cx) (w : Warp) (d : Nat) : Warp :=
  let w := w.put x.run d (laneForm w d x.run (fun _ => x.next.toNat % 2 ^ 32))
  w.put x.run (d + 1) (laneForm w (d + 1) x.run (fun _ => x.next.toNat / 2 ^ 32))

/-- `c.call` (R134): the link field names the pair v(2j):v(2j+1). -/
def execCCall (j o : Nat) (s : State) : Outcome State Fault Refusal :=
  issue s (Info.plain 3) (fun x =>
    match checkRegs x.w x.run [] [2 * j, 2 * j + 1] with
    | .error e => .error e
    | .ok _ => .ok (x.finish x.s (x.link x.wd (2 * j)) (fun _ => x.target o) false))

/-- A transfer to each lane's own target pair (R135); `link` is the pair that receives the return address. -/
def jumpTo (s : State) (i : Info) (a : Nat) (link : Option Nat) : Outcome State Fault Refusal :=
  issue s i (fun x =>
    match checkRegs x.w x.run [a, a + 1] (match link with | some d => [d, d + 1] | none => []) with
    | .error e => .error e
    | .ok _ =>
      match lanesWhere x.run (fun l => decide (x.w.pair l a ≥ 2 ^ 56)) with
      | some (who, l) => .error (.trap who 0x10 (x.w.pair l a) [])
      | none =>
        let w := match link with | some d => x.link x.wd d | none => x.wd
        .ok (x.finish x.s w (fun l => BitVec.ofNat 56 (x.w.pair l a / 4 * 4)) false))

/-- `c.jmp` (R135). -/
def execCJmp (a : Nat) (s : State) : Outcome State Fault Refusal :=
  jumpTo s { Info.plain 3 with reserved := misaligned a 7 1 } a none

/-- `c.callx` (R135). -/
def execCCallx (d a : Nat) (s : State) : Outcome State Fault Refusal :=
  jumpTo s { Info.plain 3 with reserved := misaligned d 14 1 + misaligned a 7 1 } a (some d)

/-- `c.ret` (R135): as `c.jmp`; the prediction it hints at is timing. -/
def execCRet (a : Nat) (s : State) : Outcome State Fault Refusal :=
  jumpTo s { Info.plain 3 with reserved := misaligned a 7 1 } a none

/-! ### Holding a run (R18) -/

/-- The run waits at the instruction; when the wait ends its lanes go on at the next word. Lanes of the warp that stand at
the same counter join it. -/
def Cx.wait (x : Cx) (s : State) (w : Warp) (what : Wait) : State :=
  let w := w.mapLanes x.run (fun _ y => { y with cond := .waiting what x.next s.mod.clock })
  x.finish s w (fun _ => x.sel.first) false

/-- The lanes that wait with a lane: those at its counter. -/
def waitingRun (w : Warp) (l : Nat) : Mask :=
  maskOf (fun k => (w.lane k).isWaiting && (w.lane k).pc == (w.lane l).pc)

/-- A waiting run is ready again at `pc`. -/
def wakeRun (w : Warp) (run : Mask) (pc : Pc) : Warp := w.mapLanes run (fun _ y => { y with cond := .ready, pc := pc })

/-- A wait that ends: the run is ready at its next word and may join another waiting run there. -/
def endWait (s : State) (wid : Nat) (run : Mask) (pc : Pc) : State :=
  s.updWarp wid (fun w => joinWaits (wakeRun w run pc))

/-- A wait that ends and completes its instruction: under step control the run then stops (R150). -/
def completeWait (s : State) (wid : Nat) (run : Mask) (pc : Pc) : State :=
  stepTrap (endWait s wid run pc) wid run (pc - 4#56)

/-! ### Counter waits (R136 to R138) -/

/-- Operations numbered below the bounds that have not retired, in issue order (R137). -/
def unretired (w : Warp) (below : List Nat) : List Op := w.ops.filter (fun o => decide (o.seq < below.getD o.counter 0))

/-- What a wait finds: every operation it requires has retired, the first of them to have failed, or it must wait. -/
inductive WaitResult where
  | met
  | failed (o : Op) (f : OpFault)
  | pending
  deriving DecidableEq, Repr

/-- Judge a wait by its bounds (R137, R138). -/
def judgeWait (w : Warp) (below : List Nat) : WaitResult :=
  match (unretired w below).find? (fun o => o.state != .done) with
  | none => if unretired w below = [] then .met else .pending
  | some o =>
    match o.state with
    | .failed f => .failed o f
    | _ => .pending

/-- The pending marks that a completed wait clears (R33): those of LD operations below its bound. -/
def clearMarks (w : Warp) (below : List Nat) : Warp :=
  let ld := below.getD 0 0
  let w := { w with marks := w.marks.filter (fun m => decide (ld ≤ m.seq)) }
  w.mapLanes allLanes (fun _ y => { y with preds := y.preds.map (fun p =>
    match p.pend with
    | some n => if n < ld then { p with pend := none } else p
    | none => p) })

/-- The lanes a taken fault names (R138). -/
def faultLanes (f : OpFault) (run : Mask) : Mask := if f.lanes = 0#32 then run else f.lanes

/-- A run takes the fault of an operation: the operation retires, and the run stops where it stands (R13, R138). -/
def takeFault (s : State) (wid : Nat) (run : Mask) (pc : Pc) (o : Op) (f : OpFault) : State :=
  takeTrap (retireFailed s wid o) wid run pc (faultLanes f run) f.cause f.addr f.detail

/-- The bounds a `c.wait` with these limits fixes at issue (R137). -/
def waitBounds (w : Warp) (l st c x : Nat) : List Nat :=
  [w.issuedOn 0 - l, w.issuedOn 1 - st, w.issuedOn 2 - c, w.issuedOn 3 - x]

/-- `c.wait` (R137, R138). -/
def execCWait (l st c x : Nat) (s : State) : Outcome State Fault Refusal :=
  issue s (Info.plain 3) (fun i =>
    let below := waitBounds i.w l st c x
    match judgeWait i.w below with
    | .met => .ok (i.done i.s (clearMarks i.wd below))
    | .failed o f =>
      .ok (trapNow (retireFailed i.s i.w.id o) i.sel (faultLanes f i.run) f.cause f.addr f.detail)
    | .pending => .ok (i.wait i.s i.wd (.counters below [l, st, c, x])))

/-! ### Tag waits (R139, R363) -/

/-- The tag map of the warp's context on its core, or on the core its block returns to. -/
def tagsOf (s : State) (c : Ctx) (w : Warp) : DWord := tagMap c ((homeCore s w).getD 0)

/-- A tag wait's condition. -/
def tagsMet (all : Bool) (mask tags : DWord) : Bool :=
  if all then tags &&& mask == mask else mask == 0#64 || tags &&& mask != 0#64

/-- A tag wait: it reads its mask pair in `lead`. -/
def tagWait (s : State) (a : Nat) (all : Bool) : Outcome State Fault Refusal :=
  issue s { Info.plain 3 with reserved := misaligned a 7 1 } (fun x =>
    match checkRegs x.w (oneLane x.lead) [a, a + 1] [] with
    | .error e => .error e
    | .ok _ =>
      let mask := BitVec.ofNat 64 (x.w.pair x.lead a)
      if tagsMet all mask (tagsOf x.s x.c x.w) then .ok (x.done x.s x.wd)
      else .ok (x.wait x.s x.wd (.tags all mask)))

/-- `c.twait.any` (R139). -/
def execCTwaitAny (a : Nat) (s : State) : Outcome State Fault Refusal := tagWait s a false

/-- `c.twait.all` (R139). -/
def execCTwaitAll (a : Nat) (s : State) : Outcome State Fault Refusal := tagWait s a true

/-- The index of the lowest set bit, or 64. -/
def lowestBit (v : DWord) : Nat := ((List.range 64).find? (fun i => v.getLsbD i)).getD 64

/-- Write values in uniform form by an instruction of class 11 (R22). -/
def Cx.putUniform (x : Cx) (w : Warp) : List Nat → List Nat → Warp
  | n :: ns, v :: vs => Cx.putUniform x (w.put x.everyone n (.uniform (BitVec.ofNat 32 v))) ns vs
  | _, _ => w

/-- `c.tffs` (R139). -/
def execCTffs (d a : Nat) (s : State) : Outcome State Fault Refusal :=
  issue s { Info.plain 3 with reserved := misaligned a 7 1 } (fun x =>
    match checkUniform x.w x.lead [a, a + 1] [d] with
    | .error e => .error e
    | .ok _ =>
      let v := tagsOf x.s x.c x.w &&& BitVec.ofNat 64 (x.w.pair x.lead a)
      .ok (x.done x.s (x.putUniform x.wd [d] [lowestBit v])))

/-- `c.tclr` (R139). -/
def execCTclr (a : Nat) (s : State) : Outcome State Fault Refusal :=
  issue s { Info.plain 3 with reserved := misaligned a 7 1 } (fun x =>
    match checkRegs x.w (oneLane x.lead) [a, a + 1] [] with
    | .error e => .error e
    | .ok _ =>
      let mask := BitVec.ofNat 64 (x.w.pair x.lead a)
      .ok (x.done (x.s.updCtx x.w.ctx (fun c => updTags c ((homeCore x.s x.w).getD 0) (fun m => m ||| mask))) x.wd))

/-! ### Barriers (R140, R141) -/

/-- The number that B's indices at the levels bound to a domain or a wider one form (R39, R140). -/
def groupOf (dom : Nat) : List Level → Nat → Nat
  | [], _ => 0
  | v :: vs, b =>
    if v.domain < 2 then groupOf dom vs b
    else if v.domain ≥ dom then b % max v.extent 1 + max v.extent 1 * groupOf dom vs (b / max v.extent 1)
    else groupOf dom vs (b / max v.extent 1)

/-- The number of static blocks: the product of the extents bound to core and wider (R39). -/
def LaunchRec.blocks (r : LaunchRec) : Nat :=
  ((r.levels.filter (fun v => decide (v.domain ≥ 2))).map Level.extent).foldl (· * ·) 1

/-- Block numbers that this launch, or this relaunch, runs. -/
def Launch.members (l : Launch) : List Nat :=
  match l.kind with
  | .blocks => List.range l.rec_.blocks
  | .seed => []
  | .reseed => []
  | .relaunch sel => sel

/-- Who a barrier of a scope belongs to: the warp, the block, or the launch with its group; none where R140 refuses it. -/
def barOwner (s : State) (w : Warp) (l : Launch) (sc : Nat) : Option (Nat × Nat) :=
  if sc = 0 then some (w.id, 0)
  else
    match w.block.bind s.block? with
    | none => none
    | some b =>
      if sc = 1 then some (b.id, 0)
      else if sc ≥ 5 || !l.rec_.levels.any (fun v => v.domain == sc + 1) then none
      else some (l.id, groupOf (sc + 1) l.rec_.levels b.number)

/-- The barrier, if an arrival or a copy has used it. -/
def State.bar? (s : State) (sc id owner group : Nat) : Option Bar :=
  s.bars.find? (fun b => b.scope == sc && b.id == id && b.owner == owner && b.group == group)

/-- The barrier and the state that holds it. -/
def State.needBar (s : State) (sc id owner group : Nat) : Bar × State :=
  match s.bar? sc id owner group with
  | some b => (b, s)
  | none =>
    let b : Bar := { key := s.nextId, scope := sc, id := id, owner := owner, group := group, phase := 0, expected := 0 }
    (b, { s with bars := s.bars ++ [b], nextId := s.nextId + 1 })

/-- A lane's arrival at a barrier that it has not waited for. -/
def Lane.arrivalAt (y : Lane) (sc id : Nat) : Option Arrival := y.arrivals.find? (fun a => a.scope == sc && a.id == id)

/-- A lane without its arrival at a barrier. -/
def Lane.dropArrival (y : Lane) (sc id : Nat) : Lane :=
  { y with arrivals := y.arrivals.filter (fun a => !(a.scope == sc && a.id == id)) }

/-- The lanes of a run arrive in a phase. -/
def arriveLanes (w : Warp) (run : Mask) (sc id phase : Nat) : Warp :=
  w.mapLanes run (fun _ y => { y with arrivals := { scope := sc, id := id, phase := phase, before := w.opBound } :: y.arrivals })

/-- The phase a run's wait ends with: the latest in which a lane of it arrived. -/
def waitPhase (w : Warp) (run : Mask) (sc id : Nat) : Nat :=
  (lanesOf run).foldl (fun n l => max n (((w.lane l).arrivalAt sc id).map Arrival.phase |>.getD 0)) 0

/-- A barrier instruction: `arr` says that it arrives, `wt` that it waits. -/
def barrierOp (s : State) (sc id : Nat) (arr wt : Bool) : Outcome State Fault Refusal :=
  issue s { Info.plain 3 with reserved := if sc ≥ 6 then 7 * 2 ^ 18 else 0 } (fun x =>
    match barOwner x.s x.w x.l sc with
    | none => .error (.trap x.run 0x09 0 [sc, id])
    | some (owner, group) =>
      match lanesWhere x.run (fun l => ((x.w.lane l).arrivalAt sc id).isSome == arr) with
      | some (who, _) => .error (.trap who 0x0A 0 [id, if arr then 0 else 1])
      | none =>
        let (b, s) := x.s.needBar sc id owner group
        let w := if arr then arriveLanes x.wd x.run sc id b.phase else x.wd
        if wt then
          let ph := waitPhase w x.run sc id
          if ph < b.phase then .ok (x.done s (w.mapLanes x.run (fun _ y => y.dropArrival sc id)))
          else .ok (x.wait s w (.barrier sc id ph arr))
        else .ok (x.done s w))

/-- `c.bar.arrive` (R141). -/
def execCBarArrive (sc id : Nat) (s : State) : Outcome State Fault Refusal := barrierOp s sc id true false

/-- `c.bar.wait` (R141). -/
def execCBarWait (sc id : Nat) (s : State) : Outcome State Fault Refusal := barrierOp s sc id false true

/-- `c.bar.sync` (R141). -/
def execCBarSync (sc id : Nat) (s : State) : Outcome State Fault Refusal := barrierOp s sc id true true

/-- An arrival counts: everything its warp issued before it is performed (R211), its writes of remote pages at their targets (R210;
log 60), engine commands apart (R215, R223). -/
def arrivalCounts (s : State) (w : Warp) (a : Arrival) : Bool :=
  w.ops.all (fun o => decide (o.id ≥ a.before) || o.isEngine || o.settled) &&
  !s.mod.remotes.any (fun r => r.write && r.warp == w.id && decide (r.op < a.before) && !w.ops.any (fun o => o.id == r.op && o.isEngine))

/-- A warp holds no lane that keeps a phase open: each has exited or has arrived in it. -/
def warpArrived (s : State) (w : Warp) (sc id phase : Nat) : Bool :=
  (lanesOf w.live).all (fun l =>
    match (w.lane l).arrivalAt sc id with
    | some a => a.phase == phase && arrivalCounts s w a
    | none => false)

/-- Warps of a block whose lanes take part in its barriers: its static warps (R140). -/
def blockWarps (s : State) (b : Nat) : List Warp :=
  s.warps.filter (fun w => w.block == some b && (match w.kind with | .static => true | _ => false))

/-- The warps that take part in a barrier; none while a block that takes part has not started. -/
def barWarps (s : State) (b : Bar) : Option (List Warp) :=
  if b.scope = 0 then some (s.warps.filter (fun w => w.id == b.owner))
  else if b.scope = 1 then some (blockWarps s b.owner)
  else
    match s.launch? b.owner with
    | none => none
    | some l =>
      let mine := l.members.filter (fun n => groupOf (b.scope + 1) l.rec_.levels n == b.group)
      if mine.all (fun n => l.started.contains n) then
        some ((s.blocks.filter (fun k => k.launch == l.id && mine.contains k.number)).flatMap (fun k => blockWarps s k.id))
      else none

/-- The barrier a waiting lane of a warp waits at. -/
def barOf (s : State) (w : Warp) (sc id : Nat) : Option Bar :=
  (s.launch? w.launch).bind (fun l => (barOwner s w l sc).bind (fun o => s.bar? sc id o.1 o.2))

/-- The runs of a warp that wait at a barrier for a phase, by their lanes. -/
def barrierRuns (s : State) (b : Bar) (w : Warp) : List Mask :=
  let m := maskOf (fun l => match (w.lane l).waits with
    | some (.barrier sc id ph _) => sc == b.scope && id == b.id && decide (ph ≤ b.phase) && (barOf s w sc id).map Bar.key == some b.key
    | _ => false)
  splitByPc w 32 m

/-- A run that waits at a barrier goes on: its arrivals are waited for. -/
def endBarrier (sc id : Nat) (s : State) (x : Nat × Mask) : State :=
  match s.warp? x.1 with
  | none => s
  | some w =>
    match (w.lane (leadOf x.2)).cond with
    | .waiting _ next _ =>
      completeWait (s.updWarp x.1 (fun w => w.mapLanes x.2 (fun _ y => y.dropArrival sc id))) x.1 x.2 next
    | _ => s

/-- The phase of a barrier completes: it is over, and every run that waits for it is ready as a whole (R18, R141). -/
def wakeBarrier (b : Bar) (s : State) : State :=
  let runs := s.warps.flatMap (fun w => (barrierRuns s b w).map (fun m => (w.id, m)))
  runs.foldl (endBarrier b.scope b.id)
    { s with bars := updFirst (fun k => k.key == b.key) (fun k => { k with phase := k.phase + 1 }) s.bars }

/-- BARRIER_PHASE_COMPLETE (R141): every participant that has not exited has arrived, and every copy that signals the
barrier has (R278); the arrivals are releases, so reductions held on the participants' cores are pushed home (R220). The runs that wait for the
phase are ready at once (R18). -/
def execBarrierPhaseComplete (bar : Nat) (s : State) : Outcome State Fault Refusal :=
  match s.bars.find? (fun b => b.key == bar) with
  | none => .next s
  | some b =>
    match barWarps s b with
    | none => .next s
    | some ws =>
      if !(ws.any (fun w => s.saved w.ctx)) && b.expected = 0 && ws.all (fun w => warpArrived s w b.scope b.id b.phase)
          && ws.any (fun w => (lanesOf allLanes).any (fun l => ((w.lane l).arrivals.any (fun a =>
            a.scope == b.scope && a.id == b.id && a.phase == b.phase)))) then
        let s := (ws.filterMap (homeCore s)).foldl pushLines s
        .next (wakeBarrier b s)
      else .next s

/-- Relaunches queued by `e.relaunch` that have not started (R342). -/
def queuedRelaunches (s : State) (ctx : Nat) : List Job :=
  s.jobs.filter (fun j => j.ctx == ctx && j.source == .relaunch && j.state == .held)

/-- WAIT_COMPLETE (R137, R141, R136, R342): the wait of the run that holds lane `lane` ends, or takes a fault, if it can:
a counter wait, a barrier wait, a counter that stood at 63, a full relaunch queue. -/
def execWaitComplete (warp lane : Nat) (s : State) : Outcome State Fault Refusal :=
  match s.awakeWarp? warp with
  | none => .next s
  | some w =>
    match (w.lane lane).cond with
    | .waiting what next _ =>
      let run := waitingRun w lane
      let pc := (w.lane lane).pc
      match what with
      | .counters below _ =>
        match judgeWait w below with
        | .met => .next (completeWait (s.updWarp warp (fun w => clearMarks w below)) warp run next)
        | .failed o f => .next (takeFault s warp run pc o f)
        | .pending => .next s
      | .barrier sc id ph _ =>
        match barOf s w sc id with
        | none => .next s
        | some b =>
          if ph < b.phase then
            .next (completeWait (s.updWarp warp (fun w => w.mapLanes run (fun _ y => y.dropArrival sc id))) warp run next)
          else .next s
      | .full k => if w.outstanding k < 63 then .next (endWait s warp run pc) else .next s
      | .relaunch =>
        if (queuedRelaunches s w.ctx).length < 16 && orderAt s w s.nextId true true
        then .next (endWait s warp run pc) else .next s
      | _ => .next s
    | _ => .next s

/-- TAG_WAIT_COMPLETE (R139). -/
def execTagWaitComplete (warp lane : Nat) (s : State) : Outcome State Fault Refusal :=
  match s.awakeWarp? warp with
  | none => .next s
  | some w =>
    match s.ctx? w.ctx, (w.lane lane).cond with
    | some c, .waiting (.tags all mask) next _ =>
      if tagsMet all mask (tagsOf s c w) then .next (completeWait s warp (waitingRun w lane) next) else .next s
    | _, _ => .next s

/-! ### Other control (R138, R142) -/

/-- `c.nop`. -/
def execCNop (s : State) : Outcome State Fault Refusal := issue s (Info.plain 3) (fun x => .ok (x.done x.s x.wd))

/-- `c.yield` (R19). -/
def execCYield (s : State) : Outcome State Fault Refusal :=
  issue s (Info.plain 3) (fun x => .ok (x.finish x.s x.wd (fun _ => x.next) true))

/-- The first unreported fault of a warp, in issue order (R138). -/
def firstFault (w : Warp) : Option (Op × OpFault) :=
  w.ops.findSome? (fun o => match o.state with | .failed f => some (o, f) | _ => none)

/-- Lanes exit (R18). -/
def exitLanes (w : Warp) (m : Mask) : Warp := w.mapLanes m (fun _ y => { y with cond := .exited })

/-- `c.exit` (R142), which takes an unreported fault where it would end the warp's last lanes (R138); a lane of a seed or
formed warp leaves the spawn-tree count (R241). -/
def execCExit (s : State) : Outcome State Fault Refusal :=
  issue s (Info.plain 3) (fun x =>
    match (if x.w.live &&& ~~~x.run = 0#32 then firstFault x.w else none) with
    | some (o, f) => .ok (trapNow (retireFailed x.s x.w.id o) x.sel (faultLanes f x.run) f.cause f.addr f.detail)
    | none =>
      match countExits x.s x.w x.run with
      | .error e => .error (stopOf x.run e)
      | .ok s => .ok (x.finish s (exitLanes (syncWaits s x.wd) x.run) (fun l => (x.w.lane l).pc) false))

/-- An instruction that completes, and after which its run stops at the next word (R142): the detail holds its own
address and a code. -/
def stopAfter (s : State) (i : Info) (cause code : Nat) : Outcome State Fault Refusal :=
  issue s i (fun x =>
    let s := x.advance x.s x.wd (fun _ => x.next) false
    .ok (takeTrap s x.w.id x.run x.next x.run cause 0 (twoWords x.sel.addr.toNat ++ [code])))

/-- `c.brk` (R142): BREAKPOINT. -/
def execCBrk (b : Nat) (s : State) : Outcome State Fault Refusal := stopAfter s (Info.plain 3) 0x06 b

/-- `c.trap` (R142): cause 0x58 + n. -/
def execCTrap (n : Nat) (s : State) : Outcome State Fault Refusal := stopAfter s (Info.plain 3) (0x58 + n) n

end Sys2Proof.Machine
end

