-- ==== Sys2Proof/Machine/MemOps.lean ====
section
/-! DEFINITION. Loads and stores, atomics, `cas`, reductions, fences, monitors and page requests: class 10, majors 0x00 to
0x0D (R177 to R198), and the events in which they perform. -/

namespace Sys2Proof.Machine

open Host (Outcome)

/-! ### Addresses and operations -/

/-- Bytes of a size code (R46). -/
def sizeBytes (z : Nat) : Nat :=
  match z with
  | 0 => 1
  | 1 => 2
  | 2 => 4
  | 3 => 8
  | 4 => 16
  | 5 => 1
  | _ => 2

/-- The byte offset of format M (R46, R60). -/
def byteOffset (h : Hints) (o size : Nat) : Int :=
  match h.imm with
  | none => o * size
  | some x => signed 33 (x * 2 ^ 8 + o) * size

/-- The address of a lane (R60, R177). -/
def Cx.addr (x : Cx) (a : Nat) (off : Int) (l : Nat) : Nat := ((((x.w.pair l a : Nat) : Int) + off) % 2 ^ 64).toNat

/-- Consecutive registers. -/
def regsFrom (d n : Nat) : List Nat := (List.range n).map (fun i => d + i)

/-- The registers of a size. -/
def sizeRegs (d size : Nat) : List Nat := regsFrom d ((size + 3) / 4)

/-- The value of consecutive registers, the lowest first. -/
def Warp.words (w : Warp) (l d : Nat) : Nat → Nat
  | 0 => 0
  | n + 1 => w.val l d + 2 ^ 32 * Warp.words w l (d + 1) n

/-- One lane's access. -/
def mkPart (lane va size : Nat) (pl : Place) (data expect : Nat) : Part where
  lane := lane
  va := va
  size := size
  tgt := pl.tgt
  leaf := pl.leaf
  also := []
  data := data
  expect := expect
  args := []
  done := false
  got := 0
  present := false
  refused := none
  sent := false

/-- Issue an operation with its lanes' parts: destination registers are marked pending (R33), the counter rises; with no
active lane it retires at once, in order (R62). -/
def Cx.issueOp (x : Cx) (w : Warp) (k : Nat) (kind : OpKind) (parts : List Part) (scope : Nat) (dsts : List Nat)
    (lanes : Mask) : State :=
  if parts.isEmpty then
    let r := addOp x.s w k .none [] scope none .done
    retireAll (x.done r.1 r.2) w.id k
  else
    let marks := dsts.map (fun n => { reg := n, lanes := lanes, seq := w.issuedOn k : Mark })
    let r := addOp x.s { w with marks := w.marks ++ marks } k kind parts scope none .running
    x.done r.1 r.2

/-- The checks of a class 10 word: the hints that apply, reserved values. -/
def memInfo (imm scope : Bool) (reserved : Nat) : Info :=
  { cls := 2, imm := imm, src3 := false, rnd := false, scope := scope, guard := true, illegal := false, reserved := reserved }

/-- The checks of a class 10 word whose description takes no hint but `h.last` and the advisory ones (R242, R245, R270, R294,
R317, R328, R342). -/
def bareInfo (reserved : Nat) : Info := { memInfo false false reserved with guard := false }

/-- Reserved values and misaligned fields of format M (R45, R47): the whole field of a reserved code, the set bits that misalign a
register (DEDUCED, log 21). -/
def memReserved (store : Bool) (z d a : Nat) : Nat :=
  (if z = 7 || (store && (z = 5 || z = 6)) then 7 * 2 ^ 22 else 0)
    + (if z = 3 then misaligned d 15 1 else if z = 4 then misaligned d 15 2 else 0) + misaligned a 8 1

/-! ### Loads -/

/-- The predicate stacks of lanes with a pending entry pushed (R182). -/
def pushPending (w : Warp) (m : Mask) (seq : Nat) : Warp :=
  w.mapLanes m (fun _ y => y.push { val := false, pend := some seq })

/-- A load in each active lane (R181 to R183). -/
def loadOp (s : State) (i : Info) (z d a o : Nat) (pr acq : Bool) : Outcome State Fault Refusal :=
  issue s i (fun x =>
    let n := sizeBytes z
    let dsts := sizeRegs d n
    match checkRegs x.w x.act [a, a + 1] dsts with
    | .error e => .error e
    | .ok _ =>
      let addr := x.addr a (byteOffset x.hints o n)
      match judgeLanes x.s x.c x.w.block .load 0 n addr x.act with
      | .error e => .error e
      | .ok places =>
        match holdFull x.w 0 with
        | .error e => .error e
        | .ok _ =>
          let parts := places.map (fun p => mkPart p.1 (addr p.1) n p.2 0 0)
          let w := if pr then pushPending x.wd x.act (x.w.issuedOn 0) else x.wd
          let kind := OpKind.load d n (decide (z ≥ 5)) false pr (if acq then some x.scope else none)
          .ok (x.issueOp w 0 kind parts x.scope dsts x.act))

/-- `m.ld` (R181). -/
def execMLd (z d a o : Nat) (s : State) : Outcome State Fault Refusal :=
  loadOp s (memInfo true false (memReserved false z d a)) z d a o false false

/-- `m.ld.pr` (R182). -/
def execMLdPr (z d a o : Nat) (s : State) : Outcome State Fault Refusal :=
  loadOp s (memInfo true false (memReserved false z d a)) z d a o true false

/-- `m.ld.acq` (R183). -/
def execMLdAcq (z d a o : Nat) (s : State) : Outcome State Fault Refusal :=
  loadOp s (memInfo true true (memReserved false z d a)) z d a o false true

/-- `m.ldu` (R184): one load at the address of `lead`, for every lane that has not exited. -/
def execMLdu (z d a o : Nat) (s : State) : Outcome State Fault Refusal :=
  issue s (memInfo true false (memReserved false z d a)) (fun x =>
    let n := sizeBytes z
    let dsts := sizeRegs d n
    let who := if x.act = 0#32 then 0#32 else x.everyone
    match checkNamed x.w who (fun l => if l = x.lead then [a, a + 1] else []) (fun _ => dsts) (fun _ => []) with
    | .error e => .error e
    | .ok _ =>
      let addr := x.addr a (byteOffset x.hints o n)
      match judgeLanes x.s x.c x.w.block .load 0 n addr (if x.act = 0#32 then 0#32 else oneLane x.lead) with
      | .error e => .error e
      | .ok places =>
        match holdFull x.w 0 with
        | .error e => .error e
        | .ok _ =>
          let parts := places.map (fun p => mkPart p.1 (addr p.1) n p.2 0 0)
          .ok (x.issueOp x.wd 0 (.load d n (decide (z ≥ 5)) true false none) parts x.scope dsts x.everyone))

/-! ### Stores -/

/-- A store in each active lane (R185). -/
def storeOp (s : State) (i : Info) (z d a o : Nat) (rel : Bool) : Outcome State Fault Refusal :=
  issue s i (fun x =>
    let n := sizeBytes z
    let k := (n + 3) / 4
    match checkRegs x.w x.act ([a, a + 1] ++ regsFrom d k) [] with
    | .error e => .error e
    | .ok _ =>
      let addr := x.addr a (byteOffset x.hints o n)
      match judgeLanes x.s x.c x.w.block .store 0 n addr x.act with
      | .error e => .error e
      | .ok places =>
        match holdFull x.w 1 with
        | .error e => .error e
        | .ok _ =>
          let parts := places.map (fun p => mkPart p.1 (addr p.1) n p.2 (x.w.words p.1 d k % 256 ^ n) 0)
          .ok (x.issueOp x.wd 1 (.store (if rel then some x.scope else none)) parts x.scope [] 0#32))

/-- `m.st` (R185). -/
def execMSt (z d a o : Nat) (s : State) : Outcome State Fault Refusal :=
  storeOp s (memInfo true false (memReserved true z d a)) z d a o false

/-- `m.st.rel` (R183). -/
def execMStRel (z d a o : Nat) (s : State) : Outcome State Fault Refusal :=
  storeOp s (memInfo true true (memReserved true z d a)) z d a o true

/-! ### Atomics, compare-and-swap, reductions -/

/-- The op field of formats MA and A3. -/
def Cx.opField (x : Cx) : Nat := fld x.word 21 4

/-- Misaligned fields of format MA where the operands have `n` bytes. -/
def maReserved (n d a b : Nat) (pd : Bool) : Nat := oddPairs d a b (pd && n == 8) true (n == 8)

/-- A returning atomic (R186 to R188). -/
def atomOp (s : State) (fn : AtomFn) (d a b : Nat) : Outcome State Fault Refusal :=
  issue s (memInfo false true (maReserved fn.bytes d a b true)) (fun x =>
    let n := fn.bytes
    let k := n / 4
    match checkRegs x.w x.act ([a, a + 1] ++ regsFrom b k) (regsFrom d k) with
    | .error e => .error e
    | .ok _ =>
      let addr := x.addr a 0
      match judgeLanes x.s x.c x.w.block (.atomic (fn == .add64 || fn == .exch64)) x.opField n addr x.act with
      | .error e => .error e
      | .ok places =>
        match holdFull x.w 0 with
        | .error e => .error e
        | .ok _ =>
          let parts := places.map (fun p => mkPart p.1 (addr p.1) n p.2 (x.w.words p.1 b k) 0)
          .ok (x.issueOp x.wd 0 (.atomic fn d) parts x.scope (regsFrom d k) x.act))

/-- `m.cas` (R189): d holds the expected value. -/
def casOp (s : State) (n d a b : Nat) : Outcome State Fault Refusal :=
  issue s (memInfo false true (maReserved n d a b true)) (fun x =>
    let k := n / 4
    match checkRegs x.w x.act ([a, a + 1] ++ regsFrom d k ++ regsFrom b k) [] with
    | .error e => .error e
    | .ok _ =>
      let addr := x.addr a 0
      match judgeLanes x.s x.c x.w.block (.atomic (n == 8)) x.opField n addr x.act with
      | .error e => .error e
      | .ok places =>
        match holdFull x.w 0 with
        | .error e => .error e
        | .ok _ =>
          let parts := places.map (fun p =>
            mkPart p.1 (addr p.1) n p.2 (x.w.words p.1 b k) (x.w.words p.1 d k))
          .ok (x.issueOp x.wd 0 (.cas d n) parts x.scope (regsFrom d k) x.act))

/-- A reduction (R191). -/
def redOp (s : State) (fn : AtomFn) (a b : Nat) : Outcome State Fault Refusal :=
  issue s (memInfo false true (maReserved fn.bytes 0 a b false)) (fun x =>
    let n := fn.bytes
    let k := n / 4
    match checkRegs x.w x.act ([a, a + 1] ++ regsFrom b k) [] with
    | .error e => .error e
    | .ok _ =>
      let addr := x.addr a 0
      match judgeLanes x.s x.c x.w.block (.reduce (fn == .add64)) x.opField n addr x.act with
      | .error e => .error e
      | .ok places =>
        match holdFull x.w 1 with
        | .error e => .error e
        | .ok _ =>
          let parts := places.map (fun p => mkPart p.1 (addr p.1) n p.2 (x.w.words p.1 b k) 0)
          .ok (x.issueOp x.wd 1 (.reduce fn) parts x.scope [] 0#32))

/-- `m.atom.add.s32` (R187, R188). -/
def execMAtomAddS32 (d a b : Nat) (s : State) : Outcome State Fault Refusal := atomOp s .add32 d a b

/-- `m.atom.and.b32` (R187, R188). -/
def execMAtomAndB32 (d a b : Nat) (s : State) : Outcome State Fault Refusal := atomOp s .and32 d a b

/-- `m.atom.or.b32` (R187, R188). -/
def execMAtomOrB32 (d a b : Nat) (s : State) : Outcome State Fault Refusal := atomOp s .or32 d a b

/-- `m.atom.xor.b32` (R187, R188). -/
def execMAtomXorB32 (d a b : Nat) (s : State) : Outcome State Fault Refusal := atomOp s .xor32 d a b

/-- `m.atom.min.s32` (R187, R188). -/
def execMAtomMinS32 (d a b : Nat) (s : State) : Outcome State Fault Refusal := atomOp s .minS32 d a b

/-- `m.atom.max.s32` (R187, R188). -/
def execMAtomMaxS32 (d a b : Nat) (s : State) : Outcome State Fault Refusal := atomOp s .maxS32 d a b

/-- `m.atom.min.z32` (R187, R188). -/
def execMAtomMinZ32 (d a b : Nat) (s : State) : Outcome State Fault Refusal := atomOp s .minZ32 d a b

/-- `m.atom.max.z32` (R187, R188). -/
def execMAtomMaxZ32 (d a b : Nat) (s : State) : Outcome State Fault Refusal := atomOp s .maxZ32 d a b

/-- `m.atom.exch.b32` (R187, R188). -/
def execMAtomExchB32 (d a b : Nat) (s : State) : Outcome State Fault Refusal := atomOp s .exch32 d a b

/-- `m.atom.add.s64` (R187, R188). -/
def execMAtomAddS64 (d a b : Nat) (s : State) : Outcome State Fault Refusal := atomOp s .add64 d a b

/-- `m.atom.and.b64` (R187, R188). -/
def execMAtomAndB64 (d a b : Nat) (s : State) : Outcome State Fault Refusal := atomOp s .and64 d a b

/-- `m.atom.or.b64` (R187, R188). -/
def execMAtomOrB64 (d a b : Nat) (s : State) : Outcome State Fault Refusal := atomOp s .or64 d a b

/-- `m.atom.xor.b64` (R187, R188). -/
def execMAtomXorB64 (d a b : Nat) (s : State) : Outcome State Fault Refusal := atomOp s .xor64 d a b

/-- `m.atom.min.s64` (R187, R188). -/
def execMAtomMinS64 (d a b : Nat) (s : State) : Outcome State Fault Refusal := atomOp s .minS64 d a b

/-- `m.atom.max.s64` (R187, R188). -/
def execMAtomMaxS64 (d a b : Nat) (s : State) : Outcome State Fault Refusal := atomOp s .maxS64 d a b

/-- `m.atom.min.z64` (R187, R188). -/
def execMAtomMinZ64 (d a b : Nat) (s : State) : Outcome State Fault Refusal := atomOp s .minZ64 d a b

/-- `m.atom.max.z64` (R187, R188). -/
def execMAtomMaxZ64 (d a b : Nat) (s : State) : Outcome State Fault Refusal := atomOp s .maxZ64 d a b

/-- `m.atom.exch.b64` (R187, R188). -/
def execMAtomExchB64 (d a b : Nat) (s : State) : Outcome State Fault Refusal := atomOp s .exch64 d a b

/-- `m.atom.add.f32` (R187, R188). -/
def execMAtomAddF32 (d a b : Nat) (s : State) : Outcome State Fault Refusal := atomOp s .addF32 d a b

/-- `m.atom.min.f32` (R187, R188). -/
def execMAtomMinF32 (d a b : Nat) (s : State) : Outcome State Fault Refusal := atomOp s .minF32 d a b

/-- `m.atom.max.f32` (R187, R188). -/
def execMAtomMaxF32 (d a b : Nat) (s : State) : Outcome State Fault Refusal := atomOp s .maxF32 d a b

/-- `m.atom.add.f16x2` (R187, R188). -/
def execMAtomAddF16x2 (d a b : Nat) (s : State) : Outcome State Fault Refusal := atomOp s .addF16x2 d a b

/-- `m.atom.add.bf16x2` (R187, R188). -/
def execMAtomAddBf16x2 (d a b : Nat) (s : State) : Outcome State Fault Refusal := atomOp s .addBf16x2 d a b

/-- `m.red.add.s32` (R191). -/
def execMRedAddS32 (a b : Nat) (s : State) : Outcome State Fault Refusal := redOp s .add32 a b

/-- `m.red.add.s64` (R191). -/
def execMRedAddS64 (a b : Nat) (s : State) : Outcome State Fault Refusal := redOp s .add64 a b

/-- `m.red.add.f32` (R191). -/
def execMRedAddF32 (a b : Nat) (s : State) : Outcome State Fault Refusal := redOp s .addF32 a b

/-- `m.red.min.s32` (R191). -/
def execMRedMinS32 (a b : Nat) (s : State) : Outcome State Fault Refusal := redOp s .minS32 a b

/-- `m.red.max.s32` (R191). -/
def execMRedMaxS32 (a b : Nat) (s : State) : Outcome State Fault Refusal := redOp s .maxS32 a b

/-- `m.red.min.z32` (R191). -/
def execMRedMinZ32 (a b : Nat) (s : State) : Outcome State Fault Refusal := redOp s .minZ32 a b

/-- `m.red.max.z32` (R191). -/
def execMRedMaxZ32 (a b : Nat) (s : State) : Outcome State Fault Refusal := redOp s .maxZ32 a b

/-- `m.red.and.b32` (R191). -/
def execMRedAndB32 (a b : Nat) (s : State) : Outcome State Fault Refusal := redOp s .and32 a b

/-- `m.red.or.b32` (R191). -/
def execMRedOrB32 (a b : Nat) (s : State) : Outcome State Fault Refusal := redOp s .or32 a b

/-- `m.red.xor.b32` (R191). -/
def execMRedXorB32 (a b : Nat) (s : State) : Outcome State Fault Refusal := redOp s .xor32 a b

/-- `m.red.min.f32` (R191). -/
def execMRedMinF32 (a b : Nat) (s : State) : Outcome State Fault Refusal := redOp s .minF32 a b

/-- `m.red.max.f32` (R191). -/
def execMRedMaxF32 (a b : Nat) (s : State) : Outcome State Fault Refusal := redOp s .maxF32 a b

/-- `m.red.add.f16x2` (R191). -/
def execMRedAddF16x2 (a b : Nat) (s : State) : Outcome State Fault Refusal := redOp s .addF16x2 a b

/-- `m.red.add.bf16x2` (R191). -/
def execMRedAddBf16x2 (a b : Nat) (s : State) : Outcome State Fault Refusal := redOp s .addBf16x2 a b

/-- `m.cas.b32` (R189). -/
def execMCasB32 (d a b : Nat) (s : State) : Outcome State Fault Refusal := casOp s 4 d a b

/-- `m.cas.b64` (R189). -/
def execMCasB64 (d a b : Nat) (s : State) : Outcome State Fault Refusal := casOp s 8 d a b

/-! ### Fences (R194) -/

/-- A fence: 0 acq, 1 rel, 2 full. At fabric scope it first raises a logged failure of a remote store (R353). -/
def fenceOp (s : State) (sc kind : Nat) : Outcome State Fault Refusal :=
  issue s (memInfo false false (if sc ≥ 6 then 7 * 2 ^ 22 else 0)) (fun x =>
    if x.act = 0#32 then .ok (x.done x.s x.wd)
    else
      let past := (lanesOf x.run).any (fun l => (x.w.lane l).pastFence)
      match (if sc = 5 && !past then x.w.lateFaults else []) with
      | f :: rest =>
        let s := x.s.updWarp x.w.id (fun w =>
          { w.mapLanes x.run (fun _ y => { y with pastFence := true }) with lateFaults := rest })
        .ok (trapNow s x.sel x.run f.cause f.addr f.detail)
      | [] =>
        let s := if kind = 0 then x.s else match x.w.core? with | some core => pushLines x.s core | none => x.s
        let live := x.wd.fences.filter (fun f => x.w.ops.any (fun o => decide (o.id < f.before)) || remoteWrites x.s x.w f.before)
        let fences := if x.w.ops.isEmpty && !remoteWrites x.s x.w x.w.opBound then live else live ++ [{ before := x.w.opBound, kind := kind, scope := sc }]
        let w := { (syncWaits s x.wd).mapLanes x.run (fun _ y => { y with pastFence := false }) with fences := fences }
        .ok (x.done s w))

/-- `m.fence.<scope>.acq`. -/
def execMFenceAcq (sc : Nat) (s : State) : Outcome State Fault Refusal := fenceOp s sc 0

/-- `m.fence.<scope>.rel`. -/
def execMFenceRel (sc : Nat) (s : State) : Outcome State Fault Refusal := fenceOp s sc 1

/-- `m.fence.<scope>.full`. -/
def execMFenceFull (sc : Nat) (s : State) : Outcome State Fault Refusal := fenceOp s sc 2

/-! ### Condition monitors (R195 to R197) -/

/-- The word of a monitor as its registration reads it: zero on a page that is not present (R171). -/
def monitorWord (s : State) (c : Ctx) (w : Warp) (va n : Nat) : Except AccErr (Nat × State) :=
  match readChunk s c w.block 0 va n with
  | .error (.wait _ _) => .ok (0, s)
  | .error (.refused _) => .ok (0, s)
  | r => r

/-- `m.mwait`: the address and value of the lowest active lane; the whole run waits. It is an access of its warp (R178), so it
is performed after what the warp's acquires and fences order before it. -/
def execMMwait (o a b : Nat) (s : State) : Outcome State Fault Refusal :=
  issue s { memInfo false false (maReserved (if o ≥ 8 then 8 else 4) 0 a b false) with illegal := o % 8 == 7 } (fun x =>
    if x.act = 0#32 then .ok (x.done x.s x.wd)
    else
      let l := leadOf x.act
      let n := if o ≥ 8 then 8 else 4
      match checkRegs x.w (oneLane l) ([a, a + 1] ++ regsFrom b (n / 4)) [] with
      | .error e => .error e
      | .ok _ =>
        let addr := x.addr a 0
        match judgeLanes x.s x.c x.w.block .monitor x.opField n addr (oneLane l) with
        | .error e => .error e
        | .ok _ =>
          match holdRead x.s x.w l (addr l) n false with
          | .error e => .error e
          | .ok _ =>
            match monitorWord x.s x.c x.w (addr l) n with
            | .error e => .error (stopOf (oneLane l) e)
            | .ok (word, s) =>
              let s := traceRead s x.w.ctx x.l.id (x.w.origin l) (addr l) n
              let value := x.w.words l b (n / 4)
              let w := syncWaits s x.wd
              if monitorHolds o n word value then .ok (x.done s w) else .ok (x.wait s w (.monitor o (addr l) n value false)))

/-- The end of a context whose monitor has met uncorrectable data (R358). -/
def monitorEnd (s : State) (w : Warp) (cause addr : Nat) : State :=
  if cause = 0x50 then endWith s w.ctx cause 0 [(homeCore s w).getD 0] else endWith s w.ctx cause addr []

/-- MONITOR_WAKE (R196, R197): a write made the condition hold, or ended an `any` wait. -/
def execMonitorWake (warp lane : Nat) (s : State) : Outcome State Fault Refusal :=
  match s.awakeWarp? warp with
  | none => .next s
  | some w =>
    match (w.lane lane).cond with
    | .waiting (.monitor op addr _ value true) next _ =>
      if op = 16 then .next (monitorEnd s w value addr)
      else .next (completeWait s warp (waitingRun w lane) next)
    | _ => .next s

/-- The L2 slice that is a physical address's home (R163). -/
def homeSlice (pa : Nat) : Nat := 64 * (pa / 2 ^ 36 / 3) + Config.homeSlice (pa / 128) % 64

/-- The home slice of a waiting lane's monitor, where its word lies in HBM. -/
def monitorSlice (s : State) (c : Ctx) (w : Warp) (x : Lane) : Option Nat :=
  match x.waits with
  | some (.monitor _ addr size _ _) =>
    (match resolve s c w.block .read 0 addr size with
     | .ok ⟨.hbm pa, _⟩ => some (homeSlice pa)
     | _ => none)
  | _ => none

/-- Runs that wait on monitors of a slice since a clock or earlier. -/
def sliceMonitors (s : State) (slice since : Nat) : Nat :=
  (s.warps.map (fun w =>
    match s.ctx? w.ctx with
    | none => 0
    | some c => (splitByPc w 32 (maskOf (fun l => monitorSlice s c w (w.lane l) == some slice &&
        (match (w.lane l).cond with | .waiting _ _ t => decide (t ≤ since) | _ => false)))).length)).foldl (· + ·) 0

/-- MONITOR_REREAD (R197): where the 128 monitors of the word's slice are in use by earlier waits, firmware serves a further
one by reading the word; it ends where the condition holds, and an `any` wait ends. -/
def execMonitorReread (warp lane : Nat) (s : State) : Outcome State Fault Refusal :=
  match s.awakeWarp? warp with
  | none => .next s
  | some w =>
    match s.ctx? w.ctx, (w.lane lane).cond with
    | some c, .waiting (.monitor op addr size value hit) next since =>
      match monitorSlice s c w (w.lane lane) with
      | none => .next s
      | some slice =>
        if sliceMonitors s slice since ≤ 128 then .next s
        else
          match readChunk s c w.block 0 addr size with
          | .error (.bad cause a d) => .next (endWith s w.ctx cause a d)
          | _ =>
            if hit || op % 8 == 6 || monitorHolds op size (wordNow s c w.block addr size) value then
              .next (completeWait s warp (waitingRun w lane) next)
            else .next s
    | _, _ => .next s

/-! ### Page requests (R198) -/

/-- Why `m.pgreq` refuses an address, and its place in the order of R198. -/
def pgreqErr (s : State) (c : Ctx) (va : Nat) : Option AccErr :=
  if va ≥ 2 ^ 56 then some (.trap 0x10 va [])
  else if va ≥ windowBase then (if inFixedWindow va then none else some (.trap 0x11 va [0]))
  else
    match walk s c va with
    | .invalid => some (.trap 0x11 va [0])
    | .malformed => some (.walk va)
    | .leaf l =>
      if l.rem then none
      else if inCarve l.frame then some (.trap 0x1C va [])
      else if pageState c l = 3 then some (.refused va)
      else none

/-- `m.pgreq`. -/
def execMPgreq (a : Nat) (s : State) : Outcome State Fault Refusal :=
  issue s (memInfo false false (misaligned a 7 1)) (fun x =>
    match checkRegs x.w x.act [a, a + 1] [] with
    | .error e => .error e
    | .ok _ =>
      let addr := x.addr a 0
      let errs := (lanesOf x.act).filterMap (fun l => (pgreqErr x.s x.c (addr l)).map (fun e => (l, errRank (addr l) e, e)))
      match stopOfLanes errs with
      | some e => .error e
      | none =>
        let pages := (lanesOf x.act).filterMap (fun l =>
          match leafOf x.s x.c (addr l) with
          | some lf => if pageState x.c lf = 0 then some lf.page else none
          | none => none)
        let s := requestPages x.s x.w.ctx pages
        .ok (x.done s (syncWaits s x.wd)))

/-- `m.pgprobe`. -/
def execMPgprobe (d a : Nat) (s : State) : Outcome State Fault Refusal :=
  issue s (memInfo false false (misaligned a 7 1)) (fun x =>
    match checkRegs x.w x.act [a, a + 1] [d] with
    | .error e => .error e
    | .ok _ =>
      let addr := x.addr a 0
      match lanesWhere x.act (fun l => decide (addr l ≥ 2 ^ 56)) with
      | some (who, l) => .error (.trap who 0x10 (addr l) [])
      | none =>
        match holdFull x.w 0 with
        | .error e => .error e
        | .ok _ =>
          let parts := (lanesOf x.act).map (fun l => mkPart l (addr l) 0 ⟨.absent, none⟩ 0 0)
          .ok (x.issueOp x.wd 0 (.probe d) parts x.scope [d] x.act))

/-- `m.pref`: it changes no visible state. -/
def execMPref (a : Nat) (s : State) : Outcome State Fault Refusal :=
  issue s (memInfo false false (misaligned a 7 1)) (fun x =>
    match checkRegs x.w x.act [a, a + 1] [] with
    | .error e => .error e
    | .ok _ => .ok (x.done x.s x.wd))

/-- What `m.pgprobe` reads (R198). -/
def probeValue (s : State) (c : Ctx) (va : Nat) : Nat :=
  if va ≥ windowBase then
    if va < windowBase + 2 ^ 42 || (scratchBase ≤ va && va < scratchBase + 2 ^ 24) || (tileBase ≤ va && va < tileBase + 2 ^ 24)
    then 2 else 0
  else residencyWord s c (va / 2 ^ 16)

/-! ### The events in which operations perform -/

/-- The lanes an event names. -/
def eventLanes (m : Nat) : List Nat := lanesOf (BitVec.ofNat 32 m)

/-- A probe of one lane. -/
def performProbe (s : State) (w : Warp) (_o : Op) (p : Part) : Performed :=
  match s.ctx? w.ctx with
  | none => .held s
  | some c => .yes s { p with done := true, got := probeValue s c p.va }

/-- LOAD_RETIRE (R181): loads and probes of the named lanes are performed; when all are, the operation retires in order. -/
def execLoadRetire (op lanes : Nat) (s : State) : Outcome State Fault Refusal :=
  match s.awakeOp? op with
  | none => .next s
  | some (_, o) =>
    match o.kind with
    | .load _ _ _ _ _ _ => .next (performOp performLoad op s (eventLanes lanes))
    | .probe _ => .next (performOp performProbe op s (eventLanes lanes))
    | _ => .next s

/-- STORE_PERFORM (R183, R185): before a release the issuing core's update-only lines are pushed to their homes, wherever its block is
now. -/
def execStorePerform (op lanes : Nat) (s : State) : Outcome State Fault Refusal :=
  match s.awakeOp? op with
  | none => .next s
  | some (w, o) =>
    match o.kind with
    | .store rel =>
      if orderOk s w o then
        let s := if rel.isSome then (match homeCore s w with | some c => pushLines s c | none => s) else s
        .next (performOp performStore op s (eventLanes lanes))
      else .next s
    | _ => .next s

/-- ATOMIC_PERFORM (R187, R189). -/
def execAtomicPerform (op lanes : Nat) (s : State) : Outcome State Fault Refusal :=
  match s.awakeOp? op with
  | none => .next s
  | some (_, o) =>
    match o.kind with
    | .atomic _ _ => .next (performOp performAtomic op s (eventLanes lanes))
    | .cas _ _ => .next (performOp performAtomic op s (eventLanes lanes))
    | _ => .next s

/-- A monitor is registered on a line (R193). -/
def lineMonitored (s : State) (line : Nat) : Bool :=
  s.warps.any (fun w =>
    match s.ctx? w.ctx with
    | none => false
    | some c => (lanesOf allLanes).any (fun l =>
        match (w.lane l).waits with
        | some (.monitor _ addr size _ _) =>
          (match resolve s c w.block .read 0 addr size with
           | .ok ⟨.hbm pa, _⟩ => pa / 128 == line
           | _ => false)
        | _ => false))

/-- Apply a combined value to the update-only copy of a line in a core's L1 (R192 step 2). A copy that holds another
operation's partial of the element goes home first. -/
def applyPartial (s : State) (core : Nat) (p : Partial) : State :=
  let line := p.pa / 128
  let clash := s.lines.any (fun l => l.core == core && l.line == line &&
    l.parts.any (fun q => decide (q.pa < p.pa + p.fn.bytes) && decide (p.pa < q.pa + q.fn.bytes) && !(q.pa == p.pa && q.fn == p.fn)))
  let s := if clash then mergeLine s line else s
  let add (parts : List Partial) : List Partial :=
    if parts.any (fun q => q.pa == p.pa) then
      updFirst (fun q => q.pa == p.pa) (fun q => { q with value := q.fn.apply q.value p.value }) parts
    else parts ++ [{ p with value := p.fn.apply p.fn.identity p.value }]
  if s.lines.any (fun l => l.core == core && l.line == line) then
    { s with lines := updFirst (fun l => l.core == core && l.line == line) (fun l => { l with parts := add l.parts }) s.lines }
  else { s with lines := s.lines ++ [{ core := core, line := line, parts := add [] }] }

/-- The value of the lanes that name one address, combined in ascending lane order (R192 step 1). -/
def combined (fn : AtomFn) : List Part → Nat
  | [] => 0
  | p :: ps => ps.foldl (fun v q => fn.apply v q.data) p.data

/-- Place the combined value of the lanes that share a lane's address, on a local page (R191 to R193), up to the first that an earlier
access of its own holds (R208). On a page with SUM = 1
the copy of the line goes home in the same step, so that the write waits for its summary as a store does (R323; log 31). -/
def placeLocal (s : State) (w : Warp) (o : Op) (fn : AtomFn) (l : Leaf) (c : Ctx) (p : Part) : State :=
  let mine := (o.parts.filter (fun q => q.va == p.va && !q.done && q.refused.isNone)).takeWhile (laneOk w o)
  let v := combined fn mine
  let finish (s : State) : State :=
    mine.foldl (fun s q => setPart (traceWrite s w.ctx w.launch (w.origin q.lane) q.va q.size) o.id { q with done := true }) s
  match prepareWrite s c l p.va with
  | .error e =>
    (match refusal s w p e with
     | .yes s q => setPart s o.id q
     | .held s => s
     | .ended s => s)
  | .ok s1 =>
    match (s1.ctx? w.ctx).bind (fun c => (leafOf s1 c p.va).map (fun l => framePlace c l p.va)) with
    | none => s
    | some pa =>
      let direct := l.sum || lineMonitored s1 (pa / 128) || w.fences.any (fun f => f.kind != 0 && decide (o.id < f.before))
      match direct, w.core? with
      | false, some core =>
        finish (applyPartial s1 core { pa := pa, va := p.va, ctx := w.ctx, fn := fn, value := v, op := o.id })
      | _, _ =>
        (match performRmw s1 w p ⟨.hbm pa, some l⟩ false (fun old => some (fn.apply old v)) with
         | .yes s q => if q.done then finish s else setPart s o.id q
         | .held s => s
         | .ended s => s)

/-- Place the reductions of lanes, ascending: combined on local pages, singly elsewhere. -/
def placeParts (oid : Nat) (fn : AtomFn) : State → List Nat → State
  | s, [] => s
  | s, l :: ls =>
    match s.op? oid with
    | none => s
    | some (w, o) =>
      match o.parts.find? (fun p => p.lane == l && !p.done && p.refused.isNone), s.ctx? w.ctx with
      | some p, some c =>
        let s :=
          if orderOk s w o && partOk w o p then
            match resolve s c w.block .atomic 2 p.va p.size with
            | .ok ⟨.hbm _, some lf⟩ => placeLocal s w o fn lf c p
            | _ => performParts performAtomic oid s [l]
          else s
        placeParts oid fn s ls
      | _, _ => placeParts oid fn s ls

/-- REDUCTION_PLACE (R191, R192). -/
def execReductionPlace (op lanes : Nat) (s : State) : Outcome State Fault Refusal :=
  match s.awakeOp? op with
  | none => .next s
  | some (_, o) =>
    match o.kind with
    | .reduce fn => .next (retireOp (placeParts op fn s (eventLanes lanes)) op)
    | _ => .next s

/-- UPDATE_LINE_MERGE (R193): the home merges a core's copy of a line. -/
def execUpdateLineMerge (core line : Nat) (s : State) : Outcome State Fault Refusal :=
  let mine := s.lines.filter (fun l => l.core == core && l.line == line)
  let s := { s with lines := s.lines.filter (fun l => !(l.core == core && l.line == line)) }
  .next (mine.foldl (fun s l => l.parts.foldl mergePartial s) s)

/-- What a run held before issue finds when it tries again (R162, R171): every page is present, one is refused, or it
waits on. -/
def pagesReady (s : State) (c : Ctx) (vas : List Nat) : Bool :=
  let state (va : Nat) : Nat := ((leafOf s c va).map (pageState c)).getD 2
  vas.any (fun va => state va == 3) || vas.all (fun va => state va == 2)

/-- PAGE_WAIT_RETRY (R171): a run held before issue becomes ready, and its instruction is tried again: it issues where
every page is present and traps where one is refused. -/
def execPageWaitRetry (warp lane : Nat) (s : State) : Outcome State Fault Refusal :=
  match s.awakeWarp? warp with
  | none => .next s
  | some w =>
    match s.ctx? w.ctx, (w.lane lane).cond with
    | some c, .waiting (.pages vas) _ _ =>
      if pagesReady s c vas then .next (endWait s warp (waitingRun w lane) (w.lane lane).pc)
      else .next (requestPages s w.ctx (vas.filterMap (fun va =>
        match leafOf s c va with | some l => if pageState c l = 0 then some l.page else none | none => none)))
    | _, _ => .next s

end Sys2Proof.Machine
end

