-- ==== Sys2Proof/Machine/Engine.lean ====
section
/-! DEFINITION. What every engine command shares: tensors as engines see them (R267 to R269, R279), parameter blocks and
their checks (R272), restart words (R273), operand accesses (R274), tile transfers (R217), barrier signals (R278). -/

namespace Sys2Proof.Machine

open Host (Outcome)

/-! ### Windows -/

def inScratch (a : Nat) : Bool := decide (scratchBase ≤ a) && decide (a < scratchBase + 2 ^ 24)
def inTiles (a : Nat) : Bool := decide (tileBase ≤ a) && decide (a < tileBase + 2 ^ 24)
def inResidency (a : Nat) : Bool := decide (windowBase ≤ a) && decide (a < windowBase + 2 ^ 42)
def inNodes (a : Nat) : Bool := decide (nodeBase ≤ a) && decide (a < nodeBase + 2 ^ 20)

/-! ### Tensors (R268, R269, R279) -/

/-- The descriptor of an id; none where the entry is all zeros. -/
def Ctx.tensor? (c : Ctx) (id : Nat) : Option Tensor := c.tensors.find? (fun t => t.id == id)

def isNarrow (fmt : Nat) : Bool := fmt == 5 || fmt == 6 || fmt == 7 || fmt == 8 || fmt == 0x10

/-- A narrow or tagged tensor in weight layout. -/
def Tensor.isWeight (t : Tensor) : Bool := isNarrow t.fmt && t.lay

def Tensor.cols (t : Tensor) : Nat := t.ext.getD 0 0

/-- Rows: the product of the extents of dimensions 1 and up. -/
def Tensor.rows (t : Tensor) : Nat := ((t.ext.drop 1).take (t.ndim - 1)).foldl (· * ·) 1

/-- Offset of a row, its digits along dimensions 1 and up, the lowest first. -/
def rowOffset : List Nat → List Int → Nat → Int
  | e :: es, st :: sts, r => (r % max e 1 : Nat) * st + rowOffset es sts (r / max e 1)
  | _, _, _ => 0

/-- Address of element (row, column); of a narrow or tagged tensor, of its 8-bit slot position (R261). -/
def Tensor.addr (t : Tensor) (r c : Nat) : Nat :=
  let off : Int :=
    if t.isWeight then (r / 128 : Nat) * t.str.getD 1 0 + (16384 * (c / 128) + 128 * (r % 128) + c % 128 : Nat)
    else (c : Int) * t.str.getD 0 0 + rowOffset ((t.ext.drop 1).take (t.ndim - 1)) ((t.str.drop 1).take (t.ndim - 1)) r
  (((t.base : Int) + off) % 2 ^ 64).toNat

/-- The address at which a swizzle of a code stores the byte of a scratchpad address (R279): codes 1, 2, 3 have units of
32, 64, 128 bytes. -/
def swizzled (code a : Nat) : Nat :=
  if code = 0 || !inScratch a then a
  else
    let o := a - scratchBase
    scratchBase + (o ^^^ (o / 2 ^ (code + 7) % 8 * 2 ^ (code + 4)))

/-! ### Parameter blocks (R272) -/

/-- What a read of a parameter block that is refused does (step 3); one that reaches a kick register ends the context (R155). -/
def paramStop (lanes : Mask) (va : Nat) (e : AccErr) : Stop :=
  match e with
  | .trap cause _ detail => if cause = 0x11 then .trap lanes 0x24 va [] else .trap lanes cause (reportAddr cause va) detail
  | .refused _ => .trap lanes 0x24 va []
  | .remote _ _ _ _ => .trap lanes 0x24 va []
  | .kick a slot => stopOf lanes (.kick a slot)
  | .io _ => .trap lanes 0x24 va []
  | .wait v page => .hold (.pages [v]) [page]
  | .walk a => stopOf lanes (.walk a)
  | .refill b p => stopOf lanes (.refill b p)
  | .bad k a d => stopOf lanes (.bad k a d)

/-- Steps 2 and 3: a block of `n` bytes at a multiple of `align`, read as one load of a lane, in the order of the warp's
accesses (R208, R215). -/
def readParam (s : State) (w : Warp) (l va n align : Nat) : Except Stop (List Nat × State) :=
  if va ≥ 2 ^ 56 then .error (.trap (oneLane l) 0x10 va [])
  else if va % align != 0 then .error (.trap (oneLane l) 0x13 va [align])
  else
    match holdRead s w l va n true with
    | .error e => .error e
    | .ok _ =>
      match readMem s w.ctx w.block 3 va n with
      | .error e => .error (paramStop (oneLane l) va e)
      | .ok (b, s) => .ok (b, traceRead s w.ctx w.launch (w.origin l) va n)

/-- An elected command (R55, R62): with no active lane `idle`; else, after a check of its own, the lowest active lane's pair
names a block, which is read, and `body` goes on from the lane, the address, the bytes. A trap of `body` leaves the read in
the trace (R338). -/
def electedAfter (s : State) (i : Info) (p n align : Nat) (idle : Cx → Except Stop State) (first : Cx → Nat → Except Stop Unit)
    (body : Cx → Nat → Nat → List Nat → Except Stop State) : Outcome State Fault Refusal :=
  issue s i (fun x =>
    if x.act = 0#32 then idle x
    else
      let l := leadOf x.act
      match checkRegs x.w (oneLane l) [p, p + 1] [] with
      | .error e => .error e
      | .ok _ =>
        match first x l with
        | .error e => .error e
        | .ok _ =>
          let va := x.w.pair l p
          match readParam x.s x.w l va n align with
          | .error e => .error e
          | .ok (bytes, s) =>
            match body { x with s := s, wd := syncWaits s x.wd } l va bytes with
            | .error (.trap lanes cause addr detail) => .ok (trapNow s x.sel lanes cause addr detail)
            | r => r)

/-- An elected command with no check of its own before its block is read. -/
def elected (s : State) (i : Info) (p n align : Nat) (idle : Cx → Except Stop State)
    (body : Cx → Nat → Nat → List Nat → Except Stop State) : Outcome State Fault Refusal :=
  electedAfter s i p n align idle (fun _ _ => .ok ()) body

/-- Offsets of the non-zero bytes of a reserved field. -/
def resv (bytes : List Nat) (lo n : Nat) : List Nat := (regsFrom lo n).filter (fun o => bytes.getD o 0 != 0)

/-- The offset of a field that must satisfy a limit. -/
def limit (ok : Bool) (o : Nat) : List Nat := if ok then [] else [o]

/-- The least of a list. -/
def least : List Nat → Option Nat
  | [] => none
  | x :: xs => match least xs with
    | none => some x
    | some y => some (min x y)

/-- PARAM_INVALID with the lowest offending offset. -/
def paramCheck (l va : Nat) (offs : List Nat) : Except Stop Unit :=
  match least offs with
  | none => .ok ()
  | some o => .error (.trap (oneLane l) 0x25 va [o])

/-- A trap of the electing lane with a tensor id as detail. -/
def tensorTrap (l cause id : Nat) : Stop := .trap (oneLane l) cause 0 [id]

/-- DESC_INVALID of a tensor. -/
def descBad (l id : Nat) : Stop := tensorTrap l 0x23 id

/-- Reserved bits of the BAR field, and SIG from a warp with no block (R278). -/
def barBad (w : Warp) (bytes : List Nat) : List Nat :=
  limit (decide (bytes.getD 28 0 < 32)) 28 ++ resv bytes 29 3 ++ limit (!bitAt (bytes.getD 28 0) 4 || w.block.isSome) 28

/-- The restart word (R273): V, and the progress. -/
def restartV (bytes : List Nat) : Bool := bitAt (fieldAt bytes 32 4) 31
def restartAt (bytes : List Nat) : Nat := if restartV bytes then fieldAt bytes 32 4 % 2 ^ 31 else 0

/-- V = 0 with a non-zero progress. -/
def restartBad (bytes : List Nat) : List Nat := limit (restartV bytes || fieldAt bytes 32 4 == 0) 32

/-- V = 1 with progress at or beyond the total. -/
def restartLate (bytes : List Nat) (total : Nat) : List Nat :=
  limit (!restartV bytes || decide (restartAt bytes < total)) 32

/-- The tile of rows `r0` on and columns `c0` on lies within a tensor. -/
def Tensor.holds (t : Tensor) (r0 n c0 m : Nat) : Bool := decide (r0 + n ≤ t.rows) && decide (c0 + m ≤ t.cols)

/-! ### Issue -/

/-- A command at its issue. -/
def mkCommand (x : Cx) (op : EngineOp) (l va : Nat) (bytes : List Nat) (tensors : List Tensor) (total : Nat) : Command where
  op := op
  addr := va
  params := bytes
  tensors := tensors
  swizzle := 0
  scope := x.scope
  lane := l
  core := (x.w.core?).getD 0
  total := total
  progress := restartAt bytes
  signal := none
  held := []
  items := []
  again := false
  closing := none
  owed := none
  stalled := none

/-- A tag's bit is cleared when a command that names it issues (R363). -/
def clearTag (s : State) (w : Warp) (tag : Option Nat) : State :=
  match tag with
  | none => s
  | some t => s.updCtx w.ctx (fun c => updTags c ((w.core?).getD 0) (fun m => m ||| tagBit t))

/-- The command issues: its counter rises, its tag is clear. -/
def Cx.issueCommand (x : Cx) (k : Nat) (tag : Option Nat) (c : Command) : Except Stop State :=
  match holdFull x.w k with
  | .error e => .error e
  | .ok _ =>
    let r := addOp x.s x.wd k (.engine c) [] x.scope tag .running
    .ok (x.done (clearTag r.1 x.w tag) r.2)

/-- The command with no active lane: it counts and retires in order, and its tag is set (R62). -/
def Cx.idleCommand (x : Cx) (k : Nat) (tag : Option Nat) : Except Stop State :=
  match holdFull x.w k with
  | .error e => .error e
  | .ok _ =>
    let r := addOp x.s x.wd k .none [] x.scope tag .done
    .ok (retireAll (x.done (clearTag r.1 x.w tag) r.2) x.w.id k)

/-- With SIG, one more arrival is expected in the current phase of a core barrier of the block (R278). -/
def expectSignal (s : State) (w : Warp) (bytes : List Nat) : State × Option Nat :=
  match w.block with
  | none => (s, none)
  | some b =>
    if bitAt (bytes.getD 28 0) 4 then
      let r := s.needBar 1 (bytes.getD 28 0 % 16) b 0
      ({ r.2 with bars := updFirst (fun k => k.key == r.1.key) (fun k => { k with expected := k.expected + 1 }) r.2.bars },
       some r.1.key)
    else (s, none)

/-- The command's own arrival. -/
def makeSignal (s : State) (signal : Option Nat) : State :=
  match signal with
  | none => s
  | some key =>
    { s with bars := updFirst (fun k => k.key == key) (fun k => { k with expected := k.expected - 1 }) s.bars }

/-! ### Operand accesses (R274) -/

/-- Why a unit of a command is not done. -/
inductive EngErr where
  /-- an access is refused, or waits; the state holds the traces of the reads made before it (R338) -/
  | acc (s : State) (e : AccErr)
  /-- the command stops with a cause of its own, after the reads in the state (R338); `zero` says that its restart word is left
  0 -/
  | fault (s : State) (f : OpFault) (zero : Bool)

/-- The accumulator window is for `e.cpy`, `e.mma` and `e.quant` alone (R272). -/
def usesTiles (op : EngineOp) : Bool :=
  match op with
  | .cpy => true
  | .mma => true
  | .quant => true
  | _ => false

/-- Bytes cut at the bounds of 64 KiB, which no page crosses: address and length of each piece; `fuel` bounds them. -/
def pagePieces : Nat → Nat → Nat → List (Nat × Nat)
  | 0, _, _ => []
  | fuel + 1, va, n =>
    if n = 0 then []
    else
      let k := min n (65536 - va % 65536)
      (va, k) :: pagePieces fuel (va + k) (n - k)

/-- The engine reads a piece. A register of the I/O die gives a value the spec does not state (log 18). -/
def engPiece (s : State) (w : Warp) (va n : Nat) : Except EngErr (List Nat × State) :=
  match readMem s w.ctx w.block 3 va n with
  | .error (.io _) => .ok (natLe n (Config.freeValue s.free), { s with free := s.free + 1 })
  | .error e => .error (.acc s e)
  | .ok r => .ok r

/-- The engine reads pieces in order, each traced once it is read. -/
def engPieces (w : Warp) (c : Command) : State → List (Nat × Nat) → Except EngErr (List Nat × State)
  | s, [] => .ok ([], s)
  | s, (va, n) :: ps =>
    match engPiece s w va n with
    | .error e => .error e
    | .ok (b, s) =>
      match engPieces w c (traceRead s w.ctx w.launch (w.origin c.lane) va n) ps with
      | .error e => .error e
      | .ok (bs, s) => .ok (b ++ bs, s)

/-- ACCUM_TILE for a command that may not reach the accumulator window. -/
def tileBarred (c : Command) (va : Nat) : Bool := inTiles va && !usesTiles c.op

/-- The engine reads bytes. -/
def engRead (s : State) (w : Warp) (c : Command) (va n : Nat) : Except EngErr (List Nat × State) :=
  if tileBarred c va then .error (.acc s (.trap 0x1D va [(va - tileBase) / 65536]))
  else engPieces w c s (pagePieces (n + 1) va n)

/-- The engine reads a number. -/
def engNat (s : State) (w : Warp) (c : Command) (va n : Nat) : Except EngErr (Nat × State) :=
  match engRead s w c va n with
  | .error e => .error e
  | .ok (b, s) => .ok (leNat b, s)

/-- The fault of a command whose access to a remote page fails (R352). -/
def remoteFault (cause va : Nat) (detail : List Nat) : OpFault :=
  { cause := cause, lanes := 0#32, addr := reportAddr cause va, detail := detail }

/-- The engine writes a piece: to a remote page as an RMA write, to a register of the I/O die with no effect that the spec
states (log 18). -/
def engPut (s : State) (w : Warp) (oid : Nat) (c : Command) (va : Nat) (bytes : List Nat) : Except EngErr State :=
  match writeMem s w.ctx w.block 3 va bytes with
  | .ok s => .ok s
  | .error (.io _) => .ok s
  | .error (.remote a peer addr n) =>
    (match s.ctx? w.ctx with
     | none => .error (.acc s (.remote a peer addr n))
     | some x =>
       match writeRemote s x w.id oid c.lane va peer addr bytes with
       | .ok s => .ok s
       | .error (cause, detail) => .error (.fault s (remoteFault cause va detail) false))
  | .error e => .error (.acc s e)

/-- The engine writes pieces in order. -/
def engPuts (w : Warp) (oid : Nat) (c : Command) : State → List Nat → List (Nat × Nat) → Except EngErr State
  | s, _, [] => .ok s
  | s, bytes, (va, n) :: ps =>
    match engPut s w oid c va (bytes.take n) with
    | .error e => .error e
    | .ok s => engPuts w oid c s (bytes.drop n) ps

/-- The engine writes bytes. -/
def engWrite (s : State) (w : Warp) (oid : Nat) (c : Command) (va : Nat) (bytes : List Nat) : Except EngErr State :=
  if tileBarred c va then .error (.acc s (.trap 0x1D va [(va - tileBase) / 65536]))
  else
    match engPuts w oid c s bytes (pagePieces (bytes.length + 1) va bytes.length) with
    | .error e => .error e
    | .ok s => .ok (traceWrite s w.ctx w.launch (w.origin c.lane) va bytes.length)

/-- Read items of `n` bytes at addresses, in order. -/
def engReads (w : Warp) (c : Command) (n : Nat) : State → List Nat → Except EngErr (List Nat × State)
  | s, [] => .ok ([], s)
  | s, a :: as =>
    match engNat s w c a n with
    | .error e => .error e
    | .ok (v, s) =>
      match engReads w c n s as with
      | .error e => .error e
      | .ok (vs, s) => .ok (v :: vs, s)

/-! ### Tile transfers (R217) -/

/-- One element on its way to a destination: address and bytes. -/
abbrev Elem := Nat × List Nat

/-- The 32 bytes of a sector that elements fill; where two share a byte the later remains (R277). -/
def sectorCells (es : List Elem) (sector : Nat) : List (Option Nat) :=
  let here := es.filter (fun e => e.1 / 32 == sector)
  (List.range 32).map (fun i =>
    let a := 32 * sector + i
    here.foldl (fun r e => if e.1 ≤ a && a < e.1 + e.2.length then some (e.2.getD (a - e.1) 0) else r) none)

/-- Maximal runs of filled cells, by address. -/
def cellRuns : Nat → List (Option Nat) → List Elem
  | _, [] => []
  | a, none :: cs => cellRuns (a + 1) cs
  | a, some b :: cs =>
    match cellRuns (a + 1) cs with
    | (x, bs) :: rest => if x = a + 1 then (a, b :: bs) :: rest else (a, [b]) :: (x, bs) :: rest
    | [] => [(a, [b])]

/-- Write runs in order. -/
def writeRuns (w : Warp) (oid : Nat) (c : Command) : State → List Elem → Except EngErr State
  | s, [] => .ok s
  | s, e :: es =>
    match engWrite s w oid c e.1 e.2 with
    | .error x => .error x
    | .ok s => writeRuns w oid c s es

/-- Sectors that addresses touch, ascending. -/
def sectorsOf (addrs : List Nat) : List Nat := addrs.foldr (fun a l => insertAsc (a / 32) l) []

/-- Write the sectors of a transfer, ascending. -/
def writeSectors (w : Warp) (oid : Nat) (c : Command) (es : List Elem) : State → List Nat → Except EngErr State
  | s, [] => .ok s
  | s, k :: ks =>
    match writeRuns w oid c s (cellRuns (32 * k) (sectorCells es k)) with
    | .error x => .error x
    | .ok s => writeSectors w oid c es s ks

/-- Write all elements as a tile transfer. -/
def writeTile (s : State) (w : Warp) (oid : Nat) (c : Command) (es : List Elem) : Except EngErr State :=
  writeSectors w oid c es s (sectorsOf (es.map Prod.fst))

/-- Every destination of one list lies in a lower sector than every destination of another. -/
def sectorsBelow (xs ys : List Nat) : Bool := xs.all (fun a => ys.all (fun b => decide (a / 32 < b / 32)))

/-- Where a tile transfer may stop after unit `p`: the first unit `e` such that the sectors of units `p` to `e − 1` all lie
below those of the units left, so that the sectors of the whole command are written ascending and each once, across a stop too
(R217, R218; log 50). `dests` gives the destinations of a unit. -/
def transferEnd (dests : Nat → List Nat) (total p : Nat) : Nat :=
  match (List.range (total - p)).find? (fun k =>
      sectorsBelow ((regsFrom p (k + 1)).flatMap dests) ((regsFrom (p + k + 1) (total - (p + k + 1))).flatMap dests)) with
  | some k => p + k + 1
  | none => p + 1

/-- Copy elements: read each source of `n` bytes, then write the destinations (R277). -/
def copyElems (s : State) (w : Warp) (oid : Nat) (c : Command) (n : Nat) (from_ to_ : List Nat) : Except EngErr State :=
  match engReads w c n s from_ with
  | .error e => .error e
  | .ok (vs, s) => writeTile s w oid c (to_.zip (vs.map (natLe n)))

/-- The address rows and columns of a tile, row first. -/
def tileAddrs (t : Tensor) (r0 n c0 m : Nat) : List Nat :=
  (regsFrom r0 n).flatMap (fun r => (regsFrom c0 m).map (fun k => t.addr r k))

/-! ### Restart words, stops, completion (R273, R274) -/

/-- A state in which a block's scratchpad pages all stand in its core, whatever has been refilled: the device writes a page that has
not been in its backing storage, since unpinning changes no result (R162). -/
def asPinned (s : State) (w : Warp) : State :=
  match w.block with
  | none => s
  | some b => s.updBlock b (fun k => { k with unpinned := [] })

/-- The pages that were not refilled are not, after a write of the device. -/
def pinsOf (s0 s : State) (w : Warp) : State :=
  match w.block.bind s0.block? with
  | none => s
  | some b => s.updBlock b.id (fun k => { k with unpinned := b.unpinned })

/-- Something the device does to a block's scratchpad with every page in reach. -/
def whilePinned (s : State) (w : Warp) (f : State → State) : State := pinsOf s (f (asPinned s w)) w

/-- The restart word at a unit boundary. -/
def restartWord (c : Command) : Nat := 2 ^ 31 + c.progress

/-- Write the restart word that a command owes. One whose page is not present is still owed, and the page is requested (R171, R274);
one whose page has REM = 1 is sent to its target (R176). One that cannot be written is dropped (log 50), but a malformed walk ends the
context (R167), as a store to a kick register does (R155). A command with no parameter block has none. -/
def payRestart (s : State) (w : Warp) (oid : Nat) (c : Command) : State × Command :=
  match c.owed with
  | none => (s, c)
  | some v =>
    let paid : Command := { c with owed := none }
    if c.op = .ssbld then (s, paid)
    else
      match writeMem (asPinned s w) w.ctx w.block 3 (c.addr + 32) (natLe 4 v) with
      | .ok t => (pinsOf s t w, paid)
      | .error (.wait _ page) => (requestPage s w.ctx page, c)
      | .error (.remote a peer addr _) =>
        (match s.ctx? w.ctx with
         | none => (s, paid)
         | some x => (match writeRemote s x w.id oid c.lane a peer addr (natLe 4 v) with | .ok s => (s, paid) | .error _ => (s, paid)))
      | .error (.walk a) => (endWith s w.ctx 0x17 a [], paid)
      | .error (.kick a slot) => (endWith s w.ctx 0x4E a [slot], paid)
      | .error _ => (s, paid)

/-- Write a restart word. -/
def putRestart (s : State) (w : Warp) (oid : Nat) (c : Command) (v : Nat) : State × Command := payRestart s w oid { c with owed := some v }

/-- The address of an unresolvable access; none for a refusal that is no fault of the command's. -/
def accAddr (e : AccErr) : Option Nat :=
  match e with
  | .trap _ a _ => some a
  | .refused a => some a
  | _ => none

/-- MX_FAULT (R274). -/
def mxFault (a : Nat) (c : Command) : OpFault := { cause := 0x20, lanes := 0#32, addr := a, detail := [restartWord c] }

/-- What a command reports for an access that cannot be performed: a line that cannot be pulled and a frame that is lacking under
their own causes (R173, R175), every other one as MX_FAULT (R274). -/
def accFault (e : AccErr) (a : Nat) (c : Command) : OpFault :=
  match e with
  | .trap 0x19 _ _ => { cause := 0x19, lanes := 0#32, addr := a, detail := [] }
  | .trap 0x1A _ _ => { cause := 0x1A, lanes := 0#32, addr := a, detail := [] }
  | _ => mxFault a c

/-- Writes of the operation to remote pages are not answered. -/
def writesAway (s : State) (oid : Nat) : Bool := s.mod.remotes.any (fun r => r.write && r.op == oid)

/-- A part of a command tried: the remote bytes brought for it are found, and used up when it succeeds (R176). -/
def attempt {α : Type} (s : State) (oid : Nat) (f : State → Except EngErr (State × α)) : Except EngErr (State × α) :=
  match f (asReader s oid) with
  | .ok (s, a) => .ok (dropBrought s oid, a)
  | .error (.fault s x zero) => .error (.fault (dropBrought s oid) x zero)
  | .error e => .error e

/-- A command's part of its operation replaced. -/
def setCommand (s : State) (o : Op) (c : Command) : State := s.setOp { o with kind := .engine c }

/-- A context's engines run: it lives and is not stopped, and the warp is on its core. -/
def engineRuns (s : State) (w : Warp) : Bool :=
  w.place.isSome &&
  (match s.ctx? w.ctx with
   | none => false
   | some c => c.live && c.preempt == .running) &&
  (match w.block.bind s.block? with
   | none => w.block.isNone
   | some b => b.state == .running)

/-- MX commands of one core go one at a time, in issue order (R276). -/
def mxTurn (s : State) (w : Warp) (o : Op) : Bool :=
  o.counter != 3 ||
  s.warps.all (fun v => v.core? != w.core? || v.ops.all (fun q =>
    q.counter != 3 || q.state != .running || !q.isEngine || decide (q.id ≥ o.id)))

/-- A command that may go on now: the warp, the operation, the command. -/
def readyCommand (s : State) (oid : Nat) : Option (Warp × Op × Command) :=
  match s.op? oid with
  | none => none
  | some (w, o) =>
    match o.kind with
    | .engine c =>
      if o.state == .running && c.stalled.isNone && (c.owed.isNone || c.closing.isSome) && engineRuns s w && orderOk s w o && mxTurn s w o
      then some (w, o, c) else none
    | _ => none

end Sys2Proof.Machine
end

