-- ==== Sys2Proof/Machine/Copy.lean ====
section
/-! DEFINITION. Setting a tensor descriptor (R267, R270, R320), copies (R277 to R280), gathers (R281) and scatters
(R282, R283). -/

namespace Sys2Proof.Machine

open Host (Outcome)

/-! ### `e.tdset` (R270) -/

/-- A signed 64-bit field. -/
def signedAt (bytes : List Nat) (at_ : Nat) : Int := signed 64 (fieldAt bytes at_ 8)

/-- The descriptor of an image of 128 bytes (R267). -/
def readTensor (id : Nat) (im : List Nat) : Tensor where
  id := id
  base := fieldAt im 0 8
  fmt := im.getD 8 0
  ndim := im.getD 9 0
  swz := im.getD 10 0 % 4
  trl := bitAt (im.getD 10 0) 2
  lay := bitAt (im.getD 10 0) 3
  sumd := bitAt (im.getD 10 0) 4
  ext := (List.range 5).map (fun k => fieldAt im (16 + 4 * k) 4)
  str := (List.range 5).map (fun k => signedAt im (40 + 8 * k))
  scaleb := fieldAt im 80 8
  tagb := fieldAt im 88 8
  sumb := fieldAt im 96 8
  page := fieldAt im 104 4

/-- No byte from an address up to another lies in a fixed window (R158). -/
def windowFree (a b : Nat) : Bool :=
  [(windowBase, 2 ^ 42), (nodeBase, 2 ^ 20), (scratchBase, 2 ^ 24), (tileBase, 2 ^ 24)].all
    (fun w => decide (b ≤ w.1) || decide (w.1 + w.2 ≤ a))

/-- The checks of a summarised key tensor (R320); `others` counts the context's other summarised entries. -/
def summaryOk (t : Tensor) (others : Nat) : Bool :=
  let d := t.cols
  let es := elemBytes t.fmt
  let s1 := t.str.getD 1 0
  let keyEnd := t.base + keyBytes t
  let sumEnd := t.sumb + 4 * d * ((t.ext.getD 1 0 + 63) / 64)
  (t.fmt == 2 || t.fmt == 3 || t.fmt == 4) && t.ndim == 2 && (d == 64 || d == 128 || d == 256)
    && t.str.getD 0 0 == (es : Int) && decide (s1 ≥ ((d * es : Nat) : Int)) && t.page == 64
    && t.sumb != 0 && decide (t.sumb < 2 ^ 56) && t.sumb % 64 == 0
    && (decide (sumEnd ≤ t.base) || decide (keyEnd ≤ t.sumb))
    && windowFree t.base keyEnd && windowFree t.sumb sumEnd && decide (others < 64)

/-- The checks of a descriptor image (R270). -/
def tensorOk (t : Tensor) (im : List Nat) (others : Nat) : Bool :=
  let es := elemBytes t.fmt
  let narrow := isNarrow t.fmt
  (decide (t.fmt ≤ 0xE) || t.fmt == 0x10) && decide (1 ≤ t.ndim) && decide (t.ndim ≤ 5)
    && decide (im.getD 10 0 < 32) && (resv im 11 5).isEmpty && (resv im 36 4).isEmpty && (resv im 108 20).isEmpty
    && (List.range 5).all (fun k =>
      if k < t.ndim then decide (1 ≤ t.ext.getD k 0) && decide (t.ext.getD k 0 ≤ 2 ^ 31)
      else t.ext.getD k 0 == 0 && t.str.getD k 0 == 0)
    && t.base % es == 0 && t.str.all (fun v => v % (es : Int) == 0)
    && (!narrow || (t.ndim == 2 && t.str.getD 0 0 == 1))
    && (t.fmt != 0x10 || (t.scaleb != 0 && t.tagb != 0))
    && (!t.trl || (narrow && !t.lay && t.scaleb != 0 && t.scaleb % 32 == 0))
    && (!t.sumd || summaryOk t others)
    && (t.swz == 0 || inScratch t.base)

/-- `e.tdset`: the record is read and checked, then the entry is written whole (R270, R271). -/
def execETdset (p : Nat) (s : State) : Outcome State Fault Refusal :=
  elected s (bareInfo (misaligned p 14 1)) p 136 8 (fun x => .ok (x.done x.s x.wd)) (fun x l _ bytes =>
    let id := fieldAt bytes 0 2
    let im := bytes.drop 8
    let t := readTensor id im
    let others := (x.c.tensors.filter (fun u => u.sumd && u.id != id)).length
    if id ≤ 4095 && (resv bytes 2 6).isEmpty && tensorOk t im others then
      .ok (x.done (x.s.updCtx x.w.ctx (fun c => { c with tensors := t :: c.tensors.filter (fun u => u.id != id) })) x.wd)
    else .error (tensorTrap l 0x2F id))

/-! ### `e.cpy` (R277 to R280) -/

/-- A tensor that a copy may name: a narrow or tagged one in activation layout only (R277). -/
def copyable (t : Tensor) : Bool := !t.isWeight

/-- A destination in a window that takes no engine write (R277). -/
def badDest (t : Tensor) : Bool := inResidency t.base || inNodes t.base

def Command.tensor (c : Command) (k : Nat) : Option Tensor := c.tensors[k]?

/-- Addresses of the source and of the destination elements of a copy, row first. -/
def cpyFrom (c : Command) : List Nat :=
  match c.tensor 0 with
  | none => []
  | some t => (tileAddrs t (fieldAt c.params 4 4) (fieldAt c.params 20 4) (fieldAt c.params 8 4) (fieldAt c.params 24 4)).map
      (swizzled c.swizzle)

def cpyTo (c : Command) : List Nat :=
  match c.tensor 1 with
  | none => []
  | some t => (tileAddrs t (fieldAt c.params 12 4) (fieldAt c.params 20 4) (fieldAt c.params 16 4) (fieldAt c.params 24 4)).map
      (swizzled c.swizzle)

/-- SWIZZLE_ALIGN (R280): none where the swizzle is kept. -/
def swizzleBad (code : Nat) (src dst : Tensor) (a b cols : Nat) : Option Nat :=
  let u := 2 ^ (code + 4)
  let bad (t : Tensor) (first : Nat) : Bool :=
    let es := elemBytes t.fmt
    (first - scratchBase) % u != 0 || cols * es % u != 0 || t.str.getD 0 0 != (es : Int) || t.str.getD 1 0 % (u : Int) != 0
  if code = 0 then none
  else if inScratch src.base && !inScratch dst.base then (if bad src a then some a else none)
  else if inScratch dst.base && !inScratch src.base then (if bad dst b then some b else none)
  else some b

/-- The first accumulator tile that addresses reach and the block does not have (R272 step 10). -/
def tileBeyond (s : State) (w : Warp) (addrs : List Nat) : Option Nat :=
  let have_ := ((w.block.bind s.block?).map Block.tileCount).getD 0
  (addrs.find? (fun a => inTiles a && decide ((a - tileBase) / 65536 ≥ have_))).map (fun a => (a - tileBase) / 65536)

/-- ACCUM_TILE. -/
def tileCheck (s : State) (w : Warp) (l : Nat) (addrs : List Nat) : Except Stop Unit :=
  match tileBeyond s w addrs with
  | none => .ok ()
  | some t => .error (.trap (oneLane l) 0x1D 0 [t])

/-- `e.cpy`. -/
def execECpy (p t sw : Nat) (s : State) : Outcome State Fault Refusal :=
  elected s (memInfo false false (misaligned p 14 1)) p 64 64 (fun x => x.idleCommand 2 (some t)) (fun x l va bytes =>
    let rows := fieldAt bytes 20 4
    let cols := fieldAt bytes 24 4
    match paramCheck l va (limit (decide (fieldAt bytes 0 2 ≤ 4095)) 0 ++ limit (decide (fieldAt bytes 2 2 ≤ 4095)) 2
        ++ limit (decide (1 ≤ rows) && decide (rows ≤ 4096)) 20 ++ limit (decide (1 ≤ cols) && decide (cols ≤ 4096)) 24
        ++ barBad x.w bytes ++ restartBad bytes ++ resv bytes 36 28) with
    | .error e => .error e
    | .ok _ =>
      match x.c.tensor? (fieldAt bytes 0 2), x.c.tensor? (fieldAt bytes 2 2) with
      | none, _ => .error (descBad l (fieldAt bytes 0 2))
      | some src, odst =>
        if !copyable src then .error (descBad l src.id)
        else
          match odst with
          | none => .error (descBad l (fieldAt bytes 2 2))
          | some dst =>
            if !copyable dst || elemBytes dst.fmt != elemBytes src.fmt then .error (descBad l dst.id)
            else
              let c := { mkCommand x .cpy l va bytes [src, dst] 0 with swizzle := sw }
              let from_ := cpyFrom c
              let to_ := cpyTo c
              let total := (sectorsOf to_).length
              match paramCheck l va (limit (!badDest dst) 2 ++ limit (decide (rows * cols * elemBytes src.fmt ≤ 2 ^ 24)) 24
                  ++ restartLate bytes total) with
              | .error e => .error e
              | .ok _ =>
                if !src.holds (fieldAt bytes 4 4) rows (fieldAt bytes 8 4) cols then .error (tensorTrap l 0x27 src.id)
                else if !dst.holds (fieldAt bytes 12 4) rows (fieldAt bytes 16 4) cols then .error (tensorTrap l 0x27 dst.id)
                else
                  match swizzleBad sw src dst (src.addr (fieldAt bytes 4 4) (fieldAt bytes 8 4))
                      (dst.addr (fieldAt bytes 12 4) (fieldAt bytes 16 4)) cols with
                  | some a => .error (.trap (oneLane l) 0x28 a [])
                  | none =>
                    match tileCheck x.s x.w l (from_ ++ to_) with
                    | .error e => .error e
                    | .ok _ =>
                      let r := expectSignal x.s x.w bytes
                      { x with s := r.1 }.issueCommand 2 (some t) { c with total := total, signal := r.2 })

/-- Bytes of one element of a copy. -/
def cpyElem (c : Command) : Nat := ((c.tensor 0).map (fun t => elemBytes t.fmt)).getD 1

/-- A copy has read its source. -/
def cpyReady (c : Command) : Bool :=
  decide (c.held.length ≥ fieldAt c.params 20 4 * fieldAt c.params 24 4)

/-- A copy reads the next source row; it reads all of them before it writes, so that an overlap keeps the prior contents
(R277). `held` holds the elements read. -/
def cpyPrepare (s : State) (w : Warp) (c : Command) : Except EngErr (State × Command) :=
  let n := fieldAt c.params 24 4
  match engReads w c (cpyElem c) s (((cpyFrom c).drop c.held.length).take n) with
  | .error e => .error e
  | .ok (vs, s) => .ok (s, { c with held := c.held ++ vs })

/-- A copy writes its next sector. -/
def cpyUnit (s : State) (w : Warp) (oid : Nat) (c : Command) : Except EngErr (State × Command) :=
  let to_ := cpyTo c
  let k := (sectorsOf to_).getD c.progress 0
  match writeSectors w oid c (to_.zip (c.held.map (natLe (cpyElem c)))) s [k] with
  | .error e => .error e
  | .ok s => .ok (s, { c with progress := c.progress + 1 })

/-! ### `e.gath` (R281) -/

/-- Batches of 8 that COUNT indices make. -/
def batches (bytes : List Nat) : Nat := (fieldAt bytes 16 4 + 7) / 8

/-- `e.gath`. -/
def execEGath (p t : Nat) (s : State) : Outcome State Fault Refusal :=
  elected s (memInfo false false (misaligned p 14 1)) p 64 64 (fun x => x.idleCommand 2 (some t)) (fun x l va bytes =>
    let count := fieldAt bytes 16 4
    let cols := fieldAt bytes 20 4
    match paramCheck l va (limit (decide (fieldAt bytes 0 2 ≤ 4095)) 0 ++ limit (decide (fieldAt bytes 2 2 ≤ 4095)) 2
        ++ limit (decide (1 ≤ count) && decide (count ≤ 65536)) 16 ++ limit (decide (1 ≤ cols) && decide (cols ≤ 4096)) 20
        ++ resv bytes 24 4 ++ barBad x.w bytes ++ restartBad bytes ++ restartLate bytes (batches bytes) ++ resv bytes 36 4
        ++ limit (fieldAt bytes 40 8 % 4 == 0) 40 ++ resv bytes 56 8) with
    | .error e => .error e
    | .ok _ =>
      match x.c.tensor? (fieldAt bytes 0 2), x.c.tensor? (fieldAt bytes 2 2) with
      | none, _ => .error (descBad l (fieldAt bytes 0 2))
      | some tbl, odst =>
        if !copyable tbl || inTiles tbl.base then .error (descBad l tbl.id)
        else
          match odst with
          | none => .error (descBad l (fieldAt bytes 2 2))
          | some dst =>
            if !copyable dst || inTiles dst.base || elemBytes dst.fmt != elemBytes tbl.fmt then .error (descBad l dst.id)
            else
              if !tbl.holds 0 0 (fieldAt bytes 4 4) cols then .error (tensorTrap l 0x27 tbl.id)
              else if !dst.holds (fieldAt bytes 8 4) count (fieldAt bytes 12 4) cols then .error (tensorTrap l 0x27 dst.id)
              else
                let r := expectSignal x.s x.w bytes
                { x with s := r.1 }.issueCommand 2 (some t)
                  { mkCommand x .gath l va bytes [tbl, dst] (batches bytes) with signal := r.2 })

/-- The indices of the batch a command has reached, and the number of the first. -/
def readBatch (s : State) (w : Warp) (c : Command) : Except EngErr (List Nat × State) :=
  let first := 8 * c.progress
  let n := min 8 (fieldAt c.params 16 4 - first)
  engReads w c 4 s ((regsFrom first n).map (fun i => fieldAt c.params 40 8 + 4 * i))

/-- The status byte of a batch: a bit for each index at or above the table's rows. -/
def statusByte (rows : Nat) (xs : List Nat) : Nat :=
  (xs.zip (List.range 8)).foldl (fun v p => if p.1 ≥ rows then v + 2 ^ p.2 else v) 0

/-- A status byte is written with the command's completion; its batch is done only where it can be written. -/
def statusOk (s : State) (w : Warp) (oid : Nat) (c : Command) (batch v : Nat) : Except EngErr Unit :=
  match engWrite s w oid c (fieldAt c.params 48 8 + batch) [v] with
  | .error e => .error e
  | .ok _ => .ok ()

/-- The status bytes of the batches done (R281), which become visible with the completion; at a fault too, since what is done
then is not done again. -/
def putStatus (s : State) (w : Warp) (oid : Nat) (c : Command) : Except EngErr State :=
  engWrite s w oid c (fieldAt c.params 48 8 + c.progress - c.held.length) c.held

/-- The destinations of a gathered row. -/
def gathRow (c : Command) (dst : Tensor) (i : Nat) : List Nat :=
  tileAddrs dst (fieldAt c.params 8 4 + i) 1 (fieldAt c.params 12 4) (fieldAt c.params 20 4)

/-- The destinations of a batch. -/
def gathDests (c : Command) (b : Nat) : List Nat :=
  match c.tensor 1 with
  | none => []
  | some dst => (regsFrom (8 * b) (min 8 (fieldAt c.params 16 4 - 8 * b))).flatMap (gathRow c dst)

/-- The batch before which the part of the gather that begins at a batch ends. -/
def gathEnd (c : Command) : Nat := transferEnd (gathDests c) c.total c.progress

/-- The elements of gathered rows, in order: from the table, or zero where the index is none of its rows. -/
def gathRows (w : Warp) (c : Command) (tbl dst : Tensor) :
    State → List (Nat × Nat) → Except EngErr (List Elem × State)
  | s, [] => .ok ([], s)
  | s, (i, x) :: rows =>
    let es := elemBytes tbl.fmt
    match (if x < tbl.rows then engReads w c es s (tileAddrs tbl x 1 (fieldAt c.params 4 4) (fieldAt c.params 20 4))
      else .ok (List.replicate (fieldAt c.params 20 4) 0, s)) with
    | .error e => .error e
    | .ok (vs, s) =>
      match gathRows w c tbl dst s rows with
      | .error e => .error e
      | .ok (rest, s) => .ok ((gathRow c dst i).zip (vs.map (natLe es)) ++ rest, s)

/-- The elements and status bytes of batches, in order. -/
def gathBatches (w : Warp) (oid : Nat) (c : Command) (tbl dst : Tensor) :
    State → List Nat → Except EngErr (List Elem × List Nat × State)
  | s, [] => .ok ([], [], s)
  | s, b :: bs =>
    match readBatch s w { c with progress := b } with
    | .error e => .error e
    | .ok (xs, s) =>
      let status := statusByte tbl.rows xs
      match statusOk s w oid c b status with
      | .error e => .error e
      | .ok _ =>
        match gathRows w c tbl dst s ((regsFrom (8 * b) xs.length).zip xs) with
        | .error e => .error e
        | .ok (rows, s) =>
          match gathBatches w oid c tbl dst s bs with
          | .error e => .error e
          | .ok (rest, sts, s) => .ok (rows ++ rest, status :: sts, s)

/-- A gather does the batches up to where its rows may stop: they are read, then their sectors are written (R217, R281). -/
def gathUnit (s : State) (w : Warp) (oid : Nat) (c : Command) : Except EngErr (State × Command) :=
  match c.tensor 0, c.tensor 1 with
  | some tbl, some dst =>
    match gathBatches w oid c tbl dst s (regsFrom c.progress (gathEnd c - c.progress)) with
    | .error e => .error e
    | .ok (es, sts, s) =>
      match writeTile s w oid c es with
      | .error e => .error e
      | .ok s => .ok (s, { c with progress := gathEnd c, held := c.held ++ sts })
  | _, _ => .ok (s, c)

/-! ### `e.scat` (R282, R283) -/

/-- The reduction of an op code of `m.red` (R54). -/
def redFn (o : Nat) : AtomFn :=
  match o with
  | 0 => .add32
  | 1 => .add64
  | 2 => .addF32
  | 3 => .minS32
  | 4 => .maxS32
  | 5 => .minZ32
  | 6 => .maxZ32
  | 7 => .and32
  | 8 => .or32
  | 9 => .xor32
  | 10 => .minF32
  | 11 => .maxF32
  | 12 => .addF16x2
  | _ => .addBf16x2

/-- A reduction of pairs of halves. -/
def AtomFn.isHalves (fn : AtomFn) : Bool := fn == .addF16x2 || fn == .addBf16x2

/-- The formats that an op takes (R282). The source and the table may each have any format that the op's row lists, so they may
differ within it, and add.f16x2 and add.bf16x2 take f16 and bf16 tensors alike (DEDUCED, log 51). -/
def scatFormat (fn : AtomFn) (fmt : Nat) : Bool :=
  match fn with
  | .minS32 => fmt == 0
  | .maxS32 => fmt == 0
  | .minZ32 => fmt == 1
  | .maxZ32 => fmt == 1
  | .add64 => fmt == 9 || fmt == 0xA
  | .addF32 => fmt == 2
  | .minF32 => fmt == 2
  | .maxF32 => fmt == 2
  | .addF16x2 => fmt == 3 || fmt == 4
  | .addBf16x2 => fmt == 3 || fmt == 4
  | _ => fmt == 0 || fmt == 1

/-- `e.scat`. -/
def execEScat (o p t : Nat) (s : State) : Outcome State Fault Refusal :=
  elected s { memInfo false true (misaligned p 14 1) with illegal := decide (o ≥ 14) } p 64 64
    (fun x => x.idleCommand 2 (some t)) (fun x l va bytes =>
    let fn := redFn o
    let count := fieldAt bytes 16 4
    let cols := fieldAt bytes 20 4
    let even (at_ : Nat) : Bool := !fn.isHalves || fieldAt bytes at_ 4 % 2 == 0
    match paramCheck l va (limit (decide (fieldAt bytes 0 2 ≤ 4095)) 0 ++ limit (decide (fieldAt bytes 2 2 ≤ 4095)) 2
        ++ limit (even 8) 8 ++ limit (even 12) 12
        ++ limit (decide (1 ≤ count) && decide (count ≤ 65536)) 16
        ++ limit (decide (1 ≤ cols) && decide (cols ≤ 4096) && even 20) 20
        ++ resv bytes 24 8 ++ restartBad bytes ++ restartLate bytes (batches bytes) ++ resv bytes 36 4
        ++ limit (fieldAt bytes 40 8 % 4 == 0) 40 ++ resv bytes 56 8) with
    | .error e => .error e
    | .ok _ =>
      match x.c.tensor? (fieldAt bytes 0 2), x.c.tensor? (fieldAt bytes 2 2) with
      | none, _ => .error (descBad l (fieldAt bytes 0 2))
      | some src, otbl =>
        if !scatFormat fn src.fmt || inTiles src.base then .error (descBad l src.id)
        else
          match otbl with
          | none => .error (descBad l (fieldAt bytes 2 2))
          | some tbl =>
            if !scatFormat fn tbl.fmt || inTiles tbl.base then .error (descBad l tbl.id)
            else if !src.holds (fieldAt bytes 4 4) count (fieldAt bytes 8 4) cols then .error (tensorTrap l 0x27 src.id)
            else if !tbl.holds 0 0 (fieldAt bytes 12 4) cols then .error (tensorTrap l 0x27 tbl.id)
            else x.issueCommand 2 (some t) (mkCommand x (.scat fn) l va bytes [src, tbl] (batches bytes)))

/-- One value to reduce: its place, its bytes, the value. -/
abbrev Item := Nat × Nat × Nat

/-- An operation on `n` bytes: the half of a packed pair stands alone where the pair's columns do not adjoin. -/
def reduceFn (fn : AtomFn) (n old v : Nat) : Nat :=
  if n = 2 then (fpAdd (if fn == .addF16x2 then .f16 else .bf16) .rne old v).1 else fn.apply old v

/-- Items that name one place, as many bytes of it, combined in order (R192 step 1, R283). -/
def combineItems (fn : AtomFn) : List Item → List Item → List Item
  | done, [] => done
  | done, (a, n, v) :: xs =>
    if done.any (fun d => d.1 == a && d.2.1 == n) then
      combineItems fn (updFirst (fun d => d.1 == a && d.2.1 == n) (fun d => (d.1, d.2.1, reduceFn fn n d.2.2 v)) done) xs
    else combineItems fn (done ++ [(a, n, v)]) xs

/-- Read, compute, write at once. -/
def reduceHere (s : State) (w : Warp) (fn : AtomFn) (x : Item) : Except EngErr State :=
  match s.ctx? w.ctx with
  | none => .ok s
  | some c =>
    match readChunk s c w.block 3 x.1 x.2.1 with
    | .error e => .error (.acc s e)
    | .ok (old, s) =>
      match s.ctx? w.ctx with
      | none => .ok s
      | some c =>
        match writeChunk s c w.block 3 x.1 x.2.1 (reduceFn fn x.2.1 old x.2.2) with
        | .error e => .error (.acc s e)
        | .ok s => .ok s

/-- Place one value (R192, R283): on a local page in the core's update-only copy, in the scratchpad directly, on a remote page
at the target, which serves the 64-bit sum alone (R178). Another function's value for a remote page, or one for a page of the I/O-die
range, is refused as R178 refuses the form; R274 does not list that, and it is reported as MX_FAULT (DEDUCED, log 51). -/
def reduceItem (s : State) (w : Warp) (oid : Nat) (cmd : Command) (fn : AtomFn) (x : Item) : Except EngErr State :=
  match s.ctx? w.ctx with
  | none => .ok s
  | some c =>
    match resolve s c w.block .atomic 3 x.1 x.2.1 with
    | .error e => .error (.acc s e)
    | .ok ⟨.hbm _, some l⟩ =>
      match (if fn != .add64 && farFrom c l w.core? then some (AccErr.trap 0x15 x.1 [])
          else if l.sum then summaryErr s c (c.tensors.flatMap (fun t => summaryWords t x.1 x.2.1)) else none) with
      | some e => .error (.acc s e)
      | none =>
        match prepareWrite s c l x.1 with
        | .error e => .error (.acc s e)
        | .ok s1 =>
          match (s1.ctx? w.ctx).bind (fun c => (leafOf s1 c x.1).map (fun l => framePlace c l x.1)), w.core? with
          | some pa, some core =>
            if l.sum || x.2.1 = 2 || pa % x.2.1 != 0 || lineMonitored s1 (pa / 128)
                || w.fences.any (fun f => f.kind != 0 && decide (oid < f.before))
            then reduceHere s1 w fn x
            else .ok (applyPartial s1 core { pa := pa, va := x.1, ctx := w.ctx, fn := fn, value := x.2.2, op := oid })
          | _, _ => reduceHere s1 w fn x
    | .ok ⟨.absent, some l⟩ => .error (.acc s (absentErr c l x.1))
    | .ok ⟨.remote peer addr, _⟩ =>
      if fn == .add64 then
        match submit s c {
            id := 0, ctx := c.number, warp := w.id, launch := w.launch, op := oid, lane := cmd.lane, peer := peer, addr := addr, va := x.1
            write := true, fill := 8, kind := 3, bytes := natLe 8 x.2.2, port := 0, sentAt := none } with
        | .ok (s, _) => .ok s
        | .error (cause, detail) => .error (.fault s (remoteFault cause x.1 detail) false)
      else .error (.acc s (.trap 0x15 x.1 []))
    | .ok ⟨.tile _ _, _⟩ => .error (.acc s (.trap 0x1D x.1 []))
    | .ok ⟨.io _, some l⟩ => .error (.acc s (if l.p then .trap 0x15 x.1 [] else absentErr c l x.1))
    | .ok _ => reduceHere s w fn x

/-- Place values in order. -/
def reduceItems (w : Warp) (c : Command) (oid : Nat) (fn : AtomFn) : State → List Item → Except EngErr State
  | s, [] => .ok s
  | s, x :: xs =>
    match reduceItem s w oid c fn x with
    | .error e => .error e
    | .ok s => reduceItems w c oid fn (traceWrite s w.ctx w.launch (w.origin c.lane) x.1 x.2.1) xs

/-- An element lies in device memory, so that values for it are combined before they are placed (R192 step 1, R283). -/
def combines (s : State) (w : Warp) (x : Item) : Bool :=
  match (s.ctx? w.ctx).map (fun c => resolve s c w.block .atomic 3 x.1 x.2.1) with
  | some (.ok ⟨.hbm _, _⟩) => true
  | _ => false

/-- Take the values of a batch in order: one for device memory joins those to be placed with the completion, once it is known
that it could be placed now; any other is placed at once. -/
def scatItems (w : Warp) (oid : Nat) (c : Command) (fn : AtomFn) :
    State → List Item → List Item → Except EngErr (State × List Item)
  | s, done, [] => .ok (s, done)
  | s, done, x :: xs =>
    match reduceItems w c oid fn s [x] with
    | .error e => .error e
    | .ok s1 =>
      if combines s w x then scatItems w oid c fn s (combineItems fn done [x]) xs
      else scatItems w oid c fn s1 done xs

/-- The values of a source row for a table row: addresses to read, with the places. -/
def scatPairs (src tbl : Tensor) (r row sc tc cols : Nat) : List (Nat × Nat) :=
  (tileAddrs src r 1 sc cols).zip (tileAddrs tbl row 1 tc cols)

/-- Two halves that stand together as one packed element. -/
def joinHalves : List Item → List Item
  | (a, n, v) :: (b, m, u) :: rest =>
    if b = a + 2 && a % 4 == 0 then (a, 4, v + 2 ^ 16 * u) :: joinHalves rest else (a, n, v) :: (b, m, u) :: joinHalves rest
  | xs => xs

/-- A scatter does a batch. -/
def scatUnit (s : State) (w : Warp) (oid : Nat) (c : Command) : Except EngErr (State × Command) :=
  match c.op, c.tensor 0, c.tensor 1 with
  | .scat fn, some src, some tbl =>
    match readBatch s w c with
    | .error e => .error e
    | .ok (xs, s) =>
      let cols := fieldAt c.params 20 4
      let es := elemBytes src.fmt
      let status := statusByte tbl.rows xs
      match statusOk s w oid c c.progress status with
      | .error e => .error e
      | .ok _ =>
        let pairs := (xs.zip (List.range 8)).flatMap (fun p =>
          if p.1 < tbl.rows then
            scatPairs src tbl (fieldAt c.params 4 4 + 8 * c.progress + p.2) p.1 (fieldAt c.params 8 4)
              (fieldAt c.params 12 4) cols
          else [])
        match engReads w c es s (pairs.map Prod.fst) with
        | .error e => .error e
        | .ok (vs, s) =>
          let items : List Item := (pairs.zip vs).map (fun p => (p.1.2, es, p.2))
          let items := if fn.isHalves then joinHalves items else items
          match scatItems w oid c fn s c.items items with
          | .error e => .error e
          | .ok (s, all) => .ok (s, { c with progress := c.progress + 1, held := c.held ++ [status], items := all })
  | _, _, _ => .ok (s, c)

/-- A scatter places what it has combined, and its status bytes (R283). -/
def scatFinish (s : State) (w : Warp) (oid : Nat) (c : Command) : Except EngErr State :=
  match c.op with
  | .scat fn =>
    match reduceItems w c oid fn s c.items with
    | .error e => .error e
    | .ok s => putStatus s w oid c
  | _ => .ok s

end Sys2Proof.Machine
end

