-- ==== Sys2Proof/Machine/Matrix.lean ====
section
/-! DEFINITION. Block-scaled tensors (R260 to R262), the matrix engine's sums (R263 to R266), `e.mma` (R284 to R286),
`e.msrch` (R288), `e.quant` and trailers (R289 to R291). -/

namespace Sys2Proof.Machine

open Host (Outcome)

/-! ### Blocks of narrow and tagged tensors -/

/-- Blocks along K of a tensor (R260, R269). -/
def Tensor.kBlocks (t : Tensor) : Nat := (t.cols + 127) / 128

/-- Number of the block that holds the element of a row (along N in weight layout) at a position along K (R260). -/
def Tensor.blockNo (t : Tensor) (r k : Nat) : Nat := (if t.isWeight then r / 128 else r) * t.kBlocks + k / 128

/-- Position of the element in its slot (R261, R269). -/
def Tensor.slotPos (t : Tensor) (r k : Nat) : Nat := (if t.isWeight then 128 * (r % 128) else 0) + k % 128

/-- Address of the block's slot (R269). -/
def Tensor.slotAddr (t : Tensor) (r k : Nat) : Nat :=
  let off : Int := if t.isWeight then (r / 128 : Nat) * t.str.getD 1 0 + (16384 * (k / 128) : Nat)
    else (r : Int) * t.str.getD 1 0 + (128 * (k / 128) : Nat)
  (((t.base : Int) + off) % 2 ^ 64).toNat

/-- Where an element at a position stands in a slot under a format: byte, lowest bit, width (R261). -/
def slotBits (fmt e : Nat) : Nat × Nat × Nat :=
  if fmt = 7 then (e / 2, 4 * (e % 2), 4)
  else if fmt = 8 then (e / 4, 2 * (e % 4), 2)
  else (e, 0, 8)

/-- The value of a code; an i2 code 0 contributes no product (R264). -/
def narrowValue (fmt code : Nat) : Option FVal :=
  if fmt = 8 then (if code % 4 = 0 then none else some (ofInt (signed 2 code)))
  else (fmtOfCode fmt).map (fun f => f.decode code)

/-- An element of an operand: none where it contributes no product. -/
abbrev Factor := Option FVal

/-- A part of one block along K: its scale, its elements. -/
structure Line where
  scale : Nat
  elems : List Factor
  deriving DecidableEq, Repr

/-- The address at which `e.mma` finds a byte of a tensor (R279). -/
def Tensor.stored (t : Tensor) (a : Nat) : Nat := swizzled t.swz a

/-- The format of a block (R260, R262). -/
def blockFormat (s : State) (w : Warp) (c : Command) (t : Tensor) (n : Nat) : Except EngErr (Nat × State) :=
  if t.fmt = 0x10 then
    match engNat s w c (t.tagb + n / 4) 1 with
    | .error e => .error e
    | .ok (v, s) => .ok (5 + v / 4 ^ (n % 4) % 4, s)
  else .ok (t.fmt, s)

/-- The scale of a block (R260, R262). -/
def blockScale (s : State) (w : Warp) (c : Command) (t : Tensor) (n : Nat) : Except EngErr (Nat × State) :=
  if t.scaleb = 0 then .ok (0x3F800000, s) else engNat s w c (t.scaleb + 4 * n) 4

/-- `n` elements of a block from position `k` along K. An activation block tagged i2 is refused (R261). -/
def readLine (s : State) (w : Warp) (c : Command) (t : Tensor) (r k n : Nat) : Except EngErr (Line × State) :=
  let b := t.blockNo r k
  match blockFormat s w c t b with
  | .error e => .error e
  | .ok (fmt, s) =>
    if fmt = 8 && !t.isWeight then .error (.fault s { cause := 0x22, lanes := 0#32, addr := 0, detail := [t.id, b] } false)
    else
      match blockScale s w c t b with
      | .error e => .error e
      | .ok (scale, s) =>
        let places := (regsFrom k n).map (fun i => slotBits fmt (t.slotPos r i))
        match engReads w c 1 s (places.map (fun p => t.stored (t.slotAddr r k + p.1))) with
        | .error e => .error e
        | .ok (vs, s) => .ok ({ scale := scale, elems := (vs.zip places).map (fun p => narrowValue fmt (bitsAt p.1 p.2.2.1 p.2.2.2)) }, s)

/-- Elements of a plain tensor at addresses, as one part with no scale. -/
def readPlain (s : State) (w : Warp) (c : Command) (t : Tensor) (addrs : List Nat) : Except EngErr (Line × State) :=
  match engReads w c (elemBytes t.fmt) s (addrs.map t.stored) with
  | .error e => .error e
  | .ok (vs, s) => .ok ({ scale := 0x3F800000, elems := vs.map (fun v => (fmtOfCode t.fmt).map (fun f => f.decode v)) }, s)

/-! ### The order of sums (R263 to R265) -/

/-- Products of the positions at which both operands have a value. -/
def products (a b : List Factor) : List FVal :=
  (a.zip b).filterMap (fun p => match p.1, p.2 with | some x, some y => some (mulVal x y).1 | _, _ => none)

/-- The sum of one K block's products, rounded once to f32; +0 where there is no product. -/
def exactSum (ps : List FVal) : Nat :=
  match ps with
  | [] => 0
  | p :: ps => (finish .f32 .rne (ps.foldl (fun a q => (addVal .rne a q).1) p, false)).1

/-- A K block of narrow operands added to the accumulator (R263). -/
def addNarrow (acc : Nat) (a b : Line) : Nat :=
  let p1 := (fpMul .f32 .rne (exactSum (products a.elems b.elems)) a.scale).1
  (fpAdd .f32 .rne acc (fpMul .f32 .rne p1 b.scale).1).1

/-- One level of the tree of R265. -/
def treeLevel : List Nat → List Nat
  | a :: b :: rest => (fpAdd .f32 .rne a b).1 :: treeLevel rest
  | xs => xs

/-- The leaf of a position (R265): a rounded product, or −0. -/
def treeLeaf (a b : Factor) : Nat :=
  match a, b with
  | some x, some y => (finish .f32 .rne ((mulVal x y).1, false)).1
  | _, _ => 0x80000000

/-- A K block of f16 or bf16 operands added to the accumulator (R265). -/
def addTree (acc : Nat) (a b : Line) : Nat :=
  let leaves := (List.range 128).map (fun k => treeLeaf ((a.elems.getD k none)) ((b.elems.getD k none)))
  let s := ((List.range 7).foldl (fun xs _ => treeLevel xs) leaves).headD 0x80000000
  (fpAdd .f32 .rne acc s).1

/-- One output element from its prior value and the K blocks of both operands. -/
def mmaElement (narrow : Bool) (acc : Nat) (a b : List Line) : Nat :=
  (a.zip b).foldl (fun acc p => if narrow then addNarrow acc p.1 p.2 else addTree acc p.1 p.2) acc

/-! ### `e.mma` -/

def mmaFlag (bytes : List Nat) (i : Nat) : Bool := bitAt (bytes.getD 21 0) i

/-- The pairs of formats of R284. -/
def mmaPair (a b : Nat) : Bool :=
  ((a == 5 || a == 6 || a == 7 || a == 0x10) && isNarrow b) || (a == 3 && b == 3) || (a == 4 && b == 4)

/-- A descriptor usable as A, apart from the pair. -/
def mmaA (t : Tensor) (bytes : List Nat) : Bool := !inTiles t.base && (!isNarrow t.fmt || (!t.lay && !mmaFlag bytes 1))

/-- A descriptor usable as B, apart from the pair. -/
def mmaB (t : Tensor) (bytes : List Nat) : Bool := !inTiles t.base && (!isNarrow t.fmt || (t.lay && !mmaFlag bytes 2))

/-- The first coordinate along K and along N of B's tile (R284). -/
def mmaBk (bytes : List Nat) : Nat := if mmaFlag bytes 2 then fieldAt bytes 16 4 else fieldAt bytes 12 4
def mmaBn (bytes : List Nat) : Nat := if mmaFlag bytes 2 then fieldAt bytes 12 4 else fieldAt bytes 16 4

/-- The tile of A lies in its tensor. -/
def mmaAHolds (t : Tensor) (bytes : List Nat) : Bool :=
  let m := fieldAt bytes 24 2
  let k := fieldAt bytes 28 4
  if mmaFlag bytes 1 then t.holds (fieldAt bytes 4 4) k (fieldAt bytes 8 4) m
  else t.holds (fieldAt bytes 4 4) m (fieldAt bytes 8 4) k

/-- The tile of B lies in its tensor. -/
def mmaBHolds (t : Tensor) (bytes : List Nat) : Bool :=
  let n := fieldAt bytes 26 2
  let k := fieldAt bytes 28 4
  if t.isWeight || mmaFlag bytes 2 then t.holds (mmaBn bytes) n (mmaBk bytes) k
  else t.holds (mmaBk bytes) k (mmaBn bytes) n

/-- The mask covers B's tile (R286). -/
def mmaMaskHolds (t : Tensor) (bytes : List Nat) : Bool :=
  decide (mmaBn bytes + fieldAt bytes 26 2 ≤ t.rows) && decide ((mmaBk bytes + fieldAt bytes 28 4 + 7) / 8 ≤ t.cols)

/-- Checks that depend on no descriptor (step 4). -/
def mmaFields (bytes : List Nat) : List Nat :=
  limit (decide (fieldAt bytes 0 2 ≤ 4095)) 0 ++ limit (decide (fieldAt bytes 2 2 ≤ 4095)) 2
    ++ limit (decide (bytes.getD 20 0 ≤ 127)) 20 ++ limit (decide (bytes.getD 21 0 < 16)) 21 ++ resv bytes 22 2
    ++ restartBad bytes ++ restartLate bytes (fieldAt bytes 24 2)
    ++ (if mmaFlag bytes 3 then limit (decide (fieldAt bytes 36 2 ≤ 4095)) 36 else resv bytes 36 2) ++ resv bytes 38 26

/-- Checks that depend on descriptors (step 6). -/
def mmaLate (a b : Tensor) (bytes : List Nat) : List Nat :=
  limit (!isNarrow a.fmt || fieldAt bytes 8 4 % 128 == 0) 8 ++ limit (!isNarrow b.fmt || fieldAt bytes 12 4 % 128 == 0) 12
    ++ (if mmaFlag bytes 3 then limit (fieldAt bytes 12 4 % 4 == 0) 12 ++ limit (fieldAt bytes 28 4 % 4 == 0) 28 else [])

/-- M, N and K within their limits (step 7). -/
def mmaShape (bytes : List Nat) : Bool :=
  let ok (v : Nat) : Bool := decide (16 ≤ v) && decide (v ≤ 128) && v % 16 == 0
  ok (fieldAt bytes 24 2) && ok (fieldAt bytes 26 2) && decide (1 ≤ fieldAt bytes 28 4) && decide (fieldAt bytes 28 4 ≤ 8192)

/-- The mask tensor of a sparse command, or none (step 5). -/
def mmaMask (x : Cx) (l : Nat) (bytes : List Nat) : Except Stop (List Tensor) :=
  if mmaFlag bytes 3 then
    match x.c.tensor? (fieldAt bytes 36 2) with
    | none => .error (descBad l (fieldAt bytes 36 2))
    | some t => if t.fmt == 0xE && !inTiles t.base then .ok [t] else .error (descBad l t.id)
  else .ok []

/-- The descriptors of an `e.mma` (step 5), or the stop: A, B, mask. -/
def mmaTensors (x : Cx) (l : Nat) (bytes : List Nat) : Except Stop (Tensor × Tensor × List Tensor) :=
  match x.c.tensor? (fieldAt bytes 0 2), x.c.tensor? (fieldAt bytes 2 2) with
  | none, _ => .error (descBad l (fieldAt bytes 0 2))
  | some a, ob =>
    let okA := mmaA a bytes && (mmaPair a.fmt a.fmt || a.fmt == 0x10)
    if !okA then .error (descBad l a.id)
    else
      match ob with
      | none => .error (descBad l (fieldAt bytes 2 2))
      | some b =>
        if !mmaPair a.fmt b.fmt then .error (descBad l a.id)
        else if !mmaB b bytes then .error (descBad l b.id)
        else
          match mmaMask x l bytes with
          | .error e => .error e
          | .ok m => .ok (a, b, m)

/-- `e.mma`. -/
def execEMma (p : Nat) (s : State) : Outcome State Fault Refusal :=
  elected s (memInfo false false (misaligned p 14 1)) p 64 64 (fun x => x.idleCommand 3 none) (fun x l va bytes =>
    match paramCheck l va (mmaFields bytes) with
    | .error e => .error e
    | .ok _ =>
      match mmaTensors x l bytes with
      | .error e => .error e
      | .ok (a, b, m) =>
        match paramCheck l va (mmaLate a b bytes) with
        | .error e => .error e
        | .ok _ =>
          if !mmaShape bytes then
            .error (.trap (oneLane l) 0x26 0 [fieldAt bytes 24 2, fieldAt bytes 26 2, fieldAt bytes 28 4])
          else if !mmaAHolds a bytes then .error (tensorTrap l 0x27 a.id)
          else if !mmaBHolds b bytes then .error (tensorTrap l 0x27 b.id)
          else if !m.all (fun t => mmaMaskHolds t bytes) then .error (tensorTrap l 0x27 (fieldAt bytes 36 2))
          else
            match tileCheck x.s x.w l [tileBase + 65536 * bytes.getD 20 0] with
            | .error e => .error e
            | .ok _ => x.issueCommand 3 none (mkCommand x .mma l va bytes ([a, b] ++ m) (fieldAt bytes 24 2)))

/-- Start and length of the K blocks of a command. -/
def kBlocksOf (k : Nat) : List (Nat × Nat) := (List.range ((k + 127) / 128)).map (fun b => (128 * b, min 128 (k - 128 * b)))

/-- Read parts one by one. -/
def readLines (f : State → Nat × Nat → Except EngErr (Line × State)) :
    State → List (Nat × Nat) → Except EngErr (List Line × State)
  | s, [] => .ok ([], s)
  | s, b :: bs =>
    match f s b with
    | .error e => .error e
    | .ok (x, s) =>
      match readLines f s bs with
      | .error e => .error e
      | .ok (xs, s) => .ok (x :: xs, s)

/-- Row `i` of A, K block by K block. -/
def mmaRow (s : State) (w : Warp) (c : Command) (t : Tensor) (i : Nat) : Except EngErr (List Line × State) :=
  let r0 := fieldAt c.params 4 4
  let c0 := fieldAt c.params 8 4
  readLines (fun s b =>
    if isNarrow t.fmt then readLine s w c t (r0 + i) (c0 + b.1) b.2
    else readPlain s w c t ((regsFrom b.1 b.2).map (fun k =>
      if mmaFlag c.params 1 then t.addr (r0 + k) (c0 + i) else t.addr (r0 + i) (c0 + k))))
    s (kBlocksOf (fieldAt c.params 28 4))

/-- The mask bits of column `j` at positions along K; every position is kept without a mask (R286). -/
def mmaKept (s : State) (w : Warp) (c : Command) (j : Nat) (b : Nat × Nat) : Except EngErr (List Bool × State) :=
  match c.tensor 2 with
  | none => .ok (List.replicate b.2 true, s)
  | some m =>
    let ks := regsFrom (mmaBk c.params + b.1) b.2
    match engReads w c 1 s (ks.map (fun k => m.stored (m.addr (mmaBn c.params + j) (k / 8)))) with
    | .error e => .error e
    | .ok (vs, s) => .ok ((vs.zip ks).map (fun p => bitAt p.1 (p.2 % 8)), s)

/-- Column `j` of B, K block by K block, skipped positions without a value. -/
def mmaColumn (s : State) (w : Warp) (c : Command) (t : Tensor) (j : Nat) : Except EngErr (List Line × State) :=
  let k0 := mmaBk c.params
  let n0 := mmaBn c.params
  readLines (fun s b =>
    match (if isNarrow t.fmt then readLine s w c t (n0 + j) (k0 + b.1) b.2
      else readPlain s w c t ((regsFrom b.1 b.2).map (fun k =>
        if mmaFlag c.params 2 then t.addr (n0 + j) (k0 + k) else t.addr (k0 + k) (n0 + j)))) with
    | .error e => .error e
    | .ok (x, s) =>
      match mmaKept s w c j b with
      | .error e => .error e
      | .ok (keep, s) => .ok ({ x with elems := (x.elems.zip keep).map (fun p => if p.2 then p.1 else none) }, s))
    s (kBlocksOf (fieldAt c.params 28 4))

/-- The elements of one output row, column by column (R285). -/
def mmaOutput (w : Warp) (c : Command) (narrow : Bool) (t : Tensor) (a : List Line) :
    State → List (Nat × Nat) → Except EngErr (List Nat × State)
  | s, [] => .ok ([], s)
  | s, (j, acc) :: js =>
    match mmaColumn s w c t j with
    | .error e => .error e
    | .ok (b, s) =>
      match mmaOutput w c narrow t a s js with
      | .error e => .error e
      | .ok (vs, s) => .ok (mmaElement narrow acc a b :: vs, s)

/-- Address of element (i, 0) of a command's tile (R161). -/
def tileRow (tile i : Nat) : Nat := tileBase + 65536 * tile + 512 * i

/-- An `e.mma` computes and writes one row (R285). -/
def mmaUnit (s : State) (w : Warp) (oid : Nat) (c : Command) : Except EngErr (State × Command) :=
  match c.tensor 0, c.tensor 1 with
  | some ta, some tb =>
    let n := fieldAt c.params 26 2
    let at_ := tileRow (c.params.getD 20 0) c.progress
    match mmaRow s w c ta c.progress with
    | .error e => .error e
    | .ok (a, s) =>
      match (if mmaFlag c.params 0 then .ok (List.replicate n 0, s)
        else engReads w c 4 s ((List.range n).map (fun j => at_ + 4 * j))) with
      | .error e => .error e
      | .ok (prior, s) =>
        match mmaOutput w c (isNarrow ta.fmt) tb a s ((List.range n).zip prior) with
        | .error e => .error e
        | .ok (vs, s) =>
          match engWrite s w oid c at_ (vs.flatMap (natLe 4)) with
          | .error e => .error e
          | .ok s => .ok (s, { c with progress := c.progress + 1 })
  | _, _ => .ok (s, c)

/-! ### Trailers (R290, R291) -/

/-- One bit step of CRC-32C, reflected. -/
def crcBit (v : Nat) : Nat := if v % 2 = 1 then v / 2 ^^^ 0x82F63B78 else v / 2

/-- CRC-32C of bytes. -/
def crc32c (bytes : List Nat) : Nat :=
  (bytes.foldl (fun v b => (List.range 8).foldl (fun v _ => crcBit v) (v ^^^ (b % 256))) 0xFFFFFFFF) ^^^ 0xFFFFFFFF

/-- Read bytes one by one where a tensor stores them. -/
def storedBytes (rd : State → Nat → Nat → Except EngErr (List Nat × State)) : State → List Nat → Except EngErr (List Nat × State)
  | s, [] => .ok ([], s)
  | s, a :: as =>
    match rd s a 1 with
    | .error e => .error e
    | .ok (b, s) =>
      match storedBytes rd s as with
      | .error e => .error e
      | .ok (bs, s) => .ok (b ++ bs, s)

/-- What a block contributes to the CRC: its scale, its tag, its slot. `rd` reads bytes, `place` says where a slot
byte stands. -/
def crcBlock (rd : State → Nat → Nat → Except EngErr (List Nat × State)) (place : Nat → Nat) (t : Tensor) (s : State)
    (r k : Nat) : Except EngErr (List Nat × State) :=
  let n := t.blockNo r k
  match rd s (t.scaleb + 4 * n) 4 with
  | .error e => .error e
  | .ok (sc, s) =>
    match (if t.fmt = 0x10 then rd s (t.tagb + n / 4) 1 else .ok ([0], s)) with
    | .error e => .error e
    | .ok (tg, s) =>
      match storedBytes rd s ((List.range 128).map (fun e => place (t.slotAddr r k + e))) with
      | .error e => .error e
      | .ok (slot, s) => .ok (sc ++ [if t.fmt = 0x10 then tg.getD 0 0 / 4 ^ (n % 4) % 4 else 0] ++ slot, s)

/-- The bytes the CRC covers, row by row. -/
def crcBlocks (rd : State → Nat → Nat → Except EngErr (List Nat × State)) (place : Nat → Nat) (t : Tensor) (k : Nat) :
    State → List Nat → Except EngErr (List Nat × State)
  | s, [] => .ok ([], s)
  | s, r :: rs =>
    match crcBlock rd place t s r k with
    | .error e => .error e
    | .ok (b, s) =>
      match crcBlocks rd place t k s rs with
      | .error e => .error e
      | .ok (bs, s) => .ok (b ++ bs, s)

/-- Check the trailer of an operand (R291): NBLK is the number of the tensor's rows from ROW on (DEDUCED, log 53). -/
def trailerOk (s : State) (w : Warp) (c : Command) (t : Tensor) : Except EngErr (Bool × State) :=
  if !t.trl then .ok (true, s)
  else
    match engRead s w c (t.scaleb - 32) 32 with
    | .error e => .error e
    | .ok (tr, s) =>
      let nblk := fieldAt tr 12 4
      let row := fieldAt tr 16 4
      let kb := fieldAt tr 20 4
      if decide (row + nblk = t.rows) && decide (kb < t.kBlocks) then
        match crcBlocks (fun s a n => engRead s w c a n) t.stored t (128 * kb) s (regsFrom row nblk) with
        | .error e => .error e
        | .ok (bytes, s) => .ok (crc32c bytes == fieldAt tr 8 4, s)
      else .ok (false, s)

/-- An `e.mma` has no trailer left to check. -/
def mmaReady (c : Command) : Bool := !c.held.isEmpty || (c.tensors.take 2).all (fun t => !t.trl)

/-- The trailers of A and B are checked before any row is written. -/
def mmaPrepare (s : State) (w : Warp) (c : Command) : Except EngErr (State × Command) :=
  let bad (s : State) (t : Tensor) : EngErr :=
    .fault s { cause := 0x21, lanes := 0#32, addr := t.base, detail := [t.id] } true
  match c.tensor 0, c.tensor 1 with
  | some a, some b =>
    match trailerOk s w c a with
    | .error e => .error e
    | .ok (false, s) => .error (bad s a)
    | .ok (true, s) =>
      match trailerOk s w c b with
      | .error e => .error e
      | .ok (false, s) => .error (bad s b)
      | .ok (true, s) => .ok (s, { c with held := [1] })
  | _, _ => .ok (s, { c with held := [1] })

/-! ### `e.msrch` (R288) -/

/-- A format that `e.msrch` takes, a narrow one in weight layout. -/
def msrchFormat (t : Tensor) : Bool :=
  (t.fmt == 2 || t.fmt == 3 || t.fmt == 4 || ((t.fmt == 5 || t.fmt == 6) && t.lay)) && !inTiles t.base

/-- Address of the element at a position along K and along N. -/
def msrchAddr (t : Tensor) (k n : Nat) : Nat := if t.isWeight then t.addr n k else t.addr k n

/-- The region lies within a tensor. -/
def msrchHolds (t : Tensor) (bytes : List Nat) : Bool :=
  if t.isWeight then t.holds (fieldAt bytes 12 4) (fieldAt bytes 20 4) (fieldAt bytes 8 4) (fieldAt bytes 16 4)
  else t.holds (fieldAt bytes 8 4) (fieldAt bytes 16 4) (fieldAt bytes 12 4) (fieldAt bytes 20 4)

/-- `e.msrch`. -/
def execEMsrch (p : Nat) (s : State) : Outcome State Fault Refusal :=
  elected s (memInfo false false (misaligned p 14 1)) p 64 64 (fun x => x.idleCommand 3 none) (fun x l va bytes =>
    let k := fieldAt bytes 16 4
    let n := fieldAt bytes 20 4
    match paramCheck l va (limit (decide (fieldAt bytes 0 2 ≤ 4095)) 0 ++ limit (decide (fieldAt bytes 2 2 ≤ 4095)) 2
        ++ limit (decide (fieldAt bytes 4 2 ≤ 4095)) 4 ++ resv bytes 6 2
        ++ limit (fieldAt bytes 8 4 % 8 == 0) 8 ++ limit (fieldAt bytes 12 4 % 4 == 0) 12
        ++ limit (decide (8 ≤ k) && decide (k ≤ 8192) && k % 8 == 0) 16
        ++ limit (decide (4 ≤ n) && decide (n ≤ 8192) && n % 4 == 0) 20
        ++ resv bytes 24 8 ++ restartBad bytes ++ restartLate bytes (k / 8) ++ resv bytes 36 28) with
    | .error e => .error e
    | .ok _ =>
      match x.c.tensor? (fieldAt bytes 0 2), x.c.tensor? (fieldAt bytes 2 2), x.c.tensor? (fieldAt bytes 4 2) with
      | none, _, _ => .error (descBad l (fieldAt bytes 0 2))
      | some src, od, om =>
        if !msrchFormat src then .error (descBad l src.id)
        else
          match od, om with
          | none, _ => .error (descBad l (fieldAt bytes 2 2))
          | some dst, om =>
            if !msrchFormat dst || dst.fmt != src.fmt then .error (descBad l dst.id)
            else
              match om with
              | none => .error (descBad l (fieldAt bytes 4 2))
              | some m =>
                if m.fmt != 0xE || inTiles m.base then .error (descBad l m.id)
                else if !msrchHolds src bytes then .error (tensorTrap l 0x27 src.id)
                else if !msrchHolds dst bytes then .error (tensorTrap l 0x27 dst.id)
                else if !m.holds (fieldAt bytes 12 4) n (fieldAt bytes 8 4 / 8) (k / 8) then .error (tensorTrap l 0x27 m.id)
                else x.issueCommand 3 none (mkCommand x .msrch l va bytes [src, dst, m] (k / 8)))

/-- The magnitude of an element, in units of 2^−149. -/
def msrchMagnitude (v : FVal) : Nat :=
  match v with
  | .nan _ => 2 ^ (129 + 149)
  | .inf _ => 2 ^ (128 + 149)
  | .fin _ m e => m * 2 ^ (e + 149).toNat

/-- A mask of a 4 × 4 block: bit 4 × ra + ca. -/
def mask4 (m ra ca : Nat) : Bool := bitAt m (4 * ra + ca)

/-- The mask the search starts from. -/
def maskStart : Nat :=
  (List.range 16).foldl (fun n i => if (i % 4 + 4 - i / 4) % 4 ≤ 1 then n + 2 ^ i else n) 0

/-- The pairs below 4, ascending. -/
def pairs4 : List (Nat × Nat) := [(0, 1), (0, 2), (0, 3), (1, 2), (1, 3), (2, 3)]

/-- The gain of a swap, where the mask admits it. -/
def swapGain (g : Nat → Nat → Nat) (m : Nat) (r c : Nat × Nat) : Option Int :=
  if mask4 m r.1 c.1 == mask4 m r.2 c.2 && mask4 m r.1 c.2 == mask4 m r.2 c.1 && mask4 m r.1 c.1 != mask4 m r.1 c.2 then
    let diag : Int := (g r.1 c.1 + g r.2 c.2 : Nat)
    let anti : Int := (g r.1 c.2 + g r.2 c.1 : Nat)
    some (if mask4 m r.1 c.1 then anti - diag else diag - anti)
  else none

/-- The best swap: the first of the greatest positive gain. -/
def bestSwap (g : Nat → Nat → Nat) (m : Nat) : Option (Int × (Nat × Nat) × (Nat × Nat)) :=
  (pairs4.flatMap (fun r => pairs4.map (fun c => (r, c)))).foldl (fun best p =>
    match swapGain g m p.1 p.2 with
    | none => best
    | some v =>
      if v > 0 && (match best with | none => true | some b => decide (v > b.1)) then some (v, p.1, p.2) else best) none

/-- Flip the four positions of a swap. -/
def flipSwap (m : Nat) (r c : Nat × Nat) : Nat :=
  m ^^^ (2 ^ (4 * r.1 + c.1) + 2 ^ (4 * r.1 + c.2) + 2 ^ (4 * r.2 + c.1) + 2 ^ (4 * r.2 + c.2))

/-- The search: at most so many swaps. -/
def searchMask (g : Nat → Nat → Nat) : Nat → Nat → Nat
  | 0, m => m
  | n + 1, m =>
    match bestSwap g m with
    | none => m
    | some (_, r, c) => searchMask g n (flipSwap m r c)

/-- An `e.msrch` does a band of 8 rows along K: it is read whole, then its elements and mask bytes are written. -/
def msrchUnit (s : State) (w : Warp) (oid : Nat) (c : Command) : Except EngErr (State × Command) :=
  match c.tensor 0, c.tensor 1, c.tensor 2 with
  | some src, some dst, some m =>
    let row := fieldAt c.params 8 4 + 8 * c.progress
    let col := fieldAt c.params 12 4
    let n := fieldAt c.params 20 4
    let es := elemBytes src.fmt
    let places := (List.range 8).flatMap (fun i => (List.range n).map (fun j => (i, j)))
    match engReads w c es s (places.map (fun p => msrchAddr src (row + p.1) (col + p.2))) with
    | .error e => .error e
    | .ok (vs, s) =>
      let code (i j : Nat) : Nat := vs.getD (n * i + j) 0
      let g (i j : Nat) : Nat := msrchMagnitude (((fmtOfCode src.fmt).map (fun f => f.decode (code i j))).getD (.fin false 0 0))
      let masks := (List.range 2).map (fun bi => (List.range (n / 4)).map (fun bj =>
        searchMask (fun ra ca => g (4 * bi + ra) (4 * bj + ca)) 8 maskStart))
      let kept (i j : Nat) : Bool := mask4 ((masks.getD (i / 4) []).getD (j / 4) 0) (i % 4) (j % 4)
      let elems : List Elem := places.map (fun p =>
        (msrchAddr dst (row + p.1) (col + p.2), natLe es (if kept p.1 p.2 then code p.1 p.2 else 0)))
      let bytes : List Elem := (List.range n).map (fun j =>
        (m.addr (col + j) (row / 8), [(List.range 8).foldl (fun v i => if kept i j then v + 2 ^ i else v) 0]))
      match writeTile s w oid c (elems ++ bytes) with
      | .error e => .error e
      | .ok s => .ok (s, { c with progress := c.progress + 1 })
  | _, _, _ => .ok (s, c)

/-! ### `e.quant` (R289, R290) -/

/-- Type code of a QFL format. -/
def quantCode (bytes : List Nat) : Nat := 5 + bytes.getD 13 0 % 4
def quantFixed (bytes : List Nat) : Bool := bitAt (bytes.getD 13 0) 2

/-- A scale that is finite, positive and normal. -/
def scaleNormal (v : Nat) : Bool := v < 2 ^ 31 && decide (1 ≤ v / 2 ^ 23) && decide (v / 2 ^ 23 ≤ 254)

/-- `e.quant`. -/
def execEQuant (p : Nat) (s : State) : Outcome State Fault Refusal :=
  elected s (memInfo false false (misaligned p 14 1)) p 64 64 (fun x => x.idleCommand 3 none) (fun x l va bytes =>
    let m := fieldAt bytes 16 2
    let n := fieldAt bytes 18 2
    match paramCheck l va (limit (decide (fieldAt bytes 0 2 ≤ 4095)) 0 ++ resv bytes 2 2
        ++ limit (fieldAt bytes 8 4 % 128 == 0) 8
        ++ limit (decide (bytes.getD 13 0 < 8) && bytes.getD 13 0 % 4 != 3) 13 ++ resv bytes 14 2
        ++ limit (decide (1 ≤ m) && decide (m ≤ 128)) 16 ++ limit (decide (1 ≤ n) && decide (n ≤ 128)) 18
        ++ (if quantFixed bytes then limit (scaleNormal (fieldAt bytes 20 4)) 20 else resv bytes 20 4)
        ++ resv bytes 24 8 ++ restartBad bytes ++ restartLate bytes m ++ resv bytes 36 28) with
    | .error e => .error e
    | .ok _ =>
      match x.c.tensor? (fieldAt bytes 0 2) with
      | none => .error (descBad l (fieldAt bytes 0 2))
      | some dst =>
        if !((dst.fmt == 5 || dst.fmt == 6 || dst.fmt == 7 || dst.fmt == 0x10) && !dst.lay && !inTiles dst.base) then
          .error (descBad l dst.id)
        else
          match paramCheck l va (limit (dst.fmt == 0x10 || dst.fmt == quantCode bytes) 13) with
          | .error e => .error e
          | .ok _ =>
            if !dst.holds (fieldAt bytes 4 4) m (fieldAt bytes 8 4) n then .error (tensorTrap l 0x27 dst.id)
            else
              match tileCheck x.s x.w l [tileBase + 65536 * bytes.getD 12 0] with
              | .error e => .error e
              | .ok _ => x.issueCommand 3 none (mkCommand x .quant l va bytes [dst] m))

/-- The exact quotient of finite values, the divisor positive. -/
def divRound (f : Fmt) (m : Rm) (sat neg : Bool) (p : Nat) (i : Int) (q : Nat) (j : Int) : Nat :=
  (roundFrac f m sat neg (scaleUp p (i - j)) (scaleUp q (j - i))).1

/-- Mantissa and exponent of a finite value. -/
def finParts (v : FVal) : Nat × Int :=
  match v with
  | .fin _ m e => (m, e)
  | _ => (0, 0)

/-- p × 2^i exceeds q × 2^j. -/
def finGt (p : Nat) (i : Int) (q : Nat) (j : Int) : Bool := decide (scaleUp p (i - j) > scaleUp q (j - i))

/-- The largest finite magnitude of f32 codes; a code with sign 0. -/
def largestFinite (xs : List Nat) : Nat :=
  xs.foldl (fun a x => if x % 2 ^ 31 < 0x7F800000 then max a (x % 2 ^ 31) else a) 0

/-- The scale of a row (R289). -/
def quantScale (f : Fmt) (fixed : Option Nat) (xs : List Nat) : Nat :=
  match fixed with
  | some v => v
  | none =>
    let a := largestFinite xs
    if a = 0 then 0x3F800000
    else
      let p := finParts (Fmt.f32.decode a)
      let q := finParts (f.decode f.largest)
      divRound .f32 .rup false false p.1 p.2 q.1 q.2

/-- The code of an element under a scale. -/
def quantElement (f : Fmt) (scale x : Nat) : Nat :=
  match Fmt.f32.decode x with
  | .fin neg m e =>
    let q := finParts (Fmt.f32.decode scale)
    divRound f .rne true neg m e q.1 q.2
  | v => (roundVal f .rne true v).1

/-- An element that R289 counts. -/
def quantCounted (f : Fmt) (scale x : Nat) : Bool :=
  match Fmt.f32.decode x with
  | .fin _ m e =>
    let q := finParts (Fmt.f32.decode scale)
    let b := finParts (f.decode f.largest)
    finGt m e (q.1 * b.1) (q.2 + b.2)
  | _ => true

/-- The slot bytes of a block's codes (R261). -/
def quantSlot (fmt : Nat) (codes : List Nat) : List Nat :=
  if fmt = 7 then (List.range 128).map (fun e => if e < 64 then codes.getD (2 * e) 0 % 16 + 16 * (codes.getD (2 * e + 1) 0 % 16) else 0)
  else (List.range 128).map (fun e => codes.getD e 0)

/-- The tile elements of a row that the command reads. -/
def quantRow (s : State) (w : Warp) (c : Command) (i : Nat) : Except EngErr (List Nat × State) :=
  engReads w c 4 s ((List.range (fieldAt c.params 18 2)).map (fun j => tileRow (c.params.getD 12 0) i + 4 * j))

/-- The fixed scale, if there is one. -/
def quantGiven (c : Command) : Option Nat := if quantFixed c.params then some (fieldAt c.params 20 4) else none

/-- Update the two bits of a block's tag (R289). -/
def putTag (s : State) (w : Warp) (oid : Nat) (c : Command) (t : Tensor) (n tag : Nat) : Except EngErr State :=
  if t.fmt = 0x10 then
    match engNat s w c (t.tagb + n / 4) 1 with
    | .error e => .error e
    | .ok (v, s) => engWrite s w oid c (t.tagb + n / 4) [v - v / 4 ^ (n % 4) % 4 * 4 ^ (n % 4) + tag * 4 ^ (n % 4)]
  else .ok s

/-- The addresses of a row's slot. -/
def quantDests (c : Command) (i : Nat) : List Nat :=
  match c.tensor 0 with
  | none => []
  | some t => (List.range 128).map (fun b => t.slotAddr (fieldAt c.params 4 4 + i) (fieldAt c.params 8 4) + b)

/-- The row before which the part of the command that begins at a row ends. -/
def quantEnd (c : Command) : Nat := transferEnd (quantDests c) c.total c.progress

/-- The scales and tags of rows, written in order, and the elements of their slots. -/
def quantBlocks (w : Warp) (oid : Nat) (c : Command) (t : Tensor) (f : Fmt) :
    State → List Nat → Except EngErr (List Elem × State)
  | s, [] => .ok ([], s)
  | s, i :: is =>
    match quantRow s w c i with
    | .error e => .error e
    | .ok (xs, s) =>
      let n := t.blockNo (fieldAt c.params 4 4 + i) (fieldAt c.params 8 4)
      let scale := quantScale f (quantGiven c) xs
      match (if t.scaleb = 0 then .ok s else engWrite s w oid c (t.scaleb + 4 * n) (natLe 4 scale)) with
      | .error e => .error e
      | .ok s =>
        match putTag s w oid c t n (quantCode c.params - 5) with
        | .error e => .error e
        | .ok s =>
          let slot := quantSlot (quantCode c.params) (xs.map (quantElement f scale))
          match quantBlocks w oid c t f s is with
          | .error e => .error e
          | .ok (rest, s) => .ok ((quantDests c i).zip (slot.map (fun b => [b])) ++ rest, s)

/-- An `e.quant` does the rows up to where its slots may stop: their scales and tags, then their slots' sectors (R217,
R289). -/
def quantUnit (s : State) (w : Warp) (oid : Nat) (c : Command) : Except EngErr (State × Command) :=
  match c.tensor 0, fmtOfCode (quantCode c.params) with
  | some t, some f =>
    match quantBlocks w oid c t f s (regsFrom c.progress (quantEnd c - c.progress)) with
    | .error e => .error e
    | .ok (es, s) =>
      match writeTile s w oid c es with
      | .error e => .error e
      | .ok s => .ok (s, { c with progress := quantEnd c })
  | _, _ => .ok (s, c)

/-- The rows of the region, read from the tile. -/
def quantRows (w : Warp) (c : Command) : State → List Nat → Except EngErr (List (List Nat) × State)
  | s, [] => .ok ([], s)
  | s, i :: is =>
    match quantRow s w c i with
    | .error e => .error e
    | .ok (x, s) =>
      match quantRows w c s is with
      | .error e => .error e
      | .ok (xs, s) => .ok (x :: xs, s)

/-- The largest magnitude of f32 codes, infinities included and NaNs not. -/
def amax (xs : List Nat) : Nat := xs.foldl (fun a x => if x % 2 ^ 31 ≤ 0x7F800000 then max a (x % 2 ^ 31) else a) 0

/-- The trailer of a command with TRL = 1 (R290), over the blocks as they stand. -/
def putTrailer (s : State) (w : Warp) (oid : Nat) (c : Command) : Except EngErr State :=
  match c.tensor 0, fmtOfCode (quantCode c.params) with
  | some t, some f =>
    if !t.trl then .ok s
    else
      let m := fieldAt c.params 16 2
      let row := fieldAt c.params 4 4
      let k := fieldAt c.params 8 4
      match quantRows w c s (List.range m) with
      | .error e => .error e
      | .ok (rows, s) =>
        let sats := rows.foldl (fun n xs => n + (xs.filter (quantCounted f (quantScale f (quantGiven c) xs))).length) 0
        match crcBlocks (fun s a n => engRead s w c a n) id t k s (regsFrom row m) with
        | .error e => .error e
        | .ok (bytes, s) =>
          engWrite s w oid c (t.scaleb - 32)
            ([amax rows.flatten, sats, crc32c bytes, m, row, k / 128, 0, 0].flatMap (natLe 4))
  | _, _ => .ok s

end Sys2Proof.Machine
end

