-- ==== Sys2Proof/Machine/Percolator.lean ====
section
/-! DEFINITION. Key-page summaries and selection: `e.ksel` (R318, R324 to R327), `e.kgat` (R319), `e.ksum` (R328 to
R330). -/

namespace Sys2Proof.Machine

open Host (Outcome)

/-- Pages of a summarised tensor (R320). -/
def Tensor.pages (t : Tensor) : Nat := (t.rows + 63) / 64

/-- The key tensor of a selection command (steps 5 and 6), for a range of pages. -/
def keyTensor (x : Cx) (l va : Nat) (bytes : List Nat) : Except Stop Tensor :=
  match x.c.tensor? (fieldAt bytes 0 2) with
  | none => .error (descBad l (fieldAt bytes 0 2))
  | some t =>
    if !t.sumd then .error (tensorTrap l 0x29 t.id)
    else
      match paramCheck l va (limit (decide (fieldAt bytes 4 4 + fieldAt bytes 8 4 ≤ t.pages)) 4) with
      | .error e => .error e
      | .ok _ => .ok t

/-- Checks on KTEN, FIRST, NPAGE and RESTART that no descriptor bears on. -/
def rangeFields (bytes : List Nat) : List Nat :=
  let n := fieldAt bytes 8 4
  limit (decide (fieldAt bytes 0 2 ≤ 4095)) 0 ++ resv bytes 2 2 ++ limit (decide (1 ≤ n) && decide (n ≤ 65536)) 8
    ++ restartBad bytes ++ restartLate bytes n

/-- A range of the scratchpad window within the block's share (R160). -/
def inShare (s : State) (w : Warp) (a n : Nat) : Bool :=
  let have_ := ((w.block.bind s.block?).map Block.pages).getD 0 * 4096
  inScratch a && decide (a - scratchBase + n ≤ have_)

/-! ### `e.ksel` -/

def kselIssue (s : State) (topk : Bool) (p t : Nat) : Outcome State Fault Refusal :=
  elected s (bareInfo (misaligned p 14 1)) p 64 64 (fun x => x.idleCommand 2 (some t)) (fun x l va bytes =>
    let tau := fieldAt bytes 12 4
    let cap := fieldAt bytes 36 4
    let list := fieldAt bytes 24 8
    match paramCheck l va (rangeFields bytes
        ++ limit (if topk then decide (1 ≤ tau) && decide (tau ≤ cap) else !(Fmt.f32.decode tau).isNan) 12
        ++ limit (fieldAt bytes 16 8 % 4 == 0) 16
        ++ limit (list % 4 == 0 && inShare x.s x.w list (4 + 4 * cap)) 24
        ++ limit (decide (1 ≤ cap) && decide (cap ≤ 65536)) 36 ++ resv bytes 40 24) with
    | .error e => .error e
    | .ok _ =>
      match keyTensor x l va bytes with
      | .error e => .error e
      | .ok key => x.issueCommand 2 (some t)
          (mkCommand x (if topk then .kselTopk else .kselThr) l va bytes [key] (fieldAt bytes 8 4)))

/-- `e.ksel.thr`. -/
def execEKselThr (p t : Nat) (s : State) : Outcome State Fault Refusal := kselIssue s false p t

/-- `e.ksel.topk`. -/
def execEKselTopk (p t : Nat) (s : State) : Outcome State Fault Refusal := kselIssue s true p t

/-- What a selection holds: the number selected so far, the query, and the pages listed, each with its bound; 2^32 is a
bound that is NaN. -/
structure Selection where
  count : Nat
  query : List Nat
  pages : List (Nat × Nat)
  deriving DecidableEq, Repr

def pairUp : List Nat → List (Nat × Nat)
  | a :: b :: rest => (a, b) :: pairUp rest
  | _ => []

def Command.selection (c : Command) (d : Nat) : Selection where
  count := c.held.headD 0
  query := (c.held.drop 1).take d
  pages := pairUp (c.held.drop (1 + d))

def Selection.held (x : Selection) : List Nat := x.count :: x.query ++ x.pages.flatMap (fun p => [p.1, p.2])

/-- q × bound rounded up; 0 × ∞ counts as +∞. -/
def boundProduct (q b : Nat) : Nat :=
  match (mulVal (Fmt.f32.decode q) (Fmt.bf16.decode b)) with
  | (.nan _, _) => 0x7F800000
  | r => (finish .f32 .rup r).1

/-- A sum rounded up; +∞ + −∞ gives +∞. -/
def boundSum (a b : Nat) : Nat :=
  match addVal .rup (Fmt.f32.decode a) (Fmt.f32.decode b) with
  | (.nan _, _) => 0x7F800000
  | r => (finish .f32 .rup r).1

/-- One channel of R325: the sum, none once a NaN was met. -/
def boundStep (acc : Option Nat) (q lo hi : Nat) : Option Nat :=
  match acc with
  | none => none
  | some v =>
    if (Fmt.f32.decode q).isNan || (Fmt.bf16.decode lo).isNan || (Fmt.bf16.decode hi).isNan then none
    else if q % 2 ^ 31 = 0 then some v
    else
      let t1 := boundProduct q lo
      let t2 := boundProduct q hi
      some (boundSum v (if ltVal (Fmt.f32.decode t1) (Fmt.f32.decode t2) then t2 else t1))

/-- The bound of a page (R325). -/
def boundOf (query lo hi : List Nat) : Nat :=
  ((query.zip (lo.zip hi)).foldl (fun a p => boundStep a p.1 p.2.1 p.2.2) (some 0)).getD (2 ^ 32)

/-- The halves of a list of bytes. -/
def halves (bytes : List Nat) : List Nat := (List.range (bytes.length / 2)).map (fun i => fieldAt bytes (2 * i) 2)

/-- Read a page's summary and take its bound. -/
def pageBound (s : State) (w : Warp) (c : Command) (t : Tensor) (query : List Nat) (g : Nat) : Except EngErr (Nat × State) :=
  let d := t.cols
  match engRead s w c (t.sumb + 4 * d * g) (4 * d) with
  | .error e => .error e
  | .ok (b, s) => .ok (boundOf query ((halves b).take d) ((halves b).drop d), s)

/-- Bounds of several pages. -/
def pageBounds (w : Warp) (c : Command) (t : Tensor) (query : List Nat) :
    State → List Nat → Except EngErr (List (Nat × Nat) × State)
  | s, [] => .ok ([], s)
  | s, g :: gs =>
    match pageBound s w c t query g with
    | .error e => .error e
    | .ok (b, s) =>
      match pageBounds w c t query s gs with
      | .error e => .error e
      | .ok (bs, s) => .ok ((g, b) :: bs, s)

/-- A bound that `ksel.thr` selects (R326). -/
def boundMeets (tau b : Nat) : Bool := b == 2 ^ 32 || !ltVal (Fmt.f32.decode b) (Fmt.f32.decode tau)

/-- The order of `ksel.topk`: NaN first, then the larger bound, then the lower page. -/
def ranksBefore (a b : Nat × Nat) : Bool :=
  if a.2 == 2 ^ 32 then b.2 != 2 ^ 32 || decide (a.1 < b.1)
  else if b.2 == 2 ^ 32 then false
  else if ltVal (Fmt.f32.decode b.2) (Fmt.f32.decode a.2) then true
  else if ltVal (Fmt.f32.decode a.2) (Fmt.f32.decode b.2) then false
  else decide (a.1 < b.1)

/-- Insert by rank. -/
def insertRank (x : Nat × Nat) : List (Nat × Nat) → List (Nat × Nat)
  | [] => [x]
  | y :: ys => if ranksBefore x y then x :: y :: ys else y :: insertRank x ys

/-- A page after its bound is taken (R326): for `thr` the number selected rises and the page is listed while fewer than
CAP are; for `topk` the best k are kept. -/
def selectPage (topk : Bool) (tau cap : Nat) (x : Selection) (g b : Nat) : Selection :=
  if topk then { x with pages := (insertRank (g, b) x.pages).take tau }
  else if boundMeets tau b then
    { x with count := x.count + 1, pages := if x.pages.length < cap then x.pages ++ [(g, b)] else x.pages }
  else x

/-- Pages of a selection in ascending order. -/
def Selection.list (x : Selection) : List Nat := x.pages.foldl (fun l p => insertAsc p.1 l) []

def kselReady (c : Command) : Bool := !c.held.isEmpty && !c.again

/-- The query, read once at the command's start (R325). -/
def kselQuery (s : State) (w : Warp) (c : Command) (t : Tensor) : Except EngErr (List Nat × State) :=
  if c.held.isEmpty then engReads w c 4 s ((List.range t.cols).map (fun i => fieldAt c.params 16 8 + 4 * i))
  else .ok ((c.selection t.cols).query, s)

/-- The list that a command goes on from after a stop (R327): for `thr` the number selected and the entries that stand; for
`topk` the pages listed with their bounds taken anew. -/
def kselList (s : State) (w : Warp) (c : Command) (t : Tensor) (query : List Nat) : Except EngErr (Selection × State) :=
  let list := fieldAt c.params 24 8
  match engNat s w c list 4 with
  | .error e => .error e
  | .ok (n, s) =>
    match engReads w c 4 s ((List.range (min n (fieldAt c.params 36 4))).map (fun i => list + 4 + 4 * i)) with
    | .error e => .error e
    | .ok (gs, s) =>
      if c.op = .kselTopk then
        match pageBounds w c t query s gs with
        | .error e => .error e
        | .ok (ps, s) => .ok ({ count := 0, query := query, pages := ps.foldl (fun l p => insertRank p l) [] }, s)
      else .ok ({ count := n, query := query, pages := gs.map (fun g => (g, 0)) }, s)

/-- A selection starts, or goes on after a stop: the query is read, and with V = 1 or after a stop the list as it stands
(R325, R327). -/
def kselPrepare (s : State) (w : Warp) (c : Command) : Except EngErr (State × Command) :=
  match c.tensor 0 with
  | none => .ok (s, { c with held := [0], again := false })
  | some t =>
    match kselQuery s w c t with
    | .error e => .error e
    | .ok (query, s) =>
      match (if restartV c.params || c.again then kselList s w c t query
        else .ok ({ count := 0, query := query, pages := [] : Selection }, s)) with
      | .error e => .error e
      | .ok (x, s) => .ok (s, { c with held := x.held, again := false })

/-- A selection takes its next page. -/
def kselUnit (s : State) (w : Warp) (c : Command) : Except EngErr (State × Command) :=
  match c.tensor 0 with
  | none => .ok (s, { c with progress := c.progress + 1 })
  | some t =>
    let x := c.selection t.cols
    let g := fieldAt c.params 4 4 + c.progress
    match pageBound s w c t x.query g with
    | .error e => .error e
    | .ok (b, s) =>
      let y := selectPage (c.op == .kselTopk) (fieldAt c.params 12 4) (fieldAt c.params 36 4) x g b
      .ok (s, { c with held := y.held, progress := c.progress + 1 })

/-- Write the list: `n` at LIST, the entries after it. -/
def putList (s : State) (w : Warp) (oid : Nat) (c : Command) (n : Nat) (gs : List Nat) : Except EngErr State :=
  engWrite s w oid c (fieldAt c.params 24 8) ((n :: gs).flatMap (natLe 4))

/-- The list at a stop (R327): for `thr` the word at LIST is the full number. A command that has not yet read the list it goes
on from leaves that list. A page of the scratchpad that is not refilled takes the list in its backing storage (`whilePinned`). -/
def kselStop (s : State) (w : Warp) (oid : Nat) (c : Command) : State :=
  if c.again || (c.held.isEmpty && restartV c.params) then s
  else
    let x := c.selection (((c.tensor 0).map Tensor.cols).getD 0)
    match putList s w oid c (if c.op == .kselTopk then x.list.length else x.count) x.list with
    | .ok s => s
    | .error _ => s

/-- A command after a stop: a selection reads its list again before it goes on, where it has a list (R327). -/
def Command.resumed (c : Command) : Command :=
  match c.op with
  | .kselThr => { c with again := c.again || !c.held.isEmpty }
  | .kselTopk => { c with again := c.again || !c.held.isEmpty }
  | _ => c

/-- The list at completion, and the full number where it exceeds CAP (R326). -/
def kselFinish (s : State) (w : Warp) (oid : Nat) (c : Command) : Except EngErr (State × Option OpFault) :=
  let x := c.selection (((c.tensor 0).map Tensor.cols).getD 0)
  match putList s w oid c x.list.length x.list with
  | .error e => .error e
  | .ok s =>
    .ok (s, if c.op == .kselThr && decide (x.count > fieldAt c.params 36 4)
      then some { cause := 0x2A, lanes := 0#32, addr := fieldAt c.params 24 8, detail := [x.count] } else none)

/-! ### `e.kgat` -/

/-- The destinations of a gather of pages: element size, no weight layout, not the accumulator window (R277). -/
def kgatDest (x : Cx) (l es : Nat) (bytes : List Nat) (at_ : Nat) : Except Stop Tensor :=
  match x.c.tensor? (fieldAt bytes at_ 2) with
  | none => .error (descBad l (fieldAt bytes at_ 2))
  | some t => if !copyable t || inTiles t.base || elemBytes t.fmt != es then .error (descBad l t.id) else .ok t

/-- With V = 1 the command's total, the list's count, is read at issue, for the check of the restart word (R273), and not again
(R319). -/
def kgatCount (x : Cx) (l : Nat) (bytes : List Nat) : Except Stop Nat :=
  if restartV bytes then
    match readMem x.s x.w.ctx x.w.block 3 (fieldAt bytes 8 8) 4 with
    | .ok (b, _) => .ok (leNat b)
    | .error e => .error (stopOf (oneLane l) e)
  else .ok 0

/-- The checks of a gather of pages that no descriptor bears on (steps 4 and R319). -/
def kgatFields (x : Cx) (bytes : List Nat) : List Nat :=
  let list := fieldAt bytes 8 8
  limit (decide (fieldAt bytes 0 2 ≤ 4095)) 0 ++ limit (decide (fieldAt bytes 2 2 ≤ 4095)) 2
    ++ limit (decide (fieldAt bytes 4 2 ≤ 4095)) 4 ++ limit (decide (fieldAt bytes 6 2 ≤ 4095)) 6
    ++ limit (list % 4 == 0 && inShare x.s x.w list 4) 8 ++ resv bytes 20 8 ++ barBad x.w bytes ++ restartBad bytes
    ++ resv bytes 36 28

/-- Step 4 of a gather of pages, and the list's count where it is read at issue. The lowest offending offset is named (R272): the count,
which bears on the restart word at 32, is read where no lower field is at fault. -/
def kgatTotal (x : Cx) (l va : Nat) (bytes : List Nat) : Except Stop Nat :=
  let bad := kgatFields x bytes
  match paramCheck l va (bad.filter (· < 32)) with
  | .error e => .error e
  | .ok _ =>
    match kgatCount x l bytes with
    | .error e => (match paramCheck l va bad with | .error f => .error f | .ok _ => .error e)
    | .ok n =>
      match paramCheck l va (bad ++ if restartV bytes then restartLate bytes n else []) with
      | .error e => .error e
      | .ok _ => .ok n

/-- `e.kgat`. -/
def execEKgat (p t : Nat) (s : State) : Outcome State Fault Refusal :=
  elected s (bareInfo (misaligned p 14 1)) p 64 64 (fun x => x.idleCommand 2 (some t)) (fun x l va bytes =>
    match kgatTotal x l va bytes with
    | .error e => .error e
    | .ok n =>
      match x.c.tensor? (fieldAt bytes 0 2) with
      | none => .error (descBad l (fieldAt bytes 0 2))
      | some k =>
        if !k.sumd then .error (tensorTrap l 0x29 k.id)
        else
          match x.c.tensor? (fieldAt bytes 2 2) with
          | none => .error (descBad l (fieldAt bytes 2 2))
          | some v =>
            if v.rows != k.rows || elemBytes v.fmt != elemBytes k.fmt || !copyable v || inTiles v.base then
              .error (descBad l v.id)
            else
              match kgatDest x l (elemBytes k.fmt) bytes 4 with
              | .error e => .error e
              | .ok kd =>
                match kgatDest x l (elemBytes k.fmt) bytes 6 with
                | .error e => .error e
                | .ok vd =>
                  match paramCheck l va (limit (!badDest kd) 4 ++ limit (!badDest vd) 6) with
                  | .error e => .error e
                  | .ok _ =>
                    let r := expectSignal x.s x.w bytes
                    { x with s := r.1 }.issueCommand 2 (some t)
                      { mkCommand x .kgat l va bytes [k, v, kd, vd] n with signal := r.2 })

def kgatReady (c : Command) : Bool := !c.held.isEmpty

/-- Entries of the list that can be read, in order up to the first that cannot. -/
def readEntries (w : Warp) (c : Command) : State → List Nat → Except EngErr (List Nat × State)
  | s, [] => .ok ([], s)
  | s, a :: as =>
    match engNat s w c a 4 with
    | .error (.acc s (.trap _ _ _)) => .ok ([], s)
    | .error e => .error e
    | .ok (v, s) =>
      match readEntries w c s as with
      | .error e => .error e
      | .ok (vs, s) => .ok (v :: vs, s)

/-- A gather of pages starts: count and entries are read once (R319), the count at issue with V = 1. `held` keeps the count, then the
entries from the restart on. -/
def kgatPrepare (s : State) (w : Warp) (c : Command) : Except EngErr (State × Command) :=
  let list := fieldAt c.params 8 8
  match (if restartV c.params then .ok (c.total, s) else engNat s w c list 4) with
  | .error e => .error e
  | .ok (n, s) =>
    match readEntries w c s ((regsFrom c.progress (n - c.progress)).map (fun i => list + 4 + 4 * i)) with
    | .error e => .error e
    | .ok (gs, s) => .ok (s, { c with held := n :: gs, total := n })

/-- The rows of a page that a tensor holds. -/
def pageRows (k : Tensor) (g : Nat) : Nat := min 64 (k.rows - 64 * g)

/-- The entry of the list that unit `i` names, where the list gives one that is a page of the key tensor. -/
def kgatEntry (c : Command) (k : Tensor) (i : Nat) : Option Nat :=
  match c.held[1 + i - restartAt c.params]? with
  | none => none
  | some g => if g < k.pages then some g else none

/-- The rows that unit `i` copies; a whole page's where its entry is no page of the tensor. -/
def kgatRows (c : Command) (k : Tensor) (i : Nat) : Nat :=
  match kgatEntry c k i with
  | none => 64
  | some g => pageRows k g

/-- The first of an entry's rows in a destination. -/
def kgatRow (c : Command) (i : Nat) : Nat := fieldAt c.params 16 4 + 64 * i

/-- The rows of an entry, from the first on, that a destination holds. -/
def kgatFit (c : Command) (k src dst : Tensor) (i : Nat) : Nat :=
  if src.cols ≤ dst.cols then min (kgatRows c k i) (dst.rows - kgatRow c i) else 0

/-- The tile of an entry lies within a destination. -/
def kgatRoom (c : Command) (k src dst : Tensor) (i : Nat) : Bool := kgatFit c k src dst i == kgatRows c k i

/-- An entry that is a page of the key tensor and whose tiles lie within both destinations. -/
def kgatWhole (c : Command) (k v kd vd : Tensor) (i : Nat) : Bool :=
  (kgatEntry c k i).isSome && kgatRoom c k k kd i && kgatRoom c k v vd i

/-- Destinations of an entry's rows in a tensor. -/
def kgatTo (c : Command) (k src dst : Tensor) (i : Nat) : List Nat := tileAddrs dst (kgatRow c i) (kgatFit c k src dst i) 0 src.cols

/-- The entry before which the part of the command that begins at an entry ends: each destination is a tile transfer of its
own, and no sector of one is written in two parts (R218). -/
def kgatEnd (c : Command) (k v kd vd : Tensor) : Nat :=
  match (regsFrom (c.progress + 1) (c.total - c.progress)).find? (fun e =>
      let split (src dst : Tensor) : Bool := sectorsBelow ((regsFrom c.progress (e - c.progress)).flatMap (kgatTo c k src dst))
        ((regsFrom e (c.total - e)).flatMap (kgatTo c k src dst))
      split k kd && split v vd) with
  | some e => e
  | none => c.progress + 1

/-- The first entry of a part that is not whole. -/
def kgatStop (c : Command) (k v kd vd : Tensor) : Option Nat :=
  (regsFrom c.progress (kgatEnd c k v kd vd - c.progress)).find? (fun i => !kgatWhole c k v kd vd i)

/-- Copy the rows of entries that a destination holds: every source element is read first (R277), then the sectors are written
ascending. -/
def kgatCopy (s : State) (w : Warp) (oid : Nat) (c : Command) (k src dst : Tensor) (entries : List Nat) : Except EngErr State :=
  copyElems s w oid c (elemBytes src.fmt)
    (entries.flatMap (fun i => tileAddrs src (64 * (kgatEntry c k i).getD 0) (kgatFit c k src dst i) 0 src.cols))
    (entries.flatMap (kgatTo c k src dst))

/-- Copy entries, keys and then values. -/
def kgatBoth (s : State) (w : Warp) (oid : Nat) (c : Command) (k v kd vd : Tensor) (keys values : List Nat) : Except EngErr State :=
  match kgatCopy s w oid c k k kd keys with
  | .error e => .error e
  | .ok s => kgatCopy s w oid c k v vd values

/-- A gather of pages does the entries up to where its transfers may stop. An entry of them that is no page of the tensor, or that could
not be read, is unresolvable: nothing of the part is written, and the address is the entry's own in the list (DEDUCED, logs 50 and 54).
Where the tile of one leaves a destination, the rows that fit are written, keys and then values, no values of it where its keys do not
fit; TILE_RANGE then comes at the first row that does not (R319). -/
def kgatUnit (s : State) (w : Warp) (oid : Nat) (c : Command) : Except EngErr (State × Command) :=
  match c.tensor 0, c.tensor 1, c.tensor 2, c.tensor 3 with
  | some k, some v, some kd, some vd =>
    if c.again then
      let dst := if kgatRoom c k k kd c.progress then vd else kd
      .error (.fault s { cause := 0x27, lanes := 0#32, addr := 0, detail := [dst.id] } false)
    else
      match kgatStop c k v kd vd with
      | none =>
        let last := kgatEnd c k v kd vd
        let part := regsFrom c.progress (last - c.progress)
        (match kgatBoth s w oid c k v kd vd part part with
         | .error e => .error e
         | .ok s => .ok (s, { c with progress := last }))
      | some i =>
        if (kgatEntry c k i).isNone then .error (.acc s (.trap 0x20 (fieldAt c.params 8 8 + 4 + 4 * i) []))
        else
          let before := regsFrom c.progress (i - c.progress)
          match kgatBoth s w oid c k v kd vd (before ++ [i]) (if kgatRoom c k k kd i then before ++ [i] else before) with
          | .error e => .error e
          | .ok s => .ok (s, { c with progress := i, again := true })
  | _, _, _, _ => .ok (s, { c with progress := c.progress + 1 })

/-- The unit after the next part of a gather of pages. -/
def kgatNext (c : Command) : Nat :=
  match c.tensor 0, c.tensor 1, c.tensor 2, c.tensor 3 with
  | some k, some v, some kd, some vd => if c.again then c.progress else (kgatStop c k v kd vd).getD (kgatEnd c k v kd vd)
  | _, _, _, _ => c.progress + 1

/-! ### `e.ksum` -/

/-- `e.ksum`. -/
def execEKsum (p t : Nat) (s : State) : Outcome State Fault Refusal :=
  elected s (bareInfo (misaligned p 14 1)) p 64 64 (fun x => x.idleCommand 2 (some t)) (fun x l va bytes =>
    match paramCheck l va (rangeFields bytes ++ resv bytes 12 20 ++ resv bytes 36 28) with
    | .error e => .error e
    | .ok _ =>
      match keyTensor x l va bytes with
      | .error e => .error e
      | .ok key => x.issueCommand 2 (some t) (mkCommand x .ksum l va bytes [key] (fieldAt bytes 8 4)))

def ksumReady (c : Command) : Bool := !c.held.isEmpty

/-- Least and greatest of values compared as numbers, none once one is NaN. -/
def extremes : List FVal → Option (FVal × FVal)
  | [] => none
  | [x] => if x.isNan then none else some (x, x)
  | x :: xs =>
    match extremes xs with
    | none => none
    | some (lo, hi) =>
      if x.isNan then none else some (if ltVal x lo then x else lo, if ltVal hi x then x else hi)

/-- The bounds of a channel (R328). -/
def channelBounds (xs : List FVal) : Nat × Nat :=
  let zero (v : Nat) : Nat := if v % 2 ^ 15 = 0 then 0 else v
  match extremes xs with
  | none => (0x7FC0, 0x7FC0)
  | some (lo, hi) => (zero (toBf16 .rdn lo), zero (toBf16 .rup hi))

/-- `e.ksum` reads the key rows of its next page; `held` keeps the bounds to install. -/
def ksumPrepare (s : State) (w : Warp) (c : Command) : Except EngErr (State × Command) :=
  match c.tensor 0 with
  | none => .ok (s, { c with held := [0] })
  | some t =>
    let g := fieldAt c.params 4 4 + c.progress
    let n := min 64 (t.rows - 64 * g)
    match engReads w c (elemBytes t.fmt) s (tileAddrs t (64 * g) n 0 t.cols) with
    | .error e => .error e
    | .ok (vs, s) =>
      let value (r ch : Nat) : FVal := ((fmtOfCode t.fmt).map (fun f => f.decode (vs.getD (r * t.cols + ch) 0))).getD (.fin false 0 0)
      let bounds := (List.range t.cols).map (fun ch => channelBounds ((List.range n).map (fun r => value r ch)))
      .ok (s, { c with held := bounds.map Prod.fst ++ bounds.map Prod.snd })

/-- `e.ksum` installs a page's bounds (R328). -/
def ksumUnit (s : State) (w : Warp) (oid : Nat) (c : Command) : Except EngErr (State × Command) :=
  match c.tensor 0 with
  | none => .ok (s, { c with held := [], progress := c.progress + 1 })
  | some t =>
    let g := fieldAt c.params 4 4 + c.progress
    match engWrite s w oid c (t.sumb + 4 * t.cols * g) (c.held.flatMap (natLe 2)) with
    | .error e => .error e
    | .ok s => .ok (s, { c with held := [], progress := c.progress + 1 })

end Sys2Proof.Machine
end

