-- ==== Sys2Proof/Machine/EngineEvents.lean ====
section
/-! DEFINITION. Engine commands in progress: units, completion, stalls and faults (R273 to R276, R278), installs of bounds
(R328, R330). A build command goes on in Build.lean. -/

namespace Sys2Proof.Machine

open Host (Outcome)

/-! ### One unit of a command -/

/-- A command has read what it reads before its first, or its next, unit. -/
def prepared (c : Command) : Bool :=
  match c.op with
  | .cpy => cpyReady c
  | .mma => mmaReady c
  | .kselThr => kselReady c
  | .kselTopk => kselReady c
  | .kgat => kgatReady c
  | .ksum => ksumReady c || decide (c.progress ≥ c.total)
  | _ => true

/-- Read it. -/
def prepare (s : State) (w : Warp) (c : Command) : Except EngErr (State × Command) :=
  match c.op with
  | .cpy => cpyPrepare s w c
  | .mma => mmaPrepare s w c
  | .kselThr => kselPrepare s w c
  | .kselTopk => kselPrepare s w c
  | .kgat => kgatPrepare s w c
  | .ksum => ksumPrepare s w c
  | _ => .ok (s, c)

/-- Do a unit. -/
def doUnit (s : State) (w : Warp) (oid : Nat) (c : Command) : Except EngErr (State × Command) :=
  match c.op with
  | .cpy => cpyUnit s w oid c
  | .gath => gathUnit s w oid c
  | .scat _ => scatUnit s w oid c
  | .mma => mmaUnit s w oid c
  | .msrch => msrchUnit s w oid c
  | .quant => quantUnit s w oid c
  | .kselThr => kselUnit s w c
  | .kselTopk => kselUnit s w c
  | .kgat => kgatUnit s w oid c
  | .ksum => ksumUnit s w oid c
  | .ssbld => .ok (s, c)

/-- What a command writes with its completion: status bytes, sums, a trailer, a list. A fault may be reported with it (R326). -/
def doFinish (s : State) (w : Warp) (oid : Nat) (c : Command) : Except EngErr (State × Option OpFault) :=
  let plain (r : Except EngErr State) : Except EngErr (State × Option OpFault) :=
    match r with
    | .error e => .error e
    | .ok s => .ok (s, none)
  match c.op with
  | .gath => plain (putStatus s w oid c)
  | .scat _ => plain (scatFinish s w oid c)
  | .quant => plain (putTrailer s w oid c)
  | .kselThr => kselFinish s w oid c
  | .kselTopk => kselFinish s w oid c
  | _ => .ok (s, none)

/-- A unit that is left, and, once its writes to remote pages are answered, what comes after the last one; the fault is that
of `doFinish`, and there is none to report where that is still to come. -/
def lastPart (s : State) (w : Warp) (oid : Nat) (c : Command) : Except EngErr (State × Command × Option (Option OpFault)) :=
  match (if c.progress < c.total then doUnit s w oid c else .ok (s, c)) with
  | .error e => .error e
  | .ok (s, c) =>
    if writesAway s oid then .ok (s, c, none)
    else
      match doFinish s w oid c with
      | .error e => .error e
      | .ok (s, f) => .ok (s, c, some f)

/-- The number of units done after the next part of a command: a tile transfer may not stop after each unit (R218). -/
def unitEnd (c : Command) : Nat :=
  match c.op with
  | .gath => gathEnd c
  | .quant => quantEnd c
  | .kgat => kgatNext c
  | _ => c.progress + 1

/-- The last unit is among the next, or none is left. -/
def atLast (c : Command) : Bool := decide (unitEnd c ≥ c.total)

/-! ### Stalls (R274) -/

/-- What a command writes at a stop besides its restart word: its list (R327). -/
def stopWrites (s : State) (w : Warp) (oid : Nat) (c : Command) : State :=
  match c.op with
  | .kselThr => whilePinned s w (fun s => kselStop s w oid c)
  | .kselTopk => whilePinned s w (fun s => kselStop s w oid c)
  | _ => s

/-- A command that stops at a unit boundary: its writes and its restart word (R273). -/
def stopCommand (s : State) (w : Warp) (oid : Nat) (c : Command) : State × Command :=
  putRestart (stopWrites s w oid c) w oid c (restartWord c)

/-- A command that has failed leaves with its fault, once the restart word it owes is written. -/
def failCommand (r : State × Command) (o : Op) (f : OpFault) : State :=
  if r.2.owed.isSome then setCommand r.1 o { r.2 with closing := some (some f), signal := none } else closeOp r.1 o (.failed f)

/-- A command that a fault stops for good leaves what it has done: the status bytes of its batches, the sums it has combined.
Where a sum cannot be placed, the scatter has done nothing since it started. -/
def settleCommand (s : State) (w : Warp) (oid : Nat) (c : Command) : State × Command :=
  match c.op with
  | .gath => (match putStatus (asPinned s w) w oid c with | .ok t => (pinsOf s t w, c) | .error _ => (s, c))
  | .scat _ =>
    (match scatFinish (asPinned s w) w oid c with
     | .ok t => (pinsOf s t w, c)
     | .error _ => (s, { c with progress := restartAt c.params, held := [], items := [] }))
  | _ => (s, c)

/-- The state before a part of a command that failed, with the reads that the part had made (R338). -/
def failedReads (s : State) (e : EngErr) : State :=
  match e with
  | .acc s1 _ => keepReads s s1
  | .fault s1 _ _ => keepReads s s1

/-- What an access that is neither performed nor unresolvable does to the command: it stalls on a page that is requested, it
waits for the bytes of a remote page, it fails where they cannot be asked for (R352), or the context ends. -/
def holdCommand (s : State) (w : Warp) (o : Op) (c : Command) (e : EngErr) : State :=
  match e with
  | .acc _ (.wait _ page) =>
    let r := stopCommand (requestPage s w.ctx page) w o.id c
    setCommand r.1 o { r.2.resumed with stalled := some page }
  | .acc _ (.remote va peer addr n) =>
    (match s.ctx? w.ctx with
     | none => s
     | some x =>
       match askRemote s x w.id o.id c.lane va peer addr n with
       | .ok s => s
       | .error (cause, detail) =>
         let r := settleCommand (failedReads s e) w o.id c
         failCommand (stopCommand r.1 w o.id r.2) o (remoteFault cause va detail))
  | .acc _ (.walk a) => endWith s w.ctx 0x17 a []
  | .acc _ (.kick a slot) => endWith s w.ctx 0x4E a [slot]
  | .acc _ (.bad cause a d) => endWith s w.ctx cause a d
  | _ => s

/-- The engine writes the restart word at the unit boundary it has reached where an event's operation number has bit 63 set, as R252
and R273 let it (log 50). -/
def atBoundary (op : Nat) (s : State) (w : Warp) (oid : Nat) (c : Command) : State × Command :=
  let r := putRestart s w oid c (restartWord c)
  if op ≥ 2 ^ 63 && r.2.owed.isNone then r else (s, c)

/-- A command goes on: it reads what it must, or does units that are not its last. -/
def execEngineUnitWrite (op : Nat) (s : State) : Outcome State Fault Refusal :=
  .next (
    match readyCommand s (op % 2 ^ 63) with
    | none => s
    | some (w, o, c) =>
      let after (s : State) (c : Command) : State :=
        let r := atBoundary op s w o.id c
        setCommand r.1 o r.2
      if c.closing.isSome then s
      else if !prepared c then
        match attempt s o.id (fun s => prepare s w c) with
        | .ok (s, c) => after s c
        | .error e => holdCommand s w o c e
      else if c.op == .ksum || atLast c then s
      else
        match attempt s o.id (fun s => doUnit s w o.id c) with
        | .ok (s, c) => after s c
        | .error e => holdCommand s w o c e)

/-- A page that a command waits for is no longer absent (R274). -/
def stallOver (s : State) (ctx page : Nat) : Bool :=
  match s.ctx? ctx with
  | none => false
  | some c =>
    match leafOf s c page with
    | none => true
    | some l => decide (pageState c l ≥ 2)

/-- A stalled command goes on once its page is present or refused, and a restart word that could not be written is written. -/
def execEngineStallResume (op : Nat) (s : State) : Outcome State Fault Refusal :=
  .next (
    match s.awakeOp? op with
    | none => s
    | some (w, o) =>
      match o.kind with
      | .engine c =>
        if o.state == .running && (c.stalled.isSome || c.owed.isSome) && c.closing.isNone then
          let r := payRestart s w o.id c
          let ends := match c.stalled with | none => false | some page => stallOver r.1 w.ctx page
          setCommand r.1 o (if ends then { r.2 with stalled := none } else r.2)
        else s
      | _ => s)

/-! ### Completion -/

/-- A command that has done everything but write the restart word it owes writes it and retires in order, having made its own arrival;
it waits where the word's page is not present, and for the answers to its writes of remote pages. -/
def leaveCommand (s : State) (w : Warp) (o : Op) (c : Command) (fault : Option OpFault) : State :=
  let r := payRestart s w o.id c
  if r.2.owed.isSome || writesAway r.1 o.id then setCommand r.1 o { r.2 with closing := some fault }
  else closeOp (makeSignal r.1 c.signal) o (match fault with | none => .done | some f => .failed f)

/-- A command completes: its restart word is 0. -/
def closeCommand (s : State) (w : Warp) (o : Op) (c : Command) (fault : Option OpFault) : State :=
  leaveCommand s w o { c with owed := some 0 } fault

/-- A command for which `is` holds does what is left and completes, when its writes to remote pages are answered. An operation
that is done already retires where nothing stands before it any more. -/
def completeCommand (is : EngineOp → Bool) (op : Nat) (s : State) : State :=
  match readyCommand s op with
  | none => (match s.awakeOp? op with | none => s | some _ => retireOp s op)
  | some (w, o, c) =>
    if !is c.op || !(atLast c || c.closing.isSome) || writesAway s o.id then s
    else
      match c.closing with
      | some fault => leaveCommand s w o c fault
      | none =>
        if c.op == .ksum then (if c.progress = c.total then closeCommand s w o c none else s)
        else if !prepared c then s
        else
          match attempt s o.id (fun s => lastPart s w o.id c) with
          | .ok (s, c, none) => setCommand s o c
          | .ok (s, c, some fault) =>
            if writesAway s o.id then setCommand s o { c with closing := some fault, owed := some 0 } else closeCommand s w o c fault
          | .error e => holdCommand s w o c e

def isScat (k : EngineOp) : Bool :=
  match k with
  | .scat _ => true
  | _ => false

/-- A copy writes its last sector and completes (R277, R278). -/
def execCpyComplete (op : Nat) (s : State) : Outcome State Fault Refusal := .next (completeCommand (· == .cpy) op s)

/-- A gather completes (R281). -/
def execGathComplete (op : Nat) (s : State) : Outcome State Fault Refusal := .next (completeCommand (· == .gath) op s)

/-- A scatter completes (R283). -/
def execScatComplete (op : Nat) (s : State) : Outcome State Fault Refusal := .next (completeCommand isScat op s)

/-- An `e.mma` completes (R285). -/
def execMmaComplete (op : Nat) (s : State) : Outcome State Fault Refusal := .next (completeCommand (· == .mma) op s)

/-- An `e.msrch` completes (R288). -/
def execMsrchComplete (op : Nat) (s : State) : Outcome State Fault Refusal := .next (completeCommand (· == .msrch) op s)

/-- An `e.quant` completes, its trailer last (R290). -/
def execQuantComplete (op : Nat) (s : State) : Outcome State Fault Refusal := .next (completeCommand (· == .quant) op s)

/-- A selection completes (R318, R326). -/
def execKselComplete (op : Nat) (s : State) : Outcome State Fault Refusal :=
  .next (completeCommand (fun k => k == .kselThr || k == .kselTopk) op s)

/-- A gather of pages completes (R319). -/
def execKgatComplete (op : Nat) (s : State) : Outcome State Fault Refusal := .next (completeCommand (· == .kgat) op s)

/-- A page's bounds are installed (R328). -/
def execKsumInstall (op : Nat) (s : State) : Outcome State Fault Refusal :=
  .next (
    match readyCommand s (op % 2 ^ 63) with
    | none => s
    | some (w, o, c) =>
      if c.op == .ksum && prepared c && c.closing.isNone && decide (c.progress < c.total) then
        match attempt s o.id (fun s => ksumUnit s w o.id c) with
        | .ok (s, c) =>
          let r := atBoundary op s w o.id c
          setCommand r.1 o r.2
        | .error e => holdCommand s w o c e
      else s)

/-- A tightening completes when every page of its range is installed (R330). -/
def execKsumComplete (op : Nat) (s : State) : Outcome State Fault Refusal := .next (completeCommand (· == .ksum) op s)

/-- A command that names a tag completes and its tag is set (R363). -/
def execTagSet (op : Nat) (s : State) : Outcome State Fault Refusal :=
  .next (
    match s.awakeOp? op with
    | none => s
    | some (_, o) => if o.tag.isSome then completeCommand (· != .ssbld) op s else s)

/-! ### Faults (R274) -/

/-- The error of what a command does next, if it has one. -/
def nextError (s : State) (w : Warp) (oid : Nat) (c : Command) : Option EngErr :=
  let errOf {α : Type} (r : Except EngErr α) : Option EngErr := match r with | .error e => some e | .ok _ => none
  if writesAway s oid && atLast c || c.closing.isSome then none
  else if !prepared c then errOf (attempt s oid (fun s => prepare s w c))
  else if c.op == .ksum then
    (if c.progress < c.total then errOf (attempt s oid (fun s => ksumUnit s w oid c)) else none)
  else if atLast c then errOf (attempt s oid (fun s => lastPart s w oid c))
  else errOf (attempt s oid (fun s => doUnit s w oid c))

/-- A command meets an access that cannot be performed and stops before it; the fault is taken at a covering wait. A restart
word that R291 leaves 0 is written as 0. -/
def execEngineFaultStop (op : Nat) (s : State) : Outcome State Fault Refusal :=
  .next (
    match readyCommand s op with
    | none => s
    | some (w, o, c) =>
      let stop (s : State) (zero : Bool) (f : Command → OpFault) : State :=
        let r := settleCommand s w o.id c
        let s := stopWrites r.1 w o.id r.2
        failCommand (putRestart s w o.id r.2 (if zero then 0 else restartWord r.2)) o (f r.2)
      match nextError s w o.id c with
      | some (.fault s1 f zero) => stop (keepReads s s1) zero (fun _ => f)
      | some (.acc s1 e) => (match accAddr e with | some a => stop (keepReads s s1) false (accFault e a) | none => s)
      | none => s)

end Sys2Proof.Machine
end

