-- ==== Sys2Proof/Machine/Spawn.lean ====
section
/-! DEFINITION. Spawned records and the Carafe bins (R241 to R244, R303), and enqueued packets (R245). -/

namespace Sys2Proof.Machine

open Host (Outcome)

/-! ### Bins (R243, R244) -/

/-- The register allocation of a warp that starts with a record (R27). -/
def recordAlloc (l : Launch) : Nat := max l.rec_.regs 16

/-- Registers v0 to v15 of a warp whose lane `i` starts with record `i`. -/
def recordRegs (records : List (List Word)) : List RegForm :=
  (List.range 16).map (fun k => .perLane (Vector.ofFn (fun i : Fin 32 => ((records[i.val]?).map (fun r => r.getD k 0#32)).getD 0#32)))

/-- Form a warp from the records of a bin (R244): it waits for a place on the bin's die (R365). -/
def formWarp (s : State) (l : Launch) (entry die : Nat) (records : List Record) : State :=
  let snap := s.mod.snapshot
  let w := freshWarp s.nextId l.ctx l.id none 0 .formed snap (dieUnder snap die) none (recordAlloc l)
    (recordRegs (records.map Record.words))
    (Vector.ofFn (fun i : Fin 32 =>
      match records[i.val]? with
      | some r => Lane.start (BitVec.ofNat 56 entry) r.origin
      | none => Lane.gone))
  { s with warps := s.warps ++ [w], nextId := s.nextId + 1 }

/-- The key of a bin. -/
def Bin.is (b : Bin) (die launch entry : Nat) : Bool := b.die == die && b.launch == launch && b.entry == entry

/-- A bin that holds 32 records forms its warp and is freed. -/
def fillBin (s : State) (die launch entry : Nat) : State :=
  match s.bins.find? (fun b => b.is die launch entry), s.launch? launch with
  | some b, some l =>
    if b.records.length ≥ 32 then
      { formWarp s l entry die (b.records.take 32) with bins := s.bins.filter (fun b => !b.is die launch entry) }
    else s
  | _, _ => s

/-- A record goes to the bin with its key, or to a free bin (256 to a die); none where neither exists. -/
def toBin (s : State) (die launch entry ctx : Nat) (r : Record) : Option State :=
  if s.bins.any (fun b => b.is die launch entry) then
    some (fillBin { s with bins := updFirst (fun b => b.is die launch entry) (fun b => { b with records := b.records ++ [r] }) s.bins }
      die launch entry)
  else if (s.bins.filter (fun b => b.die == die)).length < 256 then
    let b : Bin := { die := die, ctx := ctx, launch := launch, entry := entry, records := [r], since := s.mod.clock }
    some (fillBin { s with bins := s.bins ++ [b] } die launch entry)
  else none

/-- Records of a context on the spill ring of a die. -/
def onRing (c : Ctx) (die : Nat) : List Spilled := c.spilled.filter (fun x => x.die == die)

/-- A record arrives at a die (R243): a bin, else the context's spill ring; none where the ring is full. The records on a ring
are kept in the context; whether a program sees them in the ring's memory the spec leaves open, and here it does not (DESIGN
CHOICE, log 71). -/
def placeRecord (s : State) (ctx launch entry die : Nat) (r : Record) : Option State :=
  match toBin s die launch entry ctx r with
  | some s => some s
  | none =>
    match s.ctx? ctx with
    | none => none
    | some c =>
      if (onRing c die).length < 2 ^ c.ringLog then
        some (s.updCtx ctx (fun c => { c with spilled := c.spilled ++ [{ die := die, launch := launch, entry := entry, record := r }] }))
      else none

/-- BIN_TIMER_EXPIRY: the timer of a bin, by its place among the die's bins, has reached the spawn timer. -/
def execBinTimerExpiry (die bin : Nat) (s : State) : Outcome State Fault Refusal :=
  .next (
    match (s.bins.filter (fun b => b.die == die))[bin]? with
    | none => s
    | some b =>
      match s.ctx? b.ctx, s.launch? b.launch with
      | some c, some l =>
        if c.live && c.preempt == .running && decide (s.mod.clock ≥ b.since + c.spawnTimer) then
          { formWarp s l b.entry die b.records with bins := s.bins.filter (fun x => !x.is b.die b.launch b.entry) }
        else s
      | _, _ => s)

/-- Remove the first element that satisfies `p`. -/
def dropFirst {α : Type} (p : α → Bool) : List α → List α
  | [] => []
  | x :: xs => if p x then xs else x :: dropFirst p xs

/-- SPILL_RING_MOVE: the first record of a context's ring moves into a bin, if one takes it. -/
def execSpillRingMove (ctx die : Nat) (s : State) : Outcome State Fault Refusal :=
  .next (
    match s.ctx? ctx with
    | none => s
    | some c =>
      match onRing c die with
      | [] => s
      | x :: _ =>
        if c.live && c.preempt == .running then
          match toBin s die x.launch x.entry ctx x.record with
          | some s => s.updCtx ctx (fun c => { c with spilled := dropFirst (fun y => y.die == die) c.spilled })
          | none => s
        else s)

/-! ### `e.spawn` (R242) -/

/-- A node's entry (R303). -/
def nodeEntry (n : Nat) : Nat := nodeBase + 4096 * n

/-- What a record's entry is. -/
inductive EntryKind where
  | shader
  | binner
  | builder
  /-- refused with the cause -/
  | refused (cause : Nat)
  /-- the walk meets a malformed entry -/
  | malformed
  deriving DecidableEq, Repr

/-- Judge a record's entry from its leaf, with no fetch (R242, R303). -/
def entryKind (s : State) (c : Ctx) (entry : Nat) : EntryKind :=
  if inNodes entry then
    if entry = nodeEntry 1 then .binner else if entry = nodeEntry 4 then .builder else .refused 0x1B
  else if entry % 4 != 0 || decide (entry ≥ windowBase) then .refused 0x31
  else
    match walk s c entry with
    | .malformed => .malformed
    | .invalid => .refused 0x31
    | .leaf l => if l.p && l.x && !l.rem && inHbm l.frame && !inCarve l.frame then .shader else .refused 0x31

/-- The entry of a record that has been read. -/
def Part.entry (p : Part) : Nat := p.data % 2 ^ 64

/-- A record refused: the cause, and the further detail after the die, the counter and the run that `args` keeps. -/
def Part.refuse (p : Part) (cause : Nat) (extra : List Nat) : Part := { p with refused := some cause, args := p.args.take 3 ++ extra }

/-- Put a part back; the operation stays open. -/
def putPart (s : State) (oid : Nat) (p : Part) : State :=
  match s.op? oid with
  | none => s
  | some (_, o) => s.setOp { o with parts := updFirst (fun q => q.lane == p.lane) (fun _ => p) o.parts }

/-- The next 16 bytes of a record have been read: `got` counts the loads, `data` holds what they gave. -/
def Part.quarter (p : Part) (v : Nat) : Part :=
  { p with got := p.got + 1, data := p.data + v * 2 ^ (128 * p.got), present := p.got == 3 }

/-- Read the next 16 bytes of a lane's record, or ask for them where they lie at the host or a peer. Where the mapping has since been
taken away they are read where they stood at issue (R169). The four loads of a record are
made in ascending address (DESIGN CHOICE, log 71: R242 gives them no order). -/
def readQuarter (s : State) (w : Warp) (o : Op) (p : Part) : Performed :=
  match s.ctx? w.ctx with
  | none => .held s
  | some c =>
    let va := p.va + 16 * p.got
    let got (s : State) (v : Nat) : Performed :=
      .yes (traceRead s w.ctx w.launch (w.origin p.lane) va 16) (p.quarter v)
    let refused (e : AccErr) : Performed :=
      match e with
      | .trap cause _ detail => .yes s (p.refuse cause detail)
      | .refused _ => .yes s (p.refuse 0x1F [])
      | e => refusal s w p e
    let gone : Bool := match resolve s c w.block .read 0 va 16 with | .error e => mappingGone e | .ok _ => false
    match (if gone then oldRead (asReader s o.id) (p.tgt.plus (16 * p.got)) va 16 else readChunk (asReader s o.id) c w.block 0 va 16) with
    | .ok (v, s) => got (dropBrought s o.id) v
    | .error (.remote va peer addr n) =>
      (match askRemote s c w.id o.id p.lane va peer addr n with
       | .ok s => .held s
       | .error (cause, detail) => .yes s (p.refuse cause detail))
    | .error e => refused e

/-- Read up to `n` more quarters of a lane's record. -/
def readQuarters (w : Warp) (o : Op) : Nat → State → Part → Performed
  | 0, s, p => .yes s p
  | n + 1, s, p =>
    if p.present || p.refused.isSome then .yes s p
    else
      match readQuarter s w o p with
      | .yes s p => readQuarters w o n s p
      | r => r

/-- Place the record of one lane: the state, and whether the next lane's may go on. -/
def placePart (s : State) (w : Warp) (oid : Nat) (p : Part) : State × Bool :=
  match s.ctx? w.ctx with
  | none => (s, false)
  | some c =>
    match entryKind s c p.entry with
    | .malformed => (endWith s w.ctx 0x17 p.entry [], false)
    | .refused cause => (putPart s oid (p.refuse cause []), true)
    | .binner => (s, true)
    | .builder => (s, true)
    | .shader =>
      let r : Record := { words := (List.range 16).map (fun k => BitVec.ofNat 32 (p.data / 2 ^ (32 * k))), origin := w.origin p.lane }
      match placeRecord s w.ctx w.launch p.entry (p.args.headD 0) r with
      | none => (putPart s oid (p.refuse 0x32 []), true)
      | some _ =>
        match countUpdate s w.launch true 1 with
        | .error (.wait _ page) => (requestPage s w.ctx page, false)
        | .error (.walk a) => (endWith s w.ctx 0x17 a [], false)
        | .error (.bad cause a d) => (endWith s w.ctx cause a d, false)
        | .error _ => (s, false)
        | .ok s =>
          match placeRecord s w.ctx w.launch p.entry (p.args.headD 0) r with
          | none => (s, false)
          | some s => (putPart s oid { p with done := true }, true)

/-- Read and place records in ascending lane order; one that waits holds those after it. With `one` a single load is made, and
the record that it completes is placed. -/
def spawnLanes (oid : Nat) (one : Bool) : State → List Nat → State
  | s, [] => s
  | s, l :: ls =>
    match s.op? oid with
    | none => s
    | some (w, o) =>
      match o.parts.find? (fun p => p.lane == l && !p.done && p.refused.isNone) with
      | none => spawnLanes oid one s ls
      | some p =>
        let place (s : State) (p : Part) (stop : Bool) : State :=
          match placePart s w oid p with
          | (s, true) => if stop then s else spawnLanes oid one s ls
          | (s, false) => s
        if p.present then place s p false
        else
          match readQuarters w o (if one then 1 else 4 - p.got) s p with
          | .held s => s
          | .ended s => s
          | .yes s p =>
            let s := putPart s oid p
            if p.present then place s p one else if one then s else spawnLanes oid one s ls

/-- A spawn may go on: it is a release (R242), so everything the warp has issued before is performed. -/
def spawnReady (s : State) (w : Warp) (o : Op) : Bool :=
  o.state == .running && engineRuns s w && orderAt s w o.id true true

/-- Read and place what can be read and placed now, or make one load. -/
def spawnGo (s : State) (oid : Nat) (one : Bool) : State :=
  match s.op? oid with
  | none => s
  | some (w, o) =>
    if o.kind == .spawn && spawnReady s w o then
      let s := match w.core? with | some core => pushLines s core | none => s
      spawnLanes oid one s (lanesOf allLanes)
    else s

/-- Records on pages that are not present hold the run (R242), as a store is held (R171). -/
def absentStop (c : Ctx) (places : List (Nat × Place)) (addr : Nat → Nat) : Option Stop :=
  stopOfLanes (places.filterMap (fun p =>
    match p.2.tgt, p.2.leaf with
    | .remote _ _, _ => none
    | _, some l => if l.p then none else 
      let e := absentErr c l (addr p.1)
      some (p.1, errRank (addr p.1) e, e)
    | _, none => none))

/-- `e.spawn` and `e.spawn.die`: each active lane sends the record its pair names to a die. -/
def spawnIssue (s : State) (i : Info) (p : Nat) (die : Option Nat) : Outcome State Fault Refusal :=
  issue s i (fun x =>
    match checkRegs x.w x.act ([p, p + 1] ++ die.toList) [] with
    | .error e => .error e
    | .ok _ =>
      let addr (l : Nat) : Nat := x.w.pair l p
      let to_ (l : Nat) : Nat :=
        match die with
        | some r => x.w.val l r % 4
        | none => dieOf ((x.w.core?).getD 0)
      match judgeLanes x.s x.c x.w.block .load 0 64 addr x.act with
      | .error e => .error e
      | .ok places =>
        let dead (l : Nat) : Bool := !(enabledCores x.s.mod.snapshot).any (fun k => dieOf k == to_ l)
        match lanesWhere x.act dead with
        | some (who, l) => .error (.trap who 0x35 0 [to_ l])
        | none =>
          match absentStop x.c places addr with
          | some e => .error e
          | none =>
            match holdFull x.w 1 with
            | .error e => .error e
            | .ok _ =>
              let parts := places.map (fun q =>
                { mkPart q.1 (addr q.1) 64 q.2 0 0 with args := [to_ q.1, x.sel.first.toNat, x.run.toNat] })
              .ok (x.issueOp x.wd 1 .spawn parts 0 [] 0#32))

/-- `e.spawn`. -/
def execESpawn (p : Nat) (s : State) : Outcome State Fault Refusal :=
  spawnIssue s (bareInfo (misaligned p 14 1)) p none

/-- `e.spawn.die`. -/
def execESpawnDie (p r : Nat) (s : State) : Outcome State Fault Refusal :=
  spawnIssue s (bareInfo (misaligned p 14 1)) p (some r)

/-- Detail of a refused record (R242, R150): its entry, and what its cause adds. -/
def refusalDetail (p : Part) : List Nat := (if p.present then twoWords p.entry else []) ++ p.args.drop 3

/-- The one fault a spawn reports: the cause of the lowest refused lane. -/
def spawnFault (parts : List Part) : Option OpFault :=
  match parts.find? (fun p => p.refused.isSome) with
  | none => none
  | some p =>
    some { cause := p.refused.getD 0
           lanes := maskOf (fun l => parts.any (fun q => q.lane == l && q.refused == p.refused))
           addr := reportAddr (p.refused.getD 0) p.va, detail := refusalDetail p }

/-- Log the records refused with another cause than the one reported. -/
def logRefusals (s : State) (ctx cause : Nat) : List Part → State
  | [] => s
  | p :: ps =>
    match p.refused with
    | none => logRefusals s ctx cause ps
    | some k =>
      if k = cause then logRefusals s ctx cause ps
      else logRefusals (logEntry s ctx (recordWords k 0 (p.args.getD 1 0) (BitVec.ofNat 32 (p.args.getD 2 0)) 0#32 p.va (refusalDetail p))) ctx cause ps

/-- SPAWN_RETIRE: a spawn goes on, and retires on ST when every record is placed or refused. A record is read by four loads at
any time before that: an operation number with bit 63 set makes one of them alone (log 71). -/
def execSpawnRetire (op : Nat) (s : State) : Outcome State Fault Refusal :=
  let oid := op % 2 ^ 63
  let s := spawnGo s oid (decide (op ≥ 2 ^ 63))
  .next (
    match s.awakeOp? oid with
    | none => s
    | some (w, o) =>
      if o.kind == .spawn && o.state == .running && o.parts.all (fun p => p.done || p.refused.isSome) then
        match spawnFault o.parts with
        | none => closeOp s o .done
        | some f => closeOp (logRefusals s w.ctx f.cause o.parts) o (.failed f)
      else retireOp s oid)

/-! ### `e.enq` (R245) -/

/-- `e.enq`: the image is read at issue; a type of 0 ends the context. -/
def execEEnq (p q : Nat) (s : State) : Outcome State Fault Refusal :=
  electedAfter s (bareInfo (misaligned p 14 1)) p 64 64 (fun x => x.idleCommand 1 none)
    (fun x l => if x.c.queues.any (fun k => k.number == q) then .ok () else .error (.trap (oneLane l) 0x34 0 [q]))
    (fun x l va bytes =>
    if bytes.getD 0 0 = 0 then .error (.endCtx 0x3B va [])
    else
      match holdFull x.w 1 with
      | .error e => .error e
      | .ok _ =>
        let r := addOp x.s x.wd 1 (.enq q bytes none false) [mkPart l 0 0 ⟨.absent, none⟩ 0 0] 0 none .running
        .ok (x.done r.1 r.2))

/-- An access of a queue's parts that `e.enq` makes for its warp: what its refusal comes to. -/
def enqRefused (s : State) (w : Warp) (o : Op) (e : AccErr) : State :=
  match e with
  | .wait _ page => requestPage s w.ctx page
  | .walk a => endWith s w.ctx 0x17 a []
  | .bad cause a d => endWith s w.ctx cause a d
  | .kick a slot => endWith s w.ctx 0x4E a [slot]
  | .trap cause a d => closeOp s o (.failed { cause := cause, lanes := 0#32, addr := reportAddr cause a, detail := d })
  | .refused a => closeOp s o (.failed { cause := 0x1F, lanes := 0#32, addr := a, detail := [] })
  | .io a => closeOp s o (.failed { cause := 0x15, lanes := 0#32, addr := a, detail := [] })
  | .remote a _ _ _ => closeOp s o (.failed { cause := 0x15, lanes := 0#32, addr := a, detail := [] })
  | .refill _ _ => s

/-- The slot of an index in a queue's ring (R152). -/
def slotAddr (q : Queue) (k : Nat) : Nat := q.ring + 64 * (k % q.size)

/-- The lane that elected an operation. -/
def Op.elected (o : Op) : Nat := ((o.parts.head?).map Part.lane).getD 0

/-- The operation fails with the cause that its ports give (R352). -/
def enqLost (s : State) (o : Op) (va : Nat) (r : Nat × List Nat) : State := closeOp s o (.failed (remoteFault r.1 va r.2))

/-- Step 1 of R154: W rises by one at module scope, or where it lies at the host or a peer by a fetch-and-add there: the index
reserved, none while it is awaited. -/
def enqReserve (s : State) (w : Warp) (o : Op) (q : Queue) : Except State (Nat × State) :=
  match s.ctx? w.ctx with
  | none => .error s
  | some c =>
    match resolve s c none .atomic 2 q.wAddr 8 with
    | .ok ⟨.remote peer addr, _⟩ =>
      (match broughtAt (asReader s o.id) peer addr 8 with
       | some v => .ok (v, dropBrought s o.id)
       | none =>
         if s.mod.remotes.any (fun r => r.op == o.id) then .error s
         else
           match submit s c {
               id := 0, ctx := c.number, warp := w.id, launch := w.launch, op := o.id, lane := o.elected, peer := peer
               addr := addr, va := q.wAddr, write := false, fill := 8, kind := 3, bytes := natLe 8 1, port := 0
               sentAt := none } with
           | .ok (s, _) => .error s
           | .error r => .error (enqLost s o q.wAddr r))
    | _ =>
      match readMem s w.ctx none 2 q.wAddr 8 with
      | .error e => .error (enqRefused s w o e)
      | .ok (b, s) =>
        match writeWord64 s w.ctx q.wAddr ((leNat b + 1) % 2 ^ 64) with
        | .error e => .error (enqRefused s w o e)
        | .ok s => .ok (leNat b, s)

/-- Step 2: the read index; none while it is awaited. A register of the I/O die gives a value the spec does not state (log 18). -/
def enqRead (s : State) (w : Warp) (o : Op) (q : Queue) : Except State (Nat × State) :=
  match readMem (asReader s o.id) w.ctx none 0 q.rAddr 8 with
  | .ok (b, s) => .ok (leNat b, dropBrought s o.id)
  | .error (.io _) => .ok (Config.freeValue s.free % 2 ^ 64, { s with free := s.free + 1 })
  | .error (.remote va peer addr n) =>
    (match s.ctx? w.ctx with
     | none => .error s
     | some c =>
       match askRemote s c w.id o.id o.elected va peer addr n with
       | .ok s => .error s
       | .error r => .error (enqLost s o va r))
  | .error e => .error (enqRefused s w o e)

/-- Step 3: bytes of the slot are written, or sent to where they lie. -/
def enqStore (s : State) (w : Warp) (o : Op) (va : Nat) (bytes : List Nat) : Except State State :=
  match writeMem s w.ctx none 1 va bytes with
  | .ok s => .ok s
  | .error (.io _) => .ok s
  | .error (.remote a peer addr _) =>
    (match s.ctx? w.ctx with
     | none => .error s
     | some c =>
       match writeRemote s c w.id o.id o.elected a peer addr bytes with
       | .ok s => .ok s
       | .error r => .error (enqLost s o a r))
  | .error e => .error (enqRefused s w o e)

/-- The header is written, the last store of step 3. -/
def enqHeader (s : State) (w : Warp) (o : Op) (qn k slot : Nat) (image : List Nat) : State :=
  match enqStore s w o slot (image.take 8) with
  | .error s => s
  | .ok s => s.setOp { o with kind := .enq qn (image.take 8) (some k) true }

/-- ENQ_RETIRE: the next step of R154 for an enqueued packet: its index is reserved; once there is room its body and then
its header are written, each awaited where it goes to the host or a peer; its kick is performed and the operation retires.
What is left of the image tells how far it has come. Where the queue has been destroyed the operation retires with no further access:
the spec is silent on it (DESIGN CHOICE, log 54). -/
def execEnqRetire (op : Nat) (s : State) : Outcome State Fault Refusal :=
  .next (
    match s.awakeOp? op with
    | none => s
    | some (w, o) =>
      match o.kind with
      | .enq qn image index written =>
        if o.state != .running then retireOp s op
        else if !(engineRuns s w && orderOk s w o) || writesAway s op then s
        else
          match (s.ctx? w.ctx).bind (fun c => c.queues.find? (fun q => q.number == qn)) with
          | none => closeOp s o .done
          | some q =>
            match index with
            | none =>
              (match enqReserve s w o q with
               | .error s => s
               | .ok (k, s) => s.setOp { o with kind := .enq qn image (some k) false })
            | some k =>
              if written then closeOp (kickQueue s w.ctx qn ((k + 1) % 2 ^ 64)) o .done
              else if image.length ≤ 8 then enqHeader s w o qn k (slotAddr q k) image
              else
                match enqRead s w o q with
                | .error s => s
                | .ok (r, s) =>
                  if k < r + q.size then
                    match enqStore s w o (slotAddr q k + 8) (image.drop 8) with
                    | .error s => s
                    | .ok s =>
                      if writesAway s op then s.setOp { o with kind := .enq qn (image.take 8) (some k) false }
                      else enqHeader s w o qn k (slotAddr q k) image
                  else s
      | _ => s)

end Sys2Proof.Machine
end

