-- ==== Sys2Proof/Machine/Device.lean ====
section
/-! DEFINITION. The accesses the device makes for a context itself, and what one that is not performed comes to (R364). -/

namespace Sys2Proof.Machine

/-- A context runs: it lives and is not stopped by pre-emption (R315). -/
def ctxRuns (s : State) (ctx : Nat) : Bool :=
  match s.ctx? ctx with
  | none => false
  | some c => c.live && c.preempt == .running

/-- A context lives and its state is not saved: what it has under way goes on (R315). -/
def ctxAwake (s : State) (ctx : Nat) : Bool :=
  match s.ctx? ctx with
  | none => false
  | some c => c.live && c.preempt != .saved

/-- Why the device cannot access bytes that reach the fixed windows, or the space around them that no mapping covers (R159, R364). -/
def windowErr (kind va n : Nat) : Option AccErr :=
  if va ≥ 2 ^ 56 ∨ va + n ≤ windowBase then none
  else if va < windowBase ∨ inFixedWindow va then some (.trap 0x14 va [])
  else some (.trap 0x11 va [kind])

/-- The device reads bytes. -/
def devRead (s : State) (ctx va n : Nat) : Except AccErr (List Nat × State) :=
  match windowErr 0 va n with
  | some e => .error e
  | none => readMem s ctx none 0 va n

/-- The device writes bytes; an aligned store of eight to a kick register is a kick (R155, R364). -/
def devWrite (s : State) (ctx va : Nat) (bytes : List Nat) : Except AccErr State :=
  match windowErr 1 va bytes.length with
  | some e => .error e
  | none => deviceStore s ctx va bytes

/-- An access of the device that is not performed: a page is requested and what depends on the access waits; the context
ends; or `fail` says what follows from the cause and the address. A page with REM = 1 counts as beyond reach, and so does a register of
the I/O die that is no kick register, whatever the size of the access (DESIGN CHOICE, log 18); the cause that a caller gives for either,
where it gives one, is WINDOW_RANGE (DESIGN CHOICE, log 55). -/
def onDevice (s : State) (ctx : Nat) (e : AccErr) (fail : Nat → Nat → State) : State :=
  match e with
  | .wait _ page => requestPage s ctx page
  | .refill _ _ => s
  | .walk a => endWith s ctx 0x17 a []
  | .bad cause a d => endWith s ctx cause a d
  | .kick a slot => endWith s ctx 0x4E a [slot]
  | .trap cause a _ => fail cause a
  | .refused a => fail 0x1F a
  | .remote a _ _ _ => fail 0x14 a
  | .io a => fail 0x14 a

/-- A store of a completion word (R364): where it cannot be performed the context ends with PACKET_INVALID. `.ok` holds the
state after the store, `.error` the state in which its owner waits or its context has ended. -/
def storeDone (s : State) (ctx va v : Nat) : Except State State :=
  if va = 0 then .ok s
  else
    match devWrite s ctx va (natLe 8 v) with
    | .ok s => .ok s
    | .error e => .error (onDevice s ctx e (fun _ _ => endWith s ctx 0x3B va []))

end Sys2Proof.Machine
end

