-- ==== Sys2Proof/Machine/Trace.lean ====
section
/-! DEFINITION. The trace records of traced launches (R331, R332, R337). -/

namespace Sys2Proof.Machine

/-- Maximal runs of consecutive numbers of an ascending list: first and count. -/
def runsOf : List Nat → List (Nat × Nat)
  | [] => []
  | x :: xs =>
    match runsOf xs with
    | (a, n) :: rest => if a = x + 1 then (x, n + 1) :: rest else (x, 1) :: (a, n) :: rest
    | [] => [(x, 1)]

/-- A range of a trace record. -/
def rangeWord (r : Nat × Nat) : Nat := r.1 % 2 ^ 44 + (r.2 - 1) % 2 ^ 20 * 2 ^ 44

/-- `n` ranges, the unused ones zero. -/
def rangeBytes (n : Nat) (rs : List (Nat × Nat)) : List Nat :=
  (List.range n).flatMap (fun i => natLe 8 ((rs[i]?.map rangeWord).getD 0))

/-- The 256 bytes of a trace record. -/
def traceBytes (g : Nat) (t : TraceSet) : List Nat :=
  let rs := runsOf t.reads
  let ws := runsOf t.writes
  natLe 4 g ++ natLe 2 (min rs.length 24) ++ [min ws.length 6,
    (if rs.length > 24 then 1 else 0) + (if ws.length > 6 then 2 else 0) + (if t.always then 4 else 0)]
    ++ natLe 8 0 ++ rangeBytes 24 rs ++ rangeBytes 6 ws

/-- Something of a launch may still add to the record of a block: a warp, a record on its way, a pass, a build. -/
def originBusy (s : State) (l : Launch) (b : Nat) : Bool :=
  s.warps.any (fun w => w.launch == l.id && (lanesOf allLanes).any (fun i => (w.lane i).origin == some b)) ||
  s.bins.any (fun k => k.launch == l.id && k.records.any (fun r => r.origin == b)) ||
  s.ctxs.any (fun c => c.spilled.any (fun x => x.launch == l.id && x.record.origin == b)) ||
  s.passes.any (fun p => p.launch == l.id && p.origin == b) ||
  s.builds.any (fun k => k.launch == l.id && k.origin == b)

/-- The blocks a launch keeps a record for: its static blocks, or the one record of a seed. -/
def Launch.origins (l : Launch) : List Nat :=
  match l.kind with
  | .seed => [0]
  | .reseed => [0]
  | _ => l.members

/-- Blocks whose record is due. -/
def recordsDue (s : State) (l : Launch) : List Nat :=
  if l.rec_.trace = 0 || l.unset then []
  else l.origins.filter (fun b => !l.recorded.contains b && (l.members.isEmpty || l.ended.contains b) && !originBusy s l b)

/-- Write the record of a block. -/
def writeRecord (s : State) (l : Launch) (b : Nat) : State :=
  let va := l.rec_.trace + 256 * b
  let fail (s : State) : State := endWith s l.ctx 0x3F va []
  let t := (l.traces.find? (fun t => t.block == b)).getD { block := b, reads := [], writes := [], always := false }
  let tracked := ((s.ctx? l.ctx).bind (fun c => (leafOf s c va).map Leaf.trk)).getD false
  if va % 256 != 0 || tracked then fail s
  else
    match devWrite s l.ctx va (traceBytes l.generation t) with
    | .error e => onDevice s l.ctx e (fun _ _ => fail s)
    | .ok s => s.updLaunch l.id (fun l => { l with recorded := b :: l.recorded })

/-- Write records of blocks. -/
def writeRecords (lid : Nat) : State → List Nat → State
  | s, [] => s
  | s, b :: bs =>
    match s.launch? lid with
    | none => s
    | some l => writeRecords lid (writeRecord s l b) bs

/-- Write every record of a launch that is due. -/
def flushTraces (s : State) (lid : Nat) : State :=
  match s.launch? lid with
  | none => s
  | some l => writeRecords lid s (recordsDue s l)

end Sys2Proof.Machine
end

