-- ==== Sys2Proof/Machine/Build.lean ====
section
/-! DEFINITION. Sample sets and Thicket builds: the header (R292), leaves (R293), `e.ssbld` (R294, R302), build records
(R304). -/

namespace Sys2Proof.Machine

open Host (Outcome)

/-! ### The header (R292) -/

/-- A finite f32 as a multiple of 2^-149. -/
def f32Fix (code : Nat) : Option Int :=
  match Fmt.f32.decode code with
  | .fin n m e => some (if n then -((m * 2 ^ (e + 149).toNat : Nat) : Int) else ((m * 2 ^ (e + 149).toNat : Nat) : Int))
  | _ => none

/-- 1.0 as a multiple of 2^-149. -/
def fixOne : Int := 2 ^ 149

/-- `num / den` rounded to an integer, ties to even. -/
def roundEven (num : Int) (den : Nat) : Int :=
  let r := (roundNat .rne false num.natAbs den).1
  if num < 0 then -(r : Int) else r

/-- A coordinate snapped to 24.8 (R294). -/
def snap (v lo : Int) : Int := roundEven ((v - lo) * 256) (2 ^ 149)

/-- The extent and the tiles of a set. -/
structure Geom where
  x0 : Int
  y0 : Int
  x1 : Int
  y1 : Int
  tile : Nat
  tx : Nat
  ty : Nat
  leaf : Nat
  deriving DecidableEq, Repr

/-- Tiles along an extent. -/
def tileCount (d : Int) (tile : Nat) : Nat := (d.toNat + tile * 2 ^ 149 - 1) / (tile * 2 ^ 149)

/-- The extent, TILE and LEAF of a header; none where they break R292. -/
def geomOf (h : List Nat) : Option Geom :=
  let tile := fieldAt h 24 4
  let leaf := h.getD 28 0
  match f32Fix (fieldAt h 8 4), f32Fix (fieldAt h 12 4), f32Fix (fieldAt h 16 4), f32Fix (fieldAt h 20 4) with
  | some x0, some y0, some x1, some y1 =>
    let good (d : Int) : Bool := decide (0 < d) && decide (d ≤ 2 ^ 23 * fixOne)
    let tx := tileCount (x1 - x0) tile
    let ty := tileCount (y1 - y0) tile
    if good (x1 - x0) && good (y1 - y0) && decide (1 ≤ tile) && decide (tile ≤ 2 ^ 23) && 2 ^ Nat.log2 tile == tile
        && decide (tx * ty ≤ 65536) && decide (4 ≤ leaf) && decide (leaf ≤ 64)
    then some { x0 := x0, y0 := y0, x1 := x1, y1 := y1, tile := tile, tx := tx, ty := ty, leaf := leaf }
    else none
  | _, _, _, _ => none

def setCount (h : List Nat) : Nat := fieldAt h 0 4
def setStatus (h : List Nat) : Nat := h.getD 29 0
def setLeafB (h : List Nat) : Nat := fieldAt h 48 8
def setPermB (h : List Nat) : Nat := fieldAt h 56 8

/-- Base and format of an attachment. -/
def attBase (h : List Nat) (k : Nat) : Nat := fieldAt h (64 + 16 * k) 8
def attFmt (h : List Nat) (k : Nat) : Nat := h.getD (72 + 16 * k) 0

/-- Every field of a header keeps to R292. -/
def headerOk (h : List Nat) : Bool :=
  (geomOf h).isSome && decide (1 ≤ fieldAt h 4 4) && decide (fieldAt h 4 4 ≤ 2 ^ 24) && decide (setCount h ≤ fieldAt h 4 4)
    && decide (setStatus h ≤ 3) && fieldAt h 30 2 == 0 && fieldAt h 40 8 == 0 && setLeafB h % 32 == 0 && setPermB h % 4 == 0
    && (List.range 8).all (fun k => attBase h k % 4 == 0 && decide (attFmt h k ≤ 0xE) && fieldAt h (73 + 16 * k) 7 == 0)
    && fieldAt h 192 64 == 0

/-- A pass of the context that has not ended names the set. -/
def setBound (s : State) (ctx va : Nat) : Bool := s.passes.any (fun p => p.ctx == ctx && p.setAddr == va)

/-- The set can be built now (R294). -/
def buildable (s : State) (ctx va : Nat) (h : List Nat) : Bool := headerOk h && setStatus h != 1 && !setBound s ctx va

/-! ### The build (R293, R294) -/

/-- An accepted sample: snapped coordinates, tile, index. -/
structure Sample where
  x : Nat
  y : Nat
  tile : Nat
  idx : Nat
  deriving DecidableEq, Repr

/-- A sample inside the extent, snapped; none where it is rejected. -/
def Geom.snapPoint (g : Geom) (cx cy : Nat) : Option (Nat × Nat) :=
  match f32Fix cx, f32Fix cy with
  | some x, some y =>
    if g.x0 ≤ x ∧ x < g.x1 ∧ g.y0 ≤ y ∧ y < g.y1 then some ((snap x g.x0).toNat, (snap y g.y0).toNat) else none
  | _, _ => none

/-- The tile of a snapped point. -/
def Geom.tileOf (g : Geom) (x y : Nat) : Nat :=
  min (y / (256 * g.tile)) (g.ty - 1) * g.tx + min (x / (256 * g.tile)) (g.tx - 1)

/-- The order along an axis: its coordinate, the other one, the index. -/
def Sample.before (byX : Bool) (p q : Sample) : Bool :=
  let a (s : Sample) : Nat := if byX then s.x else s.y
  let b (s : Sample) : Nat := if byX then s.y else s.x
  decide (a p < a q) || (a p == a q && (decide (b p < b q) || (b p == b q && decide (p.idx < q.idx))))

def insertSample (byX : Bool) (p : Sample) : List Sample → List Sample
  | [] => [p]
  | q :: qs => if p.before byX q then p :: q :: qs else q :: insertSample byX p qs

def sortSamples (byX : Bool) (l : List Sample) : List Sample := l.foldr (insertSample byX) []

/-- Split(S, axis): leaves in the order they are emitted; `fuel` bounds the depth. -/
def splitSamples (leaf : Nat) : Nat → Bool → List Sample → List (List Sample)
  | 0, _, l => [sortSamples false l]
  | fuel + 1, byX, l =>
    if l.length ≤ leaf then [sortSamples false l]
    else
      let o := sortSamples byX l
      let n := (l.length + 1) / 2
      splitSamples leaf fuel (!byX) (o.take n) ++ splitSamples leaf fuel (!byX) (o.drop n)

/-- The leaves of a set's accepted samples, by tile. -/
def leavesOf (g : Geom) (l : List Sample) : List (List Sample) :=
  (l.foldr (fun p ts => insertAsc p.tile ts) []).flatMap (fun t =>
    let mine := l.filter (fun p => p.tile == t)
    splitSamples g.leaf mine.length true mine)

/-- Least and greatest of a list that is not empty. -/
def leastOf (l : List Nat) : Nat := l.foldl min (l.headD 0)
def greatestOf (l : List Nat) : Nat := l.foldl max (l.headD 0)

/-- A leaf record. -/
def leafRecord (first : Nat) (l : List Sample) : List Nat :=
  natLe 4 (leastOf (l.map Sample.x)) ++ natLe 4 (leastOf (l.map Sample.y)) ++ natLe 4 (greatestOf (l.map Sample.x))
    ++ natLe 4 (greatestOf (l.map Sample.y)) ++ natLe 4 first ++ natLe 2 l.length ++ natLe 2 ((l.head?.map Sample.tile).getD 0)
    ++ natLe 8 0

/-- The leaf records, numbered from `i`, their first entries counted from `first`: addresses and bytes. -/
def leafWrites (base : Nat) : Nat → Nat → List (List Sample) → List Elem
  | _, _, [] => []
  | i, first, l :: ls => (base + 32 * i, leafRecord first l) :: leafWrites base (i + 1) (first + l.length) ls

/-- All that a finished build writes, in order, STATUS last. -/
def buildWrites (set : Nat) (h : List Nat) (g : Geom) (l : List Sample) : List Elem :=
  let ls := leavesOf g l
  leafWrites (setLeafB h) 0 0 ls
    ++ (ls.flatten.zipIdx).map (fun p => (setPermB h + 4 * p.2, natLe 4 p.1.idx))
    ++ [(set + 32, natLe 4 (setCount h - l.length) ++ natLe 4 ls.length), (set + 29, [2])]

/-- Whose remote accesses a build's are: its operation's, or those under its own number. -/
def Build.user (b : Build) : Nat := b.op.getD b.id

/-- The warp of a build's operation; 0 for a build record's. -/
def Build.warp (s : State) (b : Build) : Nat := ((b.op.bind s.op?).map (fun x => x.1.id)).getD 0

/-- A build reads bytes: operands of an engine (R274), in its origin's trace. A register of the I/O die gives a value the spec
does not state (log 18). -/
def buildRead (s : State) (b : Build) (va n : Nat) : Except AccErr (List Nat × State) :=
  if inTiles va then .error (.trap 0x1D va [(va - tileBase) / 65536])
  else
    match readMem s b.ctx b.block 3 va n with
    | .error (.io _) => .ok (natLe n (Config.freeValue s.free), { s with free := s.free + 1 })
    | .error e => .error e
    | .ok (x, s) => .ok (x, traceRead s b.ctx b.launch b.origin va n)

/-- A build writes bytes: to a remote page as an RMA write, to a register of the I/O die with no effect that the spec states. -/
def buildWrite (s : State) (b : Build) (va : Nat) (bytes : List Nat) : Except AccErr State :=
  if inTiles va then .error (.trap 0x1D va [(va - tileBase) / 65536])
  else
    let traced (s : State) : State := traceWrite s b.ctx b.launch b.origin va bytes.length
    match writeMem s b.ctx b.block 3 va bytes with
    | .ok s => .ok (traced s)
    | .error (.io _) => .ok (traced s)
    | .error (.remote a peer addr n) =>
      (match s.ctx? b.ctx with
       | none => .error (.remote a peer addr n)
       | some c =>
         match writeRemote s c (b.warp s) b.user 0 a peer addr bytes with
         | .ok s => .ok (traced s)
         | .error (cause, detail) => .error (.trap cause (reportAddr cause a) detail))
    | .error e => .error e

/-- Read samples of a set, each once; a read that cannot be performed comes with the state after the reads before it. -/
def readSamples (b : Build) (g : Geom) : State → List Nat → Except (State × AccErr) (List Sample × State)
  | s, [] => .ok ([], s)
  | s, i :: is =>
    match buildRead s b (b.setAddr + 256 + 16 * i) 8 with
    | .error e => .error (s, e)
    | .ok (x, s) =>
      match readSamples b g s is with
      | .error e => .error e
      | .ok (l, s) =>
        match g.snapPoint (fieldAt x 0 4) (fieldAt x 4 4) with
        | none => .ok (l, s)
        | some (px, py) => .ok ({ x := px, y := py, tile := g.tileOf px py, idx := i } :: l, s)

/-- Write in order up to the first write that is not performed. -/
def writeUpTo (b : Build) : State → List Elem → State × Option AccErr
  | s, [] => (s, none)
  | s, e :: es =>
    match buildWrite s b e.1 e.2 with
    | .error x => (s, some x)
    | .ok s => writeUpTo b s es

/-- A build from its start to all its writes but that of STATUS: the state, and the access that was not performed. -/
def runBuild (s : State) (b : Build) : State × Option AccErr :=
  match geomOf b.header with
  | none => (s, some (.trap 0x11 b.setAddr []))
  | some g =>
    match readSamples b g s (List.range (setCount b.header)) with
    | .error (s1, e) => (keepReads s s1, some e)
    | .ok (l, s) => writeUpTo b s (buildWrites b.setAddr b.header g l).dropLast

/-- A build has ended. -/
def dropBuild (s : State) (b : Build) : State :=
  flushTraces { s with builds := s.builds.filter (fun x => x.id != b.id) } b.launch

/-- MX_FAULT of a build: it has no progress to restart from. -/
def buildFault (a : Nat) : OpFault := { cause := 0x20, lanes := 0#32, addr := a, detail := [0] }

/-- What is left of a build is kept: the value of STATUS and the end, or the end alone; why it failed, if it did; what DONE gets. -/
def keepBuild (s : State) (b : Build) (left : List Nat) (f : Option OpFault) (v : Nat) : State :=
  { s with builds := updFirst (fun x => x.id == b.id) (fun x => { x with header := left, fault := f, doneVal := v }) s.builds }

/-- Store the completion word of a build record; while it waits the build is kept, its writes done. -/
def closeRecord (s : State) (b : Build) (v : Nat) : State :=
  match storeDone s b.ctx b.done v with
  | .ok s => dropBuild s b
  | .error s => keepBuild s b [] none v

/-- A build ends, once its writes to remote pages are answered: its command retires or reports the fault; for a record the fault is
logged and DONE gets its word (R304). -/
def buildEnd (s : State) (b : Build) (f : Option OpFault) : State :=
  if writesAway s b.user then keepBuild s b [] f b.doneVal
  else
    match b.op, f with
    | some oid, _ =>
      (match s.op? oid with
       | some (_, o) => closeOp (dropBuild s b) o ((f.map OpState.failed).getD .done)
       | none => dropBuild s b)
    | none, none => closeRecord s b b.doneVal
    | none, some f => closeRecord (logFault s b.ctx 0 0#32 f) b (2 ^ 63 + f.cause)

/-- A build that fails writes STATUS = 3 and ends; where the page of STATUS is not present only that waits, and the samples are
not read again (R302). -/
def buildFailed (s : State) (b : Build) (f : OpFault) : State :=
  match buildWrite s b (b.setAddr + 29) [3] with
  | .ok s => buildEnd s b (some f)
  | .error (.wait _ page) => requestPage (keepBuild s b [3] (some f) b.doneVal) b.ctx page
  | .error (.refill _ _) => keepBuild s b [3] (some f) b.doneVal
  | .error e => onDevice s b.ctx e (fun _ _ => buildEnd s b (some f))

/-- A build loses a remote access that was on its way; one that has failed keeps its first fault. -/
def buildLost (s : State) (b : Build) (f : OpFault) : State :=
  if b.fault.isSome then s else buildFailed s b f

/-- The fault that an access which cannot be performed gives a build: a page or window that cannot be resolved is MX_FAULT
(R274); a remote access keeps its own cause (R352), and so do a line that cannot be pulled and a frame that is lacking (R173,
R175). -/
def buildRefused (cause a : Nat) (detail : List Nat) : OpFault :=
  if 0x40 ≤ cause ∧ cause ≤ 0x4D then remoteFault cause a detail
  else if cause = 0x19 ∨ cause = 0x1A then { cause := cause, lanes := 0#32, addr := a, detail := [] }
  else buildFault a

/-- A build whose access was not performed: it waits, asks for the bytes of a remote page, or fails. `s0` is the state in which
nothing of it was done, `s1` the one with the writes before that access. -/
def buildHeld (s0 s1 : State) (b : Build) (e : AccErr) : State :=
  match e with
  | .wait _ page => requestPage s0 b.ctx page
  | .refill _ _ => s0
  | .remote va peer addr n =>
    (match s0.ctx? b.ctx with
     | none => s0
     | some c =>
       match askRemote s0 c (b.warp s0) b.user 0 va peer addr n with
       | .ok s => s
       | .error (cause, detail) => buildFailed s1 b (buildRefused cause va detail))
  | .trap cause a detail => buildFailed s1 b (buildRefused cause a detail)
  | .refused a => buildFailed s1 b (buildFault a)
  | e => onDevice s1 b.ctx e (fun _ _ => s1)

/-- STATUS = 2 is written, the last write of a build. -/
def buildStatus (s : State) (b : Build) : State :=
  match buildWrite s b (b.setAddr + 29) [2] with
  | .ok s => buildEnd s b none
  | .error e => buildHeld (keepBuild s b [2] none b.doneVal) s b e

/-- The build may go on: its context runs, and a command's warp is on its core. -/
def buildRuns (s : State) (b : Build) : Bool :=
  match b.op with
  | none => ctxRuns s b.ctx
  | some oid =>
    match s.op? oid with
    | none => ctxRuns s b.ctx
    | some (w, o) => engineRuns s w && orderOk s w o

/-- BUILD_COMPLETE: a build runs to its end. Where a page is not present it waits, with nothing written; where its writes go
to the host or a peer, STATUS waits for their answers. -/
def execBuildComplete (build : Nat) (s : State) : Outcome State Fault Refusal :=
  .next (
    match s.build? build with
    | none => s
    | some b =>
      if !buildRuns s b || writesAway s b.user then s
      else
        match b.header, b.fault with
        | [], f => buildEnd s b f
        | _, some f => buildFailed s b f
        | [_], none => buildStatus s b
        | _, none =>
          (match runBuild (asReader s b.user) b with
           | (s1, none) =>
             let s1 := dropBrought s1 b.user
             if writesAway s1 b.user then keepBuild s1 b [2] none b.doneVal else buildStatus s1 b
           | (s1, some e) => buildHeld s (dropBrought s1 b.user) b e))

/-! ### `e.ssbld` -/

/-- `e.ssbld` (R294, R302): the header is read and checked, STATUS becomes 1, the build begins. -/
def execESsbld (p t : Nat) (s : State) : Outcome State Fault Refusal :=
  elected s (bareInfo (misaligned p 14 1)) p 256 64 (fun x => x.idleCommand 2 (some t)) (fun x l va bytes =>
    if !buildable x.s x.w.ctx va bytes then .error (.trap (oneLane l) 0x2B va [])
    else
      match holdFull x.w 2 with
      | .error e => .error e
      | .ok _ =>
        match writeMem x.s x.w.ctx x.w.block 3 (va + 29) [1] with
        | .error e => .error (stopOf (oneLane l) e)
        | .ok s =>
          let s := traceWrite s x.w.ctx x.w.launch (x.w.origin l) (va + 29) 1
          let r := addOp s (syncWaits s x.wd) 2 (.engine { mkCommand x .ssbld l va [] [] 0 with progress := 0 }) [] x.scope
            (some t) .running
          let b : Build := {
            id := r.1.nextId, ctx := x.w.ctx, launch := x.w.launch, origin := x.w.origin l, setAddr := va, header := bytes
            op := some s.nextId, block := x.w.block, done := 0, doneVal := 0, fault := none }
          let s := { r.1 with builds := r.1.builds ++ [b], nextId := r.1.nextId + 1 }
          .ok (x.done (clearTag s x.w (some t)) r.2))

/-! ### Build records (R303, R304) -/

/-- The field of a record that has been read. -/
def Part.field (p : Part) (at_ n : Nat) : Nat := p.data / 256 ^ at_ % 256 ^ n

/-- The part of a lane that waits for a fixed-function node of a kind, once the records of the lanes before it have been
placed. -/
def nodePart (s : State) (op lane : Nat) (kind : EntryKind) : Option (Warp × Part) :=
  match s.awakeOp? op with
  | none => none
  | some (w, o) =>
    if o.kind == .spawn && spawnReady s w o then
      match o.parts.find? (fun p => p.lane == lane && p.present && !p.done && p.refused.isNone), s.ctx? w.ctx with
      | some p, some c =>
        if entryKind s c p.entry == kind &&
            o.parts.all (fun q => q.done || q.refused.isSome || decide (q.lane ≥ lane)) then some (w, p) else none
      | _, _ => none
    else none

/-- BUILD_RECORD: the builder accepts a record and begins its build, or refuses it. -/
def execBuildRecord (op lane : Nat) (s : State) : Outcome State Fault Refusal :=
  let s := spawnGo s op false
  .next (
    match nodePart s op lane .builder with
    | none => s
    | some (w, p) =>
      let set := p.field 8 8
      let refuse (s : State) : State := putPart s op (p.refuse 0x2B (twoWords set))
      if p.field 32 32 != 0 || decide (p.field 24 8 ≥ 2 ^ 63) || set % 64 != 0 || p.field 16 8 % 8 != 0 then refuse s
      else
        match devRead s w.ctx set 256 with
        | .error e => onDevice s w.ctx e (fun _ _ => refuse s)
        | .ok (h, s1) =>
          if !buildable s1 w.ctx set h then refuse s1
          else
            match devWrite s1 w.ctx (set + 29) [1] with
            | .error e => onDevice s w.ctx e (fun _ _ => refuse s)
            | .ok s2 =>
              let org := w.origin lane
              let s3 := traceWrite (traceRead s2 w.ctx w.launch org set 256) w.ctx w.launch org (set + 29) 1
              let b : Build := {
                id := s3.nextId, ctx := w.ctx, launch := w.launch, origin := org, setAddr := set, header := h
                op := none, block := none, done := p.field 16 8, doneVal := p.field 24 8, fault := none }
              putPart { s3 with builds := s3.builds ++ [b], nextId := s3.nextId + 1 } op { p with done := true })

end Sys2Proof.Machine
end

