-- ==== Sys2Proof/Machine/Cross.lean ====
section
/-! DEFINITION. The cross-lane functions of major 0x0E (R126 to R128) and relative register access, major 0x0F (R129,
R130). -/

namespace Sys2Proof.Machine

/-- A cross-lane function: registers read and written in every active lane, and from the active lanes in ascending order
the values written and the flags of each (R126). -/
def crossOp (s : State) (i : Info) (srcs dsts : List Nat) (f : Warp → List Nat → Nat → List Nat × Flags) :
    Host.Outcome State Fault Refusal :=
  issue s i (fun x =>
    match checkRegs x.w x.act srcs dsts with
    | .error e => .error e
    | .ok _ =>
      let act := lanesOf x.act
      let w := if x.act = 0#32 then x.wd else x.writeLanes x.wd (fun l => (f x.w act l).1) 0 dsts
      .ok (x.done x.s (w.orFlags x.act (fun l => (f x.w act l).2))))



/-- The value of `a` taken from lane `j`, or the reading lane's own where `j` is not active (R126). -/
def fromLane (w : Warp) (act : List Nat) (a l : Nat) (j : Option Nat) : Nat :=
  match j with
  | some k => if act.contains k then w.val k a else w.val l a
  | none => w.val l a

/-- `v.shfl.idx` (R126). -/
def execVShflIdx (d a b : Nat) (s : State) : Host.Outcome State Fault Refusal :=
  crossOp s (Info.plain 1) [a, b] [d] (fun w act l => ([fromLane w act a l (some (w.val l b % 32))], 0))

/-- `v.shfl.up` (R126). -/
def execVShflUp (d a b : Nat) (s : State) : Host.Outcome State Fault Refusal :=
  crossOp s (Info.plain 1) [a, b] [d] (fun w act l =>
    ([fromLane w act a l (if w.val l b < 32 ∧ w.val l b ≤ l then some (l - w.val l b) else none)], 0))

/-- `v.shfl.down` (R126). -/
def execVShflDown (d a b : Nat) (s : State) : Host.Outcome State Fault Refusal :=
  crossOp s (Info.plain 1) [a, b] [d] (fun w act l =>
    ([fromLane w act a l (if w.val l b < 32 ∧ l + w.val l b ≤ 31 then some (l + w.val l b) else none)], 0))

/-- `v.shfl.xor` (R126). -/
def execVShflXor (d a b : Nat) (s : State) : Host.Outcome State Fault Refusal :=
  crossOp s (Info.plain 1) [a, b] [d] (fun w act l => ([fromLane w act a l (some (l ^^^ (w.val l b % 32)))], 0))

/-- `v.bcast` (R126): the lowest active lane names the source, and stands in for one that is not active. -/
def execVBcast (d a b : Nat) (s : State) : Host.Outcome State Fault Refusal :=
  crossOp s (Info.plain 1) [a, b] [d] (fun w act _ =>
    let f := (act.head?).getD 0
    ([fromLane w act a f (some (w.val f b % 32))], 0))

/-- The mask of the active lanes that satisfy `p`. -/
def maskWhere (act : List Nat) (p : Nat → Bool) : Nat := act.foldl (fun n l => if p l then n + 2 ^ l else n) 0

/-- `v.vote.ballot` (R126). -/
def execVVoteBallot (d a : Nat) (s : State) : Host.Outcome State Fault Refusal :=
  crossOp s (Info.plain 1) [a] [d] (fun w act _ => ([maskWhere act (fun k => w.val k a != 0)], 0))

/-- `v.match` (R126). -/
def execVMatch (d a : Nat) (s : State) : Host.Outcome State Fault Refusal :=
  crossOp s (Info.plain 1) [a] [d] (fun w act l => ([maskWhere act (fun k => w.val k a == w.val l a)], 0))

/-! ### Reductions and scans (R127) -/

/-- The checks of fn 6 to 10: type codes 3 to 127 are reserved, and the mask names every bit of the field (DEDUCED, log 21). -/
def typedInfo (t : Nat) : Info := { Info.plain 1 with reserved := if t ≥ 3 then 127 else 0 }

/-- Adjacent values of a level added pairwise. -/
def addPairs : List Nat → List Nat × Flags
  | x :: y :: rest =>
    let r := fpAdd .f32 .rne x y
    let (zs, fl) := addPairs rest
    (r.1 :: zs, r.2 ||| fl)
  | xs => (xs, 0)

/-- The balanced tree over 32 slots: five levels. -/
def reduceTree : Nat → List Nat → Nat × Flags
  | 0, xs => ((xs.head?).getD 0, 0)
  | n + 1, xs =>
    let (ys, fl) := addPairs xs
    let (z, gl) := reduceTree n ys
    (z, fl ||| gl)

/-- `redux.add` over the active lanes; a NaN node is canonical, and every node is rounded RNE. -/
def reduxAdd (w : Warp) (act : List Nat) (a t : Nat) : Nat × Flags :=
  if t = 2 then reduceTree 5 ((List.range 32).map (fun k => if act.contains k then w.val k a else 0x80000000))
  else ((act.foldl (fun n k => n + w.val k a) 0) % 2 ^ 32, 0)

/-- A fold of the active lanes' values from the lowest lane's. -/
def foldActive (f : Nat → Nat → Nat × Flags) (w : Warp) (act : List Nat) (a : Nat) : Nat × Flags :=
  match act with
  | [] => (0, 0)
  | l :: ls => ls.foldl (fun r k => let q := f r.1 (w.val k a); (q.1, r.2 ||| q.2)) (w.val l a, 0)

/-- The f32 extreme of a set: R113 over all of it, NV for any signalling NaN, canonical where all are NaN. -/
def fpExtreme (f : Nat → Nat → Nat × Flags) (w : Warp) (act : List Nat) (a : Nat) : Nat × Flags :=
  let r := foldActive f w act a
  let nan := (Fmt.f32.decode r.1).isNan
  (if nan then Fmt.f32.canonical else r.1, r.2 ||| nvIf (act.any (fun k => (Fmt.f32.decode (w.val k a)).isSignalling)))

/-- The least (`lo`) or greatest value under a type code. -/
def reduxExtreme (lo : Bool) (w : Warp) (act : List Nat) (a t : Nat) : Nat × Flags :=
  if t = 2 then fpExtreme (if lo then fpMin .f32 else fpMax .f32) w act a
  else
    let v (n : Nat) : Int := if t = 0 then signed 32 n else n
    foldActive (fun x y => (if (if lo then v y < v x else v y > v x) then y else x, 0)) w act a

/-- `v.redux.add` (R127). -/
def execVReduxAdd (d a t : Nat) (s : State) : Host.Outcome State Fault Refusal :=
  crossOp s (typedInfo t) [a] [d] (fun w act _ => ([(reduxAdd w act a t).1], (reduxAdd w act a t).2))

/-- `v.redux.min` (R127). -/
def execVReduxMin (d a t : Nat) (s : State) : Host.Outcome State Fault Refusal :=
  crossOp s (typedInfo t) [a] [d] (fun w act _ => ([(reduxExtreme true w act a t).1], (reduxExtreme true w act a t).2))

/-- `v.redux.max` (R127). -/
def execVReduxMax (d a t : Nat) (s : State) : Host.Outcome State Fault Refusal :=
  crossOp s (typedInfo t) [a] [d] (fun w act _ => ([(reduxExtreme false w act a t).1], (reduxExtreme false w act a t).2))

/-- The inclusive value at the end of a list of lanes, and the flags of the additions that formed it (R127). -/
def scanIncl (w : Warp) (lanes : List Nat) (a t : Nat) : Nat × Flags :=
  if t = 2 then
    match lanes with
    | [] => (0, 0)
    | l :: ls =>
      let v := Fmt.f32.decode (w.val l a)
      let first := if v.isNan then (Fmt.f32.canonical, nvIf v.isSignalling) else (w.val l a, 0)
      ls.foldl (fun r k => let q := fpAdd .f32 .rne r.1 (w.val k a); (q.1, r.2 ||| q.2)) first
  else ((lanes.foldl (fun n k => n + w.val k a) 0) % 2 ^ 32, 0)

/-- `v.scan.incl` (R127). -/
def execVScanIncl (d a t : Nat) (s : State) : Host.Outcome State Fault Refusal :=
  crossOp s (typedInfo t) [a] [d] (fun w act l =>
    let r := scanIncl w (act.filter (fun k => decide (k ≤ l))) a t
    ([r.1], r.2))

/-- `v.scan.excl` (R127). -/
def execVScanExcl (d a t : Nat) (s : State) : Host.Outcome State Fault Refusal :=
  crossOp s (typedInfo t) [a] [d] (fun w act l =>
    let r := scanIncl w (act.filter (fun k => decide (k < l))) a t
    ([r.1], r.2))

/-- `v.isect` (R128). -/
def execVIsect (d a b : Nat) (s : State) : Host.Outcome State Fault Refusal :=
  crossOp s { Info.plain 1 with reserved := misaligned d 14 1 } [a, b] [d, d + 1] (fun w act l =>
    let la := act.map (fun k => w.val k a)
    let lb := act.map (fun k => w.val k b)
    let at_ := lb.findIdx (fun v => v == w.val l a)
    let advA := (la.filter (fun v => decide (v ≤ (lb.getLast?).getD 0))).length
    let advB := (lb.filter (fun v => decide (v ≤ (la.getLast?).getD 0))).length
    ([if at_ < lb.length then 0x80000000 + at_ else 0, advB * 2 ^ 16 + advA], 0))

/-! ### Relative register access (R129, R130) -/

/-- The registers of a lane whose index register is `i`: the range check on the fixed ones and on the one the index
forms, the latter only where the index is not pending. Where several are out of range the detail is the fixed one's first
(DEDUCED, log 72). -/
def relRange (w : Warp) (m : Mask) (i fixed k : Nat) : Except Stop Unit :=
  let n (l : Nat) : Nat := w.val l i + k
  let fixedBad := decide (i ≥ w.alloc) || decide (fixed ≥ w.alloc)
  match lanesWhere m (fun l => fixedBad || (!w.isPending l i && decide (n l ≥ w.alloc))) with
  | none => .ok ()
  | some (who, l) =>
    .error (.trap who 0x04 0
      (if i ≥ w.alloc then [i, 0, w.alloc] else if fixed ≥ w.alloc then [fixed, 0, w.alloc] else [w.val l i, k, w.alloc]))

/-- The register an index forms, none while the index is pending. -/
def relReg (w : Warp) (i k l : Nat) : List Nat := if w.isPending l i then [] else [w.val l i + k]

/-- The checks of relative access past the range of R129, then the reading of the sources. -/
def checkRel (w : Warp) (m : Mask) (srcs dsts : Nat → List Nat) : Except Stop Unit :=
  match checkPending w m (fun l => srcs l ++ dsts l) (fun _ => []) with
  | .error e => .error e
  | .ok _ => checkGood w m srcs

/-- `s.movx` (R129, R130). A register out of range is `lead`'s alone (DEDUCED, log 72). -/
def execSMovx (d i k : Nat) (s : State) : Host.Outcome State Fault Refusal :=
  issue s (Info.plain 0) (fun x =>
    match relRange x.w (oneLane x.lead) i d k with
    | .error e => .error e
    | .ok _ =>
      match checkRel x.w x.everyone (fun l => if l = x.lead then i :: relReg x.w i k l else []) (fun _ => [d]) with
      | .error e => .error e
      | .ok _ => .ok (x.done x.s (x.writeUniform x.wd [d] [x.w.val x.lead (x.w.val x.lead i + k)])))

/-- `v.movx` (R129). -/
def execVMovx (d i k : Nat) (s : State) : Host.Outcome State Fault Refusal :=
  issue s (Info.plain 1) (fun x =>
    match relRange x.w x.act i d k with
    | .error e => .error e
    | .ok _ =>
      match checkRel x.w x.act (fun l => i :: relReg x.w i k l) (fun _ => [d]) with
      | .error e => .error e
      | .ok _ =>
        .ok (x.done x.s (if x.act = 0#32 then x.wd
          else x.writeLanes x.wd (fun l => [x.w.val l (x.w.val l i + k)]) 0 [d])))

/-- `s.movxw` (R130): the index and the value of `lead`, written to every lane that has not exited. A register out of range is `lead`'s
alone (DEDUCED, log 72). -/
def execSMovxw (src i k : Nat) (s : State) : Host.Outcome State Fault Refusal :=
  issue s (Info.plain 0) (fun x =>
    match relRange x.w (oneLane x.lead) i src k with
    | .error e => .error e
    | .ok _ =>
      match checkRel x.w x.everyone (fun l => if l = x.lead then [i, src] else []) (fun _ => relReg x.w i k x.lead) with
      | .error e => .error e
      | .ok _ => .ok (x.done x.s (x.writeUniform x.wd [x.w.val x.lead i + k] [x.w.val x.lead src])))

/-- Each lane of a list writes the register its own index forms (R130). -/
def Cx.scatter (x : Cx) (src i k : Nat) (w : Warp) : List Nat → Warp
  | [] => w
  | l :: ls =>
    let n := x.w.val l i + k
    Cx.scatter x src i k (x.write w (oneLane l) n (laneForm w n (oneLane l) (fun _ => x.w.val l src))) ls

/-- `v.movxw` (R129, R130). -/
def execVMovxw (src i k : Nat) (s : State) : Host.Outcome State Fault Refusal :=
  issue s (Info.plain 1) (fun x =>
    match relRange x.w x.act i src k with
    | .error e => .error e
    | .ok _ =>
      match checkRel x.w x.act (fun _ => [i, src]) (fun l => relReg x.w i k l) with
      | .error e => .error e
      | .ok _ => .ok (x.done x.s (x.scatter src i k x.wd (lanesOf x.act))))

end Sys2Proof.Machine
end

