-- ==== Sys2Proof/Machine/Raster.lean ====
section
/-! DEFINITION. Passes: `e.bind` (R295), the binner (R296), leaves, coverage and pixel warps (R297, R298, R305 to R310),
`e.emit` (R299), the blender (R300, R311, R312), the end of a pass (R301, R314, R366). -/

namespace Sys2Proof.Machine

open Host (Outcome)

/-! ### Closing a pass (R305, R307) -/

/-- A failure of a pass (R366): an error-log entry, and its cause where it is the first. `kind` is the access kind that PAGE_INVALID
reports (R150). -/
def failPass (s : State) (pid kind cause addr : Nat) : State :=
  match s.pass? pid with
  | none => s
  | some p =>
    (logFault s p.ctx 0 0#32 { cause := cause, lanes := 0#32, addr := addr, detail := if cause = 0x11 then [kind] else [] }).updPass pid
      (fun p => { p with failed := some (p.failed.getD cause) })

/-- The fields a pass copies from a header. -/
def copyOf (h : List Nat) (att : Nat) : SetCopy where
  count := setCount h
  xmin := fieldAt h 8 4
  ymin := fieldAt h 12 4
  xmax := fieldAt h 16 4
  ymax := fieldAt h 20 4
  tile := fieldAt h 24 4
  leaf := h.getD 28 0
  reject := fieldAt h 32 4
  nleaf := fieldAt h 36 4
  leafb := setLeafB h
  permb := setPermB h
  attBase := attBase h att
  attFmt := attFmt h att

/-- The geometry of a copy. -/
def SetCopy.geom (k : SetCopy) : Option Geom :=
  geomOf (natLe 8 0 ++ natLe 4 k.xmin ++ natLe 4 k.ymin ++ natLe 4 k.xmax ++ natLe 4 k.ymax ++ natLe 4 k.tile ++ [k.leaf])

/-- The pass reads its header, once: leaves 0 to NLEAF − 1 wait to be processed. A header that cannot be read or breaks R292
leaves none. -/
def copyHeader (s : State) (pid : Nat) : State :=
  match s.pass? pid with
  | none => s
  | some p =>
    let none_ (s : State) : State :=
      (failPass s pid 0 0x2B p.setAddr).updPass pid (fun p => { p with copy := some (copyOf [] p.att), leaves := [] })
    match devRead s p.ctx p.setAddr 256 with
    | .error e => onDevice s p.ctx e (fun _ _ => none_ s)
    | .ok (h, s) =>
      match geomOf h with
      | none => none_ s
      | some _ =>
        s.updPass pid (fun p => { p with copy := some (copyOf h p.att), leaves := List.range (copyOf h p.att).nleaf })

/-- Dies with an enabled core, ascending. -/
def enabledDies (snap : BitVec 256) : List Nat := (List.range 4).filter (fun d => (enabledCores snap).any (fun k => dieOf k == d))

/-- A pass closes: its dies are fixed, its header is copied. -/
def closePass (s : State) (pid : Nat) : State :=
  copyHeader (s.updPass pid (fun p => { p with open_ := false, dies := enabledDies s.mod.snapshot })) pid

/-- A closed pass with its copy, where its context is awake; the copy is tried again where it still waits for its page. -/
def closedPass (s : State) (pid : Nat) : Except State (Pass × SetCopy) :=
  match s.pass? pid with
  | none => .error s
  | some p =>
    if p.open_ || !ctxAwake s p.ctx then .error s
    else
      match p.copy with
      | none => .error (copyHeader s pid)
      | some k => .ok (p, k)

/-! ### `e.bind` (R295) -/

/-- Reserved bits of FLAGS. -/
def bindFlags (bytes : List Nat) : List Nat :=
  limit (decide (bytes.getD 20 0 < 2)) 20 ++ resv bytes 21 3

/-- The pass of a slot. -/
def slotPass (s : State) (ctx k : Nat) : Option Pass := s.passes.find? (fun p => p.ctx == ctx && p.slot == k)

/-- A header read as a parameter block is read under step 3 of R272. A SET that is not a multiple of 64 is read where it stands:
R295 names no check of it (DESIGN CHOICE, log 55). -/
def readHeader (s : State) (w : Warp) (l set : Nat) : Except Stop (List Nat × State) :=
  match holdRead s w l set 256 true with
  | .error e => .error e
  | .ok _ =>
    match readMem s w.ctx w.block 3 set 256 with
    | .error e => .error (paramStop (oneLane l) set e)
    | .ok (h, s) => .ok (h, traceRead s w.ctx w.launch (w.origin l) set 256)

/-- `e.bind`. -/
def execEBind (p k : Nat) (s : State) : Outcome State Fault Refusal :=
  elected s (bareInfo (misaligned p 14 1)) p 64 64 (fun x => .ok (x.done x.s x.wd)) (fun x l va bytes =>
    let set := fieldAt bytes 0 8
    if bitAt (bytes.getD 20 0) 0 then
      match paramCheck l va (resv bytes 0 20 ++ bindFlags bytes ++ resv bytes 24 40) with
      | .error e => .error e
      | .ok _ =>
        match slotPass x.s x.w.ctx k with
        | none => .error (.trap (oneLane l) 0x2C 0 [])
        | some q =>
          if q.open_ then
            let s := closePass x.s q.id
            .ok (x.done s (syncWaits s x.wd))
          else .error (.trap (oneLane l) 0x2C 0 [])
    else
      match paramCheck l va (limit (fieldAt bytes 8 8 % 4 == 0 && bytes.getD 15 0 == 0) 8 ++ limit (decide (bytes.getD 16 0 ≤ 7)) 16
          ++ limit (decide (bytes.getD 17 0 ≤ 3)) 17 ++ resv bytes 18 2 ++ bindFlags bytes
          ++ limit (fieldAt bytes 24 8 % 8 == 0) 24 ++ resv bytes 40 24) with
      | .error e => .error e
      | .ok _ =>
        match readHeader x.s x.w l set with
        | .error e => .error e
        | .ok (h, s) =>
          let att := bytes.getD 16 0
          if setStatus h != 2 || (slotPass s x.w.ctx k).isSome then
            .ok (trapNow s x.sel (oneLane l) 0x2C set [])
          else if attFmt h att > 2 ∨ inFixedWindow (attBase h att) then
            .ok (trapNow s x.sel (oneLane l) 0x25 va [16])
          else
            let q : Pass := {
              id := s.nextId, ctx := x.w.ctx, slot := k, launch := x.w.launch, origin := x.w.origin l, setAddr := set
              pixel := fieldAt bytes 8 8, att := att, op := bytes.getD 17 0, done := fieldAt bytes 24 8
              doneVal := fieldAt bytes 32 8, open_ := true, tris := [], copy := none, dies := [], leaves := [], units := []
              frags := []
              failed := none }
            .ok (x.done { s with passes := s.passes ++ [q], nextId := s.nextId + 1 } (syncWaits s x.wd)))

/-! ### The binner (R296) -/

/-- BINNER_ACCEPT: the binner takes a triangle record for the open pass of its slot, or refuses it. -/
def execBinnerAccept (op lane : Nat) (s : State) : Outcome State Fault Refusal :=
  let s := spawnGo s op false
  .next (
    match nodePart s op lane .binner with
    | none => s
    | some (w, p) =>
      let slot := p.field 56 1
      let good := decide (slot < 8) && decide (p.field 57 1 ≤ 2) && p.field 58 6 == 0
      match slotPass s w.ctx slot with
      | none => putPart s op (p.refuse 0x2C [slot % 8])
      | some q =>
        if good && q.open_ then
          let t : Triangle := {
            verts := (List.range 9).map (fun i => p.field (8 + 4 * i) 4), seq := p.field 44 4, attr := p.field 48 8
            rate := p.field 57 1, op := op, lane := lane }
          putPart (s.updPass q.id (fun q => { q with tris := q.tris ++ [t] })) op { p with done := true }
        else putPart s op (p.refuse 0x2C [slot % 8]))

/-! ### Coverage (R297, R308) -/

/-- An edge of a canonical winding: a point, the vector along it, whether it is inclusive. -/
structure Edge where
  xa : Int
  ya : Int
  dx : Int
  dy : Int
  incl : Bool
  deriving DecidableEq, Repr

/-- E(P). -/
def Edge.at (e : Edge) (x y : Int) : Int := e.dx * (y - e.ya) - e.dy * (x - e.xa)

/-- The edge from one point to another. -/
def edgeOf (a b : Int × Int) : Edge :=
  let dx := b.1 - a.1
  let dy := b.2 - a.2
  { xa := a.1, ya := a.2, dx := dx, dy := dy, incl := decide (dy < 0) || (dy == 0 && decide (dx > 0)) }

/-- A primitive ready for tests: edges (v0, v1), (v1, v2), (v2, v0), twice its area, whether vertices were exchanged, the z
of the vertices where all are finite. -/
structure Prim where
  e0 : Edge
  e1 : Edge
  e2 : Edge
  area : Int
  swap : Bool
  zs : Option (Int × Int × Int)
  tri : Triangle
  deriving DecidableEq, Repr

/-- A vertex snapped with no extent check; none where it is not finite or leaves 32 bits. -/
def Geom.snapVertex (g : Geom) (cx cy : Nat) : Option (Int × Int) :=
  match f32Fix cx, f32Fix cy with
  | some x, some y =>
    let p := (snap x g.x0, snap y g.y0)
    let fits (v : Int) : Bool := decide (-(2 ^ 31) ≤ v) && decide (v < 2 ^ 31)
    if fits p.1 && fits p.2 then some p else none
  | _, _ => none

/-- A triangle made ready; none where it is culled. -/
def primOf (g : Geom) (t : Triangle) : Option Prim :=
  let v (i : Nat) : Nat := t.verts.getD i 0
  match g.snapVertex (v 0) (v 1), g.snapVertex (v 3) (v 4), g.snapVertex (v 6) (v 7) with
  | some a, some b, some c =>
    let area := (b.1 - a.1) * (c.2 - a.2) - (b.2 - a.2) * (c.1 - a.1)
    if area = 0 then none
    else
      let swap := decide (area < 0)
      let (b, c, zb, zc) := if swap then (c, b, v 8, v 5) else (b, c, v 5, v 8)
      let zs := match f32Fix (v 2), f32Fix zb, f32Fix zc with
        | some x, some y, some z => some (x, y, z)
        | _, _, _ => none
      some { e0 := edgeOf a b, e1 := edgeOf b c, e2 := edgeOf c a, area := area.natAbs, swap := swap, zs := zs, tri := t }
  | _, _, _ => none

/-- The primitive covers a point. -/
def Prim.covers (q : Prim) (x y : Nat) : Bool :=
  [q.e0, q.e1, q.e2].all (fun e => decide (e.at x y > 0) || (e.at x y == 0 && e.incl))

/-- A fraction rounded to f32. -/
def fracF32 (num den : Int) : Nat := (roundFrac .f32 .rne false (decide (num < 0)) num.natAbs den.natAbs).1

/-- B1, B2 and Z at a point. -/
def Prim.values (q : Prim) (x y : Nat) : Nat × Nat × Nat :=
  let b1 := q.e2.at x y
  let b2 := q.e0.at x y
  let z := match q.zs with
    | none => 0x7FC00000
    | some (z0, z1, z2) => fracF32 (z0 * (q.area - b1 - b2) + z1 * b1 + z2 * b2) (q.area * fixOne)
  (fracF32 b1 q.area, fracF32 b2 q.area, z)

/-- When a record arrives at the binner of a die, counted from nothing the spec gives (R305, log 55): the records of one spawn in
ascending lane order. -/
def arrival (die : Nat) (t : Triangle) : Nat := ((List.range (t.lane + 1)).map (Config.binnerDelay die t.op)).foldl (· + ·) 0

/-- A record goes before another in a list of a die (R296): by SEQ, then by arrival. -/
def goesBefore (die : Nat) (t u : Triangle) : Bool :=
  decide (t.seq < u.seq) || (t.seq == u.seq && decide (arrival die t ≤ arrival die u))

/-- Insert a record, accepted before those of a list. -/
def insertTri (die : Nat) (t : Triangle) : List Triangle → List Triangle
  | [] => [t]
  | u :: us => if goesBefore die t u then t :: u :: us else u :: insertTri die t us

/-- Records accepted one after the other, in the order of a die's lists. -/
def sortTris (die : Nat) (l : List Triangle) : List Triangle := l.foldr (insertTri die) []

/-- The columns or rows of tiles that a span meets: first and last. -/
def tileSpan (tile n : Nat) (lo hi : Int) : Option (Nat × Nat) :=
  if hi < 0 then none else some (min (lo.toNat / (256 * tile)) (n - 1), min (hi.toNat / (256 * tile)) (n - 1))

/-- The bounding box of a primitive's vertices meets a tile (R296). -/
def Geom.lists (g : Geom) (t : Triangle) (tile : Nat) : Bool :=
  let v (i : Nat) : Nat := t.verts.getD i 0
  match g.snapVertex (v 0) (v 1), g.snapVertex (v 3) (v 4), g.snapVertex (v 6) (v 7) with
  | some a, some b, some c =>
    match tileSpan g.tile g.tx (min a.1 (min b.1 c.1)) (max a.1 (max b.1 c.1)),
          tileSpan g.tile g.ty (min a.2 (min b.2 c.2)) (max a.2 (max b.2 c.2)) with
    | some x, some y =>
      let tx := tile % max g.tx 1
      let ty := tile / max g.tx 1
      decide (x.1 ≤ tx) && decide (tx ≤ x.2) && decide (y.1 ≤ ty) && decide (ty ≤ y.2)
    | _, _ => false
  | _, _, _ => false

/-- The list of a tile (R296). -/
def tileList (g : Geom) (p : Pass) (die tile : Nat) : List Triangle := (sortTris die p.tris).filter (fun t => g.lists t tile)

/-! ### Leaves (R298, R306 to R310) -/

/-- Read the points of samples; those outside the extent or the leaf's box are not covered. -/
def readPoints (ctx set : Nat) (g : Geom) (box : Nat → Nat → Bool) : State → List Nat → Except AccErr (List (Nat × Nat × Nat) × State)
  | s, [] => .ok ([], s)
  | s, i :: is =>
    match devRead s ctx (set + 256 + 16 * i) 8 with
    | .error e => .error e
    | .ok (b, s) =>
      match readPoints ctx set g box s is with
      | .error e => .error e
      | .ok (l, s) =>
        match g.snapPoint (fieldAt b 0 4) (fieldAt b 4 4) with
        | some (x, y) => .ok (if box x y then (i, x, y) :: l else l, s)
        | none => .ok (l, s)

/-- The words of a list of bytes. -/
def wordsOfBytes (b : List Nat) : List Nat := (List.range (b.length / 4)).map (fun i => fieldAt b (4 * i) 4)

/-- Read a leaf: its record, its permutation entries, its samples' coordinates; `none` where R307 skips it. -/
def readLeafData (s : State) (p : Pass) (k : SetCopy) (g : Geom) (leaf : Nat) : Except AccErr (Option LeafData × State) :=
  match devRead s p.ctx (k.leafb + 32 * leaf) 32 with
  | .error e => .error e
  | .ok (r, s) =>
    let n := fieldAt r 20 2
    let first := fieldAt r 16 4
    if n = 0 || decide (n > k.leaf) || decide (first + n > k.count - k.reject) then .ok (none, s)
    else
      match devRead s p.ctx (k.permb + 4 * first) (4 * n) with
      | .error e => .error e
      | .ok (b, s) =>
        let idx := wordsOfBytes b
        if idx.any (fun i => decide (i ≥ k.count)) then .ok (none, s)
        else
          let box (x y : Nat) : Bool :=
            decide (fieldAt r 0 4 ≤ x) && decide (x ≤ fieldAt r 8 4) && decide (fieldAt r 4 4 ≤ y) && decide (y ≤ fieldAt r 12 4)
          match readPoints p.ctx p.setAddr g box s idx with
          | .error e => .error e
          | .ok (pts, s) => .ok (some { tile := fieldAt r 22 2, points := pts }, s)

/-- The die that owns a leaf, judged from its record as it stands; none where it cannot be read. -/
def leafDie (s : State) (p : Pass) (k : SetCopy) (leaf : Nat) : Option Nat :=
  match devRead s p.ctx (k.leafb + 32 * leaf) 32 with
  | .ok (r, _) => p.dies[fieldAt r 22 2 % max p.dies.length 1]?
  | .error _ => none

/-- The cells of a primitive's covered samples (R310), in the order of their representatives: the representative first. -/
def cellsOf (rate : Nat) : List (Nat × Nat × Nat) → List (List (Nat × Nat × Nat))
  | [] => []
  | p :: ps =>
    let rest := cellsOf rate ps
    let c := 256 * 2 ^ rate
    let same (q : List (Nat × Nat × Nat)) : Bool :=
      rate != 0 && q.any (fun r => r.2.1 / c == p.2.1 / c && r.2.2 / c == p.2.2 / c)
    match rest.find? same with
    | some cell => (p :: cell) :: rest.filter (fun q => !same q)
    | none => [p] :: rest

/-- A fragment record of 16 words. -/
def fragRecord (q : Prim) (slot leaf : Nat) (rep : Nat × Nat × Nat) : List Nat :=
  let v := q.values rep.2.1 rep.2.2
  [rep.1, q.tri.seq, v.1, v.2.1, v.2.2, slot + (if q.swap then 8 else 0) + 16 * q.tri.rate, q.tri.attr % 2 ^ 32,
   q.tri.attr / 2 ^ 32, leaf] ++ List.replicate 7 0

/-- Form one pixel warp of at most 32 cells, and its fragments. -/
def formPixel (s : State) (p : Pass) (l : Launch) (cluster leaf prim : Nat) (q : Prim) (cells : List (List (Nat × Nat × Nat))) : State :=
  let id := s.nextId
  let recs := cells.map (fun c => (fragRecord q p.slot leaf (c.headD (0, 0, 0))).map (BitVec.ofNat 32))
  let w := freshWarp id p.ctx p.launch none 0 (.pixel p.id leaf prim) s.mod.snapshot (cluster / 8)
    (some cluster) (recordAlloc l) (recordRegs recs)
    (Vector.ofFn (fun i : Fin 32 => if i.val < cells.length then Lane.start (BitVec.ofNat 56 p.pixel) p.origin else Lane.gone))
  let frags := (cells.zipIdx).flatMap (fun c => c.1.map (fun x =>
    { sample := x.1, order := prim, warp := id, lane := c.2, state := .pending : Frag }))
  { s with warps := s.warps ++ [w], nextId := id + 1 }.updPass p.id (fun p => { p with frags := p.frags ++ frags })

/-- The pixel warps of a leaf and a primitive, 32 cells at a time. -/
def formPixels (p : Pass) (l : Launch) (cluster leaf prim : Nat) (q : Prim) :
    Nat → State → List (List (Nat × Nat × Nat)) → State
  | 0, s, _ => s
  | n + 1, s, cells =>
    if cells.isEmpty then s
    else formPixels p l cluster leaf prim q n (formPixel s p l cluster leaf prim q (cells.take 32)) (cells.drop 32)

/-- The raster unit of a cluster forms the pixel warps of the next primitives of its leaf: at most `n` pairs (R315). -/
def rasterPrims (g : Geom) (l : Launch) (pid cluster leaf : Nat) (d : LeafData) : Nat → Nat → State → List Triangle → State
  | 0, _, s, _ => s
  | _, _, s, [] => s
  | n + 1, i, s, t :: ts =>
    match s.pass? pid with
    | none => s
    | some p =>
      let s :=
        match primOf g t with
        | none => s
        | some q =>
          let cells := cellsOf t.rate (d.points.filter (fun x => q.covers x.2.1 x.2.2))
          formPixels p l cluster leaf i q cells.length s cells
      rasterPrims g l pid cluster leaf d n (i + 1) s ts

/-- The unit of a cluster at work for a pass. -/
def Pass.unit? (p : Pass) (cluster : Nat) : Option RasterUnit := p.units.find? (fun u => u.cluster == cluster)

/-- A raster unit changed. -/
def updUnit (s : State) (pid cluster : Nat) (f : RasterUnit → RasterUnit) : State :=
  s.updPass pid (fun p => { p with units := updFirst (fun u => u.cluster == cluster) f p.units })

/-- A unit's leaf is finished, or skipped. -/
def freeUnit (s : State) (pid cluster : Nat) : State :=
  s.updPass pid (fun p => { p with units := p.units.filter (fun u => u.cluster != cluster) })

/-- A raster unit works for no context whose state is not saved. -/
def unitFree (s : State) (cluster : Nat) : Bool := s.passes.all (fun p => s.saved p.ctx || (p.unit? cluster).isNone)

/-- The binner of a die may hand a leaf to one of its units: no lower leaf that is not handed out is, or may be, of that die;
what a leaf's record says counts as soon as it can be read (R306). -/
def mayTake (s : State) (p : Pass) (k : SetCopy) (leaf die : Nat) : Bool :=
  p.leaves.contains leaf && ((leafDie s p k leaf).map (fun d => d == die)).getD true &&
  p.leaves.all (fun j => decide (j ≥ leaf) || ((leafDie s p k j).map (fun d => d != die)).getD false)

/-- A free unit takes a leaf. -/
def takeLeaf (s : State) (p : Pass) (k : SetCopy) (leaf cluster : Nat) : State :=
  if (p.unit? cluster).isNone && unitFree s cluster && (enabledCores s.mod.snapshot).any (fun c => clusterOf c == cluster)
      && !s.mod.shut.getLsbD (cluster / 8) && mayTake s p k leaf (cluster / 8) then
    s.updPass p.id (fun p => { p with
      leaves := p.leaves.filter (fun x => x != leaf)
      units := p.units ++ [{ cluster := cluster, leaf := leaf, data := none, next := 0 }] })
  else s

/-- A unit reads its leaf. While a page is not present it holds the leaf; a leaf that turns out to be another die's goes back;
a read that cannot be performed skips it (R307, R308). A read at an address with a bit of [63:56] set is logged with ADDR_NONCANON,
and one whose line cannot be pulled with MIGRATE_FAULT, neither of which R308 lists (DESIGN CHOICE, log 55). -/
def readUnit (s : State) (p : Pass) (k : SetCopy) (g : Geom) (u : RasterUnit) : State :=
  let skip (s : State) : State := freeUnit s p.id u.cluster
  match readLeafData s p k g u.leaf with
  | .error e => onDevice s p.ctx e (fun cause a => skip (failPass s p.id 0 cause a))
  | .ok (none, s) => skip (failPass s p.id 0 0x2B (k.leafb + 32 * u.leaf))
  | .ok (some d, s1) =>
    if p.dies[d.tile % max p.dies.length 1]? = some (u.cluster / 8) then
      updUnit s1 p.id u.cluster (fun u => { u with data := some d })
    else (skip s).updPass p.id (fun p => { p with leaves := insertAsc u.leaf p.leaves })

/-- A unit that has read its leaf goes on with at most `n` primitives of its tile's list, and is free after the last. -/
def runUnit (s : State) (p : Pass) (g : Geom) (l : Launch) (u : RasterUnit) (n : Nat) : State :=
  match u.data with
  | none => s
  | some d =>
    let ts := tileList g p (u.cluster / 8) d.tile
    let s := rasterPrims g l p.id u.cluster u.leaf d n u.next s (ts.drop u.next)
    if u.next + n ≥ ts.length then freeUnit s p.id u.cluster
    else updUnit s p.id u.cluster (fun u => { u with next := u.next + n })

/-- RASTER_LEAF: the raster unit of a cluster, 8 × die + cluster, takes a leaf of a closed pass, reads it, and tests it against
each primitive of its tile's list in order. A cluster number with bit 63 set goes on with one primitive alone: the gate of
R315 may close between any two (log 55). -/
def execRasterLeaf (pass leaf cluster : Nat) (s : State) : Outcome State Fault Refusal :=
  let unit := cluster % 2 ^ 63
  .next (
    match closedPass s pass with
    | .error s => s
    | .ok (p, k) =>
      match k.geom, s.launch? p.launch with
      | some g, some l =>
        if !ctxRuns s p.ctx then s
        else
          let s := takeLeaf s p k leaf unit
          match (s.pass? pass).bind (fun p => (p.unit? unit).map (fun u => (p, u))) with
          | none => s
          | some (p, u) =>
            if u.leaf != leaf then s
            else
              let s := if u.data.isNone then readUnit s p k g u else s
              match (s.pass? pass).bind (fun p => (p.unit? unit).map (fun u => (p, u))) with
              | none => s
              | some (p, u) =>
                runUnit s p g l u (if cluster ≥ 2 ^ 63 then 1 else (tileList g p (unit / 8) ((u.data.map LeafData.tile).getD 0)).length)
      | _, _ => s)

/-! ### `e.emit` (R299) -/

/-- The lanes of a set that have emitted. -/
def emittedLanes (w : Warp) (m : Mask) : Mask := maskOf (fun l => inMask m l && (w.lane l).emitted)

/-- `e.emit`: EMIT_ORDER comes after the causes of R177 (R67). -/
def execEEmit (p : Nat) (s : State) : Outcome State Fault Refusal :=
  issue s (bareInfo (misaligned p 14 1)) (fun x =>
    match checkRegs x.w x.act [p, p + 1] [] with
    | .error e => .error e
    | .ok _ =>
      let again := emittedLanes x.w x.act
      let pixel := match x.w.kind with | .pixel _ _ _ => true | _ => false
      let addr (l : Nat) : Nat := x.w.pair l p
      match judgeLanes x.s x.c x.w.block .load 0 16 addr x.act with
      | .error e => .error e
      | .ok places =>
        if x.act != 0#32 && !pixel then .error (.trap x.act 0x2D 0 [])
        else if again != 0#32 then .error (.trap again 0x2D 0 [])
        else
          match holdFull x.w 1 with
          | .error e => .error e
          | .ok _ =>
            let parts := places.map (fun q => mkPart q.1 (addr q.1) 16 q.2 0 0)
            let w := x.wd.mapLanes x.act (fun _ y => { y with emitted := true })
            .ok (x.issueOp w 1 .emit parts 0 [] 0#32))

/-- The blender accepts a lane's value for every sample of its cell. -/
def acceptValue (s : State) (w : Warp) (lane v : Nat) : State :=
  match w.kind with
  | .pixel pid _ _ =>
    s.updPass pid (fun p => { p with frags := p.frags.map (fun f =>
      if f.warp == w.id && f.lane == lane && f.state == .pending then { f with state := .emitted (v % 2 ^ 32) } else f) })
  | _ => s

/-- One lane's emit record is read and its value delivered. -/
def performEmit (s : State) (w : Warp) (o : Op) (p : Part) : Performed :=
  match performLoad s w o p with
  | .yes s q => .yes (if q.done then acceptValue s w q.lane q.got else s) q
  | r => r

/-- EMIT_ACCEPT: values of lanes are accepted; when all are, the operation retires in order. -/
def execEmitAccept (op lanes : Nat) (s : State) : Outcome State Fault Refusal :=
  match s.awakeOp? op with
  | none => .next s
  | some (_, o) =>
    match o.kind with
    | .emit => .next (performOp performEmit op s (eventLanes lanes))
    | _ => .next s

/-! ### The blender (R300, R311, R312) -/

/-- A lane that has exited will deliver nothing more: no `e.emit` of it waits to be accepted. -/
def silent (s : State) (f : Frag) : Bool :=
  match s.warp? f.warp with
  | none => true
  | some w =>
    (w.lane f.lane).isExited &&
      !w.ops.any (fun o => o.kind == .emit && o.state == .running && o.parts.any (fun p => p.lane == f.lane && !p.done && p.refused.isNone))

/-- Fragments of lanes that exited without emitting change nothing. -/
def settleFrags (s : State) (pid : Nat) : State :=
  s.updPass pid (fun p => { p with frags := p.frags.map (fun f =>
    if f.state == .pending && silent s f then { f with state := .settled } else f) })

/-- What is applied to an element. -/
def blend (op e v : Nat) : Nat :=
  if op = 0 then v
  else if op = 1 then (e + v) % 2 ^ 32
  else if op = 2 then (fpAdd .f32 .rne e v).1
  else (fpMin .f32 e v).1

/-- Read, compute and write an attachment element in one step. -/
def applyElement (s : State) (p : Pass) (va v : Nat) : Except AccErr State :=
  match windowErr 2 va 4 with
  | some e => .error e
  | none =>
    match s.ctx? p.ctx with
    | none => .error (.trap 0x11 va [2])
    | some c =>
      match resolve s c none .atomic 2 va 4 with
      | .error e => .error e
      | .ok ⟨.absent, some l⟩ => .error (absentErr c l va)
      | .ok ⟨.hbm _, _⟩ =>
        match readChunk s c none 2 va 4 with
        | .error e => .error e
        | .ok (old, s) =>
          match writeMem s p.ctx none 2 va (natLe 4 (blend p.op old v)) with
          | .error e => .error e
          | .ok s => .ok (traceWrite s p.ctx p.launch p.origin va 4)
      | .ok ⟨.kick c q, _⟩ => .error (.kick va (kickSlot (.kick c q)))
      | .ok ⟨.graphKick c q, _⟩ => .error (.kick va (kickSlot (.graphKick c q)))
      | .ok _ => .error (.trap 0x15 va [])

/-- Mark the fragment at a place of the list as settled. -/
def settleAt (s : State) (pid i : Nat) : State :=
  s.updPass pid (fun p => { p with frags := p.frags.modify i (fun f => { f with state := .settled }) })

/-- The fragment at a place may be applied: every earlier one of its sample is settled. -/
def applicable (frags : List Frag) (i : Nat) : Bool :=
  match frags[i]? with
  | some f =>
    (match f.state with | .emitted _ => true | _ => false) &&
      (frags.take i).all (fun g => g.sample != f.sample || g.state == .settled)
  | none => false

/-- Apply the first applicable fragment among places; one that waits for its page lets the next be tried. One that finds no frame
for the private copy of its page, or whose line cannot be pulled, is dropped with FRAME_EXHAUSTED or MIGRATE_FAULT (DESIGN CHOICE,
log 55: R312 lists neither). -/
def applyFirst (p : Pass) (k : SetCopy) : State → List Nat → State
  | s, [] => s
  | s, i :: is =>
    match p.frags[i]? with
    | some f =>
      match f.state with
      | .emitted v =>
        let va := (k.attBase + 4 * f.sample) % 2 ^ 64
        match applyElement s p va v with
        | .ok s => settleAt s p.id i
        | .error (.wait _ page) => applyFirst p k (requestPage s p.ctx page) is
        | .error e => onDevice s p.ctx e (fun cause a => settleAt (failPass s p.id 2 cause a) p.id i)
      | _ => applyFirst p k s is
    | none => s

/-- BLENDER_APPLY: the blender applies the next result of some sample. R300 orders the results of one sample alone; of those of
several samples that may be applied the fragment formed first goes first (DESIGN CHOICE, log 55). -/
def execBlenderApply (pass : Nat) (s : State) : Outcome State Fault Refusal :=
  let s := settleFrags s pass
  .next (
    match closedPass s pass with
    | .error s => s
    | .ok (p, k) => applyFirst p k s ((List.range p.frags.length).filter (applicable p.frags)))

/-! ### The end of a pass (R301, R314, R366) -/

/-- A live pixel warp belongs to a pass. -/
def hasPixels (s : State) (pid : Nat) : Bool :=
  s.warps.any (fun w => match w.kind with | .pixel q _ _ => q == pid | _ => false)

/-- PASS_END. -/
def execPassEnd (pass : Nat) (s : State) : Outcome State Fault Refusal :=
  let s := settleFrags s pass
  .next (
    match closedPass s pass with
    | .error s => s
    | .ok (p, _) =>
      if p.leaves.isEmpty && p.units.isEmpty && p.frags.all (fun f => f.state == .settled) && !hasPixels s pass then
        match storeDone s p.ctx p.done (match p.failed with | none => p.doneVal | some cause => 2 ^ 63 + cause) with
        | .error s => s
        | .ok s => flushTraces { s with passes := s.passes.filter (fun q => q.id != pass) } p.launch
      else s)

/-- Every warp a launch has, or can still have, has ended. -/
def launchQuiet (s : State) (l : Launch) : Bool :=
  !s.warps.any (fun w => w.launch == l.id) && l.members.all (fun b => l.ended.contains b) &&
  !s.bins.any (fun b => b.launch == l.id) && !s.ctxs.any (fun c => c.spilled.any (fun x => x.launch == l.id))

/-- PASS_AUTO_CLOSE: every warp of the launch has ended with the pass open. -/
def execPassAutoClose (pass : Nat) (s : State) : Outcome State Fault Refusal :=
  .next (
    match s.pass? pass with
    | none => s
    | some p =>
      match s.launch? p.launch with
      | none => s
      | some l => if p.open_ && ctxRuns s p.ctx && launchQuiet s l then closePass s pass else s)

end Sys2Proof.Machine
end

