-- ==== Sys2Proof/Machine/System.lean ====
section
/-! DEFINITION. The system instructions: special registers (R40, R57, R143), context items (R144), returning from a trap
and ending what is stopped under one (R16, R147). -/

namespace Sys2Proof.Machine

open Host (Outcome)

/-! ### Special registers -/

/-- The index of a level: lane, warp or block number decomposed over the levels of its kind, in order (R39). -/
def levelIndex : List Level → (Nat → Nat) → Nat → Nat
  | [], _, _ => 0
  | v :: vs, n, k =>
    let g := min v.domain 2
    let e := max v.extent 1
    if k = 0 then n g % e else levelIndex vs (fun h => if h = g then n h / e else n h) (k - 1)

/-- SR.LVLIDX of a level in a lane: 0 for a level not declared and in a warp with no block (R40, R146, R240). -/
def lvlIdx (s : State) (w : Warp) (l : Launch) (k lane : Nat) : Nat :=
  match w.block.bind s.block? with
  | none => 0
  | some b => levelIndex l.rec_.levels (fun g => if g = 0 then lane else if g = 1 then w.number else b.number) k

/-- SR.CTR (R40). -/
def srCtr (w : Warp) : Nat :=
  w.outstanding 0 % 64 + 2 ^ 6 * (w.outstanding 1 % 64) + 2 ^ 12 * (w.outstanding 2 % 64) + 2 ^ 18 * (w.outstanding 3 % 64)

/-- Special registers that are pairs. -/
def srPair (r : Nat) : Bool := r == 32 || r == 35

/-- Numbers assigned (R56, R57). -/
def srAssigned (r : Nat) : Bool :=
  decide (r ≤ 4) || (decide (8 ≤ r) && decide (r ≤ 23)) || (decide (32 ≤ r) && decide (r ≤ 38))

/-- Special registers written to the lanes of the run, each its own value (R143). -/
def srPerLane (r : Nat) : Bool := r == 0 || (decide (8 ≤ r) && decide (r ≤ 15)) || r == 33

/-- The value of a special register in a lane (R40). -/
def srValue (s : State) (x : Cx) (r lane : Nat) : Nat :=
  let core := (x.w.core?).getD 0
  if r = 0 then lane
  else if r = 1 then x.w.number
  else if r = 2 then core % 8
  else if r = 3 then core / 8 % 8
  else if r = 4 then core / 64 % 4
  else if r ≤ 15 then lvlIdx s x.w x.l (r - 8) lane
  else if r ≤ 23 then ((x.l.rec_.levels[r - 16]?).map Level.extent).getD 1
  else if r = 32 then s.mod.clock % 2 ^ 64
  else if r = 33 then (x.w.lane lane).fpflags.toNat
  else if r = 34 then x.w.absent.toNat
  else if r = 35 then (tagsOf x.s x.c x.w).toNat
  else if r = 36 then srCtr x.w
  else if r = 37 then x.l.rec_.partition
  else x.w.alloc

/-- The form a per-lane special register leaves where the run is all 32 lanes (R28, R40): SR.LANE is compressed, an index
that equals the lane number too, an index no lane-bound level gives is uniform. A run of fewer lanes writes its own lanes alone, in the
per-lane form, whatever the level (DEDUCED, log 37). -/
def srForm (s : State) (x : Cx) (r : Nat) : Option RegForm :=
  let v := srValue s x r
  if x.run != allLanes || r == 33 then none
  else if (List.range 32).all (fun l => v l == l) then some (.compressed 0#32 1#32)
  else if r != 0 && decide ((((x.l.rec_.levels[r - 8]?).map Level.domain).getD 1) ≥ 1) then some (.uniform (BitVec.ofNat 32 (v 0)))
  else none

/-- `y.gsr` (R143). A read of SR.CLOCK sets ALWAYS in the trace of each lane's origin (R338). -/
def execYGsr (d r : Nat) (s : State) : Outcome State Fault Refusal :=
  issue s { Info.plain 3 with illegal := !srAssigned r, reserved := if srPair r then misaligned d 14 1 else 0 } (fun x =>
    if srPerLane r then
      match checkRegs x.w x.run [] [d] with
      | .error e => .error e
      | .ok _ =>
        let f := (srForm x.s x r).getD (laneForm x.wd d x.run (fun l => srValue x.s x r l))
        .ok (x.done x.s (x.wd.put x.run d f))
    else
      let dsts := if srPair r then [d, d + 1] else [d]
      match checkUniform x.w x.lead [] dsts with
      | .error e => .error e
      | .ok _ =>
        let s := if r = 32 then (lanesOf x.run).foldl (fun s l => traceAlways s x.l.id (x.w.origin l)) x.s else x.s
        .ok (x.done s (x.putUniform x.wd dsts (twoWords (srValue x.s x r x.lead)))))

/-- `y.ssr` (R143): SR.FPFLAGS per lane, SR.ABSENT from `lead`; any other number is no register to write (R57). -/
def execYSsr (r b : Nat) (s : State) : Outcome State Fault Refusal :=
  issue s { Info.plain 3 with illegal := !(r == 33 || r == 34) } (fun x =>
    match checkRegs x.w (if r = 33 then x.run else oneLane x.lead) [b] [] with
    | .error e => .error e
    | .ok _ =>
      if r = 33 then
        .ok (x.done x.s (x.wd.mapLanes x.run (fun l y => { y with fpflags := (x.w.reg l b).setWidth 5 })))
      else .ok (x.done x.s { x.wd with absent := x.w.reg x.lead b }))

/-- Runs of a context stopped under a trap: its handles in use (R144, R146). -/
def stoppedRuns (s : State) (ctx : Nat) : Nat :=
  (((s.warps.filter (fun w => w.ctx == ctx)).flatMap (fun w => (lanesOf allLanes).filterMap (fun l =>
    match (w.lane l).cond with
    | .stopped h => some h
    | _ => none))).eraseDups).length

/-- `y.ctxinfo` (R144): any item sets ALWAYS in the traces of the lanes' origins (R338). -/
def execYCtxinfo (d n : Nat) (s : State) : Outcome State Fault Refusal :=
  issue s { Info.plain 3 with illegal := decide (n > 4), reserved := if n = 2 then misaligned d 14 1 else 0 } (fun x =>
    let dsts := if n = 2 then [d, d + 1] else [d]
    match checkUniform x.w x.lead [] dsts with
    | .error e => .error e
    | .ok _ =>
      let v :=
        if n = 0 then x.w.ctx
        else if n = 1 then x.l.packet
        else if n = 2 then x.c.trapBase
        else if n = 3 then (enabledCores x.w.snap).length
        else stoppedRuns x.s x.w.ctx
      let s := (lanesOf x.run).foldl (fun s l => traceAlways s x.l.id (x.w.origin l)) x.s
      .ok (x.done s (x.putUniform x.wd dsts (twoWords v))))

/-! ### Returning from a trap (R16, R147) -/

/-- The warp with lanes stopped under a handle. -/
def stoppedWarp (s : State) (ctx h : Nat) : Option Warp :=
  s.warps.find? (fun w => w.ctx == ctx && (lanesOf allLanes).any (fun l => (w.lane l).cond == .stopped h))

/-- The lanes of a warp stopped under a handle. -/
def stoppedLanes (w : Warp) (h : Nat) : Mask := maskOf (fun l => (w.lane l).cond == .stopped h)

/-- RETURN FROM A TRAP: lanes stopped under a handle restart at the trapping instruction with age 0 (R16, R19); a lane
that reaches a waiting run joins it. -/
def resumeLanes (s : State) (ctx h : Nat) (m : Mask) : Except AccErr State :=
  match stoppedWarp s ctx h with
  | none => .ok s
  | some w =>
    .ok (s.updWarp w.id (fun w =>
      joinWaits (w.mapLanes (stoppedLanes w h &&& m) (fun _ y => { y with cond := .ready, age := 0 }))))

/-- Lanes stopped under a handle end as by `c.exit` (R16, R241); ALWAYS is set for their origins (R339), and faults that no
wait can take any more are logged (R138). -/
def killLanes (s : State) (ctx h : Nat) (m : Mask) : Except AccErr State :=
  match stoppedWarp s ctx h with
  | none => .ok s
  | some w =>
    let gone := stoppedLanes w h &&& m
    match countExits s w gone with
    | .error e => .error e
    | .ok s =>
      let s := (lanesOf gone).foldl (fun s l => traceAlways s w.launch (w.origin l)) s
      let s := s.updWarp w.id (fun w => exitLanes w gone)
      .ok (logUnreported s w.id (w.ops.length + 1))

/-- Act on the handle and mask of each of several lanes, in order. -/
def actLanes (act : State → Nat → Nat → Mask → Except AccErr State) (x : Cx) (a b : Nat) : State → List Nat → Except AccErr State
  | s, [] => .ok s
  | s, l :: ls =>
    match act s x.w.ctx (x.w.val l a) (x.w.reg l b) with
    | .error e => .error e
    | .ok s => actLanes act x a b s ls

/-- `y.resume` and `y.kill`: each lane of the run acts on its own handle and mask, in ascending order (R147); under step control the
run stops once that is done (R150). -/
def handleOp (s : State) (a b : Nat) (act : State → Nat → Nat → Mask → Except AccErr State) : Outcome State Fault Refusal :=
  issue s (Info.plain 3) (fun x =>
    match checkRegs x.w x.run [a, b] [] with
    | .error e => .error e
    | .ok _ =>
      match lanesWhere x.run (fun l => !handleInUse x.s x.w.ctx (x.w.val l a)) with
      | some (who, l) => .error (.trap who 0x07 0 [x.w.val l a])
      | none =>
        match x.w.kind with
        | .handler _ =>
          let s := (x.advance x.s x.wd (fun _ => x.next) false).updWarp x.w.id joinWaits
          match actLanes act x a b s (lanesOf x.run) with
          | .error e => .error (stopOf x.run e)
          | .ok s => .ok (stepTrap s x.w.id x.run x.sel.addr)
        | _ => .error (.trap x.run 0x08 0 [x.word]))

/-- `y.resume` (R16, R147). -/
def execYResume (a b : Nat) (s : State) : Outcome State Fault Refusal := handleOp s a b resumeLanes

/-- `y.kill` (R16, R147). -/
def execYKill (a b : Nat) (s : State) : Outcome State Fault Refusal := handleOp s a b killLanes

end Sys2Proof.Machine
end

