-- ==== Sys2Proof/Machine/Launch.lean ====
section
/-! DEFINITION. Launches: the launch record and its checks (R35 to R39, R235, R236), distribution and placement (R237 to
R240, R365), the ends of warps and blocks (R142, R148). -/

namespace Sys2Proof.Machine

open Host (Outcome)

/-! ### The launch record (R235) -/

/-- Bytes 32 to 63 come from the packet, the others from the template. -/
def formRecord (template packet : List Nat) : List Nat :=
  template.take 32 ++ (packet.drop 16).take 8 ++ (packet.drop 40).take 24 ++ template.drop 64

/-- Level `k` of a record. -/
def levelOf (b : List Nat) (k : Nat) : Level where
  extent := fieldAt b (64 + 8 * k) 4
  domain := b.getD (68 + 8 * k) 0 % 8
  scope := b.getD (69 + 8 * k) 0 % 8

/-- The record's fields. -/
def launchRecOf (b : List Nat) : LaunchRec where
  regs := b.getD 3 0
  partition := fieldAt b 4 4
  scratch := fieldAt b 8 4
  accum := b.getD 12 0
  entry := fieldAt b 16 8
  trapEntry := fieldAt b 24 8
  params := fieldAt b 32 8
  spawnCtr := fieldAt b 40 8
  dist := fieldAt b 48 4
  launchId := fieldAt b 52 4
  trace := fieldAt b 56 8
  levels := (List.range (min (b.getD 2 0) 8)).map (levelOf b)

/-- The product of the extents of the levels whose domain satisfies `p`. -/
def LaunchRec.product (r : LaunchRec) (p : Nat → Bool) : Nat :=
  ((r.levels.filter (fun v => p v.domain)).map Level.extent).foldl (· * ·) 1

/-- Lanes of a warp, and warps of a block (R39). -/
def LaunchRec.lanes (r : LaunchRec) : Nat := r.product (· == 0)
def LaunchRec.warps (r : LaunchRec) : Nat := r.product (· == 1)

/-- The fields of the partition word (R35). -/
def LaunchRec.regg (r : LaunchRec) : Nat := r.partition % 2 ^ 9
def LaunchRec.scrg (r : LaunchRec) : Nat := r.partition / 2 ^ 9 % 2 ^ 9
def LaunchRec.acct (r : LaunchRec) : Nat := r.partition / 2 ^ 18 % 2 ^ 7

/-- Granules of the partition. -/
def LaunchRec.granules (r : LaunchRec) : Nat := r.regg + r.scrg + 2 * r.acct

/-- Scratchpad pages of a block (R160). -/
def LaunchRec.pages (r : LaunchRec) : Nat := (r.scratch + 4095) / 4096

/-- Register bytes of a warp with an allocation (R37). -/
def warpBytes (alloc : Nat) : Nat := 128 * alloc

/-- `n` blocks fit on an empty core under R37. -/
def LaunchRec.fits (r : LaunchRec) (n : Nat) : Bool :=
  decide (n * r.warps * warpBytes r.regs ≤ r.regg * 32768) && decide (n * r.warps ≤ 64) && decide (n * r.pages ≤ 8 * r.scrg)
    && decide (n * r.accum ≤ r.acct)

/-- Levels do not decrease in domain. -/
def ascendingDomains : List Level → Bool
  | a :: b :: rest => decide (a.domain ≤ b.domain) && ascendingDomains (b :: rest)
  | _ => true

/-- R38. -/
def LaunchRec.levelsOk (r : LaunchRec) : Bool :=
  !r.levels.isEmpty && ((r.levels.head?).map Level.domain).getD 1 == 0 && ascendingDomains r.levels
    && r.levels.all (fun v => decide (1 ≤ v.extent) && decide (v.extent ≤ 2 ^ 31) && decide (v.domain ≤ 6)
        && (v.domain != 6 || v.extent == 1) && decide (v.scope ≤ 5) && decide (v.domain ≤ v.scope + 1))
    && decide (r.lanes ≤ 32) && decide (r.warps ≤ 64)

/-- R36. -/
def LaunchRec.partitionOk (r : LaunchRec) : Bool :=
  decide (1 ≤ r.regg) && decide (r.granules ≤ 256) && r.partition / 2 ^ 25 == 0 && r.fits 1

/-! ### Distribution (R238) -/

/-- The widest of cluster, die, module that a level binds to. -/
def LaunchRec.widest (r : LaunchRec) : Option Nat := [5, 4, 3].find? (fun d => r.levels.any (fun v => v.domain == d))

/-- The instance of a domain that a core lies in. -/
def instanceOf (dom core : Nat) : Nat := if dom = 3 then clusterOf core else if dom = 4 then dieOf core else 0

/-- Instances of a domain with an enabled core, ascending. -/
def instances (snap : BitVec 256) (dom : Nat) : List Nat :=
  (enabledCores snap).foldr (fun c l => insertAsc (instanceOf dom c) l) []

/-- Enabled cores of an instance, ascending. -/
def coresIn (snap : BitVec 256) (dom inst : Nat) : List Nat := (enabledCores snap).filter (fun c => instanceOf dom c == inst)

/-- The number that B's indices at levels bound to core or wider, but below a domain, form. -/
def innerOf (dom : Nat) : List Level → Nat → Nat
  | [], _ => 0
  | v :: vs, b =>
    if v.domain < 2 then innerOf dom vs b
    else if v.domain < dom then b % max v.extent 1 + max v.extent 1 * innerOf dom vs (b / max v.extent 1)
    else innerOf dom vs (b / max v.extent 1)

/-- KIND of the distribution word. -/
def LaunchRec.distKind (r : LaunchRec) : Nat := r.dist % 16

/-- The seed die. -/
def LaunchRec.seedDie (r : LaunchRec) : Nat := r.dist / 16 % 4

/-- The place of item `i` of `n` in a list: interleaved or contiguous. -/
def spread (kind i n : Nat) (l : List Nat) : Option Nat := if kind = 0 then l[i % max l.length 1]? else l[i * l.length / max n 1]?

/-- The core of block B. -/
def coreOf (snap : BitVec 256) (r : LaunchRec) (b : Nat) : Option Nat :=
  match r.widest with
  | none => spread r.distKind b r.blocks (enabledCores snap)
  | some x =>
    match spread r.distKind (groupOf x r.levels b) (r.product (fun d => decide (x ≤ d))) (instances snap x) with
    | none => none
    | some inst =>
      let cs := coresIn snap x inst
      cs[innerOf x r.levels b % max cs.length 1]?

/-- The blocks of one group that fall on one core can all be resident there (R239). -/
def groupsFit (snap : BitVec 256) (r : LaunchRec) : Bool :=
  match r.widest with
  | none => true
  | some x =>
    let insts := instances snap x
    let n := r.product (fun d => decide (x ≤ d))
    let used := if n ≥ insts.length then insts else (List.range n).filterMap (fun i => spread r.distKind i n insts)
    let m := r.product (fun d => decide (2 ≤ d) && decide (d < x))
    used.all (fun i =>
      let k := max (coresIn snap x i).length 1
      r.fits ((m + k - 1) / k))

/-- A launch record is valid (R236, R237, R239). -/
def recordOk (b : List Nat) (seed : Bool) (snap : BitVec 256) : Bool :=
  let r := launchRecOf b
  let n := b.getD 2 0
  fieldAt b 0 2 == 1 && decide (1 ≤ n) && decide (n ≤ 8) && decide (8 ≤ r.regs) && decide (r.regs ≤ 128) && r.regs % 8 == 0
    && decide (r.scratch ≤ 2 ^ 23) && decide (r.accum ≤ 127) && fieldAt b 13 3 == 0
    && r.entry % 4 == 0 && decide (r.entry < 2 ^ 56) && r.trapEntry % 4 == 0 && decide (r.trapEntry < 2 ^ 56)
    && (List.range n).all (fun k => decide (b.getD (68 + 8 * k) 0 < 8) && decide (b.getD (69 + 8 * k) 0 < 8) && fieldAt b (70 + 8 * k) 2 == 0)
    && fieldAt b (64 + 8 * n) (64 - 8 * n) == 0 && fieldAt b 128 128 == 0
    && r.levelsOk && r.partitionOk && decide (r.distKind ≤ 1) && r.dist / 64 == 0 && !(enabledCores snap).isEmpty
    && (if seed then r.warps == 1 && r.blocks == 1 && (enabledDies snap).contains r.seedDie
        else r.seedDie == 0 && groupsFit snap r)

/-! ### What a core holds (R36, R37) -/

/-- Warps resident on a core. -/
def coreWarps (s : State) (core : Nat) : List Warp := s.warps.filter (fun w => w.core? == some core && !s.saved w.ctx)

/-- Blocks resident on a core. -/
def coreBlocks (s : State) (core : Nat) : List Block :=
  s.blocks.filter (fun b => b.core == core && b.state == .running && !s.saved b.ctx)

/-- A launch has a block or a warp on a core. -/
def launchOn (s : State) (core lid : Nat) : Bool :=
  (coreWarps s core).any (fun w => w.launch == lid) || (coreBlocks s core).any (fun b => b.launch == lid)

/-- The partition of a launch is held on a core, or fits beside those held. -/
def partitionRoom (s : State) (core : Nat) (l : Launch) : Bool :=
  launchOn s core l.id ||
    decide (((s.launches.filter (fun k => launchOn s core k.id)).map (fun k => k.rec_.granules)).foldl (· + ·) 0
      + l.rec_.granules ≤ 256)

/-- Warps with so many register bytes fit on a core beside the launch's. -/
def warpRoom (s : State) (core : Nat) (l : Launch) (n bytes : Nat) : Bool :=
  decide ((((coreWarps s core).filter (fun w => w.launch == l.id)).map (fun w => warpBytes w.alloc)).foldl (· + ·) 0 + bytes
    ≤ l.rec_.regg * 32768) && decide ((coreWarps s core).length + n ≤ 64)

/-- `n` more blocks of a launch fit on a core. -/
def blockRoom (s : State) (core : Nat) (l : Launch) (n : Nat) : Bool :=
  let mine := (coreBlocks s core).filter (fun b => b.launch == l.id)
  partitionRoom s core l && warpRoom s core l (n * l.rec_.warps) (n * l.rec_.warps * warpBytes l.rec_.regs)
    && decide ((mine.map Block.pages).foldl (· + ·) 0 + n * l.rec_.pages ≤ 8 * l.rec_.scrg)
    && decide ((mine.map Block.tileCount).foldl (· + ·) 0 + n * l.rec_.accum ≤ l.rec_.acct)

/-- The lowest resident index free on a core (R23). -/
def freeIndex (s : State) (core : Nat) : Nat :=
  ((List.range 64).find? (fun i => !(coreWarps s core).any (fun w => w.place == some (core, i)))).getD 64

/-- A warp takes its place on a core. -/
def seatWarp (s : State) (wid core : Nat) : State := s.updWarp wid (fun w => { w with place := some (core, freeIndex s core) })

/-- Warps take their places in order. -/
def seatWarps (core : Nat) : State → List Nat → State
  | s, [] => s
  | s, w :: ws => seatWarps core (seatWarp s w core) ws

/-! ### Starting blocks and warps (R14, R239, R240, R365) -/

/-- The registers a warp of a launch begins with (R14). -/
def startRegs (r : LaunchRec) : List RegForm :=
  [.uniform (BitVec.ofNat 32 r.params), .uniform (BitVec.ofNat 32 (r.params / 2 ^ 32))]

/-- The lanes a warp of a launch begins with (R39). -/
def startLanes (r : LaunchRec) (origin : Nat) : Vector Lane 32 :=
  Vector.ofFn (fun i : Fin 32 => if i.val < r.lanes then Lane.start (BitVec.ofNat 56 r.entry) origin else Lane.gone)

/-- Add the warps of a block, the last number first in the recursion: those of one block take their resident indexes in the order of their
numbers, and so do warps that return together (R23 gives no order; DESIGN CHOICE, log 35). -/
def addWarps (l : Launch) (b : Block) : Nat → State → State
  | 0, s => s
  | n + 1, s =>
    let s := addWarps l b n s
    let w := freshWarp s.nextId l.ctx l.id (some b.id) n .static l.snapshot (dieOf b.core) none l.rec_.regs (startRegs l.rec_)
      (startLanes l.rec_ b.number)
    seatWarp { s with warps := s.warps ++ [w], nextId := s.nextId + 1 } w.id b.core

/-- A block starts on its core: all its warps start together. -/
def startBlock (s : State) (lid number core : Nat) : State :=
  match s.launch? lid with
  | none => s
  | some l =>
    let b : Block := {
      id := s.nextId, ctx := l.ctx, launch := lid, number := number, core := core, state := .running, scratch := []
      pages := l.rec_.pages, unpinned := [], tiles := [], tileCount := l.rec_.accum }
    let s := { s with blocks := s.blocks ++ [b], nextId := s.nextId + 1 }
    addWarps l b l.rec_.warps (s.setLaunch { l with started := l.started ++ [number] })

/-- Blocks start, in order. -/
def startBlocks (lid core : Nat) : State → List Nat → State
  | s, [] => s
  | s, b :: bs => startBlocks lid core (startBlock s lid b core) bs

/-- The blocks that start with a block: those of its group on its core that have not started (R239). -/
def mates (l : Launch) (b core : Nat) : List Nat :=
  match l.rec_.widest with
  | none => [b]
  | some x => l.members.filter (fun n => groupOf x l.rec_.levels n == groupOf x l.rec_.levels b && coreOf l.snapshot l.rec_ n == some core
      && !l.started.contains n)

/-- A core runs: its die is not shut down (R360). -/
def coreUp (s : State) (core : Nat) : Bool := !s.mod.shut.getLsbD (dieOf core)

/-- BLOCK_START: the next block of a launch on its core starts where the launch's partition and the block fit. -/
def execBlockStart (launch block : Nat) (s : State) : Outcome State Fault Refusal :=
  .next (
    match s.launch? launch with
    | none => s
    | some l =>
      match coreOf l.snapshot l.rec_ block with
      | none => s
      | some core =>
        let ms := mates l block core
        if ctxRuns s l.ctx && !l.unset && l.members.contains block && !l.started.contains block
            && l.members.all (fun n => decide (n ≥ block) || l.started.contains n || coreOf l.snapshot l.rec_ n != some core)
            && coreUp s core && blockRoom s core l ms.length
        then startBlocks launch core s ms else s)

/-- A warp with no block may take a place: its context runs, or is being stopped and the warp is a pixel warp, which runs on
until the deadline (R315). -/
def mayPlace (s : State) (w : Warp) : Bool :=
  match s.ctx? w.ctx with
  | none => false
  | some c =>
    c.live &&
    (match c.preempt with
     | .running => true
     | .stopping since _ _ => (match w.kind with | .pixel _ _ _ => decide (s.mod.clock < since + 1200) | _ => false)
     | .saved => false)

/-- WARP_PLACE: a warp with no block takes a place on an enabled core of its die or cluster where it fits. -/
def execWarpPlace (warp core : Nat) (s : State) : Outcome State Fault Refusal :=
  .next (
    match s.awakeWarp? warp with
    | none => s
    | some w =>
      match s.launch? w.launch with
      | none => s
      | some l =>
        if w.place.isNone && w.block.isNone && mayPlace s w && coreUp s core && decide (core < 256) && w.snap.getLsbD core && dieOf core == w.die
            && ((w.cluster.map (fun k => k == clusterOf core)).getD true)
            && partitionRoom s core l && warpRoom s core l 1 (warpBytes w.alloc)
        then seatWarp s warp core else s)

/-! ### The end of warps and blocks (R142, R148) -/

/-- A warp gives up its registers; the last warp of a block ends it. -/
def dropWarp (s : State) (w : Warp) : State :=
  let s := { s with warps := s.warps.filter (fun x => x.id != w.id),
                    bars := s.bars.filter (fun b => !(b.scope == 0 && b.owner == w.id)) }
  match w.block.bind s.block? with
  | none => s
  | some b =>
    if s.warps.any (fun x => x.block == some b.id) then s
    else
      { s with blocks := s.blocks.filter (fun x => x.id != b.id),
               bars := s.bars.filter (fun k => !(k.scope == 1 && k.owner == b.id)) }.updLaunch w.launch
        (fun l => { l with ended := l.ended ++ [b.number] })

/-- WARP_END: a handler warp first ends what is stopped under its handle; records that are due are written. -/
def execWarpEnd (warp : Nat) (s : State) : Outcome State Fault Refusal :=
  .next (
    match s.awakeWarp? warp with
    | none => s
    | some w =>
      if w.live = 0#32 && w.ops.isEmpty then
        match (match w.kind with
          | .handler h => if h = 0 then Except.ok s else killLanes s w.ctx h allLanes
          | _ => Except.ok s) with
        | .error e => onDevice s w.ctx e (fun _ a => endWith s w.ctx 0x33 a [])
        | .ok s => flushTraces (dropWarp s w) w.launch
      else s)

end Sys2Proof.Machine
end

