-- ==== Sys2Proof/Machine/Queue.lean ====
section
/-! DEFINITION. Queues and packets (R152 to R156, R230 to R236, R245), task graphs (R246 to R249), relaunches (R331 to
R346), from the taking of a packet to its completion. -/

namespace Sys2Proof.Machine

open Host (Outcome)

/-! ### Packets (R153, R230, R234) -/

/-- The fields of a packet keep to their limits and its reserved fields are zero. -/
def packetOk (b : List Nat) : Bool :=
  let comp := fieldAt b 24 8 % 8 == 0 && decide (fieldAt b 32 8 < 2 ^ 63)
  let t := b.getD 0 0
  decide (b.getD 1 0 < 2) && fieldAt b 2 6 == 0 &&
  (if t = 1 ∨ t = 2 then fieldAt b 8 8 % 64 == 0 && comp && fieldAt b 40 8 % 8 == 0
   else if t = 3 then decide (b.getD 8 0 < 64) && fieldAt b 9 7 == 0 && fieldAt b 16 8 % 8 == 0 && comp && fieldAt b 40 24 == 0
   else if t = 4 then fieldAt b 12 12 == 0 && comp && fieldAt b 40 24 == 0
   else if t = 5 then fieldAt b 8 8 % 8 == 0 && fieldAt b 24 40 == 0
   else if t = 6 then fieldAt b 8 8 % 8 == 0 && decide (b.getD 32 0 ≤ 3) && fieldAt b 33 31 == 0
   else if t = 7 then fieldAt b 8 56 == 0
   else if t = 8 then
     let op := fieldAt b 8 2
     let q := b.getD 10 0
     let n := fieldAt b 12 4
     let a1 := fieldAt b 16 8
     let a2 := fieldAt b 24 8
     let a3 := fieldAt b 32 8
     b.getD 11 0 == 0 && fieldAt b 40 24 == 0 &&
     (if op = 1 then decide (1 ≤ q) && decide (q ≤ 63) && decide (16 ≤ n) && decide (n ≤ 65536) && 2 ^ Nat.log2 n == n
        && a1 % (64 * n) == 0 && a2 % 8 == 0 && a3 % 8 == 0
      else if op = 2 then decide (q ≤ 63) && n == 0 && a1 == 0 && a2 == 0 && a3 == 0
      else if op = 3 then
        let h := a1 % 2 ^ 32
        let w := a1 / 2 ^ 32
        q == 0 && a2 == 0 && a3 == 0 && (n == 0 || (decide (64 ≤ n) && decide (n ≤ 65536)))
          && (h == 0 || (decide (16 ≤ h) && decide (h ≤ 40))) && (w == 0 || decide (w ≤ 1000000))
      else if op = 4 then decide (q ≤ 63) && n == 0 && a2 == 0 && a3 == 0 && a1 % 64 == 0
      else false)
   else false)

/-- The BAR bit of a packet. -/
def packetBar (b : List Nat) : Bool := b.getD 1 0 % 2 == 1

/-- A queue of a context. -/
def queueOf (s : State) (ctx q : Nat) : Option Queue := (s.ctx? ctx).bind (fun c => c.queues.find? (fun x => x.number == q))

/-- A queue changed. -/
def updQueue (s : State) (ctx q : Nat) (f : Queue → Queue) : State :=
  s.updCtx ctx (fun c => { c with queues := updFirst (fun x => x.number == q) f c.queues })

/-- The address that names a job's packet in an end record: its slot; 0 for one that stands in no ring. -/
def jobAddr (j : Job) : Nat := j.slot

/-- A packet's index modulo N; 0 for one that stands in no ring. -/
def jobSlot (j : Job) : Nat := j.place

/-! ### Kicks and the taking of packets (R155, R156) -/

/-- KICK_WRITE: a write of a queue's kick register from outside the context's warps. -/
def execKickWrite (ctx queue value : Nat) (s : State) : Outcome State Fault Refusal :=
  .next (if ((s.ctx? ctx).map Ctx.live).getD false then kickQueue s ctx queue (value % 2 ^ 64) else s)

/-- A packet taken from a queue that has not started. -/
def takenHeld (s : State) (q : Queue) (ctx : Nat) : Bool :=
  s.jobs.any (fun j => j.ctx == ctx && j.key == q.key && j.state == .held && (match j.source with | .packet _ _ => true | _ => false))

/-- A packet whose slot is zeroed is taken: the read index is stored, and the packet passed to start. -/
def finishTake (s : State) (ctx : Nat) (q : Queue) (b : List Nat) : State :=
  match devWrite s ctx q.rAddr (natLe 8 (q.read + 1)) with
  | .error e => onDevice s ctx e (fun _ _ => endWith s ctx 0x3B q.rAddr [])
  | .ok s =>
    let slot := slotAddr q q.read
    let j : Job := {
      id := s.nextId, ctx := ctx, source := .packet q.number q.read, bytes := b, state := .held, snapshot := s.mod.snapshot
      order := s.nextId, key := q.key, slot := slot, place := q.read % q.size }
    let s := updQueue { s with jobs := s.jobs ++ [j], nextId := s.nextId + 1 } ctx q.number
      (fun q => { q with read := q.read + 1, taking := none })
    if packetOk b then s else endWith s ctx 0x3B slot []

/-- PACKET_TAKE: the device takes the packet at R, or monitors its header where that is empty. A packet read, its slot zeroed,
stays with the queue while the store of the read index waits for its page. -/
def execPacketTake (ctx queue : Nat) (s : State) : Outcome State Fault Refusal :=
  .next (
    match queueOf s ctx queue with
    | none => s
    | some q =>
      if !ctxRuns s ctx || takenHeld s q ctx then s
      else
        match q.taking with
        | some b => finishTake s ctx q b
        | none =>
          if q.stalled || decide (q.read ≥ q.tail) then s
          else
            let slot := slotAddr q q.read
            let bad (s : State) : State := endWith s ctx 0x3B slot []
            match devRead s ctx slot 64 with
            | .error e => onDevice s ctx e (fun _ _ => bad s)
            | .ok (b, s) =>
              if b.getD 0 0 = 0 then updQueue s ctx queue (fun q => { q with stalled := true })
              else
                match devWrite s ctx slot (List.replicate 64 0) with
                | .error e => onDevice s ctx e (fun _ _ => bad s)
                | .ok s => finishTake (updQueue s ctx queue (fun q => { q with taking := some b })) ctx q b)

/-- PACKET_HEADER_WAKE: a monitored header has become non-zero. -/
def execPacketHeaderWake (ctx queue : Nat) (s : State) : Outcome State Fault Refusal :=
  .next (
    match queueOf s ctx queue, s.ctx? ctx with
    | some q, some c =>
      if q.stalled && wordNow s c none (slotAddr q q.read) 4 % 256 != 0 then updQueue s ctx queue (fun q => { q with stalled := false })
      else s
    | _, _ => s)

/-! ### Starting a job (R231) -/

/-- A SIGNAL that has started and waits to store, or a LAUNCH or SEED that waits to set its SPAWNCTR word (R364). -/
def startWaits (s : State) (j : Job) : Bool :=
  let t := j.bytes.getD 0 0
  j.state == .running && (t == 5 || ((t == 1 || t == 2) && s.launches.any (fun l => l.job == j.id && l.unset)))

/-- A context's graph slot. -/
def slotOf (s : State) (ctx n : Nat) : Option GraphSlot := (s.ctx? ctx).bind (fun c => c.slots.find? (fun g => g.number == n))

/-- How many nodes of a replay had completed when the last predecessor of a node had: nodes with the same count became ready
together. -/
def readyAt (r : Replay) (node : Nat) : Nat :=
  greatestOf (0 :: (r.graph.edges.filter (fun e => e.2 == node)).map (fun e =>
    r.completed.length - (r.completed.findIdx? (fun n => n == e.1)).getD r.completed.length))

/-- A lower node of a slot's replay, ready together with a node, has been made and has not started; a WAIT_VALUE that its own condition
holds (R231) holds no other node (DEDUCED, log 57). -/
def lowerHeld (s : State) (ctx slot node : Nat) (r : Replay) : Bool :=
  s.jobs.any (fun k => k.ctx == ctx && k.state == .held && k.bytes.getD 0 0 != 6
    && (match k.source with
        | .node n m => n == slot && decide (m < node) && readyAt r m == readyAt r node
        | _ => false))

/-- A node of a replay waits for a lower one that became ready together with it to start (R248). -/
def nodeBehind (s : State) (j : Job) : Bool :=
  match j.source with
  | .node slot node =>
    match (slotOf s j.ctx slot).bind GraphSlot.running with
    | none => false
    | some r => lowerHeld s j.ctx slot node r
  | _ => false

/-- A job of a type that may start now: held, and with BAR, and always for CONTEXT, every earlier packet of its queue has
completed; or started and waiting. -/
def startable (s : State) (job type : Nat) : Option Job :=
  match s.job? job with
  | none => none
  | some j =>
    let earlier := match j.source with
      | .packet _ i => s.jobs.any (fun k => k.ctx == j.ctx && k.key == j.key && (match k.source with | .packet _ n => decide (n < i) | _ => false))
      | _ => false
    if j.bytes.getD 0 0 = type ∧ ctxRuns s j.ctx = true
      ∧ (j.state = .held ∧ ((packetBar j.bytes || type == 8) && earlier) = false ∧ nodeBehind s j = false ∨ startWaits s j = true)
    then some j else none

/-- A job goes on with its work. -/
def runJob (s : State) (j : Job) : State := s.setJob { j with state := .running }

/-- A graph slot changed; it is made if it does not exist. -/
def updSlot (s : State) (ctx n : Nat) (f : GraphSlot → GraphSlot) : State :=
  s.updCtx ctx (fun c =>
    let fresh : GraphSlot := { number := n, graph := none, rebind := none, pending := [], running := none }
    let old := if c.slots.any (fun g => g.number == n) then c.slots else c.slots ++ [fresh]
    { c with slots := updFirst (fun g => g.number == n) f old })

/-- A node of a replay has completed; the replay ends with its last node, and a bind that waited takes effect (R247). -/
def nodeDone (s : State) (ctx slot node : Nat) : State :=
  updSlot s ctx slot (fun g =>
    match g.running with
    | none => g
    | some r =>
      let done := node :: r.completed
      if (List.range r.graph.nodes.length).all (fun i => done.contains i) then
        { g with running := none, graph := (g.rebind.getD g.graph), rebind := none }
      else { g with running := some { r with completed := done } })

/-- A job has completed and is gone. -/
def finishJob (s : State) (j : Job) : State :=
  let s := { s with jobs := s.jobs.filter (fun k => k.id != j.id) }
  match j.source with
  | .node slot node => nodeDone s j.ctx slot node
  | _ => s

/-- SIGNAL (R153): the value is stored at the address. -/
def execSignal (job : Nat) (s : State) : Outcome State Fault Refusal :=
  .next (
    match startable s job 5 with
    | none => s
    | some j =>
      let va := fieldAt j.bytes 8 8
      match devWrite s j.ctx va (natLe 8 (fieldAt j.bytes 16 8)) with
      | .error e => onDevice (runJob s j) j.ctx e (fun _ _ => endWith s j.ctx 0x3B va [])
      | .ok s => finishJob s j)

/-- COND of a WAIT_VALUE on a word (R230). -/
def waitMet (b : List Nat) (word : Nat) : Bool :=
  let w := word &&& fieldAt b 24 8
  let v := fieldAt b 16 8
  let c := b.getD 32 0
  if c = 0 then w == v else if c = 1 then w != v else if c = 2 then decide (w ≥ v) else decide (w < v)

/-- The word of a held WAIT_VALUE is read; the packet starts and completes where it meets COND. -/
def testWait (s : State) (job : Nat) : State :=
  match startable s job 6 with
  | none => s
  | some j =>
    let va := fieldAt j.bytes 8 8
    match devRead s j.ctx va 8 with
    | .error e => onDevice s j.ctx e (fun _ _ => endWith s j.ctx 0x3C va [])
    | .ok (b, s) => if waitMet j.bytes (leNat b) then finishJob s j else s

/-- WAIT_VALUE (R231): the word is read when the packet is taken. -/
def execWaitValue (job : Nat) (s : State) : Outcome State Fault Refusal := .next (testWait s job)

/-- WAIT_VALUE_RECHECK (R231): it is read again after a write to it. -/
def execWaitValueRecheck (job : Nat) (s : State) : Outcome State Fault Refusal := .next (testWait s job)

/-- BARRIER_ONLY (R153). -/
def execBarrierOnly (job : Nat) (s : State) : Outcome State Fault Refusal :=
  .next (match startable s job 7 with | none => s | some j => finishJob s j)

/-! ### CONTEXT packets (R234) -/

/-- A CONTEXT packet of an op that may start. -/
def contextJob (s : State) (job op : Nat) : Option Job :=
  match startable s job 8 with
  | none => none
  | some j => if fieldAt j.bytes 8 2 = op then some j else none

/-- The context ends with PACKET_INVALID for a packet. -/
def packetInvalid (s : State) (j : Job) : State := endWith s j.ctx 0x3B (jobAddr j) []

/-- QUEUE_CREATE. -/
def execQueueCreate (job : Nat) (s : State) : Outcome State Fault Refusal :=
  .next (
    match contextJob s job 1 with
    | none => s
    | some j =>
      let n := j.bytes.getD 10 0
      if (queueOf s j.ctx n).isSome then packetInvalid s j
      else
        let r := fieldAt j.bytes 32 8
        match devWrite s j.ctx r (natLe 8 0) with
        | .error e => onDevice s j.ctx e (fun _ _ => endWith s j.ctx 0x3B r [])
        | .ok s =>
          let q : Queue := {
            number := n, ring := fieldAt j.bytes 16 8, size := fieldAt j.bytes 12 4, wAddr := fieldAt j.bytes 24 8, rAddr := r
            read := 0, tail := 0, stalled := false, taking := none, key := s.nextId }
          finishJob ({ s with nextId := s.nextId + 1 }.updCtx j.ctx (fun c => { c with queues := c.queues ++ [q] })) j)

/-- QUEUE_DESTROY. A queue whose next packet is half taken is destroyed once it is taken. -/
def execQueueDestroy (job : Nat) (s : State) : Outcome State Fault Refusal :=
  .next (
    match contextJob s job 2 with
    | none => s
    | some j =>
      let n := j.bytes.getD 10 0
      match queueOf s j.ctx n with
      | none => packetInvalid s j
      | some q =>
        let own := match j.source with | .packet _ _ => q.key == j.key | _ => false
        if own then packetInvalid s j
        else if q.taking.isSome then s
        else finishJob (s.updCtx j.ctx (fun c => { c with queues := c.queues.filter (fun q => q.number != n) })) j)

/-- SETTINGS: a value of 0 keeps the setting. -/
def execSettings (job : Nat) (s : State) : Outcome State Fault Refusal :=
  .next (
    match contextJob s job 3 with
    | none => s
    | some j =>
      let keep (v old : Nat) : Nat := if v = 0 then old else v
      finishJob (s.updCtx j.ctx (fun c => { c with
        spawnTimer := keep (fieldAt j.bytes 12 4) c.spawnTimer
        hangExp := keep (fieldAt j.bytes 16 4) c.hangExp
        swapUs := keep (fieldAt j.bytes 20 4) c.swapUs })) j)

/-! ### Task graphs (R246 to R249) -/

/-- Nodes from which no path of at most `fuel` steps is left: repeatedly drop nodes all of whose predecessors are gone. -/
def acyclic (edges : List (Nat × Nat)) : Nat → List Nat → Bool
  | 0, ns => ns.isEmpty
  | fuel + 1, ns =>
    let rest := ns.filter (fun n => edges.any (fun e => e.2 == n && ns.contains e.1))
    if rest.isEmpty then true else if rest.length == ns.length then false else acyclic edges fuel rest

/-- A graph object's checks (R247); bytes it calls reserved are ignored (R5). -/
def graphOk (g : Graph) : Bool :=
  let n := g.nodes.length
  g.nodes.all (fun b => (let t := b.getD 0 0; t == 0 || t == 1 || t == 2 || t == 5 || t == 6 || t == 7) && !packetBar b) &&
  g.edges.all (fun e => decide (e.1 < n) && decide (e.2 < n)) && acyclic g.edges n (List.range n)

/-- Read a graph object and check it; none where it is rejected. -/
def readGraph (s : State) (ctx va : Nat) : Except AccErr (Option Graph × State) :=
  match devRead s ctx va 64 with
  | .error e => .error e
  | .ok (h, s) =>
    let n := fieldAt h 0 4
    let e := fieldAt h 4 4
    if n = 0 ∨ n > 1024 ∨ e > 65536 then .ok (none, s)
    else
      match devRead s ctx (va + 64) (64 * n + 4 * e) with
      | .error e => .error e
      | .ok (b, s) =>
        let g : Graph := {
          nodes := (List.range n).map (fun i => (b.drop (64 * i)).take 64)
          edges := (List.range e).map (fun k => (fieldAt b (64 * n + 4 * k) 2, fieldAt b (64 * n + 4 * k + 2) 2)) }
        .ok (if graphOk g then some g else none, s)

/-- GRAPH_BIND: the object is read, checked and kept; a slot whose replay runs takes it afterwards, and the packet completes at once
(DEDUCED, log 57). -/
def execGraphBind (job : Nat) (s : State) : Outcome State Fault Refusal :=
  .next (
    match contextJob s job 4 with
    | none => s
    | some j =>
      let va := fieldAt j.bytes 16 8
      let slot := j.bytes.getD 10 0
      let bind (s : State) (g : Option Graph) : State :=
        finishJob (updSlot s j.ctx slot (fun x => if x.running.isSome then { x with rebind := some g } else { x with graph := g })) j
      if va = 0 then bind s none
      else
        match readGraph s j.ctx va with
        | .error e => onDevice s j.ctx e (fun _ _ => endWith s j.ctx 0x39 va [])
        | .ok (none, s) => endWith s j.ctx 0x39 va []
        | .ok (some g, s) => bind s (some g))

/-- Apply the entries of a patch table to the nodes in order; none where one breaks its limits. -/
def patchNodes : List (List Nat) → List (List Nat) → Option (List (List Nat))
  | nodes, [] => some nodes
  | nodes, e :: es =>
    let n := fieldAt e 0 2
    let o := fieldAt e 2 2
    if n ≥ nodes.length ∨ o < 8 ∨ o > 56 ∨ o % 8 ≠ 0 then none
    else patchNodes (nodes.modify n (fun b => b.take o ++ (e.drop 8).take 8 ++ b.drop (o + 8))) es

/-- Read a patch table and apply it; none where it is rejected. A table that does not lie at a multiple of 8 is rejected too: the spec names
neither a check nor a cause for one (DESIGN CHOICE, log 57). -/
def readPatch (s : State) (ctx va : Nat) (nodes : List (List Nat)) : Except AccErr (Option (List (List Nat)) × State) :=
  if va = 0 then .ok (some nodes, s)
  else if va % 8 ≠ 0 then .ok (none, s)
  else
    match devRead s ctx va 16 with
    | .error e => .error e
    | .ok (h, s) =>
      let m := fieldAt h 0 4
      if m > 4096 then .ok (none, s)
      else
        match devRead s ctx (va + 16) (16 * m) with
        | .error e => .error e
        | .ok (b, s) => .ok (patchNodes nodes ((List.range m).map (fun i => (b.drop (16 * i)).take 16)), s)

/-- A replay of a slot begins: its patch table is read in full and applied to a copy of the nodes (R248). -/
def beginReplay (s : State) (ctx slot patch : Nat) (job : Option Nat) (after : State → State) : State :=
  match (slotOf s ctx slot).bind GraphSlot.graph with
  | none => endWith s ctx 0x39 0 []
  | some g =>
    match readPatch s ctx patch g.nodes with
    | .error e => onDevice s ctx e (fun _ _ => endWith s ctx 0x3A patch [])
    | .ok (none, s) => endWith s ctx 0x3A patch []
    | .ok (some nodes, s) =>
      after (updSlot s ctx slot (fun x =>
        { x with running := some { graph := { g with nodes := nodes }, started := [], completed := [], job := job } }))

/-- A slot where no replay runs or waits. -/
def slotIdle (s : State) (ctx slot : Nat) : Bool :=
  match slotOf s ctx slot with
  | none => true
  | some g => g.running.isNone && g.pending.isEmpty

/-- GRAPH_REPLAY: the packet starts once the slot's earlier replays have completed. -/
def execGraphReplay (job : Nat) (s : State) : Outcome State Fault Refusal :=
  .next (
    match startable s job 3 with
    | none => s
    | some j =>
      let slot := j.bytes.getD 8 0
      if slotIdle s j.ctx slot then beginReplay s j.ctx slot (fieldAt j.bytes 16 8) (some j.id) (fun s => runJob s j) else s)

/-- GRAPH_KICK: a store to a slot's kick register from outside the context's warps. -/
def execGraphKick (ctx slot table : Nat) (s : State) : Outcome State Fault Refusal :=
  .next (if ((s.ctx? ctx).map Ctx.live).getD false then kickSlotStore s ctx (slot % 64) (table % 2 ^ 64) (graphKickAddr ctx (slot % 64)) else s)

/-- Nodes that may start: every predecessor has completed. -/
def readyNodes (r : Replay) : List Nat :=
  (List.range r.graph.nodes.length).filter (fun n => !r.started.contains n
    && r.graph.edges.all (fun e => e.2 != n || r.completed.contains e.1))

/-- A node comes next among those that became ready together with it: every lower one of them has been made (R248). -/
def nextNode (r : Replay) (node : Nat) : Bool :=
  (readyNodes r).contains node && (readyNodes r).all (fun m => decide (m ≥ node) || readyAt r m != readyAt r node)

/-- A node whose packet would start as soon as it is made: one of type 0, or one that ends the context. -/
def startsWhenMade (b : List Nat) : Bool := b.getD 0 0 == 0 || !packetOk b

/-- A node is made: its packet becomes a job of its own; one of type 0 starts and completes. -/
def startNode (s : State) (ctx slot node : Nat) (r : Replay) : State :=
  let b := r.graph.nodes.getD node []
  let s := updSlot s ctx slot (fun g => { g with running := some { r with started := node :: r.started } })
  if b.getD 0 0 = 0 then nodeDone s ctx slot node
  else if packetOk b then
    let j : Job := {
      id := s.nextId, ctx := ctx, source := .node slot node, bytes := b, state := .held, snapshot := s.mod.snapshot
      order := s.nextId, key := 0, slot := 0, place := 0 }
    { s with jobs := s.jobs ++ [j], nextId := s.nextId + 1 }
  else endWith s ctx 0x3B 0 []

/-- GRAPH_NODE_START: a replay that a kick queued begins where none runs; then the next of its ready nodes is made. One that starts as it
is made waits for the lower ones that became ready together with it (R248); a job's start waits by `nodeBehind`. -/
def execGraphNodeStart (ctx slot node : Nat) (s : State) : Outcome State Fault Refusal :=
  .next (
    let go (s : State) : State :=
      match (slotOf s ctx slot).bind GraphSlot.running with
      | none => s
      | some r =>
        if nextNode r node && !(startsWhenMade (r.graph.nodes.getD node []) && lowerHeld s ctx slot node r) then startNode s ctx slot node r
        else s
    if !ctxRuns s ctx then s
    else
      match slotOf s ctx slot with
      | none => s
      | some g =>
        match g.running, g.pending with
        | none, x :: rest =>
          beginReplay s ctx slot x none (fun s => go (updSlot s ctx slot (fun g => { g with pending := rest })))
        | _, _ => go s)

/-! ### LAUNCH and SEED (R235, R236, R240, R331, R339) -/

/-- Item 1 of `y.ctxinfo` for the work of a job (R144). -/
def jobItem (s : State) (j : Job) : Nat :=
  match j.source with
  | .packet q _ => q
  | .relaunch => 128
  | .node slot _ =>
    match ((slotOf s j.ctx slot).bind GraphSlot.running).bind Replay.job with
    | some r => ((s.job? r).bind (fun k => match k.source with | .packet q _ => some q | _ => none)).getD (64 + slot)
    | none => 64 + slot

/-- The generation would reach 2^32 − 1 (R339). -/
def generationFull (c : Ctx) : Bool := decide (c.generation + 1 + (c.tracedRunning + 1) ≥ 2 ^ 32 - 1)

/-- A traced work starts: G rises (R334). -/
def tracedStart (s : State) (ctx : Nat) : State :=
  s.updCtx ctx (fun c => { c with generation := c.generation + 1, tracedRunning := c.tracedRunning + 1 })

/-- A traced work completes: G rises again. -/
def tracedEnd (s : State) (ctx : Nat) : State :=
  s.updCtx ctx (fun c => { c with generation := c.generation + 1, tracedRunning := c.tracedRunning - 1 })

/-- The seed warp of a launch (R240). -/
def addSeed (s : State) (l : Launch) : State :=
  let w := freshWarp s.nextId l.ctx l.id none 0 .seed l.snapshot (dieUnder l.snapshot l.rec_.seedDie) none l.rec_.regs
    (startRegs l.rec_) (startLanes l.rec_ 0)
  { s with warps := s.warps ++ [w], nextId := s.nextId + 1 }

/-- A launch begins: its record is held; a traced one registers and takes a generation. Nothing of it runs while its SPAWNCTR word has
still to be set. -/
def beginLaunch (s : State) (j : Job) (r : LaunchRec) (seed : Bool) : State :=
  let s := if r.trace = 0 then s else tracedStart s j.ctx
  let id := s.nextId
  let l : Launch := {
    id := id, ctx := j.ctx, rec_ := r, kind := if seed then .seed else .blocks, snapshot := j.snapshot, packet := jobItem s j
    job := j.id, started := [], ended := [], spawned := if seed then r.lanes else 0
    generation := ((s.ctx? j.ctx).map Ctx.generation).getD 0, traces := [], recorded := [], again := none
    unset := r.spawnCtr != 0 }
  let s := runJob { s with launches := s.launches ++ [l], nextId := id + 1 } j
  let s := if r.trace = 0 then s
    else s.updCtx j.ctx (fun c => { c with traced :=
      { launchId := r.launchId, launch := id, rec_ := r, seed := seed } :: c.traced.filter (fun t => t.launchId != r.launchId) })
  if seed && r.spawnCtr == 0 then addSeed s l else s

/-- The SPAWNCTR word of a job's launch that has begun is set (R241); while its page is not present the launch waits (R364). -/
def setSpawnCtr (s : State) (j : Job) : State :=
  match s.launches.find? (fun l => l.job == j.id && l.unset) with
  | none => s
  | some l =>
    let seed := l.kind == .seed
    match devWrite s j.ctx l.rec_.spawnCtr (natLe 8 (if seed then l.rec_.lanes else 0)) with
    | .error e => onDevice s j.ctx e (fun _ _ => endWith s j.ctx 0x33 l.rec_.spawnCtr [])
    | .ok s =>
      let s := s.setLaunch { l with unset := false }
      if seed then addSeed s { l with unset := false } else s

/-- The launch record of a packet that starts, read from its template; it is valid. `.error` holds the state where it waits or the
context has ended. -/
def startRecord (s : State) (j : Job) (seed : Bool) : Except State (List Nat × State) :=
  let invalid (s : State) : State := endWith s j.ctx 0x36 0 [jobSlot j]
  match devRead s j.ctx (fieldAt j.bytes 8 8) 256 with
  | .error e => .error (onDevice s j.ctx e (fun _ _ => invalid s))
  | .ok (t, s) =>
    let raw := formRecord t j.bytes
    if recordOk raw seed j.snapshot then .ok (raw, s) else .error (invalid s)

/-- A LAUNCH or SEED packet starts, or goes on to set its SPAWNCTR word: it starts at once, so that it registers in its turn (R231, R331). -/
def startLaunch (s : State) (j : Job) (seed : Bool) : State :=
  if startWaits s j then setSpawnCtr s j
  else
    match startRecord s j seed with
    | .error s => s
    | .ok (raw, s) =>
      let r := launchRecOf raw
      if r.trace ≠ 0 ∧ ((s.ctx? j.ctx).map generationFull).getD true = true then endWith s j.ctx 0x3F 0 []
      else if r.spawnCtr = 0 then beginLaunch s j r seed
      else setSpawnCtr (beginLaunch s j r seed) j

/-- LAUNCH. -/
def execLaunch (job : Nat) (s : State) : Outcome State Fault Refusal :=
  .next (match startable s job 1 with | none => s | some j => startLaunch s j false)

/-- SEED. -/
def execSeed (job : Nat) (s : State) : Outcome State Fault Refusal :=
  .next (match startable s job 2 with | none => s | some j => startLaunch s j true)

/-! ### Relaunches (R335, R342, R343) -/

/-- Ranges of a trace record, from an offset. -/
def rangesAt (b : List Nat) (at_ n : Nat) : List (Nat × Nat) :=
  (List.range n).map (fun i =>
    let v := fieldAt b (at_ + 8 * i) 8
    (v % 2 ^ 44, v / 2 ^ 44 + 1))

/-- A tile of some ranges has a stamp above a generation; with `every`, any tracked tile of the context. -/
def stampedAbove (c : Ctx) (exec : Nat) (every : Bool) (rs : List (Nat × Nat)) : Bool :=
  c.stamps.any (fun t => decide (t.2 > exec) && (every || rs.any (fun r => decide (r.1 ≤ t.1) && decide (t.1 < r.1 + r.2))))

/-- A block's record selects it. -/
def selects (c : Ctx) (b : List Nat) : Bool :=
  let exec := fieldAt b 0 4
  let flags := b.getD 7 0
  bitAt flags 2 || stampedAbove c exec (bitAt flags 0) (rangesAt b 16 (min (fieldAt b 4 2) 24))
    || stampedAbove c exec (bitAt flags 1) (rangesAt b 208 (min (b.getD 6 0) 6))

/-- Read the records of blocks and select: the blocks that run again; an error comes with its record's address. -/
def selectBlocks (ctx trace : Nat) : State → List Nat → Except (AccErr × Nat) (List Nat × State)
  | s, [] => .ok ([], s)
  | s, b :: bs =>
    match devRead s ctx (trace + 256 * b) 256 with
    | .error e => .error (e, trace + 256 * b)
    | .ok (r, s) =>
      match selectBlocks ctx trace s bs with
      | .error e => .error e
      | .ok (l, s) => .ok (if ((s.ctx? ctx).map (fun c => selects c r)).getD false then b :: l else l, s)

/-- `e.relaunch` (R342): the run waits until the device has queued the relaunch, which is a release. -/
def execERelaunch (p : Nat) (s : State) : Outcome State Fault Refusal :=
  elected s (bareInfo (misaligned p 14 1)) p 64 64 (fun x => .ok (x.done x.s x.wd)) (fun x l va bytes =>
    match paramCheck l va (resv bytes 4 4 ++ limit (fieldAt bytes 8 8 % 8 == 0) 8 ++ limit (decide (fieldAt bytes 16 8 < 2 ^ 63)) 16
        ++ resv bytes 24 40) with
    | .error e => .error e
    | .ok _ =>
      let id := fieldAt bytes 0 4
      if !x.c.traced.any (fun t => t.launchId == id) then .error (.trap (oneLane l) 0x2E 0 [id])
      else if (queuedRelaunches x.s x.w.ctx).length ≥ 16 || !orderAt x.s x.w x.s.nextId true true then .error (.hold .relaunch [])
      else
        let s := match x.w.core? with | some core => pushLines x.s core | none => x.s
        let image := natLe 8 4 ++ natLe 4 id ++ natLe 4 0 ++ natLe 8 0 ++ (bytes.drop 8).take 16 ++ List.replicate 24 0
        let j : Job := {
          id := s.nextId, ctx := x.w.ctx, source := .relaunch, bytes := image, state := .held, snapshot := s.mod.snapshot
          order := s.nextId, key := 0, slot := 0, place := 0 }
        .ok (x.done { s with jobs := s.jobs ++ [j], nextId := s.nextId + 1 } (syncWaits s x.wd)))

/-! ### Completion (R232) -/

/-- The spawn-tree count of a launch as it stands. -/
def spawnCount (s : State) (l : Launch) : Except AccErr (Nat × State) :=
  let own := match l.kind with | .relaunch _ => true | .reseed => true | _ => l.rec_.spawnCtr == 0
  if own then .ok (l.spawned, s)
  else
    match devRead s l.ctx l.rec_.spawnCtr 8 with
    | .error e => .error e
    | .ok (b, s) => .ok (leNat b, s)

/-- Nothing of a launch is left but its count and its records: no block to start or to end, no warp, pass or build, and no write
of it to a remote page that is not answered (R232). -/
def launchIdle (s : State) (l : Launch) : Bool :=
  !l.unset && launchQuiet s l && !s.mod.remotes.any (fun r => r.write && r.launch == l.id) && !s.passes.any (fun p => p.launch == l.id) && !s.builds.any (fun b => b.launch == l.id)

/-- A launch is over: its job stores COMPVAL, after its reductions have gone home. -/
def endLaunch (s : State) (j : Job) (l : Launch) : State :=
  let s := s.lines.foldl (fun s k => mergeLine s k.line) s
  match storeDone s j.ctx (compAddr j.bytes) (fieldAt j.bytes 32 8) with
  | .error s => s
  | .ok s =>
    let traced := l.rec_.trace != 0
    let s := { s with launches := s.launches.filter (fun k => k.id != l.id),
                      bars := s.bars.filter (fun b => !(decide (b.scope ≥ 2) && b.owner == l.id)) }
    let s := finishJob s j
    if traced then tracedEnd s j.ctx else s

/-- The launch or relaunch of a job completes where nothing of it is left. -/
def completeLaunch (s : State) (j : Job) : State :=
  let s := match s.launches.find? (fun l => l.job == j.id) with | some l => flushTraces s l.id | none => s
  match s.launches.find? (fun l => l.job == j.id) with
  | none => s
  | some l =>
    if launchIdle s l && (l.rec_.trace == 0 || l.origins.all (fun b => l.recorded.contains b)) then
      match spawnCount s l with
      | .error e => onDevice s j.ctx e (fun _ _ => endWith s j.ctx 0x33 l.rec_.spawnCtr [])
      | .ok (n, s) => if n = 0 then endLaunch s j l else s
    else s

/-- PACKET_COMPLETE. -/
def execPacketComplete (job : Nat) (s : State) : Outcome State Fault Refusal :=
  .next (
    match s.job? job with
    | none => s
    | some j =>
      if j.state != .running || !ctxRuns s j.ctx then s
      else if j.bytes.getD 0 0 = 3 then
        if ((s.ctx? j.ctx).map (fun c => c.slots.any (fun g => (g.running.bind Replay.job) == some job))).getD false then s
        else
          match storeDone s j.ctx (compAddr j.bytes) (fieldAt j.bytes 32 8) with
          | .error s => s
          | .ok s => finishJob s j
      else completeLaunch s j)

/-! ### Relaunches that start (R335, R343) -/

/-- The launch a relaunch names, or a relaunch that goes before it, has not completed. A packet has its place among the relaunches
of a launch when it starts, so every queued one goes before it (R343). -/
def relaunchHeld (s : State) (j : Job) (t : Traced) : Bool :=
  s.launches.any (fun l => l.ctx == j.ctx && (l.id == t.launch || l.again == some t.launch)) ||
  s.jobs.any (fun k => k.ctx == j.ctx && k.source == .relaunch && k.state == .held && k.id != j.id && fieldAt k.bytes 8 4 == t.launchId
    && (j.source != .relaunch || decide (k.order < j.order)))

/-- RELAUNCH: records are read, g is taken, and the selected blocks run under the record held (R345). With no block selected it
completes at its start. -/
def execRelaunch (job : Nat) (s : State) : Outcome State Fault Refusal :=
  .next (
    match startable s job 4 with
    | none => s
    | some j =>
      match (s.ctx? j.ctx).bind (fun c => c.traced.find? (fun t => t.launchId == fieldAt j.bytes 8 4)) with
      | none => packetInvalid s j
      | some t =>
        if relaunchHeld s j t then s
        else
          let s := s.lines.foldl (fun s l => mergeLine s l.line) s
          match selectBlocks j.ctx t.rec_.trace s (List.range t.rec_.blocks) with
          | .error (e, a) => onDevice s j.ctx e (fun _ _ => endWith s j.ctx 0x3F a [])
          | .ok (sel, s) =>
            if ((s.ctx? j.ctx).map generationFull).getD true then endWith s j.ctx 0x3F 0 []
            else
              let s := tracedStart s j.ctx
              let seed := t.seed && !sel.isEmpty
              let l : Launch := {
                id := s.nextId, ctx := j.ctx, rec_ := t.rec_
                kind := if seed then .reseed else .relaunch sel
                snapshot := s.mod.snapshot, packet := jobItem s j, job := j.id, started := [], ended := []
                spawned := if seed then t.rec_.lanes else 0
                generation := ((s.ctx? j.ctx).map Ctx.generation).getD 0, traces := [], recorded := []
                again := some t.launch, unset := false }
              let s := runJob { s with launches := s.launches ++ [l], nextId := s.nextId + 1 } j
              if seed then addSeed s l else if sel.isEmpty then completeLaunch s { j with state := .running } else s)

end Sys2Proof.Machine
end

