-- ==== Sys2Proof/Machine/Paging.lean ====
section
/-! DEFINITION. What system software and the device do to pages and blocks: page-table changes (R169), residency (R170 to
R172), migration (R173, R174), the swapping of blocks and the refill of their scratchpad (R162, R197, R365). -/

namespace Sys2Proof.Machine

open Host (Outcome)

/-! ### Monitors on what a page shows -/

/-- A word is seen to change between two states without a store to it: its residency word, or where it lies. -/
def seenChange (s t : State) (c d : Ctx) (blk : Option Nat) (va size : Nat) : Bool :=
  if va ≥ windowBase then wordNow s c blk va size != wordNow t d blk va size
  else
    match resolve s c blk .read 0 va size, resolve t d blk .read 0 va size with
    | .ok p, .ok q => p.tgt != q.tgt
    | .error _, .ok _ => true
    | _, _ => false

/-- A monitor's wait after its word was tested where it now lies. -/
def testedAt (s : State) (c : Ctx) (blk : Option Nat) (op addr size value : Nat) (hit : Bool) : Wait :=
  match resolve s c blk .read 0 addr size with
  | .ok p => tested s p op addr size value hit
  | .error _ => .monitor op addr size value hit

/-- A waiting lane whose monitored word a change of the mapping reaches: the change counts as a write (R171, R172, R196). -/
def changeLane (s t : State) (c d : Ctx) (blk : Option Nat) (x : Lane) : Lane :=
  match x.cond with
  | .waiting (.monitor op addr size value hit) next since =>
    if seenChange s t c d blk addr size then
      { x with cond := .waiting (testedAt t d blk op addr size value
          (hit || op % 8 == 6 || monitorHolds op size (wordNow t d blk addr size) value)) next since }
    else x
  | _ => x

/-- The monitors of a context after its pages changed from what they were in `s`. -/
def noteChange (s t : State) (ctx : Nat) : State :=
  match s.ctx? ctx, t.ctx? ctx with
  | some c, some d =>
    { t with warps := t.warps.map (fun w =>
        if w.ctx == ctx then w.mapLanes allLanes (fun _ x => changeLane s t c d w.block x) else w) }
  | _, _ => t

/-- The pages of a context have changed: monitors see it, and the device's own writes that waited are tried again. -/
def pagesChanged (s t : State) (ctx : Nat) : State :=
  let t := noteChange s t ctx
  drainWrites t ctx (((t.ctx? ctx).map (fun c => c.pendingWrites.length)).getD 0)

/-- The update-only lines that lie in a frame are merged at their homes. -/
def mergeFrame (s : State) (frame size : Nat) : State :=
  (s.lines.filter (fun l => decide (frame ≤ 128 * l.line) && decide (128 * l.line < frame + size))).foldl (fun s l => mergeLine s l.line) s

/-! ### Page tables (R165, R169) -/

/-- The address of the entry that the walk for an address reads at a level, where the entries above it are pointers. -/
def entryAt (m : Memory) (va target : Nat) : List (Nat × Nat × Nat) → Nat → Option (Nat × Nat)
  | [], _ => none
  | (level, low, width) :: rest, table =>
    let a := table + 8 * bitsAt va low width
    if level = target then some (a, low)
    else
      let e := Memory.readN m a 8
      if bitAt e 0 && !bitAt e 1 then entryAt m va target rest (bitsAt e 12 40 * 2 ^ 12) else none

/-- The leaf of an address tracks its page. -/
def tracksAt (s : State) (c : Ctx) (va : Nat) : Bool := ((leafOf s c va).map Leaf.trk).getD false

/-- What a context records of its pages, after its tables changed over a range: a residency state stays where the page was
absent and is, a move where the page still has its new frame, stamps where tracking did not change (R170, R340). -/
def settlePages (s t : State) (c : Ctx) (lo size : Nat) : Ctx :=
  let inside (va : Nat) : Bool := decide (lo ≤ va) && decide (va < lo + size)
  { c with
    residency := c.residency.filter (fun r => !inside r.1 ||
      (match leafOf s c r.1, leafOf t c r.1 with
       | some a, some b => !a.p && !b.p && !a.rem && !b.rem && a.page == b.page && a.size == b.size
       | _, _ => false))
    moves := c.moves.filter (fun m => !inside m.page || ((leafOf t c m.page).map (fun l => l.frame == m.newFrame && l.size == m.size && !l.rem)).getD false)
    stamps := c.stamps.filter (fun x => !inside (4096 * x.1) || tracksAt s c (4096 * x.1) == tracksAt t c (4096 * x.1)) }

/-- The remote mappings of dies that stay when system software replaces the entries of a range (R174). -/
def farOutside (c : Ctx) (lo size : Nat) : List (Nat × Nat) := c.farMaps.filter (fun m => !(decide (lo ≤ m.1) && decide (m.1 < lo + size)))

/-- PTE_CHANGE: system software writes the entry of an address at a level; from then on every access uses it, and the range has no
remote mapping of a die any more. It may give frames for private copies (R175). -/
def execPteChange (ctx level va value : Nat) (frames : List Nat) (s : State) : Outcome State Fault Refusal :=
  .next (
    match s.ctx? ctx with
    | none => s
    | some c =>
      match entryAt s.mem va level walkLevels c.root with
      | none => s
      | some (a, low) =>
        if inHbm a then
          let s := s.lines.foldl (fun s l => mergeLine s l.line) s
          let t := { s with mem := Memory.writeN s.mem a 8 value, mod := { s.mod with frames := s.mod.frames ++ frames } }
          let t := noteWrite t (fun x k => x.overlaps k (.hbm a) 8)
          let lo := va - va % 2 ^ low
          let t := t.updCtx ctx (fun c => { settlePages s t c lo (2 ^ low) with farMaps := farOutside c lo (2 ^ low) })
          pagesChanged s t ctx
        else s)

/-- The bits of a leaf entry replaced. -/
def writeEntry (s : State) (l : Leaf) (f : Nat → Nat) : State :=
  { s with mem := Memory.writeN s.mem l.entryAddr 8 (f (Memory.readN s.mem l.entryAddr 8)) }

/-! ### Residency (R170 to R172, R362) -/

/-- The local leaf that maps an address of a context. -/
def localLeaf (s : State) (ctx va : Nat) : Option (Ctx × Leaf) :=
  (s.ctx? ctx).bind (fun c => (leafOf s c va).bind (fun l => if l.rem then none else some (c, l)))

/-- RESIDENCY_PRESENT: the page becomes present, showing what its frame holds (log 43). -/
def execResidencyPresent (ctx va : Nat) (s : State) : Outcome State Fault Refusal :=
  .next (
    match localLeaf s ctx va with
    | none => s
    | some (_, l) =>
      if l.p then s
      else
        let t := writeEntry s l (fun e => e + 2 ^ 3)
        pagesChanged s (t.updCtx ctx (fun c => { c with residency := dropAssoc c.residency l.page })) ctx)

/-- RESIDENCY_REFUSE: system software declines a request. -/
def execResidencyRefuse (ctx va : Nat) (s : State) : Outcome State Fault Refusal :=
  .next (
    match localLeaf s ctx va with
    | none => s
    | some (c, l) =>
      if pageState c l = 1 then
        pagesChanged s (s.updCtx ctx (fun c => { c with residency := setAssoc c.residency l.page 3 })) ctx
      else s)

/-- RESIDENCY_EVICT: the page becomes absent, or a refusal is cleared. A page with a line that cannot be pulled stays (R173, log 11). -/
def execResidencyEvict (ctx va : Nat) (s : State) : Outcome State Fault Refusal :=
  .next (
    match localLeaf s ctx va with
    | none => s
    | some (c, l) =>
      if pageState c l = 2 then
        if pagePullFails s c l then s else
        let t := mergeFrame s l.frame l.size
        let t := match localLeaf t ctx va with | some (c, l) => pullAll t c l | none => t
        pagesChanged s (writeEntry t l (fun e => e - 2 ^ 3)) ctx
      else if pageState c l = 3 then
        pagesChanged s (s.updCtx ctx (fun c => { c with residency := dropAssoc c.residency l.page })) ctx
      else s)

/-! ### Migration (R173, R174) -/

/-- A frame can take a page. -/
def frameFits (l : Leaf) (frame : Nat) : Bool := frame % l.size == 0 && inHbm (frame + l.size - 1) && !inCarve (frame + l.size - 1)

/-- A page of the module can leave its frame: it is present, and no line is left behind that cannot be pulled (R173, log 11). -/
def leavesFrame (s : State) (c : Ctx) (l : Leaf) : Bool := l.p && inHbm l.frame && !pagePullFails s c l

/-- A page moves to a new frame, every line still at the old one; an earlier move ends first. Accesses that have issued follow it. -/
def movePage (s : State) (ctx va frame : Nat) : State :=
  match localLeaf s ctx va with
  | none => s
  | some (c, l) =>
    if leavesFrame s c l && frameFits l frame && frame != l.frame then
      let s := mergeFrame s l.frame l.size
      let s := match localLeaf s ctx va with | some (c, l) => pullAll s c l | none => s
      let s := writeEntry (followPage s ctx l frame l.cow) l (fun e => e - l.frame + frame)
      s.updCtx ctx (fun c => { c with moves :=
        { page := l.page, size := l.size, oldFrame := l.frame, newFrame := frame, pulled := [] } :: c.moves.filter (fun m => m.page != l.page) })
    else s

/-- MIGRATION. -/
def execMigration (ctx va frame : Nat) (s : State) : Outcome State Fault Refusal := .next (movePage s ctx va frame)

/-- An address of the host's memory can take a page. -/
def hostFits (l : Leaf) (addr : Nat) : Bool := addr % 2 ^ 16 == 0 && decide (addr < 2 ^ 52) && addr % l.size == 0

/-- A page moves to its controlling host: its bytes are sent there and its leaf becomes a remote one. -/
def moveToHost (s : State) (ctx va addr : Nat) : State :=
  match localLeaf s ctx va with
  | none => s
  | some (c, l) =>
    if leavesFrame s c l && hostFits l addr then
      let t := mergeFrame s l.frame l.size
      let t := match localLeaf t ctx va with | some (c, l) => pullAll t c l | none => t
      let t := sendMessage t { to_ := c.host, kind := 1, bytes := natLe 8 addr ++ natLe l.size (Memory.readN t.mem l.frame l.size) }
      let off (b i : Nat) : Nat := if b / 2 ^ i % 2 = 1 then 2 ^ i else 0
      let t := writeEntry t l (fun e => e - l.frame + addr + 2 ^ 9 - off e 8 - off e 7)
      let t := t.updCtx ctx (fun c => settlePages s t c l.page l.size)
      pagesChanged s t ctx
    else s

/-- A page that stands at its controlling host moves to a frame of the device: its leaf becomes a local one. What the host's
memory holds is no part of this state, so the bytes are values the spec does not state here (log 43). -/
def moveFromHost (s : State) (c : Ctx) (l : Leaf) (frame : Nat) : State :=
  if frameFits l frame then
    let m := Memory.writeN s.mem frame l.size (Config.freeValue s.free % 256 ^ l.size)
    let t := clearBad { s with mem := m, free := s.free + 1 } frame l.size
    let t := writeEntry t l (fun e => e - l.frame + frame - 2 ^ 9 + (if l.p then 0 else 2 ^ 3))
    pagesChanged s (t.updCtx c.number (fun c => settlePages s t c l.page l.size)) c.number
  else s

/-- A request of an agent, 0 to 3 a die, 4 the host, moves the page: there is where to, and it is not there. -/
def requestMoves (s : State) (c : Ctx) (l : Leaf) (agent frame : Nat) : Bool :=
  if agent = 4 then !l.rem && leavesFrame s c l && hostFits l frame
  else frame / 2 ^ 36 / 3 == agent && frameFits l frame && (l.rem || (leavesFrame s c l && frame != l.frame))

/-- A request for a page is granted: the page moves toward the agent, a die that has no need of a remote mapping then. -/
def grantRequest (s : State) (c : Ctx) (l : Leaf) (agent va frame : Nat) : State :=
  let s := s.updCtx c.number (fun c => { c with farMaps := c.farMaps.filter (fun m => m != (l.page, agent)) })
  if agent = 4 then moveToHost s c.number va frame
  else if l.rem then moveFromHost s c l frame
  else movePage s c.number va frame

/-- The remote mapping that a losing request is answered with (R174). The host's is a message that names the page. A die gets
a mapping of its own, which stands beside the leaf until system software replaces the entry (DEDUCED, log 43). -/
def answerRequest (s : State) (c : Ctx) (l : Leaf) (agent : Nat) : State :=
  if agent = 4 then sendMessage s { to_ := c.host, kind := 8, bytes := natLe 8 l.page ++ natLe 8 l.size }
  else if c.farMaps.contains (l.page, agent) then s
  else s.updCtx c.number (fun c => { c with farMaps := (l.page, agent) :: c.farMaps })

/-- MIGRATION_REQUEST: the first request to reach the page's home that moves it wins and holds the page for 64 µs, in which every other
one is answered with a remote mapping (R174). -/
def execMigrationRequest (ctx va agent frame : Nat) (s : State) : Outcome State Fault Refusal :=
  .next (
    match s.ctx? ctx with
    | none => s
    | some c =>
      match leafOf s c va with
      | none => s
      | some l =>
        if agent > 4 || (l.rem && l.tgt != 0) || (!l.rem && !l.p) then s
        else if (assoc c.holds l.page).getD 0 > s.mod.clock then answerRequest s c l agent
        else if requestMoves s c l agent frame then
          grantRequest (s.updCtx ctx (fun c => { c with holds := setAssoc c.holds l.page (s.mod.clock + 38400) })) c l agent va frame
        else s)

/-! ### The swapping of blocks (R162, R197) -/

/-- A lane has waited on a monitor for the context's swap threshold. -/
def longWait (s : State) (c : Ctx) (x : Lane) : Bool :=
  match x.cond with
  | .waiting (.monitor _ _ _ _ _) _ since => decide (s.mod.clock ≥ since + 600 * c.swapUs)
  | _ => false

/-- The warps of a block. -/
def warpsOf (s : State) (block : Nat) : List Warp := s.warps.filter (fun w => w.block == some block)

/-- BLOCK_SWAP_OUT: a block with a run that waits past the threshold leaves its core; its scratchpad pages are unpinned. A
swap-out that fails ends the context, at an address the spec does not give (log 44). -/
def execBlockSwapOut (block : Nat) (ok : Bool) (s : State) : Outcome State Fault Refusal :=
  .next (
    match s.block? block with
    | none => s
    | some b =>
      match s.ctx? b.ctx with
      | none => s
      | some c =>
        let ws := warpsOf s block
        if b.state == .running && ctxRuns s b.ctx && ws.all (fun w => w.group.isEmpty)
            && ws.any (fun w => (lanesOf allLanes).any (fun l => longWait s c (w.lane l))) then
          if ok then
            { s.updBlock block (fun b => { b with state := .swapped, unpinned := List.range b.pages }) with
              warps := s.warps.map (fun w => if w.block == some block then { w with place := none } else w) }
          else endWith { s with free := s.free + 1 } b.ctx 0x38 (Config.freeValue s.free % 2 ^ 64) []
        else s)

/-- A monitor is registered afresh: an `any` wait ends, another where its condition holds (R197). -/
def restoreLane (s : State) (c : Ctx) (blk : Option Nat) (x : Lane) : Lane :=
  match x.cond with
  | .waiting (.monitor op addr size value _) next since =>
    if op ≥ 16 then x
    else
      { x with cond := .waiting (testedAt s c blk op addr size value
          (op % 8 == 6 || monitorHolds op size (wordNow s c blk addr size) value)) next since }
  | _ => x

/-- Every monitor of the warps that satisfy `p` is registered afresh. -/
def restoreMonitors (s : State) (p : Warp → Bool) : State :=
  { s with warps := s.warps.map (fun w =>
      if p w then
        match s.ctx? w.ctx with
        | some c => w.mapLanes allLanes (fun _ x => restoreLane s c w.block x)
        | none => w
      else w) }

/-- BLOCK_SWAP_IN: the block returns to its core where it fits, its warps taking the lowest free places. -/
def execBlockSwapIn (block : Nat) (s : State) : Outcome State Fault Refusal :=
  .next (
    match s.block? block with
    | none => s
    | some b =>
      match s.launch? b.launch with
      | none => s
      | some l =>
        if b.state == .swapped && ctxRuns s b.ctx && blockRoom s b.core l 1 then
          let ids := (warpsOf s block).map Warp.id
          let s := seatWarps b.core (s.updBlock block (fun b => { b with state := .running })) ids
          restoreMonitors s (fun w => w.block == some block)
        else s)

/-- The lanes of a warp that wait for a scratchpad page try again. -/
def refillLanes (block page : Nat) (w : Warp) : Warp :=
  let m := maskOf (fun l => (w.lane l).waits == some (.refill block page))
  joinWaits (w.mapLanes m (fun _ x => { x with cond := .ready }))

/-- SCRATCH_REFILL: a page of a block's scratchpad is refilled on its first access, or cannot be. -/
def execScratchRefill (block page : Nat) (ok : Bool) (s : State) : Outcome State Fault Refusal :=
  .next (
    match s.block? block with
    | none => s
    | some b =>
      if b.state == .running && ctxAwake s b.ctx && b.unpinned.contains page then
        if ok then
          { s.updBlock block (fun b => { b with unpinned := b.unpinned.erase page }) with
            warps := s.warps.map (fun w => if w.block == some block then refillLanes block page w else w) }
        else endWith s b.ctx 0x1E (scratchBase + 4096 * page) []
      else s)

end Sys2Proof.Machine
end

