-- ==== Sys2Proof/Machine/Suspend.lean ====
section
/-! DEFINITION. What happens to a context as a whole: causes delivered to it (R151), the hang detector (R250, R251),
pre-emption (R206, R275, R315, R316), its end by firmware. -/

namespace Sys2Proof.Machine

open Host (Outcome)

/-! ### Context-level causes (R151) -/

/-- Start a handler warp with handle 0 in each of several launches, as long as none of them ends the context with TRAP_STORM (R149). No
run started it, so that its accesses join no block's record (R337). -/
def startHandlers (s : State) (die : Nat) (words : List Nat) : List Launch → State
  | [] => s
  | l :: ls =>
    if ((s.ctx? l.ctx).map Ctx.live).getD false then startHandlers (startHandler s (handlerWarp s l 0 die none words)) die words ls
    else s

/-- A cause marked C is delivered: to a handler of each live launch that has one; where no live launch has one the context
ends; where no launch is live it is logged. -/
def contextCause (s : State) (ctx cause : Nat) (detail : List Nat) : State :=
  let words := recordWords cause 0 0 0#32 0#32 0 detail
  let live := s.launches.filter (fun l => l.ctx == ctx)
  let able := live.filter (fun l => l.rec_.trapEntry != 0)
  let die := (((enabledCores s.mod.snapshot).map dieOf).head?).getD 0
  if live.isEmpty then logEntry s ctx words
  else if able.isEmpty then endContext s ctx words
  else startHandlers s die words able

/-! ### The wait-for records (R251) -/

/-- A wait-for record before it is written: its place in the order, and its bytes. -/
structure WaitFor where
  core : Nat
  index : Nat
  pc : Nat
  bytes : List Nat
  deriving DecidableEq, Repr

/-- Lanes of participants of a barrier that have not arrived in a phase: lanes of running and swapped blocks that live, and
every lane of a block that has not started. -/
def notArrived (s : State) (b : Bar) (ph : Nat) : Nat :=
  let count (ws : List Warp) : Nat := (ws.map (fun w => ((lanesOf w.live).filter (fun l =>
    match (w.lane l).arrivalAt b.scope b.id with
    | some a => decide (a.phase < ph)
    | none => true)).length)).foldl (· + ·) 0
  if b.scope ≤ 1 then count (((barWarps s b)).getD [])
  else
    match s.launch? b.owner with
    | none => 0
    | some l =>
      let mine := l.members.filter (fun n => groupOf (b.scope + 1) l.rec_.levels n == b.group)
      let missing := mine.filter (fun n => !l.started.contains n)
      count ((s.blocks.filter (fun k => k.launch == l.id && mine.contains k.number)).flatMap (fun k => blockWarps s k.id))
        + missing.length * l.rec_.warps * l.rec_.lanes

/-- KIND and OBJECT of what a run waits for. A run held at a full counter is a counter wait with limit 62 there, one held at a
full relaunch queue or by the order of its own accesses a counter wait with no limit (log 45). -/
def waitObject (s : State) (w : Warp) (what : Wait) : Nat × Nat :=
  let limits (l : List Nat) : Nat := l.getD 0 0 + 2 ^ 6 * l.getD 1 0 + 2 ^ 12 * l.getD 2 0 + 2 ^ 18 * l.getD 3 0
  match what with
  | .barrier sc id ph _ =>
    let n :=
      match barOf s w sc id with
      | none => 0
      | some b =>
        if ph < b.phase then 0
        else if sc = 0 then
          (maskOf (fun l => inMask w.live l && (match (w.lane l).arrivalAt sc id with | some a => decide (a.phase < ph) | none => true))).toNat
        else notArrived s b ph
    (0, sc + 8 * id + 2 ^ 32 * (n % 2 ^ 32))
  | .monitor _ addr _ _ _ => (1, addr)
  | .counters _ l => (2, limits l)
  | .full k => (2, limits ((List.replicate 4 63).set k 62))
  | .relaunch => (2, limits (List.replicate 4 63))
  | .tags _ mask => (3, mask.toNat)
  | .pages [] => (2, limits (List.replicate 4 63))
  | .pages (va :: _) => (4, va)
  | .refill _ page => (5, scratchBase + 4096 * page)
  | .fetch va _ _ => (4, va)

/-- The 16 bytes of a record. -/
def waitBytes (core warp kind : Nat) (lanes : Mask) (object : Nat) : List Nat :=
  natLe 2 core ++ [warp % 256, kind] ++ natLe 4 lanes.toNat ++ natLe 8 object

/-- The records of a warp: one for each waiting run, or one for a warp that waits for a place. -/
def warpWaits (s : State) (w : Warp) : List WaitFor :=
  match w.place, w.block with
  | none, none =>
    [{ core := 0xFFFF, index := 0xFF, pc := (w.lane (leadOf w.live)).pc.toNat, bytes := waitBytes 0xFFFF 0xFF 6 w.live (w.die + 2 ^ 32 * w.alloc) }]
  | p, _ =>
    let core := (p.map Prod.fst).getD 0xFFFF
    let index := (p.map Prod.snd).getD w.number
    (splitByPc w 32 (maskOf (fun l => (w.lane l).isWaiting))).filterMap (fun m =>
      let x := w.lane (leadOf m)
      match x.waits with
      | none => none
      | some what =>
        let k := waitObject s w what
        some { core := core, index := index, pc := x.pc.toNat, bytes := waitBytes core index k.1 m k.2 })

/-- Order of the records. -/
def waitBefore (a b : WaitFor) : Bool :=
  decide (a.core < b.core) || (a.core == b.core && (decide (a.index < b.index) || (a.index == b.index && decide (a.pc < b.pc))))

/-- Insert a record behind those it does not precede. -/
def insertWait (x : WaitFor) : List WaitFor → List WaitFor
  | [] => [x]
  | y :: ys => if waitBefore x y then x :: y :: ys else y :: insertWait x ys

/-- HANG_DETECTED: no lane of the context has been ready for 2^H clocks, stopped by pre-emption or not; the records are written and the
cause delivered. -/
def execHangDetected (ctx : Nat) (s : State) : Outcome State Fault Refusal :=
  .next (
    match s.ctx? ctx with
    | none => s
    | some c =>
      let mine := s.warps.filter (fun w => w.ctx == ctx && w.live != 0#32)
      let ready := mine.any (fun w => (w.place.isSome || w.block.isSome) && w.readyLanes != 0#32)
      if c.live && !mine.isEmpty && !ready && decide (s.mod.clock ≥ c.hangSince + 2 ^ c.hangExp) then
        let all := (mine.flatMap (warpWaits s)).foldl (fun l x => insertWait x l) []
        let recs := all.take 2048
        let writes := recs.zipIdx.map (fun r => (c.trapBase + 0x8000 + 16 * r.2, r.1.bytes))
        let s := s.updCtx ctx (fun c => { c with hangSince := s.mod.clock })
        let s := deviceWrites s ctx (writes ++ [(c.trapBase + 0x48, natLe 8 recs.length)])
        contextCause s ctx 0x30 [recs.length]
      else s)

/-! ### Pre-emption (R315, R316) -/

/-- Every engine command of a context in progress stops at its unit boundary: its restart word is written (R273, R275). -/
def stopEngines (s : State) (ctx : Nat) : State :=
  let cmds := (s.warps.filter (fun w => w.ctx == ctx)).flatMap (fun w => w.ops.filterMap (fun o =>
    match o.kind with
    | .engine c => if o.state == .running && c.op != .ssbld && c.stalled.isNone && c.closing.isNone then some (w, o, c) else none
    | _ => none))
  cmds.foldl (fun s x =>
    let r := stopCommand s x.1 x.2.1.id x.2.2
    setCommand r.1 x.2.1 r.2.resumed) s

/-- A store, atomic, `cas` or reduction waits at a page that is not present, its own or that of a summary (R362). -/
def partHeld (s : State) (w : Warp) (o : Op) (p : Part) : Bool :=
  o.writes &&
  (match s.ctx? w.ctx with
   | none => false
   | some c =>
     match resolve s c w.block .write 1 p.va p.size with
     | .error _ => false
     | .ok pl => (match homeErr s c .store p.va p.size pl with | some (.wait _ _) => true | _ => false))

/-- The operation is an access of R206. -/
def Op.isAccess (o : Op) : Bool :=
  match o.kind with
  | .load _ _ _ _ _ _ => true
  | .store _ => true
  | .atomic _ _ => true
  | .cas _ _ => true
  | .reduce _ => true
  | .probe _ => true
  | .tex _ _ => true
  | .texq _ _ => true
  | _ => false

/-- A part left of an operation waits for nothing but operations of a list, which stay outstanding, and what its own lower lanes wait for
(R179, R183, R194, R208). -/
def behindHeld (s : State) (w : Warp) (held : List Nat) (o : Op) (p : Part) : Bool :=
  let v := { w with ops := w.ops.filter (fun q => !held.contains q.id) }
  let u := { o with parts := o.parts.filter (fun q => !partHeld s w o q) }
  !(orderOk s w o && partOk w o p) && orderOk s v o && partOk v u p

/-- A part that need not complete before its warp's state is saved (R206): it waits at a page (R362), or for an operation of the list
alone. -/
def partStays (s : State) (w : Warp) (held : List Nat) (o : Op) (p : Part) : Bool := partHeld s w o p || behindHeld s w held o p

/-- The parts of an operation that are not performed. -/
def Op.left (o : Op) : List Part := if o.state == .running then o.parts.filter (fun p => !p.done && p.refused.isNone) else []

/-- The operations of a warp that stay outstanding when its state is saved, as far as the first of a list tell: accesses that wait at
pages (R362), engine commands, which stop at a unit boundary (R275), and what is ordered behind one of them (DEDUCED, log 67). -/
def staysOut (s : State) (w : Warp) : List Nat → List Op → List Nat
  | held, [] => held
  | held, o :: os =>
    staysOut s w (if (o.isEngine && o.state == .running) || o.left.any (partStays s w held o) then o.id :: held else held) os

/-- An access that must complete before its warp's state is saved (R206). -/
def mustComplete (s : State) (w : Warp) (o : Op) : Bool :=
  o.isAccess && o.left.any (fun p => !partStays s w (staysOut s w [] w.ops) o p)

/-- Everything of a context is halted: its accesses are complete and every warp stands at an instruction boundary. -/
def haltedNow (s : State) (ctx : Nat) : Bool :=
  (s.warps.filter (fun w => w.ctx == ctx)).all (fun w => w.group.isEmpty && w.ops.all (fun o => !mustComplete s w o))

/-- The state of a context is saved: its scratchpad pages are unpinned, and the request completes. -/
def saveContext (s : State) (ctx host seq : Nat) : State :=
  let s := s.updCtx ctx (fun c => { c with preempt := .saved })
  let s := { s with blocks := s.blocks.map (fun b => if b.ctx == ctx then { b with unpinned := List.range b.pages } else b) }
  sendMessage s { to_ := host, kind := 0, bytes := completion 3 0 seq ctx [] }

/-- PIXEL_PREEMPT_DEADLINE: 1,200 clocks after the request the pixel warps still live are stopped; once every access has
completed the state is saved. A context number with bit 63 set says that the save area cannot be written: the context ends with
PREEMPT_SAVE_FAULT, at an address the spec does not give (log 67). -/
def execPixelPreemptDeadline (ctx : Nat) (s : State) : Outcome State Fault Refusal :=
  let n := ctx % 2 ^ 63
  .next (
    match s.ctx? n with
    | none => s
    | some c =>
      match c.preempt with
      | .stopping since host seq =>
        if c.live && decide (s.mod.clock ≥ since + 1200) && haltedNow s n then
          if ctx ≥ 2 ^ 63 then endWith { s with free := s.free + 1 } n 0x37 (Config.freeValue s.free % 2 ^ 64) []
          else saveContext s n host seq
        else s
      | _ => s)

/-- The places that the warps of a saved context keep (R23) are free: no warp that runs there has taken one since (DEDUCED, log 67). -/
def placesFree (s : State) (ctx : Nat) : Bool :=
  (s.warps.filter (fun w => w.ctx == ctx)).all (fun w =>
    s.warps.all (fun v => v.ctx == ctx || s.saved v.ctx || w.place.isNone || v.place != w.place))

/-- What a saved context holds on a core fits beside what runs there now: the partitions of its launches, and its warps in their
places. -/
def resumeRoom (s : State) (ctx : Nat) : Bool :=
  let mine := s.launches.filter (fun l => l.ctx == ctx)
  placesFree s ctx && (List.range 256).all (fun core =>
    let held (l : Launch) : Bool :=
      s.warps.any (fun w => w.launch == l.id && w.core? == some core) || s.blocks.any (fun b => b.launch == l.id && b.core == core && b.state == .running)
    let back := mine.filter held
    back.isEmpty ||
      (decide ((((s.launches.filter (fun k => k.ctx != ctx && launchOn s core k.id)) ++ back).map (fun l => l.rec_.granules)).foldl (· + ·) 0 ≤ 256)
        && decide ((coreWarps s core).length + (s.warps.filter (fun w => w.ctx == ctx && w.core? == some core)).length ≤ 64)))

/-- A context runs again (R316, R197): its warps go on in their places (R23), its monitors are registered afresh, its bins' timers start
anew. -/
def resumeContext (s : State) (ctx : Nat) : State :=
  let s := s.updCtx ctx (fun c => { c with preempt := .running })
  let s := { s with bins := s.bins.map (fun b => if b.ctx == ctx then { b with since := s.mod.clock } else b) }
  restoreMonitors s (fun w => w.ctx == ctx)

/-! ### The end of a context by firmware -/

/-- CONTEXT_TIMEOUT: scheduler firmware ends a context that has used up its time (R150). -/
def execContextTimeout (ctx : Nat) (s : State) : Outcome State Fault Refusal := .next (endWith s ctx 0x3E 0 [])

/-- CONTEXT_WIPE: Boxwood wipes a context (R357). -/
def execContextWipe (ctx : Nat) (s : State) : Outcome State Fault Refusal := .next (endWith s ctx 0x57 0 [])

end Sys2Proof.Machine
end

