-- ==== Sys2Proof/Machine/Remote.lean ====
section
/-! DEFINITION. Accesses to the memory of hosts and peers after they were issued (R352, R353), the ports (R347), and what
hosts and peers do to exposed regions (R221, R350, R351). -/

namespace Sys2Proof.Machine

open Host (Outcome)

/-! ### Remote accesses of warps (R352) -/

/-- A request that stands at the ports. -/
def remoteOf (s : State) (req : Nat) : Option RemoteReq := s.mod.remotes.find? (fun r => r.id == req)

/-- The request is over. -/
def dropRemote (s : State) (req : Nat) : State :=
  { s with mod := { s.mod with remotes := s.mod.remotes.filter (fun r => r.id != req) } }

/-- The operation and part a request belongs to. -/
def remotePart (s : State) (r : RemoteReq) : Option (Warp × Op × Part) :=
  match s.op? r.op with
  | none => none
  | some (w, o) => (o.parts.find? (fun p => p.lane == r.lane)).map (fun p => (w, o, p))

/-- The lanes of a warp that wait for the word at an address. -/
def fetchLanes (w : Warp) (va : Nat) : Mask :=
  maskOf (fun l => match (w.lane l).waits with | some (.fetch a _ _) => a == va | _ => false)

/-- The word a run waits for cannot be brought: the run traps where it stands (R176, R352). -/
def fetchFails (s : State) (w : Warp) (r : RemoteReq) (cause : Nat) (detail : List Nat) : State :=
  let m := fetchLanes w r.va
  if m = 0#32 then s else takeTrap s w.id m ((w.lane (leadOf m)).pc) m cause (reportAddr cause r.va) detail

/-- What a request that fails does to the build, the warp or the operation it was made for, where it is no lane's own access
(R352). -/
def userFails (s : State) (r : RemoteReq) (cause : Nat) (detail : List Nat) : State :=
  match s.builds.find? (fun b => b.user == r.op) with
  | some b => buildLost s b (remoteFault cause r.va detail)
  | none =>
    match s.warp? r.op, s.op? r.op with
    | some w, _ => fetchFails s w r cause detail
    | none, none => s
    | none, some (w, o) =>
      match o.kind with
      | .engine c =>
        let t := settleCommand s w o.id c
        failCommand (stopCommand t.1 w o.id t.2) o (remoteFault cause r.va detail)
      | .enq _ _ _ _ => enqLost s o r.va (cause, detail)
      | _ =>
        match o.parts.find? (fun p => p.lane == r.lane) with
        | none => s
        | some p =>
          if o.kind == .spawn then putPart s o.id (p.refuse cause detail)
          else setPart s o.id { p with refused := some cause, va := r.va, args := detail }

/-- A configured region. -/
def regionOf (s : State) (i : Nat) : Option Region := s.mod.regions.find? (fun r => r.index == i)

/-- A region changed. -/
def updRegion (s : State) (i : Nat) (f : Region → Region) : State :=
  { s with mod := { s.mod with regions := updFirst (fun r => r.index == i) f s.mod.regions } }

/-- The completion of an inbound request. -/
def answer (s : State) (host status : Nat) (results : List Nat) : State :=
  sendMessage s { to_ := host, kind := 6, bytes := natLe 2 status ++ results }

/-- Count a request against the region's rate. -/
def countRate (s : State) (i : Nat) : State :=
  updRegion s i (fun r => if s.mod.clock ≥ r.window + 600 then { r with window := s.mod.clock, count := 1 } else { r with count := r.count + 1 })

/-- An inbound request that waits at a region, by its number. -/
def inboundOf (s : State) (n : Nat) : Option (Region × Inbound) :=
  s.mod.regions.findSome? (fun r => (r.queue.find? (fun q => q.order == n)).map (fun q => (r, q)))

/-- A waiting request leaves its region, and what it has not sent leaves the ports. -/
def inboundLeaves (s : State) (i n : Nat) : State :=
  let s := updRegion s i (fun r => { r with queue := r.queue.filter (fun q => q.order != n) })
  { s with mod := { s.mod with remotes := s.mod.remotes.filter (fun r => r.op != n || (r.write && r.sentAt.isSome)) } }

/-- The status of an inbound access that a remote target has refused: the target's own, or 3 where it gave none (DESIGN CHOICE, log
46). -/
def farStatus (cause : Nat) (detail : List Nat) : Nat :=
  if cause = 0x40 ∨ cause = 0x46 ∨ cause = 0x49 ∨ cause = 0x4D then detail.headD 3 else 3

/-- The access of a request is refused with a cause: an inbound one is answered. -/
def refuseRemote (s : State) (r : RemoteReq) (cause : Nat) (detail : List Nat) : State :=
  match inboundOf s r.op with
  | some (g, q) => countRate (answer (inboundLeaves s g.index q.order) q.host (farStatus cause detail) []) g.index
  | none =>
    if r.fill = 0 then
      match remotePart s r with
      | none => s
      | some (_, o, p) => setPart s o.id { p with refused := some cause, args := detail }
    else userFails s r cause detail

/-- The bytes that were asked for are kept for who asked; a run that waits for its word tries again (R176). -/
def bringBytes (s : State) (r : RemoteReq) (data : List Nat) : State :=
  let bytes := (List.range r.fill).map (fun i => data.getD i 0)
  let s := { s with mod := { s.mod with
    brought := s.mod.brought ++ [{ user := r.op, peer := r.peer, addr := r.addr, bytes := bytes : Brought }] } }
  match s.warp? r.op with
  | none => s
  | some w => s.setWarp (joinWaits (w.mapLanes (fetchLanes w r.va) (fun _ x => { x with cond := .ready })))

/-- The bytes of an access arrive. -/
def deliverRemote (s : State) (r : RemoteReq) (data : List Nat) : State :=
  if r.fill = 0 then
    match remotePart s r with
    | none => s
    | some (w, o, p) =>
      let v := leNat (data.take p.size)
      let s := if o.kind == .emit then acceptValue s w p.lane v else s
      setPart s o.id { p with done := true, got := v, present := true }
  else bringBytes s r data

/-- The cause of a completion status, and the detail: 1 to 5 by R351, 0x100 a failed integrity check, else a transport
error (log 46). -/
def statusCause (status : Nat) : Nat × List Nat :=
  if status = 1 then (0x49, [1])
  else if status = 2 then (0x46, [2])
  else if status = 3 then (0x40, [3])
  else if status = 4 then (0x4D, [4])
  else if status = 5 then (0x40, [5])
  else if status = 0x100 then (0x4C, [])
  else (0x4B, [status])

/-- A write that has been sent fails later (R353): the log has an entry, and the warp's next fabric-scope fence will trap. -/
def lateFailure (s : State) (r : RemoteReq) (cause : Nat) (detail : List Nat) : State :=
  let f : OpFault := { cause := cause, lanes := oneLane r.lane, addr := r.va, detail := detail }
  let s := logFault (dropRemote s r.id) r.ctx 0 0#32 f
  s.updWarp r.warp (fun w => { w with lateFaults := w.lateFaults ++ [f] })

/-- A write fails: a store of a lane's own late (R353), with the cause and detail given first, another with its operation. -/
def writeFails (s : State) (r : RemoteReq) (late : Nat × List Nat) (cause : Nat × List Nat) : State :=
  if r.fill = 0 then lateFailure s r late.1 late.2 else refuseRemote (dropRemote s r.id) r cause.1 cause.2

/-- REMOTE_COMPLETION: a request that was sent is answered. -/
def execRemoteCompletion (req status : Nat) (data : List Nat) (s : State) : Outcome State Fault Refusal :=
  .next (
    match remoteOf s req with
    | none => s
    | some r =>
      if r.sentAt.isNone then s
      else if r.write then (if status = 0 then dropRemote s req else writeFails s r (0x42, [status]) (statusCause status))
      else if status = 0 then deliverRemote (dropRemote s req) r data
      else refuseRemote (dropRemote s req) r (statusCause status).1 (statusCause status).2)

/-- REMOTE_TIMEOUT: 2 ms have passed since the request was first sent. -/
def execRemoteTimeout (req : Nat) (s : State) : Outcome State Fault Refusal :=
  .next (
    match remoteOf s req with
    | none => s
    | some r =>
      match r.sentAt with
      | none => s
      | some t =>
        if s.mod.clock < t + 1200000 then s
        else if r.write then writeFails s r (0x43, [0]) (0x41, [])
        else refuseRemote (dropRemote s req) r 0x41 [])

/-- REMOTE_STORE_FAILURE: a write that was sent is answered with a failure. -/
def execRemoteStoreFailure (req status : Nat) (s : State) : Outcome State Fault Refusal :=
  .next (
    match remoteOf s req with
    | none => s
    | some r =>
      if r.write && r.sentAt.isSome && status != 0 then writeFails s r (0x42, [status]) (statusCause status) else s)

/-- One request of a peer that is reset. -/
def resetOne (s : State) (r : RemoteReq) : State :=
  if r.write then writeFails s r (0x42, [0]) (0x4A, []) else refuseRemote (dropRemote s r.id) r 0x4A []

/-- The endpoint a request goes to. -/
def requestEnd (s : State) (r : RemoteReq) : Option Nat := (s.ctx? r.ctx).map (fun c => endpoint c r.peer)

/-- PEER_RESET: every request that was sent to the endpoint, a host or 2^32 + a peer module, and not answered fails. -/
def execPeerReset (peer : Nat) (s : State) : Outcome State Fault Refusal :=
  .next ((s.mod.remotes.filter (fun r => requestEnd s r == some peer && r.sentAt.isSome)).foldl resetOne s)

/-- A held request is sent through a port. -/
def sendHeld (s : State) (c : Ctx) (r : RemoteReq) (port : Nat) : State :=
  let rs := updFirst (fun x => x.id == r.id) (fun x => { x with sentAt := some s.mod.clock, port := port }) s.mod.remotes
  let s := transmit { s with mod := { s.mod with remotes := rs } } c { r with port := port }
  if r.fill = 0 && r.write then
    match remotePart s r with
    | none => s
    | some (_, o, p) => setPart s o.id { p with done := true }
  else s

/-- EGRESS_RATE_RELEASE: the first request that a context holds for rate at a port is sent where the port's rate has room
again. -/
def execEgressRateRelease (req : Nat) (s : State) : Outcome State Fault Refusal :=
  .next (
    match remoteOf s req with
    | none => s
    | some r =>
      let earlier := (s.mod.remotes.takeWhile (fun x => x.id != req)).any (fun x => x.ctx == r.ctx && x.port == r.port && x.sentAt.isNone)
      match s.ctx? r.ctx with
      | none => s
      | some c =>
        if r.sentAt.isSome || earlier then s
        else
          match choosePort s c with
          | .error port => refuseRemote (dropRemote s req) r 0x45 [port]
          | .ok port => if portCount s r.ctx port < c.egressRates.getD port 0 then sendHeld s c r port else s)

/-! ### The ports (R347) -/

/-- LINK_DOWN: a port can no longer be used. -/
def execLinkDown (port : Nat) (s : State) : Outcome State Fault Refusal :=
  .next { s with mod := { s.mod with portsUp := s.mod.portsUp &&& ~~~ (1#16 <<< port) } }

/-- LINK_UP: a port can be used again. -/
def execLinkUp (port : Nat) (s : State) : Outcome State Fault Refusal :=
  .next { s with mod := { s.mod with portsUp := s.mod.portsUp ||| (1#16 <<< port) } }

/-- CONNECTION_SETUP: 0 reliable ordered and 1 reliable unordered are accepted; other kinds of delivery are refused. -/
def execConnectionSetup (peer kind : Nat) (s : State) : Outcome State Fault Refusal :=
  .next (if kind ≤ 1 then { s with mod := { s.mod with connections := s.mod.connections ++ [(peer, kind)] } } else s)

/-! ### Exposed regions (R350, R351) -/

/-- The bytes a request reaches. -/
def Inbound.size (q : Inbound) : Nat := if q.kind = 0 then q.values.length else if q.kind = 1 then q.values.headD 0 else 8

/-- The first three checks of R351: the status of the failure. -/
def regionRefuses (s : State) (r : Option Region) (q : Inbound) : Option Nat :=
  match r with
  | none => some 1
  | some r =>
    if r.key ≠ q.key then some 1
    else if !bitAt r.perm (if q.kind = 0 then 1 else if q.kind = 1 then 0 else 2) || decide (q.addr + q.size > r.length)
        || (decide (q.kind ≥ 2) && (r.vbase + q.addr) % 8 != 0) then some 2
    else if !((s.ctx? r.ctx).map Ctx.live).getD false then some 4
    else none

/-- Perform an inbound atomic: the old value. -/
def inboundAtomic (s : State) (ctx va : Nat) (f : Nat → Option Nat) : Except AccErr (Nat × State) :=
  match s.ctx? ctx with
  | none => .error (.trap 0x11 va [2])
  | some c =>
    match resolve s c none .atomic 2 va 8 with
    | .error e => .error e
    | .ok ⟨.absent, some l⟩ => .error (absentErr c l va)
    | .ok _ =>
      match readChunk s c none 2 va 8 with
      | .error e => .error e
      | .ok (old, s) =>
        match f old with
        | none => .ok (old, s)
        | some v =>
          match writeMem s ctx none 2 va (natLe 8 v) with
          | .error e => .error e
          | .ok s => .ok (old, s)

/-- The kind of access an inbound request is. -/
def Inbound.access (q : Inbound) : Access := if q.kind = 0 then .write else if q.kind = 1 then .read else .atomic

/-- The first refusal of translation among the pages a request reaches, before its data is looked at (R351); a page that is not
resident counts where nothing else is refused. A page with REM = 1 is none: the access is carried to its target (R176). -/
def inboundJudge (s : State) (c : Ctx) (q : Inbound) : List (Nat × Nat) → Option AccErr
  | [] => none
  | (va, n) :: ps =>
    let rest := inboundJudge s c q ps
    let hard (e : AccErr) : Bool := match e with | .wait _ _ => false | _ => true
    match resolve s c none q.access (if q.kind = 0 then 1 else if q.kind = 1 then 0 else 2) va n with
    | .error e => some e
    | .ok p =>
      match p.leaf with
      | none => rest
      | some l =>
        if l.p || l.rem then rest
        else
          let e := absentErr c l va
          if hard e then some e
          else match rest with
            | some f => if hard f then some f else some e
            | none => some e

/-- Why an inbound request cannot be performed, before any of it is (R351). -/
def inboundBarred (s : State) (c : Ctx) (va : Nat) (q : Inbound) : Option AccErr :=
  match windowErr 0 va q.size with
  | some e => some e
  | none => inboundJudge s c q (pagePieces (q.size + 1) va q.size)

/-- Perform an inbound request on pages of the module: its result bytes. An aligned write of eight bytes to a kick
register is a kick (R155, R248), and an aligned read of eight at K returns T, as a warp's load would (DESIGN CHOICE, log 46: R155
names warps' loads alone); a register of the I/O die gives a value the spec does not state (log 18). -/
def inboundAccess (s : State) (ctx va : Nat) (q : Inbound) : Except AccErr (List Nat × State) :=
  let old (r : Except AccErr (Nat × State)) : Except AccErr (List Nat × State) :=
    match r with
    | .error e => .error e
    | .ok (v, s) => .ok (natLe 8 v, s)
  let word := (q.size = 4 || q.size = 8) && va % q.size == 0
  match q.kind with
  | 0 =>
    (match deviceStore s ctx va q.values with
     | .ok s => .ok ([], s)
     | .error (.io a) => if word then .ok ([], s) else .error (.io a)
     | .error e => .error e)
  | 1 =>
    (match (if q.size = 8 && word then (s.ctx? ctx).map (fun c => resolve s c none .read 0 va 8) else none) with
     | some (.ok ⟨.kick c k, _⟩) => .ok (natLe 8 (queueTail s c k), s)
     | _ =>
       match readMem s ctx none 0 va q.size with
       | .error (.io a) =>
         if word then .ok (natLe q.size (Config.freeValue s.free), { s with free := s.free + 1 }) else .error (.io a)
       | r => r)
  | 2 => old (inboundAtomic s ctx va (fun v => some (AtomFn.add64.apply v (q.values.headD 0 % 2 ^ 64))))
  | 3 => old (inboundAtomic s ctx va (fun _ => some (q.values.headD 0 % 2 ^ 64)))
  | _ => old (inboundAtomic s ctx va (fun v => if v = q.values.headD 0 % 2 ^ 64 then some (q.values.getD 1 0 % 2 ^ 64) else none))

/-- What an inbound access that is not performed comes to: it waits for its page (none), or is answered. -/
def inboundRefused (s : State) (ctx : Nat) (e : AccErr) : Nat × State :=
  match e with
  | .walk a => (3, endWith s ctx 0x17 a [])
  | .kick a slot => (4, endWith s ctx 0x4E a [slot])
  | .bad _ _ _ => (5, s)
  | _ => (3, s)

/-- The pieces of a request that lie on pages with REM = 1: the address and size of each, its target and the address there. -/
def farPieces (s : State) (c : Ctx) (q : Inbound) (ps : List (Nat × Nat)) : List (Nat × Nat × Nat × Nat) :=
  ps.filterMap (fun p =>
    match resolve s c none q.access 0 p.1 p.2 with
    | .ok ⟨.remote peer addr, _⟩ => some (p.1, p.2, peer, addr)
    | _ => none)

/-- What a write or an atomic carries to a remote target, of the `n` bytes from place `o` of the request on. -/
def farCarried (q : Inbound) (o n : Nat) : Carried :=
  match q.kind with
  | 0 => { kind := 1, write := true, bytes := (q.values.drop o).take n }
  | 2 => { kind := 3, write := false, bytes := natLe 8 (q.values.headD 0) }
  | 3 => { kind := 4, write := false, bytes := natLe 8 (q.values.headD 0) }
  | _ => { kind := 5, write := false, bytes := natLe 8 (q.values.headD 0) ++ natLe 8 (q.values.getD 1 0) }

/-- The pieces of a write or an atomic in order: those of the module are stored, the others handed to the ports. -/
def farPuts (c : Ctx) (q : Inbound) (base : Nat) (far : List (Nat × Nat × Nat × Nat)) : State → List (Nat × Nat) → Except (State × Nat) State
  | s, [] => .ok s
  | s, (va, n) :: ps =>
    match far.find? (fun f => f.1 == va) with
    | some (_, _, peer, addr) =>
      let m := farCarried q (va - base) n
      (match submit s c {
          id := 0, ctx := c.number, warp := 0, launch := 0, op := q.order, lane := 0, peer := peer, addr := addr, va := va
          write := m.write, fill := if m.write then 0 else 8, kind := m.kind, bytes := m.bytes, port := 0, sentAt := none } with
       | .ok (s, _) => farPuts c q base far s ps
       | .error _ => .error (s, 3))
    | none =>
      match deviceStore s c.number va ((q.values.drop (va - base)).take n) with
      | .ok s => farPuts c q base far s ps
      | .error e => .error ((inboundRefused s c.number e).2, (inboundRefused s c.number e).1)

/-- Serve a request of which a part is carried to a remote target (R176): a read is answered when its bytes have come, an atomic
when its old value has, a write when it is sent, as a warp's store retires (R353). -/
def serveFar (s : State) (c : Ctx) (va : Nat) (q : Inbound) : Except (State × Inbound) State :=
  let pieces := pagePieces (q.size + 1) va q.size
  if q.kind = 1 then
    match readMem (asReader s q.order) c.number none 0 va q.size with
    | .ok (b, s) => .ok (answer (dropBrought s q.order) q.host 0 b)
    | .error (.wait _ page) => .error (requestPage s c.number page, q)
    | .error (.remote a peer addr n) =>
      (match askRemote s c 0 q.order 0 a peer addr n with
       | .ok s => .error (s, q)
       | .error _ => .ok (answer s q.host 3 []))
    | .error e => .ok (answer (inboundRefused s c.number e).2 q.host (inboundRefused s c.number e).1 [])
  else if !q.sent then
    match farPuts c q va (farPieces s c q pieces) s pieces with
    | .ok s => .error (s, { q with sent := true })
    | .error (s, status) => .ok (answer s q.host status [])
  else if q.kind = 0 then
    if s.mod.remotes.any (fun r => r.op == q.order && r.sentAt.isNone) then .error (s, q) else .ok (answer s q.host 0 [])
  else
    match s.mod.brought.find? (fun b => b.user == q.order) with
    | some b => .ok (answer (dropBrought s q.order) q.host 0 b.bytes)
    | none => .error (s, q)

/-- Serve a request that its rate allows: `.error` where it waits for its page, which is requested, or for a remote target. -/
def serveInbound (s : State) (i : Nat) (q : Inbound) : Except (State × Inbound) State :=
  match (if q.sent then none else regionRefuses s (regionOf s i) q), regionOf s i with
  | some status, _ => .ok (answer s q.host status [])
  | none, none => .ok (answer s q.host 1 [])
  | none, some r =>
    match (s.ctx? r.ctx).filter Ctx.live with
    | none => .ok (answer s q.host 4 [])
    | some c =>
      let va := r.vbase + q.addr
      let refused (e : AccErr) : Except (State × Inbound) State :=
        match e with
        | .wait _ page => .error (requestPage s r.ctx page, q)
        | e => .ok (answer (inboundRefused s r.ctx e).2 q.host (inboundRefused s r.ctx e).1 [])
      if q.sent then serveFar s c va q
      else
        match inboundBarred s c va q with
        | some e => refused e
        | none =>
          if !(farPieces s c q (pagePieces (q.size + 1) va q.size)).isEmpty then serveFar s c va q
          else
            match inboundAccess s r.ctx va q with
            | .ok (b, s) => .ok (answer s q.host 0 b)
            | .error e => refused e

/-- The region's rate allows a request now. -/
def rateAllows (s : State) (r : Region) : Bool := r.rate == 0 || decide (s.mod.clock ≥ r.window + 600) || decide (r.count < r.rate)

/-- A request is dropped and counted; the context takes INBOUND_OVERRUN at most once per 100 µs. -/
def dropInbound (s : State) (ctx : Nat) : State :=
  match s.ctx? ctx with
  | none => s
  | some c =>
    if (c.droppedTrap.map (fun t => decide (s.mod.clock ≥ t + 60000))).getD true then
      contextCause (s.updCtx ctx (fun c => { c with dropped := 0, droppedTrap := some s.mod.clock })) ctx 0x4F [c.dropped + 1]
    else s.updCtx ctx (fun c => { c with dropped := c.dropped + 1 })

/-- Requests that wait for a region's rate. -/
def Region.late (r : Region) : Nat := (r.queue.filter (fun q => !q.held)).length

/-- A request waits at its region. -/
def enqueueInbound (s : State) (i : Nat) (q : Inbound) : State := updRegion s i (fun r => { r with queue := r.queue ++ [q] })

/-- A request waits in its region's queue for rate, or is dropped where that is full. -/
def queueInbound (s : State) (r : Region) (q : Inbound) : State :=
  if r.late ≥ 4096 then dropInbound s r.ctx else enqueueInbound s r.index q

/-- An earlier write of the same ordered stream waits (R221). -/
def streamBlocked (s : State) (q : Inbound) : Bool :=
  q.kind == 0 && q.stream != 0 &&
    s.mod.regions.any (fun r => r.queue.any (fun x => x.kind == 0 && x.host == q.host && x.stream == q.stream && decide (x.order < q.order)))

/-- An inbound request arrives. Its address names the region and the offset, 2^64 × region + offset; its initiator number has the
stream in bits 31:16, 0 for an unordered one (log 46). One whose page is not resident, that a remote target has to answer, or that an earlier write of its
stream holds, waits at the region. -/
def arriveInbound (s : State) (host kind key addr : Nat) (values : List Nat) : State :=
  let i := addr / 2 ^ 64
  let stream := host / 2 ^ 16 % 2 ^ 16
  let q : Inbound := {
    host := host - 2 ^ 16 * stream, stream := stream, kind := kind, key := key, addr := addr % 2 ^ 64, values := values
    order := s.nextId, held := false, sent := false }
  match regionRefuses s (regionOf s i) q, regionOf s i with
  | none, some r =>
    let s := { s with nextId := s.nextId + 1 }
    if rateAllows s r && r.late == 0 then
      if streamBlocked s q then enqueueInbound s i { q with held := true }
      else
        match serveInbound s i q with
        | .ok s => countRate s i
        | .error (s, q) => enqueueInbound s i { q with held := true }
    else queueInbound s r q
  | some status, _ => answer s q.host status []
  | none, none => answer s q.host 1 []

/-- INBOUND_RMA_WRITE. -/
def execInboundRmaWrite (host key addr : Nat) (data : List Nat) (s : State) : Outcome State Fault Refusal :=
  .next (arriveInbound s host 0 key addr data)

/-- INBOUND_RMA_READ. -/
def execInboundRmaRead (host key addr len : Nat) (s : State) : Outcome State Fault Refusal :=
  .next (arriveInbound s host 1 key addr [len])

/-- INBOUND_FETCH_ADD: as `m.atom.add.s64`. -/
def execInboundFetchAdd (host key addr value : Nat) (s : State) : Outcome State Fault Refusal :=
  .next (arriveInbound s host 2 key addr [value])

/-- INBOUND_SWAP: as `m.atom.exch.b64`. -/
def execInboundSwap (host key addr value : Nat) (s : State) : Outcome State Fault Refusal :=
  .next (arriveInbound s host 3 key addr [value])

/-- INBOUND_CAS: as `m.cas.b64`. -/
def execInboundCas (host key addr expect value : Nat) (s : State) : Outcome State Fault Refusal :=
  .next (arriveInbound s host 4 key addr [expect, value])

/-- INBOUND_RATE_RELEASE: a request that waits at a region, by its place in the queue, is served; writes of one ordered stream
keep their order, others none (R221). -/
def execInboundRateRelease (region place : Nat) (s : State) : Outcome State Fault Refusal :=
  .next (
    match regionOf s region with
    | none => s
    | some r =>
      match r.queue[place]? with
      | none => s
      | some q =>
        if rateAllows s r && !streamBlocked s q then
          match serveInbound s region q with
          | .ok s => countRate (updRegion s region (fun r => { r with queue := r.queue.eraseIdx place })) region
          | .error (s, q) => updRegion s region (fun r => { r with queue := r.queue.modify place (fun _ => { q with held := true }) })
        else s)

end Sys2Proof.Machine
end

