-- ==== Sys2Proof/Machine/Management.lean ====
section
/-! DEFINITION. The management endpoint (R348, R349): contexts, regions, stamps, parts, firmware, attestation, power, debug;
the presence of hosts (R354) and the heartbeats of the scheduler cores (R357). -/

namespace Sys2Proof.Machine

open Host (Outcome)

/-! ### Requests and their completions (R349) -/

/-- A request message, read. -/
structure Request where
  host : Nat
  op : Nat
  seq : Nat
  ctx : Nat
  length : Nat
  /-- the head is as it must be: nothing reserved set, as many argument bytes as LENGTH says -/
  whole : Bool
  args : List Nat
  deriving DecidableEq, Repr

/-- Read a message. -/
def requestOf (host : Nat) (msg : List Nat) : Request where
  host := host
  op := fieldAt msg 0 2
  seq := fieldAt msg 4 4
  ctx := fieldAt msg 8 4
  length := fieldAt msg 12 4
  whole := fieldAt msg 2 2 == 0 && msg.length == 16 + fieldAt msg 12 4
  args := msg.drop 16

/-- A field of the arguments. -/
def Request.field (q : Request) (at_ n : Nat) : Nat := fieldAt q.args at_ n

/-- The completion of a request. -/
def reply (s : State) (q : Request) (status : Nat) (results : List Nat) : State :=
  sendMessage s { to_ := q.host, kind := 0, bytes := completion q.op status q.seq q.ctx results }

/-- A context that a request may name: live, and controlled by its sender. -/
def controls (s : State) (host ctx : Nat) : Bool := ((s.ctx? ctx).map (fun c => c.live && c.host == host)).getD false

/-- Serve a request of an operation: `ok` are the limits of its arguments; `named` says that it names a context, or else must
carry none. Operations other than FIRMWARE_PUSH and ATTEST need the scheduler firmware released. -/
def serve (s : State) (host : Nat) (msg : List Nat) (op : Nat) (named : Option Bool) (ok : Request → Bool)
    (body : Request → State) : State :=
  let q := requestOf host msg
  if q.op ≠ op then s
  else if op ≠ 0x0A ∧ op ≠ 0x0B ∧ s.mod.released = false then reply s q 0xFF []
  else if !q.whole || !ok q || (named == some false && q.ctx != 0xFFFFFFFF) then reply s q 3 []
  else if named == some true && !controls s host q.ctx then reply s q 4 []
  else body q

/-! ### Contexts (R228, R348) -/

/-- Limits of CONTEXT_CREATE's arguments. -/
def createOk (q : Request) : Bool :=
  let n := q.field 24 4
  q.length == 184 && q.field 0 8 % 4096 == 0 && q.field 8 8 % 65536 == 0 && decide (16 ≤ n) && decide (n ≤ 65536)
    && 2 ^ Nat.log2 n == n && q.field 16 8 % (64 * n) == 0 && q.field 28 4 == 0 && q.field 32 8 % 8 == 0 && q.field 40 8 % 8 == 0
    && (List.range 4).all (fun d => q.field (48 + 8 * d) 8 % 64 == 0) && decide (12 ≤ q.field 80 4) && decide (q.field 80 4 ≤ 24)
    && q.field 84 4 == 0 && decide (q.args.getD 119 0 < 128)

/-- A new context (R228, R267, R334, R363). -/
def newCtx (number : Nat) (q : Request) (clock : Nat) : Ctx where
  number := number
  live := true
  host := q.host
  root := q.field 0 8
  trapBase := q.field 8 8
  logCount := 0
  queues := [{ number := 0, ring := q.field 16 8, size := q.field 24 4, wAddr := q.field 32 8, rAddr := q.field 40 8
               read := 0, tail := 0, stalled := false, taking := none, key := 0 }]
  slots := []
  ringBase := (List.range 4).map (fun d => q.field (48 + 8 * d) 8)
  ringLog := q.field 80 4
  spilled := []
  spawnTimer := 1024
  hangExp := 24
  swapUs := 50
  tensors := []
  tagsClear := []
  generation := 0
  stamps := []
  traced := []
  tracedRunning := 0
  lastHandle := 0
  residency := []
  moves := []
  holds := []
  farMaps := []
  stepping := false
  watches := List.replicate 4 (0, 0)
  preempt := .running
  egressTargets := BitVec.ofNat 256 (q.field 88 32)
  egressRates := (List.range 16).map (fun p => q.field (120 + 4 * p) 4)
  hangSince := clock
  dropped := 0
  droppedTrap := none
  pendingWrites := []

/-- The number of a new context: the lowest never used, else the lowest whose context has ended. -/
def newNumber (s : State) : Option Nat :=
  match (List.range 1024).find? (fun n => (s.ctx? n).isNone) with
  | some n => some n
  | none => (List.range 1024).find? (fun n => ((s.ctx? n).map (fun c => !c.live)).getD false)

/-- A host is known to be present from now on (R354). -/
def noteHost (s : State) (host : Nat) : State := { s with mod := { s.mod with hosts := setAssoc s.mod.hosts host s.mod.clock } }

/-- CONTEXT_CREATE: the end record and the counts of the new context's trap area are zero (R229). A host that controlled no context
before is taken as present from now on (R354). -/
def execContextCreate (host : Nat) (msg : List Nat) (s : State) : Outcome State Fault Refusal :=
  .next (serve s host msg 0x01 none createOk (fun q =>
    match newNumber s with
    | none => reply s q 5 []
    | some n =>
      let c := newCtx n q s.mod.clock
      let controlling := s.ctxs.any (fun x => x.live && x.host == host)
      let s := { s with ctxs := s.ctxs.filter (fun x => x.number != n) ++ [c] }
      let s := if controlling then s else noteHost s host
      reply (deviceWrites s n [(c.trapBase, List.replicate 4096 0)]) { q with ctx := n } 0 []))

/-- CONTEXT_DESTROY. -/
def execContextDestroy (host : Nat) (msg : List Nat) (s : State) : Outcome State Fault Refusal :=
  .next (serve s host msg 0x02 (some true) (fun q => q.length == 0) (fun q => reply (endWith s q.ctx 0x3D 0 []) q 0 []))

/-- PREEMPT: the context's warps stop issuing, its engines stop; the request completes once the state is saved. -/
def execPreempt (host : Nat) (msg : List Nat) (s : State) : Outcome State Fault Refusal :=
  .next (serve s host msg 0x03 (some true) (fun q => q.length == 0) (fun q =>
    if ctxRuns s q.ctx then
      (stopEngines s q.ctx).updCtx q.ctx (fun c => { c with preempt := .stopping s.mod.clock host q.seq })
    else reply s q 6 []))

/-- RESUME: it is served once the context's cores have room for it. -/
def execResume (host : Nat) (msg : List Nat) (s : State) : Outcome State Fault Refusal :=
  .next (serve s host msg 0x04 (some true) (fun q => q.length == 0) (fun q =>
    if s.saved q.ctx then (if resumeRoom s q.ctx then reply (resumeContext s q.ctx) q 0 [] else s) else reply s q 6 []))

/-! ### Regions (R350) -/

/-- Limits of a region entry. -/
def regionOk (q : Request) : Bool :=
  q.length == 40 && decide (q.field 0 4 < 1024) && q.field 4 4 == 0 && q.field 8 8 % 65536 == 0 && q.field 16 8 % 65536 == 0
    && decide (65536 ≤ q.field 16 8) && decide (q.field 16 8 ≤ 2 ^ 40) && decide (q.field 28 1 < 8) && q.field 29 3 == 0
    && decide (q.field 32 4 ≤ 65535)

/-- REGION_SET: both the context of the request and the entry's must be the requester's. Requests that wait at the region
stay and are checked afresh. -/
def execRegionSet (host : Nat) (msg : List Nat) (s : State) : Outcome State Fault Refusal :=
  .next (serve s host msg 0x05 (some true) regionOk (fun q =>
    if !controls s host (q.field 24 4) then reply s q 4 []
    else
      let i := q.field 0 4
      let r : Region := {
        index := i, vbase := q.field 8 8, length := q.field 16 8, ctx := q.field 24 4, perm := q.field 28 1, rate := q.field 32 4
        key := q.field 36 4, queue := ((regionOf s i).map Region.queue).getD [], window := s.mod.clock, count := 0 }
      let rs := s.mod.regions.filter (fun x => x.index != i) ++ [r]
      reply { s with mod := { s.mod with regions := rs } } q 0 []))

/-- REGION_CLEAR: requests that wait at the region find it not configured. -/
def execRegionClear (host : Nat) (msg : List Nat) (s : State) : Outcome State Fault Refusal :=
  .next (serve s host msg 0x06 (some true) (fun q => q.length == 8 && decide (q.field 0 4 < 1024) && q.field 4 4 == 0) (fun q =>
    let i := q.field 0 4
    let waiting := ((regionOf s i).map Region.queue).getD []
    let s := { s with mod := { s.mod with regions := s.mod.regions.filter (fun x => x.index != i) } }
    reply (waiting.foldl (fun s w => answer s w.host 1 []) s) q 0 []))

/-! ### Stamps (R334) -/

/-- The stamp of a tile: 0 where it is not tracked. -/
def stampOf (s : State) (c : Ctx) (tile : Nat) : Nat :=
  if ((leafOf s c (4096 * tile)).map Leaf.trk).getD false then (assoc c.stamps tile).getD 0 else 0

/-- STAMP_READ. -/
def execStampRead (host : Nat) (msg : List Nat) (s : State) : Outcome State Fault Refusal :=
  .next (serve s host msg 0x07 (some true)
    (fun q => q.length == 16 && q.field 0 8 % 4096 == 0 && decide (1 ≤ q.field 8 4) && decide (q.field 8 4 ≤ 4096) && q.field 12 4 == 0)
    (fun q =>
      match s.ctx? q.ctx with
      | none => s
      | some c =>
        let n := q.field 8 4
        let words := (List.range n).map (fun i => stampOf s c (q.field 0 8 / 4096 + i))
        reply s q 0 (wordBytes words ++ List.replicate (n % 2 * 4) 0)))

/-! ### Parts (R237, R359) -/

/-- Limits of FENCE_PART and RETURN_PART. -/
def partOkArgs (q : Request) : Bool :=
  let k := q.field 0 4
  let n := q.field 4 4
  q.length == 16 && ((k == 0 && decide (n < 256) && q.field 8 8 == 0) || (k == 1 && decide (n < 32) && q.field 8 8 == 0)
    || (k == 2 && decide (n < 12) && decide (q.field 8 8 < 2 ^ 36 / Config.hbmRowBytes)))

/-- The cores of a part. -/
def partCores (q : Request) : List Nat :=
  if q.field 0 4 = 0 then [q.field 4 4] else (List.range 8).map (fun i => 8 * q.field 4 4 + i)

/-- A snapshot with cores put in or taken out. -/
def snapWith (snap : BitVec 256) (cores : List Nat) (on : Bool) : BitVec 256 :=
  cores.foldl (fun m c => if on then m ||| (1#256 <<< c) else m &&& ~~~ (1#256 <<< c)) snap

/-- A new snapshot and its generation. -/
def newSnapshot (s : State) (cores : List Nat) (on : Bool) : State :=
  { s with mod := { s.mod with snapshot := snapWith s.mod.snapshot cores on, snapGen := (s.mod.snapGen + 1) % 2 ^ 32 } }

/-- Rows of a stack that are retired. -/
def retiredRows (s : State) (stack : Nat) : Nat := (s.mod.retired.filter (fun r => r.1 == stack)).length

/-- A row is retired to a spare. -/
def retireRow (s : State) (stack row : Nat) : State :=
  if s.mod.retired.contains (stack, row) then s else { s with mod := { s.mod with retired := s.mod.retired ++ [(stack, row)] } }

/-- FENCE_PART: cores leave the snapshot at once, and service once nothing placed earlier is left on them; cores of the part that
an earlier request took out and that are still busy count too. A row is retired. -/
def execFencePart (host : Nat) (msg : List Nat) (s : State) : Outcome State Fault Refusal :=
  .next (serve s host msg 0x08 (some false) partOkArgs (fun q =>
    let n := q.field 4 4
    if q.field 0 4 = 2 then
      let row := q.field 8 8
      if s.mod.fencedRows.contains (n, row) then reply s q 6 []
      else if !s.mod.retired.contains (n, row) && decide (retiredRows s n ≥ 1024) then reply s q 5 []
      else
        let s := retireRow s n row
        reply { s with mod := { s.mod with fencedRows := s.mod.fencedRows ++ [(n, row)] } } q 0 []
    else
      let cores := (partCores q).filter (fun c => s.mod.snapshot.getLsbD c)
      if cores.isEmpty then reply s q 6 []
      else
        let draining := (partCores q).filter (fun c => s.mod.fencing.any (fun f => f.cores.contains c))
        let s := newSnapshot s cores false
        let f : Fencing := { host := host, head := msg.take 16, cores := cores ++ draining }
        { s with mod := { s.mod with fencing := s.mod.fencing ++ [f] } }))

/-- RETURN_PART: cores that are out of service come back with a new snapshot; a fenced row is restored. -/
def execReturnPart (host : Nat) (msg : List Nat) (s : State) : Outcome State Fault Refusal :=
  .next (serve s host msg 0x09 (some false) partOkArgs (fun q =>
    let n := q.field 4 4
    if q.field 0 4 = 2 then
      let row := q.field 8 8
      if s.mod.fencedRows.contains (n, row) then
        let m := { s.mod with fencedRows := s.mod.fencedRows.erase (n, row), retired := s.mod.retired.erase (n, row) }
        reply { s with mod := m } q 0 []
      else reply s q 6 []
    else
      let cores := (partCores q).filter (fun c => !s.mod.snapshot.getLsbD c)
      if cores.isEmpty || cores.any (fun c => s.mod.fencing.any (fun f => f.cores.contains c)) then reply s q 6 []
      else reply (newSnapshot s cores true) q 0 []))

/-- Nothing placed on a core under an earlier snapshot waits for it or runs on it. -/
def coreFree (s : State) (core : Nat) : Bool :=
  !s.warps.any (fun w => w.core? == some core || (w.place.isNone && w.block.isNone && w.snap.getLsbD core)) &&
  !s.blocks.any (fun b => b.core == core) &&
  s.launches.all (fun l => l.members.all (fun b => l.started.contains b || coreOf l.snapshot l.rec_ b != some core)) &&
  !s.jobs.any (fun j => !s.launches.any (fun l => l.job == j.id) && j.snapshot.getLsbD core && (j.bytes.getD 0 0 == 1 || j.bytes.getD 0 0 == 2))

/-- One fencing without a core. -/
def leaveCore (core : Nat) (f : Fencing) : Fencing := { f with cores := f.cores.erase core }

/-- PART_LEAVE_SERVICE: a fenced core leaves service; with its last core the part's request completes. -/
def execPartLeaveService (core : Nat) (s : State) : Outcome State Fault Refusal :=
  .next (
    if s.mod.fencing.any (fun f => f.cores.contains core) && coreFree s core then
      let fs := s.mod.fencing.map (leaveCore core)
      let done := fs.filter (fun f => f.cores.isEmpty)
      let s := { s with mod := { s.mod with fencing := fs.filter (fun f => !f.cores.isEmpty) } }
      done.foldl (fun s f => reply s (requestOf f.host f.head) 0 []) s
    else s)

/-! ### Firmware (R355 to R357) -/

/-- The image as it stands in the carve-out. -/
def imageBytes (s : State) : List Nat := (List.range s.mod.imageLen).map (fun i => (Memory.read s.mem (carveBase + i)).toNat)

/-- Limits of FIRMWARE_PUSH: the piece lies in the carve-out and is padded with zeros. -/
def pushOk (q : Request) : Bool :=
  let n := q.field 12 4
  decide (n ≤ 16360) && q.length == 16 + (n + 7) / 8 * 8 && decide (q.field 8 4 < 2) && decide (q.field 0 8 + n ≤ 2 ^ 30)
    && (q.args.drop (16 + n)).all (· == 0)

/-- The image is verified, measured, locked in, and the scheduler cores are released; or it is rejected. -/
def acceptImage (s : State) (q : Request) : State :=
  let image := imageBytes s
  if Config.signatureValid image then
    let m := { s.mod with
      measurement := sha384 (s.mod.measurement ++ sha384 image), locked := true, released := true
      heartbeats := List.replicate 16 s.mod.clock }
    reply { s with mod := m } q 0 []
  else reply { s with mod := { s.mod with imageLen := 0 } } q 1 []

/-- FIRMWARE_PUSH. -/
def execFirmwarePush (host : Nat) (msg : List Nat) (s : State) : Outcome State Fault Refusal :=
  .next (serve s host msg 0x0A (some false) pushOk (fun q =>
    if s.mod.locked then reply s q 2 []
    else
      let n := q.field 12 4
      let o := q.field 0 8
      let s := { s with mem := Memory.writeN s.mem (carveBase + o) n (leNat ((q.args.drop 16).take n)),
                        mod := { s.mod with imageLen := max s.mod.imageLen (o + n) } }
      if q.field 8 4 = 1 then acceptImage s q else reply s q 0 []))

/-- ATTEST: the measurement, the nonce, the serial number and a signature over the three. -/
def execAttest (host : Nat) (msg : List Nat) (s : State) : Outcome State Fault Refusal :=
  .next (serve s host msg 0x0B (some false) (fun q => q.length == 32) (fun q =>
    let body := s.mod.measurement ++ q.args.take 32 ++ natLe 16 Config.serialNumber
    let sig := Config.quoteSignature body
    reply s q 0 (body ++ (List.range 96).map (fun i => sig.getD i 0 % 256))))

/-- SCHEDULER_HEARTBEAT: one of the sixteen scheduler cores gives its heartbeat. -/
def execSchedulerHeartbeat (core : Nat) (s : State) : Outcome State Fault Refusal :=
  .next (if s.mod.released then { s with mod := { s.mod with heartbeats := s.mod.heartbeats.set core s.mod.clock } } else s)

/-- Every live context that satisfies `p` ends with a cause. -/
def endWhere (s : State) (p : Ctx → Bool) (cause : Nat) (detail : List Nat) : State :=
  ((s.ctxs.filter (fun c => c.live && p c)).map Ctx.number).foldl (fun s n => endWith s n cause 0 detail) s

/-- HEARTBEAT_TIMEOUT: a scheduler core has given no heartbeat for 100 ms: every context ends, the image is verified again. -/
def execHeartbeatTimeout (core : Nat) (s : State) : Outcome State Fault Refusal :=
  .next (
    match s.mod.heartbeats[core]? with
    | none => s
    | some t =>
      if s.mod.released && decide (s.mod.clock ≥ t + 60000000) then
        let s := endWhere s (fun _ => true) 0x55 []
        let ok := Config.signatureValid (imageBytes s)
        { s with mod := { s.mod with released := ok, heartbeats := List.replicate 16 s.mod.clock } }
      else s)

/-- MODULE_RESET: the state of reset. What the model itself keeps goes on: its schedule, its counters of numbers and of free
values, and the record of what has left the module. -/
def execModuleReset (s : State) : Outcome State Fault Refusal :=
  .next { State.reset with
    mod := { Module.reset with sent := s.mod.sent }
    schedule := s.schedule
    nextId := s.nextId
    free := s.free }

/-! ### Power and debug (R348, R360) -/

/-- POWER_CAP. -/
def execPowerCap (host : Nat) (msg : List Nat) (s : State) : Outcome State Fault Refusal :=
  .next (serve s host msg 0x0C (some false)
    (fun q => q.length == 8 && decide (1500 ≤ q.field 0 4) && decide (q.field 0 4 ≤ 3000) && q.field 4 4 == 0)
    (fun q => reply { s with mod := { s.mod with powerCap := q.field 0 4 } } q 0 []))

/-- A DEBUG request of a sub-op. -/
def debug (s : State) (host : Nat) (msg : List Nat) (mine : Nat → Bool) (body : Request → State) : State :=
  if !mine (fieldAt msg 16 4) then s
  else
    serve s host msg 0x0D (some true) (fun q =>
      let sub := q.field 0 4
      q.length == 24 && decide (sub ≤ 4) && (if sub = 2 ∨ sub = 3 then decide (q.field 4 4 ≤ 3) else q.field 4 4 == 0)
        && (sub == 2 || q.field 8 16 == 0)) body

/-- DEBUG sub-op 0: step control off. -/
def execDebugStepOff (host : Nat) (msg : List Nat) (s : State) : Outcome State Fault Refusal :=
  .next (debug s host msg (· == 0) (fun q => reply (s.updCtx q.ctx (fun c => { c with stepping := false })) q 0 []))

/-- DEBUG sub-op 1: step control on. -/
def execDebugStepOn (host : Nat) (msg : List Nat) (s : State) : Outcome State Fault Refusal :=
  .next (debug s host msg (· == 1) (fun q => reply (s.updCtx q.ctx (fun c => { c with stepping := true })) q 0 []))

/-- DEBUG sub-op 2: a watch range is set. -/
def execDebugWatchSet (host : Nat) (msg : List Nat) (s : State) : Outcome State Fault Refusal :=
  .next (debug s host msg (· == 2) (fun q =>
    reply (s.updCtx q.ctx (fun c => { c with watches := c.watches.set (q.field 4 4) (q.field 8 8, q.field 16 8) })) q 0 []))

/-- DEBUG sub-op 3: a watch range is cleared. -/
def execDebugWatchClear (host : Nat) (msg : List Nat) (s : State) : Outcome State Fault Refusal :=
  .next (debug s host msg (· == 3) (fun q =>
    reply (s.updCtx q.ctx (fun c => { c with watches := c.watches.set (q.field 4 4) (0, 0) })) q 0 []))

/-- A waiting lane before it is halted: an arrival that its instruction made is undone, since the instruction is tried again;
one whose phase is complete has passed its wait. -/
def unwait (s : State) (w : Warp) (x : Lane) : Lane :=
  match x.cond with
  | .waiting (.barrier sc id ph sync) next _ =>
    if ((barOf s w sc id).map (fun b => decide (ph < b.phase))).getD false then
      { x.dropArrival sc id with cond := .ready, pc := next }
    else if sync then { x.dropArrival sc id with cond := .ready } else { x with cond := .ready }
  | .waiting _ _ _ => { x with cond := .ready }
  | _ => x

/-- Every ready or waiting run of a warp stops with DEBUG_HALT. -/
def haltWarp (s : State) (wid : Nat) : State :=
  match s.warp? wid with
  | none => s
  | some w =>
    let w := w.mapLanes allLanes (fun _ x => unwait s w x)
    (splitByPc w 32 w.readyLanes).foldl (fun s m => takeTrap s wid m (w.lane (leadOf m)).pc m 0x0F 0 []) (s.setWarp w)

/-- DEBUG sub-op 4: every run of the context halts. A sub-op that is not listed is refused here. -/
def execDebugHalt (host : Nat) (msg : List Nat) (s : State) : Outcome State Fault Refusal :=
  .next (debug s host msg (fun n => decide (n ≥ 4)) (fun q =>
    reply (((s.warps.filter (fun w => w.ctx == q.ctx)).map Warp.id).foldl haltWarp s) q 0 []))

/-- UNKNOWN_OP: an op that is not listed. -/
def execUnknownOp (host : Nat) (msg : List Nat) (s : State) : Outcome State Fault Refusal :=
  let q := requestOf host msg
  .next (if q.op = 0 ∨ q.op > 0x0E then reply s q 6 [] else s)

/-! ### The presence of hosts (R354) -/

/-- KEEPALIVE. -/
def execKeepalive (host : Nat) (msg : List Nat) (s : State) : Outcome State Fault Refusal :=
  .next (serve s host msg 0x0E (some false) (fun q => q.length == 0) (fun q => reply (noteHost s host) q 0 []))

/-- HOST_DETACH: 10 s without a KEEPALIVE of a controlling host. -/
def execHostDetach (host : Nat) (s : State) : Outcome State Fault Refusal :=
  .next (
    match assoc s.mod.hosts host with
    | none => s
    | some t =>
      if s.mod.clock ≥ t + 6000000000 then
        endWhere { s with mod := { s.mod with hosts := dropAssoc s.mod.hosts host } } (fun c => c.host == host) 0x47 []
      else s)

end Sys2Proof.Machine
end

