-- ==== Sys2Proof/Machine/Pred.lean ====
section
/-! DEFINITION. Compares, select, predicate reads and the predicate stack: majors 0x0A to 0x0D (R121 to R125). -/

namespace Sys2Proof.Machine

/-! ### Compares -/

/-- The bits of a compare word that break R45 or hold a reserved value (R49): `types` is the number of type codes. -/
def cmpReserved (types t m a b : Nat) (pair : Bool) : Nat :=
  (if t ≥ types then 7 * 2 ^ 18 else 0) + (if m ≥ 4 then 15 * 2 ^ 14 else 0) + oddPairs 0 a b false pair pair

/-- The checks of `cmp` (R49, R121). -/
def cmpInfo (cls k t m a b : Nat) : Info :=
  { Info.plain cls with illegal := decide (k ≥ 6), reserved := cmpReserved 4 t m a b (cmpPair t) }

/-- The checks of `fcmp` (R49). -/
def fcmpInfo (cls k t m a b : Nat) : Info :=
  { Info.plain cls with illegal := decide (k ≥ 14), reserved := cmpReserved 3 t m a b false }

/-- The registers a compare reads. -/
def cmpSrcs (pair : Bool) (a b : Nat) : List Nat := if pair then [a, a + 1, b, b + 1] else [a, b]

/-- The bit of `cmp` in a lane. -/
def cmpBit (k t a b : Nat) (w : Warp) (l : Nat) : Bool × Flags :=
  (if cmpPair t then intCompare k (cmpValue t (w.pair l a)) (cmpValue t (w.pair l b))
   else intCompare k (cmpValue t (w.reg l a).toNat) (cmpValue t (w.reg l b).toNat), 0)

/-- The bit of `fcmp` in a lane. -/
def fcmpLane (k t a b : Nat) (w : Warp) (l : Nat) : Bool × Flags := fcmpBit k t (w.reg l a).toNat (w.reg l b).toNat

/-- A compare of an `s.` twin: once, from `lead`, onto the stack of every lane that has not exited (R22, R121). -/
def uniformCompare (s : State) (i : Info) (srcs : List Nat) (m : Nat) (bit : Warp → Nat → Bool × Flags) :
    Host.Outcome State Fault Refusal :=
  issue s i (fun x =>
    match checkNamed x.w x.everyone (fun l => if l = x.lead then srcs else []) (fun _ => []) (fun _ => modeReads m) with
    | .error e => .error e
    | .ok _ =>
      let r := bit x.w x.lead
      .ok (x.done x.s ((x.wd.mapLanes x.everyone (fun _ y => y.take m r.1)).orFlags x.everyone (fun _ => r.2))))

/-- A compare of a `v.` twin: in each active lane (R121). -/
def laneCompare (s : State) (i : Info) (srcs : List Nat) (m : Nat) (bit : Warp → Nat → Bool × Flags) :
    Host.Outcome State Fault Refusal :=
  issue s i (fun x =>
    match checkNamed x.w x.act (fun _ => srcs) (fun _ => []) (fun _ => modeReads m) with
    | .error e => .error e
    | .ok _ =>
      .ok (x.done x.s ((x.wd.mapLanes x.act (fun l y => y.take m (bit x.w l).1)).orFlags x.act (fun l => (bit x.w l).2))))

/-- `s.cmp` (R121). -/
def execSCmp (k t m a b : Nat) (s : State) : Host.Outcome State Fault Refusal :=
  uniformCompare s (cmpInfo 0 k t m a b) (cmpSrcs (cmpPair t) a b) m (cmpBit k t a b)

/-- `v.cmp` (R121). -/
def execVCmp (k t m a b : Nat) (s : State) : Host.Outcome State Fault Refusal :=
  laneCompare s (cmpInfo 1 k t m a b) (cmpSrcs (cmpPair t) a b) m (cmpBit k t a b)

/-- `s.fcmp` (R121, R122). -/
def execSFcmp (k t m a b : Nat) (s : State) : Host.Outcome State Fault Refusal :=
  uniformCompare s (fcmpInfo 0 k t m a b) [a, b] m (fcmpLane k t a b)

/-- `v.fcmp` (R121, R122). -/
def execVFcmp (k t m a b : Nat) (s : State) : Host.Outcome State Fault Refusal :=
  laneCompare s (fcmpInfo 1 k t m a b) [a, b] m (fcmpLane k t a b)

/-! ### Select and predicate read -/

/-- `s.sel` (R123): the predicates of `lead`. -/
def execSSel (k d a b : Nat) (s : State) : Host.Outcome State Fault Refusal :=
  issue s (Info.plain 0) (fun x =>
    match checkNamed x.w x.everyone (fun l => if l = x.lead then [a, b] else []) (fun _ => [d])
        (fun l => if l = x.lead then [k] else []) with
    | .error e => .error e
    | .ok _ =>
      let v := if ((x.w.lane x.lead).pred k).val then x.w.reg x.lead a else x.w.reg x.lead b
      .ok (x.done x.s (x.writeUniform x.wd [d] [v.toNat])))

/-- `v.sel` (R123). -/
def execVSel (k d a b : Nat) (s : State) : Host.Outcome State Fault Refusal :=
  issue s (Info.plain 1) (fun x =>
    match checkNamed x.w x.act (fun _ => [a, b]) (fun _ => [d]) (fun _ => [k]) with
    | .error e => .error e
    | .ok _ =>
      let v (l : Nat) : Word := if ((x.w.lane l).pred k).val then x.w.reg l a else x.w.reg l b
      .ok (x.done x.s (if x.act = 0#32 then x.wd else x.writeLanes x.wd (fun l => [(v l).toNat]) 0 [d])))

/-- `s.pget` (R123): the stack of `lead`, whose eight entries are all read. -/
def execSPget (d : Nat) (s : State) : Host.Outcome State Fault Refusal :=
  issue s (Info.plain 0) (fun x =>
    match checkNamed x.w x.everyone (fun _ => []) (fun _ => [d]) (fun l => if l = x.lead then List.range 8 else []) with
    | .error e => .error e
    | .ok _ => .ok (x.done x.s (x.writeUniform x.wd [d] [(x.w.lane x.lead).predBits])))

/-- `v.pget` (R123). -/
def execVPget (d : Nat) (s : State) : Host.Outcome State Fault Refusal :=
  issue s (Info.plain 1) (fun x =>
    match checkNamed x.w x.act (fun _ => []) (fun _ => [d]) (fun _ => List.range 8) with
    | .error e => .error e
    | .ok _ =>
      .ok (x.done x.s (if x.act = 0#32 then x.wd else x.writeLanes x.wd (fun l => [(x.w.lane l).predBits]) 0 [d])))

/-! ### The predicate stack, major 0x0D -/

/-- A function of major 0x0D: registers and entries it reads, and what it does to the stack of a lane. -/
def stackOp (s : State) (regs preds : List Nat) (f : Warp → Nat → Lane → Lane) : Host.Outcome State Fault Refusal :=
  issue s (Info.plain 1) (fun x =>
    match checkNamed x.w x.act (fun _ => regs) (fun _ => []) (fun _ => preds) with
    | .error e => .error e
    | .ok _ => .ok (x.done x.s (x.wd.mapLanes x.act (f x.w))))

/-- An entry that holds a bit and waits for nothing. -/
def Pred.of (b : Bool) : Pred := { val := b, pend := none }

/-- `v.ppop n` (R124): the field holds n − 1; it reads no entry (R182). -/
def execVPpop (n : Nat) (s : State) : Host.Outcome State Fault Refusal := stackOp s [] [] (fun _ _ y => y.popN (n + 1))

/-- `v.pdup pK` (R124). -/
def execVPdup (k : Nat) (s : State) : Host.Outcome State Fault Refusal :=
  stackOp s [] [k] (fun _ _ y => y.push (Pred.of (y.pred k).val))

/-- `v.pand pK` (R124). -/
def execVPand (k : Nat) (s : State) : Host.Outcome State Fault Refusal :=
  stackOp s [] [0, k] (fun _ _ y => y.setPred 0 (Pred.of ((y.pred 0).val && (y.pred k).val)))

/-- `v.por pK` (R124). -/
def execVPor (k : Nat) (s : State) : Host.Outcome State Fault Refusal :=
  stackOp s [] [0, k] (fun _ _ y => y.setPred 0 (Pred.of ((y.pred 0).val || (y.pred k).val)))

/-- `v.pxor pK` (R124). -/
def execVPxor (k : Nat) (s : State) : Host.Outcome State Fault Refusal :=
  stackOp s [] [0, k] (fun _ _ y => y.setPred 0 (Pred.of ((y.pred 0).val != (y.pred k).val)))

/-- `v.pnot pK` (R124). -/
def execVPnot (k : Nat) (s : State) : Host.Outcome State Fault Refusal :=
  stackOp s [] [k] (fun _ _ y => y.setPred k (Pred.of (!(y.pred k).val)))

/-- `v.pswap pK` (R124). -/
def execVPswap (k : Nat) (s : State) : Host.Outcome State Fault Refusal :=
  stackOp s [] [0, k] (fun _ _ y => (y.setPred 0 (Pred.of (y.pred k).val)).setPred k (Pred.of (y.pred 0).val))

/-- `v.ppush vB` (R124). -/
def execVPpush (b : Nat) (s : State) : Host.Outcome State Fault Refusal :=
  stackOp s [b] [] (fun w l y => y.push (Pred.of (w.reg l b != 0#32)))

/-- `v.pset vB` (R124): all eight entries are written. -/
def execVPset (b : Nat) (s : State) : Host.Outcome State Fault Refusal :=
  stackOp s [b] (List.range 8)
    (fun w l y => { y with preds := Vector.ofFn (fun i : Fin 8 => Pred.of ((w.reg l b).getLsbD i.val)) })

end Sys2Proof.Machine
end

