-- ==== Sys2Proof/Machine/Reliability.lean ====
section
/-! DEFINITION. Errors in storage (R358, R359), cores that fail, heat (R360). -/

namespace Sys2Proof.Machine

open Host (Outcome)

/-! ### Errors found by ECC (R358, R359) -/

/-- The stack and the row of an HBM sector: rows of the implementation's size (log 48). -/
def rowOfSector (sector : Nat) : Nat × Nat := (32 * sector / 2 ^ 36, 32 * sector % 2 ^ 36 / Config.hbmRowBytes)

/-- ECC_ERROR: place 0 a sector of HBM, 1 a 64-bit word in L2, 2 a word of core SRAM, 3 the word of the register file that holds
lanes 2j and 2j + 1 of register r of warp w, as (256 w + r) × 16 + j (log 48). A corrected error is invisible, but counts against
its HBM row; other data becomes uncorrectable, and whoever reads it ends its context. -/
def execEccError (place loc : Nat) (corrected : Bool) (s : State) : Outcome State Fault Refusal :=
  .next (
    if corrected then
      if place = 0 then
        let r := rowOfSector loc
        { s with mod := { s.mod with corrected := s.mod.corrected ++ [(r.1, r.2, s.mod.clock)] } }
      else s
    else if place = 3 then
      s.updWarp (loc / 4096) (fun w => if w.place.isSome then { w with bad := (loc / 16 % 256, loc % 16) :: w.bad } else w)
    else if place ≤ 2 then { s with mod := { s.mod with bad := s.mod.bad ++ [{ kind := place, loc := loc }] } }
    else s)

/-- Corrected errors of a row in the last 24 hours. -/
def recentErrors (s : State) (stack row : Nat) : Nat :=
  (s.mod.corrected.filter (fun e => e.1 == stack && e.2.1 == row && decide (s.mod.clock < e.2.2 + 51840000000000))).length

/-- HBM_ROW_RETIRE: three corrected errors in one row within 24 hours retire it to a spare; where the stack has none left the
event is reported on the management endpoint. -/
def execHbmRowRetire (stack row : Nat) (s : State) : Outcome State Fault Refusal :=
  .next (
    if recentErrors s stack row ≥ 3 then
      let s := { s with mod := { s.mod with corrected := s.mod.corrected.filter (fun e => !(e.1 == stack && e.2.1 == row)) } }
      if retiredRows s stack < 1024 then retireRow s stack row
      else (s.mod.hosts.map Prod.fst).foldl (fun s h => sendMessage s { to_ := h, kind := 7, bytes := natLe 8 stack ++ natLe 8 row }) s
    else s)

/-- CORE_FAILURE: every context with a block or a warp on the core ends. -/
def execCoreFailure (core : Nat) (s : State) : Outcome State Fault Refusal :=
  .next (endWhere s (fun c => (coreBlocks s core).any (fun b => b.ctx == c.number)
    || (coreWarps s core).any (fun w => w.ctx == c.number)) 0x54 [core])

/-! ### Heat (R360) -/

/-- THERMAL_THROTTLE: issue on a die is delayed; that is time alone. -/
def execThermalThrottle (die : Nat) (s : State) : Outcome State Fault Refusal :=
  .next { s with mod := { s.mod with throttled := s.mod.throttled ||| (1#4 <<< die) } }

/-- THERMAL_THROTTLE_END. -/
def execThermalThrottleEnd (die : Nat) (s : State) : Outcome State Fault Refusal :=
  .next { s with mod := { s.mod with throttled := s.mod.throttled &&& ~~~ (1#4 <<< die) } }

/-- A context has a warp, a block or a pass on a die. -/
def onDie (s : State) (die ctx : Nat) : Bool :=
  s.warps.any (fun w => w.ctx == ctx && (w.core?).map dieOf == some die) || s.blocks.any (fun b => b.ctx == ctx && dieOf b.core == die)
    || s.passes.any (fun p => p.ctx == ctx && p.dies.contains die)

/-- THERMAL_SHUTDOWN: the die shuts down, and every context with a warp, a block or a pass on it ends. -/
def execThermalShutdown (die : Nat) (s : State) : Outcome State Fault Refusal :=
  .next (endWhere { s with mod := { s.mod with shut := s.mod.shut ||| (1#4 <<< die) } } (fun c => onDie s die c.number) 0x56 [die])

end Sys2Proof.Machine
end

