-- ==== Sys2Proof/Machine/Astc.lean ====
section
/-! DEFINITION. ASTC LDR blocks of two dimensions (R200), decoded as the Khronos Data Format Specification has them: R200 names the format
and repeats none of that document, so this file is PRESUMED (log 7). A block is one number of 128 bits, its first byte lowest; a texel has
four channels of 16 bits, before they are made a half or an sRGB code. -/

namespace Sys2Proof.Machine

/-! ### Bounded integer sequences -/

/-- What a sequence holds beside the bits of each value: nothing, a trit, or a quint. -/
inductive Digit where
  | none | trit | quint
  deriving DecidableEq, Repr

/-- The ranges of a sequence, ascending from 2 levels to 256: the bits of a value, and its digit. -/
def iseRanges : List (Nat × Digit) :=
  [(1, .none), (0, .trit), (2, .none), (0, .quint), (1, .trit), (3, .none), (1, .quint), (2, .trit), (4, .none), (2, .quint), (3, .trit),
    (5, .none), (3, .quint), (4, .trit), (6, .none), (4, .quint), (5, .trit), (7, .none), (5, .quint), (6, .trit), (8, .none)]

/-- The bits that a sequence of n values takes. -/
def iseLength (r : Nat × Digit) (n : Nat) : Nat :=
  n * r.1 + (match r.2 with
    | .none => 0
    | .trit => (8 * n + 4) / 5
    | .quint => (7 * n + 2) / 3)

/-- The five trits that eight bits hold. -/
def tritsOf (t : Nat) : List Nat :=
  let b (lo n : Nat) : Nat := bitsAt t lo n
  let (c, t4, t3) :=
    if b 2 3 = 7 then (4 * b 5 3 + b 0 2, 2, 2)
    else if b 5 2 = 3 then (b 0 5, 2, b 7 1)
    else (b 0 5, b 7 1, b 5 2)
  let d (lo n : Nat) : Nat := bitsAt c lo n
  let low (hi lo : Nat) : Nat := 2 * hi + (if hi = 1 then 0 else lo)
  if d 0 2 = 3 then [low (d 3 1) (d 2 1), d 4 1, 2, t3, t4]
  else if d 2 2 = 3 then [d 0 2, 2, 2, t3, t4]
  else [low (d 1 1) (d 0 1), d 2 2, d 4 1, t3, t4]

/-- The three quints that seven bits hold. -/
def quintsOf (q : Nat) : List Nat :=
  let b (lo n : Nat) : Nat := bitsAt q lo n
  if b 1 2 = 3 ∧ b 5 2 = 0 then [4, 4, 4 * b 0 1 + (if b 0 1 = 1 then 0 else b 3 2)]
  else
    let (q2, c) := if b 1 2 = 3 then (4, 8 * b 3 2 + 2 * (3 - b 5 2) + b 0 1) else (b 5 2, b 0 5)
    if c % 8 = 5 then [c / 8, 4, q2] else [c % 8, c / 8, q2]

/-- A value of a sequence that starts at bit 0: its bits, and its digit above them. -/
def iseValue (r : Nat × Digit) (w i : Nat) : Nat :=
  let b := r.1
  match r.2 with
  | .none => bitsAt w (i * b) b
  | .trit =>
    let v := w / 2 ^ (i / 5 * (5 * b + 8))
    let t := bitsAt v b 2 + 4 * bitsAt v (2 * b + 2) 2 + 16 * bitsAt v (3 * b + 4) 1 + 32 * bitsAt v (4 * b + 5) 2 + 128 * bitsAt v (5 * b + 7) 1
    bitsAt v ([0, b + 2, 2 * b + 4, 3 * b + 5, 4 * b + 7].getD (i % 5) 0) b + 2 ^ b * (tritsOf t).getD (i % 5) 0
  | .quint =>
    let v := w / 2 ^ (i / 3 * (3 * b + 7))
    let q := bitsAt v b 3 + 8 * bitsAt v (2 * b + 3) 2 + 32 * bitsAt v (3 * b + 5) 2
    bitsAt v ([0, b + 3, 2 * b + 5].getD (i % 3) 0) b + 2 ^ b * (quintsOf q).getD (i % 3) 0

/-- A code of b bits made n bits wide by repeating it, at most eight. -/
def repeated (v b n : Nat) : Nat := v * ((2 ^ (8 * b) - 1) / (2 ^ b - 1)) / 2 ^ (8 * b - n)

/-- A value of a digit and b bits spread over n bits: the digit times a factor, and what the bits but the lowest add; the lowest inverts
all. -/
def digitSpread (n factor add v b : Nat) : Nat :=
  let t := Nat.xor (v / 2 ^ b * factor + add) (if v % 2 = 1 then 2 ^ (n + 1) - 1 else 0)
  v % 2 * 2 ^ (n - 1) + t / 4

/-- A weight in 64ths. -/
def weightOf (r : Nat × Digit) (v : Nat) : Nat :=
  let h := v % 2 ^ r.1 / 2
  let raw :=
    match r with
    | (0, .trit) => [0, 32, 63].getD v 0
    | (0, .quint) => [0, 16, 32, 47, 63].getD v 0
    | (1, .trit) => digitSpread 6 50 0 v 1
    | (2, .trit) => digitSpread 6 23 (h * 0x45) v 2
    | (_, .trit) => digitSpread 6 11 (h * 0x21) v 3
    | (1, .quint) => digitSpread 6 28 0 v 1
    | (_, .quint) => digitSpread 6 13 (h * 0x42) v 2
    | (b, .none) => repeated v b 6
  if raw > 32 then raw + 1 else raw

/-- A colour value of 8 bits. -/
def colourOf (r : Nat × Digit) (v : Nat) : Nat :=
  let h := v % 2 ^ r.1 / 2
  match r with
  | (1, .trit) => digitSpread 8 204 0 v 1
  | (2, .trit) => digitSpread 8 93 (h * 0x116) v 2
  | (3, .trit) => digitSpread 8 44 (h * 0x85) v 3
  | (4, .trit) => digitSpread 8 22 (h * 0x41) v 4
  | (5, .trit) => digitSpread 8 11 (h * 0x20 + h / 4) v 5
  | (6, .trit) => digitSpread 8 5 (h * 0x10 + h / 16) v 6
  | (1, .quint) => digitSpread 8 113 0 v 1
  | (2, .quint) => digitSpread 8 54 (h * 0x10C) v 2
  | (3, .quint) => digitSpread 8 26 (h * 0x82 + h / 2) v 3
  | (4, .quint) => digitSpread 8 13 (h * 0x40 + h / 2) v 4
  | (5, .quint) => digitSpread 8 6 (h * 0x20 + h / 8) v 5
  | (b, _) => repeated v b 8

/-! ### The mode of a block -/

/-- How a block holds its weights: the grid across and down, two planes or one, the range. -/
structure AstcMode where
  across : Nat
  down : Nat
  dual : Bool
  range : Nat × Digit
  deriving DecidableEq, Repr

def AstcMode.count (m : AstcMode) : Nat := m.across * m.down * (if m.dual then 2 else 1)

/-- Bits of the weights. -/
def AstcMode.length (m : AstcMode) : Nat := iseLength m.range m.count

/-- The mode of the low 11 bits; none where they are reserved. -/
def astcMode (w : Nat) : Option AstcMode :=
  let b (lo n : Nat) : Nat := bitsAt w lo n
  let a := b 5 2
  let grid : Option (Nat × Nat × Bool) :=
    if b 0 2 ≠ 0 then
      some (match b 2 2 with
        | 0 => (b 7 2 + 4, a + 2, true)
        | 1 => (b 7 2 + 8, a + 2, true)
        | 2 => (a + 2, b 7 2 + 8, true)
        | _ => if b 8 1 = 0 then (a + 2, b 7 1 + 6, true) else (b 7 1 + 2, a + 2, true))
    else if b 2 2 = 0 then none
    else match b 7 2 with
      | 0 => some (12, a + 2, true)
      | 1 => some (a + 2, 12, true)
      | 2 => some (a + 6, b 9 2 + 6, false)
      | _ => if a = 0 then some (6, 10, true) else if a = 1 then some (10, 6, true) else none
  grid.map (fun g =>
    let r := b 4 1 + 2 * (if b 0 2 ≠ 0 then b 0 2 else b 2 2)
    { across := g.1, down := g.2.1, dual := g.2.2 && b 10 1 == 1, range := iseRanges.getD (r - 2 + (if g.2.2 then 6 * b 9 1 else 0)) (0, .none) })

/-- A mode may stand in a block of a footprint. -/
def AstcMode.fits (m : AstcMode) (bw bh : Nat) : Bool :=
  decide (m.across ≤ bw) && decide (m.down ≤ bh) && decide (m.count ≤ 64) && decide (24 ≤ m.length) && decide (m.length ≤ 96)

/-- The low n bits in the other order. -/
def mirrored : Nat → Nat → Nat
  | 0, _ => 0
  | n + 1, w => w % 2 * 2 ^ n + mirrored n (w / 2)

/-- A weight of the grid, of a plane; outside the grid 0. -/
def gridWeight (m : AstcMode) (w k plane : Nat) : Nat :=
  let i := if m.dual then 2 * k + plane else k
  if i < m.count then weightOf m.range (iseValue m.range (mirrored 128 w % 2 ^ m.length) i) else 0

/-- The weight of a texel, from the four of the grid about it. -/
def texelWeight (m : AstcMode) (w bw bh x y plane : Nat) : Nat :=
  let place (b n c : Nat) : Nat := ((1024 + b / 2) / (b - 1) * c * (n - 1) + 32) / 64
  let s := place bw m.across x
  let t := place bh m.down y
  let w11 := (s % 16 * (t % 16) + 8) / 16
  let k := s / 16 + t / 16 * m.across
  let g (j : Nat) : Nat := gridWeight m w (k + j) plane
  (g 0 * (16 + w11 - s % 16 - t % 16) + g 1 * (s % 16 - w11) + g m.across * (t % 16 - w11) + g (m.across + 1) * w11 + 8) / 16

/-! ### Partitions -/

/-- The hash of a partition's seed. -/
def astcHash (seed : Nat) : Nat :=
  let up (p k : Nat) : Nat := Nat.xor p (p / 2 ^ k)
  let p := up seed 15
  let p := p * 0xEEDE0891 % 2 ^ 32
  let p := up p 5
  let p := p * 0x10001 % 2 ^ 32
  let p := up (up p 7) 3
  let p := Nat.xor p (p * 2 ^ 6 % 2 ^ 32)
  up p 17

/-- The partition that a texel is in, of two to four; in small blocks the pattern is coarser. -/
def astcPartition (seed count x y : Nat) (small : Bool) : Nat :=
  let x := if small then 2 * x else x
  let y := if small then 2 * y else y
  let r := astcHash (seed + (count - 1) * 1024)
  let wide := if count = 3 then 6 else 5
  let narrow := if bitAt seed 1 then 4 else 5
  let (sh1, sh2) := if bitAt seed 0 then (narrow, wide) else (wide, narrow)
  let f (lo sh : Nat) : Nat := bitsAt r lo 4 ^ 2 / 2 ^ sh
  let a := (f 0 sh1 * x + f 4 sh2 * y + r / 2 ^ 14) % 64
  let b := (f 8 sh1 * x + f 12 sh2 * y + r / 2 ^ 10) % 64
  let c := if count ≤ 2 then 0 else (f 16 sh1 * x + f 20 sh2 * y + r / 2 ^ 6) % 64
  let d := if count ≤ 3 then 0 else (f 24 sh1 * x + f 28 sh2 * y + r / 2 ^ 2) % 64
  if a ≥ b ∧ a ≥ c ∧ a ≥ d then 0 else if b ≥ c ∧ b ≥ d then 1 else if c ≥ d then 2 else 3

/-! ### End colours -/

/-- A number held to 8 bits. -/
def clamp8 (v : Int) : Nat := if v < 0 then 0 else min v.toNat 255

/-- A base that takes the high bit of its offset, and the signed offset left. -/
def transferred (base offset : Nat) : Int × Int :=
  let o := offset / 2 % 64
  (base / 2 + offset / 128 * 128, if o ≥ 32 then (o : Int) - 64 else o)

/-- Red and green drawn toward blue. -/
def contracted : List Int → List Int
  | [r, g, b, a] => [(r + b) / 2, (g + b) / 2, b, a]
  | e => e

/-- The two ends of an endpoint format, four channels of 8 bits; none for a format of high range, which LDR does not have. -/
def astcEnds (format : Nat) (v : Nat → Nat) : Option (List Nat × List Nat) :=
  let whole (e : List Int) : List Nat := e.map clamp8
  let direct (a0 a1 : Nat) : List Nat × List Nat :=
    let e0 : List Int := [v 0, v 2, v 4, a0]
    let e1 : List Int := [v 1, v 3, v 5, a1]
    if v 0 + v 2 + v 4 ≤ v 1 + v 3 + v 5 then (whole e0, whole e1) else (whole (contracted e1), whole (contracted e0))
  let offsets (alpha : Int × Int) : List Nat × List Nat :=
    let r := transferred (v 0) (v 1)
    let g := transferred (v 2) (v 3)
    let b := transferred (v 4) (v 5)
    let e0 := [r.1, g.1, b.1, alpha.1]
    let e1 := [r.1 + r.2, g.1 + g.2, b.1 + b.2, alpha.1 + alpha.2]
    if 0 ≤ r.2 + g.2 + b.2 then (whole e0, whole e1) else (whole (contracted e1), whole (contracted e0))
  let scaled (a0 a1 : Nat) : List Nat × List Nat := ([v 0 * v 3 / 256, v 1 * v 3 / 256, v 2 * v 3 / 256, a0], [v 0, v 1, v 2, a1])
  match format with
  | 0 => some ([v 0, v 0, v 0, 255], [v 1, v 1, v 1, 255])
  | 1 =>
    let l := v 0 / 4 + v 1 / 64 * 64
    let h := min (l + v 1 % 64) 255
    some ([l, l, l, 255], [h, h, h, 255])
  | 4 => some ([v 0, v 0, v 0, v 2], [v 1, v 1, v 1, v 3])
  | 5 =>
    let l := transferred (v 0) (v 1)
    let a := transferred (v 2) (v 3)
    some (whole [l.1, l.1, l.1, a.1], whole [l.1 + l.2, l.1 + l.2, l.1 + l.2, a.1 + a.2])
  | 6 => some (scaled 255 255)
  | 8 => some (direct 255 255)
  | 9 => some (offsets (255, 0))
  | 10 => some (scaled (v 4) (v 5))
  | 12 => some (direct (v 6) (v 7))
  | 13 => some (offsets (transferred (v 6) (v 7)))
  | _ => none

/-- The endpoint formats of a block of several partitions: one for all, or a class and a choice for each. `code` holds the six bits at
their place and those below the weights above them. -/
def astcFormats (code count : Nat) : List Nat :=
  (List.range count).map (fun i =>
    if code % 4 = 0 then bitsAt code 2 4 else 4 * (code % 4 - 1 + bitsAt code (2 + i) 1) + bitsAt code (2 + count + 2 * i) 2)

/-! ### A block -/

/-- What a block that breaks a rule gives: magenta. -/
def astcError : List Nat := [0xFFFF, 0, 0xFFFF, 0xFFFF]

/-- A block of one colour; its extent must be none, or run upward. -/
def astcVoid (w : Nat) : List Nat :=
  let s (i : Nat) : Nat := bitsAt w (12 + 13 * i) 13
  let extent := (∀ i ∈ List.range 4, s i = 8191) ∨ (s 0 < s 1 ∧ s 2 < s 3)
  if bitsAt w 9 3 = 6 ∧ extent then (List.range 4).map (fun k => bitsAt w (64 + 16 * k) 16) else astcError

/-- An end's channel made 16 bits wide: repeated, or a colour for sRGB with a half below it. -/
def astcWide (srgb : Bool) (k v : Nat) : Nat := if srgb && k != 3 then 256 * v + 128 else 257 * v

/-- A texel of a block of a footprint. -/
def astcTexel (bw bh : Nat) (srgb : Bool) (w x y : Nat) : List Nat :=
  if w % 512 = 0x1FC then astcVoid w
  else
    match astcMode w with
    | none => astcError
    | some m =>
      let count := bitsAt w 11 2 + 1
      if !m.fits bw bh || (m.dual && count == 4) then astcError
      else
        let class_ := bitsAt w 23 2
        let extra := if count = 1 ∨ class_ = 0 then 0 else 3 * count - 4
        let below := 128 - m.length - extra
        let formats := if count = 1 then [bitsAt w 13 4] else astcFormats (bitsAt w 23 6 + 64 * bitsAt w below extra) count
        let sizes := formats.map (fun f => 2 * (f / 4) + 2)
        let start := if count = 1 then 17 else 29
        let room := below - (if m.dual then 2 else 0) - start
        let part := if count = 1 then 0 else astcPartition (bitsAt w 13 10) count x y (decide (bw * bh < 31))
        match (iseRanges.drop 4).reverse.find? (fun r => decide (iseLength r sizes.sum ≤ room)) with
        | none => astcError
        | some r =>
          if sizes.sum > 18 then astcError
          else
            let colours := w / 2 ^ start % 2 ^ iseLength r sizes.sum
            let from_ := (sizes.take part).sum
            match astcEnds (formats.getD part 0) (fun i => colourOf r (iseValue r colours (from_ + i))) with
            | none => astcError
            | some (e0, e1) =>
              (List.range 4).map (fun k =>
                let g := texelWeight m w bw bh x y (if m.dual && bitsAt w (below - 2) 2 == k then 1 else 0)
                (astcWide srgb k (e0.getD k 0) * (64 - g) + astcWide srgb k (e1.getD k 0) * g + 32) / 64)

end Sys2Proof.Machine
end

