-- ==== Sys2Proof/Machine/Blocks.lean ====
section
/-! DEFINITION. Blocks of the formats BC1 to BC7 (R200), decoded as the Khronos Data Format Specification has it: R200 names that document
and repeats none of it, so this file is PRESUMED (log 7). A block is one number, its first byte lowest; a texel of it is 4y + x. -/

namespace Sys2Proof.Machine

/-! ### BC1 to BC5: exact fractions -/

/-- The two end colours of a colour block, five, six and five bits a channel, and the greatest code of each. -/
def endColour (w e k : Nat) : Nat × Nat :=
  match k with
  | 0 => (bitsAt w (16 * e + 11) 5, 31)
  | 1 => (bitsAt w (16 * e + 5) 6, 63)
  | _ => (bitsAt w (16 * e) 5, 31)

/-- Channel k of a texel of a colour block, a numerator and a denominator. With `three` a block whose first colour is not the greater
has one mean colour, and black (BC1). -/
def colourChannel (w : Nat) (three : Bool) (t k : Nat) : Nat × Nat :=
  let (a, top) := endColour w 0 k
  let b := (endColour w 1 k).1
  let code := bitsAt w (32 + 2 * t) 2
  if code = 0 then (a, top)
  else if code = 1 then (b, top)
  else if three && decide (bitsAt w 0 16 ≤ bitsAt w 16 16) then (if code = 2 then (a + b, 2 * top) else (0, 1))
  else if code = 2 then (2 * a + b, 3 * top) else (a + 2 * b, 3 * top)

/-- A texel of BC1 is clear where a block with a mean colour has its black. -/
def bc1Alpha (w t : Nat) : Nat × Nat :=
  if bitsAt w (32 + 2 * t) 2 = 3 ∧ bitsAt w 0 16 ≤ bitsAt w 16 16 then (0, 1) else (1, 1)

/-- A texel of an interpolated channel of 8 bytes (BC3's alpha, BC4, BC5): two ends and six values between them, or four, 0 and 1. -/
def rampChannel (w t : Nat) : Nat × Nat :=
  let a := bitsAt w 0 8
  let b := bitsAt w 8 8
  let code := bitsAt w (16 + 3 * t) 3
  if code = 0 then (a, 255)
  else if code = 1 then (b, 255)
  else if b < a then ((8 - code) * a + (code - 1) * b, 7 * 255)
  else if code < 6 then ((6 - code) * a + (code - 1) * b, 5 * 255)
  else (code - 6, 1)

/-! ### What BC6H and BC7 share -/

/-- The texels of the second subset, by partition: bit t for texel t. -/
def partitions2 : List Nat :=
  [0xCCCC, 0x8888, 0xEEEE, 0xECC8, 0xC880, 0xFEEC, 0xFEC8, 0xEC80, 0xC800, 0xFFEC, 0xFE80, 0xE800, 0xFFE8, 0xFF00, 0xFFF0, 0xF000] ++
  [0xF710, 0x008E, 0x7100, 0x08CE, 0x008C, 0x7310, 0x3100, 0x8CCE, 0x088C, 0x3110, 0x6666, 0x366C, 0x17E8, 0x0FF0, 0x718E, 0x399C] ++
  [0xAAAA, 0xF0F0, 0x5A5A, 0x33CC, 0x3C3C, 0x55AA, 0x9696, 0xA55A, 0x73CE, 0x13C8, 0x324C, 0x3BDC, 0x6996, 0xC33C, 0x9966, 0x0660] ++
  [0x0272, 0x04E4, 0x4E40, 0x2720, 0xC936, 0x936C, 0x39C6, 0x639C, 0x9336, 0x9CC6, 0x817E, 0xE718, 0xCCF0, 0x0FCC, 0x7744, 0xEE22]

/-- The subset of each texel of three, by partition: two bits a texel. -/
def partitions3 : List Nat :=
  [0xAA685050, 0x6A5A5040, 0x5A5A4200, 0x5450A0A8, 0xA5A50000, 0xA0A05050, 0x5555A0A0, 0x5A5A5050, 0xAA550000, 0xAA555500] ++
  [0xAAAA5500, 0x90909090, 0x94949494, 0xA4A4A4A4, 0xA9A59450, 0x2A0A4250, 0xA5945040, 0x0A425054, 0xA5A5A500, 0x55A0A0A0] ++
  [0xA8A85454, 0x6A6A4040, 0xA4A45000, 0x1A1A0500, 0x0050A4A4, 0xAAA59090, 0x14696914, 0x69691400, 0xA08585A0, 0xAA821414] ++
  [0x50A4A450, 0x6A5A0200, 0xA9A58000, 0x5090A0A8, 0xA8A09050, 0x24242424, 0x00AA5500, 0x24924924, 0x24499224, 0x50A50A50] ++
  [0x500AA550, 0xAAAA4444, 0x66660000, 0xA5A0A5A0, 0x50A050A0, 0x69286928, 0x44AAAA44, 0x66666600, 0xAA444444, 0x54A854A8] ++
  [0x95809580, 0x96969600, 0xA85454A8, 0x80959580, 0xAA141414, 0x96960000, 0xAAAA1414, 0xA05050A0, 0xA0A5A5A0, 0x96000000] ++
  [0x40804080, 0xA9A8A9A8, 0xAAAAAA44, 0x2A4A5254]

/-- The texel of the second subset of two whose index has one bit less. -/
def anchors2 : List Nat :=
  [15, 15, 15, 15, 15, 15, 15, 15, 15, 15, 15, 15, 15, 15, 15, 15, 15, 2, 8, 2, 2, 8, 8, 15, 2, 8, 2, 2, 8, 8, 2, 2] ++
  [15, 15, 6, 8, 2, 8, 15, 15, 2, 8, 2, 2, 2, 15, 15, 6, 6, 2, 6, 8, 15, 15, 2, 2, 15, 15, 15, 15, 15, 2, 2, 15]

/-- The same of the second and of the third subset of three. -/
def anchors31 : List Nat :=
  [3, 3, 15, 15, 8, 3, 15, 15, 8, 8, 6, 6, 6, 5, 3, 3, 3, 3, 8, 15, 3, 3, 6, 10, 5, 8, 8, 6, 8, 5, 15, 15] ++
  [8, 15, 3, 5, 6, 10, 8, 15, 15, 3, 15, 5, 15, 15, 15, 15, 3, 15, 5, 5, 5, 8, 5, 10, 5, 10, 8, 13, 15, 12, 3, 3]

def anchors32 : List Nat :=
  [15, 8, 8, 3, 15, 15, 3, 8, 15, 15, 15, 15, 15, 15, 15, 8, 15, 8, 15, 3, 15, 8, 15, 8, 3, 15, 6, 10, 15, 15, 10, 8] ++
  [15, 3, 15, 10, 10, 8, 9, 10, 6, 15, 8, 15, 3, 6, 6, 8, 15, 3, 15, 15, 15, 15, 15, 15, 15, 15, 15, 15, 3, 15, 15, 8]

/-- The subset that a texel is in. -/
def subsetOf (subsets partition t : Nat) : Nat :=
  if subsets = 2 then bitsAt (partitions2.getD partition 0) t 1
  else if subsets = 3 then bitsAt (partitions3.getD partition 0) (2 * t) 2
  else 0

/-- The texels whose indexes have one bit less. -/
def anchorsOf (subsets partition : Nat) : List Nat :=
  if subsets = 2 then [0, anchors2.getD partition 0]
  else if subsets = 3 then [0, anchors31.getD partition 0, anchors32.getD partition 0]
  else [0]

/-- The index of a texel, among indexes of some bits from a bit on. -/
def indexAt (w base bits : Nat) (anchors : List Nat) (t : Nat) : Nat :=
  bitsAt w (base + bits * t - (anchors.filter (fun a => decide (a < t))).length) (if anchors.contains t then bits - 1 else bits)

/-- The weight in 64ths of the second end, by an index's bits. -/
def indexWeight (bits i : Nat) : Nat :=
  if bits = 2 then [0, 21, 43, 64].getD i 0
  else if bits = 3 then [0, 9, 18, 27, 37, 46, 55, 64].getD i 0
  else [0, 4, 9, 13, 17, 21, 26, 30, 34, 38, 43, 47, 51, 55, 60, 64].getD i 0

/-! ### BC7 -/

/-- A mode of BC7: subsets; bits of the partition, the rotation, the choice of indexes, a colour, an alpha; a low bit for each end, or
for each subset; bits of an index, of a second index. -/
structure Bc7Mode where
  subsets : Nat
  part : Nat
  rot : Nat
  sel : Nat
  col : Nat
  alpha : Nat
  endBit : Bool
  setBit : Bool
  idx : Nat
  idx2 : Nat
  deriving DecidableEq, Repr

def bc7Modes : List Bc7Mode :=
  [⟨3, 4, 0, 0, 4, 0, true, false, 3, 0⟩, ⟨2, 6, 0, 0, 6, 0, false, true, 3, 0⟩, ⟨3, 6, 0, 0, 5, 0, false, false, 2, 0⟩,
    ⟨2, 6, 0, 0, 7, 0, true, false, 2, 0⟩, ⟨1, 0, 2, 1, 5, 6, false, false, 2, 3⟩, ⟨1, 0, 2, 0, 7, 8, false, false, 2, 2⟩,
    ⟨1, 0, 0, 0, 7, 7, true, false, 4, 0⟩, ⟨2, 6, 0, 0, 5, 5, true, false, 2, 0⟩]

/-- A code of some bits made 8 bits wide, its high bits repeated below. -/
def widen8 (v bits : Nat) : Nat := v * 2 ^ (8 - bits) + v * 2 ^ (8 - bits) / 2 ^ bits

/-- Channel k of end e: colour, or alpha, which is 255 where a mode has none. -/
def bc7End (w : Nat) (m : Bc7Mode) (start e k : Nat) : Nat :=
  let n := 2 * m.subsets
  let alphas := start + 3 * n * m.col
  let lows := alphas + n * m.alpha
  let bits := if k < 3 then m.col else m.alpha
  let v := if k < 3 then bitsAt w (start + (k * n + e) * m.col) m.col else bitsAt w (alphas + e * m.alpha) m.alpha
  if bits = 0 then 255
  else if m.endBit then widen8 (2 * v + bitsAt w (lows + e) 1) (bits + 1)
  else if m.setBit then widen8 (2 * v + bitsAt w (lows + e / 2) 1) (bits + 1)
  else widen8 v bits

/-- A texel of BC7, four channels of 8 bits; a block of no mode is all zeros. -/
def bc7Texel (w t : Nat) : List Nat :=
  match (List.range 8).find? (fun i => bitAt w i) with
  | none => [0, 0, 0, 0]
  | some mode =>
    match bc7Modes[mode]? with
    | none => [0, 0, 0, 0]
    | some m =>
      let partition := bitsAt w (mode + 1) m.part
      let rot := bitsAt w (mode + 1 + m.part) m.rot
      let swap := bitsAt w (mode + 1 + m.part + m.rot) m.sel
      let start := mode + 1 + m.part + m.rot + m.sel
      let n := 2 * m.subsets
      let first := start + n * (3 * m.col + m.alpha) + (if m.endBit then n else if m.setBit then m.subsets else 0)
      let s := subsetOf m.subsets partition t
      let i1 := (m.idx, indexAt w first m.idx (anchorsOf m.subsets partition) t)
      let i2 := if m.idx2 = 0 then i1 else (m.idx2, indexAt w (first + 16 * m.idx - 1) m.idx2 [0] t)
      let (ic, ia) := if swap = 1 then (i2, i1) else (i1, i2)
      let channel (k : Nat) : Nat :=
        let g := if k < 3 then indexWeight ic.1 ic.2 else indexWeight ia.1 ia.2
        ((64 - g) * bc7End w m start (2 * s) k + g * bc7End w m start (2 * s + 1) k + 32) / 64
      let k (j : Nat) : Nat := if rot ≠ 0 ∧ j = rot - 1 then 3 else if rot ≠ 0 ∧ j = 3 then rot - 1 else j
      (List.range 4).map (fun j => channel (k j))

/-! ### BC6H -/

/-- A mode of BC6H: its code, the bits of the first end, of the other ends a channel, whether these are differences, and the fields in
order: channel, end, lowest bit, bits. -/
structure Bc6Mode where
  code : Nat
  bits : Nat
  delta : List Nat
  moved : Bool
  fields : List (Nat × Nat × Nat × Nat)
  deriving DecidableEq, Repr

/-- Modes of two subsets. -/
def bc6Pairs : List Bc6Mode :=
  [{ code := 0, bits := 10, delta := [5, 5, 5], moved := true, fields :=
    [(1, 2, 4, 1), (2, 2, 4, 1), (2, 3, 4, 1), (0, 0, 0, 10), (1, 0, 0, 10), (2, 0, 0, 10), (0, 1, 0, 5), (1, 3, 4, 1),
    (1, 2, 0, 4), (1, 1, 0, 5), (2, 3, 0, 1), (1, 3, 0, 4), (2, 1, 0, 5), (2, 3, 1, 1), (2, 2, 0, 4), (0, 2, 0, 5), (2, 3, 2, 1),
    (0, 3, 0, 5), (2, 3, 3, 1)] },
  { code := 1, bits := 7, delta := [6, 6, 6], moved := true, fields :=
    [(1, 2, 5, 1), (1, 3, 4, 1), (1, 3, 5, 1), (0, 0, 0, 7), (2, 3, 0, 1), (2, 3, 1, 1), (2, 2, 4, 1), (1, 0, 0, 7), (2, 2, 5, 1),
    (2, 3, 2, 1), (1, 2, 4, 1), (2, 0, 0, 7), (2, 3, 3, 1), (2, 3, 5, 1), (2, 3, 4, 1), (0, 1, 0, 6), (1, 2, 0, 4), (1, 1, 0, 6),
    (1, 3, 0, 4), (2, 1, 0, 6), (2, 2, 0, 4), (0, 2, 0, 6), (0, 3, 0, 6)] },
  { code := 2, bits := 11, delta := [5, 4, 4], moved := true, fields :=
    [(0, 0, 0, 10), (1, 0, 0, 10), (2, 0, 0, 10), (0, 1, 0, 5), (0, 0, 10, 1), (1, 2, 0, 4), (1, 1, 0, 4), (1, 0, 10, 1),
    (2, 3, 0, 1), (1, 3, 0, 4), (2, 1, 0, 4), (2, 0, 10, 1), (2, 3, 1, 1), (2, 2, 0, 4), (0, 2, 0, 5), (2, 3, 2, 1), (0, 3, 0, 5),
    (2, 3, 3, 1)] },
  { code := 6, bits := 11, delta := [4, 5, 4], moved := true, fields :=
    [(0, 0, 0, 10), (1, 0, 0, 10), (2, 0, 0, 10), (0, 1, 0, 4), (0, 0, 10, 1), (1, 3, 4, 1), (1, 2, 0, 4), (1, 1, 0, 5),
    (1, 0, 10, 1), (1, 3, 0, 4), (2, 1, 0, 4), (2, 0, 10, 1), (2, 3, 1, 1), (2, 2, 0, 4), (0, 2, 0, 4), (2, 3, 0, 1), (2, 3, 2, 1),
    (0, 3, 0, 4), (1, 2, 4, 1), (2, 3, 3, 1)] },
  { code := 10, bits := 11, delta := [4, 4, 5], moved := true, fields :=
    [(0, 0, 0, 10), (1, 0, 0, 10), (2, 0, 0, 10), (0, 1, 0, 4), (0, 0, 10, 1), (2, 2, 4, 1), (1, 2, 0, 4), (1, 1, 0, 4),
    (1, 0, 10, 1), (2, 3, 0, 1), (1, 3, 0, 4), (2, 1, 0, 5), (2, 0, 10, 1), (2, 2, 0, 4), (0, 2, 0, 4), (2, 3, 1, 1), (2, 3, 2, 1),
    (0, 3, 0, 4), (2, 3, 4, 1), (2, 3, 3, 1)] }] ++
  [{ code := 14, bits := 9, delta := [5, 5, 5], moved := true, fields :=
    [(0, 0, 0, 9), (2, 2, 4, 1), (1, 0, 0, 9), (1, 2, 4, 1), (2, 0, 0, 9), (2, 3, 4, 1), (0, 1, 0, 5), (1, 3, 4, 1), (1, 2, 0, 4),
    (1, 1, 0, 5), (2, 3, 0, 1), (1, 3, 0, 4), (2, 1, 0, 5), (2, 3, 1, 1), (2, 2, 0, 4), (0, 2, 0, 5), (2, 3, 2, 1), (0, 3, 0, 5),
    (2, 3, 3, 1)] },
  { code := 18, bits := 8, delta := [6, 5, 5], moved := true, fields :=
    [(0, 0, 0, 8), (1, 3, 4, 1), (2, 2, 4, 1), (1, 0, 0, 8), (2, 3, 2, 1), (1, 2, 4, 1), (2, 0, 0, 8), (2, 3, 3, 1), (2, 3, 4, 1),
    (0, 1, 0, 6), (1, 2, 0, 4), (1, 1, 0, 5), (2, 3, 0, 1), (1, 3, 0, 4), (2, 1, 0, 5), (2, 3, 1, 1), (2, 2, 0, 4), (0, 2, 0, 6),
    (0, 3, 0, 6)] },
  { code := 22, bits := 8, delta := [5, 6, 5], moved := true, fields :=
    [(0, 0, 0, 8), (2, 3, 0, 1), (2, 2, 4, 1), (1, 0, 0, 8), (1, 2, 5, 1), (1, 2, 4, 1), (2, 0, 0, 8), (1, 3, 5, 1), (2, 3, 4, 1),
    (0, 1, 0, 5), (1, 3, 4, 1), (1, 2, 0, 4), (1, 1, 0, 6), (1, 3, 0, 4), (2, 1, 0, 5), (2, 3, 1, 1), (2, 2, 0, 4), (0, 2, 0, 5),
    (2, 3, 2, 1), (0, 3, 0, 5), (2, 3, 3, 1)] },
  { code := 26, bits := 8, delta := [5, 5, 6], moved := true, fields :=
    [(0, 0, 0, 8), (2, 3, 1, 1), (2, 2, 4, 1), (1, 0, 0, 8), (2, 2, 5, 1), (1, 2, 4, 1), (2, 0, 0, 8), (2, 3, 5, 1), (2, 3, 4, 1),
    (0, 1, 0, 5), (1, 3, 4, 1), (1, 2, 0, 4), (1, 1, 0, 5), (2, 3, 0, 1), (1, 3, 0, 4), (2, 1, 0, 6), (2, 2, 0, 4), (0, 2, 0, 5),
    (2, 3, 2, 1), (0, 3, 0, 5), (2, 3, 3, 1)] },
  { code := 30, bits := 6, delta := [6, 6, 6], moved := false, fields :=
    [(0, 0, 0, 6), (1, 3, 4, 1), (2, 3, 0, 1), (2, 3, 1, 1), (2, 2, 4, 1), (1, 0, 0, 6), (1, 2, 5, 1), (2, 2, 5, 1), (2, 3, 2, 1),
    (1, 2, 4, 1), (2, 0, 0, 6), (1, 3, 5, 1), (2, 3, 3, 1), (2, 3, 5, 1), (2, 3, 4, 1), (0, 1, 0, 6), (1, 2, 0, 4), (1, 1, 0, 6),
    (1, 3, 0, 4), (2, 1, 0, 6), (2, 2, 0, 4), (0, 2, 0, 6), (0, 3, 0, 6)] }]

/-- Modes of one. -/
def bc6Singles : List Bc6Mode :=
  [{ code := 3, bits := 10, delta := [10, 10, 10], moved := false, fields :=
    [(0, 0, 0, 10), (1, 0, 0, 10), (2, 0, 0, 10), (0, 1, 0, 10), (1, 1, 0, 10), (2, 1, 0, 10)] },
  { code := 7, bits := 11, delta := [9, 9, 9], moved := true, fields :=
    [(0, 0, 0, 10), (1, 0, 0, 10), (2, 0, 0, 10), (0, 1, 0, 9), (0, 0, 10, 1), (1, 1, 0, 9), (1, 0, 10, 1), (2, 1, 0, 9),
    (2, 0, 10, 1)] },
  { code := 11, bits := 12, delta := [8, 8, 8], moved := true, fields :=
    [(0, 0, 0, 10), (1, 0, 0, 10), (2, 0, 0, 10), (0, 1, 0, 8), (0, 0, 11, 1), (0, 0, 10, 1), (1, 1, 0, 8), (1, 0, 11, 1),
    (1, 0, 10, 1), (2, 1, 0, 8), (2, 0, 11, 1), (2, 0, 10, 1)] },
  { code := 15, bits := 16, delta := [4, 4, 4], moved := true, fields :=
    [(0, 0, 0, 10), (1, 0, 0, 10), (2, 0, 0, 10), (0, 1, 0, 4), (0, 0, 15, 1), (0, 0, 14, 1), (0, 0, 13, 1), (0, 0, 12, 1),
    (0, 0, 11, 1), (0, 0, 10, 1), (1, 1, 0, 4), (1, 0, 15, 1), (1, 0, 14, 1), (1, 0, 13, 1), (1, 0, 12, 1), (1, 0, 11, 1),
    (1, 0, 10, 1), (2, 1, 0, 4), (2, 0, 15, 1), (2, 0, 14, 1), (2, 0, 13, 1), (2, 0, 12, 1), (2, 0, 11, 1), (2, 0, 10, 1)] }]

/-- The bits of a channel of an end, gathered from the fields at a position on. -/
def bc6Field (w k e : Nat) : List (Nat × Nat × Nat × Nat) → Nat → Nat
  | [], _ => 0
  | (j, f, lo, n) :: fs, at_ => (if j = k ∧ f = e then bitsAt w at_ n * 2 ^ lo else 0) + bc6Field w k e fs (at_ + n)

/-- Bits as a signed number. -/
def signedBits (v bits : Nat) : Int := if v < 2 ^ (bits - 1) then v else (v : Int) - 2 ^ bits

/-- Channel k of end e: the first end's bits, or those bits and a difference, or bits of its own. -/
def bc6End (w : Nat) (m : Bc6Mode) (signed : Bool) (e k : Nat) : Int :=
  let at_ := if m.code < 2 then 2 else 5
  let first := bc6Field w k 0 m.fields at_
  let own := bc6Field w k e m.fields at_
  let d := m.delta.getD k 0
  let v : Nat := if e = 0 then first else if m.moved then (((first : Int) + signedBits own d) % 2 ^ m.bits).toNat else own
  let bits := if e = 0 ∨ m.moved then m.bits else d
  if signed then signedBits v bits else v

/-- An end made 16 bits wide. -/
def bc6Wide (signed : Bool) (bits : Nat) (v : Int) : Int :=
  if signed then
    if bits ≥ 16 then v
    else
      let a := v.natAbs
      let u : Nat := if a = 0 then 0 else if a ≥ 2 ^ (bits - 1) - 1 then 0x7FFF else (a * 2 ^ 15 + 0x4000) / 2 ^ (bits - 1)
      if v < 0 then -u else u
  else if bits ≥ 15 then v
  else if v = 0 then 0
  else if v = 2 ^ bits - 1 then 0xFFFF
  else (v * 2 ^ 16 + 0x8000) / 2 ^ bits

/-- An interpolated value as a half. -/
def bc6Half (signed : Bool) (v : Int) : Nat :=
  if signed then (if v < 0 then 0x8000 + v.natAbs * 31 / 32 else v.natAbs * 31 / 32) else v.natAbs * 31 / 64

/-- A texel of BC6H, three halves; a block of no mode is all zeros. -/
def bc6Texel (signed : Bool) (w t : Nat) : List Nat :=
  let code := if w % 4 < 2 then w % 4 else w % 32
  let texel (m : Bc6Mode) (subsets base idx : Nat) : List Nat :=
    let partition := bitsAt w 77 5
    let s := subsetOf subsets partition t
    let g : Int := indexWeight idx (indexAt w base idx (anchorsOf subsets partition) t)
    (List.range 3).map (fun k =>
      let a := bc6Wide signed m.bits (bc6End w m signed (2 * s) k)
      let b := bc6Wide signed m.bits (bc6End w m signed (2 * s + 1) k)
      bc6Half signed ((a * (64 - g) + b * g + 32) / 64))
  match bc6Pairs.find? (fun m => m.code == code), bc6Singles.find? (fun m => m.code == code) with
  | some m, _ => texel m 2 82 3
  | none, some m => texel m 1 65 4
  | none, none => [0, 0, 0]

end Sys2Proof.Machine
end

