-- ==== Sys2Proof/Machine/Texture.lean ====
section
/-! DEFINITION. Texture: class 10, majors 0x0E and 0x0F (R199 to R205). -/

namespace Sys2Proof.Machine

open Host (Outcome)

/-! ### Descriptors -/

/-- A texture descriptor (R199, R200). -/
structure TexDesc where
  base : Nat
  width : Nat
  height : Nat
  levels : Nat
  fmt : Nat
  flags : Nat
  net : Nat
  bias : Nat
  maxlod : Nat
  deriving DecidableEq, Repr

/-- The fields of 64 bytes. -/
def TexDesc.read (b : List Nat) : TexDesc where
  base := fieldAt b 0 8
  width := fieldAt b 8 2 + 1
  height := fieldAt b 10 2 + 1
  levels := fieldAt b 12 1
  fmt := fieldAt b 13 1
  flags := fieldAt b 14 1
  net := fieldAt b 16 8
  bias := fieldAt b 24 4
  maxlod := fieldAt b 28 4

/-- Footprints of the ASTC codes. -/
def astcSizes : List (Nat × Nat) :=
  [(4, 4), (5, 4), (5, 5), (6, 5), (6, 6), (8, 5), (8, 6), (8, 8), (10, 5), (10, 6), (10, 8), (10, 10), (12, 10), (12, 12)]

/-- The texels of a unit, across and down (R200). -/
def unitSize (fmt : Nat) : Nat × Nat :=
  if 0x10 ≤ fmt ∧ fmt ≤ 0x17 then (4, 4)
  else if 0x20 ≤ fmt ∧ fmt ≤ 0x2D then astcSizes.getD (fmt - 0x20) (4, 4)
  else (1, 1)

/-- The bytes of a unit. -/
def unitBytes (fmt : Nat) : Nat :=
  if fmt = 1 ∨ fmt = 3 then 4
  else if fmt = 2 ∨ fmt = 0x30 ∨ fmt = 0x10 ∨ fmt = 0x13 then 8
  else 16

/-- Formats of R200. -/
def fmtListed (fmt : Nat) : Bool :=
  (decide (1 ≤ fmt) && decide (fmt ≤ 3)) || (decide (0x10 ≤ fmt) && decide (fmt ≤ 0x17))
    || (decide (0x20 ≤ fmt) && decide (fmt ≤ 0x2D)) || fmt == 0x30

/-- Formats that take sRGB. -/
def fmtSrgb (fmt : Nat) : Bool :=
  fmt == 1 || (decide (0x10 ≤ fmt) && decide (fmt ≤ 0x12)) || fmt == 0x17 || (decide (0x20 ≤ fmt) && decide (fmt ≤ 0x2D))

def TexDesc.modeU (d : TexDesc) : Nat := d.flags % 4
def TexDesc.modeV (d : TexDesc) : Nat := d.flags / 4 % 4
def TexDesc.srgb (d : TexDesc) : Bool := bitAt d.flags 4
def TexDesc.filter (d : TexDesc) : Nat := d.flags / 32 % 4

/-- The checks of R200. -/
def descOk (b : List Nat) : Bool :=
  let d := TexDesc.read b
  fmtListed d.fmt && (!d.srgb || fmtSrgb d.fmt) && d.modeU != 3 && d.modeV != 3 && d.filter != 3 && !bitAt d.flags 7
    && fieldAt b 15 1 == 0 && (d.fmt == 0x30 || d.net == 0) && fieldAt b 32 32 == 0
    && decide (1 ≤ d.levels) && decide (d.levels ≤ 1 + Nat.log2 (max d.width d.height))
    && d.base % 65536 == 0 && d.net % 512 == 0

/-! ### Where a texel stands (R201) -/

def levelWidth (d : TexDesc) (k : Nat) : Nat := max 1 (d.width / 2 ^ k)
def levelHeight (d : TexDesc) (k : Nat) : Nat := max 1 (d.height / 2 ^ k)

/-- Units of a subtile across and down. -/
def subtile (fmt : Nat) : Nat × Nat :=
  let n := 4096 / unitBytes fmt
  let ws := 2 ^ ((Nat.log2 n + 1) / 2)
  (ws, n / ws)

/-- Tiles of a level across and down. -/
def levelTiles (d : TexDesc) (k : Nat) : Nat × Nat :=
  let (uw, uh) := unitSize d.fmt
  let (ws, hs) := subtile d.fmt
  let wu := (levelWidth d k + uw - 1) / uw
  let hu := (levelHeight d k + uh - 1) / uh
  ((wu + 4 * ws - 1) / (4 * ws), (hu + 4 * hs - 1) / (4 * hs))

/-- Where a level starts. -/
def levelBase (d : TexDesc) : Nat → Nat
  | 0 => d.base
  | k + 1 => levelBase d k + 65536 * (levelTiles d k).1 * (levelTiles d k).2

/-- The address of the unit that holds a texel. -/
def unitAddr (d : TexDesc) (k x y : Nat) : Nat :=
  let (uw, uh) := unitSize d.fmt
  let (ws, hs) := subtile d.fmt
  let ux := x / uw
  let uy := y / uh
  let sx := ux / ws % 4
  let sy := uy / hs % 4
  let tile := uy / (4 * hs) * (levelTiles d k).1 + ux / (4 * ws)
  levelBase d k + 65536 * tile + 4096 * (sx % 2 + 2 * (sy % 2) + 4 * (sx / 2) + 8 * (sy / 2))
    + unitBytes d.fmt * (uy % hs * ws + ux % ws)

/-! ### Which texels an access reads (R202) -/

/-- A texel: level, x, y. -/
abbrev Texel := Nat × Nat × Nat

/-- A bilinear footprint: t00, t10, t01, t11 and the fractions in 1/256. -/
structure Quad where
  level : Nat
  x0 : Nat
  x1 : Nat
  y0 : Nat
  y1 : Nat
  fx : Nat
  fy : Nat
  deriving DecidableEq, Repr

/-- What an access computes. -/
inductive TexPlan where
  | point (t : Texel)
  | bilinear (q : Quad)
  | trilinear (q r : Quad) (g : Nat)
  | gather (q : Quad) (channel : Nat)
  /-- a `fetch` of a level that is not there: the spec states no result (log 28) -/
  | unstated
  deriving DecidableEq, Repr

/-- An index reduced by an address mode: 0 wrap, 1 clamp, 2 mirror. -/
def reduceIndex (mode w : Nat) (i : Int) : Nat :=
  match mode with
  | 0 => (i % w).toNat
  | 1 => if i < 0 then 0 else min i.toNat (w - 1)
  | _ =>
    let m := (i % (2 * w)).toNat
    if m ≥ w then 2 * w - 1 - m else m

/-- The floor of a finite value, and its fraction as a numerator over `den`. -/
def floorFrac (v : FVal) : Option (Int × Nat × Nat) :=
  match v with
  | .fin n m e =>
    let num : Int := if n then -(scaleUp m e : Nat) else (scaleUp m e : Nat)
    let den := scaleUp 1 (-e)
    some (num / den, (num % den).toNat, den)
  | _ => none

/-- An index and a fraction of 1/256, ties to even, a full fraction carried; free where x is not finite (log 28). -/
def axisOf (x free : Nat) (half : Bool) : Int × Nat :=
  match floorFrac (Fmt.f32.decode x) with
  | none => (Config.freeValue free, Config.freeValue (free + 1) % 256)
  | some (i, r, den) =>
    let f := if half then (roundNat .rne false (r * 256) den).1 else 0
    if f = 256 then (i + 1, 0) else (i, f)

/-- A coordinate that is not finite is taken as 0. -/
def finiteOr0 (u : Nat) : Nat :=
  match Fmt.f32.decode u with
  | .fin _ _ _ => u
  | _ => 0

/-- A natural number as f32. -/
def f32OfNat (n : Nat) : Nat := (roundFrac .f32 .rne false false n 1).1

def f32Add (a b : Nat) : Nat := (fpAdd .f32 .rne a b).1
def f32Sub (a b : Nat) : Nat := (fpSub .f32 .rne a b).1
def f32Mul (a b : Nat) : Nat := (fpMul .f32 .rne a b).1
def f32Fma (a b c : Nat) : Nat := (fpFma .f32 .rne a b c).1
def f32Min (a b : Nat) : Nat := (fpMin .f32 a b).1
def f32Max (a b : Nat) : Nat := (fpMax .f32 a b).1

/-- The bilinear footprint of (u, v) on a level. -/
def quadOf (d : TexDesc) (level u v free : Nat) : Quad :=
  let w := levelWidth d level
  let h := levelHeight d level
  let (i, fx) := axisOf (f32Sub (f32Mul (finiteOr0 u) (f32OfNat w)) 0x3F000000) free true
  let (j, fy) := axisOf (f32Sub (f32Mul (finiteOr0 v) (f32OfNat h)) 0x3F000000) (free + 2) true
  { level := level, x0 := reduceIndex d.modeU w i, x1 := reduceIndex d.modeU w (i + 1)
    y0 := reduceIndex d.modeV h j, y1 := reduceIndex d.modeV h (j + 1), fx := fx, fy := fy }

/-- The texel of (u, v) on a level under the point filter. -/
def pointOf (d : TexDesc) (level u v free : Nat) : Texel :=
  let w := levelWidth d level
  let h := levelHeight d level
  (level, reduceIndex d.modeU w (axisOf (f32Mul (finiteOr0 u) (f32OfNat w)) free false).1,
    reduceIndex d.modeV h (axisOf (f32Mul (finiteOr0 v) (f32OfNat h)) (free + 2) false).1)

/-- √(a² + b²) in f32 steps. -/
def hypot (a b : Nat) : Nat := (fpSqrt .rne (f32Add (f32Mul a a) (f32Mul b b))).1

/-- The lod that gradients give (R202): du/dx, dv/dx, du/dy, dv/dy. -/
def gradLod (d : TexDesc) (bias dux dvx duy dvy : Nat) : Nat :=
  let w := f32OfNat d.width
  let h := f32OfNat d.height
  let rho := f32Max (hypot (f32Mul dux w) (f32Mul dvx h)) (hypot (f32Mul duy w) (f32Mul dvy h))
  f32Add (f32Add (fpLog2 rho).1 d.bias) bias

/-- The lod clamped; a NaN lod is a free level (log 28). -/
def clampLod (d : TexDesc) (lod free : Nat) : Nat :=
  let hi := f32Min (f32OfNat (d.levels - 1)) d.maxlod
  let lod := if (Fmt.f32.decode lod).isNan then f32OfNat (Config.freeValue free % d.levels) else lod
  f32Max 0 (f32Min lod hi)

/-- What an access of a function reads and computes; `args` are the coordinates captured at issue: u, v, the third, the
fourth, the gradients, and whether the quad is whole. Where the quad is not whole the bias is BIAS plus the operand, and where no
level follows the last, trilinear filtering samples the last again (DESIGN CHOICE, log 28). -/
def planOf (d : TexDesc) (fn : Nat) (args : List Nat) (free : Nat) : TexPlan :=
  let u := args.getD 0 0
  let v := args.getD 1 0
  let third := args.getD 2 0
  if fn = 3 then
    if third ≥ d.levels then .unstated
    else .point (third, reduceIndex d.modeU (levelWidth d third) u, reduceIndex d.modeV (levelHeight d third) v)
  else if fn = 4 then .gather (quadOf d 0 u v free) (args.getD 3 0 % 4)
  else
    let raw :=
      if fn = 1 then third
      else if args.getD 8 0 = 0 then f32Add d.bias third
      else gradLod d third (args.getD 4 0) (args.getD 5 0) (args.getD 6 0) (args.getD 7 0)
    let lod := clampLod d raw (free + 8)
    let near := ((floorFrac (Fmt.f32.decode (fpRint .rne lod).1)).map (fun x => x.1.toNat)).getD 0
    if d.filter = 0 then .point (pointOf d near u v free)
    else if d.filter = 1 then .bilinear (quadOf d near u v free)
    else
      let (l0, g) := match floorFrac (Fmt.f32.decode lod) with
        | some (i, r, den) => (i.toNat, (roundNat .rne false (r * 256) den).1)
        | none => (0, 0)
      .trilinear (quadOf d l0 u v free) (quadOf d (min (l0 + 1) (d.levels - 1)) u v (free + 4)) g

/-- The four texels of a footprint, in the order of R202. -/
def Quad.taps (q : Quad) : List Texel :=
  [(q.level, q.x0, q.y0), (q.level, q.x1, q.y0), (q.level, q.x0, q.y1), (q.level, q.x1, q.y1)]

/-- The texels a plan reads. -/
def TexPlan.taps (p : TexPlan) : List Texel :=
  match p with
  | .point t => [t]
  | .bilinear q => q.taps
  | .trilinear q r _ => q.taps ++ r.taps
  | .gather q _ => q.taps
  | .unstated => []

/-! ### The value of a texel (R200, R203) -/

/-- The fifth root of num/den to 2^-t, found bit by bit. -/
def root5 (num den t : Nat) : Nat → Nat → Nat
  | 0, r => r
  | k + 1, r => if (r + 2 ^ k) ^ 5 * den ≤ num * 2 ^ (5 * t) then root5 num den t k (r + 2 ^ k) else root5 num den t k r

/-- An entry of the sRGB table (R200): the transfer function of IEC 61966-2-1, rounded RNE. PRESUMED (log 29). -/
def srgbEntry (c : Nat) : Nat :=
  if c ≤ 10 then (roundFrac .f32 .rne false false (c * 100) (255 * 1292)).1
  else
    let r := root5 ((1000 * c + 14025) ^ 12) (269025 ^ 12) 64 66 0
    (roundFrac .f32 .rne false false (2 * r + 1) (2 ^ 65)).1

/-- A NaN as the canonical one (R255). -/
def canonF32 (v : Nat) : Nat := if (Fmt.f32.decode v).isNan then Fmt.f32.canonical else v

/-- A code of a format as f32. -/
def toF32 (f : Fmt) (code : Nat) : Nat := (roundVal .f32 .rne false (f.decode code)).1

/-- A channel of a fraction as f32; with sRGB, the entry of the nearest code of 8 bits (PRESUMED, log 7). -/
def unormChannel (srgb : Bool) (q : Nat × Nat) : Nat :=
  if srgb then srgbEntry ((510 * q.1 + q.2) / (2 * q.2)) else (roundFrac .f32 .rne false false q.1 q.2).1

/-- A channel of 16 bits of an ASTC texel as f32: the half below n / 65536, the greatest code 1; with sRGB, the entry of its high
byte (PRESUMED, log 7). -/
def astcChannel (srgb : Bool) (n : Nat) : Nat :=
  if srgb then srgbEntry (n / 256)
  else if n = 0xFFFF then 0x3F800000 else toF32 .f16 (roundFrac .f16 .rz false false n 65536).1

/-- The channels of texel (x, y) of a block, which is one number (R200). -/
def blockChannels (fmt : Nat) (srgb : Bool) (w x y : Nat) : List Nat :=
  let one := 0x3F800000
  let t := 4 * y + x
  let colours (half : Nat) (three : Bool) (alpha : Nat × Nat) : List Nat :=
    (List.range 3).map (fun k => unormChannel srgb (colourChannel half three t k)) ++ [unormChannel false alpha]
  if fmt = 0x10 then colours w true (bc1Alpha w t)
  else if fmt = 0x11 then colours (w / 2 ^ 64) false (bitsAt w (4 * t) 4, 15)
  else if fmt = 0x12 then colours (w / 2 ^ 64) false (rampChannel w t)
  else if fmt = 0x13 then [unormChannel false (rampChannel w t), 0, 0, one]
  else if fmt = 0x14 then [unormChannel false (rampChannel w t), unormChannel false (rampChannel (w / 2 ^ 64) t), 0, one]
  else if fmt = 0x15 ∨ fmt = 0x16 then (bc6Texel (fmt == 0x16) w t).map (toF32 .f16) ++ [one]
  else if fmt = 0x17 then (List.range 4).map (fun k => unormChannel (srgb && k != 3) ((bc7Texel w t).getD k 0, 255))
  else
    let (bw, bh) := unitSize fmt
    (List.range 4).map (fun k => astcChannel (srgb && k != 3) ((astcTexel bw bh srgb w x y).getD k 0))

/-- The channels of a texel as f32: four, or the eight latents of a latent texel. `unit` is the unit's bytes. -/
def texelChannels (d : TexDesc) (unit : List Nat) (x y : Nat) : List Nat :=
  let one := 0x3F800000
  if d.fmt = 1 then
    (List.range 4).map (fun k =>
      let n := unit.getD k 0
      if d.srgb && k != 3 then srgbEntry n else (roundFrac .f32 .rne false false n 255).1)
  else if d.fmt = 2 then (List.range 4).map (fun k => toF32 .f16 (fieldAt unit (2 * k) 2))
  else if d.fmt = 3 then [canonF32 (fieldAt unit 0 4), 0, 0, one]
  else if d.fmt = 0x30 then (List.range 8).map (fun k => toF32 .e4m3 (unit.getD k 0))
  else
    let (uw, uh) := unitSize d.fmt
    blockChannels d.fmt d.srgb (leNat unit) (x % uw) (y % uh)

/-- A fraction of 1/65536 or of 1/256 as f32. -/
def weight (n den : Nat) : Nat := (roundFrac .f32 .rne false false n den).1

/-- The four texels of a footprint weighted, channel by channel (R202). -/
def blend4 (q : Quad) (t00 t10 t01 t11 : List Nat) : List Nat :=
  let w00 := weight ((256 - q.fx) * (256 - q.fy)) 65536
  let w10 := weight (q.fx * (256 - q.fy)) 65536
  let w01 := weight ((256 - q.fx) * q.fy) 65536
  let w11 := weight (q.fx * q.fy) 65536
  (List.range t00.length).map (fun k =>
    f32Fma w11 (t11.getD k 0) (f32Fma w01 (t01.getD k 0) (f32Fma w10 (t10.getD k 0) (f32Mul w00 (t00.getD k 0)))))

/-- The same from a list of four. -/
def blendTaps (q : Quad) (ts : List (List Nat)) : List Nat := blend4 q (ts.getD 0 []) (ts.getD 1 []) (ts.getD 2 []) (ts.getD 3 [])

/-- One layer of the network of R203: a bias and fused steps. -/
def dotF16 (b : Nat) (ws xs : List Nat) : Nat :=
  (ws.zip xs).foldl (fun s wx => f32Fma (toF32 .f16 wx.1) wx.2 s) (toF32 .f16 b)

/-- The latents decoded by the network's 424 bytes (R203). -/
def decodeLatents (net : List Nat) (x : List Nat) : List Nat :=
  let h16 (at_ : Nat) : Nat := fieldAt net at_ 2
  let hidden := (List.range 16).map (fun j =>
    let s := dotF16 (h16 (256 + 2 * j)) ((List.range 8).map (fun i => h16 (16 * j + 2 * i))) x
    if (Fmt.f32.decode s).isNan then Fmt.f32.canonical
    else if ltVal (.fin false 0 0) (Fmt.f32.decode s) then s else 0)
  (List.range 4).map (fun k =>
    canonF32 (dotF16 (h16 (416 + 2 * k)) ((List.range 16).map (fun j => h16 (288 + 32 * k + 2 * j))) hidden))

/-- The four results of a plan from its texels' channels. -/
def texResult (d : TexDesc) (net : List Nat) (p : TexPlan) (ts : List (List Nat)) : List Nat :=
  let out (c : List Nat) : List Nat := if d.fmt = 0x30 then decodeLatents net c else c
  match p with
  | .point _ => out (ts.getD 0 [])
  | .bilinear q => out (blendTaps q ts)
  | .trilinear q r g =>
    let c0 := blendTaps q ts
    let c1 := blendTaps r (ts.drop 4)
    out ((List.range c0.length).map (fun k =>
      f32Fma (weight g 256) (c1.getD k 0) (f32Mul (weight (256 - g) 256) (c0.getD k 0))))
  | .gather _ ch => (ts.take 4).map (fun c => (out c).getD ch 0)
  | .unstated => []

/-! ### Reading -/

/-- Pieces of lines read where they were found to stand at issue, the line that has since moved at its new home (R169, R173); one of a
page that was not resident then waits. -/
def oldPieces (p : Part) : State → List (Nat × Nat) → Except AccErr (List Nat × State)
  | s, [] => .ok ([], s)
  | s, (va, n) :: ps =>
    match p.ranges.find? (fun r => decide (r.1 ≤ va) && decide (va + n ≤ r.1 + r.2.1) && va / 128 == r.1 / 128) with
    | none => .error (.trap 0x11 va [0])
    | some (_, _, .absent) => .error (.wait va va)
    | some (a, _, t) =>
      match oldRead s (t.plus (va - a)) va n with
      | .error e => .error e
      | .ok (v, s) =>
        match oldPieces p s ps with
        | .error e => .error e
        | .ok (bs, s) => .ok (natLe n v ++ bs, s)

/-- Bytes a texture access reads: none where the page is not resident. Where the mapping has since been taken away they are
read where they stood at issue (R169). A register of the I/O die gives a value the spec does not state (log 18). -/
def texRead (s : State) (w : Warp) (p : Part) (va n : Nat) : Except AccErr (Option (List Nat) × State) :=
  let found (r : Except AccErr (List Nat × State)) : Except AccErr (Option (List Nat) × State) :=
    match r with
    | .ok (b, s) => .ok (some b, s)
    | .error (.wait _ _) => .ok (none, s)
    | .error (.refused _) => .ok (none, s)
    | .error (.io _) => .ok (some (natLe n (Config.freeValue s.free)), { s with free := s.free + 1 })
    | .error e => .error e
  match readMem s w.ctx w.block 0 va n with
  | .ok r => found (.ok r)
  | .error e => found (if mappingGone e then oldPieces p s (linePieces (n + 1) va n) else .error e)

/-- Read several ranges; none where one of them is not resident. Each waits for the lane's own earlier accesses to its bytes
(R208): the error is then a wait of no page. An error comes with the state that holds the traces of the reads made before it (R338). -/
def texReads (w : Warp) (oid : Nat) (p : Part) :
    State → List (Nat × Nat) → Except (AccErr × State) (Option (List (List Nat)) × State)
  | s, [] => .ok (some [], s)
  | s, (va, n) :: rest =>
    if !rangeOk s w oid p.lane va n then .error (.refill 0 0, s)
    else
      match texRead s w p va n with
      | .error e => .error (e, s)
      | .ok (b, s) =>
        match texReads w oid p (traceRead s w.ctx w.launch (w.origin p.lane) va n) rest with
        | .error e => .error e
        | .ok (bs, s) => .ok (match b, bs with | some x, some xs => some (x :: xs) | _, _ => none, s)

/-- The ranges a plan reads: its texels' units, then the network. -/
def planRanges (d : TexDesc) (p : TexPlan) : List (Nat × Nat) :=
  p.taps.map (fun t => (unitAddr d t.1 t.2.1 t.2.2, unitBytes d.fmt)) ++ (if d.fmt = 0x30 then [(d.net, 512)] else [])

/-- The 128 bits of four f32 results. -/
def packWords (ws : List Nat) : Nat := ws.foldr (fun v n => v % 2 ^ 32 + 2 ^ 32 * n) 0

/-- The result of one lane of `m.tex` or `m.texq`, its descriptor read. -/
def texValue (d : TexDesc) (query : Bool) (fn : Nat) (p : TexPlan) (args : List Nat) (free : Nat) (bytes : List (List Nat)) : Nat :=
  if query then
    if fn = 0 then
      (if args.getD 0 0 ≥ d.levels then 0 else levelWidth d (args.getD 0 0) + 2 ^ 32 * levelHeight d (args.getD 0 0))
    else if fn = 1 then d.levels
    else d.fmt + 256 * d.flags
  else
    match p with
    | .unstated => packWords ((List.range 4).map (fun k => Config.freeValue (free + k)))
    | _ =>
      let chans := (p.taps.zip bytes).map (fun x => texelChannels d x.2 x.1.2.1 x.1.2.2)
      packWords ((texResult d ((bytes.getLast?).getD []) p chans).map canonF32)

/-- The value of a lane's texture access, none where a page is not resident; its descriptor is checked as it stands when it is
read (R200, R205): an error then is TEX_DESCRIPTOR. -/
def texLane (query : Bool) (fn : Nat) (s : State) (w : Warp) (o : Op) (p : Part) : Except (AccErr × State) (Option Nat × State) :=
  match texReads w o.id p s [(p.va, 64)] with
  | .error e => .error e
  | .ok (some [b], s) =>
    if !descOk b then .error (.trap 0x16 p.va [], s)
    else
      let d := TexDesc.read b
      let free := s.free
      let plan := if query then .unstated else planOf d fn p.args free
      (match texReads w o.id p { s with free := s.free + 16 } (if query then [] else planRanges d plan) with
       | .error e => .error e
       | .ok (some bytes, s) => .ok (some (texValue d query fn plan p.args free bytes), s)
       | .ok (none, s) => .ok (none, s))
  | .ok (_, s) => .ok (none, s)

/-- A texture access of one lane performed (R199 to R205): zero and the SR.ABSENT bit where a page is not resident. It waits for
what it reads of remote pages (R176). -/
def performTex (query : Bool) (fn : Nat) (s : State) (w : Warp) (o : Op) (p : Part) : Performed :=
  match texLane query fn (asReader s o.id) w o p with
  | .ok (some v, s) => .yes (asReader s 0) { p with done := true, got := v, present := true }
  | .ok (none, s) =>
    let s := traceAlways (asReader s 0) w.launch (w.origin p.lane)
    let bit := oneLane p.lane
    .yes (s.updWarp w.id (fun w => { w with absent := w.absent ||| bit })) { p with done := true, got := 0 }
  | .error (.remote va peer addr n, s1) =>
    (match s.ctx? w.ctx with
     | none => .held s
     | some c =>
       match askRemote s c w.id o.id p.lane va peer addr n with
       | .ok s => .held s
       | .error (cause, detail) => .yes (keepReads s s1) { p with refused := some cause, va := va, args := detail })
  | .error (e, s1) => refusal (keepReads s s1) w p e

/-! ### Issue -/

/-- The descriptor of a lane as it stands at issue, none where its page is not resident or cannot be read here. -/
def descNow (s : State) (w : Warp) (va : Nat) : Option (List Nat) :=
  match readMem s w.ctx w.block 0 va 64 with
  | .ok (b, _) => some b
  | .error _ => none

/-- The ranges a lane reads besides its descriptor, where the descriptor can be read at issue. -/
def rangesNow (x : Cx) (query : Bool) (fn va : Nat) (args : List Nat) : List (Nat × Nat) :=
  if query then []
  else
    match descNow x.s x.w va with
    | some b => planRanges (TexDesc.read b) (planOf (TexDesc.read b) fn args x.s.free)
    | none => []

/-- What refuses a texel or network range at issue (R205). -/
def rangeErrs (s : State) (c : Ctx) (w : Warp) (lane : Nat) (rs : List (Nat × Nat)) : List (Nat × Nat × AccErr) :=
  rs.filterMap (fun r =>
    match judge s c w.block .texel 0 r.1 r.2 with
    | .error e => some (lane, errRank r.1 e, e)
    | .ok _ => none)

/-- The bytes a lane names besides its descriptor's. A descriptor that cannot be read at issue may name any byte, so that every later
access of the lane waits for this one (R208). -/
def namedBytes (x : Cx) (query : Bool) (fn va : Nat) (args : List Nat) : List (Nat × Nat × Target) :=
  if query || (descNow x.s x.w va).isSome then rangePlaces x.s x.w (rangesNow x query fn va args) else [(0, 2 ^ 56, .absent)]

/-- The descriptors of lanes can be read at issue: nothing issued before has still to be performed to them (R183, R194, R208). -/
def holdDescs (x : Cx) (addr : Nat → Nat) : List Nat → Except Stop Unit
  | [] => .ok ()
  | l :: ls =>
    match holdRead x.s x.w l (addr l) 64 false with
    | .error e => .error e
    | .ok _ => holdDescs x addr ls

/-- A texture instruction: registers checked, descriptors checked, texels checked, one part a lane (R199 to R205). -/
def texOp (s : State) (reserved : Nat) (query : Bool) (fn d a : Nat) (coords dsts : List Nat) (args : Cx → Nat → List Nat) :
    Outcome State Fault Refusal :=
  issue s (memInfo false false reserved) (fun x =>
    match checkRegs x.w x.act ([a, a + 1] ++ coords) dsts with
    | .error e => .error e
    | .ok _ =>
      let addr := x.addr a 0
      match judgeLanes x.s x.c x.w.block .texel x.opField 64 addr x.act with
      | .error e => .error e
      | .ok places =>
        match holdDescs x addr (lanesOf x.act) with
        | .error e => .error e
        | .ok _ =>
          match lanesWhere x.act (fun l => match descNow x.s x.w (addr l) with | some b => !descOk b | none => false) with
          | some (who, l) => .error (.trap who 0x16 (addr l) [])
          | none =>
            match stopOfLanes ((lanesOf x.act).flatMap (fun l =>
                rangeErrs x.s x.c x.w l (rangesNow x query fn (addr l) (args x l)))) with
            | some e => .error e
            | none =>
              match holdFull x.w 0 with
              | .error e => .error e
              | .ok _ =>
                let parts := places.map (fun p =>
                  { mkPart p.1 (addr p.1) 64 p.2 0 0 with
                    args := args x p.1
                    also := namedBytes x query fn (addr p.1) (args x p.1) })
                .ok (x.issueOp x.wd 0 (if query then .texq fn d else .tex fn d) parts x.scope dsts x.act))

/-- The coordinates of a lane, its quad's gradients where the four lanes are active, and whether they are (R202). -/
def sampleArgs (b : Nat) (x : Cx) (l : Nat) : List Nat :=
  let q := l / 4 * 4
  let whole := (List.range 4).all (fun k => inMask x.act (q + k))
  let diff (k n : Nat) : Nat := f32Sub (x.w.val (q + k) n) (x.w.val q n)
  (List.range 4).map (fun k => x.w.val l (b + k)) ++ [diff 1 b, diff 1 (b + 1), diff 2 b, diff 2 (b + 1)]
    ++ [if whole then 1 else 0]

/-- Misaligned fields of `m.tex`: d and b groups of four, or b a group of eight. -/
def texReserved (d a b : Nat) (eight : Bool) : Nat :=
  misaligned d 14 2 + misaligned a 7 1 + misaligned b 0 (if eight then 3 else 2)

/-- `m.tex.sample`. -/
def execMTexSample (d a b : Nat) (s : State) : Outcome State Fault Refusal :=
  texOp s (texReserved d a b false) false 0 d a (regsFrom b 4) (regsFrom d 4) (sampleArgs b)

/-- `m.tex.sample.lod`. -/
def execMTexSampleLod (d a b : Nat) (s : State) : Outcome State Fault Refusal :=
  texOp s (texReserved d a b false) false 1 d a (regsFrom b 4) (regsFrom d 4)
    (fun x l => (regsFrom b 4).map (x.w.val l))

/-- `m.tex.sample.grad`. -/
def execMTexSampleGrad (d a b : Nat) (s : State) : Outcome State Fault Refusal :=
  texOp s (texReserved d a b true) false 2 d a (regsFrom b 8) (regsFrom d 4)
    (fun x l => (regsFrom b 8).map (x.w.val l) ++ [1])

/-- `m.tex.fetch`. -/
def execMTexFetch (d a b : Nat) (s : State) : Outcome State Fault Refusal :=
  texOp s (texReserved d a b false) false 3 d a (regsFrom b 4) (regsFrom d 4)
    (fun x l => (regsFrom b 4).map (x.w.val l))

/-- `m.tex.gath4`. -/
def execMTexGath4 (d a b : Nat) (s : State) : Outcome State Fault Refusal :=
  texOp s (texReserved d a b false) false 4 d a (regsFrom b 4) (regsFrom d 4)
    (fun x l => (regsFrom b 4).map (x.w.val l))

/-- `m.texq.size` (R204). -/
def execMTexqSize (d a b : Nat) (s : State) : Outcome State Fault Refusal :=
  texOp s (misaligned d 14 1 + misaligned a 7 1) true 0 d a [b] [d, d + 1] (fun x l => [x.w.val l b])

/-- `m.texq.levels`. -/
def execMTexqLevels (d a : Nat) (s : State) : Outcome State Fault Refusal :=
  texOp s (misaligned a 7 1) true 1 d a [] [d] (fun _ _ => [])

/-- `m.texq.format`. -/
def execMTexqFormat (d a : Nat) (s : State) : Outcome State Fault Refusal :=
  texOp s (misaligned a 7 1) true 2 d a [] [d] (fun _ _ => [])

/-- TEX_RETIRE (R202): the lanes' accesses are performed and the operation retires in order. -/
def execTexRetire (op : Nat) (s : State) : Outcome State Fault Refusal :=
  match s.awakeOp? op with
  | none => .next s
  | some (_, o) =>
    match o.kind with
    | .tex fn _ => .next (performOp (performTex false fn) op s (List.range 32))
    | .texq fn _ => .next (performOp (performTex true fn) op s (List.range 32))
    | _ => .next s

end Sys2Proof.Machine
end

