-- ==== Sys2Proof/Machine/Words.lean ====
section
/-! DEFINITION. A word that is no instruction (R58, R66): what it raises. -/

namespace Sys2Proof.Machine

open Host (Outcome)

/-- A word of an allocated cell whose operands name nothing allocated (R54, R56, R57). -/
def operandIllegal (w : Nat) : Bool :=
  match fld w 25 7 with
  | 0x09 => !cvtListed (fld w 21 4) (fld w 3 4)
  | 0x29 => !cvtListed (fld w 21 4) (fld w 3 4)
  | 0x4C => fld w 21 3 == 7
  | 0x52 => decide (fld w 21 4 ≥ 14)
  | 0x68 => !srAssigned (fld w 7 7)
  | 0x69 => !(fld w 7 7 == 33 || fld w 7 7 == 34)
  | 0x6B => decide (fld w 7 7 > 4)
  | _ => false

/-- Bits of such a word that hold a reserved value outside its reserved fields (R45, R47, R48): misaligned register fields,
scopes above fabric. -/
def operandReserved (w : Nat) : Nat :=
  let major := fld w 25 7
  let op := fld w 21 4
  let d := fld w 14 7
  let a := fld w 7 7
  if major = 0x09 ∨ major = 0x29 then (cvtInfo 0 op d a (fld w 3 4) (fld w 2 1)).reserved
  else if major = 0x49 then maReserved (if op = 1 then 8 else 4) 0 a (fld w 0 7) false
  else if major = 0x4B then (if fld w 22 3 ≥ 6 then 7 * 2 ^ 22 else 0)
  else if major = 0x4C then maReserved (if op ≥ 8 then 8 else 4) 0 a (fld w 0 7) false
  else if major = 0x4D ∨ major = 0x4F then misaligned a 7 1
  else if 0x50 ≤ major ∧ major ≤ 0x5F then misaligned d 14 1
  else if major = 0x62 then (if op = 1 then misaligned d 14 1 else 0) + misaligned a 7 1
  else if major = 0x64 then misaligned a 7 1
  else if major = 0x65 then (if fld w 18 3 ≥ 6 then 7 * 2 ^ 18 else 0)
  else if major = 0x68 then (if srPair a then misaligned d 14 1 else 0)
  else if major = 0x6B then (if a = 2 then misaligned d 14 1 else 0)
  else 0

/-- Format words with a 4-bit function code from 0 to `last`, and the reserved bits of each. -/
def upTo (fn last : Nat) (mask : Nat) : Option Nat := if fn ≤ last then some mask else none

/-- The reserved bits of an ALU word set in it, none where its cell is not allocated (R51 to R53). -/
def aluCell (w : Nat) : Option Nat :=
  let fn := fld w 21 4
  match fld w 25 5 with
  | 0x00 => upTo fn 13 0
  | 0x01 => upTo fn 13 0
  | 0x02 => some (if fn ≥ 11 then held w 0 7 else 0)
  | 0x03 => if fn = 14 then some (held w 7 7) else upTo fn 10 0
  | 0x04 => upTo fn 9 0
  | 0x05 => some 0
  | 0x06 => upTo fn 9 (if fn = 6 ∨ fn = 7 ∨ fn = 9 then held w 0 7 else 0)
  | 0x07 => upTo fn 11 (held w 0 7)
  | 0x08 => if fn = 6 ∨ fn = 7 then none else upTo fn 13 0
  | 0x09 => some (held w 0 2)
  | 0x0A => some 0
  | 0x0B => some 0
  | 0x0C => some (if fld w 21 1 = 0 then 0 else held w 0 14 + held w 22 3)
  | 0x0F => upTo fn 1 0
  | _ => none

/-- The same for predicate and cross-lane words (R53). -/
def laneCell (w : Nat) : Option Nat :=
  let fn := fld w 21 4
  match fld w 25 5 with
  | 0x0D => upTo fn 8 (if fn ≤ 6 then held w 0 18 else held w 7 14)
  | 0x0E => upTo fn 12 (if fn = 5 ∨ fn = 11 then held w 0 7 else 0)
  | _ => aluCell w

/-- The same for class 10 (R54, R55). -/
def memCell (w : Nat) : Option Nat :=
  let fn := fld w 21 4
  match fld w 25 5 with
  | 0x00 => some 0
  | 0x01 => some 0
  | 0x02 => some 0
  | 0x03 => some 0
  | 0x04 => some 0
  | 0x05 => some 0
  | 0x06 => upTo fn 8 0
  | 0x07 => upTo fn 8 0
  | 0x08 => upTo fn 4 0
  | 0x09 => upTo fn 13 (held w 14 7)
  | 0x0A => upTo fn 1 0
  | 0x0B => some (held w 0 20 + if fld w 20 2 = 3 then held w 20 2 else 0)
  | 0x0C => some (held w 14 7)
  | 0x0D => upTo fn 2 (held w 0 7 + if fn = 1 then 0 else held w 14 7)
  | 0x0E => upTo fn 4 0
  | 0x0F => upTo fn 2 (if fn = 0 then 0 else held w 0 7)
  | 0x10 => upTo fn 0 (held w 2 6)
  | 0x11 => upTo fn 0 (held w 0 8)
  | 0x12 => some (held w 0 8)
  | 0x13 => upTo fn 0 (held w 0 14)
  | 0x14 => upTo fn 0 (held w 0 14)
  | 0x15 => upTo fn 0 (held w 0 14)
  | 0x16 => upTo fn 1 (held w 0 8)
  | 0x17 => upTo fn 0 (held w 0 8)
  | 0x18 => upTo fn 0 (held w 0 8)
  | 0x19 => upTo fn 1 (if fn = 0 then held w 0 14 else held w 7 7)
  | 0x1A => upTo fn 0 (held w 6 8)
  | 0x1B => upTo fn 0 (held w 0 8)
  | 0x1C => upTo fn 0 (held w 3 11)
  | 0x1D => upTo fn 0 (held w 0 14)
  | 0x1E => upTo fn 0 (held w 0 14)
  | _ => upTo fn 0 (held w 0 14)

/-- The same for class 11 apart from hints (R56). -/
def ctlCell (w : Nat) : Option Nat :=
  let fn := fld w 21 4
  match fld w 25 5 with
  | 0x00 => some 0
  | 0x01 => some 0
  | 0x02 => upTo fn 2 (held w 0 7 + if fn = 1 then 0 else held w 14 7)
  | 0x03 => some (held w 0 1)
  | 0x04 => upTo fn 3 (held w 0 7 + if fn = 2 then 0 else held w 14 7)
  | 0x05 => upTo fn 2 (held w 0 14)
  | 0x06 => upTo fn 3 (if fn = 3 then held w 7 14 else held w 0 21)
  | 0x07 => some (held w 3 22)
  | 0x08 => upTo fn 0 (held w 0 7)
  | 0x09 => upTo fn 0 (held w 14 7)
  | 0x0A => upTo fn 1 (held w 14 7)
  | 0x0B => upTo fn 0 (held w 0 7)
  | _ => none

/-- The reserved bits of a word, hints apart, that are set in it; none where its cell is not allocated. -/
def wordCell (w : Nat) : Option Nat :=
  match fld w 30 2 with
  | 0 => aluCell w
  | 1 => laneCell w
  | 2 => memCell w
  | _ => ctlCell w

/-- What a word that is no instruction raises, none where it is one: ILLEGAL_OPCODE, or RESERVED_FIELD with its mask. -/
def wordInfo (w : Nat) : Option Info :=
  match wordCell w with
  | none => some { Info.plain 3 with illegal := true }
  | some m =>
    if m = 0 then none else some { Info.plain 3 with illegal := operandIllegal w, reserved := m + operandReserved w }

/-- UNALLOCATED_WORD: a hint word is judged with its group; another traps. -/
def execUnallocatedWord (w : Nat) (s : State) : Outcome State Fault Refusal :=
  if isHint w then appendHint s
  else
    match wordInfo w with
    | none => .next s
    | some i => issue s i (fun x => .ok (x.done x.s x.wd))

end Sys2Proof.Machine
end

