-- ==== Sys2Proof/Machine/Dispatch.lean ====
section
/-! DEFINITION. The dispatch of every instruction to its meaning. -/

namespace Sys2Proof.Machine

def exec (i : Instr) (s : State) : Host.Outcome State Fault Refusal :=
  match i with
  | .sAdd d a b => Sys2Proof.Machine.execSAdd d a b s
  | .sAddImm d a imm => Sys2Proof.Machine.execSAddImm d a imm s
  | .vAdd d a b => Sys2Proof.Machine.execVAdd d a b s
  | .vAddImm d a imm => Sys2Proof.Machine.execVAddImm d a imm s
  | .sSub d a b => Sys2Proof.Machine.execSSub d a b s
  | .sSubImm d a imm => Sys2Proof.Machine.execSSubImm d a imm s
  | .vSub d a b => Sys2Proof.Machine.execVSub d a b s
  | .vSubImm d a imm => Sys2Proof.Machine.execVSubImm d a imm s
  | .sMullo d a b => Sys2Proof.Machine.execSMullo d a b s
  | .sMulloImm d a imm => Sys2Proof.Machine.execSMulloImm d a imm s
  | .vMullo d a b => Sys2Proof.Machine.execVMullo d a b s
  | .vMulloImm d a imm => Sys2Proof.Machine.execVMulloImm d a imm s
  | .sMulhiS d a b => Sys2Proof.Machine.execSMulhiS d a b s
  | .sMulhiSImm d a imm => Sys2Proof.Machine.execSMulhiSImm d a imm s
  | .vMulhiS d a b => Sys2Proof.Machine.execVMulhiS d a b s
  | .vMulhiSImm d a imm => Sys2Proof.Machine.execVMulhiSImm d a imm s
  | .sMulhiZ d a b => Sys2Proof.Machine.execSMulhiZ d a b s
  | .sMulhiZImm d a imm => Sys2Proof.Machine.execSMulhiZImm d a imm s
  | .vMulhiZ d a b => Sys2Proof.Machine.execVMulhiZ d a b s
  | .vMulhiZImm d a imm => Sys2Proof.Machine.execVMulhiZImm d a imm s
  | .sMad d a b => Sys2Proof.Machine.execSMad d a b s
  | .sMadImm d a imm => Sys2Proof.Machine.execSMadImm d a imm s
  | .vMad d a b => Sys2Proof.Machine.execVMad d a b s
  | .vMadImm d a imm => Sys2Proof.Machine.execVMadImm d a imm s
  | .sMinS d a b => Sys2Proof.Machine.execSMinS d a b s
  | .sMinSImm d a imm => Sys2Proof.Machine.execSMinSImm d a imm s
  | .vMinS d a b => Sys2Proof.Machine.execVMinS d a b s
  | .vMinSImm d a imm => Sys2Proof.Machine.execVMinSImm d a imm s
  | .sMaxS d a b => Sys2Proof.Machine.execSMaxS d a b s
  | .sMaxSImm d a imm => Sys2Proof.Machine.execSMaxSImm d a imm s
  | .vMaxS d a b => Sys2Proof.Machine.execVMaxS d a b s
  | .vMaxSImm d a imm => Sys2Proof.Machine.execVMaxSImm d a imm s
  | .sMinZ d a b => Sys2Proof.Machine.execSMinZ d a b s
  | .sMinZImm d a imm => Sys2Proof.Machine.execSMinZImm d a imm s
  | .vMinZ d a b => Sys2Proof.Machine.execVMinZ d a b s
  | .vMinZImm d a imm => Sys2Proof.Machine.execVMinZImm d a imm s
  | .sMaxZ d a b => Sys2Proof.Machine.execSMaxZ d a b s
  | .sMaxZImm d a imm => Sys2Proof.Machine.execSMaxZImm d a imm s
  | .vMaxZ d a b => Sys2Proof.Machine.execVMaxZ d a b s
  | .vMaxZImm d a imm => Sys2Proof.Machine.execVMaxZImm d a imm s
  | .sAbsdiff d a b => Sys2Proof.Machine.execSAbsdiff d a b s
  | .sAbsdiffImm d a imm => Sys2Proof.Machine.execSAbsdiffImm d a imm s
  | .vAbsdiff d a b => Sys2Proof.Machine.execVAbsdiff d a b s
  | .vAbsdiffImm d a imm => Sys2Proof.Machine.execVAbsdiffImm d a imm s
  | .sAddsatS d a b => Sys2Proof.Machine.execSAddsatS d a b s
  | .sAddsatSImm d a imm => Sys2Proof.Machine.execSAddsatSImm d a imm s
  | .vAddsatS d a b => Sys2Proof.Machine.execVAddsatS d a b s
  | .vAddsatSImm d a imm => Sys2Proof.Machine.execVAddsatSImm d a imm s
  | .sSubsatS d a b => Sys2Proof.Machine.execSSubsatS d a b s
  | .sSubsatSImm d a imm => Sys2Proof.Machine.execSSubsatSImm d a imm s
  | .vSubsatS d a b => Sys2Proof.Machine.execVSubsatS d a b s
  | .vSubsatSImm d a imm => Sys2Proof.Machine.execVSubsatSImm d a imm s
  | .sAvgZ d a b => Sys2Proof.Machine.execSAvgZ d a b s
  | .sAvgZImm d a imm => Sys2Proof.Machine.execSAvgZImm d a imm s
  | .vAvgZ d a b => Sys2Proof.Machine.execVAvgZ d a b s
  | .vAvgZImm d a imm => Sys2Proof.Machine.execVAvgZImm d a imm s
  | .sAnd d a b => Sys2Proof.Machine.execSAnd d a b s
  | .sAndImm d a imm => Sys2Proof.Machine.execSAndImm d a imm s
  | .vAnd d a b => Sys2Proof.Machine.execVAnd d a b s
  | .vAndImm d a imm => Sys2Proof.Machine.execVAndImm d a imm s
  | .sOr d a b => Sys2Proof.Machine.execSOr d a b s
  | .sOrImm d a imm => Sys2Proof.Machine.execSOrImm d a imm s
  | .vOr d a b => Sys2Proof.Machine.execVOr d a b s
  | .vOrImm d a imm => Sys2Proof.Machine.execVOrImm d a imm s
  | .sXor d a b => Sys2Proof.Machine.execSXor d a b s
  | .sXorImm d a imm => Sys2Proof.Machine.execSXorImm d a imm s
  | .vXor d a b => Sys2Proof.Machine.execVXor d a b s
  | .vXorImm d a imm => Sys2Proof.Machine.execVXorImm d a imm s
  | .sAndn d a b => Sys2Proof.Machine.execSAndn d a b s
  | .sAndnImm d a imm => Sys2Proof.Machine.execSAndnImm d a imm s
  | .vAndn d a b => Sys2Proof.Machine.execVAndn d a b s
  | .vAndnImm d a imm => Sys2Proof.Machine.execVAndnImm d a imm s
  | .sOrn d a b => Sys2Proof.Machine.execSOrn d a b s
  | .sOrnImm d a imm => Sys2Proof.Machine.execSOrnImm d a imm s
  | .vOrn d a b => Sys2Proof.Machine.execVOrn d a b s
  | .vOrnImm d a imm => Sys2Proof.Machine.execVOrnImm d a imm s
  | .sXnor d a b => Sys2Proof.Machine.execSXnor d a b s
  | .sXnorImm d a imm => Sys2Proof.Machine.execSXnorImm d a imm s
  | .vXnor d a b => Sys2Proof.Machine.execVXnor d a b s
  | .vXnorImm d a imm => Sys2Proof.Machine.execVXnorImm d a imm s
  | .sShl d a b => Sys2Proof.Machine.execSShl d a b s
  | .sShlImm d a imm => Sys2Proof.Machine.execSShlImm d a imm s
  | .vShl d a b => Sys2Proof.Machine.execVShl d a b s
  | .vShlImm d a imm => Sys2Proof.Machine.execVShlImm d a imm s
  | .sShr d a b => Sys2Proof.Machine.execSShr d a b s
  | .sShrImm d a imm => Sys2Proof.Machine.execSShrImm d a imm s
  | .vShr d a b => Sys2Proof.Machine.execVShr d a b s
  | .vShrImm d a imm => Sys2Proof.Machine.execVShrImm d a imm s
  | .sSar d a b => Sys2Proof.Machine.execSSar d a b s
  | .sSarImm d a imm => Sys2Proof.Machine.execSSarImm d a imm s
  | .vSar d a b => Sys2Proof.Machine.execVSar d a b s
  | .vSarImm d a imm => Sys2Proof.Machine.execVSarImm d a imm s
  | .sRotl d a b => Sys2Proof.Machine.execSRotl d a b s
  | .sRotlImm d a imm => Sys2Proof.Machine.execSRotlImm d a imm s
  | .vRotl d a b => Sys2Proof.Machine.execVRotl d a b s
  | .vRotlImm d a imm => Sys2Proof.Machine.execVRotlImm d a imm s
  | .sRotr d a b => Sys2Proof.Machine.execSRotr d a b s
  | .sRotrImm d a imm => Sys2Proof.Machine.execSRotrImm d a imm s
  | .vRotr d a b => Sys2Proof.Machine.execVRotr d a b s
  | .vRotrImm d a imm => Sys2Proof.Machine.execVRotrImm d a imm s
  | .sClz d a => Sys2Proof.Machine.execSClz d a s
  | .vClz d a => Sys2Proof.Machine.execVClz d a s
  | .sPopc d a => Sys2Proof.Machine.execSPopc d a s
  | .vPopc d a => Sys2Proof.Machine.execVPopc d a s
  | .sBrev d a => Sys2Proof.Machine.execSBrev d a s
  | .vBrev d a => Sys2Proof.Machine.execVBrev d a s
  | .sMov d a => Sys2Proof.Machine.execSMov d a s
  | .sMovImm d imm => Sys2Proof.Machine.execSMovImm d imm s
  | .vMov d a => Sys2Proof.Machine.execVMov d a s
  | .vMovImm d imm => Sys2Proof.Machine.execVMovImm d imm s
  | .sNot d a => Sys2Proof.Machine.execSNot d a s
  | .vNot d a => Sys2Proof.Machine.execVNot d a s
  | .sBfeS d a b => Sys2Proof.Machine.execSBfeS d a b s
  | .vBfeS d a b => Sys2Proof.Machine.execVBfeS d a b s
  | .sBfeZ d a b => Sys2Proof.Machine.execSBfeZ d a b s
  | .vBfeZ d a b => Sys2Proof.Machine.execVBfeZ d a b s
  | .sBfi d a b => Sys2Proof.Machine.execSBfi d a b s
  | .vBfi d a b => Sys2Proof.Machine.execVBfi d a b s
  | .sPrmt d a b => Sys2Proof.Machine.execSPrmt d a b s
  | .vPrmt d a b => Sys2Proof.Machine.execVPrmt d a b s
  | .sAdd64 d a b => Sys2Proof.Machine.execSAdd64 d a b s
  | .vAdd64 d a b => Sys2Proof.Machine.execVAdd64 d a b s
  | .sSub64 d a b => Sys2Proof.Machine.execSSub64 d a b s
  | .vSub64 d a b => Sys2Proof.Machine.execVSub64 d a b s
  | .sShl64 d a b => Sys2Proof.Machine.execSShl64 d a b s
  | .vShl64 d a b => Sys2Proof.Machine.execVShl64 d a b s
  | .sShr64 d a b => Sys2Proof.Machine.execSShr64 d a b s
  | .vShr64 d a b => Sys2Proof.Machine.execVShr64 d a b s
  | .sSar64 d a b => Sys2Proof.Machine.execSSar64 d a b s
  | .vSar64 d a b => Sys2Proof.Machine.execVSar64 d a b s
  | .sMul64lo d a b => Sys2Proof.Machine.execSMul64lo d a b s
  | .vMul64lo d a b => Sys2Proof.Machine.execVMul64lo d a b s
  | .sMovi d imm => Sys2Proof.Machine.execSMovi d imm s
  | .vMovi d imm => Sys2Proof.Machine.execVMovi d imm s
  | .sFadd d a b => Sys2Proof.Machine.execSFadd d a b s
  | .vFadd d a b => Sys2Proof.Machine.execVFadd d a b s
  | .sFsub d a b => Sys2Proof.Machine.execSFsub d a b s
  | .vFsub d a b => Sys2Proof.Machine.execVFsub d a b s
  | .sFmul d a b => Sys2Proof.Machine.execSFmul d a b s
  | .vFmul d a b => Sys2Proof.Machine.execVFmul d a b s
  | .sFfma d a b => Sys2Proof.Machine.execSFfma d a b s
  | .vFfma d a b => Sys2Proof.Machine.execVFfma d a b s
  | .sFmin d a b => Sys2Proof.Machine.execSFmin d a b s
  | .vFmin d a b => Sys2Proof.Machine.execVFmin d a b s
  | .sFmax d a b => Sys2Proof.Machine.execSFmax d a b s
  | .vFmax d a b => Sys2Proof.Machine.execVFmax d a b s
  | .sFabs d a => Sys2Proof.Machine.execSFabs d a s
  | .vFabs d a => Sys2Proof.Machine.execVFabs d a s
  | .sFneg d a => Sys2Proof.Machine.execSFneg d a s
  | .vFneg d a => Sys2Proof.Machine.execVFneg d a s
  | .sFcopysign d a b => Sys2Proof.Machine.execSFcopysign d a b s
  | .vFcopysign d a b => Sys2Proof.Machine.execVFcopysign d a b s
  | .sFclass d a => Sys2Proof.Machine.execSFclass d a s
  | .vFclass d a => Sys2Proof.Machine.execVFclass d a s
  | .sFrcp d a => Sys2Proof.Machine.execSFrcp d a s
  | .vFrcp d a => Sys2Proof.Machine.execVFrcp d a s
  | .sFrsq d a => Sys2Proof.Machine.execSFrsq d a s
  | .vFrsq d a => Sys2Proof.Machine.execVFrsq d a s
  | .sFsqrt d a => Sys2Proof.Machine.execSFsqrt d a s
  | .vFsqrt d a => Sys2Proof.Machine.execVFsqrt d a s
  | .sFexp2 d a => Sys2Proof.Machine.execSFexp2 d a s
  | .vFexp2 d a => Sys2Proof.Machine.execVFexp2 d a s
  | .sFlog2 d a => Sys2Proof.Machine.execSFlog2 d a s
  | .vFlog2 d a => Sys2Proof.Machine.execVFlog2 d a s
  | .sFsinpi d a => Sys2Proof.Machine.execSFsinpi d a s
  | .vFsinpi d a => Sys2Proof.Machine.execVFsinpi d a s
  | .sFcospi d a => Sys2Proof.Machine.execSFcospi d a s
  | .vFcospi d a => Sys2Proof.Machine.execVFcospi d a s
  | .sFtanh d a => Sys2Proof.Machine.execSFtanh d a s
  | .vFtanh d a => Sys2Proof.Machine.execVFtanh d a s
  | .sFrintNe d a => Sys2Proof.Machine.execSFrintNe d a s
  | .vFrintNe d a => Sys2Proof.Machine.execVFrintNe d a s
  | .sFrintZ d a => Sys2Proof.Machine.execSFrintZ d a s
  | .vFrintZ d a => Sys2Proof.Machine.execVFrintZ d a s
  | .sFrintDn d a => Sys2Proof.Machine.execSFrintDn d a s
  | .vFrintDn d a => Sys2Proof.Machine.execVFrintDn d a s
  | .sFrintUp d a => Sys2Proof.Machine.execSFrintUp d a s
  | .vFrintUp d a => Sys2Proof.Machine.execVFrintUp d a s
  | .sFaddF16x2 d a b => Sys2Proof.Machine.execSFaddF16x2 d a b s
  | .vFaddF16x2 d a b => Sys2Proof.Machine.execVFaddF16x2 d a b s
  | .sFsubF16x2 d a b => Sys2Proof.Machine.execSFsubF16x2 d a b s
  | .vFsubF16x2 d a b => Sys2Proof.Machine.execVFsubF16x2 d a b s
  | .sFmulF16x2 d a b => Sys2Proof.Machine.execSFmulF16x2 d a b s
  | .vFmulF16x2 d a b => Sys2Proof.Machine.execVFmulF16x2 d a b s
  | .sFfmaF16x2 d a b => Sys2Proof.Machine.execSFfmaF16x2 d a b s
  | .vFfmaF16x2 d a b => Sys2Proof.Machine.execVFfmaF16x2 d a b s
  | .sFminF16x2 d a b => Sys2Proof.Machine.execSFminF16x2 d a b s
  | .vFminF16x2 d a b => Sys2Proof.Machine.execVFminF16x2 d a b s
  | .sFmaxF16x2 d a b => Sys2Proof.Machine.execSFmaxF16x2 d a b s
  | .vFmaxF16x2 d a b => Sys2Proof.Machine.execVFmaxF16x2 d a b s
  | .sFaddBf16x2 d a b => Sys2Proof.Machine.execSFaddBf16x2 d a b s
  | .vFaddBf16x2 d a b => Sys2Proof.Machine.execVFaddBf16x2 d a b s
  | .sFsubBf16x2 d a b => Sys2Proof.Machine.execSFsubBf16x2 d a b s
  | .vFsubBf16x2 d a b => Sys2Proof.Machine.execVFsubBf16x2 d a b s
  | .sFmulBf16x2 d a b => Sys2Proof.Machine.execSFmulBf16x2 d a b s
  | .vFmulBf16x2 d a b => Sys2Proof.Machine.execVFmulBf16x2 d a b s
  | .sFfmaBf16x2 d a b => Sys2Proof.Machine.execSFfmaBf16x2 d a b s
  | .vFfmaBf16x2 d a b => Sys2Proof.Machine.execVFfmaBf16x2 d a b s
  | .sFminBf16x2 d a b => Sys2Proof.Machine.execSFminBf16x2 d a b s
  | .vFminBf16x2 d a b => Sys2Proof.Machine.execVFminBf16x2 d a b s
  | .sFmaxBf16x2 d a b => Sys2Proof.Machine.execSFmaxBf16x2 d a b s
  | .vFmaxBf16x2 d a b => Sys2Proof.Machine.execVFmaxBf16x2 d a b s
  | .sCvt f d a src t => Sys2Proof.Machine.execSCvt f d a src t s
  | .vCvt f d a src t => Sys2Proof.Machine.execVCvt f d a src t s
  | .sCmp k t m a b => Sys2Proof.Machine.execSCmp k t m a b s
  | .vCmp k t m a b => Sys2Proof.Machine.execVCmp k t m a b s
  | .sFcmp k t m a b => Sys2Proof.Machine.execSFcmp k t m a b s
  | .vFcmp k t m a b => Sys2Proof.Machine.execVFcmp k t m a b s
  | .sSel k d a b => Sys2Proof.Machine.execSSel k d a b s
  | .vSel k d a b => Sys2Proof.Machine.execVSel k d a b s
  | .sPget d => Sys2Proof.Machine.execSPget d s
  | .vPget d => Sys2Proof.Machine.execVPget d s
  | .vPpop n => Sys2Proof.Machine.execVPpop n s
  | .vPdup k => Sys2Proof.Machine.execVPdup k s
  | .vPand k => Sys2Proof.Machine.execVPand k s
  | .vPor k => Sys2Proof.Machine.execVPor k s
  | .vPxor k => Sys2Proof.Machine.execVPxor k s
  | .vPnot k => Sys2Proof.Machine.execVPnot k s
  | .vPswap k => Sys2Proof.Machine.execVPswap k s
  | .vPpush b => Sys2Proof.Machine.execVPpush b s
  | .vPset b => Sys2Proof.Machine.execVPset b s
  | .vShflIdx d a b => Sys2Proof.Machine.execVShflIdx d a b s
  | .vShflUp d a b => Sys2Proof.Machine.execVShflUp d a b s
  | .vShflDown d a b => Sys2Proof.Machine.execVShflDown d a b s
  | .vShflXor d a b => Sys2Proof.Machine.execVShflXor d a b s
  | .vBcast d a b => Sys2Proof.Machine.execVBcast d a b s
  | .vVoteBallot d a => Sys2Proof.Machine.execVVoteBallot d a s
  | .vReduxAdd d a t => Sys2Proof.Machine.execVReduxAdd d a t s
  | .vReduxMin d a t => Sys2Proof.Machine.execVReduxMin d a t s
  | .vReduxMax d a t => Sys2Proof.Machine.execVReduxMax d a t s
  | .vScanIncl d a t => Sys2Proof.Machine.execVScanIncl d a t s
  | .vScanExcl d a t => Sys2Proof.Machine.execVScanExcl d a t s
  | .vMatch d a => Sys2Proof.Machine.execVMatch d a s
  | .vIsect d a b => Sys2Proof.Machine.execVIsect d a b s
  | .sMovx d imm k => Sys2Proof.Machine.execSMovx d imm k s
  | .vMovx d imm k => Sys2Proof.Machine.execVMovx d imm k s
  | .sMovxw src imm k => Sys2Proof.Machine.execSMovxw src imm k s
  | .vMovxw src imm k => Sys2Proof.Machine.execVMovxw src imm k s
  | .mLd z d a o => Sys2Proof.Machine.execMLd z d a o s
  | .mLdPr z d a o => Sys2Proof.Machine.execMLdPr z d a o s
  | .mLdAcq z d a o => Sys2Proof.Machine.execMLdAcq z d a o s
  | .mLdu z d a o => Sys2Proof.Machine.execMLdu z d a o s
  | .mSt z d a o => Sys2Proof.Machine.execMSt z d a o s
  | .mStRel z d a o => Sys2Proof.Machine.execMStRel z d a o s
  | .mAtomAddS32 d a b => Sys2Proof.Machine.execMAtomAddS32 d a b s
  | .mAtomAndB32 d a b => Sys2Proof.Machine.execMAtomAndB32 d a b s
  | .mAtomOrB32 d a b => Sys2Proof.Machine.execMAtomOrB32 d a b s
  | .mAtomXorB32 d a b => Sys2Proof.Machine.execMAtomXorB32 d a b s
  | .mAtomMinS32 d a b => Sys2Proof.Machine.execMAtomMinS32 d a b s
  | .mAtomMaxS32 d a b => Sys2Proof.Machine.execMAtomMaxS32 d a b s
  | .mAtomMinZ32 d a b => Sys2Proof.Machine.execMAtomMinZ32 d a b s
  | .mAtomMaxZ32 d a b => Sys2Proof.Machine.execMAtomMaxZ32 d a b s
  | .mAtomExchB32 d a b => Sys2Proof.Machine.execMAtomExchB32 d a b s
  | .mAtomAddS64 d a b => Sys2Proof.Machine.execMAtomAddS64 d a b s
  | .mAtomAndB64 d a b => Sys2Proof.Machine.execMAtomAndB64 d a b s
  | .mAtomOrB64 d a b => Sys2Proof.Machine.execMAtomOrB64 d a b s
  | .mAtomXorB64 d a b => Sys2Proof.Machine.execMAtomXorB64 d a b s
  | .mAtomMinS64 d a b => Sys2Proof.Machine.execMAtomMinS64 d a b s
  | .mAtomMaxS64 d a b => Sys2Proof.Machine.execMAtomMaxS64 d a b s
  | .mAtomMinZ64 d a b => Sys2Proof.Machine.execMAtomMinZ64 d a b s
  | .mAtomMaxZ64 d a b => Sys2Proof.Machine.execMAtomMaxZ64 d a b s
  | .mAtomExchB64 d a b => Sys2Proof.Machine.execMAtomExchB64 d a b s
  | .mAtomAddF32 d a b => Sys2Proof.Machine.execMAtomAddF32 d a b s
  | .mAtomMinF32 d a b => Sys2Proof.Machine.execMAtomMinF32 d a b s
  | .mAtomMaxF32 d a b => Sys2Proof.Machine.execMAtomMaxF32 d a b s
  | .mAtomAddF16x2 d a b => Sys2Proof.Machine.execMAtomAddF16x2 d a b s
  | .mAtomAddBf16x2 d a b => Sys2Proof.Machine.execMAtomAddBf16x2 d a b s
  | .mRedAddS32 a b => Sys2Proof.Machine.execMRedAddS32 a b s
  | .mRedAddS64 a b => Sys2Proof.Machine.execMRedAddS64 a b s
  | .mRedAddF32 a b => Sys2Proof.Machine.execMRedAddF32 a b s
  | .mRedMinS32 a b => Sys2Proof.Machine.execMRedMinS32 a b s
  | .mRedMaxS32 a b => Sys2Proof.Machine.execMRedMaxS32 a b s
  | .mRedMinZ32 a b => Sys2Proof.Machine.execMRedMinZ32 a b s
  | .mRedMaxZ32 a b => Sys2Proof.Machine.execMRedMaxZ32 a b s
  | .mRedAndB32 a b => Sys2Proof.Machine.execMRedAndB32 a b s
  | .mRedOrB32 a b => Sys2Proof.Machine.execMRedOrB32 a b s
  | .mRedXorB32 a b => Sys2Proof.Machine.execMRedXorB32 a b s
  | .mRedMinF32 a b => Sys2Proof.Machine.execMRedMinF32 a b s
  | .mRedMaxF32 a b => Sys2Proof.Machine.execMRedMaxF32 a b s
  | .mRedAddF16x2 a b => Sys2Proof.Machine.execMRedAddF16x2 a b s
  | .mRedAddBf16x2 a b => Sys2Proof.Machine.execMRedAddBf16x2 a b s
  | .mCasB32 d a b => Sys2Proof.Machine.execMCasB32 d a b s
  | .mCasB64 d a b => Sys2Proof.Machine.execMCasB64 d a b s
  | .mFenceAcq src => Sys2Proof.Machine.execMFenceAcq src s
  | .mFenceRel src => Sys2Proof.Machine.execMFenceRel src s
  | .mFenceFull src => Sys2Proof.Machine.execMFenceFull src s
  | .mMwait o a b => Sys2Proof.Machine.execMMwait o a b s
  | .mPgreq a => Sys2Proof.Machine.execMPgreq a s
  | .mPgprobe d a => Sys2Proof.Machine.execMPgprobe d a s
  | .mPref a => Sys2Proof.Machine.execMPref a s
  | .mTexSample d a b => Sys2Proof.Machine.execMTexSample d a b s
  | .mTexSampleLod d a b => Sys2Proof.Machine.execMTexSampleLod d a b s
  | .mTexSampleGrad d a b => Sys2Proof.Machine.execMTexSampleGrad d a b s
  | .mTexFetch d a b => Sys2Proof.Machine.execMTexFetch d a b s
  | .mTexGath4 d a b => Sys2Proof.Machine.execMTexGath4 d a b s
  | .mTexqSize d a b => Sys2Proof.Machine.execMTexqSize d a b s
  | .mTexqLevels d a => Sys2Proof.Machine.execMTexqLevels d a s
  | .mTexqFormat d a => Sys2Proof.Machine.execMTexqFormat d a s
  | .eCpy p t src => Sys2Proof.Machine.execECpy p t src s
  | .eGath p t => Sys2Proof.Machine.execEGath p t s
  | .eScat o p t => Sys2Proof.Machine.execEScat o p t s
  | .eMma p => Sys2Proof.Machine.execEMma p s
  | .eMsrch p => Sys2Proof.Machine.execEMsrch p s
  | .eQuant p => Sys2Proof.Machine.execEQuant p s
  | .eKselThr p t => Sys2Proof.Machine.execEKselThr p t s
  | .eKselTopk p t => Sys2Proof.Machine.execEKselTopk p t s
  | .eKgat p t => Sys2Proof.Machine.execEKgat p t s
  | .eKsum p t => Sys2Proof.Machine.execEKsum p t s
  | .eSpawn p => Sys2Proof.Machine.execESpawn p s
  | .eSpawnDie p x => Sys2Proof.Machine.execESpawnDie p x s
  | .eEnq p q => Sys2Proof.Machine.execEEnq p q s
  | .eSsbld p t => Sys2Proof.Machine.execESsbld p t s
  | .eBind p k => Sys2Proof.Machine.execEBind p k s
  | .eEmit p => Sys2Proof.Machine.execEEmit p s
  | .eRelaunch p => Sys2Proof.Machine.execERelaunch p s
  | .eTdset p => Sys2Proof.Machine.execETdset p s
  | .cBr k m o => Sys2Proof.Machine.execCBr k m o s
  | .cCall j o => Sys2Proof.Machine.execCCall j o s
  | .cJmp a => Sys2Proof.Machine.execCJmp a s
  | .cCallx d a => Sys2Proof.Machine.execCCallx d a s
  | .cRet a => Sys2Proof.Machine.execCRet a s
  | .cWait l src c x => Sys2Proof.Machine.execCWait l src c x s
  | .cTwaitAny a => Sys2Proof.Machine.execCTwaitAny a s
  | .cTwaitAll a => Sys2Proof.Machine.execCTwaitAll a s
  | .cTffs d a => Sys2Proof.Machine.execCTffs d a s
  | .cTclr a => Sys2Proof.Machine.execCTclr a s
  | .cBarArrive src imm => Sys2Proof.Machine.execCBarArrive src imm s
  | .cBarWait src imm => Sys2Proof.Machine.execCBarWait src imm s
  | .cBarSync src imm => Sys2Proof.Machine.execCBarSync src imm s
  | .cNop => Sys2Proof.Machine.execCNop s
  | .cYield => Sys2Proof.Machine.execCYield s
  | .cExit => Sys2Proof.Machine.execCExit s
  | .cBrk b => Sys2Proof.Machine.execCBrk b s
  | .cTrap n => Sys2Proof.Machine.execCTrap n s
  | .yGsr d r => Sys2Proof.Machine.execYGsr d r s
  | .ySsr r b => Sys2Proof.Machine.execYSsr r b s
  | .yResume a b => Sys2Proof.Machine.execYResume a b s
  | .yKill a b => Sys2Proof.Machine.execYKill a b s
  | .yCtxinfo d n => Sys2Proof.Machine.execYCtxinfo d n s
  | .hImm x => Sys2Proof.Machine.execHImm x s
  | .hGuard k n => Sys2Proof.Machine.execHGuard k n s
  | .hGuardNot k n => Sys2Proof.Machine.execHGuardNot k n s
  | .hSrc3 c => Sys2Proof.Machine.execHSrc3 c s
  | .hReuse x n => Sys2Proof.Machine.execHReuse x n s
  | .hLast x y n => Sys2Proof.Machine.execHLast x y n s
  | .hRnd m => Sys2Proof.Machine.execHRnd m s
  | .hScope src => Sys2Proof.Machine.execHScope src s
  | .hSched n => Sys2Proof.Machine.execHSched n s
  | .hCache p => Sys2Proof.Machine.execHCache p s
  | .loadRetire op lanes => Sys2Proof.Machine.execLoadRetire op lanes s
  | .storePerform op lanes => Sys2Proof.Machine.execStorePerform op lanes s
  | .atomicPerform op lanes => Sys2Proof.Machine.execAtomicPerform op lanes s
  | .reductionPlace op lanes => Sys2Proof.Machine.execReductionPlace op lanes s
  | .updateLineMerge core line => Sys2Proof.Machine.execUpdateLineMerge core line s
  | .texRetire op => Sys2Proof.Machine.execTexRetire op s
  | .waitComplete warp lane => Sys2Proof.Machine.execWaitComplete warp lane s
  | .tagSet op => Sys2Proof.Machine.execTagSet op s
  | .tagWaitComplete warp lane => Sys2Proof.Machine.execTagWaitComplete warp lane s
  | .barrierPhaseComplete bar => Sys2Proof.Machine.execBarrierPhaseComplete bar s
  | .monitorWake warp lane => Sys2Proof.Machine.execMonitorWake warp lane s
  | .monitorReread warp lane => Sys2Proof.Machine.execMonitorReread warp lane s
  | .blockSwapOut block ok => Sys2Proof.Machine.execBlockSwapOut block ok s
  | .blockSwapIn block => Sys2Proof.Machine.execBlockSwapIn block s
  | .scratchRefill block page ok => Sys2Proof.Machine.execScratchRefill block page ok s
  | .pageWaitRetry warp lane => Sys2Proof.Machine.execPageWaitRetry warp lane s
  | .pteChange ctx level va value frames => Sys2Proof.Machine.execPteChange ctx level va value frames s
  | .residencyPresent ctx va => Sys2Proof.Machine.execResidencyPresent ctx va s
  | .residencyRefuse ctx va => Sys2Proof.Machine.execResidencyRefuse ctx va s
  | .residencyEvict ctx va => Sys2Proof.Machine.execResidencyEvict ctx va s
  | .migration ctx va frame => Sys2Proof.Machine.execMigration ctx va frame s
  | .migrationRequest ctx va agent frame => Sys2Proof.Machine.execMigrationRequest ctx va agent frame s
  | .kickWrite ctx queue value => Sys2Proof.Machine.execKickWrite ctx queue value s
  | .packetTake ctx queue => Sys2Proof.Machine.execPacketTake ctx queue s
  | .packetHeaderWake ctx queue => Sys2Proof.Machine.execPacketHeaderWake ctx queue s
  | .launch job => Sys2Proof.Machine.execLaunch job s
  | .seed job => Sys2Proof.Machine.execSeed job s
  | .graphReplay job => Sys2Proof.Machine.execGraphReplay job s
  | .relaunch job => Sys2Proof.Machine.execRelaunch job s
  | .signal job => Sys2Proof.Machine.execSignal job s
  | .waitValue job => Sys2Proof.Machine.execWaitValue job s
  | .waitValueRecheck job => Sys2Proof.Machine.execWaitValueRecheck job s
  | .barrierOnly job => Sys2Proof.Machine.execBarrierOnly job s
  | .queueCreate job => Sys2Proof.Machine.execQueueCreate job s
  | .queueDestroy job => Sys2Proof.Machine.execQueueDestroy job s
  | .settings job => Sys2Proof.Machine.execSettings job s
  | .graphBind job => Sys2Proof.Machine.execGraphBind job s
  | .packetComplete job => Sys2Proof.Machine.execPacketComplete job s
  | .graphKick ctx slot table => Sys2Proof.Machine.execGraphKick ctx slot table s
  | .graphNodeStart ctx slot node => Sys2Proof.Machine.execGraphNodeStart ctx slot node s
  | .blockStart launch block => Sys2Proof.Machine.execBlockStart launch block s
  | .warpPlace warp core => Sys2Proof.Machine.execWarpPlace warp core s
  | .warpEnd warp => Sys2Proof.Machine.execWarpEnd warp s
  | .spawnRetire op => Sys2Proof.Machine.execSpawnRetire op s
  | .binTimerExpiry die bin => Sys2Proof.Machine.execBinTimerExpiry die bin s
  | .spillRingMove ctx die => Sys2Proof.Machine.execSpillRingMove ctx die s
  | .hangDetected ctx => Sys2Proof.Machine.execHangDetected ctx s
  | .cpyComplete op => Sys2Proof.Machine.execCpyComplete op s
  | .gathComplete op => Sys2Proof.Machine.execGathComplete op s
  | .scatComplete op => Sys2Proof.Machine.execScatComplete op s
  | .mmaComplete op => Sys2Proof.Machine.execMmaComplete op s
  | .msrchComplete op => Sys2Proof.Machine.execMsrchComplete op s
  | .quantComplete op => Sys2Proof.Machine.execQuantComplete op s
  | .kselComplete op => Sys2Proof.Machine.execKselComplete op s
  | .kgatComplete op => Sys2Proof.Machine.execKgatComplete op s
  | .ksumInstall op => Sys2Proof.Machine.execKsumInstall op s
  | .ksumComplete op => Sys2Proof.Machine.execKsumComplete op s
  | .engineStallResume op => Sys2Proof.Machine.execEngineStallResume op s
  | .engineFaultStop op => Sys2Proof.Machine.execEngineFaultStop op s
  | .enqRetire op => Sys2Proof.Machine.execEnqRetire op s
  | .emitAccept op lanes => Sys2Proof.Machine.execEmitAccept op lanes s
  | .binnerAccept op lane => Sys2Proof.Machine.execBinnerAccept op lane s
  | .buildComplete build => Sys2Proof.Machine.execBuildComplete build s
  | .buildRecord op lane => Sys2Proof.Machine.execBuildRecord op lane s
  | .rasterLeaf pass leaf cluster => Sys2Proof.Machine.execRasterLeaf pass leaf cluster s
  | .blenderApply pass => Sys2Proof.Machine.execBlenderApply pass s
  | .passEnd pass => Sys2Proof.Machine.execPassEnd pass s
  | .passAutoClose pass => Sys2Proof.Machine.execPassAutoClose pass s
  | .pixelPreemptDeadline ctx => Sys2Proof.Machine.execPixelPreemptDeadline ctx s
  | .inboundRmaWrite host key addr data => Sys2Proof.Machine.execInboundRmaWrite host key addr data s
  | .inboundRmaRead host key addr len => Sys2Proof.Machine.execInboundRmaRead host key addr len s
  | .inboundFetchAdd host key addr value => Sys2Proof.Machine.execInboundFetchAdd host key addr value s
  | .inboundSwap host key addr value => Sys2Proof.Machine.execInboundSwap host key addr value s
  | .inboundCas host key addr expect value => Sys2Proof.Machine.execInboundCas host key addr expect value s
  | .inboundRateRelease region place => Sys2Proof.Machine.execInboundRateRelease region place s
  | .remoteCompletion req status data => Sys2Proof.Machine.execRemoteCompletion req status data s
  | .remoteTimeout req => Sys2Proof.Machine.execRemoteTimeout req s
  | .remoteStoreFailure req status => Sys2Proof.Machine.execRemoteStoreFailure req status s
  | .peerReset peer => Sys2Proof.Machine.execPeerReset peer s
  | .hostDetach host => Sys2Proof.Machine.execHostDetach host s
  | .contextCreate host msg => Sys2Proof.Machine.execContextCreate host msg s
  | .contextDestroy host msg => Sys2Proof.Machine.execContextDestroy host msg s
  | .preempt host msg => Sys2Proof.Machine.execPreempt host msg s
  | .resume host msg => Sys2Proof.Machine.execResume host msg s
  | .regionSet host msg => Sys2Proof.Machine.execRegionSet host msg s
  | .regionClear host msg => Sys2Proof.Machine.execRegionClear host msg s
  | .stampRead host msg => Sys2Proof.Machine.execStampRead host msg s
  | .fencePart host msg => Sys2Proof.Machine.execFencePart host msg s
  | .returnPart host msg => Sys2Proof.Machine.execReturnPart host msg s
  | .partLeaveService core => Sys2Proof.Machine.execPartLeaveService core s
  | .firmwarePush host msg => Sys2Proof.Machine.execFirmwarePush host msg s
  | .attest host msg => Sys2Proof.Machine.execAttest host msg s
  | .powerCap host msg => Sys2Proof.Machine.execPowerCap host msg s
  | .debugStepOn host msg => Sys2Proof.Machine.execDebugStepOn host msg s
  | .debugStepOff host msg => Sys2Proof.Machine.execDebugStepOff host msg s
  | .debugWatchSet host msg => Sys2Proof.Machine.execDebugWatchSet host msg s
  | .debugWatchClear host msg => Sys2Proof.Machine.execDebugWatchClear host msg s
  | .debugHalt host msg => Sys2Proof.Machine.execDebugHalt host msg s
  | .keepalive host msg => Sys2Proof.Machine.execKeepalive host msg s
  | .moduleReset => Sys2Proof.Machine.execModuleReset s
  | .schedulerHeartbeat core => Sys2Proof.Machine.execSchedulerHeartbeat core s
  | .heartbeatTimeout core => Sys2Proof.Machine.execHeartbeatTimeout core s
  | .hbmRowRetire stack row => Sys2Proof.Machine.execHbmRowRetire stack row s
  | .coreFailure core => Sys2Proof.Machine.execCoreFailure core s
  | .thermalThrottle die => Sys2Proof.Machine.execThermalThrottle die s
  | .thermalShutdown die => Sys2Proof.Machine.execThermalShutdown die s
  | .unallocatedWord w => Sys2Proof.Machine.execUnallocatedWord w s
  | .fetchFault => Sys2Proof.Machine.execFetchFault s
  | .engineUnitWrite op => Sys2Proof.Machine.execEngineUnitWrite op s
  | .contextTimeout ctx => Sys2Proof.Machine.execContextTimeout ctx s
  | .contextWipe ctx => Sys2Proof.Machine.execContextWipe ctx s
  | .linkDown port => Sys2Proof.Machine.execLinkDown port s
  | .linkUp port => Sys2Proof.Machine.execLinkUp port s
  | .egressRateRelease req => Sys2Proof.Machine.execEgressRateRelease req s
  | .connectionSetup peer kind => Sys2Proof.Machine.execConnectionSetup peer kind s
  | .unknownOp host msg => Sys2Proof.Machine.execUnknownOp host msg s
  | .eccError place loc corrected => Sys2Proof.Machine.execEccError place loc corrected s
  | .thermalThrottleEnd die => Sys2Proof.Machine.execThermalThrottleEnd die s

end Sys2Proof.Machine
end

