-- ==== Sys2Proof/Machine/Sched.lean ====
section
/-! DEFINITION. Which run of a warp issues (R18 to R21), its turn, and time. -/

namespace Sys2Proof.Machine

/-- A warp may issue: its context lives and is not stopped by pre-emption (R315), it is placed, its block is on its core. -/
def mayIssue (s : State) (w : Warp) : Bool :=
  w.place.isSome &&
  (match s.ctx? w.ctx with
   | none => false
   | some c =>
     c.live &&
     (match c.preempt with
      | .running => true
      | .stopping since _ _ =>
        (match w.kind with | .pixel _ _ _ => decide (s.mod.clock < since + 1200) | _ => false) || !w.group.isEmpty
      | .saved => false)) &&
  (match w.block.bind s.block? with
   | none => w.block.isNone
   | some b => b.state == .running)

/-- The ready lanes the selection is made from (R19): those that yielded are passed over if another lane is ready. -/
def candidates (w : Warp) : Mask :=
  let ready := w.readyLanes
  let yld := ready &&& w.yielded
  if yld != 0#32 && (ready &&& ~~~yld) != 0#32 then ready &&& ~~~yld else ready

/-- Whether lane `a` is picked before lane `b` among the old lanes (R19): the larger age, then the lower counter, then
the lower lane. -/
def olderThan (w : Warp) (a b : Nat) : Bool :=
  let x := w.lane a
  let y := w.lane b
  decide (x.age > y.age) || (x.age == y.age && (decide (x.pc.toNat < y.pc.toNat) || (x.pc == y.pc && decide (a < b))))

/-- The best of a list under an order. -/
def bestBy (lt : Nat → Nat → Bool) : Nat → List Nat → Nat
  | b, [] => b
  | b, x :: xs => bestBy lt (if lt x b then x else b) xs

/-- The counter of the run R19 selects among the candidates. -/
def selectPc (w : Warp) (ready : Mask) : Option Pc :=
  match (lanesOf ready).filter (fun l => decide ((w.lane l).age ≥ 16)) with
  | l :: ls => some (w.lane (bestBy (olderThan w) l ls)).pc
  | [] =>
    match lanesOf ready with
    | [] => none
    | l :: ls => some (w.lane (bestBy (fun a b => decide ((w.lane a).pc.toNat < (w.lane b).pc.toNat)) l ls)).pc

/-- The run selected, and the ready lanes: inside a hint group the run that began it (R20, R63). -/
def selectRun (w : Warp) : Option (Mask × Mask × Pc) :=
  if w.group.isEmpty then
    let ready := candidates w
    (selectPc w ready).map (fun pc => (maskOf (fun l => inMask ready l && (w.lane l).pc == pc), ready, pc))
  else some (w.groupRun, w.groupReady, (w.lane (leadOf w.groupRun)).pc)

/-- What a warp's turn finds. -/
inductive Turned where
  /-- nothing issues (R19: the warp parks) -/
  | idle
  /-- a run is selected and its word cannot be fetched -/
  | unfetched (s : State)
  /-- a run is selected and its word is fetched -/
  | fetched (s : State) (bytes : List Byte)
  deriving DecidableEq, Repr

/-- Select a run of a warp and fetch its word. -/
def turnWarp (s : State) (wid : Nat) : Turned :=
  match s.warp? wid with
  | none => .idle
  | some w =>
    if mayIssue s w then
      match selectRun w, s.ctx? w.ctx with
      | some (run, ready, pc), some c =>
        let addr := pc + BitVec.ofNat 56 (4 * w.group.length)
        let sel (word : Word) : Sel := { warp := wid, run := run, ready := ready, first := pc, addr := addr, word := word }
        match fetchWord s c w addr.toNat with
        | .ok (bytes, s) => .fetched { s with cur := some (sel (BitVec.ofNat 32 (bytesToNat bytes))) } bytes
        | .error _ => .unfetched { s with cur := some (sel 0#32) }
      | _, _ => .idle
    else .idle

/-- The hang detector's mark after `n` clocks (R250): a context with a ready lane counts from this clock on, and one with no warp that holds
a live lane does not count these clocks, stopped by pre-emption or not. -/
def markReady (s : State) (n : Nat) : State :=
  { s with ctxs := s.ctxs.map (fun c =>
      let mine := s.warps.filter (fun w => w.ctx == c.number && w.live != 0#32)
      if mine.any (fun w => (w.place.isSome || w.block.isSome) && w.readyLanes != 0#32) then { c with hangSince := s.mod.clock }
      else if mine.isEmpty then { c with hangSince := c.hangSince + n }
      else c) }

/-- Clocks pass (R1, R40): one at every move, and those a tick names (log 4). A context whose end is due ends first. -/
def passClocks (s : State) (n : Nat) : State :=
  let s := endDoomed s
  markReady { s with mod := { s.mod with clock := s.mod.clock + n } } n

/-- The schedule without the turn taken. -/
def popTurn (s : State) : State := { s with schedule := s.schedule.tail }

end Sys2Proof.Machine
end

