-- ==== Sys2Proof/Machine/Auto.lean ====
section
/-! DEFINITION. The turn taken where the schedule names none, and the state in which a word is the next to be fetched. -/

namespace Sys2Proof.Machine

/-- A row that is an event, not a word. -/
def isEvent (i : Instr) : Bool := (encode i).isNone

/-- The warps that may issue a word now. -/
def issuable (s : State) : List Nat :=
  (s.warps.filter (fun w => mayIssue s w && (candidates w != 0#32 || !w.group.isEmpty))).map Warp.id

/-- The turn the machine takes where the schedule is empty (log 2). -/
def defaultTurn (s : State) : Turn :=
  match issuable s with
  | w :: _ => .issue w
  | [] => .tick 1

/-- The next turn. -/
def nextTurn (s : State) : Turn := (s.schedule.head?).getD (defaultTurn s)

/-- The clocks a turn takes (log 4). -/
def turnClocks (t : Turn) : Nat :=
  match t with
  | .tick n => n
  | _ => 1

/-- The page tables of the placed context: five tables at 4 KiB steps from 0x1000, one executable and writable 64 KiB
page at virtual address 0, its frame at physical 0x10000. -/
def placedMem (w : Nat) : Memory :=
  let m := Memory.writeN [] 0x1000 8 0x2001
  let m := Memory.writeN m 0x2000 8 0x3001
  let m := Memory.writeN m 0x3000 8 0x4001
  let m := Memory.writeN m 0x4000 8 0x5001
  let m := Memory.writeN m 0x5000 8 0x1003B
  Memory.writeN m 0x10000 4 w

/-- The placed context: number 0, queue none, its tables at 0x1000. -/
def placedCtx : Ctx where
  number := 0
  live := true
  host := 0
  root := 0x1000
  trapBase := 0
  logCount := 0
  queues := []
  slots := []
  ringBase := [0, 0, 0, 0]
  ringLog := 12
  spilled := []
  spawnTimer := 1024
  hangExp := 24
  swapUs := 50
  tensors := []
  tagsClear := []
  generation := 0
  stamps := []
  traced := []
  tracedRunning := 0
  lastHandle := 0
  residency := []
  moves := []
  holds := []
  farMaps := []
  stepping := false
  watches := [(0, 0), (0, 0), (0, 0), (0, 0)]
  preempt := .running
  egressTargets := 0#256
  egressRates := List.replicate 16 0
  hangSince := 0
  dropped := 0
  droppedTrap := none
  pendingWrites := []

/-- The placed launch: one block of one warp of 32 lanes, 128 registers, trap entry 0x8000. -/
def placedLaunch : Launch where
  id := 1
  ctx := 0
  rec_ := {
    regs := 128, partition := 1, scratch := 0, accum := 0, entry := 0x100, trapEntry := 0x8000, params := 0, spawnCtr := 0
    dist := 0, launchId := 0, trace := 0
    levels := [{ extent := 32, domain := 0, scope := 4 }] }
  kind := .blocks
  snapshot := BitVec.allOnes 256
  packet := 0
  job := 0
  started := [0]
  ended := []
  spawned := 0
  generation := 0
  traces := []
  recorded := []
  again := none
  unset := false

/-- The placed block. -/
def placedBlock : Block where
  id := 2
  ctx := 0
  launch := 1
  number := 0
  core := 0
  state := .running
  scratch := []
  pages := 0
  unpinned := []
  tiles := []
  tileCount := 0

/-- The placed warp: every lane ready at address 0. -/
def placedWarp : Warp :=
  { freshWarp 3 0 1 (some 2) 0 .static (BitVec.allOnes 256) 0 none 128 [] (Vector.ofFn (fun _ => Lane.start 0#56 0)) with place := some (0, 0) }

/-- The state in which the very next step fetches and runs a word: what a LAUNCH of one warp would have set up, loaded
from outside (log 14), and a schedule whose first turn is that warp's. -/
def placeWord (s : State) (w : Nat) : State :=
  { s with
    mem := placedMem w
    ctxs := [placedCtx]
    launches := [placedLaunch]
    blocks := [placedBlock]
    warps := [placedWarp]
    schedule := [.issue 3]
    nextId := 4 }

end Sys2Proof.Machine
end

