-- ==== Sys2Proof/Machine/Step.lean ====
section
/-! DEFINITION. One step of the machine: the next turn of the schedule (log 2), and the placing of a word where it is
fetched next. -/

namespace Sys2Proof.Machine

/-- A warp's turn: the word it fetches is decoded and executed, a word that is no instruction and a word that cannot be
fetched trap under their own rows (R58, R66). -/
noncomputable def runTurn (s : State) (t : Turned) : Host.Outcome State Fault Refusal :=
  match t with
  | .idle => .next s
  | .unfetched s' => exec .fetchFault s'
  | .fetched s' bytes =>
    match decodeBytes bytes with
    | .ok (i, _) => exec i s'
    | .error _ => exec (.unallocatedWord (bytesToNat bytes)) s'

/-- One step: the next turn of the schedule, or the default turn where the schedule is empty. -/
noncomputable def step (s : State) : Host.Outcome State Fault Refusal :=
  let t := nextTurn s
  let s := passClocks (popTurn s) (turnClocks t)
  match t with
  | .tick _ => .next s
  | .issue w => runTurn s (turnWarp s w)
  | .event i => if isEvent i then exec i s else .next s

/-- The state with an instruction's word placed where `step` fetches next: see `placeWord`. -/
def State.withFetchWord (s : State) (nbits w : Nat) : State := placeWord s (w % 2 ^ nbits)

end Sys2Proof.Machine
end

