-- ==== Sys2Proof/Safety.lean ====
section
/-! DEFINITION. The terms in which claims are made: the canonical form of all memory, what the issue of an instruction
leaves of the state and of its warp, and what an instruction writes. -/

namespace Sys2Proof.Machine

/-! ### Memory -/

/-- The byte of HBM at a physical address (R164). -/
def State.byte (s : State) (a : Nat) : Byte := Memory.read s.mem a

/-- Every memory of the machine is in its one form: HBM, and each block's scratchpad and accumulator tiles. -/
def State.Canonical (s : State) : Prop :=
  Memory.wf s.mem = true ∧ ∀ b ∈ s.blocks, Memory.wf b.scratch = true ∧ Memory.wf b.tiles = true

/-! ### Frames -/

/-- `t` is `s` but for one warp, and no run stays selected. -/
structure OnlyWarp (s t : State) (id : Nat) : Prop where
  rest : { t with warps := s.warps, cur := s.cur } = s
  cur : t.cur = none
  others : ∀ j, j ≠ id → t.warp? j = s.warp? j

/-- What the issue of a word does to a lane of its warp besides the word's own effect (R19, R42, R61, R66): `y` is the lane
with that effect, `z` the lane after, `pc` where each lane of the run goes on. -/
structure LaneIssued (x : Cx) (pc : Nat → Pc) (yielded : Bool) (l : Nat) (y z : Lane) : Prop where
  pc : z.pc = if inMask x.run l then pc l else y.pc
  residue : z.residue = if inMask x.run l then y.residue - 1 else y.residue
  issued : z.issued = if inMask x.run l then y.issued + x.w.group.length + 1 else y.issued
  age : z.age =
    if inMask x.sel.ready l then (if inMask x.run l then (if yielded then y.age else 0) else min (y.age + 1) 511) else y.age
  preds : z.preds = y.preds
  pass : z.pass = y.pass
  fpflags : z.fpflags = y.fpflags
  origin : z.origin = y.origin
  emitted : z.emitted = y.emitted
  waits : y.isReady = false → z.cond = y.cond ∧ z.arrivals = y.arrivals

/-- What the issue of a word does to the state besides the word's own effect: `s` and `w` are the state and the warp with
that effect. No other warp, no memory, no other part of the machine changes; a lane that is ready joins a run that waits at
its counter (R18), and where the warp holds no waiting lane, no lane's condition changes. -/
structure Issued (x : Cx) (s : State) (w : Warp) (pc : Nat → Pc) (yielded : Bool) (t : State) : Prop where
  only : OnlyWarp s t x.w.id
  warp : ∃ v, t.warp? x.w.id = some v ∧ v.group = [] ∧
    { v with lanes := w.lanes, group := w.group, groupRun := w.groupRun, groupReady := w.groupReady, yielded := w.yielded } = w ∧
    ∀ l, l < 32 → LaneIssued x pc yielded l (w.lane l) (v.lane l) ∧
      ((∀ k, k < 32 → (w.lane k).isWaiting = false) → (v.lane l).cond = (w.lane l).cond ∧ (v.lane l).arrivals = (w.lane l).arrivals)

/-- The word `i` completes: its issue ends in a next state, with the state `s'` and the warp `w'` that hold its effect. The
run goes on at the next word; without step control (R150) nothing else happens. -/
def Cx.Completes (x : Cx) (i : Instr) (s' : State) (w' : Warp) : Prop :=
  exec i x.s = .next (x.done s' w') ∧
  (x.c.stepping = false → Issued x s' w' (fun _ => x.next) false (x.done s' w'))

/-- The same for a word whose run goes on elsewhere: `pc` for each lane. -/
def Cx.Goes (x : Cx) (i : Instr) (w' : Warp) (pc : Nat → Pc) (yielded : Bool) : Prop :=
  exec i x.s = .next (x.finish x.s w' pc yielded) ∧
  (x.c.stepping = false → Issued x x.s w' pc yielded (x.finish x.s w' pc yielded))

/-! ### What an instruction writes -/

/-- A word of the register file, lanes 2j and 2j + 1 of a register, is written whole: those of the two lanes that have not exited take a
new value there (R358, log 48). -/
def wroteWhole (v : Warp) (new : Nat → Nat → Option Word) (b : Nat × Nat) : Bool := v.wholeWord (fun l => (new l b.1).isSome) b.2

/-- `w` is `v` but for registers and flags: lane `l` that has not exited reads `new l n` in register `n` where there is one
and what it read before elsewhere, and `flags l` are ORed into its SR.FPFLAGS (R104). Uncorrectable data goes where a word is written
whole (R358). What `h.last` may still discard (R30) is the only other thing that may differ. -/
structure Writes (v w : Warp) (new : Nat → Nat → Option Word) (flags : Nat → Flags) : Prop where
  regs : ∀ l, l < 32 → (v.lane l).isExited = false → ∀ n, w.reg l n = (new l n).getD (v.reg l n)
  count : w.regs.length = v.regs.length
  flags : ∀ l, l < 32 → (w.lane l).fpflags = (v.lane l).fpflags ||| flags l
  lanes : ∀ l, l < 32 → { w.lane l with fpflags := (v.lane l).fpflags, recent := (v.lane l).recent } = v.lane l
  bad : ∀ b, b ∈ w.bad ↔ b ∈ v.bad ∧ wroteWhole v new b = false
  rest : { w with regs := v.regs, lanes := v.lanes, bad := v.bad } = v

/-- Register `d` takes the value in the lanes of a set. -/
def oneReg (m : Mask) (d : Nat) (v : Nat → Word) (l n : Nat) : Option Word := if inMask m l && n == d then some (v l) else none

/-- The pair at `d` takes the 64-bit value in the lanes of a set: the low word in `d` (R3). -/
def onePair (m : Mask) (d : Nat) (v : Nat → DWord) (l n : Nat) : Option Word :=
  if inMask m l && n == d then some ((v l).extractLsb' 0 32)
  else if inMask m l && n == d + 1 then some ((v l).extractLsb' 32 32) else none

/-- No register. -/
def noReg (_ _ : Nat) : Option Word := none

/-- Flags raised in the lanes of a set. -/
def flagsIn (m : Mask) (f : Nat → Flags) (l : Nat) : Flags := if inMask m l then f l else 0#5

/-- No flag. -/
def noFlags (_ : Nat) : Flags := 0#5

/-- The 64-bit pair of a lane at a register (R3). -/
def Warp.dword (w : Warp) (l n : Nat) : DWord := w.reg l (n + 1) ++ w.reg l n

/-- The immediate of majors 0x01 and 0x03 (R60, R102): imm7 sign-extended, or the 25 bits of `h.imm` above imm7. -/
def immediate (h : Hints) (i : Nat) : Word :=
  match h.imm with
  | none => (BitVec.ofNat 7 i).signExtend 32
  | some x => BitVec.ofNat 25 x ++ BitVec.ofNat 7 i

/-- The third source of a function that has one (R103). -/
def source3 (h : Hints) (d : Nat) : Nat := h.src3.getD d

/-- The registers that the lanes of a set read and write lie below the allocation, none is pending in a lane of the set, and the data
of those read is good (R8, R9, R33, R358). -/
def Ready (w : Warp) (m : Mask) (srcs dsts : List Nat) : Prop :=
  (∀ n ∈ srcs, n < w.alloc ∧ ∀ l, inMask m l = true → w.isPending l n = false ∧ w.isBad l n = false) ∧
  ∀ n ∈ dsts, n < w.alloc ∧ ∀ l, inMask m l = true → w.isPending l n = false

/-- The entries of the predicate stack named are not pending in a lane of the set (R182). -/
def PredsReady (w : Warp) (m : Mask) (ks : List Nat) : Prop :=
  ∀ k ∈ ks, ∀ l, inMask m l = true → ((w.lane l).pred k).pend = none

/-- Every lane of the run passes the checks of R66 on words, hints and guards, and its context begins the issue. -/
def Begins (s : State) (i : Info) (x : Cx) : Prop := beginIssue s i = .ok (.ok x)

/-! ### The two twins of an ALU function (R101)

`f` gives, from the hints and the registers of one lane, the value written and the flags raised; `i` is what the word is
toward the checks of R66. An effect holds for every form of the word: whatever the hints that apply. -/

/-- The `s.` twin: once, from the registers of `lead`, written to every lane that has not exited (R22). -/
def UniformEffect (i : Info) (k : Instr) (srcs : Hints → List Nat) (d : Nat) (f : Hints → (Nat → Word) → Word × Flags) : Prop :=
  ∀ s x, Begins s i x → Ready x.w (oneLane x.lead) (srcs x.hints) [] → Ready x.w x.w.live [] [d] →
    ∃ w', x.Completes k x.s w' ∧
      Writes x.wd w' (oneReg x.w.live d (fun _ => (f x.hints (x.w.reg x.lead)).1))
        (flagsIn x.w.live (fun _ => (f x.hints (x.w.reg x.lead)).2))

/-- The `v.` twin: in each active lane, from its own registers (R62, R66). -/
def LaneEffect (i : Info) (k : Instr) (srcs : Hints → List Nat) (d : Nat) (f : Hints → (Nat → Word) → Word × Flags) : Prop :=
  ∀ s x, Begins s i x → Ready x.w x.act (srcs x.hints) [d] →
    ∃ w', x.Completes k x.s w' ∧
      Writes x.wd w' (oneReg x.act d (fun l => (f x.hints (x.w.reg l)).1)) (flagsIn x.act (fun l => (f x.hints (x.w.reg l)).2))

/-- The `s.` twin of a function that writes a pair. -/
def UniformPairEffect (i : Info) (k : Instr) (srcs : Hints → List Nat) (d : Nat) (f : Hints → (Nat → Word) → DWord × Flags) : Prop :=
  ∀ s x, Begins s i x → Ready x.w (oneLane x.lead) (srcs x.hints) [] → Ready x.w x.w.live [] [d, d + 1] →
    ∃ w', x.Completes k x.s w' ∧
      Writes x.wd w' (onePair x.w.live d (fun _ => (f x.hints (x.w.reg x.lead)).1))
        (flagsIn x.w.live (fun _ => (f x.hints (x.w.reg x.lead)).2))

/-- The `v.` twin of a function that writes a pair. -/
def LanePairEffect (i : Info) (k : Instr) (srcs : Hints → List Nat) (d : Nat) (f : Hints → (Nat → Word) → DWord × Flags) : Prop :=
  ∀ s x, Begins s i x → Ready x.w x.act (srcs x.hints) [d, d + 1] →
    ∃ w', x.Completes k x.s w' ∧
      Writes x.wd w' (onePair x.act d (fun l => (f x.hints (x.w.reg l)).1)) (flagsIn x.act (fun l => (f x.hints (x.w.reg l)).2))

/-- What a word does where a lane of a set names a register that is not below the allocation, or one that is pending (R8, R9, R33, R66),
or reads one whose data is uncorrectable (R358): `srcs` and `dsts` are the registers each lane reads and writes, in order. A trap names
every lane with such a register, its detail the first that the lowest of them names. Uncorrectable data ends the context, once the other
checks have passed (log 48). -/
def TrapsOnRegisters (i : State → Info) (k : Instr) (m : Cx → Mask) (srcs dsts : Cx → Nat → List Nat) : Prop :=
  ∀ s x, Begins s (i s) x →
    let regs (x : Cx) (l : Nat) : List Nat := srcs x l ++ dsts x l
    let naming (p : Nat → Nat → Bool) : Mask := maskOf (fun l => inMask (m x) l && (regs x l).any (p l))
    let first (p : Nat → Nat → Bool) (n : Nat) : Prop :=
      ∃ l, l < 32 ∧ inMask (naming p) l = true ∧ (∀ j, j < l → inMask (naming p) j = false) ∧ (regs x l).find? (p l) = some n
    let outside (_ n : Nat) : Bool := decide (x.w.alloc ≤ n)
    (∀ n, first outside n → exec k x.s = .next (trapNow x.s x.sel (naming outside) 0x04 0 [n, 0, x.w.alloc])) ∧
    (naming outside = 0#32 → ∀ n, first x.w.isPending n → exec k x.s = .next (trapNow x.s x.sel (naming x.w.isPending) 0x03 0 [n, 0])) ∧
    (naming outside = 0#32 → naming x.w.isPending = 0#32 → (∃ l, inMask (m x) l = true ∧ ∃ n ∈ srcs x l, x.w.isBad l n = true) →
      exec k x.s = .next { endContext x.s x.w.ctx
        (recordWords 0x53 0 x.sel.first.toNat x.sel.run x.sel.run 0 [(x.w.core?).getD 0]) with cur := none })

/-- The same of both twins of an ALU function: the `s.` twin reads its sources in `lead` alone and writes every lane that has not exited
(R22), the `v.` twin reads and writes in each active lane. -/
def TwinsTrap (src3 imm rnd : Bool) (s v : Instr) (srcs : Hints → List Nat) (dsts : List Nat) : Prop :=
  TrapsOnRegisters (fun _ => Info.of 0 imm src3 rnd) s (fun x => x.w.live) (fun x l => if l = x.lead then srcs x.hints else [])
    (fun _ _ => dsts) ∧
  TrapsOnRegisters (fun _ => Info.of 1 imm src3 rnd) v Cx.act (fun x _ => srcs x.hints) (fun _ _ => dsts)

/-- A 64-bit value of registers read by `r` (R3). -/
def pairAt (r : Nat → Word) (n : Nat) : DWord := r (n + 1) ++ r n

/-- The leading zero bits of a word. -/
def leadingZeros (a : Word) : Nat := ((List.range 32).takeWhile (fun i => !a.getLsbD (31 - i))).length

/-- The one bits of a word. -/
def oneBits (a : Word) : Nat := ((List.range 32).filter (fun i => a.getLsbD i)).length

/-- The bits of a word in reverse order. -/
def bitsReversed (a : Word) : Word := maskOf (fun i => a.getLsbD (31 - i))

/-- An output byte of `prmt` (R110): `below` is the output byte under it. -/
def permutedByte (a b c : Word) (below : Byte) (i : Nat) : Byte :=
  let y : Byte := (b ++ a).extractLsb' (8 * (c.toNat / 2 ^ (3 * i) % 8)) 8
  let y := if c.getLsbD (16 + i) then y.reverse else y
  let y := if c.getLsbD (12 + i) then 0#8 else y
  if i > 0 && c.getLsbD (20 + i) then (if below.msb then 0xFF#8 else 0#8) else y

/-- The word that `prmt` writes (R110). -/
def permuted (a b c : Word) : Word :=
  let d0 := permutedByte a b c 0#8 0
  let d1 := permutedByte a b c d0 1
  let d2 := permutedByte a b c d1 2
  permutedByte a b c d2 3 ++ d2 ++ d1 ++ d0

/-! ### Number formats, compares and the predicate stack -/

/-- The number a decoded value is; 0 for a NaN and an infinity. -/
def FVal.rat (v : FVal) : ℚ :=
  match v with
  | .fin n m e => (if n then -1 else 1) * m * 2 ^ e
  | _ => 0

/-- The magnitude of the number that a code holds (R254). -/
def Fmt.mag (f : Fmt) (c : Nat) : ℚ := |(f.decode c).rat|

/-- The code of +∞ in a format that has one. -/
def Fmt.infinity (f : Fmt) : Nat := (2 ^ (f.bits - 1 - f.mant) - 1) * 2 ^ f.mant

/-- The sign bit of a code. -/
def Fmt.sign (f : Fmt) (neg : Bool) : Nat := if neg then 2 ^ (f.bits - 1) else 0

/-- A magnitude strictly between two neighbours goes to the upper one in mode `m` (R12, R256); `odd` says that the lower one's
mantissa is odd. -/
def roundsUp (m : Rm) (neg odd : Bool) (lo a hi : ℚ) : Bool :=
  match m with
  | .rne => decide (lo + hi < 2 * a) || (decide (lo + hi = 2 * a) && odd)
  | .rz => false
  | .rdn => neg
  | .rup => !neg

/-- A mode takes an overflow away from zero (R256). -/
def overflowsOut (m : Rm) (neg : Bool) : Bool := m == .rne || (m == .rup && !neg) || (m == .rdn && neg)

/-- `q` is the code and the flags that R256 gives for the number of magnitude `a` and a sign: a magnitude that a code holds is exact;
one between two codes goes to the neighbour that the mode names and is inexact, and is tiny where it would still lie below the smallest
normal number if the exponent were unbounded; one that goes above the largest code overflows. In e4m3 a magnitude above the largest
code overflows under every mode but RNE (the model's reading, log 74). -/
structure Rounded (f : Fmt) (m : Rm) (sat neg : Bool) (a : ℚ) (q : Nat × Flags) : Prop where
  exact : ∀ c, c ≤ f.largest → a = f.mag c → q = (f.sign neg + c, 0#5)
  between : ∀ c, c < f.largest → f.mag c < a → a < f.mag (c + 1) →
    let least := f.mag (2 ^ f.mant)
    let below := least - 2 ^ (-(f.bias : ℤ) - f.mant)
    q = (f.sign neg + (if roundsUp m neg (c % 2 == 1) (f.mag c) a (f.mag (c + 1)) then c + 1 else c),
      if a ≤ below ∨ (a < least ∧ roundsUp m neg true below a least = false) then flagUF ||| flagNX else flagNX)
  above : f.mag f.largest < a →
    let top := f.mag f.largest
    let next := top + (top - f.mag (f.largest - 1))
    if (f ≠ .e4m3 ∨ m = .rne) ∧ a < next ∧ roundsUp m neg (f.largest % 2 == 1) top a next = false then q = (f.sign neg + f.largest, flagNX)
    else if sat then q = (f.sign neg + f.largest, flagNX)
    else if overflowsOut m neg && f.ieee then q = (f.sign neg + f.infinity, flagOF ||| flagNX)
    else if overflowsOut m neg && f == .e4m3 then q = (0x7F, flagOF ||| flagNX)
    else q = (f.sign neg + f.largest, flagOF ||| flagNX)

/-- `q` is the exact number `x` rounded; an exact zero has the sign given. -/
def Exactly (f : Fmt) (m : Rm) (sat : Bool) (x : ℚ) (zeroNeg : Bool) (q : Nat × Flags) : Prop :=
  if x = 0 then q = (f.sign zeroNeg, 0#5) else Rounded f m sat (decide (x < 0)) |x| q

/-- The sign of an exact zero sum: that of both, else − under RDN alone (R112). -/
def zeroSum (m : Rm) (a b : Bool) : Bool := (a && b) || ((a || b) && m == .rdn)

/-- A number is finite. -/
def FVal.isFinite (v : FVal) : Bool :=
  match v with
  | .fin _ _ _ => true
  | _ => false

/-- The integer that a number rounds to in mode `m` (R258). -/
def roundedInt (m : Rm) (x : ℚ) : ℤ :=
  let n := ⌊|x|⌋
  let k := if (n : ℚ) = |x| then n else if roundsUp m (decide (x < 0)) (n % 2 == 1) n |x| (n + 1) then n + 1 else n
  if x < 0 then -k else k

/-- A node of a fixed balanced tree of sums (R127, R265): node `i` of a level is the sum, rounded RNE, of nodes 2i and 2i + 1 of the level
below, and the leaves are level 0. With it the flags raised in it. -/
def sumNode (leaf : Nat → Nat) : Nat → Nat → Nat × Flags
  | 0, i => (leaf i, 0#5)
  | k + 1, i =>
    let x := sumNode leaf k (2 * i)
    let y := sumNode leaf k (2 * i + 1)
    let q := fpAdd .f32 .rne x.1 y.1
    (q.1, x.2 ||| y.2 ||| q.2)

/-- The running sum of R127 at the head of a list, which holds its own value and then those of the positions below it, descending: the first
position has its value with no addition, a NaN as the canonical one; each later one adds, rounded RNE. With it the flags of the additions
that formed it. -/
def runningSum : List Nat → Nat × Flags
  | [] => (0, 0#5)
  | [a] =>
    let x := Fmt.f32.decode a
    if x.isNan then (0x7FC00000, if x.isSignalling then flagNV else 0#5) else (a, 0#5)
  | a :: b :: rest =>
    let below := runningSum (b :: rest)
    let q := fpAdd .f32 .rne below.1 a
    (q.1, below.2 ||| q.2)

/-- Of two numbers, none of them a NaN, the first comes no later, −0 before +0 (R113). -/
def FVal.atMost (x y : FVal) : Prop :=
  x = .inf true ∨ y = .inf false ∨
    (x.isFinite = true ∧ y.isFinite = true ∧ (x.rat < y.rat ∨ (x.rat = y.rat ∧ (x.isNeg = true ∨ y.isNeg = false))))

/-- `c` is the least number of a list of f32 codes, or the greatest, NaNs ignored (R113). -/
def IsExtreme (most : Bool) (vs : List Nat) (c : Nat) : Prop :=
  c ∈ vs ∧ (Fmt.f32.decode c).isNan = false ∧ ∀ v ∈ vs, (Fmt.f32.decode v).isNan = false →
    if most then (Fmt.f32.decode v).atMost (Fmt.f32.decode c) else (Fmt.f32.decode c).atMost (Fmt.f32.decode v)

/-- `c` is the product of two numbers rounded to f32 in RNE, with R112's infinities and NaNs. -/
def IsProduct (x y : FVal) (c : Nat) : Prop :=
  let invalid : Prop := x.isNan = true ∨ y.isNan = true ∨ (x.isFinite = false ∧ y.isZero = true) ∨ (x.isZero = true ∧ y.isFinite = false)
  (invalid → c = 0x7FC00000) ∧
  (¬ invalid → x.isFinite = false ∨ y.isFinite = false → c = Fmt.f32.sign (x.isNeg != y.isNeg) + Fmt.f32.infinity) ∧
  (x.isFinite = true → y.isFinite = true → ∃ f, Exactly .f32 .rne false (x.rat * y.rat) (x.isNeg != y.isNeg) (c, f))

/-- The pairs of a block's positions at which neither operand is skipped (R263, R264, R286). -/
def keptPairs (a b : List Factor) : List (FVal × FVal) := (a.zip b).filterMap (fun p => p.1.bind (fun x => p.2.map (fun y => (x, y))))

/-- `s` is the S of one K block of narrow operands (R263): the exact sum of its products, rounded once to f32. -/
def IsBlockSum (ps : List (FVal × FVal)) (s : Nat) : Prop :=
  let invalid (p : FVal × FVal) : Prop :=
    p.1.isNan = true ∨ p.2.isNan = true ∨ (p.1.isFinite = false ∧ p.2.isZero = true) ∨ (p.1.isZero = true ∧ p.2.isFinite = false)
  let infinite (n : Bool) (p : FVal × FVal) : Prop := (p.1.isFinite = false ∨ p.2.isFinite = false) ∧ (p.1.isNeg != p.2.isNeg) = n
  ((∃ p ∈ ps, invalid p) ∨ ((∃ p ∈ ps, infinite false p) ∧ ∃ p ∈ ps, infinite true p) → s = 0x7FC00000) ∧
  ((∀ p ∈ ps, ¬ invalid p) → ∀ n, (∃ p ∈ ps, infinite n p) → (∀ p ∈ ps, ¬ infinite (!n) p) → s = Fmt.f32.sign n + Fmt.f32.infinity) ∧
  ((∀ p ∈ ps, p.1.isFinite = true ∧ p.2.isFinite = true) → ∃ f, Exactly .f32 .rne false ((ps.map (fun p => p.1.rat * p.2.rat)).sum)
    (!ps.isEmpty && ps.all (fun p => p.1.isNeg != p.2.isNeg)) (s, f))

/-- An index brought into [0, n − 1] by an address mode (R202): 0 wraps, 1 clamps, another mirrors with period 2n. -/
def addressed (mode n : Nat) (i : ℤ) : ℤ :=
  match mode with
  | 0 => i % n
  | 1 => max 0 (min (n - 1) i)
  | _ => if i % (2 * n) < n then i % (2 * n) else 2 * n - 1 - i % (2 * n)

/-- A texel's index and fraction, in 1/256, at a coordinate x (R202): the floor, and what is left rounded with ties to even; a full
fraction goes to the next index. -/
def footprint (x : ℚ) : ℤ × ℤ :=
  let f := roundedInt .rne ((x - ⌊x⌋) * 256)
  if f = 256 then (⌊x⌋ + 1, 0) else (⌊x⌋, f)

/-- The number that an f32 code holds. -/
def f32Rat (c : Nat) : ℚ := (Fmt.f32.decode c).rat

/-- An f32 operation of R202, rounded RNE, on its operands' codes: their values alone, since textures raise no flag (R205). -/
def rneOf (f : Rm → Nat → Nat → Nat × Flags) (a b : Nat) : Nat := (f .rne a b).1

/-- A coordinate that is not finite is taken as 0 (R202). -/
def finiteOr (u : Nat) : Nat := if (Fmt.f32.decode u).isFinite then u else 0

/-- A fused step that adds the product of two f32 codes to a running sum. -/
def fusedStep (s a b : Nat) : Nat := (fpFma .f32 .rne a b s).1

/-- The lod that gradients give (R202): `w` and `h` are the codes of the texture's width and height. -/
def lodOf (w h bias operand dux dvx duy dvy : Nat) : Nat :=
  let mul := rneOf (fpMul .f32)
  let add := rneOf (fpAdd .f32)
  let len (u v : Nat) : Nat := (fpSqrt .rne (add (mul (mul u w) (mul u w)) (mul (mul v h) (mul v h)))).1
  add (add (fpLog2 (fpMax .f32 (len dux dvx) (len duy dvy)).1).1 bias) operand

/-- One output of the network of R203 from its f16 parameters as f32 codes: a bias and fused steps over the inputs. -/
def layerOf (param : Nat → Nat) (bias weights n : Nat) (x : Nat → Nat) : Nat :=
  (List.range n).foldl (fun s i => fusedStep s (param (weights + 2 * i)) (x i)) (param bias)

/-- A code and its flags as the value written and the flags raised. -/
def asWord (q : Nat × Flags) : Word × Flags := (BitVec.ofNat 32 q.1, q.2)

/-- The same for a 64-bit result. -/
def asDWord (q : Nat × Flags) : DWord × Flags := (BitVec.ofNat 64 q.1, q.2)

/-- `w` is `v` but for the predicate stacks of the lanes of a set and flags: entry `k` of lane `l` becomes `new l k`. -/
structure Restacks (v w : Warp) (m : Mask) (new : Nat → Nat → Pred) (flags : Nat → Flags) : Prop where
  preds : ∀ l, l < 32 → ∀ k, k < 8 → (w.lane l).pred k = if inMask m l then new l k else (v.lane l).pred k
  flags : ∀ l, l < 32 → (w.lane l).fpflags = (v.lane l).fpflags ||| flagsIn m flags l
  lanes : ∀ l, l < 32 → { w.lane l with preds := (v.lane l).preds, fpflags := (v.lane l).fpflags } = v.lane l
  rest : { w with lanes := v.lanes } = v

/-- A stack with an entry pushed: every entry moves down with its mark and p7 is lost (R11). -/
def pushed (b : Bool) (p : Nat → Pred) (k : Nat) : Pred := if k = 0 then Pred.of b else p (k - 1)

/-- A stack with one entry replaced. -/
def replaced (at_ : Nat) (b : Bool) (p : Nat → Pred) (k : Nat) : Pred := if k = at_ then Pred.of b else p k

/-- What a compare does to a stack in a push mode (R121): push, and, or, set. -/
def compared (mode : Nat) (t : Bool) (p : Nat → Pred) : Nat → Pred :=
  match mode with
  | 0 => pushed t p
  | 1 => replaced 0 ((p 0).val && t) p
  | 2 => replaced 0 ((p 0).val || t) p
  | _ => replaced 0 t p

/-- The six relations of the integer conditions (R49). -/
def intRelations : List (Nat × (Int → Int → Bool)) :=
  [(0, fun x y => decide (x = y)), (1, fun x y => decide (x ≠ y)), (2, fun x y => decide (x < y)), (3, fun x y => decide (x ≤ y)),
    (4, fun x y => decide (x > y)), (5, fun x y => decide (x ≥ y))]

/-- The types of `cmp` (R49): a lane's register or pair as s32, z32, s64, z64. -/
def intTypes : List (Nat × (Warp → Nat → Nat → Int)) :=
  [(0, fun w l n => (w.reg l n).toInt), (1, fun w l n => (w.reg l n).toNat), (2, fun w l n => (w.dword l n).toInt),
    (3, fun w l n => (w.dword l n).toNat)]

/-- The six relations of the ordered and unordered conditions, on two numbers (R122). -/
def fpRelations : List (Nat × (FVal → FVal → Bool)) :=
  [(0, eqVal), (1, fun x y => !eqVal x y), (2, ltVal), (3, fun x y => ltVal x y || eqVal x y), (4, fun x y => ltVal y x),
    (5, fun x y => ltVal y x || eqVal x y)]

/-- The types of `fcmp` (R49): a register read as f32, or its low half as f16 or bf16. -/
def fpTypes : List (Nat × (Word → FVal)) :=
  [(0, fun v => Fmt.f32.decode v.toNat), (1, fun v => Fmt.f16.decode (v.toNat % 2 ^ 16)), (2, fun v => Fmt.bf16.decode (v.toNat % 2 ^ 16))]

/-- A compare, `s.` twin: once from `lead`, applied to the stack of every lane that has not exited (R121, R22). -/
def UniformCompare (i : Info) (k : Instr) (srcs : List Nat) (m : Nat) (f : Warp → Nat → Bool × Flags) : Prop :=
  ∀ s x, Begins s i x → Ready x.w (oneLane x.lead) srcs [] → PredsReady x.w x.w.live (if m = 0 then [] else [0]) →
    ∃ w', x.Completes k x.s w' ∧
      Restacks x.wd w' x.w.live (fun l => compared m (f x.w x.lead).1 (x.w.lane l).pred) (fun _ => (f x.w x.lead).2)

/-- A compare, `v.` twin (R121). -/
def LaneCompare (i : Info) (k : Instr) (srcs : List Nat) (m : Nat) (f : Warp → Nat → Bool × Flags) : Prop :=
  ∀ s x, Begins s i x → Ready x.w x.act srcs [] → PredsReady x.w x.act (if m = 0 then [] else [0]) →
    ∃ w', x.Completes k x.s w' ∧
      Restacks x.wd w' x.act (fun l => compared m (f x.w l).1 (x.w.lane l).pred) (fun l => (f x.w l).2)

/-- A function of major 0x0D (R124): each active lane's stack becomes `new` of its registers and its stack. -/
def StackEffect (k : Instr) (regs preds : List Nat) (new : (Nat → Word) → (Nat → Pred) → Nat → Pred) : Prop :=
  ∀ s x, Begins s (Info.plain 1) x → Ready x.w x.act regs [] → PredsReady x.w x.act preds →
    ∃ w', x.Completes k x.s w' ∧
      Restacks x.wd w' x.act (fun l => new (x.w.reg l) (x.w.lane l).pred) (fun _ => 0#5)

/-- A cross-lane function (R126): `f` gives from the warp and the active lanes, ascending, what lane `l` receives. -/
def CrossEffect (i : Info) (k : Instr) (srcs : List Nat) (d : Nat) (f : Warp → List Nat → Nat → Word × Flags) : Prop :=
  ∀ s x, Begins s i x → Ready x.w x.act srcs [d] →
    ∃ w', x.Completes k x.s w' ∧
      Writes x.wd w' (oneReg x.act d (fun l => (f x.w (lanesOf x.act) l).1)) (flagsIn x.act (fun l => (f x.w (lanesOf x.act) l).2))

/-- Register `a` of lane `j`, or of the reading lane `l` where `j` is not active (R126). -/
def taken (w : Warp) (act : List Nat) (a l j : Nat) : Word := if j ∈ act then w.reg j a else w.reg l a

/-- The mask of the active lanes that satisfy a predicate. -/
def lanesThat (act : List Nat) (p : Nat → Bool) : Word := maskOf (fun k => act.contains k && p k)

/-! ### Operations that issue (R136) -/

/-- The state with one more number given. -/
def numbered (s : State) : State := { s with nextId := s.nextId + 1 }

/-- A warp with an operation added: it has the state's next number and its place among the operations of its counter, and
destination registers are pending for it in a set of lanes (R33). -/
def issuedOp (x : Cx) (w : Warp) (k : Nat) (kind : OpKind) (parts : List Part) (scope : Nat) (tag : Option Nat) (st : OpState)
    (dsts : List Nat) (lanes : Mask) : Warp :=
  { w with
    marks := w.marks ++ dsts.map (fun n => { reg := n, lanes := lanes, seq := w.issuedOn k })
    ops := w.ops ++ [{ id := x.s.nextId, counter := k, seq := w.issuedOn k, kind := kind, parts := parts, scope := scope,
                       tag := tag, state := st }]
    bound := x.s.nextId + 1
    issued := w.issued.set (k % 4) (w.issuedOn k + 1) (Nat.mod_lt _ (by decide)) }

/-- A word that issues an operation: with an active lane the operation stands on its counter, not performed; with none it
counts and retires at once, in order (R62). Nothing in memory changes. -/
def Cx.IssuesOp (x : Cx) (i : Instr) (w : Warp) (k : Nat) (kind : OpKind) (parts : List Part) (scope : Nat) (dsts : List Nat)
    (lanes : Mask) : Prop :=
  (x.act ≠ 0#32 → x.Completes i (numbered x.s) (issuedOp x w k kind parts scope none .running dsts lanes)) ∧
  (x.act = 0#32 →
    exec i x.s = .next (retireAll (x.done (numbered x.s) (issuedOp x w k .none [] scope none .done [] 0#32)) w.id k))

/-- The accesses of the lanes, one part each: where each lane's access leads and what it carries. -/
def partsFor (places : List (Nat × Place)) (addr : Nat → Nat) (n : Nat) (data expect : Nat → Nat) : List Part :=
  places.map (fun p => mkPart p.1 (addr p.1) n p.2 (data p.1) (expect p.1))

/-- Lanes of a warp hold what they held, but for what ends a wait and the note of a fence (R194). -/
structure KeepsLanes (v w : Warp) : Prop where
  regs : w.regs = v.regs
  marks : w.marks = v.marks
  lanes : ∀ l, l < 32 → { w.lane l with cond := (v.lane l).cond, pastFence := (v.lane l).pastFence } = v.lane l

/-! ### Engine words (R55, R136, R272) -/

/-- The bytes of a reserved field are zero. -/
def zeros (bytes : List Nat) (lo n : Nat) : Prop := ∀ o, lo ≤ o → o < lo + n → bytes.getD o 0 = 0

/-- The restart word keeps to R273: no progress without V, and with V progress below the total. -/
def restartOk (bytes : List Nat) (total : Nat) : Prop :=
  (restartV bytes = true → restartAt bytes < total) ∧ (restartV bytes = false → fieldAt bytes 32 4 = 0)

/-- The BAR field keeps to R278. -/
def barOk (w : Warp) (bytes : List Nat) : Prop :=
  bytes.getD 28 0 < 32 ∧ zeros bytes 29 3 ∧ (16 ≤ bytes.getD 28 0 → w.block.isSome = true)

/-- A field that names a tensor descriptor. -/
def namesTensor (bytes : List Nat) (at_ : Nat) : Prop := fieldAt bytes at_ 2 ≤ 4095

/-- A count within its limits. -/
def within (bytes : List Nat) (at_ n lo hi : Nat) : Prop := lo ≤ fieldAt bytes at_ n ∧ fieldAt bytes at_ n ≤ hi

/-- The lowest active lane names a block at `va` (R62, R272 steps 2 and 3): `bytes` is the block, `t` the state after it is
read. -/
structure Cx.ReadsBlock (x : Cx) (p n align l va : Nat) (bytes : List Nat) (t : State) : Prop where
  active : x.act ≠ 0#32
  lane : l = leadOf x.act
  regs : Ready x.w (oneLane l) [p, p + 1] []
  addr : va = x.w.pair l p
  read : readParam x.s x.w l va n align = .ok (bytes, t)

/-- The issue once the block is read. -/
def Cx.after (x : Cx) (t : State) : Cx := { x with s := t, wd := syncWaits t x.wd }

/-- A word of class 10 whose checks on words and hints are `info` that gives an engine a command (R136, R363): with no active lane it counts and retires in order; where the block
its lowest active lane names is valid, the command stands on its counter, not performed, its tag clear, and the run goes on.
`valid` says from the issue after the read, the block, its lane and its address which command issues, and in which state. -/
def EngineWord (i : Instr) (p k : Nat) (tag : Option Nat) (info : Info)
    (valid : Cx → List Nat → Nat → Nat → Command → State → Prop) : Prop :=
  ∀ s x, Begins s info x → x.w.outstanding k < 63 →
    (x.act = 0#32 → exec i x.s = .next (retireAll (x.done (clearTag (numbered x.s) x.w tag)
      (issuedOp x x.wd k .none [] x.scope tag .done [] 0#32)) x.w.id k)) ∧
    ∀ l va bytes t c u, x.ReadsBlock p 64 64 l va bytes t → valid (x.after t) bytes l va c u →
      exec i x.s = .next (x.done (clearTag (numbered u) x.w tag)
        (issuedOp { x with s := u } (syncWaits t x.wd) k (.engine c) [] x.scope tag .running [] 0#32))

/-- The engine finds the value `v a` in the `n` bytes at each of the addresses, and its reads change nothing. -/
def Finds (s : State) (w : Warp) (c : Command) (n : Nat) (addrs : List Nat) (v : Nat → Nat) : Prop :=
  ∀ a ∈ addrs, engNat s w c a n = .ok (v a, s)

/-! ### Events -/

/-- A warp has one operation outstanding and nothing orders it: operation `oid` is `o`, its parts are `ps`, none of them
performed. No core holds a copy of a line, and the launch is not traced. -/
structure Alone (s : State) (oid : Nat) (w : Warp) (o : Op) (ps : List Part) (c : Ctx) : Prop where
  op : s.awakeOp? oid = some (w, o)
  warp : s.warp? w.id = some w
  ctx : s.ctx? w.ctx = some c
  ops : w.ops = [o]
  running : o.state = .running
  parts : o.parts = ps
  left : ∀ p ∈ ps, p.done = false ∧ p.refused = none ∧ p.sent = false
  lane : ∀ p ∈ ps, p.lane < 32 ∧ inMask w.live p.lane = true
  fences : w.fences = []
  tag : o.tag = none
  others : ∀ v ∈ s.warps, v.id ≠ w.id → ∀ q ∈ v.ops, q.id ≠ oid
  lines : s.lines = []
  untraced : ∀ l, s.launch? w.launch = some l → l.rec_.trace = 0
  answered : s.mod.remotes = [] ∧ s.mod.brought = []

/-- An access of a lane leads to plain memory at `pa`: a present page of HBM that is not summarised, not shared and not moving,
whose data is good. -/
structure Plain (s : State) (c : Ctx) (blk : Option Nat) (acc : Access) (kind va n pa : Nat) (l : Leaf) : Prop where
  place : resolve s c blk acc kind va n = .ok ⟨.hbm pa, some l⟩
  present : l.p = true
  unsummed : l.sum = false
  unshared : l.cow = false
  still : moveOf c l = none
  good : badAt s pa n = none

/-- `k` registers from `d` on of lane `l` take the words of a value, the lowest first. -/
def wordsAt (l d k x j n : Nat) : Option Word :=
  if j = l ∧ d ≤ n ∧ n < d + k then some (BitVec.ofNat 32 (x / 2 ^ (32 * (n - d)))) else none

/-- The operation has retired: the warp has none left, and registers took new values where `new` gives one. -/
def Retired (t : State) (w : Warp) (new : Nat → Nat → Option Word) : Prop :=
  ∃ v, t.warp? w.id = some v ∧ v.ops = [] ∧ v.marks = w.marks ∧
    ∀ k, k < 32 → ∀ n, v.reg k n = (new k n).getD (w.reg k n)

/-- Bytes of HBM from `pa` on hold a value, every other byte what it held. -/
def Stored (s t : State) (pa n v : Nat) : Prop :=
  ∀ a, t.byte a = if pa ≤ a ∧ a < pa + n then BitVec.ofNat 8 (v / 256 ^ (a - pa)) else s.byte a

/-- A job of a packet type may start (R231): it is held, its context runs, and where BAR or CONTEXT asks for it no earlier
packet of its queue is left; a node of a replay goes after the lower ones that became ready together with it (R248, log 57). -/
def Startable (s : State) (job type : Nat) (j : Job) : Prop :=
  s.job? job = some j ∧ j.bytes.getD 0 0 = type ∧ ctxRuns s j.ctx = true ∧ j.state = .held ∧
  (packetBar j.bytes = true ∨ type = 8 → ∀ q i, j.source = .packet q i → ∀ k ∈ s.jobs, k.ctx = j.ctx → k.key = j.key →
    ∀ r n, k.source = .packet r n → i ≤ n) ∧
  ∀ slot n, j.source = .node slot n → ∀ g r, slotOf s j.ctx slot = some g → g.running = some r →
    ∀ k ∈ s.jobs, k.ctx = j.ctx → ∀ m, k.source = .node slot m → m < n → readyAt r m = readyAt r n →
      k.state ≠ .held ∨ k.bytes.getD 0 0 = 6

/-- A management request that is served (R348, R349): it is of the operation, firmware is released where that is asked, its
head and arguments are as they must be, and its context is named as the operation asks. -/
def Asks (s : State) (host : Nat) (msg : List Nat) (op : Nat) (named : Option Bool) (ok : Request → Bool) (q : Request) : Prop :=
  q = requestOf host msg ∧ q.op = op ∧ (op = 0x0A ∨ op = 0x0B ∨ s.mod.released = true) ∧ q.whole = true ∧ ok q = true ∧
  (named = some false → q.ctx = 0xFFFFFFFF) ∧ (named = some true → controls s host q.ctx = true)

/-- Limits of DEBUG's arguments: the sub-op, the range number, and zeros elsewhere (R348). -/
def debugOk (q : Request) : Bool :=
  let sub := q.field 0 4
  q.length == 24 && decide (sub ≤ 4) && (if sub = 2 ∨ sub = 3 then decide (q.field 4 4 ≤ 3) else q.field 4 4 == 0)
    && (sub == 2 || q.field 8 16 == 0)

end Sys2Proof.Machine
end

