-- ==== Sys2Proof/Certificates/Slice0/Obligations.lean ====
section
/-! DEFINITION. The statements for the provers. -/

open Sys2Proof Sys2Proof.Machine

/-- R101, R102, R103, R106: the fourteen functions of majors 0x00 and 0x01, as `s.` and `v.` twin, register and immediate
form. Each writes the value of R106's table to `d` and raises no flag; codes 14 and 15 are no instruction. -/
def Obligations.IntegerArithmetic : Prop :=
  (∀ w, fld w 25 7 ∈ [0, 1, 32, 33] → 14 ≤ fld w 21 4 → decodeWord w = .error .illegalOpcode) ∧
  (∀ p ∈ ([
      (Instr.sAdd, Instr.sAddImm, Instr.vAdd, Instr.vAddImm, fun a b => a + b),
      (Instr.sSub, Instr.sSubImm, Instr.vSub, Instr.vSubImm, fun a b => a - b),
      (Instr.sMullo, Instr.sMulloImm, Instr.vMullo, Instr.vMulloImm, fun a b => a * b),
      (Instr.sMulhiS, Instr.sMulhiSImm, Instr.vMulhiS, Instr.vMulhiSImm, fun a b => BitVec.ofInt 32 (a.toInt * b.toInt / 2 ^ 32)),
      (Instr.sMulhiZ, Instr.sMulhiZImm, Instr.vMulhiZ, Instr.vMulhiZImm, fun a b => BitVec.ofNat 32 (a.toNat * b.toNat / 2 ^ 32)),
      (Instr.sMinS, Instr.sMinSImm, Instr.vMinS, Instr.vMinSImm, fun a b => if a.toInt ≤ b.toInt then a else b),
      (Instr.sMaxS, Instr.sMaxSImm, Instr.vMaxS, Instr.vMaxSImm, fun a b => if a.toInt ≥ b.toInt then a else b),
      (Instr.sMinZ, Instr.sMinZImm, Instr.vMinZ, Instr.vMinZImm, fun a b => if a.toNat ≤ b.toNat then a else b),
      (Instr.sMaxZ, Instr.sMaxZImm, Instr.vMaxZ, Instr.vMaxZImm, fun a b => if a.toNat ≥ b.toNat then a else b),
      (Instr.sAbsdiff, Instr.sAbsdiffImm, Instr.vAbsdiff, Instr.vAbsdiffImm, fun a b => BitVec.ofInt 32 |a.toInt - b.toInt|),
      (Instr.sAddsatS, Instr.sAddsatSImm, Instr.vAddsatS, Instr.vAddsatSImm,
        fun a b => BitVec.ofInt 32 (max (-(2 ^ 31)) (min (2 ^ 31 - 1) (a.toInt + b.toInt)))),
      (Instr.sSubsatS, Instr.sSubsatSImm, Instr.vSubsatS, Instr.vSubsatSImm,
        fun a b => BitVec.ofInt 32 (max (-(2 ^ 31)) (min (2 ^ 31 - 1) (a.toInt - b.toInt)))),
      (Instr.sAvgZ, Instr.sAvgZImm, Instr.vAvgZ, Instr.vAvgZImm, fun a b => BitVec.ofNat 32 ((a.toNat + b.toNat + 1) / 2))] :
      List ((Nat → Nat → Nat → Instr) × (Nat → Nat → Nat → Instr) × (Nat → Nat → Nat → Instr) × (Nat → Nat → Nat → Instr) ×
        (Word → Word → Word))),
    ∀ d a b, b < 2 ^ 7 →
      UniformEffect (Info.of 0 false false false) (p.1 d a b) (fun _ => [a, b]) d (fun _ r => (p.2.2.2.2 (r a) (r b), 0#5)) ∧
      UniformEffect (Info.of 0 true false false) (p.2.1 d a b) (fun _ => [a]) d (fun h r => (p.2.2.2.2 (r a) (immediate h b), 0#5)) ∧
      LaneEffect (Info.of 1 false false false) (p.2.2.1 d a b) (fun _ => [a, b]) d (fun _ r => (p.2.2.2.2 (r a) (r b), 0#5)) ∧
      LaneEffect (Info.of 1 true false false) (p.2.2.2.1 d a b) (fun _ => [a]) d
        (fun h r => (p.2.2.2.2 (r a) (immediate h b), 0#5))) ∧
  ∀ d a b, b < 2 ^ 7 →
    UniformEffect (Info.of 0 false true false) (.sMad d a b) (fun h => [a, b, source3 h d]) d
      (fun h r => (r a * r b + r (source3 h d), 0#5)) ∧
    UniformEffect (Info.of 0 true true false) (.sMadImm d a b) (fun h => [a, source3 h d]) d
      (fun h r => (r a * immediate h b + r (source3 h d), 0#5)) ∧
    LaneEffect (Info.of 1 false true false) (.vMad d a b) (fun h => [a, b, source3 h d]) d
      (fun h r => (r a * r b + r (source3 h d), 0#5)) ∧
    LaneEffect (Info.of 1 true true false) (.vMadImm d a b) (fun h => [a, source3 h d]) d
      (fun h r => (r a * immediate h b + r (source3 h d), 0#5))

/-- R101, R102, R108: the functions of majors 0x02 and 0x03, as `s.` and `v.` twin. The shift count is the whole of b. -/
def Obligations.LogicAndShifts : Prop :=
  (∀ p ∈ ([
      (Instr.sAnd, Instr.sAndImm, Instr.vAnd, Instr.vAndImm, fun a b => a &&& b),
      (Instr.sOr, Instr.sOrImm, Instr.vOr, Instr.vOrImm, fun a b => a ||| b),
      (Instr.sXor, Instr.sXorImm, Instr.vXor, Instr.vXorImm, fun a b => a ^^^ b),
      (Instr.sAndn, Instr.sAndnImm, Instr.vAndn, Instr.vAndnImm, fun a b => a &&& ~~~b),
      (Instr.sOrn, Instr.sOrnImm, Instr.vOrn, Instr.vOrnImm, fun a b => a ||| ~~~b),
      (Instr.sXnor, Instr.sXnorImm, Instr.vXnor, Instr.vXnorImm, fun a b => ~~~(a ^^^ b)),
      (Instr.sShl, Instr.sShlImm, Instr.vShl, Instr.vShlImm, fun a b => if b.toNat < 32 then a <<< b.toNat else 0#32),
      (Instr.sShr, Instr.sShrImm, Instr.vShr, Instr.vShrImm, fun a b => if b.toNat < 32 then a >>> b.toNat else 0#32),
      (Instr.sSar, Instr.sSarImm, Instr.vSar, Instr.vSarImm, fun a b => BitVec.ofInt 32 (a.toInt / 2 ^ min b.toNat 31)),
      (Instr.sRotl, Instr.sRotlImm, Instr.vRotl, Instr.vRotlImm, fun a b => a.rotateLeft (b.toNat % 32)),
      (Instr.sRotr, Instr.sRotrImm, Instr.vRotr, Instr.vRotrImm, fun a b => a.rotateRight (b.toNat % 32))] :
      List ((Nat → Nat → Nat → Instr) × (Nat → Nat → Nat → Instr) × (Nat → Nat → Nat → Instr) × (Nat → Nat → Nat → Instr) ×
        (Word → Word → Word))),
    ∀ d a b, b < 2 ^ 7 →
      UniformEffect (Info.of 0 false false false) (p.1 d a b) (fun _ => [a, b]) d (fun _ r => (p.2.2.2.2 (r a) (r b), 0#5)) ∧
      UniformEffect (Info.of 0 true false false) (p.2.1 d a b) (fun _ => [a]) d (fun h r => (p.2.2.2.2 (r a) (immediate h b), 0#5)) ∧
      LaneEffect (Info.of 1 false false false) (p.2.2.1 d a b) (fun _ => [a, b]) d (fun _ r => (p.2.2.2.2 (r a) (r b), 0#5)) ∧
      LaneEffect (Info.of 1 true false false) (p.2.2.2.1 d a b) (fun _ => [a]) d
        (fun h r => (p.2.2.2.2 (r a) (immediate h b), 0#5))) ∧
  (∀ p ∈ ([
      (Instr.sClz, Instr.vClz, fun a => BitVec.ofNat 32 (leadingZeros a)),
      (Instr.sPopc, Instr.vPopc, fun a => BitVec.ofNat 32 (oneBits a)),
      (Instr.sBrev, Instr.vBrev, bitsReversed),
      (Instr.sMov, Instr.vMov, fun a => a),
      (Instr.sNot, Instr.vNot, fun a => ~~~a)] : List ((Nat → Nat → Instr) × (Nat → Nat → Instr) × (Word → Word))),
    ∀ d a,
      UniformEffect (Info.of 0 false false false) (p.1 d a) (fun _ => [a]) d (fun _ r => (p.2.2 (r a), 0#5)) ∧
      LaneEffect (Info.of 1 false false false) (p.2.1 d a) (fun _ => [a]) d (fun _ r => (p.2.2 (r a), 0#5))) ∧
  ∀ d b, b < 2 ^ 7 →
    UniformEffect (Info.of 0 true false false) (.sMovImm d b) (fun _ => []) d (fun h _ => (immediate h b, 0#5)) ∧
    LaneEffect (Info.of 1 true false false) (.vMovImm d b) (fun _ => []) d (fun h _ => (immediate h b, 0#5))

/-- R101, R103, R109, R110: bit fields, byte permutation and the 64-bit pairs of major 0x04. -/
def Obligations.FieldsAndPairs : Prop :=
  (∀ p ∈ ([
      (Instr.sBfeZ, Instr.vBfeZ,
        fun a b => BitVec.ofNat 32 (a.toNat / 2 ^ (b.toNat % 2 ^ 8) % 2 ^ (min (b.toNat / 2 ^ 8 % 2 ^ 8) 32))),
      (Instr.sBfeS, Instr.vBfeS, fun a b => BitVec.ofInt 32 (
        let len := min (b.toNat / 2 ^ 8 % 2 ^ 8) 32
        let f := a.toInt / 2 ^ (b.toNat % 2 ^ 8) % 2 ^ len
        if len > 0 ∧ f ≥ 2 ^ (len - 1) then f - 2 ^ len else f))] :
      List ((Nat → Nat → Nat → Instr) × (Nat → Nat → Nat → Instr) × (Word → Word → Word))),
    ∀ d a b,
      UniformEffect (Info.of 0 false false false) (p.1 d a b) (fun _ => [a, b]) d (fun _ r => (p.2.2 (r a) (r b), 0#5)) ∧
      LaneEffect (Info.of 1 false false false) (p.2.1 d a b) (fun _ => [a, b]) d (fun _ r => (p.2.2 (r a) (r b), 0#5))) ∧
  (∀ p ∈ ([
      (Instr.sBfi, Instr.vBfi, fun a b c =>
        let m := BitVec.ofNat 32 ((2 ^ min (b.toNat / 2 ^ 8 % 2 ^ 8) 32 - 1) * 2 ^ (b.toNat % 2 ^ 8))
        (c &&& ~~~m) ||| (BitVec.ofNat 32 (a.toNat * 2 ^ (b.toNat % 2 ^ 8)) &&& m)),
      (Instr.sPrmt, Instr.vPrmt, permuted)] :
      List ((Nat → Nat → Nat → Instr) × (Nat → Nat → Nat → Instr) × (Word → Word → Word → Word))),
    ∀ d a b,
      UniformEffect (Info.of 0 false true false) (p.1 d a b) (fun h => [a, b, source3 h d]) d
        (fun h r => (p.2.2 (r a) (r b) (r (source3 h d)), 0#5)) ∧
      LaneEffect (Info.of 1 false true false) (p.2.1 d a b) (fun h => [a, b, source3 h d]) d
        (fun h r => (p.2.2 (r a) (r b) (r (source3 h d)), 0#5))) ∧
  (∀ p ∈ ([
      (Instr.sAdd64, Instr.vAdd64, fun a b => a + b),
      (Instr.sSub64, Instr.vSub64, fun a b => a - b),
      (Instr.sMul64lo, Instr.vMul64lo, fun a b => a * b)] :
      List ((Nat → Nat → Nat → Instr) × (Nat → Nat → Nat → Instr) × (DWord → DWord → DWord))),
    ∀ d a b, d % 2 = 0 → a % 2 = 0 → b % 2 = 0 →
      UniformPairEffect (Info.of 0 false false false) (p.1 d a b) (fun _ => [a, a + 1, b, b + 1]) d
        (fun _ r => (p.2.2 (pairAt r a) (pairAt r b), 0#5)) ∧
      LanePairEffect (Info.of 1 false false false) (p.2.1 d a b) (fun _ => [a, a + 1, b, b + 1]) d
        (fun _ r => (p.2.2 (pairAt r a) (pairAt r b), 0#5))) ∧
  ∀ p ∈ ([
      (Instr.sShl64, Instr.vShl64, fun a n => if n.toNat < 64 then a <<< n.toNat else 0#64),
      (Instr.sShr64, Instr.vShr64, fun a n => if n.toNat < 64 then a >>> n.toNat else 0#64),
      (Instr.sSar64, Instr.vSar64, fun a n => BitVec.ofInt 64 (a.toInt / 2 ^ min n.toNat 63))] :
      List ((Nat → Nat → Nat → Instr) × (Nat → Nat → Nat → Instr) × (DWord → Word → DWord))),
    ∀ d a b, d % 2 = 0 → a % 2 = 0 →
      UniformPairEffect (Info.of 0 false false false) (p.1 d a b) (fun _ => [a, a + 1, b]) d
        (fun _ r => (p.2.2 (pairAt r a) (r b), 0#5)) ∧
      LanePairEffect (Info.of 1 false false false) (p.2.1 d a b) (fun _ => [a, a + 1, b]) d
        (fun _ r => (p.2.2 (pairAt r a) (r b), 0#5))

/-- R60, R101, R111: `movi` writes imm18 sign-extended, or the 32 bits that `h.imm` and imm18[6:0] give. The checks its issue
passes hold that imm18[17:7] is 0 under `h.imm` (`moviBad`). -/
def Obligations.MoveImmediate : Prop :=
  ∀ d i, i < 2 ^ 18 →
    let value (h : Hints) : Word := match h.imm with
      | none => (BitVec.ofNat 18 i).signExtend 32
      | some u => BitVec.ofNat 25 u ++ BitVec.ofNat 7 i
    (∀ s x, Begins s ((Info.of 0 true false false).bad (moviBad s i)) x → Ready x.w x.w.live [] [d] →
      ∃ w', x.Completes (.sMovi d i) x.s w' ∧ Writes x.wd w' (oneReg x.w.live d (fun _ => value x.hints)) noFlags) ∧
    (∀ s x, Begins s ((Info.of 1 true false false).bad (moviBad s i)) x → Ready x.w x.act [] [d] →
      ∃ w', x.Completes (.vMovi d i) x.s w' ∧ Writes x.wd w' (oneReg x.act d (fun _ => value x.hints)) noFlags)

/-- R112, R113, R120: the arithmetic of majors 0x06 and 0x08. The value and the flags are the exact sum, difference, product or
product and sum, rounded once in the mode of the hint group (R256: `Exactly`, `Rounded`), with R112's zeros, infinities and NaNs; `fmin`
and `fmax` choose an operand. -/
def Obligations.FloatArithmetic : Prop :=
  (∀ f ∈ [Fmt.f32, Fmt.f16, Fmt.bf16], ∀ (m : Rm) (a b c : Nat),
    let x := f.decode a
    let y := f.decode b
    let z := f.decode c
    let inf (n : Bool) : Nat × Flags := (f.sign n + f.infinity, 0#5)
    let nan (nv : Bool) : Nat × Flags := (f.canonical, if nv then flagNV else 0#5)
    let signalling := x.isSignalling || y.isSignalling
    fpAdd f m a b = fpAdd f m b a ∧ fpMul f m a b = fpMul f m b a ∧ fpFma f m a b c = fpFma f m b a c ∧
    fpSub f m a b = fpAdd f m a (b ^^^ 2 ^ (f.bits - 1)) ∧
    (x.isFinite = true → y.isFinite = true →
      Exactly f m false (x.rat + y.rat) (zeroSum m x.isNeg y.isNeg) (fpAdd f m a b) ∧
      Exactly f m false (x.rat * y.rat) (x.isNeg != y.isNeg) (fpMul f m a b) ∧
      (z.isFinite = true →
        Exactly f m false (x.rat * y.rat + z.rat) (zeroSum m (x.isNeg != y.isNeg) z.isNeg) (fpFma f m a b c)) ∧
      ∀ n, z = .inf n → fpFma f m a b c = inf n) ∧
    (x.isNan = true ∨ y.isNan = true → fpAdd f m a b = nan signalling ∧ fpMul f m a b = nan signalling) ∧
    (∀ n, x = .inf n →
      (y = .inf (!n) → fpAdd f m a b = nan true) ∧
      (y.isNan = false → y ≠ .inf (!n) → fpAdd f m a b = inf n) ∧
      (y.isZero = true → fpMul f m a b = nan true ∧ fpFma f m a b c = nan true) ∧
      (y.isNan = false → y.isZero = false → fpMul f m a b = inf (n != y.isNeg) ∧
        (z.isNan = false → fpFma f m a b c = if z = .inf (n == y.isNeg) then nan true else inf (n != y.isNeg)))) ∧
    ((x.isNan = true ∨ y.isNan = true ∨ (z.isNan = true ∧ (∀ n, x = .inf n → y.isZero = false) ∧ ∀ n, y = .inf n → x.isZero = false)) →
      fpFma f m a b c = nan (signalling || z.isSignalling))) ∧
  (∀ f ∈ [Fmt.f32, Fmt.f16, Fmt.bf16], ∀ a b, a < 2 ^ f.bits → b < 2 ^ f.bits →
    let x := f.decode a
    let y := f.decode b
    let nv : Flags := if x.isSignalling || y.isSignalling then flagNV else 0#5
    (x.isNan = true → y.isNan = true → fpMin f a b = (f.canonical, nv) ∧ fpMax f a b = (f.canonical, nv)) ∧
    (x.isNan = true → y.isNan = false → fpMin f a b = (b, nv) ∧ fpMax f a b = (b, nv)) ∧
    (x.isNan = false → y.isNan = true → fpMin f a b = (a, nv) ∧ fpMax f a b = (a, nv)) ∧
    (x.isNan = false → y.isNan = false →
      (x = .inf true ∨ y = .inf false ∨ (x.isFinite = true ∧ y.isFinite = true ∧ (x.rat < y.rat ∨ (x.rat = y.rat ∧ (x.isNeg = true ∨ y.isNeg = false)))) →
        fpMin f a b = (a, 0#5) ∧ fpMax f a b = (b, 0#5)) ∧
      (y = .inf true ∨ x = .inf false ∨ (x.isFinite = true ∧ y.isFinite = true ∧ (y.rat < x.rat ∨ (x.rat = y.rat ∧ (y.isNeg = true ∨ x.isNeg = false)))) →
        fpMin f a b = (b, 0#5) ∧ fpMax f a b = (a, 0#5)))) ∧
  (∀ p ∈ ([
      (Instr.sFadd, Instr.vFadd, fpAdd .f32), (Instr.sFsub, Instr.vFsub, fpSub .f32), (Instr.sFmul, Instr.vFmul, fpMul .f32),
      (Instr.sFaddF16x2, Instr.vFaddF16x2, fun m => packed (fpAdd .f16 m)),
      (Instr.sFsubF16x2, Instr.vFsubF16x2, fun m => packed (fpSub .f16 m)),
      (Instr.sFmulF16x2, Instr.vFmulF16x2, fun m => packed (fpMul .f16 m)),
      (Instr.sFaddBf16x2, Instr.vFaddBf16x2, fun m => packed (fpAdd .bf16 m)),
      (Instr.sFsubBf16x2, Instr.vFsubBf16x2, fun m => packed (fpSub .bf16 m)),
      (Instr.sFmulBf16x2, Instr.vFmulBf16x2, fun m => packed (fpMul .bf16 m))] :
      List ((Nat → Nat → Nat → Instr) × (Nat → Nat → Nat → Instr) × (Rm → Nat → Nat → Nat × Flags))),
    ∀ d a b,
      UniformEffect (Info.of 0 false false true) (p.1 d a b) (fun _ => [a, b]) d
        (fun h r => asWord (p.2.2 h.mode (r a).toNat (r b).toNat)) ∧
      LaneEffect (Info.of 1 false false true) (p.2.1 d a b) (fun _ => [a, b]) d
        (fun h r => asWord (p.2.2 h.mode (r a).toNat (r b).toNat))) ∧
  (∀ p ∈ ([
      (Instr.sFfma, Instr.vFfma, fpFma .f32),
      (Instr.sFfmaF16x2, Instr.vFfmaF16x2, fun m => packed3 (fpFma .f16 m)),
      (Instr.sFfmaBf16x2, Instr.vFfmaBf16x2, fun m => packed3 (fpFma .bf16 m))] :
      List ((Nat → Nat → Nat → Instr) × (Nat → Nat → Nat → Instr) × (Rm → Nat → Nat → Nat → Nat × Flags))),
    ∀ d a b,
      UniformEffect (Info.of 0 false true true) (p.1 d a b) (fun h => [a, b, source3 h d]) d
        (fun h r => asWord (p.2.2 h.mode (r a).toNat (r b).toNat (r (source3 h d)).toNat)) ∧
      LaneEffect (Info.of 1 false true true) (p.2.1 d a b) (fun h => [a, b, source3 h d]) d
        (fun h r => asWord (p.2.2 h.mode (r a).toNat (r b).toNat (r (source3 h d)).toNat))) ∧
  ∀ p ∈ ([
      (Instr.sFmin, Instr.vFmin, fpMin .f32), (Instr.sFmax, Instr.vFmax, fpMax .f32),
      (Instr.sFminF16x2, Instr.vFminF16x2, packed (fpMin .f16)), (Instr.sFmaxF16x2, Instr.vFmaxF16x2, packed (fpMax .f16)),
      (Instr.sFminBf16x2, Instr.vFminBf16x2, packed (fpMin .bf16)), (Instr.sFmaxBf16x2, Instr.vFmaxBf16x2, packed (fpMax .bf16))] :
      List ((Nat → Nat → Nat → Instr) × (Nat → Nat → Nat → Instr) × (Nat → Nat → Nat × Flags))),
    ∀ d a b,
      UniformEffect (Info.of 0 false false false) (p.1 d a b) (fun _ => [a, b]) d (fun _ r => asWord (p.2.2 (r a).toNat (r b).toNat)) ∧
      LaneEffect (Info.of 1 false false false) (p.2.1 d a b) (fun _ => [a, b]) d (fun _ r => asWord (p.2.2 (r a).toNat (r b).toNat))

/-- R114: `fabs`, `fneg` and `fcopysign` act on the bits and raise no flag. -/
def Obligations.SignBits : Prop :=
  (∀ p ∈ ([
      (Instr.sFabs, Instr.vFabs, fun a => a &&& 0x7FFFFFFF#32),
      (Instr.sFneg, Instr.vFneg, fun a => a ^^^ 0x80000000#32)] : List ((Nat → Nat → Instr) × (Nat → Nat → Instr) × (Word → Word))),
    ∀ d a,
      UniformEffect (Info.of 0 false false false) (p.1 d a) (fun _ => [a]) d (fun _ r => (p.2.2 (r a), 0#5)) ∧
      LaneEffect (Info.of 1 false false false) (p.2.1 d a) (fun _ => [a]) d (fun _ r => (p.2.2 (r a), 0#5))) ∧
  ∀ d a b,
    UniformEffect (Info.of 0 false false false) (.sFcopysign d a b) (fun _ => [a, b]) d
      (fun _ r => ((r a &&& 0x7FFFFFFF#32) ||| (r b &&& 0x80000000#32), 0#5)) ∧
    LaneEffect (Info.of 1 false false false) (.vFcopysign d a b) (fun _ => [a, b]) d
      (fun _ r => ((r a &&& 0x7FFFFFFF#32) ||| (r b &&& 0x80000000#32), 0#5))

/-- R115, R117 to R119: `fclass`, the special functions and rounding to an integral value. `fsqrt`, `frcp` and `frsq` give the exact root
or quotient rounded once and `frint` the integer of its mode; the others give R117's exact cases and special operands, and elsewhere the
value of Machine/Special.lean, which encloses the exact result (log 5, the model's). -/
def Obligations.SpecialFunctions : Prop :=
  (∀ (m : Rm) (a : Nat), a < 2 ^ 32 →
    let f := Fmt.f32
    let x := f.decode a
    let fns := [fpRcp, fpRsq, fpSqrt m, fpExp2, fpLog2, fpSinpi, fpCospi, fpTanh, fpRint m]
    let invalid (g : Nat → Nat × Flags) : Prop := g a = (0x7FC00000, flagNV)
    (∀ s, x = .nan s → ∀ g ∈ fns, g a = (0x7FC00000, if s then flagNV else 0#5)) ∧
    (∀ n, x = .inf n → fpRcp a = (f.sign n, 0#5) ∧ fpTanh a = (f.sign n + 0x3F800000, 0#5) ∧ fpRint m a = (a, 0#5) ∧ invalid fpSinpi ∧
      invalid fpCospi ∧ (n = true → invalid fpRsq ∧ invalid (fpSqrt m) ∧ invalid fpLog2 ∧ fpExp2 a = (0, 0#5)) ∧
      (n = false → fpRsq a = (0, 0#5) ∧ fpSqrt m a = (a, 0#5) ∧ fpLog2 a = (a, 0#5) ∧ fpExp2 a = (a, 0#5))) ∧
    (x.isZero = true → fpRcp a = (f.sign x.isNeg + 0x7F800000, flagDZ) ∧ fpRsq a = (f.sign x.isNeg + 0x7F800000, flagDZ) ∧
      fpSqrt m a = (a, 0#5) ∧ fpExp2 a = (0x3F800000, 0#5) ∧ fpLog2 a = (0xFF800000, flagDZ) ∧ fpCospi a = (0x3F800000, 0#5) ∧
      fpTanh a = (a, 0#5)) ∧
    (x.isFinite = true →
      ((19 : ℚ) / 2 ≤ |x.rat| → fpTanh a = (f.sign x.isNeg + 0x3F800000, 0#5)) ∧
      (128 ≤ x.rat → fpExp2 a = (0x7F800000, 0#5)) ∧ (x.rat < -150 → fpExp2 a = (0, 0#5)) ∧
      (∀ i : ℤ, -149 ≤ i → i ≤ 127 → x.rat = i → ∃ c, c < 0x7F800000 ∧ f.mag c = 2 ^ i ∧ fpExp2 a = (c, 0#5)) ∧
      (∀ i : ℤ, x.rat = 2 ^ i → (f.decode (fpLog2 a).1).rat = i ∧ (fpLog2 a).2 = 0#5 ∧ (i = 0 → (fpLog2 a).1 = 0)) ∧
      (∀ i : ℤ, x.rat = i → fpSinpi a = (f.sign x.isNeg, 0#5) ∧ fpRint m a = (a, 0#5) ∧
        fpCospi a = (if i % 2 = 0 then 0x3F800000 else 0xBF800000, 0#5)) ∧
      (∀ i : ℤ, x.rat = i + 1 / 2 → fpSinpi a = (if i % 2 = 0 then 0x3F800000 else 0xBF800000, 0#5) ∧ fpCospi a = (0, 0#5)) ∧
      (f.decode (fpRint m a).1).rat = roundedInt m x.rat ∧ (f.decode (fpRint m a).1).isNeg = x.isNeg ∧ (fpRint m a).2 = 0#5 ∧
      (x.isZero = false → (fpExp2 a).2 = 0#5 ∧ (fpSinpi a).2 = 0#5 ∧ (fpCospi a).2 = 0#5 ∧ (fpTanh a).2 = 0#5 ∧
        (|x.rat| < 2 ^ (-128 : ℤ) → fpRcp a = (f.sign x.isNeg + 0x7F800000, 0#5)) ∧
        (2 ^ (-128 : ℤ) ≤ |x.rat| → ∃ fl, Rounded f .rne false x.isNeg (1 / |x.rat|) ((fpRcp a).1, fl) ∧ (fpRcp a).2 = 0#5) ∧
        (x.isNeg = true → invalid fpRsq ∧ invalid (fpSqrt m) ∧ invalid fpLog2) ∧
        (x.isNeg = false → (fpLog2 a).2 = 0#5 ∧ ∀ c, c < f.largest →
          let lo := f.mag c
          let hi := f.mag (c + 1)
          (lo ^ 2 = x.rat → fpSqrt m a = (c, 0#5)) ∧
          (lo ^ 2 < x.rat → x.rat < hi ^ 2 →
            fpSqrt m a = (if (m = .rne ∧ (lo + hi) ^ 2 < 4 * x.rat) ∨ m = .rup then c + 1 else c, flagNX)) ∧
          (lo ^ 2 * x.rat = 1 → fpRsq a = (c, 0#5)) ∧
          (lo ^ 2 * x.rat < 1 → 1 < hi ^ 2 * x.rat →
            fpRsq a = (if (lo + hi) ^ 2 * x.rat < 4 then c + 1 else c, 0#5))))) ∧
    fpClass a =
      let e := a / 2 ^ 23 % 2 ^ 8
      let t := a % 2 ^ 23
      let s := a / 2 ^ 31
      if e = 255 then (if t = 0 then (if s = 1 then 2 ^ 0 else 2 ^ 7) else if t < 2 ^ 22 then 2 ^ 8 else 2 ^ 9)
      else if e = 0 then (if t = 0 then (if s = 1 then 2 ^ 3 else 2 ^ 4) else if s = 1 then 2 ^ 2 else 2 ^ 5)
      else if s = 1 then 2 ^ 1 else 2 ^ 6) ∧
  (∀ p ∈ ([
      (Instr.sFclass, Instr.vFclass, fun a => (fpClass a, 0#5)), (Instr.sFrcp, Instr.vFrcp, fpRcp), (Instr.sFrsq, Instr.vFrsq, fpRsq),
      (Instr.sFexp2, Instr.vFexp2, fpExp2), (Instr.sFlog2, Instr.vFlog2, fpLog2), (Instr.sFsinpi, Instr.vFsinpi, fpSinpi),
      (Instr.sFcospi, Instr.vFcospi, fpCospi), (Instr.sFtanh, Instr.vFtanh, fpTanh), (Instr.sFrintNe, Instr.vFrintNe, fpRint .rne),
      (Instr.sFrintZ, Instr.vFrintZ, fpRint .rz), (Instr.sFrintDn, Instr.vFrintDn, fpRint .rdn),
      (Instr.sFrintUp, Instr.vFrintUp, fpRint .rup)] : List ((Nat → Nat → Instr) × (Nat → Nat → Instr) × (Nat → Nat × Flags))),
    ∀ d a,
      UniformEffect (Info.of 0 false false false) (p.1 d a) (fun _ => [a]) d (fun _ r => asWord (p.2.2 (r a).toNat)) ∧
      LaneEffect (Info.of 1 false false false) (p.2.1 d a) (fun _ => [a]) d (fun _ r => asWord (p.2.2 (r a).toNat))) ∧
  ∀ d a,
    UniformEffect (Info.of 0 false false true) (.sFsqrt d a) (fun _ => [a]) d (fun h r => asWord (fpSqrt h.mode (r a).toNat)) ∧
    LaneEffect (Info.of 1 false false true) (.vFsqrt d a) (fun _ => [a]) d (fun h r => asWord (fpSqrt h.mode (r a).toNat))

/-- R256: Round, for every format, mode, number and form: a number is rounded to the neighbour its mode names, with NX, UF or OF as R256
has them; the codes of an infinity and of a NaN. A code that holds a number is its own rounding. That a magnitude above 448 overflows
in e4m3 under every mode but RNE is the model's reading of the table after R259 (log 74): R256's words give the code 448 with NX alone. -/
def Obligations.FloatRounding : Prop :=
  (∀ (f : Fmt) (m : Rm) (sat neg : Bool) (n : Nat) (e : Int), (sat = true → f.narrow = true) →
    Rounded f m sat neg (n * 2 ^ e) (roundVal f m sat (.fin neg n e))) ∧
  (∀ (f : Fmt) (m : Rm) (sat neg : Bool), (sat = true → f.narrow = true) → roundVal f m sat (.inf neg) =
    if f = .e2m1 ∨ sat = true then (f.sign neg + f.largest, flagNV)
    else if f = .e4m3 then (0x7F, flagNV)
    else (f.sign neg + f.infinity, 0#5)) ∧
  (∀ (f : Fmt) (m : Rm) (sat signalling : Bool), roundVal f m sat (.nan signalling) =
    (match f with | .f32 => 0x7FC00000 | .f16 => 0x7E00 | .bf16 => 0x7FC0 | .e4m3 => 0x7F | .e5m2 => 0x7E | .e2m1 => 0,
      if signalling = true ∨ f = .e2m1 then flagNV else 0#5)) ∧
  ∀ (f : Fmt) (m : Rm) (sat : Bool) (c : Nat), c < 2 ^ f.bits → (f.decode c).isFinite = true → roundVal f m sat (f.decode c) = (c, 0#5)

/-- R257 to R259: `cvt`, every pair of types the word allows, to a register and to a pair: the exact value of the source rounded once to
the destination's format (R256; where e4m3 overflows in the directed modes is the model's reading, log 74), or to an integer, or its
type's bound with NV (R258). -/
def Obligations.Conversions : Prop :=
  let formats : List (Nat × Fmt) := [(2, .f32), (3, .f16), (4, .bf16), (5, .e4m3), (6, .e5m2), (7, .e2m1)]
  let integers : List (Nat × Nat × Bool) := [(0, 32, true), (1, 32, false), (8, 2, true), (9, 64, true), (0xA, 64, false), (0xB, 16, true),
    (0xC, 16, false), (0xD, 8, true), (0xE, 8, false)]
  let number (t : Nat × Bool) (y : Nat) : ℤ := if t.2 = true ∧ 2 ^ (t.1 - 1) ≤ y % 2 ^ t.1 then (y % 2 ^ t.1 : ℤ) - 2 ^ t.1 else (y % 2 ^ t.1 : ℤ)
  (∀ d ∈ formats, ∀ (sat : Bool) (m : Rm) (y : Nat), (sat = true → d.2.narrow = true) →
    (∀ p ∈ formats, cvtResult d.1 p.1 sat m y = roundVal d.2 m sat (p.2.decode (y % 2 ^ p.2.bits))) ∧
    ∀ t ∈ integers, Exactly d.2 m sat (number t.2 y) false (cvtResult d.1 t.1 sat m y)) ∧
  (∀ t ∈ integers, ∀ p ∈ formats, ∀ (sat : Bool) (m : Rm) (y : Nat),
    let lo : ℤ := if t.2.2 then -(2 ^ (t.2.1 - 1)) else 0
    let hi : ℤ := if t.2.2 then 2 ^ (t.2.1 - 1) - 1 else 2 ^ t.2.1 - 1
    let written (i : ℤ) : Nat := (i % 2 ^ (if t.2.1 = 2 then 2 else if t.2.1 = 64 then 64 else 32)).toNat
    let x := p.2.decode (y % 2 ^ p.2.bits)
    let i := roundedInt m x.rat
    (x.isNan = true → cvtResult t.1 p.1 sat m y = (0, flagNV)) ∧
    (∀ n, x = .inf n → cvtResult t.1 p.1 sat m y = (written (if n then lo else hi), flagNV)) ∧
    (x.isFinite = true → cvtResult t.1 p.1 sat m y =
      if i < lo then (written lo, flagNV) else if hi < i then (written hi, flagNV)
      else (written i, if (i : ℚ) = x.rat then 0#5 else flagNX))) ∧
  ∀ f d a src t,
    let srcs : Hints → List Nat := fun _ => if cvtPair src then [a, a + 1] else [a]
    let value (h : Hints) (r : Nat → Word) : Nat × Flags :=
      cvtResult f src (t == 1) h.mode (if cvtPair src then (pairAt r a).toNat else (r a).toNat)
    (cvtPair f = false →
      UniformEffect (cvtInfo 0 f d a src t) (.sCvt f d a src t) srcs d (fun h r => asWord (value h r)) ∧
      LaneEffect (cvtInfo 1 f d a src t) (.vCvt f d a src t) srcs d (fun h r => asWord (value h r))) ∧
    (cvtPair f = true →
      UniformPairEffect (cvtInfo 0 f d a src t) (.sCvt f d a src t) srcs d (fun h r => asDWord (value h r)) ∧
      LanePairEffect (cvtInfo 1 f d a src t) (.vCvt f d a src t) srcs d (fun h r => asDWord (value h r)))

/-- R121: `cmp` in every condition, type and push mode. -/
def Obligations.IntegerCompares : Prop :=
  ∀ c ∈ intRelations, ∀ t ∈ intTypes, ∀ m a b, m < 4 →
    UniformCompare (cmpInfo 0 c.1 t.1 m a b) (.sCmp c.1 t.1 m a b) (if t.1 ≥ 2 then [a, a + 1, b, b + 1] else [a, b]) m
      (fun w l => (c.2 (t.2 w l a) (t.2 w l b), 0#5)) ∧
    LaneCompare (cmpInfo 1 c.1 t.1 m a b) (.vCmp c.1 t.1 m a b) (if t.1 ≥ 2 then [a, a + 1, b, b + 1] else [a, b]) m
      (fun w l => (c.2 (t.2 w l a) (t.2 w l b), 0#5))

/-- R121, R122: `fcmp` in every condition, type and push mode, NaNs included. -/
def Obligations.FloatCompares : Prop :=
  ∀ t ∈ fpTypes, ∀ m a b, m < 4 →
    let nan (w : Warp) (l : Nat) : Bool := (t.2 (w.reg l a)).isNan || (t.2 (w.reg l b)).isNan
    let signalling (w : Warp) (l : Nat) : Bool := (t.2 (w.reg l a)).isSignalling || (t.2 (w.reg l b)).isSignalling
    let both (k : Nat) (f : Warp → Nat → Bool × Flags) : Prop :=
      UniformCompare (fcmpInfo 0 k t.1 m a b) (.sFcmp k t.1 m a b) [a, b] m f ∧
      LaneCompare (fcmpInfo 1 k t.1 m a b) (.vFcmp k t.1 m a b) [a, b] m f
    (∀ c ∈ fpRelations,
      both c.1 (fun w l => (!nan w l && c.2 (t.2 (w.reg l a)) (t.2 (w.reg l b)),
        if (if c.1 ≥ 2 then nan w l else signalling w l) then flagNV else 0#5)) ∧
      both (c.1 + 8) (fun w l => (nan w l || c.2 (t.2 (w.reg l a)) (t.2 (w.reg l b)), if signalling w l then flagNV else 0#5))) ∧
    both 6 (fun w l => (!nan w l, if signalling w l then flagNV else 0#5)) ∧
    both 7 (fun w l => (nan w l, if signalling w l then flagNV else 0#5))

/-- R123: `sel` and `pget`; the `s.` twins read the predicates of `lead`. -/
def Obligations.Selects : Prop :=
  ∀ k d a b, k < 8 →
    (∀ s x, Begins s (Info.plain 0) x → Ready x.w (oneLane x.lead) [a, b] [] → Ready x.w x.w.live [] [d] →
      PredsReady x.w (oneLane x.lead) [k] → ∃ w', x.Completes (.sSel k d a b) x.s w' ∧
        Writes x.wd w' (oneReg x.w.live d (fun _ =>
          if ((x.w.lane x.lead).pred k).val then x.w.reg x.lead a else x.w.reg x.lead b)) noFlags) ∧
    (∀ s x, Begins s (Info.plain 1) x → Ready x.w x.act [a, b] [d] → PredsReady x.w x.act [k] →
      ∃ w', x.Completes (.vSel k d a b) x.s w' ∧
        Writes x.wd w' (oneReg x.act d (fun l => if ((x.w.lane l).pred k).val then x.w.reg l a else x.w.reg l b)) noFlags) ∧
    (∀ s x, Begins s (Info.plain 0) x → Ready x.w x.w.live [] [d] → PredsReady x.w (oneLane x.lead) (List.range 8) →
      ∃ w', x.Completes (.sPget d) x.s w' ∧
        Writes x.wd w' (oneReg x.w.live d (fun _ => maskOf (fun k => decide (k < 8) && ((x.w.lane x.lead).pred k).val))) noFlags) ∧
    ∀ s x, Begins s (Info.plain 1) x → Ready x.w x.act [] [d] → PredsReady x.w x.act (List.range 8) →
      ∃ w', x.Completes (.vPget d) x.s w' ∧
        Writes x.wd w' (oneReg x.act d (fun l => maskOf (fun k => decide (k < 8) && ((x.w.lane l).pred k).val))) noFlags

/-- R124, R125: the nine functions of major 0x0D, which class 01 alone has; its other codes are no instruction, and a bit outside the fields
that a function uses is refused with RESERVED_FIELD (R44, R66). That the mask reported holds exactly the bits that are set is the model's
reading (log 21). -/
def Obligations.PredicateStack : Prop :=
  (∀ w, fld w 25 7 = 0x0D ∨ (fld w 25 7 = 0x2D ∧ 9 ≤ fld w 21 4) → decodeWord w = .error .illegalOpcode) ∧
  (∀ w, fld w 25 7 = 0x2D → fld w 21 4 ≤ 8 →
    let m := if fld w 21 4 ≤ 6 then held w 0 18 else held w 7 14
    m ≠ 0 → decodeWord w = .error (.reservedField m)) ∧
  ∀ n b, n < 8 →
    StackEffect (.vPpop n) [] [] (fun _ p k => if k + (n + 1) < 8 then p (k + (n + 1)) else Pred.of false) ∧
    StackEffect (.vPdup n) [] [n] (fun _ p => pushed (p n).val p) ∧
    StackEffect (.vPand n) [] [0, n] (fun _ p => replaced 0 ((p 0).val && (p n).val) p) ∧
    StackEffect (.vPor n) [] [0, n] (fun _ p => replaced 0 ((p 0).val || (p n).val) p) ∧
    StackEffect (.vPxor n) [] [0, n] (fun _ p => replaced 0 ((p 0).val ^^ (p n).val) p) ∧
    StackEffect (.vPnot n) [] [n] (fun _ p => replaced n (!(p n).val) p) ∧
    StackEffect (.vPswap n) [] [0, n] (fun _ p => replaced 0 (p n).val (replaced n (p 0).val p)) ∧
    StackEffect (.vPpush b) [b] [] (fun r p => pushed (r b != 0#32) p) ∧
    StackEffect (.vPset b) [b] (List.range 8) (fun r _ k => Pred.of ((r b).getLsbD k))

/-- R126: the shuffles, broadcast, ballot and match. -/
def Obligations.CrossLaneMoves : Prop :=
  ∀ d a b,
    CrossEffect (Info.plain 1) (.vShflIdx d a b) [a, b] d (fun w act l => (taken w act a l ((w.reg l b).toNat % 32), 0#5)) ∧
    CrossEffect (Info.plain 1) (.vShflUp d a b) [a, b] d (fun w act l =>
      (if (w.reg l b).toNat ≥ 32 ∨ l < (w.reg l b).toNat then w.reg l a else taken w act a l (l - (w.reg l b).toNat), 0#5)) ∧
    CrossEffect (Info.plain 1) (.vShflDown d a b) [a, b] d (fun w act l =>
      (if (w.reg l b).toNat ≥ 32 ∨ l + (w.reg l b).toNat > 31 then w.reg l a else taken w act a l (l + (w.reg l b).toNat), 0#5)) ∧
    CrossEffect (Info.plain 1) (.vShflXor d a b) [a, b] d (fun w act l => (taken w act a l (l ^^^ ((w.reg l b).toNat % 32)), 0#5)) ∧
    CrossEffect (Info.plain 1) (.vBcast d a b) [a, b] d (fun w act _ =>
      let f := (act.head?).getD 0
      (taken w act a f ((w.reg f b).toNat % 32), 0#5)) ∧
    CrossEffect (Info.plain 1) (.vVoteBallot d a) [a] d (fun w act _ => (lanesThat act (fun k => w.reg k a != 0#32), 0#5)) ∧
    CrossEffect (Info.plain 1) (.vMatch d a) [a] d (fun w act l => (lanesThat act (fun k => w.reg k a == w.reg l a), 0#5))

/-- R127: `redux` and `scan`. Integer sums are mod 2^32 and the extremes compare as s32 or z32. In f32 a sum is the balanced tree over
the 32 lane slots, an inactive slot −0, a scan the running sum of the active lanes up to its own or below it, an extreme the least or
greatest number of the active lanes and the canonical NaN where there is none. That an extreme raises NV for a signalling NaN in any active
lane is the model's reading (log 63). -/
def Obligations.ReductionsAndScans : Prop :=
  ∀ d a,
    (∀ t, t < 2 →
      let least (v : Word → Int) (f : List Int → Option Int) (w : Warp) (act : List Nat) : Word × Flags :=
        (BitVec.ofInt 32 ((f (act.map (fun k => v (w.reg k a)))).getD 0), 0#5)
      let value : Word → Int := if t = 0 then BitVec.toInt else fun v => v.toNat
      let sum (w : Warp) (lanes : List Nat) : Word × Flags := (BitVec.ofNat 32 ((lanes.map (fun k => (w.reg k a).toNat)).sum), 0#5)
      CrossEffect (typedInfo t) (.vReduxAdd d a t) [a] d (fun w act _ => sum w act) ∧
      CrossEffect (typedInfo t) (.vReduxMin d a t) [a] d (fun w act _ => least value List.min? w act) ∧
      CrossEffect (typedInfo t) (.vReduxMax d a t) [a] d (fun w act _ => least value List.max? w act) ∧
      CrossEffect (typedInfo t) (.vScanIncl d a t) [a] d (fun w act l => sum w (act.filter (fun k => decide (k ≤ l)))) ∧
      CrossEffect (typedInfo t) (.vScanExcl d a t) [a] d (fun w act l => sum w (act.filter (fun k => decide (k < l))))) ∧
    let v (w : Warp) (k : Nat) : Nat := (w.reg k a).toNat
    let scanned (w : Warp) (lanes : List Nat) : Word × Flags := asWord (runningSum (lanes.reverse.map (v w)))
    CrossEffect (typedInfo 2) (.vReduxAdd d a 2) [a] d (fun w act _ =>
      asWord (sumNode (fun k => if k ∈ act then v w k else 0x80000000) 5 0)) ∧
    CrossEffect (typedInfo 2) (.vScanIncl d a 2) [a] d (fun w act l => scanned w (act.filter (fun k => decide (k ≤ l)))) ∧
    CrossEffect (typedInfo 2) (.vScanExcl d a 2) [a] d (fun w act l => scanned w (act.filter (fun k => decide (k < l)))) ∧
    ∀ q ∈ ([(Instr.vReduxMin, false), (Instr.vReduxMax, true)] : List ((Nat → Nat → Nat → Instr) × Bool)),
      ∃ c : Warp → List Nat → Nat,
        CrossEffect (typedInfo 2) (q.1 d a 2) [a] d (fun w act _ => asWord (c w act,
          if act.any (fun k => (Fmt.f32.decode (v w k)).isSignalling) then flagNV else 0#5)) ∧
        ∀ w act, (act.all (fun k => (Fmt.f32.decode (v w k)).isNan) = false → IsExtreme q.2 (act.map (v w)) (c w act)) ∧
          (act ≠ [] → act.all (fun k => (Fmt.f32.decode (v w k)).isNan) = true → c w act = 0x7FC00000)

/-- R128: `isect` writes, at each position, the lowest position of list B that holds the element of list A, and the two
advances in every active lane. -/
def Obligations.Intersection : Prop :=
  ∀ d a b, d % 2 = 0 → ∀ s x, Begins s (Info.plain 1) x → Ready x.w x.act [a, b] [d, d + 1] →
    let la := (lanesOf x.act).map (fun k => x.w.reg k a)
    let lb := (lanesOf x.act).map (fun k => x.w.reg k b)
    let found (l : Nat) : Word := match lb.idxOf? (x.w.reg l a) with
      | none => 0#32
      | some j => 0x80000000#32 ||| BitVec.ofNat 32 j
    let advA := (la.filter (fun v => decide (v ≤ lb.getLast?.getD 0#32))).length
    let advB := (lb.filter (fun v => decide (v ≤ la.getLast?.getD 0#32))).length
    ∃ w', x.Completes (.vIsect d a b) x.s w' ∧
      Writes x.wd w' (onePair x.act d (fun l => BitVec.ofNat 32 (advB * 2 ^ 16 + advA) ++ found l)) noFlags

/-- R129, R130: relative register access. The register an index names is below the allocation and not pending. `s.movxw`
writes it in every lane that has not exited; `v.movxw` writes, in each active lane, the register that its own index names. -/
def Obligations.RelativeRegisters : Prop :=
  ∀ d i k,
    (∀ s x, Begins s (Info.plain 0) x → Ready x.w (oneLane x.lead) [i, (x.w.reg x.lead i).toNat + k] [] → Ready x.w x.w.live [] [d] →
      ∃ w', x.Completes (.sMovx d i k) x.s w' ∧
        Writes x.wd w' (oneReg x.w.live d (fun _ => x.w.reg x.lead ((x.w.reg x.lead i).toNat + k))) noFlags) ∧
    (∀ s x, Begins s (Info.plain 1) x → Ready x.w x.act [i] [d] →
      (∀ l, inMask x.act l = true → Ready x.w (oneLane l) [(x.w.reg l i).toNat + k] []) →
      ∃ w', x.Completes (.vMovx d i k) x.s w' ∧
        Writes x.wd w' (oneReg x.act d (fun l => x.w.reg l ((x.w.reg l i).toNat + k))) noFlags) ∧
    (∀ s x, Begins s (Info.plain 0) x → Ready x.w (oneLane x.lead) [i, d] [] → Ready x.w x.w.live [] [(x.w.reg x.lead i).toNat + k] →
      ∃ w', x.Completes (.sMovxw d i k) x.s w' ∧
        Writes x.wd w' (oneReg x.w.live ((x.w.reg x.lead i).toNat + k) (fun _ => x.w.reg x.lead d)) noFlags) ∧
    ∀ s x, Begins s (Info.plain 1) x → Ready x.w x.act [i, d] [] →
      (∀ l, inMask x.act l = true → Ready x.w (oneLane l) [] [(x.w.reg l i).toNat + k]) →
      ∃ w', x.Completes (.vMovxw d i k) x.s w' ∧
        Writes x.wd w' (fun l n => if inMask x.act l ∧ n = (x.w.reg l i).toNat + k then some (x.w.reg l d) else none) noFlags

/-- R181 to R184: `m.ld`, its `.pr` and `.acq` forms and `m.ldu` issue one operation on LD. Each destination register is
pending until a wait (R33); `.pr` pushes a pending entry. -/
def Obligations.LoadsIssue : Prop :=
  (∀ p ∈ ([(Instr.mLd, false, false), (Instr.mLdPr, true, false), (Instr.mLdAcq, false, true)] :
      List ((Nat → Nat → Nat → Nat → Instr) × Bool × Bool)),
    ∀ z d a o s x places,
      let n := sizeBytes z
      let addr := x.addr a (byteOffset x.hints o n)
      Begins s (memInfo true p.2.2 (memReserved false z d a)) x → Ready x.w x.act [a, a + 1] (sizeRegs d n) →
      judgeLanes x.s x.c x.w.block .load 0 n addr x.act = .ok places → x.w.outstanding 0 < 63 →
      x.IssuesOp (p.1 z d a o) (if p.2.1 then pushPending x.wd x.act (x.w.issuedOn 0) else x.wd) 0
        (.load d n (decide (z ≥ 5)) false p.2.1 (if p.2.2 then some x.scope else none))
        (partsFor places addr n (fun _ => 0) (fun _ => 0)) x.scope (sizeRegs d n) x.act) ∧
  ∀ z d a o s x places,
    let n := sizeBytes z
    let addr := x.addr a (byteOffset x.hints o n)
    Begins s (memInfo true false (memReserved false z d a)) x → Ready x.w (oneLane x.lead) [a, a + 1] [] →
    Ready x.w x.w.live [] (sizeRegs d n) →
    judgeLanes x.s x.c x.w.block .load 0 n addr (if x.act = 0#32 then 0#32 else oneLane x.lead) = .ok places →
    x.w.outstanding 0 < 63 →
    x.IssuesOp (.mLdu z d a o) x.wd 0 (.load d n (decide (z ≥ 5)) true false none) (partsFor places addr n (fun _ => 0) (fun _ => 0))
      x.scope (sizeRegs d n) x.w.live

/-- R183, R185: `m.st` and `m.st.rel` issue one operation on ST with each active lane's data; they mark no register. -/
def Obligations.StoresIssue : Prop :=
  ∀ p ∈ ([(Instr.mSt, false), (Instr.mStRel, true)] : List ((Nat → Nat → Nat → Nat → Instr) × Bool)),
    ∀ z d a o s x places,
      let n := sizeBytes z
      let k := (n + 3) / 4
      let addr := x.addr a (byteOffset x.hints o n)
      Begins s (memInfo true p.2 (memReserved true z d a)) x → Ready x.w x.act ([a, a + 1] ++ regsFrom d k) [] →
      judgeLanes x.s x.c x.w.block .store 0 n addr x.act = .ok places → x.w.outstanding 1 < 63 →
      x.IssuesOp (p.1 z d a o) x.wd 1 (.store (if p.2 then some x.scope else none))
        (partsFor places addr n (fun l => x.w.words l d k % 256 ^ n) (fun _ => 0)) x.scope [] 0#32

/-- R186 to R189, R191: the 23 returning atomics and the two `m.cas` issue on LD, the 14 reductions on ST, each with the
operand of every active lane; at 64 bits add and exchange alone may go to a remote page (R178). What each of the 23 functions stores, from
the old value and the operand (R187, R188). -/
def Obligations.AtomicsIssue : Prop :=
  let integers (n : Nat) : List (BitVec n → BitVec n → BitVec n) :=
    [(fun x y => x + y), (fun x y => x &&& y), (fun x y => x ||| y), (fun x y => x ^^^ y), (fun x y => if x.toInt ≤ y.toInt then x else y),
      (fun x y => if x.toInt ≥ y.toInt then x else y), (fun x y => if x.toNat ≤ y.toNat then x else y),
      (fun x y => if x.toNat ≥ y.toNat then x else y), (fun _ y => y)]
  (∀ q ∈ [AtomFn.add32, .and32, .or32, .xor32, .minS32, .maxS32, .minZ32, .maxZ32, .exch32].zip (integers 32),
    q.1.bytes = 4 ∧ ∀ x y : BitVec 32, q.1.apply x.toNat y.toNat = (q.2 x y).toNat) ∧
  (∀ q ∈ [AtomFn.add64, .and64, .or64, .xor64, .minS64, .maxS64, .minZ64, .maxZ64, .exch64].zip (integers 64),
    q.1.bytes = 8 ∧ ∀ x y : BitVec 64, q.1.apply x.toNat y.toNat = (q.2 x y).toNat) ∧
  (∀ old b, AtomFn.addF32.apply old b = (fpAdd .f32 .rne old b).1) ∧
  (∀ q ∈ [(AtomFn.addF16x2, Fmt.f16), (.addBf16x2, .bf16)], q.1.bytes = 4 ∧ ∀ lo hi x y, lo < 2 ^ 16 → hi < 2 ^ 16 → x < 2 ^ 16 → y < 2 ^ 16 →
    q.1.apply (lo + 2 ^ 16 * hi) (x + 2 ^ 16 * y) = (fpAdd q.2 .rne lo x).1 + 2 ^ 16 * (fpAdd q.2 .rne hi y).1) ∧
  (∀ q ∈ [(AtomFn.minF32, false), (.maxF32, true)], q.1.bytes = 4 ∧ ∀ old b, old < 2 ^ 32 → b < 2 ^ 32 →
    let x := Fmt.f32.decode old
    let y := Fmt.f32.decode b
    (x.isNan = true → q.1.apply old b = if y.isNan then 0x7FC00000 else b) ∧ (x.isNan = false → y.isNan = true → q.1.apply old b = old) ∧
    (x.isNan = false → y.isNan = false → IsExtreme q.2 [old, b] (q.1.apply old b))) ∧
  (∀ p ∈ ([(Instr.mAtomAddS32, .add32), (Instr.mAtomAndB32, .and32), (Instr.mAtomOrB32, .or32), (Instr.mAtomXorB32, .xor32),
      (Instr.mAtomMinS32, .minS32), (Instr.mAtomMaxS32, .maxS32), (Instr.mAtomMinZ32, .minZ32), (Instr.mAtomMaxZ32, .maxZ32),
      (Instr.mAtomExchB32, .exch32), (Instr.mAtomAddS64, .add64), (Instr.mAtomAndB64, .and64), (Instr.mAtomOrB64, .or64),
      (Instr.mAtomXorB64, .xor64), (Instr.mAtomMinS64, .minS64), (Instr.mAtomMaxS64, .maxS64), (Instr.mAtomMinZ64, .minZ64),
      (Instr.mAtomMaxZ64, .maxZ64), (Instr.mAtomExchB64, .exch64), (Instr.mAtomAddF32, .addF32), (Instr.mAtomMinF32, .minF32),
      (Instr.mAtomMaxF32, .maxF32), (Instr.mAtomAddF16x2, .addF16x2), (Instr.mAtomAddBf16x2, .addBf16x2)] :
      List ((Nat → Nat → Nat → Instr) × AtomFn)),
    ∀ d a b s x places,
      let n := p.2.bytes
      Begins s (memInfo false true (maReserved n d a b true)) x →
      Ready x.w x.act ([a, a + 1] ++ regsFrom b (n / 4)) (regsFrom d (n / 4)) →
      judgeLanes x.s x.c x.w.block (.atomic (p.2 == .add64 || p.2 == .exch64)) x.opField n (x.addr a 0) x.act = .ok places →
      x.w.outstanding 0 < 63 →
      x.IssuesOp (p.1 d a b) x.wd 0 (.atomic p.2 d) (partsFor places (x.addr a 0) n (fun l => x.w.words l b (n / 4)) (fun _ => 0))
        x.scope (regsFrom d (n / 4)) x.act) ∧
  (∀ p ∈ ([(Instr.mCasB32, 4), (Instr.mCasB64, 8)] : List ((Nat → Nat → Nat → Instr) × Nat)),
    ∀ d a b s x places,
      Begins s (memInfo false true (maReserved p.2 d a b true)) x →
      Ready x.w x.act ([a, a + 1] ++ regsFrom d (p.2 / 4) ++ regsFrom b (p.2 / 4)) [] →
      judgeLanes x.s x.c x.w.block (.atomic (p.2 == 8)) x.opField p.2 (x.addr a 0) x.act = .ok places →
      x.w.outstanding 0 < 63 →
      x.IssuesOp (p.1 d a b) x.wd 0 (.cas d p.2)
        (partsFor places (x.addr a 0) p.2 (fun l => x.w.words l b (p.2 / 4)) (fun l => x.w.words l d (p.2 / 4)))
        x.scope (regsFrom d (p.2 / 4)) x.act) ∧
  ∀ p ∈ ([(Instr.mRedAddS32, .add32), (Instr.mRedAddS64, .add64), (Instr.mRedAddF32, .addF32), (Instr.mRedMinS32, .minS32),
      (Instr.mRedMaxS32, .maxS32), (Instr.mRedMinZ32, .minZ32), (Instr.mRedMaxZ32, .maxZ32), (Instr.mRedAndB32, .and32),
      (Instr.mRedOrB32, .or32), (Instr.mRedXorB32, .xor32), (Instr.mRedMinF32, .minF32), (Instr.mRedMaxF32, .maxF32),
      (Instr.mRedAddF16x2, .addF16x2), (Instr.mRedAddBf16x2, .addBf16x2)] : List ((Nat → Nat → Instr) × AtomFn)),
    ∀ a b s x places,
      let n := p.2.bytes
      Begins s (memInfo false true (maReserved n 0 a b false)) x → Ready x.w x.act ([a, a + 1] ++ regsFrom b (n / 4)) [] →
      judgeLanes x.s x.c x.w.block (.reduce (p.2 == .add64)) x.opField n (x.addr a 0) x.act = .ok places → x.w.outstanding 1 < 63 →
      x.IssuesOp (p.1 a b) x.wd 1 (.reduce p.2) (partsFor places (x.addr a 0) n (fun l => x.w.words l b (n / 4)) (fun _ => 0))
        x.scope [] 0#32

/-- R199 to R205: the texture instructions issue one operation on LD: nothing that the warp's acquires and fences or the lane's own
accesses order before it stands out, each active lane's descriptor, where it can be read, passes its checks, and so do the ranges that
its plan reads. Then what they compute (R202, R203): which texels a plan names, from u, v and the lod, in f32 steps; their weighted sums;
the latents decoded. A coordinate whose scaled value is not finite and a NaN lod are left out: the spec states no result (log 28, which
also settles the bias of a broken quad and the level after the last). The entries of the sRGB table are log 29, block formats log 7. -/
def Obligations.TexturesIssue : Prop :=
  let scaled (u n : Nat) : Nat := rneOf (fpMul .f32) (finiteOr u) (f32OfNat n)
  let centred (u n : Nat) : Nat := rneOf (fpSub .f32) (scaled u n) 0x3F000000
  let finite (c : Nat) : Prop := (Fmt.f32.decode c).isFinite = true
  (∀ n, n ≤ 2 ^ 16 → f32Rat (f32OfNat n) = n ∧ f32Rat (weight n (2 ^ 16)) = n / 2 ^ 16 ∧ (n ≤ 256 → f32Rat (weight n 256) = n / 256)) ∧
  (∀ (e : TexDesc) level u v free,
    let w := levelWidth e level
    let h := levelHeight e level
    w = max 1 (e.width / 2 ^ level) ∧ h = max 1 (e.height / 2 ^ level) ∧
    (finite (centred u w) → finite (centred v h) →
      let i := footprint (f32Rat (centred u w))
      let j := footprint (f32Rat (centred v h))
      let q := quadOf e level u v free
      q.level = level ∧ (q.x0 : ℤ) = addressed e.modeU w i.1 ∧ (q.x1 : ℤ) = addressed e.modeU w (i.1 + 1) ∧
      (q.y0 : ℤ) = addressed e.modeV h j.1 ∧ (q.y1 : ℤ) = addressed e.modeV h (j.1 + 1) ∧ (q.fx : ℤ) = i.2 ∧ (q.fy : ℤ) = j.2) ∧
    (finite (scaled u w) → finite (scaled v h) →
      let t := pointOf e level u v free
      t.1 = level ∧ (t.2.1 : ℤ) = addressed e.modeU w ⌊f32Rat (scaled u w)⌋ ∧ (t.2.2 : ℤ) = addressed e.modeV h ⌊f32Rat (scaled v h)⌋)) ∧
  (∀ (e : TexDesc) args free,
    let arg (k : Nat) : Nat := args.getD k 0
    (arg 2 < e.levels → ∃ x y : Nat, planOf e 3 args free = .point (arg 2, x, y) ∧
      (x : ℤ) = addressed e.modeU (levelWidth e (arg 2)) (arg 0) ∧ (y : ℤ) = addressed e.modeV (levelHeight e (arg 2)) (arg 1)) ∧
    planOf e 4 args free = .gather (quadOf e 0 (arg 0) (arg 1) free) (arg 3 % 4) ∧
    ∀ fn, fn < 3 → 1 ≤ e.levels → e.levels ≤ 16 →
      let lod := if fn = 1 then arg 2 else if arg 8 = 0 then rneOf (fpAdd .f32) e.bias (arg 2)
        else lodOf (f32OfNat e.width) (f32OfNat e.height) e.bias (arg 2) (arg 4) (arg 5) (arg 6) (arg 7)
      (Fmt.f32.decode lod).isNan = false →
      let clamped := f32Rat (fpMax .f32 0 (fpMin .f32 lod (fpMin .f32 (f32OfNat (e.levels - 1)) e.maxlod).1).1).1
      let near := (roundedInt .rne clamped).toNat
      let l := ⌊clamped⌋.toNat
      let at_ (k free : Nat) : Quad := quadOf e k (arg 0) (arg 1) free
      (e.filter = 0 → planOf e fn args free = .point (pointOf e near (arg 0) (arg 1) free)) ∧
      (e.filter = 1 → planOf e fn args free = .bilinear (at_ near free)) ∧
      (e.filter = 2 → planOf e fn args free = .trilinear (at_ l free) (at_ (min (l + 1) (e.levels - 1)) (free + 4))
        (roundedInt .rne ((clamped - l) * 256)).toNat)) ∧
  (∀ (e : TexDesc) net (q r : Quad) g ch (a b : List (List Nat)), a.length = 4 →
    let out (x : List Nat) : List Nat := if e.fmt = 0x30 then decodeLatents net x else x
    let blended (q : Quad) (t : List (List Nat)) : List Nat :=
      let c (i k : Nat) : Nat := (t.getD i []).getD k 0
      let w (m n : Nat) : Nat := weight (m * n) (2 ^ 16)
      (List.range (t.getD 0 []).length).map (fun k => fusedStep (fusedStep (fusedStep (rneOf (fpMul .f32) (w (256 - q.fx) (256 - q.fy)) (c 0 k))
        (w q.fx (256 - q.fy)) (c 1 k)) (w (256 - q.fx) q.fy) (c 2 k)) (w q.fx q.fy) (c 3 k))
    (∀ t x, texResult e net (.point t) (x :: b) = out x) ∧ texResult e net (.bilinear q) a = out (blended q a) ∧
    texResult e net (.trilinear q r g) (a ++ b) = out ((List.range (a.getD 0 []).length).map (fun k =>
      fusedStep (rneOf (fpMul .f32) (weight (256 - g) 256) ((blended q a).getD k 0)) (weight g 256) ((blended r b).getD k 0))) ∧
    texResult e net (.gather q ch) a = a.map (fun x => (out x).getD ch 0)) ∧
  (∀ net x, x.length = 8 →
    let param (at_ : Nat) : Nat := toF32 .f16 (fieldAt net at_ 2)
    let hidden (j : Nat) : Nat :=
      let s := layerOf param (256 + 2 * j) (16 * j) 8 (x.getD · 0)
      if (Fmt.f32.decode s).isNan then 0x7FC00000 else if Fmt.f32.decode s = .inf false ∨ 0 < f32Rat s then s else 0
    decodeLatents net x = (List.range 4).map (fun k =>
      let s := layerOf param (416 + 2 * k) (288 + 32 * k) 16 hidden
      if (Fmt.f32.decode s).isNan then 0x7FC00000 else s)) ∧
  (∀ f ∈ [Fmt.f16, Fmt.e4m3], ∀ c, (f.decode c).isNan = true → toF32 f c = 0x7FC00000) ∧
  (∀ f ∈ [Fmt.f16, Fmt.e4m3], ∀ c, (f.decode c).isFinite = true →
    f32Rat (toF32 f c) = (f.decode c).rat ∧ (Fmt.f32.decode (toF32 f c)).isNeg = (f.decode c).isNeg) ∧
  (∀ (e : TexDesc) px x y,
    (e.fmt = 1 → ∀ k, k < 4 → px.getD k 0 < 256 →
      (e.srgb = true → k ≠ 3 → (texelChannels e px x y).getD k 0 = srgbEntry (px.getD k 0)) ∧
      (e.srgb = false ∨ k = 3 → ∃ f, Exactly .f32 .rne false (px.getD k 0 / 255) false ((texelChannels e px x y).getD k 0, f))) ∧
    (e.fmt = 2 → texelChannels e px x y = (List.range 4).map (fun k => toF32 .f16 (fieldAt px (2 * k) 2))) ∧
    (e.fmt = 3 → (Fmt.f32.decode (fieldAt px 0 4)).isNan = false → texelChannels e px x y = [fieldAt px 0 4, 0, 0, 0x3F800000]) ∧
    (e.fmt = 0x30 → texelChannels e px x y = (List.range 8).map (fun k => toF32 .e4m3 (px.getD k 0)))) ∧
  ∀ p ∈ ([
      (fun d a b => Instr.mTexSample d a b, fun d a b => texReserved d a b false, false, 0, fun b => regsFrom b 4, fun d => regsFrom d 4,
        sampleArgs),
      (fun d a b => Instr.mTexSampleLod d a b, fun d a b => texReserved d a b false, false, 1, fun b => regsFrom b 4,
        fun d => regsFrom d 4, fun b x l => (regsFrom b 4).map (x.w.val l)),
      (fun d a b => Instr.mTexSampleGrad d a b, fun d a b => texReserved d a b true, false, 2, fun b => regsFrom b 8,
        fun d => regsFrom d 4, fun b x l => (regsFrom b 8).map (x.w.val l) ++ [1]),
      (fun d a b => Instr.mTexFetch d a b, fun d a b => texReserved d a b false, false, 3, fun b => regsFrom b 4, fun d => regsFrom d 4,
        fun b x l => (regsFrom b 4).map (x.w.val l)),
      (fun d a b => Instr.mTexGath4 d a b, fun d a b => texReserved d a b false, false, 4, fun b => regsFrom b 4, fun d => regsFrom d 4,
        fun b x l => (regsFrom b 4).map (x.w.val l)),
      (fun d a b => Instr.mTexqSize d a b, fun d a _ => misaligned d 14 1 + misaligned a 7 1, true, 0, fun b => [b], fun d => [d, d + 1],
        fun b x l => [x.w.val l b]),
      (fun d a _ => Instr.mTexqLevels d a, fun _ a _ => misaligned a 7 1, true, 1, fun _ => [], fun d => [d], fun _ _ _ => []),
      (fun d a _ => Instr.mTexqFormat d a, fun _ a _ => misaligned a 7 1, true, 2, fun _ => [], fun d => [d], fun _ _ _ => [])] :
      List ((Nat → Nat → Nat → Instr) × (Nat → Nat → Nat → Nat) × Bool × Nat × (Nat → List Nat) × (Nat → List Nat) ×
        (Nat → Cx → Nat → List Nat))),
    ∀ d a b s x places,
      let args := p.2.2.2.2.2.2 b x
      let dsts := p.2.2.2.2.2.1 d
      let addr := x.addr a 0
      Begins s (memInfo false false (p.2.1 d a b)) x → Ready x.w x.act ([a, a + 1] ++ p.2.2.2.2.1 b) dsts →
      judgeLanes x.s x.c x.w.block .texel x.opField 64 addr x.act = .ok places →
      (∀ l, inMask x.act l = true → holdRead x.s x.w l (addr l) 64 false = .ok ()) →
      (∀ l, inMask x.act l = true → ∀ t, descNow x.s x.w (addr l) = some t → descOk t = true ∧ (p.2.2.1 = false →
        rangeErrs x.s x.c x.w l (planRanges (TexDesc.read t) (planOf (TexDesc.read t) p.2.2.2.1 (args l) x.s.free)) = [])) →
      x.w.outstanding 0 < 63 →
      x.IssuesOp (p.1 d a b) x.wd 0 (if p.2.2.1 then .texq p.2.2.2.1 d else .tex p.2.2.2.1 d)
        (places.map (fun q => { mkPart q.1 (addr q.1) 64 q.2 0 0 with
          args := args q.1
          also := namedBytes x p.2.2.1 p.2.2.2.1 (addr q.1) (args q.1) })) x.scope dsts x.act

/-- R194, R353: a fence with no active lane does nothing. Else it is recorded over the warp's outstanding operations and its
unanswered remote writes (that a remote store counts until it is answered is the model's reading, log 60); a release or full fence first
pushes its core's update-only copies home. At fabric scope the oldest logged failure of a remote store is raised instead, once: it leaves
the warp's list, and the run is noted as past the fence, so that the fence tried again goes on. -/
def Obligations.Fences : Prop :=
  ∀ p ∈ ([(Instr.mFenceAcq, 0), (Instr.mFenceRel, 1), (Instr.mFenceFull, 2)] : List ((Nat → Instr) × Nat)),
    ∀ sc s x, sc < 6 → Begins s (memInfo false false 0) x →
      (x.act = 0#32 → x.Completes (p.1 sc) x.s x.wd) ∧
      (x.act ≠ 0#32 →
        let past := ∃ l, inMask x.run l = true ∧ (x.w.lane l).pastFence = true
        (sc ≠ 5 ∨ past ∨ x.w.lateFaults = [] →
          (∃ s' w', exec (p.1 sc) x.s = .next (x.done s' w') ∧
            s' = (if p.2 = 0 then x.s else match x.w.core? with | some core => pushLines x.s core | none => x.s) ∧
            KeepsLanes x.wd w' ∧ w'.lateFaults = x.wd.lateFaults ∧
            (∀ l, l < 32 → (w'.lane l).pastFence = (!inMask x.run l && (x.wd.lane l).pastFence)) ∧
            w'.fences = x.wd.fences.filter (fun f => x.w.ops.any (fun o => decide (o.id < f.before)) || remoteWrites x.s x.w f.before) ++
              (if x.w.ops = [] ∧ remoteWrites x.s x.w x.w.bound = false then [] else [{ before := x.w.bound, kind := p.2, scope := sc }])) ∧
          ((∀ u ∈ x.s.lines, some u.core ≠ x.w.core?) → ∃ w', x.Completes (p.1 sc) x.s w' ∧ KeepsLanes x.wd w')) ∧
        (sc = 5 → ¬ past → ∀ f rest, x.w.lateFaults = f :: rest →
          exec (p.1 sc) x.s = .next (trapNow (x.s.updWarp x.w.id (fun w =>
            { w.mapLanes x.run (fun _ y => { y with pastFence := true }) with lateFaults := rest })) x.sel x.run f.cause f.addr f.detail)))

/-- R178, R183, R194 to R197: `m.mwait` by the lowest active lane's address and value, once the warp's acquires and fences and the lane's
own accesses let it read: where the condition holds it completes; else the run waits at the instruction, its wait naming the word and
the value. A word on a page that is not present reads zero (R171). `t` is the state after the read, which may have merged or pulled the
word's line; where it is the state before, and the launch is not traced, nothing but the warp changes. -/
def Obligations.MonitorWait : Prop :=
  ∀ o a b s x places,
    let n := if o ≥ 8 then 8 else 4
    let l := leadOf x.act
    let addr := x.addr a 0
    let value := x.w.words l b (n / 4)
    Begins s { memInfo false false (maReserved n 0 a b false) with illegal := o % 8 == 7 } x →
    (x.act = 0#32 → x.Completes (.mMwait o a b) x.s x.wd) ∧
    (x.act ≠ 0#32 → Ready x.w (oneLane l) ([a, a + 1] ++ regsFrom b (n / 4)) [] →
      judgeLanes x.s x.c x.w.block .monitor x.opField n addr (oneLane l) = .ok places → holdRead x.s x.w l (addr l) n false = .ok () →
      ∀ word t, monitorWord x.s x.c x.w (addr l) n = .ok (word, t) →
        let u := traceRead t x.w.ctx x.l.id (x.w.origin l) (addr l) n
        (monitorHolds o n word value = true → exec (.mMwait o a b) x.s = .next (x.done u (syncWaits u x.wd))) ∧
        (monitorHolds o n word value = false →
          exec (.mMwait o a b) x.s = .next (x.wait u (syncWaits u x.wd) (.monitor o (addr l) n value false))) ∧
        (t = x.s → x.l.rec_.trace = 0 →
          (monitorHolds o n word value = true → ∃ w', x.Completes (.mMwait o a b) x.s w' ∧ KeepsLanes x.wd w') ∧
          (monitorHolds o n word value = false →
            ∃ w', exec (.mMwait o a b) x.s = .next (x.wait x.s w' (.monitor o (addr l) n value false)) ∧ KeepsLanes x.wd w'))) ∧
    (∀ va lf, resolve x.s x.c x.w.block .read 0 va n = .ok ⟨.absent, some lf⟩ → monitorWord x.s x.c x.w va n = .ok (0, x.s)) ∧
    ∀ va pa lf, Plain x.s x.c x.w.block .read 0 va n pa lf → x.s.lines = [] →
      monitorWord x.s x.c x.w va n = .ok (Memory.readN x.s.mem pa n, x.s)

/-- R198: `m.pgreq` requests the pages of its lanes that were never requested; `m.pgprobe` issues an operation on LD;
`m.pref` changes nothing visible. -/
def Obligations.PageHints : Prop :=
  ∀ d a s x,
    let addr := x.addr a 0
    Begins s (memInfo false false (misaligned a 7 1)) x → Ready x.w x.act [a, a + 1] [] →
    x.Completes (.mPref a) x.s x.wd ∧
    ((∀ l, inMask x.act l = true → pgreqErr x.s x.c (addr l) = none) →
      let t := requestPages x.s x.w.ctx ((lanesOf x.act).filterMap (fun l =>
        match leafOf x.s x.c (addr l) with
        | some lf => if pageState x.c lf = 0 then some lf.page else none
        | none => none))
      x.Completes (.mPgreq a) t (syncWaits t x.wd)) ∧
    (Ready x.w x.act [] [d] → (∀ l, inMask x.act l = true → addr l < 2 ^ 56) → x.w.outstanding 0 < 63 →
      x.IssuesOp (.mPgprobe d a) x.wd 0 (.probe d) ((lanesOf x.act).map (fun l => mkPart l (addr l) 0 ⟨.absent, none⟩ 0 0)) x.scope [d] x.act)

/-- R133 to R135, R182: `c.br` in its six modes, none of which a pending entry may reach, `c.call`, `c.jmp`, `c.callx` and `c.ret`:
where each lane of the run goes on, and the return address that a call leaves in its link pair. -/
def Obligations.Transfers : Prop :=
  (∀ k m o s x, k < 8 → m < 6 → Begins s { Info.plain 3 with reserved := brReserved k m } x →
    PredsReady x.w x.run [k] →
    let bit (l : Nat) : Bool := ((x.w.lane l).pred k).val
    let takes (l : Nat) : Bool := match m with
      | 0 => true
      | 1 => bit l
      | 2 => !bit l
      | 3 => (lanesOf x.run).any bit
      | 4 => (lanesOf x.run).all bit
      | _ => !(lanesOf x.run).any bit
    x.Goes (.cBr k m o) x.wd (fun l => if takes l then x.sel.addr + BitVec.ofInt 56 (4 * signed 19 o) else x.next) false) ∧
  (∀ j o s x, Begins s (Info.plain 3) x → Ready x.w x.run [] [2 * j, 2 * j + 1] →
    ∃ w', x.Goes (.cCall j o) w' (fun _ => x.sel.addr + BitVec.ofInt 56 (4 * signed 19 o)) false ∧
      Writes x.wd w' (onePair x.run (2 * j) (fun _ => x.next.setWidth 64)) noFlags) ∧
  (∀ i ∈ ([Instr.cJmp, Instr.cRet] : List (Nat → Instr)), ∀ a s x, a % 2 = 0 → Begins s (Info.plain 3) x →
    Ready x.w x.run [a, a + 1] [] → (∀ l, inMask x.run l = true → (x.w.dword l a).toNat < 2 ^ 56) →
    x.Goes (i a) x.wd (fun l => (x.w.dword l a &&& ~~~3#64).setWidth 56) false) ∧
  ∀ d a s x, a % 2 = 0 → d % 2 = 0 → Begins s (Info.plain 3) x → Ready x.w x.run [a, a + 1] [d, d + 1] →
    (∀ l, inMask x.run l = true → (x.w.dword l a).toNat < 2 ^ 56) →
    ∃ w', x.Goes (.cCallx d a) w' (fun l => (x.w.dword l a &&& ~~~3#64).setWidth 56) false ∧
      Writes x.wd w' (onePair x.run d (fun _ => x.next.setWidth 64)) noFlags

/-- R136 to R138: `c.wait` completes where every operation its limits name has retired, and then clears the pending marks of
loads below its bound; where one it names has failed, in issue order before any that runs, that one retires and the run traps with its
cause; else the run waits. That all lanes' marks are cleared, and that the trap names the lanes whose accesses failed, or the run, are
the model's readings (logs 15 and 23, DEDUCED). -/
def Obligations.CounterWaits : Prop :=
  ∀ l st c m s x, Begins s (Info.plain 3) x →
    let below := [x.w.issuedOn 0 - l, x.w.issuedOn 1 - st, x.w.issuedOn 2 - c, x.w.issuedOn 3 - m]
    let named := x.w.ops.filter (fun o => decide (o.seq < below.getD o.counter 0))
    (named = [] → ∃ w', x.Completes (.cWait l st c m) x.s w' ∧ w'.regs = x.wd.regs ∧
      (∀ k, k < 32 → ∀ n, w'.isPending k n = x.wd.marks.any (fun q => q.reg == n && inMask q.lanes k && decide (x.w.issuedOn 0 - l ≤ q.seq))) ∧
      ∀ k, k < 32 → ∀ j, j < 8 → ((w'.lane k).pred j).val = ((x.wd.lane k).pred j).val ∧
        (((w'.lane k).pred j).pend = match ((x.wd.lane k).pred j).pend with
          | some n => if n < x.w.issuedOn 0 - l then none else some n
          | none => none)) ∧
    (∀ o f, named.find? (fun o => o.state != .done) = some o → o.state = .failed f →
      exec (.cWait l st c m) x.s =
        .next (trapNow (retireFailed x.s x.w.id o) x.sel (if f.lanes = 0#32 then x.run else f.lanes) f.cause f.addr f.detail)) ∧
    (named ≠ [] → (∀ o, named.find? (fun o => o.state != .done) = some o → o.state = .running) →
      exec (.cWait l st c m) x.s = .next (x.wait x.s x.wd (.counters below [l, st, c, m])))

/-- R139, R363: the tag instructions, on the tag map of the warp's context on its core, or on the one its block returns to, and the
mask in `lead`'s pair. -/
def Obligations.TagInstructions : Prop :=
  ∀ d a s x, a % 2 = 0 → Begins s (Info.plain 3) x →
    let core := (homeCore x.s x.w).getD 0
    let tags := tagMap x.c core
    let mask := x.w.dword x.lead a
    (Ready x.w (oneLane x.lead) [a, a + 1] [] →
      (if mask = 0#64 ∨ tags &&& mask ≠ 0#64 then x.Completes (.cTwaitAny a) x.s x.wd
        else exec (.cTwaitAny a) x.s = .next (x.wait x.s x.wd (.tags false mask))) ∧
      (if tags &&& mask = mask then x.Completes (.cTwaitAll a) x.s x.wd
        else exec (.cTwaitAll a) x.s = .next (x.wait x.s x.wd (.tags true mask))) ∧
      ∃ f : Ctx → Ctx, x.Completes (.cTclr a) (x.s.updCtx x.w.ctx f) x.wd ∧ tagMap (f x.c) core = tags &&& ~~~mask ∧
        (∀ k, k ≠ core → tagMap (f x.c) k = tagMap x.c k) ∧ { f x.c with tagsClear := x.c.tagsClear } = x.c) ∧
    (Ready x.w (oneLane x.lead) [a, a + 1] [] → Ready x.w x.w.live [] [d] →
      ∃ w', x.Completes (.cTffs d a) x.s w' ∧
        Writes x.wd w' (oneReg x.w.live d (fun _ =>
          BitVec.ofNat 32 (((List.range 64).find? (fun i => (tags &&& mask).getLsbD i)).getD 64))) noFlags)

/-- R140, R141: the barrier instructions. A lane arrives in the barrier's current phase; a wait ends at once where that phase is
over; `sync` arrives and waits. A scope with no owner traps, and so do, naming the lanes that did so, a second arrival, by `arrive` or
`sync`, and a wait without one. -/
def Obligations.BarrierInstructions : Prop :=
  ∀ sc id s x, sc < 6 → Begins s (Info.plain 3) x →
    (barOwner x.s x.w x.l sc = none → ∀ i ∈ ([Instr.cBarArrive, Instr.cBarWait, Instr.cBarSync] : List (Nat → Nat → Instr)),
      exec (i sc id) x.s = .next (trapNow x.s x.sel x.run 0x09 0 [sc, id])) ∧
    ∀ o g, barOwner x.s x.w x.l sc = some (o, g) →
      let b := (x.s.needBar sc id o g).1
      let t := (x.s.needBar sc id o g).2
      ((∀ l, inMask x.run l = true → (x.w.lane l).arrivalAt sc id = none) →
        x.Completes (.cBarArrive sc id) t (arriveLanes x.wd x.run sc id b.phase) ∧
        (x.run ≠ 0#32 → exec (.cBarSync sc id) x.s = .next (x.wait t (arriveLanes x.wd x.run sc id b.phase) (.barrier sc id b.phase true)))) ∧
      ((∀ l, inMask x.run l = true → ((x.w.lane l).arrivalAt sc id).isSome = true) →
        let ph := waitPhase x.wd x.run sc id
        if ph < b.phase then x.Completes (.cBarWait sc id) t (x.wd.mapLanes x.run (fun _ y => y.dropArrival sc id))
        else exec (.cBarWait sc id) x.s = .next (x.wait t x.wd (.barrier sc id ph false))) ∧
      ((∃ l, inMask x.run l = true ∧ ((x.w.lane l).arrivalAt sc id).isSome = true) →
        ∀ i ∈ ([Instr.cBarArrive, Instr.cBarSync] : List (Nat → Nat → Instr)), exec (i sc id) x.s = .next (trapNow x.s x.sel
          (maskOf (fun l => inMask x.run l && ((x.w.lane l).arrivalAt sc id).isSome)) 0x0A 0 [id, 0])) ∧
      ((∃ l, inMask x.run l = true ∧ (x.w.lane l).arrivalAt sc id = none) →
        exec (.cBarWait sc id) x.s = .next (trapNow x.s x.sel
          (maskOf (fun l => inMask x.run l && ((x.w.lane l).arrivalAt sc id).isNone)) 0x0A 0 [id, 1]))

/-- R19, R138, R142, R241: `c.nop` does nothing, `c.yield` keeps the ages of its run, `c.exit` ends the lanes of its run, in a warp that
counts with the spawn-tree count of its launch lowered by as many, in the launch or in the word at SPAWNCTR, and `c.brk` and `c.trap` complete and stop their run at the next word with their own address and code as detail. -/
def Obligations.OtherControl : Prop :=
  ∀ s x, Begins s (Info.plain 3) x →
    x.Completes .cNop x.s x.wd ∧
    x.Goes .cYield x.wd (fun _ => x.next) true ∧
    (x.w.counts = false → (x.w.live &&& ~~~x.run ≠ 0#32 ∨ ∀ o ∈ x.w.ops, ∀ f, o.state ≠ .failed f) →
      ∃ w', x.Goes .cExit w' (fun l => (x.w.lane l).pc) false ∧ w'.regs = x.wd.regs ∧
        ∀ l, l < 32 → inMask x.run l = true → (w'.lane l).isExited = true) ∧
    (x.w.counts = true → x.l.kind = .seed → x.l.rec_.spawnCtr = 0 → x.c.stepping = false →
      (∀ o ∈ x.w.ops, ∀ f, o.state ≠ .failed f) → (lanesOf (x.run &&& x.w.live)).length ≤ x.l.spawned →
      ∃ t, exec .cExit x.s = .next t ∧ t.mem = x.s.mem ∧
        (t.launch? x.l.id).map Launch.spawned = some (x.l.spawned - (lanesOf (x.run &&& x.w.live)).length)) ∧
    (x.w.counts = true → (x.w.live &&& ~~~x.run ≠ 0#32 ∨ ∀ o ∈ x.w.ops, ∀ f, o.state ≠ .failed f) →
      let n := (lanesOf (x.run &&& x.w.live)).length
      let own := x.l.kind = .reseed ∨ (∃ g, x.l.kind = .relaunch g) ∨ x.l.rec_.spawnCtr = 0
      let ends (u : State) : Prop := ∃ w', exec .cExit x.s = .next (x.finish u w' (fun l => (x.w.lane l).pc) false) ∧ w'.regs = x.wd.regs ∧
        ∀ l, l < 32 → inMask x.run l = true → (w'.lane l).isExited = true
      (own → n ≤ x.l.spawned → ends (x.s.setLaunch { x.l with spawned := x.l.spawned - n })) ∧
      (¬ own → x.l.rec_.spawnCtr + 8 ≤ windowBase → ∀ b t u, readMem x.s x.l.ctx none 0 x.l.rec_.spawnCtr 8 = .ok (b, t) →
        n ≤ leNat b → writeWord64 t x.l.ctx x.l.rec_.spawnCtr (leNat b - n) = .ok u → ends u)) ∧
    (∀ b, exec (.cBrk b) x.s = .next (takeTrap (x.advance x.s x.wd (fun _ => x.next) false) x.w.id x.run x.next x.run 0x06 0
      (twoWords x.sel.addr.toNat ++ [b]))) ∧
    ∀ n, exec (.cTrap n) x.s =
      .next (takeTrap (x.advance x.s x.wd (fun _ => x.next) false) x.w.id x.run x.next x.run (0x58 + n) 0
        (twoWords x.sel.addr.toNat ++ [n]))

/-- R39, R40, R143, R144: what each special register reads, reading and writing special registers, and reading context items. A
register of the run's lanes is written in the run; every other value is written to each lane that has not exited. A launch that is not
traced keeps its state. -/
def Obligations.SpecialRegisters : Prop :=
  (∀ s x l,
    srValue s x 0 l = l ∧ srValue s x 1 l = x.w.number ∧
    (∀ core, x.w.core? = some core →
      srValue s x 2 l = core % 8 ∧ srValue s x 3 l = core / 8 % 8 ∧ srValue s x 4 l = core / 64 % 4) ∧
    (∀ k, k < 8 → (x.w.block = none ∨ x.l.rec_.levels[k]? = none → srValue s x (8 + k) l = 0) ∧
      (∀ b v, x.w.block.bind s.block? = some b → x.l.rec_.levels[k]? = some v → (∀ u ∈ x.l.rec_.levels, 1 ≤ u.extent) →
        srValue s x (8 + k) l = (match v.domain with | 0 => l | 1 => x.w.number | _ => b.number) /
          (((x.l.rec_.levels.take k).filter (fun u => min u.domain 2 == min v.domain 2)).map Level.extent).prod % v.extent) ∧
      (x.l.rec_.levels[k]? = none → srValue s x (16 + k) l = 1) ∧ ∀ v, x.l.rec_.levels[k]? = some v → srValue s x (16 + k) l = v.extent) ∧
    srValue s x 32 l = s.mod.clock % 2 ^ 64 ∧ srValue s x 33 l = (x.w.lane l).fpflags.toNat ∧ srValue s x 34 l = x.w.absent.toNat ∧
    srValue s x 35 l = (tagMap x.c ((homeCore s x.w).getD 0)).toNat ∧
    ((∀ k, x.w.outstanding k < 64) → (List.range 4).map (fun k => srValue s x 36 l / 2 ^ (6 * k) % 2 ^ 6) = (List.range 4).map x.w.outstanding ∧
      srValue s x 36 l < 2 ^ 24) ∧
    srValue s x 37 l = x.l.rec_.partition ∧ srValue s x 38 l = x.w.alloc) ∧
  (∀ d r s x, srAssigned r = true → srPair r = false →
    Begins s { Info.plain 3 with illegal := !srAssigned r, reserved := if srPair r then misaligned d 14 1 else 0 } x →
    (srPerLane r = true → Ready x.w x.run [] [d] → ∃ w', x.Completes (.yGsr d r) x.s w' ∧
      Writes x.wd w' (oneReg x.run d (fun l => BitVec.ofNat 32 (srValue x.s x r l))) noFlags) ∧
    (srPerLane r = false → Ready x.w x.w.live [] [d] → ∃ w', x.Completes (.yGsr d r) x.s w' ∧
      Writes x.wd w' (oneReg x.w.live d (fun _ => BitVec.ofNat 32 (srValue x.s x r x.lead))) noFlags)) ∧
  (∀ d r s x, srPair r = true → d % 2 = 0 → x.l.rec_.trace = 0 →
    Begins s { Info.plain 3 with illegal := !srAssigned r, reserved := if srPair r then misaligned d 14 1 else 0 } x →
    Ready x.w x.w.live [] [d, d + 1] → ∃ w', x.Completes (.yGsr d r) x.s w' ∧
      Writes x.wd w' (onePair x.w.live d (fun _ => BitVec.ofNat 64 (srValue x.s x r x.lead))) noFlags) ∧
  (∀ b s x, Begins s { Info.plain 3 with illegal := false } x →
    (Ready x.w x.run [b] [] → ∃ w', x.Completes (.ySsr 33 b) x.s w' ∧ { w' with lanes := x.wd.lanes } = x.wd ∧
      ∀ l, l < 32 → { w'.lane l with fpflags := (x.wd.lane l).fpflags } = x.wd.lane l ∧
        (w'.lane l).fpflags = if inMask x.run l then (x.w.reg l b).extractLsb' 0 5 else (x.wd.lane l).fpflags) ∧
    (Ready x.w (oneLane x.lead) [b] [] → x.Completes (.ySsr 34 b) x.s { x.wd with absent := x.w.reg x.lead b })) ∧
  ∀ d n s x, n < 5 → (n = 2 → d % 2 = 0) → x.l.rec_.trace = 0 →
    Begins s { Info.plain 3 with illegal := decide (n > 4), reserved := if n = 2 then misaligned d 14 1 else 0 } x →
    Ready x.w x.w.live [] (if n = 2 then [d, d + 1] else [d]) →
    ∃ w', x.Completes (.yCtxinfo d n) x.s w' ∧
      Writes x.wd w'
        (if n = 2 then onePair x.w.live d (fun _ => BitVec.ofNat 64 x.c.trapBase)
          else oneReg x.w.live d (fun _ => BitVec.ofNat 32 (match n with
            | 0 => x.w.ctx
            | 1 => x.l.packet
            | 3 => (enabledCores x.w.snap).length
            | _ => stoppedRuns x.s x.w.ctx))) noFlags

/-- R16, R147: `y.resume` and `y.kill` of a handler's run of one lane, `s1` being the state with the word issued: the lanes
that the mask names among those stopped under the handle restart at age 0, or end; a step that traps (R150) comes after that. In a warp that is no handler, and for a
handle that stops no lane, each traps, the handle being judged first (log 38, DEDUCED). -/
def Obligations.HandlerReturns : Prop :=
  ∀ a b s x, Begins s (Info.plain 3) x →
    let s1 := (x.advance x.s x.wd (fun _ => x.next) false).updWarp x.w.id joinWaits
    let after (t : State) : State := stepTrap t x.w.id x.run x.sel.addr
    let h := x.w.val x.lead a
    let m := x.w.reg x.lead b
    (∀ r w, x.w.kind = .handler r → x.run = oneLane x.lead → Ready x.w x.run [a, b] [] → handleInUse x.s x.w.ctx h = true →
      stoppedWarp s1 x.w.ctx h = some w →
      exec (.yResume a b) x.s = .next (after (s1.updWarp w.id (fun w =>
        joinWaits (w.mapLanes (stoppedLanes w h &&& m) (fun _ y => { y with cond := .ready, age := 0 }))))) ∧
      (s1.warp? w.id = some w → w.counts = false → w.ops = [] → ∃ t v, exec (.yKill a b) x.s = .next (after t) ∧ t.mem = s1.mem ∧
        t.warp? w.id = some v ∧ ∀ l, l < 32 →
          v.lane l = if inMask (stoppedLanes w h &&& m) l then { w.lane l with cond := .exited } else w.lane l)) ∧
    ∀ i ∈ ([Instr.yResume, Instr.yKill] : List (Nat → Nat → Instr)), Ready x.w x.run [a, b] [] →
      ((∀ l, inMask x.run l = true → handleInUse x.s x.w.ctx (x.w.val l a) = true) → (∀ r, x.w.kind ≠ .handler r) →
        exec (i a b) x.s = .next (trapNow x.s x.sel x.run 0x08 0 [x.word])) ∧
      (x.run = oneLane x.lead → handleInUse x.s x.w.ctx h = false →
        exec (i a b) x.s = .next (trapNow x.s x.sel x.run 0x07 0 [h]))

/-- R59, R63: a hint word joins the group of its run; nothing else changes, so the run stands where it stood. That a hint word is a step
of its own is the model's reading (log 61). -/
def Obligations.Hints : Prop :=
  ∀ s sel, s.cur = some sel → ∀ i ∈ ([
      fun n : Nat × Nat × Nat => Instr.hImm n.1, fun n => .hGuard n.1 n.2.1, fun n => .hGuardNot n.1 n.2.1, fun n => .hSrc3 n.1,
      fun n => .hReuse n.1 n.2.1, fun n => .hLast n.1 n.2.1 n.2.2, fun n => .hRnd n.1, fun n => .hScope n.1, fun n => .hSched n.1,
      fun n => .hCache n.1] : List (Nat × Nat × Nat → Instr)), ∀ n, ∃ t, exec (i n) s = .next t ∧
      { t with warps := s.warps, cur := s.cur } = s ∧ t.cur = none ∧ (∀ j, j ≠ sel.warp → t.warp? j = s.warp? j) ∧
      ∀ w, s.warp? sel.warp = some w →
        t.warp? sel.warp = some { w with group := w.group ++ [sel.word], groupRun := sel.run, groupReady := sel.ready }

/-- R146, R148: TAKING A TRAP. A run of a warp that is no handler, of a launch with a trap entry, stops under a handle that is in
use nowhere (log 34) where it stands; a handler warp appears, in lane 0, at the trap entry, with the record in v0 to v15, and memory
stays. With trap entry 0, and in a handler, the context ends. The model's choices: which handle (log 34), the words of the end record
with trap entry 0, handle 0 and the run, program counter and lanes of the trap (log 23), and handle 0 in the record that is logged
from a handler (log 34). -/
def Obligations.TrapEntry : Prop :=
  ∀ s wid run pc lanes cause addr detail w c l, s.warp? wid = some w → s.ctx? w.ctx = some c → s.launch? w.launch = some l →
    let t := takeTrap s wid run pc lanes cause addr detail
    ((∀ h, w.kind ≠ .handler h) → l.rec_.trapEntry ≠ 0 → waitingHandlers s w.ctx < 1023 → w.id < s.nextId →
      (∀ v ∈ s.warps, v.id < s.nextId) →
      ∃ h v, 0 < h ∧ h < 2 ^ 32 ∧ ((∃ k, 0 < k ∧ k < 2 ^ 32 ∧ handleInUse s w.ctx k = false) → handleInUse s w.ctx h = false) ∧
        t.mem = s.mem ∧ t.blocks = s.blocks ∧ t.launches = s.launches ∧ t.mod = s.mod ∧
        (t.ctx? w.ctx).map Ctx.lastHandle = some h ∧
        (∃ u, t.warp? wid = some u ∧ u.regs = w.regs ∧ u.ops = w.ops ∧ ∀ k, k < 32 →
          u.lane k = if inMask run k then { w.lane k with cond := .stopped h, pc := pc } else w.lane k) ∧
        t.warp? s.nextId = some v ∧ v.kind = .handler h ∧ v.ctx = w.ctx ∧ v.launch = w.launch ∧
        (v.lane 0).isReady = true ∧ (v.lane 0).pc = BitVec.ofNat 56 l.rec_.trapEntry ∧
        (∀ k, 0 < k → k < 32 → (v.lane k).isExited = true) ∧
        v.reg 0 0 = BitVec.ofNat 32 cause ∧ v.reg 0 1 = BitVec.ofNat 32 h ∧
        v.reg 0 2 = pc.extractLsb' 0 32 ∧ v.reg 0 3 = (pc.extractLsb' 32 24).setWidth 32 ∧ v.reg 0 4 = run ∧ v.reg 0 5 = lanes ∧
        v.reg 0 6 = BitVec.ofNat 32 addr ∧ v.reg 0 7 = BitVec.ofNat 32 (addr / 2 ^ 32) ∧
        ∀ i, i < 8 → v.reg 0 (8 + i) = BitVec.ofNat 32 (detail.getD i 0)) ∧
    ((∀ h, w.kind ≠ .handler h) → l.rec_.trapEntry = 0 →
      t = endContext s w.ctx (recordWords cause 0 pc.toNat run lanes addr detail)) ∧
    (∀ h, w.kind = .handler h →
      t = endContext (logEntry s w.ctx (recordWords cause 0 pc.toNat run lanes addr detail)) w.ctx
        (recordWords 0x0D 0 pc.toNat run lanes addr (cause :: detail)))

/-- R8, R9, R22, R33, R66, R67, R358: a word whose lanes name a register outside the allocation, or a pending one, traps and writes
nothing, and one that reads a register whose data is uncorrectable ends its context with ECC_REGFILE: stated of every word of majors
0x00 to 0x09 that reads or writes registers, in both twins. Which lanes and which register the record names where several offend is the
model's reading (log 72), and so are a hint word as a step of its own (log 61), the words of the register file (log 48) and the end record of
ECC_REGFILE, which has the instruction's program counter, the run and all its lanes (log 23): these are the model's choice. -/
def Obligations.RegisterTraps : Prop :=
  ∀ d a b : Nat,
    (∀ p ∈ ([
      (Instr.sAdd, Instr.vAdd), (Instr.sSub, Instr.vSub), (Instr.sMullo, Instr.vMullo), (Instr.sMulhiS, Instr.vMulhiS),
      (Instr.sMulhiZ, Instr.vMulhiZ), (Instr.sMinS, Instr.vMinS), (Instr.sMaxS, Instr.vMaxS), (Instr.sMinZ, Instr.vMinZ),
      (Instr.sMaxZ, Instr.vMaxZ), (Instr.sAbsdiff, Instr.vAbsdiff), (Instr.sAddsatS, Instr.vAddsatS), (Instr.sSubsatS, Instr.vSubsatS),
      (Instr.sAvgZ, Instr.vAvgZ), (Instr.sAnd, Instr.vAnd), (Instr.sOr, Instr.vOr), (Instr.sXor, Instr.vXor),
      (Instr.sAndn, Instr.vAndn), (Instr.sOrn, Instr.vOrn), (Instr.sXnor, Instr.vXnor), (Instr.sShl, Instr.vShl),
      (Instr.sShr, Instr.vShr), (Instr.sSar, Instr.vSar), (Instr.sRotl, Instr.vRotl), (Instr.sRotr, Instr.vRotr),
      (Instr.sBfeS, Instr.vBfeS), (Instr.sBfeZ, Instr.vBfeZ), (Instr.sFmin, Instr.vFmin), (Instr.sFmax, Instr.vFmax),
      (Instr.sFcopysign, Instr.vFcopysign), (Instr.sFminF16x2, Instr.vFminF16x2), (Instr.sFmaxF16x2, Instr.vFmaxF16x2),
      (Instr.sFminBf16x2, Instr.vFminBf16x2), (Instr.sFmaxBf16x2, Instr.vFmaxBf16x2)] :
      List ((Nat → Nat → Nat → Instr) × (Nat → Nat → Nat → Instr))),
      TwinsTrap false false false (p.1 d a b) (p.2 d a b) (fun _ => [a, b]) [d]) ∧
    (∀ p ∈ ([
      (Instr.sFadd, Instr.vFadd), (Instr.sFsub, Instr.vFsub), (Instr.sFmul, Instr.vFmul), (Instr.sFaddF16x2, Instr.vFaddF16x2),
      (Instr.sFsubF16x2, Instr.vFsubF16x2), (Instr.sFmulF16x2, Instr.vFmulF16x2), (Instr.sFaddBf16x2, Instr.vFaddBf16x2),
      (Instr.sFsubBf16x2, Instr.vFsubBf16x2), (Instr.sFmulBf16x2, Instr.vFmulBf16x2)] :
      List ((Nat → Nat → Nat → Instr) × (Nat → Nat → Nat → Instr))),
      TwinsTrap false false true (p.1 d a b) (p.2 d a b) (fun _ => [a, b]) [d]) ∧
    (∀ p ∈ ([
      (Instr.sAddImm, Instr.vAddImm), (Instr.sSubImm, Instr.vSubImm), (Instr.sMulloImm, Instr.vMulloImm),
      (Instr.sMulhiSImm, Instr.vMulhiSImm), (Instr.sMulhiZImm, Instr.vMulhiZImm), (Instr.sMinSImm, Instr.vMinSImm),
      (Instr.sMaxSImm, Instr.vMaxSImm), (Instr.sMinZImm, Instr.vMinZImm), (Instr.sMaxZImm, Instr.vMaxZImm),
      (Instr.sAbsdiffImm, Instr.vAbsdiffImm), (Instr.sAddsatSImm, Instr.vAddsatSImm), (Instr.sSubsatSImm, Instr.vSubsatSImm),
      (Instr.sAvgZImm, Instr.vAvgZImm), (Instr.sAndImm, Instr.vAndImm), (Instr.sOrImm, Instr.vOrImm), (Instr.sXorImm, Instr.vXorImm),
      (Instr.sAndnImm, Instr.vAndnImm), (Instr.sOrnImm, Instr.vOrnImm), (Instr.sXnorImm, Instr.vXnorImm),
      (Instr.sShlImm, Instr.vShlImm), (Instr.sShrImm, Instr.vShrImm), (Instr.sSarImm, Instr.vSarImm), (Instr.sRotlImm, Instr.vRotlImm),
      (Instr.sRotrImm, Instr.vRotrImm)] :
      List ((Nat → Nat → Nat → Instr) × (Nat → Nat → Nat → Instr))),
      TwinsTrap false true false (p.1 d a b) (p.2 d a b) (fun _ => [a]) [d]) ∧
    (∀ p ∈ ([
      (Instr.sClz, Instr.vClz), (Instr.sPopc, Instr.vPopc), (Instr.sBrev, Instr.vBrev), (Instr.sMov, Instr.vMov),
      (Instr.sNot, Instr.vNot), (Instr.sFabs, Instr.vFabs), (Instr.sFneg, Instr.vFneg), (Instr.sFclass, Instr.vFclass),
      (Instr.sFrcp, Instr.vFrcp), (Instr.sFrsq, Instr.vFrsq), (Instr.sFexp2, Instr.vFexp2), (Instr.sFlog2, Instr.vFlog2),
      (Instr.sFsinpi, Instr.vFsinpi), (Instr.sFcospi, Instr.vFcospi), (Instr.sFtanh, Instr.vFtanh), (Instr.sFrintNe, Instr.vFrintNe),
      (Instr.sFrintZ, Instr.vFrintZ), (Instr.sFrintDn, Instr.vFrintDn), (Instr.sFrintUp, Instr.vFrintUp)] :
      List ((Nat → Nat → Instr) × (Nat → Nat → Instr))),
      TwinsTrap false false false (p.1 d a) (p.2 d a) (fun _ => [a]) [d]) ∧
    TwinsTrap false false true (.sFsqrt d a) (.vFsqrt d a) (fun _ => [a]) [d] ∧
    TwinsTrap false true false (.sMovImm d b) (.vMovImm d b) (fun _ => []) [d] ∧
    (∀ p ∈ ([(Instr.sMad, Instr.vMad), (Instr.sBfi, Instr.vBfi), (Instr.sPrmt, Instr.vPrmt)] :
      List ((Nat → Nat → Nat → Instr) × (Nat → Nat → Nat → Instr))),
      TwinsTrap true false false (p.1 d a b) (p.2 d a b) (fun h => [a, b, source3 h d]) [d]) ∧
    TwinsTrap true true false (.sMadImm d a b) (.vMadImm d a b) (fun h => [a, source3 h d]) [d] ∧
    (∀ p ∈ ([(Instr.sFfma, Instr.vFfma), (Instr.sFfmaF16x2, Instr.vFfmaF16x2), (Instr.sFfmaBf16x2, Instr.vFfmaBf16x2)] :
      List ((Nat → Nat → Nat → Instr) × (Nat → Nat → Nat → Instr))),
      TwinsTrap true false true (p.1 d a b) (p.2 d a b) (fun h => [a, b, source3 h d]) [d]) ∧
    (d % 2 = 0 → a % 2 = 0 → b % 2 = 0 →
      ∀ p ∈ ([(Instr.sAdd64, Instr.vAdd64), (Instr.sSub64, Instr.vSub64), (Instr.sMul64lo, Instr.vMul64lo)] :
        List ((Nat → Nat → Nat → Instr) × (Nat → Nat → Nat → Instr))),
        TwinsTrap false false false (p.1 d a b) (p.2 d a b) (fun _ => [a, a + 1, b, b + 1]) [d, d + 1]) ∧
    (d % 2 = 0 → a % 2 = 0 →
      ∀ p ∈ ([(Instr.sShl64, Instr.vShl64), (Instr.sShr64, Instr.vShr64), (Instr.sSar64, Instr.vSar64)] :
        List ((Nat → Nat → Nat → Instr) × (Nat → Nat → Nat → Instr))),
        TwinsTrap false false false (p.1 d a b) (p.2 d a b) (fun _ => [a, a + 1, b]) [d, d + 1]) ∧
    (∀ i, TrapsOnRegisters (fun s => (Info.of 0 true false false).bad (moviBad s i)) (.sMovi d i) (fun x => x.w.live) (fun _ _ => []) (fun _ _ => [d]) ∧
      TrapsOnRegisters (fun s => (Info.of 1 true false false).bad (moviBad s i)) (.vMovi d i) Cx.act (fun _ _ => []) (fun _ _ => [d])) ∧
    ∀ f src t,
      let srcs := if cvtPair src then [a, a + 1] else [a]
      let dsts := if cvtPair f then [d, d + 1] else [d]
      TrapsOnRegisters (fun _ => cvtInfo 0 f d a src t) (.sCvt f d a src t) (fun x => x.w.live)
        (fun x l => if l = x.lead then srcs else []) (fun _ _ => dsts) ∧
      TrapsOnRegisters (fun _ => cvtInfo 1 f d a src t) (.vCvt f d a src t) Cx.act (fun _ _ => srcs) (fun _ _ => dsts)

/-- R45, R66: a word with a bit set in a reserved field or a reserved value, or with an unallocated code among its operands, traps
before anything else of it happens: stated of the words of `c.br`, `cmp` and `fcmp` in both twins, and the three fences, with no hint
before them. That the mask is that of the whole field is the model's reading (log 21), and a hint word is a step of its own (log 61). -/
def Obligations.WordTraps : Prop :=
  ∀ s sel w c l, s.cur = some sel → s.warp? sel.warp = some w → s.ctx? w.ctx = some c → s.launch? w.launch = some l → w.group = [] →
    let illegal (i : Instr) : Prop := exec i s = .next (trapNow s sel sel.run 0x00 0 [sel.word.toNat])
    let reserved (i : Instr) (mask : Nat) : Prop := exec i s = .next (trapNow s sel sel.run 0x01 0 [sel.word.toNat, mask])
    (∀ k m o, (6 ≤ m → reserved (.cBr k m o) (7 * 2 ^ 19)) ∧ (0 < k → reserved (.cBr k 0 o) (k * 2 ^ 22))) ∧
    (∀ k t m a b,
      let odd (n at_ : Nat) : Nat := n % 2 * 2 ^ at_
      let mask (types : Nat) : Nat := (if types ≤ t then 7 * 2 ^ 18 else 0) + (if 4 ≤ m then 15 * 2 ^ 14 else 0)
      let pairs : Nat := if t = 2 ∨ t = 3 then odd a 7 + odd b 0 else 0
      (6 ≤ k → illegal (.sCmp k t m a b) ∧ illegal (.vCmp k t m a b)) ∧
      (14 ≤ k → illegal (.sFcmp k t m a b) ∧ illegal (.vFcmp k t m a b)) ∧
      (k < 6 → mask 4 + pairs ≠ 0 → reserved (.sCmp k t m a b) (mask 4 + pairs) ∧ reserved (.vCmp k t m a b) (mask 4 + pairs)) ∧
      (k < 14 → mask 3 ≠ 0 → reserved (.sFcmp k t m a b) (mask 3) ∧ reserved (.vFcmp k t m a b) (mask 3))) ∧
    ∀ sc, 6 ≤ sc → ∀ i ∈ [Instr.mFenceAcq sc, Instr.mFenceRel sc, Instr.mFenceFull sc], reserved i (7 * 2 ^ 22)

/-- R58, R66, R168: a word that is no instruction traps with ILLEGAL_OPCODE, or with RESERVED_FIELD and the bits that offend; one in
the hint majors joins its group; a fetch that no table maps, or that may not be executed, traps with FETCH_FAULT. The mask of a reserved
value and the hint word as a step of its own are the model's readings (logs 21, 61). -/
def Obligations.NoInstruction : Prop :=
  ∀ s sel w c l, s.cur = some sel → s.warp? sel.warp = some w → s.ctx? w.ctx = some c → s.launch? w.launch = some l → w.group = [] →
    (wordCell sel.word.toNat = none → isHint sel.word.toNat = false →
      exec (.unallocatedWord sel.word.toNat) s = .next (trapNow s sel sel.run 0x00 0 [sel.word.toNat])) ∧
    (∀ m, wordCell sel.word.toNat = some m → 0 < m → isHint sel.word.toNat = false → operandIllegal sel.word.toNat = false →
      exec (.unallocatedWord sel.word.toNat) s =
        .next (trapNow s sel sel.run 0x01 0 [sel.word.toNat, m + operandReserved sel.word.toNat])) ∧
    (isHint sel.word.toNat = true → ∃ t v, exec (.unallocatedWord sel.word.toNat) s = .next t ∧ t.warp? sel.warp = some v ∧
      v.group = [sel.word] ∧ t.mem = s.mem) ∧
    ∀ cause detail, resolve s c w.block .fetch 0 sel.addr.toNat 4 = .error (.trap cause sel.addr.toNat detail) →
      exec .fetchFault s = .next (trapNow s sel sel.run cause sel.addr.toNat detail)

/-- R277 to R283: `e.cpy`, `e.gath` and `e.scat` give the copy engine their command where fields, descriptors, tiles, swizzle
and restart word are valid. -/
def Obligations.CopyCommands : Prop :=
  (∀ p t sw, EngineWord (.eCpy p t sw) p 2 (some t) (memInfo false false (misaligned p 14 1)) (fun x bytes l va c u =>
    let rows := fieldAt bytes 20 4
    let cols := fieldAt bytes 24 4
    namesTensor bytes 0 ∧ namesTensor bytes 2 ∧ within bytes 20 4 1 4096 ∧ within bytes 24 4 1 4096 ∧ barOk x.w bytes ∧ zeros bytes 36 28 ∧
    ∃ src dst, x.c.tensor? (fieldAt bytes 0 2) = some src ∧ x.c.tensor? (fieldAt bytes 2 2) = some dst ∧
      src.isWeight = false ∧ dst.isWeight = false ∧ elemBytes dst.fmt = elemBytes src.fmt ∧
      inResidency dst.base = false ∧ inNodes dst.base = false ∧ rows * cols * elemBytes src.fmt ≤ 2 ^ 24 ∧
      src.holds (fieldAt bytes 4 4) rows (fieldAt bytes 8 4) cols = true ∧
      dst.holds (fieldAt bytes 12 4) rows (fieldAt bytes 16 4) cols = true ∧
      swizzleBad sw src dst (src.addr (fieldAt bytes 4 4) (fieldAt bytes 8 4)) (dst.addr (fieldAt bytes 12 4) (fieldAt bytes 16 4)) cols = none ∧
      let k := { mkCommand x .cpy l va bytes [src, dst] 0 with swizzle := sw }
      tileBeyond x.s x.w (cpyFrom k ++ cpyTo k) = none ∧ restartOk bytes (sectorsOf (cpyTo k)).length ∧
      u = (expectSignal x.s x.w bytes).1 ∧
      c = { k with total := (sectorsOf (cpyTo k)).length, signal := (expectSignal x.s x.w bytes).2 })) ∧
  (∀ p t, EngineWord (.eGath p t) p 2 (some t) (memInfo false false (misaligned p 14 1)) (fun x bytes l va c u =>
    let count := fieldAt bytes 16 4
    let cols := fieldAt bytes 20 4
    namesTensor bytes 0 ∧ namesTensor bytes 2 ∧ within bytes 16 4 1 65536 ∧ within bytes 20 4 1 4096 ∧ zeros bytes 24 4 ∧
    barOk x.w bytes ∧ restartOk bytes ((count + 7) / 8) ∧ zeros bytes 36 4 ∧ fieldAt bytes 40 8 % 4 = 0 ∧ zeros bytes 56 8 ∧
    ∃ tbl dst, x.c.tensor? (fieldAt bytes 0 2) = some tbl ∧ x.c.tensor? (fieldAt bytes 2 2) = some dst ∧
      tbl.isWeight = false ∧ dst.isWeight = false ∧ inTiles tbl.base = false ∧ inTiles dst.base = false ∧
      elemBytes dst.fmt = elemBytes tbl.fmt ∧
      tbl.holds 0 0 (fieldAt bytes 4 4) cols = true ∧ dst.holds (fieldAt bytes 8 4) count (fieldAt bytes 12 4) cols = true ∧
      u = (expectSignal x.s x.w bytes).1 ∧
      c = { mkCommand x .gath l va bytes [tbl, dst] ((count + 7) / 8) with signal := (expectSignal x.s x.w bytes).2 })) ∧
  ∀ o p t, o < 14 → EngineWord (.eScat o p t) p 2 (some t) (memInfo false true (misaligned p 14 1)) (fun x bytes l va c u =>
    let fn := redFn o
    let count := fieldAt bytes 16 4
    let cols := fieldAt bytes 20 4
    namesTensor bytes 0 ∧ namesTensor bytes 2 ∧ within bytes 16 4 1 65536 ∧ within bytes 20 4 1 4096 ∧
    (fn.isHalves = true → fieldAt bytes 8 4 % 2 = 0 ∧ fieldAt bytes 12 4 % 2 = 0 ∧ cols % 2 = 0) ∧ zeros bytes 24 8 ∧
    restartOk bytes ((count + 7) / 8) ∧ zeros bytes 36 4 ∧ fieldAt bytes 40 8 % 4 = 0 ∧ zeros bytes 56 8 ∧
    ∃ src tbl, x.c.tensor? (fieldAt bytes 0 2) = some src ∧ x.c.tensor? (fieldAt bytes 2 2) = some tbl ∧
      scatFormat fn src.fmt = true ∧ scatFormat fn tbl.fmt = true ∧ inTiles src.base = false ∧ inTiles tbl.base = false ∧
      src.holds (fieldAt bytes 4 4) count (fieldAt bytes 8 4) cols = true ∧ tbl.holds 0 0 (fieldAt bytes 12 4) cols = true ∧
      u = x.s ∧ c = mkCommand x (.scat fn) l va bytes [src, tbl] ((count + 7) / 8))

/-- R284, R288, R289: `e.mma`, `e.msrch` and `e.quant` give the matrix engine their command where fields, descriptors, shapes
and the accumulator tile are valid. An element of an `e.mma` takes its K blocks in ascending order; a block of narrow operands adds its
exact sum, rounded once and scaled twice, a block of f16 or bf16 operands its balanced tree of 128 leaves (R263 to R265). A position that
2:4 sparsity skips, or an i2 weight of 0, has no product. -/
def Obligations.MatrixCommands : Prop :=
  (∀ narrow acc, mmaElement narrow acc [] [] = acc ∧ ∀ a b x y, a.length = b.length →
    mmaElement narrow acc (a ++ [x]) (b ++ [y]) = mmaElement narrow (mmaElement narrow acc a b) [x] [y]) ∧
  (∀ acc (x y : Line), ∃ s, IsBlockSum (keptPairs x.elems y.elems) s ∧
    let p1 := (fpMul .f32 .rne s x.scale).1
    let p2 := (fpMul .f32 .rne p1 y.scale).1
    mmaElement true acc [x] [y] = (fpAdd .f32 .rne acc p2).1) ∧
  (∀ acc (x y : Line), ∃ leaf : Nat → Nat, mmaElement false acc [x] [y] = (fpAdd .f32 .rne acc (sumNode leaf 7 0).1).1 ∧
    ∀ k, k < 128 → let a := x.elems.getD k none
      let b := y.elems.getD k none
      (a = none ∨ b = none → leaf k = 0x80000000) ∧ ∀ u v, a = some u → b = some v → IsProduct u v (leaf k)) ∧
  (∀ c, narrowValue 8 c = match c % 4 with | 0 => none | 1 => some (ofInt 1) | 2 => some (ofInt (-2)) | _ => some (ofInt (-1))) ∧
  (∀ i : ℤ, (ofInt i).isFinite = true ∧ (ofInt i).rat = i) ∧
  (∀ q ∈ [(5, Fmt.e4m3), (6, Fmt.e5m2), (7, Fmt.e2m1)], ∀ c, narrowValue q.1 c = some (q.2.decode c)) ∧
  (∀ p, EngineWord (.eMma p) p 3 none (memInfo false false (misaligned p 14 1)) (fun x bytes l va c u =>
    mmaFields bytes = [] ∧ ∃ a b m, mmaTensors x l bytes = .ok (a, b, m) ∧ mmaLate a b bytes = [] ∧ mmaShape bytes = true ∧
      mmaAHolds a bytes = true ∧ mmaBHolds b bytes = true ∧ (∀ k ∈ m, mmaMaskHolds k bytes = true) ∧
      tileBeyond x.s x.w [tileBase + 65536 * bytes.getD 20 0] = none ∧
      u = x.s ∧ c = mkCommand x .mma l va bytes ([a, b] ++ m) (fieldAt bytes 24 2))) ∧
  (∀ p, EngineWord (.eMsrch p) p 3 none (memInfo false false (misaligned p 14 1)) (fun x bytes l va c u =>
    let k := fieldAt bytes 16 4
    let n := fieldAt bytes 20 4
    namesTensor bytes 0 ∧ namesTensor bytes 2 ∧ namesTensor bytes 4 ∧ zeros bytes 6 2 ∧ fieldAt bytes 8 4 % 8 = 0 ∧
    fieldAt bytes 12 4 % 4 = 0 ∧ within bytes 16 4 8 8192 ∧ k % 8 = 0 ∧ within bytes 20 4 4 8192 ∧ n % 4 = 0 ∧ zeros bytes 24 8 ∧
    restartOk bytes (k / 8) ∧ zeros bytes 36 28 ∧
    ∃ src dst m, x.c.tensor? (fieldAt bytes 0 2) = some src ∧ x.c.tensor? (fieldAt bytes 2 2) = some dst ∧
      x.c.tensor? (fieldAt bytes 4 2) = some m ∧ msrchFormat src = true ∧ msrchFormat dst = true ∧ dst.fmt = src.fmt ∧
      m.fmt = 0xE ∧ inTiles m.base = false ∧ msrchHolds src bytes = true ∧ msrchHolds dst bytes = true ∧
      m.holds (fieldAt bytes 12 4) n (fieldAt bytes 8 4 / 8) (k / 8) = true ∧
      u = x.s ∧ c = mkCommand x .msrch l va bytes [src, dst, m] (k / 8))) ∧
  ∀ p, EngineWord (.eQuant p) p 3 none (memInfo false false (misaligned p 14 1)) (fun x bytes l va c u =>
    let m := fieldAt bytes 16 2
    let n := fieldAt bytes 18 2
    namesTensor bytes 0 ∧ zeros bytes 2 2 ∧ fieldAt bytes 8 4 % 128 = 0 ∧ bytes.getD 13 0 < 8 ∧
    bytes.getD 13 0 % 4 ≠ 3 ∧ zeros bytes 14 2 ∧ within bytes 16 2 1 128 ∧ within bytes 18 2 1 128 ∧
    (if quantFixed bytes then scaleNormal (fieldAt bytes 20 4) = true else zeros bytes 20 4) ∧ zeros bytes 24 8 ∧
    restartOk bytes m ∧ zeros bytes 36 28 ∧
    ∃ dst, x.c.tensor? (fieldAt bytes 0 2) = some dst ∧ dst.lay = false ∧ inTiles dst.base = false ∧
      (dst.fmt = 0x10 ∨ dst.fmt = 5 + bytes.getD 13 0 % 4) ∧
      dst.holds (fieldAt bytes 4 4) m (fieldAt bytes 8 4) n = true ∧
      tileBeyond x.s x.w [tileBase + 65536 * bytes.getD 12 0] = none ∧
      u = x.s ∧ c = mkCommand x .quant l va bytes [dst] m)

/-- R318, R319, R324 to R328: `e.ksel.thr`, `e.ksel.topk`, `e.kgat` and `e.ksum` give the copy engine their command where the
key tensor is summarised, its pages and the list's place are valid. That the restart word of `e.kgat` is judged against the list's count
as read at issue is the model's reading (log 54): R319 reads the count when the command starts. -/
def Obligations.SelectionCommands : Prop :=
  let ranged (x : Cx) (bytes : List Nat) (key : Tensor) : Prop :=
    namesTensor bytes 0 ∧ zeros bytes 2 2 ∧ within bytes 8 4 1 65536 ∧ restartOk bytes (fieldAt bytes 8 4) ∧
    x.c.tensor? (fieldAt bytes 0 2) = some key ∧ key.sumd = true ∧ fieldAt bytes 4 4 + fieldAt bytes 8 4 ≤ key.pages
  (∀ q ∈ ([(Instr.eKselThr, EngineOp.kselThr, false), (Instr.eKselTopk, EngineOp.kselTopk, true)] :
      List ((Nat → Nat → Instr) × EngineOp × Bool)),
    ∀ p t, EngineWord (q.1 p t) p 2 (some t) (bareInfo (misaligned p 14 1)) (fun x bytes l va c u =>
      let tau := fieldAt bytes 12 4
      let cap := fieldAt bytes 36 4
      ∃ key, ranged x bytes key ∧
        (if q.2.2 then 1 ≤ tau ∧ tau ≤ cap else (Fmt.f32.decode tau).isNan = false) ∧ fieldAt bytes 16 8 % 4 = 0 ∧
        fieldAt bytes 24 8 % 4 = 0 ∧ inShare x.s x.w (fieldAt bytes 24 8) (4 + 4 * cap) = true ∧ within bytes 36 4 1 65536 ∧
        zeros bytes 40 24 ∧ u = x.s ∧ c = mkCommand x q.2.1 l va bytes [key] (fieldAt bytes 8 4))) ∧
  (∀ p t, EngineWord (.eKgat p t) p 2 (some t) (bareInfo (misaligned p 14 1)) (fun x bytes l va c u =>
    let dest (es : Nat) (d : Tensor) : Prop := d.isWeight = false ∧ inTiles d.base = false ∧ elemBytes d.fmt = es ∧
      inResidency d.base = false ∧ inNodes d.base = false
    namesTensor bytes 0 ∧ namesTensor bytes 2 ∧ namesTensor bytes 4 ∧ namesTensor bytes 6 ∧ fieldAt bytes 8 8 % 4 = 0 ∧
    inShare x.s x.w (fieldAt bytes 8 8) 4 = true ∧ zeros bytes 20 8 ∧ barOk x.w bytes ∧ zeros bytes 36 28 ∧
    ∃ n k v kd vd, (fieldAt bytes 32 4 = 0 ∧ n = 0 ∨ restartV bytes = true ∧ restartAt bytes < n ∧
        ∃ b r, readMem x.s x.w.ctx x.w.block 3 (fieldAt bytes 8 8) 4 = .ok (b, r) ∧ n = leNat b) ∧ x.c.tensor? (fieldAt bytes 0 2) = some k ∧ x.c.tensor? (fieldAt bytes 2 2) = some v ∧
      x.c.tensor? (fieldAt bytes 4 2) = some kd ∧ x.c.tensor? (fieldAt bytes 6 2) = some vd ∧ k.sumd = true ∧
      v.rows = k.rows ∧ elemBytes v.fmt = elemBytes k.fmt ∧ v.isWeight = false ∧ inTiles v.base = false ∧
      dest (elemBytes k.fmt) kd ∧ dest (elemBytes k.fmt) vd ∧ u = (expectSignal x.s x.w bytes).1 ∧
      c = { mkCommand x .kgat l va bytes [k, v, kd, vd] n with signal := (expectSignal x.s x.w bytes).2 })) ∧
  ∀ p t, EngineWord (.eKsum p t) p 2 (some t) (bareInfo (misaligned p 14 1)) (fun x bytes l va c u =>
    ∃ key, ranged x bytes key ∧ zeros bytes 12 20 ∧ zeros bytes 36 28 ∧
      u = x.s ∧ c = mkCommand x .ksum l va bytes [key] (fieldAt bytes 8 4))

/-- R267, R270, R295, R342: `e.tdset` writes a whole descriptor or traps; `e.bind` opens or closes a pass; `e.relaunch` queues a
relaunch of a registered launch or traps. With no active lane each does nothing. -/
def Obligations.Registrations : Prop :=
  ∀ p s x, Begins s (bareInfo (misaligned p 14 1)) x →
    (x.act = 0#32 → x.Completes (.eTdset p) x.s x.wd ∧ (∀ k, x.Completes (.eBind p k) x.s x.wd) ∧ x.Completes (.eRelaunch p) x.s x.wd) ∧
    (∀ l va bytes t, x.ReadsBlock p 136 8 l va bytes t →
      let id := fieldAt bytes 0 2
      let d := readTensor id (bytes.drop 8)
      let others := (x.c.tensors.filter (fun u => u.sumd && u.id != id)).length
      (id ≤ 4095 → zeros bytes 2 6 → tensorOk d (bytes.drop 8) others = true →
        exec (.eTdset p) x.s = .next (x.done (t.updCtx x.w.ctx (fun c => { c with tensors := d :: c.tensors.filter (fun u => u.id != id) }))
          (syncWaits t x.wd))) ∧
      (¬ (id ≤ 4095 ∧ zeros bytes 2 6 ∧ tensorOk d (bytes.drop 8) others = true) →
        exec (.eTdset p) x.s = .next (trapNow t x.sel (oneLane l) 0x2F 0 [id]))) ∧
    ∀ l va bytes t, x.ReadsBlock p 64 64 l va bytes t →
      (∀ k h v, fieldAt bytes 8 8 % 4 = 0 → bytes.getD 15 0 = 0 → bytes.getD 16 0 ≤ 7 → bytes.getD 17 0 ≤ 3 → zeros bytes 18 6 →
        fieldAt bytes 24 8 % 8 = 0 → zeros bytes 40 24 → readHeader t x.w l (fieldAt bytes 0 8) = .ok (h, v) →
        setStatus h = 2 → slotPass v x.w.ctx k = none → attFmt h (bytes.getD 16 0) ≤ 2 → inFixedWindow (attBase h (bytes.getD 16 0)) = false →
        ∃ q, exec (.eBind p k) x.s = .next (x.done { v with passes := v.passes ++ [q], nextId := v.nextId + 1 } (syncWaits v (syncWaits t x.wd))) ∧
          q.id = v.nextId ∧ q.ctx = x.w.ctx ∧ q.slot = k ∧
          q.launch = x.w.launch ∧ q.setAddr = fieldAt bytes 0 8 ∧ q.pixel = fieldAt bytes 8 8 ∧ q.att = bytes.getD 16 0 ∧ q.op = bytes.getD 17 0 ∧
          q.done = fieldAt bytes 24 8 ∧ q.doneVal = fieldAt bytes 32 8 ∧ q.open_ = true ∧ q.tris = [] ∧ q.frags = [] ∧ q.failed = none) ∧
      (∀ k q, zeros bytes 0 20 → bytes.getD 20 0 = 1 → zeros bytes 21 43 → slotPass t x.w.ctx k = some q → q.open_ = true →
        exec (.eBind p k) x.s = .next (x.done (closePass t q.id) (syncWaits (closePass t q.id) (syncWaits t x.wd)))) ∧
      (zeros bytes 4 4 → fieldAt bytes 8 8 % 8 = 0 → fieldAt bytes 16 8 < 2 ^ 63 → zeros bytes 24 40 →
        ((∀ r ∈ x.c.traced, r.launchId ≠ fieldAt bytes 0 4) →
          exec (.eRelaunch p) x.s = .next (trapNow t x.sel (oneLane l) 0x2E 0 [fieldAt bytes 0 4])) ∧
        ((∃ r ∈ x.c.traced, r.launchId = fieldAt bytes 0 4) → (queuedRelaunches t x.w.ctx).length < 16 → orderAt t x.w t.nextId true true = true →
          ∃ u j, exec (.eRelaunch p) x.s = .next (x.done { u with jobs := u.jobs ++ [j], nextId := u.nextId + 1 } (syncWaits u (syncWaits t x.wd))) ∧
            u = (match x.w.core? with | some core => pushLines t core | none => t) ∧ j.ctx = x.w.ctx ∧ j.source = .relaunch ∧
            j.state = .held ∧ fieldAt j.bytes 8 4 = fieldAt bytes 0 4 ∧ fieldAt j.bytes 24 8 = fieldAt bytes 8 8 ∧
            fieldAt j.bytes 32 8 = fieldAt bytes 16 8))

/-- R242, R245, R294, R299: `e.spawn`, `e.spawn.die`, `e.enq`, `e.emit` and `e.ssbld` issue their operation. Where `e.enq` names a
missing queue, a warp that is no pixel warp emits, or a pixel lane emits again, the word traps. The index and the room of an
enqueued packet, and the reads of spawned records, come later, by events (RecordsArrive). -/
def Obligations.RecordsIssue : Prop :=
  (∀ p r s x places, Begins s (bareInfo (misaligned p 14 1)) x →
    let addr (l : Nat) : Nat := x.w.pair l p
    judgeLanes x.s x.c x.w.block .load 0 64 addr x.act = .ok places → absentStop x.c places addr = none → x.w.outstanding 1 < 63 →
    let spawns (i : Instr) (to_ : Nat → Nat) : Prop :=
      (∀ l, inMask x.act l = true → ∃ k ∈ enabledCores x.s.mod.snapshot, dieOf k = to_ l) →
      (x.act ≠ 0#32 → exec i x.s = .next (x.done (numbered x.s) (issuedOp x x.wd 1 .spawn
        (places.map (fun q => { mkPart q.1 (addr q.1) 64 q.2 0 0 with args := [to_ q.1, x.sel.first.toNat, x.run.toNat] })) 0 none
        .running [] 0#32))) ∧
      (x.act = 0#32 → exec i x.s = .next (retireAll (x.done (numbered x.s)
        (issuedOp x x.wd 1 .none [] 0 none .done [] 0#32)) x.w.id 1))
    (Ready x.w x.act [p, p + 1] [] → spawns (.eSpawn p) (fun _ => dieOf ((x.w.core?).getD 0))) ∧
    (Ready x.w x.act [p, p + 1, r] [] → spawns (.eSpawnDie p r) (fun l => x.w.val l r % 4))) ∧
  (∀ p q s x, Begins s (bareInfo (misaligned p 14 1)) x →
    (x.act = 0#32 → x.w.outstanding 1 < 63 → exec (.eEnq p q) x.s = .next (retireAll (x.done (numbered x.s)
      (issuedOp x x.wd 1 .none [] x.scope none .done [] 0#32)) x.w.id 1)) ∧
    (x.act ≠ 0#32 → Ready x.w (oneLane (leadOf x.act)) [p, p + 1] [] → (∀ k ∈ x.c.queues, k.number ≠ q) →
      exec (.eEnq p q) x.s = .next (trapNow x.s x.sel (oneLane (leadOf x.act)) 0x34 0 [q])) ∧
    ∀ l va bytes t, x.ReadsBlock p 64 64 l va bytes t → (∃ k ∈ x.c.queues, k.number = q) → bytes.getD 0 0 ≠ 0 → x.w.outstanding 1 < 63 →
      exec (.eEnq p q) x.s = .next (x.done (numbered t) (issuedOp { x with s := t } (syncWaits t x.wd) 1 (.enq q bytes none false)
        [mkPart l 0 0 ⟨.absent, none⟩ 0 0] 0 none .running [] 0#32))) ∧
  (∀ p s x places, Begins s (bareInfo (misaligned p 14 1)) x → Ready x.w x.act [p, p + 1] [] →
    judgeLanes x.s x.c x.w.block .load 0 16 (fun l => x.w.pair l p) x.act = .ok places →
    let again := maskOf (fun l => inMask x.act l && (x.w.lane l).emitted)
    (x.act ≠ 0#32 → (∀ a b c, x.w.kind ≠ .pixel a b c) → exec (.eEmit p) x.s = .next (trapNow x.s x.sel x.act 0x2D 0 [])) ∧
    ((∃ a b c, x.w.kind = .pixel a b c) → again ≠ 0#32 → exec (.eEmit p) x.s = .next (trapNow x.s x.sel again 0x2D 0 [])) ∧
    ((x.act = 0#32 ∨ ∃ a b c, x.w.kind = .pixel a b c) → (∀ l, inMask x.act l = true → (x.w.lane l).emitted = false) →
      x.w.outstanding 1 < 63 →
      x.IssuesOp (.eEmit p) (x.wd.mapLanes x.act (fun _ y => { y with emitted := true })) 1 .emit
        (places.map (fun q => mkPart q.1 (x.w.pair q.1 p) 16 q.2 0 0)) 0 [] 0#32)) ∧
  ∀ p tg s x, Begins s (bareInfo (misaligned p 14 1)) x → x.w.outstanding 2 < 63 →
    (x.act = 0#32 → exec (.eSsbld p tg) x.s = .next (retireAll (x.done (clearTag (numbered x.s) x.w (some tg))
      (issuedOp x x.wd 2 .none [] x.scope (some tg) .done [] 0#32)) x.w.id 2)) ∧
    ∀ l va h t u, x.ReadsBlock p 256 64 l va h t →
      (buildable t x.w.ctx va h = false → exec (.eSsbld p tg) x.s = .next (trapNow t x.sel (oneLane l) 0x2B va [])) ∧
      (buildable t x.w.ctx va h = true → writeMem t x.w.ctx x.w.block 3 (va + 29) [1] = .ok u →
        ∃ v b w', exec (.eSsbld p tg) x.s = .next (x.done (clearTag { numbered v with builds := v.builds ++ [b], nextId := v.nextId + 2 } x.w (some tg)) w') ∧
          v = traceWrite u x.w.ctx x.w.launch (x.w.origin l) (va + 29) 1 ∧ b.setAddr = va ∧ b.header = h ∧ b.ctx = x.w.ctx ∧
          b.op = some v.nextId ∧ b.id = v.nextId + 1 ∧ w'.issuedOn 2 = x.w.issuedOn 2 + 1 ∧
          ∃ o ∈ w'.ops, o.id = v.nextId ∧ o.counter = 2 ∧ o.tag = some tg ∧ o.state = .running)

/-- R18, R137 to R139, R141, R171, R197, R342: the waits of a warp end. A run whose wait is over goes on at the next word, one
held before issue at its own word; every other lane keeps its place. Step control is off. A monitor beyond a slice's 128 is
read again by firmware, which ends its wait where the condition holds (log 33). Which failed operation a wait takes and which lanes it
names are the model's readings (logs 15, 23). -/
def Obligations.WaitsEnd : Prop :=
  (∀ s wid lane w c next since, s.awakeWarp? wid = some w → s.ctx? w.ctx = some c → c.stepping = false →
    let run := waitingRun w lane
    let waits (what : Wait) : Prop := (w.lane lane).cond = .waiting what next since
    (∀ below l, waits (.counters below l) →
      (w.ops.filter (fun o => decide (o.seq < below.getD o.counter 0)) = [] →
        exec (.waitComplete wid lane) s = .next (endWait (s.updWarp wid (fun w => clearMarks w below)) wid run next)) ∧
      ∀ o f, (w.ops.filter (fun o => decide (o.seq < below.getD o.counter 0))).find? (fun o => o.state != .done) = some o →
        o.state = .failed f → exec (.waitComplete wid lane) s =
          .next (takeTrap (retireFailed s wid o) wid run (w.lane lane).pc (if f.lanes = 0#32 then run else f.lanes) f.cause f.addr f.detail)) ∧
    (∀ sc id ph sync b, waits (.barrier sc id ph sync) → barOf s w sc id = some b → ph < b.phase →
      exec (.waitComplete wid lane) s =
        .next (endWait (s.updWarp wid (fun w => w.mapLanes run (fun _ y => y.dropArrival sc id))) wid run next)) ∧
    (∀ k, waits (.full k) → w.outstanding k < 63 → exec (.waitComplete wid lane) s = .next (endWait s wid run (w.lane lane).pc)) ∧
    (waits .relaunch → (queuedRelaunches s w.ctx).length < 16 → orderAt s w s.nextId true true = true →
      exec (.waitComplete wid lane) s = .next (endWait s wid run (w.lane lane).pc)) ∧
    (∀ all mask, waits (.tags all mask) →
      (let tags := tagMap c ((homeCore s w).getD 0)
       if all then tags &&& mask = mask else mask = 0#64 ∨ tags &&& mask ≠ 0#64) →
      exec (.tagWaitComplete wid lane) s = .next (endWait s wid run next)) ∧
    (∀ op addr n v, op ≠ 16 → waits (.monitor op addr n v true) → exec (.monitorWake wid lane) s = .next (endWait s wid run next)) ∧
    (∀ op addr n v hit slice, waits (.monitor op addr n v hit) → monitorSlice s c w (w.lane lane) = some slice →
      128 < sliceMonitors s slice since → (∀ k a d, readChunk s c w.block 0 addr n ≠ .error (.bad k a d)) →
      (hit = true ∨ op % 8 = 6 ∨ monitorHolds op n (wordNow s c w.block addr n) v = true) →
      exec (.monitorReread wid lane) s = .next (endWait s wid run next)) ∧
    ∀ vas, waits (.pages vas) → pagesReady s c vas = true →
      exec (.pageWaitRetry wid lane) s = .next (endWait s wid run (w.lane lane).pc)) ∧
  ∀ s wid w run pc, s.warp? wid = some w →
    let t := endWait s wid run pc
    { t with warps := s.warps } = s ∧ (∀ j, j ≠ wid → t.warp? j = s.warp? j) ∧
    ∃ v, t.warp? wid = some v ∧ { v with lanes := w.lanes } = w ∧ ∀ k, k < 32 →
      (v.lane k).pc = (if inMask run k then pc else (w.lane k).pc) ∧ (v.lane k).preds = (w.lane k).preds ∧
      ((∀ j, j < 32 → inMask run j = false → (w.lane j).isWaiting = false) →
        (v.lane k).cond = if inMask run k then .ready else (w.lane k).cond)

/-- R171, R181 to R185, R187, R189, R191 to R193, R200 to R202, R204: accesses perform in plain memory. A load gives the
little-endian value, with its residency flag where it is asked for, and zero on an absent page; a store leaves its value, an atomic does
both at once, lanes in ascending order; a reduction leaves its partial in the core's copy of the line, which a merge brings home; a
texture query reads its descriptor and a fetch its texel; every other byte of memory and every other register stays. When an
operation performs is the schedule's choice (log 15). -/
def Obligations.AccessesPerform : Prop :=
  let words (n : Nat) : Nat := (n + 3) / 4
  let extended (sgn : Bool) (n v : Nat) : Nat := if sgn then (BitVec.ofInt 32 (signed (8 * n) v)).toNat else v
  (∀ s oid w o p c d n sgn pr acq pa l, Alone s oid w o [p] c → o.kind = .load d n sgn false pr acq → n ∈ [1, 2, 4, 8, 16] →
    (sgn = true → n ≤ 4) → p.size = n → d + words n ≤ w.alloc → Plain s c w.block .read 0 p.va n pa l →
    ∃ t, exec (.loadRetire oid (2 ^ p.lane)) s = .next t ∧ t.mem = s.mem ∧
      Retired t w (wordsAt p.lane d (words n) (extended sgn n (Memory.readN s.mem pa n))) ∧
      ∃ v, t.warp? w.id = some v ∧ v.absent = w.absent ∧ (pr = true → ∀ j, j < 32 → ∀ k, k < 8 →
        (v.lane j).pred k = (if ((w.lane j).pred k).pend = some o.seq then { (w.lane j).pred k with val := decide (j = p.lane) }
          else (w.lane j).pred k))) ∧
  (∀ s oid w o p c d n sgn acq pa l, Alone s oid w o [p] c → o.kind = .load d n sgn true false acq → n ∈ [1, 2, 4, 8, 16] →
    (sgn = true → n ≤ 4) → p.size = n → d + words n ≤ w.alloc → Plain s c w.block .read 0 p.va n pa l →
    ∃ t, exec (.loadRetire oid (2 ^ p.lane)) s = .next t ∧ t.mem = s.mem ∧ ∃ v, t.warp? w.id = some v ∧ v.ops = [] ∧
      ∀ j, j < 32 → ∀ m, (inMask w.live j = true ∨ ¬ (d ≤ m ∧ m < d + words n)) →
        v.reg j m = (wordsAt j d (words n) (extended sgn n (Memory.readN s.mem pa n)) j m).getD (w.reg j m)) ∧
  (∀ s oid w o p c d n sgn pr acq l, Alone s oid w o [p] c → o.kind = .load d n sgn false pr acq → n ∈ [1, 2, 4, 8, 16] →
    p.size = n → d + words n ≤ w.alloc → resolve s c w.block .read 0 p.va n = .ok ⟨.absent, some l⟩ →
    ∃ t, exec (.loadRetire oid (2 ^ p.lane)) s = .next t ∧ t.mem = s.mem ∧ Retired t w (wordsAt p.lane d (words n) 0) ∧
      ∃ v, t.warp? w.id = some v ∧ v.absent = (w.absent ||| oneLane p.lane) ∧
        ∀ j, j < 32 → ∀ k, k < 8 → ((w.lane j).pred k).pend = some o.seq → pr = true → ((v.lane j).pred k).val = false) ∧
  (∀ s oid w o p c rel n pa l, Alone s oid w o [p] c → o.kind = .store rel → p.size = n → n ∈ [1, 2, 4, 8, 16] →
    Plain s c w.block .write 1 p.va n pa l →
    Memory.wf s.mem = true → ∃ t, exec (.storePerform oid (2 ^ p.lane)) s = .next t ∧ Stored s t pa n p.data ∧
      ∃ v, t.warp? w.id = some v ∧ v.ops = [] ∧ v.regs = w.regs) ∧
  (∀ s oid w o p c d n pa l, Alone s oid w o [p] c → p.size = n → n = 4 ∨ n = 8 → d + words n ≤ w.alloc →
    Plain s c w.block .atomic 2 p.va n pa l → Memory.wf s.mem = true →
    let old := Memory.readN s.mem pa n
    (∀ fn, fn.bytes = n → o.kind = .atomic fn d → ∃ t, exec (.atomicPerform oid (2 ^ p.lane)) s = .next t ∧
      Stored s t pa n (fn.apply old p.data) ∧ Retired t w (wordsAt p.lane d (words n) old) ∧
      ∃ v, t.warp? w.id = some v ∧ ∀ j, j < 32 → (v.lane j).fpflags = ((w.lane j).fpflags ||| if j = p.lane ∧ (fn = .minF32 ∨ fn = .maxF32) ∧
        ((Fmt.f32.decode old).isSignalling = true ∨ (Fmt.f32.decode p.data).isSignalling = true) then flagNV else 0#5)) ∧
    (o.kind = .cas d n → ∃ t, exec (.atomicPerform oid (2 ^ p.lane)) s = .next t ∧
      Stored s t pa n (if old = p.expect then p.data else old) ∧ Retired t w (wordsAt p.lane d (words n) old))) ∧
  (∀ s oid w o p q c d fn pa l, Alone s oid w o [p, q] c → o.kind = .atomic fn d → p.size = fn.bytes → q.size = fn.bytes →
    p.va = q.va → p.lane < q.lane → d + words fn.bytes ≤ w.alloc → Plain s c w.block .atomic 2 p.va fn.bytes pa l → l.trk = false →
    Memory.wf s.mem = true → (∀ acc x, resolve { s with mem := Memory.writeN s.mem pa fn.bytes x } c w.block acc 2 p.va fn.bytes =
      resolve s c w.block acc 2 p.va fn.bytes) →
    let old := Memory.readN s.mem pa fn.bytes
    let mid := fn.apply old p.data % 256 ^ fn.bytes
    ∃ t, exec (.atomicPerform oid (2 ^ p.lane + 2 ^ q.lane)) s = .next t ∧ Stored s t pa fn.bytes (fn.apply mid q.data) ∧
      Retired t w (fun j n => (wordsAt p.lane d (words fn.bytes) old j n).or (wordsAt q.lane d (words fn.bytes) mid j n))) ∧
  (∀ s oid w o p c fn pa l core, Alone s oid w o [p] c → o.kind = .reduce fn → p.size = fn.bytes → w.core? = some core →
    Plain s c w.block .atomic 2 p.va fn.bytes pa l → lineMonitored s (pa / 128) = false →
    ∃ t, exec (.reductionPlace oid (2 ^ p.lane)) s = .next t ∧ t.mem = s.mem ∧
      t.lines = [{ core := core, line := pa / 128, parts := [{
        pa := pa, va := p.va, ctx := w.ctx, fn := fn, value := fn.apply fn.identity p.data, op := o.id }] }] ∧
      ∃ v, t.warp? w.id = some v ∧ v.ops = [] ∧ v.regs = w.regs) ∧
  (∀ s u q c l, s.lines = [u] → u.parts = [q] → s.ctx? q.ctx = some c → leafOf s c q.va = some l → l.sum = false →
    badAt s q.pa q.fn.bytes = none → Memory.wf s.mem = true → ∃ t, exec (.updateLineMerge u.core u.line) s = .next t ∧ t.lines = [] ∧
      Stored s t q.pa q.fn.bytes (q.fn.apply (Memory.readN s.mem q.pa q.fn.bytes) q.value)) ∧
  (∀ s oid w o p c d b fn, Alone s oid w o [p] c → o.kind = .texq fn d → d + 2 ≤ w.alloc →
    readMem (asReader s o.id) w.ctx w.block 0 p.va 64 = .ok (b, asReader s o.id) → descOk b = true →
    let e := TexDesc.read b
    let level := p.args.getD 0 0
    ∃ t, exec (.texRetire oid) s = .next t ∧ t.mem = s.mem ∧
      (fn = 0 → Retired t w (wordsAt p.lane d 2
        (if e.levels ≤ level then 0 else max 1 (e.width / 2 ^ level) + 2 ^ 32 * max 1 (e.height / 2 ^ level)))) ∧
      (fn = 1 → Retired t w (wordsAt p.lane d 1 e.levels)) ∧
      (fn = 2 → Retired t w (wordsAt p.lane d 1 (e.fmt + 256 * e.flags)))) ∧
  (∀ s oid w o p c d b fn bytes, Alone s oid w o [p] c → o.kind = .tex fn d → d + 4 ≤ w.alloc →
    readMem (asReader s o.id) w.ctx w.block 0 p.va 64 = .ok (b, asReader s o.id) → descOk b = true →
    let e := TexDesc.read b
    let r := { asReader s o.id with free := s.free + 16 }
    let plan := planOf e fn p.args s.free
    plan ≠ .unstated → bytes.length = (planRanges e plan).length →
    (∀ q ∈ (planRanges e plan).zip bytes, readMem r w.ctx w.block 0 q.1.1 q.1.2 = .ok (q.2, r)) →
    let texels := (plan.taps.zip bytes).map (fun x => texelChannels e x.2 x.1.2.1 x.1.2.2)
    let value (k : Nat) : Nat := (texResult e (bytes.getLast?.getD []) plan texels).getD k 0
    planRanges e plan = plan.taps.map (fun t => (unitAddr e t.1 t.2.1 t.2.2, unitBytes e.fmt)) ++ (if e.fmt = 0x30 then [(e.net, 512)] else []) ∧
    ∃ t, exec (.texRetire oid) s = .next t ∧ t.mem = s.mem ∧ Retired t w (fun j n => if j = p.lane ∧ d ≤ n ∧ n < d + 4 then
      some (BitVec.ofNat 32 (if (Fmt.f32.decode (value (n - d))).isNan then 0x7FC00000 else value (n - d))) else none)) ∧
  ∀ s oid w o p c d b px, Alone s oid w o [p] c → o.kind = .tex 3 d → d + 4 ≤ w.alloc →
    readMem (asReader s o.id) w.ctx w.block 0 p.va 64 = .ok (b, asReader s o.id) → descOk b = true →
    let e := TexDesc.read b
    let x := p.args.getD 0 0
    let y := p.args.getD 1 0
    let level := p.args.getD 2 0
    let r := { asReader s o.id with free := s.free + 16 }
    e.fmt = 1 → e.srgb = false → level < e.levels → x < levelWidth e level → y < levelHeight e level →
    readMem r w.ctx w.block 0 (unitAddr e level x y) 4 = .ok (px, r) → (∀ v ∈ px, v < 256) →
    ∃ t, exec (.texRetire oid) s = .next t ∧ t.mem = s.mem ∧ Retired t w (fun j n =>
      if j = p.lane ∧ d ≤ n ∧ n < d + 4 then some (BitVec.ofNat 32 (roundFrac .f32 .rne false false (px.getD (n - d) 0) 255).1) else none)

/-- R252, R273 to R278, R328, R363: a command that may go on does its next unit, and may write its restart word there; one whose
last unit is next completes, with what it writes at its end, under the event of its kind; one that stalled goes on once its page is
present; one that cannot be performed stops, with nothing of the part that failed but its reads. A restart word whose page is not
present is owed: the page is requested, and the command leaves once the word is written. What the units write is in EngineWrites.
That a tile transfer whose units share a sector goes on to where its sectors part, that a fault leaves the restart word of what is
done, and how a word that is owed is written are log 50, the model's choice. -/
def Obligations.EngineProgress : Prop :=
  let bounded (t : State) (w : Warp) (o : Op) (k : Command) : State :=
    let r := putRestart t w o.id k (restartWord k)
    if r.2.owed.isNone then setCommand r.1 o r.2 else setCommand t o k
  (∀ s oid w o c, readyCommand s oid = some (w, o, c) → oid < 2 ^ 63 → writesAway s o.id = false → c.closing = none →
    (∀ t k, prepared c = false → attempt s o.id (fun s => prepare s w c) = .ok (t, k) →
      exec (.engineUnitWrite oid) s = .next (setCommand t o k) ∧
      exec (.engineUnitWrite (oid + 2 ^ 63)) s = .next (bounded t w o k)) ∧
    (∀ t k, prepared c = true → c.op ≠ .ksum → atLast c = false → attempt s o.id (fun s => doUnit s w o.id c) = .ok (t, k) →
      exec (.engineUnitWrite oid) s = .next (setCommand t o k) ∧
      exec (.engineUnitWrite (oid + 2 ^ 63)) s = .next (bounded t w o k)) ∧
    (∀ t k, prepared c = true → c.op = .ksum → c.progress < c.total → attempt s o.id (fun s => ksumUnit s w o.id c) = .ok (t, k) →
      exec (.ksumInstall oid) s = .next (setCommand t o k) ∧
      exec (.ksumInstall (oid + 2 ^ 63)) s = .next (bounded t w o k)) ∧
    (c.op = .ksum → c.progress = c.total → exec (.ksumComplete oid) s = .next (closeCommand s w o c none)) ∧
    (c.op = .ksum → c.progress = c.total → exec (.engineUnitWrite oid) s = .next s ∧ exec (.engineFaultStop oid) s = .next s) ∧
    (∀ t k f, prepared c = true → c.op ≠ .ksum → atLast c = true → attempt s o.id (fun s => lastPart s w o.id c) = .ok (t, k, some f) →
      writesAway t o.id = false →
      let ends (e : Nat → Instr) : Prop := exec (e oid) s = .next (closeCommand t w o k f)
      (c.op = .cpy → ends .cpyComplete) ∧ (c.op = .gath → ends .gathComplete) ∧ (∀ fn, c.op = .scat fn → ends .scatComplete) ∧
      (c.op = .mma → ends .mmaComplete) ∧ (c.op = .msrch → ends .msrchComplete) ∧ (c.op = .quant → ends .quantComplete) ∧
      ((c.op = .kselThr ∨ c.op = .kselTopk) → ends .kselComplete) ∧ (c.op = .kgat → ends .kgatComplete) ∧
      (c.op ≠ .ssbld → s.awakeOp? oid = some (w, o) → o.tag ≠ none → ends .tagSet)) ∧
    (∀ r e a, nextError s w o.id c = some (.acc r e) → accAddr e = some a →
      let d := settleCommand (keepReads s r) w o.id c
      let own (k : Nat) : Bool := match e with | .trap j _ _ => j == k | _ => false
      ∀ f : OpFault, f = (if own 0x19 then { cause := 0x19, lanes := 0#32, addr := a, detail := [] }
          else if own 0x1A then { cause := 0x1A, lanes := 0#32, addr := a, detail := [] }
          else { cause := 0x20, lanes := 0#32, addr := a, detail := [restartWord d.2] }) →
        let p := putRestart (stopWrites d.1 w o.id d.2) w o.id d.2 (restartWord d.2)
        (p.2.owed = none → exec (.engineFaultStop oid) s = .next (closeOp p.1 o (.failed f))) ∧
        (p.2.owed ≠ none → exec (.engineFaultStop oid) s =
          .next (setCommand p.1 o { p.2 with closing := some (some f), signal := none }))) ∧
    ∀ t f zero, nextError s w o.id c = some (.fault t f zero) →
      let d := settleCommand (keepReads s t) w o.id c
      let p := putRestart (stopWrites d.1 w o.id d.2) w o.id d.2 (if zero then 0 else restartWord d.2)
      (p.2.owed = none → exec (.engineFaultStop oid) s = .next (closeOp p.1 o (.failed f))) ∧
      (p.2.owed ≠ none → exec (.engineFaultStop oid) s =
        .next (setCommand p.1 o { p.2 with closing := some (some f), signal := none }))) ∧
  (∀ s oid w o c page, s.awakeOp? oid = some (w, o) → o.kind = .engine c → o.state = .running → c.stalled = some page →
    c.owed = none → c.closing = none → stallOver s w.ctx page = true → exec (.engineStallResume oid) s = .next (setCommand s o { c with stalled := none })) ∧
  (∀ s oid w o c v, s.awakeOp? oid = some (w, o) → o.kind = .engine c → o.state = .running → c.stalled = none → c.owed = some v →
    c.closing = none → let r := payRestart s w o.id c; exec (.engineStallResume oid) s = .next (setCommand r.1 o r.2)) ∧
  (∀ s oid w o c f, readyCommand s oid = some (w, o, c) → c.op = .cpy → c.closing = some f → c.owed = none →
    writesAway s o.id = false → exec (.cpyComplete oid) s =
      .next (closeOp (makeSignal s c.signal) o (match f with | none => .done | some f => .failed f))) ∧
  (∀ s w oid c v, c.op ≠ .ssbld →
    (∀ t, writeMem (asPinned s w) w.ctx w.block 3 (c.addr + 32) (natLe 4 v) = .ok t →
      putRestart s w oid c v = (pinsOf s t w, { c with owed := none })) ∧
    ∀ f page, writeMem (asPinned s w) w.ctx w.block 3 (c.addr + 32) (natLe 4 v) = .error (.wait f page) →
      putRestart s w oid c v = (requestPage s w.ctx page, { c with owed := some v })) ∧
  (∀ s w o c t, c.op ≠ .ssbld → writeMem (asPinned s w) w.ctx w.block 3 (c.addr + 32) [0, 0, 0, 0] = .ok t →
    writesAway (pinsOf s t w) o.id = false →
    closeCommand s w o c none = closeOp (makeSignal (pinsOf s t w) c.signal) o .done ∧
    ∀ f, closeCommand s w o c (some f) = closeOp (makeSignal (pinsOf s t w) c.signal) o (.failed f)) ∧
  (∀ c : Command, restartWord c = 2 ^ 31 + c.progress) ∧
  ∀ s w o c, s.op? o.id = some (w, c) → s.warp? w.id = some w → w.ops = [c] → c.state = .running → o.counter = c.counter →
    o.tag = none → (∀ v ∈ s.warps, v.id ≠ w.id → ∀ q ∈ v.ops, q.id ≠ o.id) → (∃ e, o.kind = .engine e) → w.live ≠ 0#32 →
    (closeOp s o .done).mem = s.mem ∧ ∃ v, (closeOp s o .done).warp? w.id = some v ∧ v = { w with ops := [] }

/-- R217, R277, R281, R283, R285, R288, R289, R319, R326, R328: what the units of engine commands write, and the masks that the
search of `e.msrch` may choose. Where the reads of a unit
give values and change nothing, its elements and their addresses follow from them; a tile transfer writes its sectors ascending,
each byte as the last element that covers it gives it; a write that stays in a line of plain memory stores its bytes there and
nothing else. Where a tile of `e.kgat` leaves its tensor, the rows that fit are written before TILE_RANGE. How far a part of a gather,
a quantisation or a gather of pages reaches is log 50; that `e.quant` with SCALEB = 0 writes no scale, and that its trailer's CRC is
over the blocks as they stand, is log 53: these are the model's reading. -/
def Obligations.EngineWrites : Prop :=
  (∀ s w oid c va bytes pa l x, s.ctx? w.ctx = some x → s.lines = [] → bytes ≠ [] → va % 128 + bytes.length ≤ 128 → inTiles va = false →
    Plain s x w.block .write 3 va bytes.length pa l → Memory.wf s.mem = true →
    ∃ t, engWrite s w oid c va bytes = .ok t ∧ Stored s t pa bytes.length (leNat bytes)) ∧
  (∀ addrs, (sectorsOf addrs).Pairwise (· < ·) ∧ ∀ k, k ∈ sectorsOf addrs ↔ ∃ a ∈ addrs, k = a / 32) ∧
  (∀ es k i, i < 32 → (sectorCells es k).getD i none =
    (es.reverse.find? (fun e => e.1 / 32 == k && decide (e.1 ≤ 32 * k + i) && decide (32 * k + i < e.1 + e.2.length))).map
      (fun e => e.2.getD (32 * k + i - e.1) 0)) ∧
  (∀ a cells, (cellRuns a cells).flatMap (fun e => (List.range e.2.length).map (fun i => (e.1 + i, e.2.getD i 0))) =
    (cells.zip (regsFrom a cells.length)).filterMap (fun q => q.1.map (fun b => (q.2, b)))) ∧
  (∀ s w oid c es, (writeTile s w oid c es = writeRuns w oid c s
    ((sectorsOf (es.map Prod.fst)).flatMap (fun k => cellRuns (32 * k) (sectorCells es k))))) ∧
  (∀ s w oid c v, c.op = .cpy →
    let row := ((cpyFrom c).drop c.held.length).take (fieldAt c.params 24 4)
    let k := (sectorsOf (cpyTo c)).getD c.progress 0
    (Finds s w c (cpyElem c) row v → prepare s w c = .ok (s, { c with held := c.held ++ row.map v })) ∧
    (prepared c = true ↔ fieldAt c.params 20 4 * fieldAt c.params 24 4 ≤ c.held.length) ∧
    ∀ t, writeRuns w oid c s (cellRuns (32 * k) (sectorCells ((cpyTo c).zip (c.held.map (natLe (cpyElem c)))) k)) = .ok t →
      doUnit s w oid c = .ok (t, { c with progress := c.progress + 1 })) ∧
  (∀ s w oid (c : Command) tbl dst (idx val : Nat → Nat) st t, c.op = .gath → c.tensor 0 = some tbl → c.tensor 1 = some dst → unitEnd c = c.progress + 1 →
    let n := min 8 (fieldAt c.params 16 4 - 8 * c.progress)
    let cols := fieldAt c.params 20 4
    let es := elemBytes tbl.fmt
    (∀ i, i < n → engNat s w c (fieldAt c.params 40 8 + 4 * (8 * c.progress + i)) 4 = .ok (idx i, s)) →
    (∀ i, i < n → idx i < tbl.rows → Finds s w c es (tileAddrs tbl (idx i) 1 (fieldAt c.params 4 4) cols) val) →
    st < 256 → (∀ i, i < 8 → bitAt st i = (decide (i < n) && decide (tbl.rows ≤ idx i))) →
    (∃ u, engWrite s w oid c (fieldAt c.params 48 8 + c.progress) [st] = .ok u) →
    writeTile s w oid c ((List.range n).flatMap (fun i => (List.range cols).map (fun j =>
      (dst.addr (fieldAt c.params 8 4 + (8 * c.progress + i)) (fieldAt c.params 12 4 + j),
        natLe es (if idx i < tbl.rows then val (tbl.addr (idx i) (fieldAt c.params 4 4 + j)) else 0))))) = .ok t →
    doUnit s w oid c = .ok (t, { c with progress := c.progress + 1, held := c.held ++ [st] })) ∧
  (∀ fn items a n,
    (combineItems fn [] items).filter (fun x => x.1 == a && x.2.1 == n) =
      (match items.filter (fun x => x.1 == a && x.2.1 == n) with
       | [] => []
       | x :: xs => [(a, n, xs.foldl (fun v y => reduceFn fn n v y.2.2) x.2.2)])) ∧
  (∀ s w oid c t u, (c.op = .gath ∧ t = s ∨ ∃ fn, c.op = .scat fn ∧ reduceItems w c oid fn s c.items = .ok t) →
    engWrite t w oid c (fieldAt c.params 48 8 + c.progress - c.held.length) c.held = .ok u →
    doFinish s w oid c = .ok (u, none)) ∧
  (∀ s w oid (c : Command) a b la (lb : Nat → List Line) (prior : Nat → Nat) t, c.op = .mma → c.tensor 0 = some a → c.tensor 1 = some b →
    let at_ := tileBase + 65536 * c.params.getD 20 0 + 512 * c.progress
    let n := fieldAt c.params 26 2
    mmaRow s w c a c.progress = .ok (la, s) → (∀ j, j < n → mmaColumn s w c b j = .ok (lb j, s)) →
    (if mmaFlag c.params 0 then ∀ j, prior j = 0 else ∀ j, j < n → engNat s w c (at_ + 4 * j) 4 = .ok (prior j, s)) →
    engWrite s w oid c at_ ((List.range n).flatMap (fun j => natLe 4 (mmaElement (isNarrow a.fmt) (prior j) la (lb j)))) = .ok t →
    doUnit s w oid c = .ok (t, { c with progress := c.progress + 1 })) ∧
  (∀ s w oid (c : Command) src dst m f v t, c.op = .msrch → c.tensor 0 = some src → c.tensor 1 = some dst → c.tensor 2 = some m →
    fmtOfCode src.fmt = some f →
    let row := fieldAt c.params 8 4 + 8 * c.progress
    let col := fieldAt c.params 12 4
    let n := fieldAt c.params 20 4
    let places := (List.range 8).flatMap (fun i => (List.range n).map (fun j => (i, j)))
    let code (i j : Nat) : Nat := v (msrchAddr src (row + i) (col + j))
    let kept (i j : Nat) : Bool := mask4 (searchMask (fun ra ca => msrchMagnitude (f.decode (code (i / 4 * 4 + ra) (j / 4 * 4 + ca)))) 8
      maskStart) (i % 4) (j % 4)
    n % 4 = 0 → Finds s w c (elemBytes src.fmt) (places.map (fun p => msrchAddr src (row + p.1) (col + p.2))) v →
    writeTile s w oid c (places.map (fun p =>
        (msrchAddr dst (row + p.1) (col + p.2), natLe (elemBytes src.fmt) (if kept p.1 p.2 then code p.1 p.2 else 0))) ++
      (List.range n).map (fun j => (m.addr (col + j) (row / 8), [((List.range 8).map (fun i => if kept i j then 2 ^ i else 0)).sum]))) = .ok t →
    doUnit s w oid c = .ok (t, { c with progress := c.progress + 1 })) ∧
  (∀ ra ca, ra < 4 → ca < 4 → mask4 maskStart ra ca = (decide (ca = ra) || decide (ca = (ra + 1) % 4))) ∧
  (∀ g n i, i < 4 → ((List.range 4).filter (fun j => mask4 (searchMask g n maskStart) i j)).length = 2 ∧
    ((List.range 4).filter (fun j => mask4 (searchMask g n maskStart) j i)).length = 2) ∧
  (∀ g m, ∀ r ∈ pairs4, ∀ k ∈ pairs4, ∀ u, swapGain g m r k = some u →
    (bestSwap g m = none → u ≤ 0) ∧ ∀ v x y, bestSwap g m = some (v, x, y) → u ≤ v ∧ 0 < v ∧ swapGain g m x y = some v) ∧
  (∀ (f : Fmt) k, (f.decode k).isFinite = true → (msrchMagnitude (f.decode k) : ℚ) = |(f.decode k).rat| * 2 ^ 149) ∧
  (∀ s w oid (c : Command) t f (x : Nat → Nat), c.op = .quant → c.tensor 0 = some t → fmtOfCode (quantCode c.params) = some f →
    let col := fieldAt c.params 8 4
    let at_ (i j : Nat) : Nat := tileBase + 65536 * c.params.getD 12 0 + 512 * i + 4 * j
    let cols := List.range (fieldAt c.params 18 2)
    let xs (i : Nat) : List Nat := cols.map (fun j => x (at_ i j))
    let scale (i : Nat) : Nat := quantScale f (if quantFixed c.params then some (fieldAt c.params 20 4) else none) (xs i)
    (∀ u v y, unitEnd c = c.progress + 1 → Finds s w c 4 (cols.map (at_ c.progress)) x →
      let row := fieldAt c.params 4 4 + c.progress
      let n := t.blockNo row col
      (if t.scaleb = 0 then u = s else engWrite s w oid c (t.scaleb + 4 * n) (natLe 4 (scale c.progress)) = .ok u) →
      (if t.fmt = 0x10 then ∃ b, engNat u w c (t.tagb + n / 4) 1 = .ok (b, u) ∧ engWrite u w oid c (t.tagb + n / 4)
          [b - b / 4 ^ (n % 4) % 4 * 4 ^ (n % 4) + (quantCode c.params - 5) * 4 ^ (n % 4)] = .ok v
       else v = u) →
      writeTile v w oid c (((List.range 128).zip (quantSlot (quantCode c.params) ((xs c.progress).map
        (quantElement f (scale c.progress))))).map (fun q => (t.slotAddr row col + q.1, [q.2]))) = .ok y →
      doUnit s w oid c = .ok (y, { c with progress := c.progress + 1 })) ∧
    ∀ bytes u, t.trl = true →
      let m := fieldAt c.params 16 2
      let row := fieldAt c.params 4 4
      (∀ i, i < m → Finds s w c 4 (cols.map (at_ i)) x) →
      crcBlocks (fun s a n => engRead s w c a n) id t col s (regsFrom row m) = .ok (bytes, s) →
      engWrite s w oid c (t.scaleb - 32) ([amax ((List.range m).flatMap xs),
        ((List.range m).map (fun i => ((xs i).filter (quantCounted f (scale i))).length)).sum, crc32c bytes, m, row, col / 128, 0,
        0].flatMap (natLe 4)) = .ok u →
      doFinish s w oid c = .ok (u, none)) ∧
  (∀ s w oid (c : Command) t b, (c.op = .kselThr ∨ c.op = .kselTopk) → c.tensor 0 = some t →
    let g := fieldAt c.params 4 4 + c.progress
    engRead s w c (t.sumb + 4 * t.cols * g) (4 * t.cols) = .ok (b, s) →
    let h (i : Nat) : Nat := fieldAt b (2 * i) 2
    let bound := boundOf (c.selection t.cols).query ((List.range t.cols).map h) ((List.range t.cols).map (fun i => h (t.cols + i)))
    b.length = 4 * t.cols → doUnit s w oid c = .ok (s, { c with progress := c.progress + 1, held :=
      (selectPage (c.op == .kselTopk) (fieldAt c.params 12 4) (fieldAt c.params 36 4) (c.selection t.cols) g bound).held })) ∧
  (∀ s w oid c t u, (c.op = .kselThr ∨ c.op = .kselTopk) → c.tensor 0 = some t →
    let x := c.selection t.cols
    x.list.Pairwise (· < ·) ∧ (∀ g, g ∈ x.list ↔ ∃ b, (g, b) ∈ x.pages) ∧
    (engWrite s w oid c (fieldAt c.params 24 8) (natLe 4 x.list.length ++ x.list.flatMap (natLe 4)) = .ok u →
      doFinish s w oid c = .ok (u, if c.op = .kselThr ∧ fieldAt c.params 36 4 < x.count
        then some { cause := 0x2A, lanes := 0#32, addr := fieldAt c.params 24 8, detail := [x.count] } else none))) ∧
  (∀ s w oid c k v kd vd t u, c.op = .kgat → c.tensor 0 = some k → c.tensor 1 = some v → c.tensor 2 = some kd → c.tensor 3 = some vd →
    c.again = false →
    kgatWhole c k v kd vd c.progress = true → kgatEnd c k v kd vd = c.progress + 1 →
    ∀ g, kgatEntry c k c.progress = some g →
      let copies (s : State) (src dst : Tensor) (t : State) : Prop := copyElems s w oid c (elemBytes src.fmt)
        (tileAddrs src (64 * g) (min 64 (k.rows - 64 * g)) 0 src.cols)
        (tileAddrs dst (fieldAt c.params 16 4 + 64 * c.progress) (min 64 (k.rows - 64 * g)) 0 src.cols) = .ok t
      copies s k kd t → copies t v vd u → doUnit s w oid c = .ok (u, { c with progress := c.progress + 1 })) ∧
  (∀ s w oid c k v kd vd g, c.op = .kgat → c.tensor 0 = some k → c.tensor 1 = some v → c.tensor 2 = some kd → c.tensor 3 = some vd →
    kgatEntry c k c.progress = some g →
    let n := min 64 (k.rows - 64 * g)
    let row := fieldAt c.params 16 4 + 64 * c.progress
    let fits (src dst : Tensor) : Bool := dst.holds row n 0 src.cols
    let room (src dst : Tensor) : Nat := if src.cols ≤ dst.cols then min n (dst.rows - row) else 0
    let copies (s : State) (src dst : Tensor) (t : State) : Prop := copyElems s w oid c (elemBytes src.fmt)
      (tileAddrs src (64 * g) (room src dst) 0 src.cols) (tileAddrs dst row (room src dst) 0 src.cols) = .ok t
    (kgatWhole c k v kd vd c.progress = true ↔ fits k kd = true ∧ fits v vd = true) ∧
    (¬ (fits k kd = true ∧ fits v vd = true) → c.again = false → ∀ t u, copies s k kd t →
      (if fits k kd then copies t v vd u else u = t) → doUnit s w oid c = .ok (u, { c with again := true })) ∧
    (¬ (fits k kd = true ∧ fits v vd = true) → c.again = true → doUnit s w oid c = .error (.fault s
      { cause := 0x27, lanes := 0#32, addr := 0, detail := [if fits k kd then vd.id else kd.id] } false))) ∧
  (∀ s w oid c n from_ to_ v, Finds s w c n from_ v →
    copyElems s w oid c n from_ to_ = writeTile s w oid c (to_.zip (from_.map (fun a => natLe n (v a))))) ∧
  (∀ s w c t v, c.op = .ksum → c.tensor 0 = some t →
    let g := fieldAt c.params 4 4 + c.progress
    let n := min 64 (t.rows - 64 * g)
    Finds s w c (elemBytes t.fmt) (tileAddrs t (64 * g) n 0 t.cols) v → ∀ f, fmtOfCode t.fmt = some f →
    let of (ch : Nat) : Nat × Nat := channelBounds ((List.range n).map (fun i => f.decode (v (t.addr (64 * g + i) ch))))
    prepare s w c = .ok (s, { c with held := (List.range t.cols).map (fun ch => (of ch).1) ++ (List.range t.cols).map (fun ch => (of ch).2) })) ∧
  ∀ s w oid c t u, c.op = .ksum → c.tensor 0 = some t →
    engWrite s w oid c (t.sumb + 4 * t.cols * (fieldAt c.params 4 4 + c.progress)) (c.held.flatMap (natLe 2)) = .ok u →
    doUnit s w oid c = .ok (u, { c with held := [], progress := c.progress + 1 })

/-- R152 to R154, R242 to R245, R294, R303, R304: what spawned records, bins, builds and enqueued packets come to. Where an access
goes to the host or a peer, or waits, the event takes its steps one by one (log 13, log 52); here each is in reach. -/
def Obligations.RecordsArrive : Prop :=
  (∀ s oid w o, oid < 2 ^ 63 → (spawnGo s oid false).awakeOp? oid = some (w, o) → o.kind = .spawn → o.state = .running →
    (∀ p ∈ o.parts, p.done = true ∧ p.refused = none) → exec (.spawnRetire oid) s = .next (closeOp (spawnGo s oid false) o .done)) ∧
  (∀ s die i b c l, (s.bins.filter (fun b => b.die == die))[i]? = some b → s.ctx? b.ctx = some c → s.launch? b.launch = some l →
    c.live = true → c.preempt = .running → b.since + c.spawnTimer ≤ s.mod.clock → ∃ (t : State) (w : Warp), exec (.binTimerExpiry die i) s = .next t ∧
      t.warps = s.warps ++ [w] ∧ t.mem = s.mem ∧ w.kind = .formed ∧ w.launch = l.id ∧ w.alloc = max l.rec_.regs 16 ∧
      (∀ k ∈ t.bins, ¬ (k.die = die ∧ k.launch = b.launch ∧ k.entry = b.entry)) ∧
      ∀ k, k < 32 → ((w.lane k).isReady = decide (k < b.records.length)) ∧
        ∀ r, b.records[k]? = some r → (w.lane k).pc = BitVec.ofNat 56 b.entry ∧ ∀ n, n < 16 → w.reg k n = r.words.getD n 0#32) ∧
  (∀ s ctx die c x rest t, s.ctx? ctx = some c → c.live = true → c.preempt = .running → onRing c die = x :: rest →
    toBin s die x.launch x.entry ctx x.record = some t →
    exec (.spillRingMove ctx die) s = .next (t.updCtx ctx (fun c => { c with spilled := dropFirst (fun y => y.die == die) c.spilled }))) ∧
  (∀ s oid lane w p q, nodePart (spawnGo s oid false) oid lane .binner = some (w, p) → slotPass (spawnGo s oid false) w.ctx (p.field 56 1) = some q →
    p.field 56 1 < 8 → p.field 57 1 ≤ 2 → p.field 58 6 = 0 → q.open_ = true →
    exec (.binnerAccept oid lane) s = .next (putPart ((spawnGo s oid false).updPass q.id (fun q => { q with tris := q.tris ++ [{
      verts := (List.range 9).map (fun i => p.field (8 + 4 * i) 4), seq := p.field 44 4, attr := p.field 48 8, rate := p.field 57 1
      op := oid, lane := lane }] }))
      oid { p with done := true })) ∧
  (∀ s oid lane w p h t u, nodePart (spawnGo s oid false) oid lane .builder = some (w, p) → p.field 32 32 = 0 → p.field 24 8 < 2 ^ 63 →
    p.field 8 8 % 64 = 0 → p.field 16 8 % 8 = 0 → devRead (spawnGo s oid false) w.ctx (p.field 8 8) 256 = .ok (h, t) →
    buildable t w.ctx (p.field 8 8) h = true → devWrite t w.ctx (p.field 8 8 + 29) [1] = .ok u →
    ∃ (v : State) (b : Build), exec (.buildRecord oid lane) s =
        .next (putPart { v with builds := v.builds ++ [b], nextId := v.nextId + 1 } oid { p with done := true }) ∧
      v.mem = u.mem ∧ b.setAddr = p.field 8 8 ∧ b.header = h ∧ b.op = none ∧ b.fault = none ∧ b.done = p.field 16 8 ∧ b.doneVal = p.field 24 8) ∧
  (∀ s id b t u, s.build? id = some b → buildRuns s b = true → 2 ≤ b.header.length → writesAway s b.user = false →
    b.fault = none → runBuild (asReader s b.user) b = (t, none) → writesAway (dropBrought t b.user) b.user = false →
    buildWrite (dropBrought t b.user) b (b.setAddr + 29) [2] = .ok u →
    exec (.buildComplete id) s = .next (buildEnd u b none)) ∧
  ∀ s oid w o q image, s.awakeOp? oid = some (w, o) → o.state = .running → engineRuns s w = true → orderOk s w o = true →
    writesAway s oid = false → (s.ctx? w.ctx).bind (fun c => c.queues.find? (fun k => k.number == q.number)) = some q →
    (∀ c pa l b t u, o.kind = .enq q.number image none false → s.ctx? w.ctx = some c →
      resolve s c none .atomic 2 q.wAddr 8 = .ok ⟨.hbm pa, l⟩ → readMem s w.ctx none 2 q.wAddr 8 = .ok (b, t) →
      writeWord64 t w.ctx q.wAddr ((leNat b + 1) % 2 ^ 64) = .ok u →
      exec (.enqRetire oid) s = .next (u.setOp { o with kind := .enq q.number image (some (leNat b)) false })) ∧
    (∀ k b t u v, o.kind = .enq q.number image (some k) false → image.length = 64 →
      readMem (asReader s o.id) w.ctx none 0 q.rAddr 8 = .ok (b, t) → k < leNat b + q.size →
      writeMem (dropBrought t o.id) w.ctx none 1 (q.ring + 64 * (k % q.size) + 8) (image.drop 8) = .ok u →
      writesAway u oid = false → writeMem u w.ctx none 1 (q.ring + 64 * (k % q.size)) (image.take 8) = .ok v →
      exec (.enqRetire oid) s = .next (v.setOp { o with kind := .enq q.number (image.take 8) (some k) true })) ∧
    ∀ k, o.kind = .enq q.number image (some k) true →
      exec (.enqRetire oid) s = .next (closeOp (kickQueue s w.ctx q.number ((k + 1) % 2 ^ 64)) o .done)

/-- R296, R298 to R301, R305 to R314, R366: what passes come to. A raster unit takes a leaf and tests it against each primitive of
its tile's list, which goes by SEQ and then by arrival (when a record arrives is log 55); a leaf that none of them covers is only
processed; results of one sample are applied in list order, each to its attachment element; a pass with nothing left stores
DONEVAL and ends; a pass still open when its launch is quiet closes. -/
def Obligations.PassEvents : Prop :=
  (∀ s pid leaf k p c g l d u, closedPass s pid = .ok (p, c) → s.pass? pid = some p → p.id = pid → c.geom = some g →
    s.launch? p.launch = some l → ctxRuns s p.ctx = true → k < 2 ^ 63 → p.unit? k = none → unitFree s k = true →
    (∃ n ∈ enabledCores s.mod.snapshot, clusterOf n = k) → s.mod.shut.getLsbD (k / 8) = false → mayTake s p c leaf (k / 8) = true →
    let q := { p with leaves := p.leaves.filter (fun x => x != leaf)
                      units := p.units ++ [{ cluster := k, leaf := leaf, data := none, next := 0 }] }
    readLeafData (s.updPass pid (fun _ => q)) q c g leaf = .ok (some d, u) → p.dies[d.tile % max p.dies.length 1]? = some (k / 8) →
    let ts := tileList g p (k / 8) d.tile
    exec (.rasterLeaf pid leaf k) s = .next (freeUnit (rasterPrims g l pid k leaf d ts.length 0
      (updUnit u pid k (fun x => { x with data := some d })) ts) pid k)) ∧
  (∀ s pid leaf k p c g l d x, closedPass s pid = .ok (p, c) → s.pass? pid = some p → p.id = pid → c.geom = some g →
    s.launch? p.launch = some l → ctxRuns s p.ctx = true → k < 2 ^ 63 → p.unit? k = some x → x.leaf = leaf → x.data = some d →
    let ts := tileList g p (k / 8) d.tile
    x.next + 1 < ts.length → exec (.rasterLeaf pid leaf (k + 2 ^ 63)) s = .next (updUnit
      (rasterPrims g l pid k leaf d 1 x.next s (ts.drop x.next)) pid k (fun x => { x with next := x.next + 1 }))) ∧
  (∀ g (p : Pass) die tile, (tileList g p die tile).Pairwise (fun t u => t.seq < u.seq ∨ t.seq = u.seq ∧ arrival die t ≤ arrival die u) ∧
    ∀ t, t ∈ tileList g p die tile ↔ t ∈ p.tris ∧ g.lists t tile = true) ∧
  (∀ g l pid k leaf d n i s ts, (∀ t ∈ ts, ∀ q, primOf g t = some q → ∀ x ∈ d.points, q.covers x.2.1 x.2.2 = false) →
    rasterPrims g l pid k leaf d n i s ts = s) ∧
  (∀ s oid w o p c pid a b pa l, Alone s oid w o [p] c → o.kind = .emit → p.size = 16 → w.kind = .pixel pid a b →
    Plain s c w.block .read 0 p.va 16 pa l → ∃ t, exec (.emitAccept oid (2 ^ p.lane)) s = .next t ∧ t.mem = s.mem ∧
      (∃ v, t.warp? w.id = some v ∧ v = { w with ops := [] }) ∧
      t.passes = (s.updPass pid (fun q => { q with frags := q.frags.map (fun f =>
        if f.warp == w.id && f.lane == p.lane && f.state == .pending then { f with state := .emitted (Memory.readN s.mem pa 16 % 2 ^ 32) }
        else f) })).passes) ∧
  (∀ s pid p k, closedPass (settleFrags s pid) pid = .ok (p, k) → p.id = pid →
    let next (i v : Nat) : Prop := ∃ f, p.frags[i]? = some f ∧ f.state = .emitted v ∧
      ∀ g ∈ p.frags.take i, g.sample = f.sample → g.state = .settled
    (∀ i v f u, next i v → p.frags[i]? = some f → (∀ j, j < i → ∀ y, ¬ next j y) →
      applyElement (settleFrags s pid) p ((k.attBase + 4 * f.sample) % 2 ^ 64) v = .ok u →
      exec (.blenderApply pid) s = .next (u.updPass pid (fun q =>
        { q with frags := q.frags.modify i (fun f => { f with state := .settled }) }))) ∧
    ((∀ i v, ¬ next i v) → exec (.blenderApply pid) s = .next (settleFrags s pid))) ∧
  (∀ s p c va v pa l, s.ctx? p.ctx = some c → s.lines = [] → Memory.wf s.mem = true → va % 4 = 0 → va + 4 ≤ windowBase →
    Plain s c none .atomic 2 va 4 pa l → Plain s c none .read 2 va 4 pa l → Plain s c none .write 2 va 4 pa l →
    let old := Memory.readN s.mem pa 4
    ∃ u, applyElement s p va v = .ok u ∧ Stored s u pa 4 (match p.op with
      | 0 => v
      | 1 => (old + v) % 2 ^ 32
      | 2 => (fpAdd .f32 .rne old v).1
      | _ => (fpMin .f32 old v).1)) ∧
  (∀ s pid p k u, closedPass (settleFrags s pid) pid = .ok (p, k) → p.leaves = [] → p.units = [] →
    (∀ f ∈ p.frags, f.state = .settled) → (∀ w ∈ s.warps, ∀ a b, w.kind ≠ .pixel pid a b) →
    storeDone (settleFrags s pid) p.ctx p.done (match p.failed with | none => p.doneVal | some cause => 2 ^ 63 + cause) = .ok u →
    exec (.passEnd pid) s = .next (flushTraces { u with passes := u.passes.filter (fun q => q.id != pid) } p.launch)) ∧
  ∀ s pid p l, s.pass? pid = some p → p.open_ = true → s.launch? p.launch = some l → ctxRuns s p.ctx = true → launchQuiet s l = true →
    exec (.passAutoClose pid) s = .next (closePass s pid)

/-- R152, R155, R156, R230, R231, R234: queues and the packets that are over when they start. That a kick of a queue
that does not exist has no effect is the model's reading (log 64). -/
def Obligations.QueuePackets : Prop :=
  (∀ s ctx q v c, s.ctx? ctx = some c → c.live = true → exec (.kickWrite ctx q v) s = .next (s.updCtx ctx (fun c =>
    { c with queues := updFirst (fun k => k.number == q) (fun k => { k with tail := max k.tail (v % 2 ^ 64) }) c.queues }))) ∧
  (∀ s ctx n q, queueOf s ctx n = some q → ctxRuns s ctx = true →
    (∀ j ∈ s.jobs, j.ctx = ctx → j.key = q.key → j.state = .held → ∀ m i, j.source ≠ .packet m i) →
    let slot := q.ring + 64 * (q.read % q.size)
    let taking (t : State) (b : List Nat) : State := updQueue t ctx n (fun q => { q with taking := some b })
    let taken (t : State) (b : List Nat) : State := updQueue { t with
      jobs := t.jobs ++ [{ id := t.nextId, ctx := ctx, source := .packet n q.read, bytes := b, state := .held,
                           snapshot := t.mod.snapshot, order := t.nextId, key := q.key, slot := slot, place := q.read % q.size }]
      nextId := t.nextId + 1 } ctx n (fun q => { q with read := q.read + 1, taking := none })
    (∀ b t, q.taking = none → q.stalled = false → q.read < q.tail → devRead s ctx slot 64 = .ok (b, t) →
      (b.getD 0 0 = 0 → exec (.packetTake ctx n) s = .next (updQueue t ctx n (fun q => { q with stalled := true }))) ∧
      ∀ u, b.getD 0 0 ≠ 0 → devWrite t ctx slot (List.replicate 64 0) = .ok u →
        (∀ v, devWrite (taking u b) ctx q.rAddr (natLe 8 (q.read + 1)) = .ok v → packetOk b = true →
          exec (.packetTake ctx n) s = .next (taken v b)) ∧
        ∀ a page, devWrite (taking u b) ctx q.rAddr (natLe 8 (q.read + 1)) = .error (.wait a page) →
          exec (.packetTake ctx n) s = .next (requestPage (taking u b) ctx page)) ∧
    ∀ b v, q.taking = some b → devWrite s ctx q.rAddr (natLe 8 (q.read + 1)) = .ok v → packetOk b = true →
      exec (.packetTake ctx n) s = .next (taken v b)) ∧
  (∀ s ctx n q c, queueOf s ctx n = some q → s.ctx? ctx = some c → q.stalled = true →
    wordNow s c none (q.ring + 64 * (q.read % q.size)) 4 % 256 ≠ 0 →
    exec (.packetHeaderWake ctx n) s = .next (updQueue s ctx n (fun q => { q with stalled := false }))) ∧
  (∀ s job j u, Startable s job 5 j → devWrite s j.ctx (fieldAt j.bytes 8 8) (natLe 8 (fieldAt j.bytes 16 8)) = .ok u →
    exec (.signal job) s = .next (finishJob u j)) ∧
  (∀ i ∈ ([Instr.waitValue, Instr.waitValueRecheck] : List (Nat → Instr)), ∀ s job j b u, Startable s job 6 j →
    devRead s j.ctx (fieldAt j.bytes 8 8) 8 = .ok (b, u) →
    let word := leNat b &&& fieldAt j.bytes 24 8
    let value := fieldAt j.bytes 16 8
    let met := match j.bytes.getD 32 0 with
      | 0 => word = value
      | 1 => word ≠ value
      | 2 => word ≥ value
      | _ => word < value
    (met → exec (i job) s = .next (finishJob u j)) ∧ (¬ met → exec (i job) s = .next u)) ∧
  (∀ s job j, Startable s job 7 j → exec (.barrierOnly job) s = .next (finishJob s j)) ∧
  (∀ s job j, Startable s job 8 j →
    let n := j.bytes.getD 10 0
    (∀ u, fieldAt j.bytes 8 2 = 1 → queueOf s j.ctx n = none → devWrite s j.ctx (fieldAt j.bytes 32 8) (natLe 8 0) = .ok u →
      exec (.queueCreate job) s = .next (finishJob (({ u with nextId := u.nextId + 1 } : State).updCtx j.ctx (fun c => { c with queues := c.queues ++ [{
        number := n, ring := fieldAt j.bytes 16 8, size := fieldAt j.bytes 12 4, wAddr := fieldAt j.bytes 24 8
        rAddr := fieldAt j.bytes 32 8, read := 0, tail := 0, stalled := false, taking := none
        key := u.nextId }] })) j)) ∧
    (∀ q, fieldAt j.bytes 8 2 = 2 → queueOf s j.ctx n = some q → q.taking = none →
      (∀ m i, j.source = .packet m i → q.key ≠ j.key) →
      exec (.queueDestroy job) s =
        .next (finishJob (s.updCtx j.ctx (fun c => { c with queues := c.queues.filter (fun q => q.number != n) })) j)) ∧
    (fieldAt j.bytes 8 2 = 3 → exec (.settings job) s = .next (finishJob (s.updCtx j.ctx (fun c => { c with
      spawnTimer := if fieldAt j.bytes 12 4 = 0 then c.spawnTimer else fieldAt j.bytes 12 4
      hangExp := if fieldAt j.bytes 16 4 = 0 then c.hangExp else fieldAt j.bytes 16 4
      swapUs := if fieldAt j.bytes 20 4 = 0 then c.swapUs else fieldAt j.bytes 20 4 })) j))) ∧
  ∀ s j q i, j.source = .packet q i → finishJob s j = { s with jobs := s.jobs.filter (fun k => k.id != j.id) }

/-- R231, R232, R235 to R241, R246 to R249, R331, R335: graphs, launches, relaunches and their completion. How a graph's nodes start and
what a failing one carries, and that the partials a core holds go home before a launch ends, are the model's readings (logs 57, 62). -/
def Obligations.LaunchesAndGraphs : Prop :=
  (∀ s job j, Startable s job 8 j → fieldAt j.bytes 8 2 = 4 →
    let bind (t : State) (g : Option Graph) : State := finishJob (updSlot t j.ctx (j.bytes.getD 10 0)
      (fun x => if x.running.isSome then { x with rebind := some g } else { x with graph := g })) j
    (fieldAt j.bytes 16 8 = 0 → exec (.graphBind job) s = .next (bind s none)) ∧
    (∀ g t, fieldAt j.bytes 16 8 ≠ 0 → readGraph s j.ctx (fieldAt j.bytes 16 8) = .ok (some g, t) →
      exec (.graphBind job) s = .next (bind t (some g))) ∧
    (∀ t, fieldAt j.bytes 16 8 ≠ 0 → readGraph s j.ctx (fieldAt j.bytes 16 8) = .ok (none, t) →
      exec (.graphBind job) s = .next (endWith t j.ctx 0x39 (fieldAt j.bytes 16 8) []))) ∧
  (∀ s job j x g ns t, Startable s job 3 j → slotOf s j.ctx (j.bytes.getD 8 0) = some x → x.graph = some g → x.running = none → x.pending = [] →
    readPatch s j.ctx (fieldAt j.bytes 16 8) g.nodes = .ok (some ns, t) →
    exec (.graphReplay job) s = .next (runJob (updSlot t j.ctx (j.bytes.getD 8 0) (fun x =>
      { x with running := some { graph := { g with nodes := ns }, started := [], completed := [], job := some j.id } })) j)) ∧
  (∀ s ctx slot v c, s.ctx? ctx = some c → c.live = true → slot < 64 → (∀ g ∈ c.slots, g.number = slot → g.pending.length < 64) →
    ∃ t d, exec (.graphKick ctx slot v) s = .next t ∧ t.ctx? ctx = some d ∧
      ((d.slots.find? (fun g => g.number == slot)).map GraphSlot.pending) =
        some (((c.slots.find? (fun g => g.number == slot)).map GraphSlot.pending).getD [] ++ [v % 2 ^ 64])) ∧
  (∀ s ctx slot node x r, ctxRuns s ctx = true → slotOf s ctx slot = some x → x.running = some r → node ∈ readyNodes r →
    (∀ m ∈ readyNodes r, m < node → readyAt r m ≠ readyAt r node) →
    (startsWhenMade (r.graph.nodes.getD node []) = true → lowerHeld s ctx slot node r = false) →
    exec (.graphNodeStart ctx slot node) s = .next (startNode s ctx slot node r)) ∧
  (∀ q ∈ ([(Instr.launch, 1, false), (Instr.seed, 2, true)] : List ((Nat → Instr) × Nat × Bool)), ∀ s job j b t,
    Startable s job q.2.1 j → devRead s j.ctx (fieldAt j.bytes 8 8) 256 = .ok (b, t) →
    let rec_ := launchRecOf (formRecord b j.bytes)
    (recordOk (formRecord b j.bytes) q.2.2 j.snapshot = false →
      exec (q.1 job) s = .next (endWith t j.ctx 0x36 0 [j.place])) ∧
    (recordOk (formRecord b j.bytes) q.2.2 j.snapshot = true → rec_.trace = 0 → rec_.spawnCtr = 0 →
      ∃ (u : State) (l : Launch), exec (q.1 job) s = .next u ∧ u.launches = t.launches ++ [l] ∧ u.mem = t.mem ∧ l.rec_ = rec_ ∧ l.ctx = j.ctx ∧ l.job = j.id ∧
        l.snapshot = j.snapshot ∧ l.started = [] ∧ l.kind = (if q.2.2 then .seed else .blocks) ∧
        l.spawned = (if q.2.2 then rec_.lanes else 0) ∧
        (q.2.2 = false → u.warps = t.warps) ∧ (q.2.2 = true → ∃ w, u.warps = t.warps ++ [w] ∧ w.kind = .seed ∧ w.launch = l.id ∧ w.block = none ∧
          ∀ k, k < 32 → (w.lane k).isReady = decide (k < rec_.lanes) ∧ (k < rec_.lanes → (w.lane k).pc = BitVec.ofNat 56 rec_.entry)))) ∧
  (∀ s job j c r sel t, Startable s job 4 j → s.ctx? j.ctx = some c → c.traced.find? (fun k => k.launchId == fieldAt j.bytes 8 4) = some r →
    r.seed = false → relaunchHeld s j r = false →
    selectBlocks j.ctx r.rec_.trace (s.lines.foldl (fun s l => mergeLine s l.line) s) (List.range r.rec_.blocks) = .ok (sel, t) →
    ((t.ctx? j.ctx).map generationFull).getD true = false →
    ∃ (u : State) (l : Launch), exec (.relaunch job) s = .next (if sel = [] then completeLaunch u { j with state := .running } else u) ∧
      u.launches = t.launches ++ [l] ∧ u.mem = t.mem ∧ l.kind = .relaunch sel ∧ l.rec_ = r.rec_ ∧ l.job = j.id ∧ l.started = [] ∧
      l.again = some r.launch ∧ l.generation = ((t.ctx? j.ctx).map Ctx.generation).getD 0 + 1) ∧
  (∀ s job j c, s.job? job = some j → j.state = .running → ctxRuns s j.ctx = true → s.ctx? j.ctx = some c → j.bytes.getD 0 0 = 3 →
    (∀ g ∈ c.slots, ∀ r, g.running = some r → r.job ≠ some job) → ∀ u, storeDone s j.ctx (compAddr j.bytes) (fieldAt j.bytes 32 8) = .ok u →
    exec (.packetComplete job) s = .next (finishJob u j)) ∧
  ∀ s job j l, s.job? job = some j → j.state = .running → ctxRuns s j.ctx = true → j.bytes.getD 0 0 ≠ 3 →
    s.launches.find? (fun l => l.job == job) = some l → s.launch? l.id = some l → l.rec_.trace = 0 → l.rec_.spawnCtr = 0 → launchIdle s l = true → l.spawned = 0 →
    exec (.packetComplete job) s = .next (endLaunch s j l)

/-- R18, R23, R39, R41, R141, R142, R148, R162, R197, R220, R233, R239, R240, R250, R251, R315, R360, R365: blocks and warps start, are
placed, leave their cores, return and end; a barrier's phase completes and every run that waits for it goes on; contexts hang, are saved
or end. Readings of the model: that an ended context keeps no warp, block or job (log 66), the addresses of a failed swap-out and of a
save area that cannot be written, which are free values (logs 44, 67), wait-for records of runs that R251 does not list (log 45), when a
participant has arrived (logs 59, 60), and what pre-emption saves (log 67). -/
def Obligations.WarpsAndBlocks : Prop :=
  (∀ s lid n l core, s.launch? lid = some l → coreOf l.snapshot l.rec_ n = some core → ctxRuns s l.ctx = true → coreUp s core = true →
    l.unset = false → n ∈ l.members →
    n ∉ l.started → (∀ k ∈ l.members, k < n → k ∈ l.started ∨ coreOf l.snapshot l.rec_ k ≠ some core) →
    blockRoom s core l (mates l n core).length = true →
    exec (.blockStart lid n) s = .next (startBlocks lid core s (mates l n core)) ∧ (l.rec_.widest = none → mates l n core = [n])) ∧
  (∀ s lid n core l, s.launch? lid = some l → (∀ w ∈ s.warps, w.id < s.nextId) → 2 ≤ l.rec_.regs →
    startBlocks lid core s [n] = startBlock s lid n core ∧ ∃ (b : Block) (ws : List Warp), (startBlock s lid n core).blocks = s.blocks ++ [b] ∧
      (startBlock s lid n core).warps = s.warps ++ ws ∧ (startBlock s lid n core).mem = s.mem ∧ b.number = n ∧ b.core = core ∧
      b.launch = lid ∧ b.state = .running ∧ b.scratch = [] ∧ b.tiles = [] ∧ ws.length = l.rec_.warps ∧ ∀ k, k < l.rec_.warps →
        ∃ w, ws[k]? = some w ∧ w.number = k ∧ w.block = some b.id ∧ w.core? = some core ∧ w.alloc = l.rec_.regs ∧ ∀ j, j < 32 →
          w.reg j 0 = BitVec.ofNat 32 l.rec_.params ∧ w.reg j 1 = BitVec.ofNat 32 (l.rec_.params / 2 ^ 32) ∧
          (w.lane j).isReady = decide (j < l.rec_.lanes) ∧ (j < l.rec_.lanes → (w.lane j).pc = BitVec.ofNat 56 l.rec_.entry)) ∧
  (∀ s id core w l, s.awakeWarp? id = some w → s.launch? w.launch = some l → w.place = none → w.block = none → mayPlace s w = true →
    coreUp s core = true → core < 256 → w.snap.getLsbD core = true → dieOf core = w.die → (∀ k, w.cluster = some k → k = clusterOf core) →
    partitionRoom s core l = true → warpRoom s core l 1 (128 * w.alloc) = true →
    exec (.warpPlace id core) s = .next (s.updWarp id (fun w => { w with place := some (core, freeIndex s core) }))) ∧
  (∀ s id w, s.awakeWarp? id = some w → w.live = 0#32 → w.ops = [] →
    (∀ h, w.kind = .handler h → h = 0) → exec (.warpEnd id) s = .next (flushTraces (dropWarp s w) w.launch)) ∧
  (∀ s id w h t, s.awakeWarp? id = some w → w.live = 0#32 → w.ops = [] → w.kind = .handler h → h ≠ 0 →
    killLanes s w.ctx h allLanes = .ok t → exec (.warpEnd id) s = .next (flushTraces (dropWarp t w) w.launch)) ∧
  (∀ s k b ws, s.bars.find? (fun b => b.key == k) = some b → barWarps s b = some ws → b.expected = 0 →
    (∀ w ∈ ws, s.saved w.ctx = false) → (∀ w ∈ ws, warpArrived s w b.scope b.id b.phase = true) →
    (∃ w ∈ ws, ∃ l, l < 32 ∧ ∃ a ∈ (w.lane l).arrivals, a.scope = b.scope ∧ a.id = b.id ∧ a.phase = b.phase) →
    exec (.barrierPhaseComplete k) s = .next (wakeBarrier b ((ws.filterMap (homeCore s)).foldl pushLines s))) ∧
  (∀ s b, let t : State := { s with bars := updFirst (fun k => k.key == b.key) (fun k => { k with phase := k.phase + 1 }) s.bars }
    ((∀ w ∈ s.warps, ∀ l, l < 32 → (w.lane l).isWaiting = false) → wakeBarrier b s = t) ∧
    ∀ w m what next since, s.warps = [w] → barrierRuns s b w = [m] → (w.lane (leadOf m)).cond = .waiting what next since →
      wakeBarrier b s = completeWait (t.updWarp w.id (fun w => w.mapLanes m (fun _ y => y.dropArrival b.scope b.id))) w.id m next) ∧
  (∀ s id b c w l op addr n v hit next since, s.block? id = some b → s.ctx? b.ctx = some c → b.state = .running → ctxRuns s b.ctx = true →
    (∀ w ∈ s.warps, w.block = some id → w.group = []) → w ∈ s.warps → w.block = some id → l < 32 →
    (w.lane l).cond = .waiting (.monitor op addr n v hit) next since → since + 600 * c.swapUs ≤ s.mod.clock →
    exec (.blockSwapOut id true) s = .next { s with
      blocks := updFirst (fun b => b.id == id) (fun b => { b with state := .swapped, unpinned := List.range b.pages }) s.blocks
      warps := s.warps.map (fun w => if w.block == some id then { w with place := none } else w) } ∧
    exec (.blockSwapOut id false) s = .next (endWith { s with free := s.free + 1 } b.ctx 0x38 (Config.freeValue s.free % 2 ^ 64) [])) ∧
  (∀ s id b l, s.block? id = some b → s.launch? b.launch = some l → b.state = .swapped → ctxRuns s b.ctx = true →
    blockRoom s b.core l 1 = true → exec (.blockSwapIn id) s = .next (restoreMonitors
      (seatWarps b.core (s.updBlock id (fun b => { b with state := .running })) ((s.warps.filter (fun w => w.block == some id)).map Warp.id))
      (fun w => w.block == some id))) ∧
  (∀ s id b page, s.block? id = some b → b.state = .running → ctxAwake s b.ctx = true → page ∈ b.unpinned →
    exec (.scratchRefill id page true) s = .next { s.updBlock id (fun b => { b with unpinned := b.unpinned.erase page }) with
      warps := s.warps.map (fun w => if w.block == some id then refillLanes id page w else w) } ∧
    exec (.scratchRefill id page false) s = .next (endWith s b.ctx 0x1E (scratchBase + 4096 * page) [])) ∧
  (∀ s n c, s.ctx? n = some c → c.live = true → (∃ w ∈ s.warps, w.ctx = n ∧ w.live ≠ 0#32) →
    (∀ w ∈ s.warps, w.ctx = n → w.live ≠ 0#32 → w.place.isSome = true ∨ w.block.isSome = true → w.readyLanes = 0#32) →
    c.hangSince + 2 ^ c.hangExp ≤ s.mod.clock →
    let recs := (((s.warps.filter (fun w => w.ctx == n && w.live != 0#32)).flatMap (warpWaits s)).foldl (fun l x => insertWait x l) []).take 2048
    exec (.hangDetected n) s = .next (contextCause (deviceWrites (s.updCtx n (fun c => { c with hangSince := s.mod.clock })) n
      (recs.zipIdx.map (fun r => (c.trapBase + 0x8000 + 16 * r.2, r.1.bytes)) ++ [(c.trapBase + 0x48, natLe 8 recs.length)]))
      n 0x30 [recs.length])) ∧
  (∀ s n c since host seq, n < 2 ^ 63 → s.ctx? n = some c → c.live = true → c.preempt = .stopping since host seq →
    since + 1200 ≤ s.mod.clock → haltedNow s n = true →
    exec (.pixelPreemptDeadline (n + 2 ^ 63)) s = .next (endWith { s with free := s.free + 1 } n 0x37 (Config.freeValue s.free % 2 ^ 64) []) ∧
    ∃ t, exec (.pixelPreemptDeadline n) s = .next t ∧ t.mem = s.mem ∧ t.warps = s.warps ∧
      (t.ctx? n).map Ctx.preempt = some .saved ∧ (∀ b ∈ t.blocks, b.ctx = n → b.unpinned = List.range b.pages) ∧
      t.mod.sent = s.mod.sent ++ [{ to_ := host, kind := 0, bytes := completion 3 0 seq n [] }]) ∧
  (∀ s n, exec (.contextTimeout n) s = .next (endWith s n 0x3E 0 []) ∧ exec (.contextWipe n) s = .next (endWith s n 0x57 0 [])) ∧
  ∀ s n c cause addr detail, s.ctx? n = some c → c.live = true →
    ((endWith s n cause addr detail).ctx? n).map Ctx.live = some false ∧ (∀ w ∈ (endWith s n cause addr detail).warps, w.ctx ≠ n) ∧
    (∀ b ∈ (endWith s n cause addr detail).blocks, b.ctx ≠ n) ∧ ∀ j ∈ (endWith s n cause addr detail).jobs, j.ctx ≠ n

/-- R165, R169 to R175, R196, R340, R364: a page-table entry changes, a page becomes present, refused or absent, a page moves to a frame
and accesses that have issued follow it, or back from its host; while a page is held a request is answered with
a remote mapping, the die's own or one for the host, which stays until the entry is replaced. Readings of the
model: accesses outstanding at a change (log 24), how a die's mapping stands beside the leaf (log 43), where frames for private copies come from (log 30), what a page shows that becomes
present or comes back from its host, the bytes being free values (log 43). -/
def Obligations.PagesChange : Prop :=
  (∀ s n level va value frames c a low, s.ctx? n = some c → entryAt s.mem va level walkLevels c.root = some (a, low) → inHbm a = true →
    s.lines = [] →
    let t := noteWrite { s with mem := Memory.writeN s.mem a 8 value, mod := { s.mod with frames := s.mod.frames ++ frames } }
      (fun x k => x.overlaps k (.hbm a) 8)
    exec (.pteChange n level va value frames) s =
      .next (pagesChanged s (t.updCtx n (fun c => { settlePages s t c (va - va % 2 ^ low) (2 ^ low) with
        farMaps := c.farMaps.filter (fun m => !(decide (va - va % 2 ^ low ≤ m.1) && decide (m.1 < va - va % 2 ^ low + 2 ^ low))) })) n)) ∧
  (∀ s n va c l, localLeaf s n va = some (c, l) →
    (l.p = false → exec (.residencyPresent n va) s = .next (pagesChanged s ({ s with
      mem := Memory.writeN s.mem l.entryAddr 8 (Memory.readN s.mem l.entryAddr 8 + 2 ^ 3) }.updCtx n (fun c =>
        { c with residency := dropAssoc c.residency l.page })) n)) ∧
    (pageState c l = 1 → exec (.residencyRefuse n va) s =
      .next (pagesChanged s (s.updCtx n (fun c => { c with residency := setAssoc c.residency l.page 3 })) n)) ∧
    (pageState c l = 3 → exec (.residencyEvict n va) s =
      .next (pagesChanged s (s.updCtx n (fun c => { c with residency := dropAssoc c.residency l.page })) n)) ∧
    (pageState c l = 2 → s.lines = [] → moveOf c l = none → exec (.residencyEvict n va) s = .next (pagesChanged s { s with
      mem := Memory.writeN s.mem l.entryAddr 8 (Memory.readN s.mem l.entryAddr 8 - 2 ^ 3) } n)) ∧
    ∀ frame, l.p = true → inHbm l.frame = true → frame % l.size = 0 → inHbm (frame + l.size - 1) = true →
      inCarve (frame + l.size - 1) = false → frame ≠ l.frame → s.lines = [] → moveOf c l = none →
      let follows (k : Leaf) : Leaf :=
        if k.page = l.page ∧ k.frame = l.frame ∧ k.rem = false then { k with frame := frame, cow := l.cow } else k
      let followed (w : Warp) : Warp := if w.ctx = n then { w with ops := w.ops.map (fun o =>
        { o with parts := o.parts.map (fun p => { p with leaf := p.leaf.map follows }) }) } else w
      let moved (s : State) : State := { s with
        warps := s.warps.map followed
        mem := Memory.writeN s.mem l.entryAddr 8 (Memory.readN s.mem l.entryAddr 8 - l.frame + frame) }.updCtx n (fun c => { c with
          moves := { page := l.page, size := l.size, oldFrame := l.frame, newFrame := frame, pulled := [] } ::
            c.moves.filter (fun m => m.page != l.page) })
      exec (.migration n va frame) s = .next (moved s) ∧
      ∀ die, die < 4 → frame / 2 ^ 36 / 3 = die → (assoc c.holds l.page).getD 0 ≤ s.mod.clock →
        exec (.migrationRequest n va die frame) s =
          .next (moved ((s.updCtx n (fun c => { c with holds := setAssoc c.holds l.page (s.mod.clock + 38400) })).updCtx n
            (fun c => { c with farMaps := c.farMaps.filter (fun m => m != (l.page, die)) })))) ∧
  (∀ s n va frame c l agent, s.ctx? n = some c → leafOf s c va = some l → (l.rem = true → l.tgt = 0) → (l.rem = false → l.p = true) →
    s.mod.clock < (assoc c.holds l.page).getD 0 →
    (agent < 4 → exec (.migrationRequest n va agent frame) s = .next (if c.farMaps.contains (l.page, agent) then s
      else s.updCtx n (fun c => { c with farMaps := (l.page, agent) :: c.farMaps }))) ∧
    (agent = 4 → exec (.migrationRequest n va agent frame) s = .next { s with mod := { s.mod with
      sent := s.mod.sent ++ [{ to_ := c.host, kind := 8, bytes := natLe 8 l.page ++ natLe 8 l.size }] } })) ∧
  (∀ s n va frame c l agent, s.ctx? n = some c → leafOf s c va = some l → l.rem = true → l.tgt = 0 → agent < 4 →
    frame / 2 ^ 36 / 3 = agent → (assoc c.holds l.page).getD 0 ≤ s.mod.clock → frame % l.size = 0 → inHbm (frame + l.size - 1) = true →
    inCarve (frame + l.size - 1) = false →
    let held := (s.updCtx n (fun c => { c with holds := setAssoc c.holds l.page (s.mod.clock + 38400) })).updCtx n
      (fun c => { c with farMaps := c.farMaps.filter (fun m => m != (l.page, agent)) })
    let t := writeEntry (clearBad { held with mem := Memory.writeN s.mem frame l.size (Config.freeValue s.free % 256 ^ l.size)
                                              free := s.free + 1 } frame l.size) l
      (fun e => e - l.frame + frame - 2 ^ 9 + (if l.p then 0 else 2 ^ 3))
    exec (.migrationRequest n va agent frame) s =
      .next (pagesChanged held (t.updCtx c.number (fun c => settlePages held t c l.page l.size)) c.number)) ∧
  (∀ s c blk op va size p l x w core, s.cur = some x → s.warp? x.warp = some w → w.core? = some core → c.farMaps.contains (l.page, dieOf core) = true →
    va < 2 ^ 56 → va % size = 0 → resolve s c blk .atomic 2 va size = .ok p → p.leaf = some l →
    judge s c blk (.atomic false) op va size = .error (.trap 0x15 va [op])) ∧
  ∀ s c l va m, moveOf c l = some m → (va - l.page) / 128 ∉ m.pulled → s.lines = [] → Memory.wf s.mem = true →
    let k := (va - l.page) / 128
    (∀ a, l.frame + 128 * k ≤ a → a < l.frame + 128 * k + 128 →
      (pullLine s c l va).byte a = s.byte (m.oldFrame + 128 * k + (a - (l.frame + 128 * k)))) ∧
    ∀ a, a < l.frame + 128 * k ∨ l.frame + 128 * k + 128 ≤ a → (pullLine s c l va).byte a = s.byte a

/-- R347, R352, R353: requests to hosts and peers are answered, time out, are sent once there is rate; a store of a lane that fails later is
logged and noted for the warp's next fence, any other request fails with what it was made for; ports and connections; a host that gives
no sign of itself. The completion statuses, the endpoint's number and the entry that a reset peer leaves are the model's (logs 46, 68). -/
def Obligations.RemoteAccesses : Prop :=
  (∀ s req r t, s.mod.remotes.find? (fun r => r.id == req) = some r → r.sentAt = some t →
    (∀ data, r.write = true → exec (.remoteCompletion req 0 data) s = .next (dropRemote s req)) ∧
    (∀ data, r.write = false → exec (.remoteCompletion req 0 data) s = .next (deliverRemote (dropRemote s req) r data)) ∧
    (∀ data status, status ≠ 0 →
      let cause : Nat := match status with | 1 => 0x49 | 2 => 0x46 | 3 => 0x40 | 4 => 0x4D | 5 => 0x40 | 0x100 => 0x4C | _ => 0x4B
      let detail : List Nat := if status = 0x100 then [] else [status]
      let failed := if r.write = true ∧ r.fill = 0 then lateFailure s r 0x42 [status] else refuseRemote (dropRemote s req) r cause detail
      exec (.remoteCompletion req status data) s = .next failed ∧
      (r.write = true → exec (.remoteStoreFailure req status) s = .next failed)) ∧
    (t + 1200000 ≤ s.mod.clock → exec (.remoteTimeout req) s =
      .next (if r.write = true ∧ r.fill = 0 then lateFailure s r 0x43 [0] else refuseRemote (dropRemote s req) r 0x41 []))) ∧
  (∀ s peer, exec (.peerReset peer) s =
    .next ((s.mod.remotes.filter (fun r => (s.ctx? r.ctx).map (fun c => endpoint c r.peer) == some peer && r.sentAt.isSome)).foldl
      (fun s r => if r.write = true ∧ r.fill = 0 then lateFailure s r 0x42 [0] else refuseRemote (dropRemote s r.id) r 0x4A []) s)) ∧
  (∀ s r data, r.fill = 0 →
    (∀ w o p, remotePart s r = some (w, o, p) → o.kind ≠ .emit → deliverRemote s r data =
      setPart s o.id { p with done := true, got := leNat (data.take p.size), present := true }) ∧
    ∀ w o p cause detail, remotePart s r = some (w, o, p) →
      refuseRemote s r cause detail = setPart s o.id { p with refused := some cause, args := detail }) ∧
  (∀ s r data, r.fill ≠ 0 → s.warp? r.op = none → deliverRemote s r data = { s with mod := { s.mod with brought := s.mod.brought ++ [
    { user := r.op, peer := r.peer, addr := r.addr, bytes := (List.range r.fill).map (fun i => data.getD i 0) }] } }) ∧
  (∀ s r cause detail, lateFailure s r cause detail =
    let f : OpFault := { cause := cause, lanes := oneLane r.lane, addr := r.va, detail := detail }
    (logFault (dropRemote s r.id) r.ctx 0 0#32 f).updWarp r.warp (fun w => { w with lateFaults := w.lateFaults ++ [f] })) ∧
  (∀ s req r c port, s.mod.remotes.find? (fun r => r.id == req) = some r → s.ctx? r.ctx = some c → r.sentAt = none →
    (∀ x ∈ s.mod.remotes.takeWhile (fun x => x.id != req), x.ctx = r.ctx → x.port = r.port → x.sentAt ≠ none) →
    (choosePort s c = .ok port → portCount s r.ctx port < c.egressRates.getD port 0 →
      exec (.egressRateRelease req) s = .next (sendHeld s c r port) ∧
      (r.fill ≠ 0 ∨ r.write = false →
        let rs := updFirst (fun x => x.id == req) (fun x => { x with sentAt := some s.mod.clock, port := port }) s.mod.remotes
        sendHeld s c r port = transmit { s with mod := { s.mod with remotes := rs } } c { r with port := port })) ∧
    (choosePort s c = .error port → exec (.egressRateRelease req) s = .next (refuseRemote (dropRemote s req) r 0x45 [port]))) ∧
  (∀ s port, port < 16 → ∃ t u, exec (.linkDown port) s = .next t ∧ exec (.linkUp port) s = .next u ∧
    t = { s with mod := { s.mod with portsUp := t.mod.portsUp } } ∧ u = { s with mod := { s.mod with portsUp := u.mod.portsUp } } ∧
    ∀ p, p < 16 → t.mod.portsUp.getLsbD p = (s.mod.portsUp.getLsbD p && p != port) ∧
      u.mod.portsUp.getLsbD p = (s.mod.portsUp.getLsbD p || p == port)) ∧
  (∀ s peer kind, exec (.connectionSetup peer kind) s =
    .next (if kind ≤ 1 then { s with mod := { s.mod with connections := s.mod.connections ++ [(peer, kind)] } } else s)) ∧
  ∀ s host t, assoc s.mod.hosts host = some t → t + 6000000000 ≤ s.mod.clock → exec (.hostDetach host) s =
    .next (endWhere { s with mod := { s.mod with hosts := dropAssoc s.mod.hosts host } } (fun c => c.host == host) 0x47 [])

/-- R221, R350, R351: what a host or peer does to an exposed region: refused in R351's order, served within the region's rate, made to
wait for rate, for its page or behind an earlier write of its ordered stream, or dropped where 4,096 wait for rate; an atomic gives the
old value and stores the new one. One on a page with REM = 1 is carried to the target
and answered when the target has. How a request names its region, its stream and its status, and how one that is carried is answered,
is the model's (log 46). -/
def Obligations.InboundRequests : Prop :=
  (∀ s host key addr data len value expect new, ∀ e ∈ ([
      (Instr.inboundRmaWrite host key addr data, 0, data), (Instr.inboundRmaRead host key addr len, 1, [len]),
      (Instr.inboundFetchAdd host key addr value, 2, [value]), (Instr.inboundSwap host key addr value, 3, [value]),
      (Instr.inboundCas host key addr expect new, 4, [expect, new])] : List (Instr × Nat × List Nat)),
    let i := addr / 2 ^ 64
    let stream := host / 2 ^ 16 % 2 ^ 16
    let q : Inbound := { host := host - 2 ^ 16 * stream, stream := stream, kind := e.2.1, key := key, addr := addr % 2 ^ 64
                         values := e.2.2, order := s.nextId, held := false, sent := false }
    (s.mod.regions.find? (fun r => r.index == i) = none → exec e.1 s = .next (answer s q.host 1 [])) ∧
    ∀ r, s.mod.regions.find? (fun r => r.index == i) = some r →
      (∀ status, regionRefuses s (some r) q = some status → exec e.1 s = .next (answer s q.host status [])) ∧
      (regionRefuses s (some r) q = none →
        let waits (s : State) (q : Inbound) : State := updRegion s i (fun r => { r with queue := r.queue ++ [q] })
        (rateAllows s r = true → (∀ x ∈ r.queue, x.held = true) →
          (streamBlocked s q = true → exec e.1 s = .next (waits (numbered s) { q with held := true })) ∧
          (streamBlocked s q = false →
            ∀ c, s.ctx? r.ctx = some c → let t := numbered s
              let va := r.vbase + q.addr
              let pieces := pagePieces (q.size + 1) va q.size
              (∀ a page, inboundBarred t c va q = some (.wait a page) →
                exec e.1 s = .next (waits (requestPage t r.ctx page) { q with held := true })) ∧
              (∀ k a d, inboundBarred t c va q = some (.trap k a d) → exec e.1 s = .next (countRate (answer t q.host 3 []) i)) ∧
              (inboundBarred t c va q = none → farPieces t c q pieces = [] →
                (∀ b u, inboundAccess t r.ctx va q = .ok (b, u) → exec e.1 s = .next (countRate (answer u q.host 0 b) i)) ∧
                ∀ a page, inboundAccess t r.ctx va q = .error (.wait a page) →
                  exec e.1 s = .next (waits (requestPage t r.ctx page) { q with held := true })) ∧
              (inboundBarred t c va q = none → farPieces t c q pieces ≠ [] →
                (∀ u, q.kind ≠ 1 → farPuts c q va (farPieces t c q pieces) t pieces = .ok u →
                  exec e.1 s = .next (waits u { q with sent := true, held := true })) ∧
                ∀ a peer far n u, q.kind = 1 → readMem (asReader t q.order) r.ctx none 0 va q.size = .error (.remote a peer far n) →
                  askRemote t c 0 q.order 0 a peer far n = .ok u → exec e.1 s = .next (waits u { q with held := true })))) ∧
        (rateAllows s r = false ∨ (∃ x ∈ r.queue, x.held = false) →
          ((r.queue.filter (fun x => !x.held)).length < 4096 → exec e.1 s = .next (waits (numbered s) q)) ∧
          (4096 ≤ (r.queue.filter (fun x => !x.held)).length → exec e.1 s = .next (dropInbound (numbered s) r.ctx))))) ∧
  (∀ s i place r q c, s.mod.regions.find? (fun r => r.index == i) = some r → r.queue[place]? = some q → rateAllows s r = true →
    streamBlocked s q = false → regionRefuses s (some r) q = none → s.ctx? r.ctx = some c →
    let va := r.vbase + q.addr
    let served (u : State) (b : List Nat) : Prop := exec (.inboundRateRelease i place) s =
      .next (countRate (updRegion (answer u q.host 0 b) i (fun r => { r with queue := r.queue.eraseIdx place })) i)
    (∀ b u, q.sent = false → inboundBarred s c va q = none → farPieces s c q (pagePieces (q.size + 1) va q.size) = [] →
      inboundAccess s r.ctx va q = .ok (b, u) → served u b) ∧
    (∀ b u, q.sent = false → q.kind = 1 → inboundBarred s c va q = none →
      farPieces s c q (pagePieces (q.size + 1) va q.size) ≠ [] → readMem (asReader s q.order) c.number none 0 va q.size = .ok (b, u) →
      served (dropBrought u q.order) b) ∧
    (q.sent = true → q.kind = 0 → (∀ x ∈ s.mod.remotes, x.op = q.order → x.sentAt ≠ none) → served s []) ∧
    ∀ b, q.sent = true → 2 ≤ q.kind → s.mod.brought.find? (fun b => b.user == q.order) = some b →
      served (dropBrought s q.order) b.bytes) ∧
  (∀ s r q cause detail a, inboundOf s r.op = some (a, q) → (cause = 0x40 ∨ cause = 0x46 ∨ cause = 0x49 ∨ cause = 0x4D) →
    refuseRemote s r cause detail = countRate (answer (inboundLeaves s a.index q.order) q.host (detail.headD 3) []) a.index) ∧
  (∀ s q, streamBlocked s q = true ↔ q.kind = 0 ∧ q.stream ≠ 0 ∧
    ∃ r ∈ s.mod.regions, ∃ x ∈ r.queue, x.kind = 0 ∧ x.host = q.host ∧ x.stream = q.stream ∧ x.order < q.order) ∧
  (∀ s n c, s.ctx? n = some c →
    ((∀ t, c.droppedTrap = some t → t + 60000 ≤ s.mod.clock) → dropInbound s n =
      contextCause (s.updCtx n (fun c => { c with dropped := 0, droppedTrap := some s.mod.clock })) n 0x4F [c.dropped + 1]) ∧
    (∀ t, c.droppedTrap = some t → s.mod.clock < t + 60000 →
      dropInbound s n = s.updCtx n (fun c => { c with dropped := c.dropped + 1 }))) ∧
  (∀ s r q, regionRefuses s (some r) q =
    if r.key ≠ q.key then some 1
    else if r.perm.testBit (match q.kind with | 0 => 1 | 1 => 0 | _ => 2) = false ∨ r.length < q.addr + q.size ∨
      (2 ≤ q.kind ∧ (r.vbase + q.addr) % 8 ≠ 0) then some 2
    else match s.ctx? r.ctx with
      | none => some 4
      | some c => if c.live then none else some 4) ∧
  ∀ s n va c pa l q, s.ctx? n = some c → s.lines = [] → Memory.wf s.mem = true →
    (∀ k, q.kind = 0 → (∀ v ∈ q.values, v < 256) → k = q.values.length → 0 < k → va % 128 + k ≤ 128 → Plain s c none .write 1 va k pa l →
      ∃ u, inboundAccess s n va q = .ok ([], u) ∧ Stored s u pa k (leNat q.values)) ∧
    (∀ k, q.kind = 1 → q.values = [k] → 0 < k → va % 128 + k ≤ 128 → Plain s c none .read 0 va k pa l →
      inboundAccess s n va q = .ok (natLe k (Memory.readN s.mem pa k), s)) ∧
    (Plain s c none .atomic 2 va 8 pa l → va % 8 = 0 →
      let old := Memory.readN s.mem pa 8
      let v (i : Nat) : Nat := q.values.getD i 0 % 2 ^ 64
      ∀ p ∈ ([(2, (old + v 0) % 2 ^ 64), (3, v 0), (4, if old = v 0 then v 1 else old)] : List (Nat × Nat)), q.kind = p.1 →
        ∃ u, inboundAccess s n va q = .ok (natLe 8 old, u) ∧ Stored s u pa 8 p.2)

/-- R228, R315, R316, R334, R348 to R350, R354 to R357, R359, R360: a management request that is asked as it must be is served, and
its completion sent; one that is not is refused with its status. The order in which statuses are judged and the corners of the requests
are the model's (log 68); so are the bytes pushed of an image that is rejected (log 40), the size of a row (log 48) and what pre-emption
does to what is outstanding (log 67). -/
def Obligations.ManagementRequests : Prop :=
  (∀ s host msg, ∀ e ∈ ([
      (Instr.contextCreate host msg, 0x01, none, createOk), (Instr.contextDestroy host msg, 0x02, some true, fun q => q.length == 0),
      (Instr.preempt host msg, 0x03, some true, fun q => q.length == 0), (Instr.resume host msg, 0x04, some true, fun q => q.length == 0),
      (Instr.regionSet host msg, 0x05, some true, regionOk),
      (Instr.regionClear host msg, 0x06, some true, fun q => q.length == 8 && decide (q.field 0 4 < 1024) && q.field 4 4 == 0),
      (Instr.stampRead host msg, 0x07, some true, fun q => q.length == 16 && q.field 0 8 % 4096 == 0 && decide (1 ≤ q.field 8 4) &&
        decide (q.field 8 4 ≤ 4096) && q.field 12 4 == 0),
      (Instr.fencePart host msg, 0x08, some false, partOkArgs), (Instr.returnPart host msg, 0x09, some false, partOkArgs),
      (Instr.firmwarePush host msg, 0x0A, some false, pushOk), (Instr.attest host msg, 0x0B, some false, fun q => q.length == 32),
      (Instr.powerCap host msg, 0x0C, some false,
        fun q => q.length == 8 && decide (1500 ≤ q.field 0 4) && decide (q.field 0 4 ≤ 3000) && q.field 4 4 == 0),
      (Instr.keepalive host msg, 0x0E, some false, fun q => q.length == 0)] ++
      ([(Instr.debugStepOff host msg, fieldAt msg 16 4 == 0), (Instr.debugStepOn host msg, fieldAt msg 16 4 == 1),
        (Instr.debugWatchSet host msg, fieldAt msg 16 4 == 2), (Instr.debugWatchClear host msg, fieldAt msg 16 4 == 3),
        (Instr.debugHalt host msg, decide (4 ≤ fieldAt msg 16 4))].filter (fun e => e.2)).map (fun e => (e.1, 0x0D, some true, debugOk))
      : List (Instr × Nat × Option Bool × (Request → Bool))),
    let q := requestOf host msg
    let malformed := q.whole = false ∨ e.2.2.2 q = false ∨ (e.2.2.1 = some false ∧ q.ctx ≠ 0xFFFFFFFF)
    q.op = e.2.1 →
      (e.2.1 ≠ 0x0A → e.2.1 ≠ 0x0B → s.mod.released = false → exec e.1 s = .next (reply s q 0xFF [])) ∧
      ((e.2.1 = 0x0A ∨ e.2.1 = 0x0B ∨ s.mod.released = true) →
        (malformed → exec e.1 s = .next (reply s q 3 [])) ∧
        (¬ malformed → e.2.2.1 = some true → controls s host q.ctx = false → exec e.1 s = .next (reply s q 4 [])))) ∧
  (∀ s host msg q, Asks s host msg 0x01 none createOk q → newNumber s = none → exec (.contextCreate host msg) s = .next (reply s q 5 [])) ∧
  (∀ s host msg q, Asks s host msg 0x03 (some true) (fun q => q.length == 0) q → ctxRuns s q.ctx = false →
    exec (.preempt host msg) s = .next (reply s q 6 [])) ∧
  (∀ s host msg q, Asks s host msg 0x04 (some true) (fun q => q.length == 0) q → s.saved q.ctx = false →
    exec (.resume host msg) s = .next (reply s q 6 [])) ∧
  (∀ s host msg q, Asks s host msg 0x05 (some true) regionOk q → controls s host (q.field 24 4) = false →
    exec (.regionSet host msg) s = .next (reply s q 4 [])) ∧
  (∀ s host msg q, Asks s host msg 0x0A (some false) pushOk q → s.mod.locked = true →
    exec (.firmwarePush host msg) s = .next (reply s q 2 [])) ∧
  (∀ s host msg q, Asks s host msg 0x08 (some false) partOkArgs q →
    let part := (q.field 4 4, q.field 8 8)
    (q.field 0 4 ≠ 2 → (∀ c ∈ partCores q, s.mod.snapshot.getLsbD c = false) → exec (.fencePart host msg) s = .next (reply s q 6 [])) ∧
    (q.field 0 4 = 2 →
      (part ∈ s.mod.fencedRows → exec (.fencePart host msg) s = .next (reply s q 6 [])) ∧
      (part ∉ s.mod.fencedRows →
        (part ∉ s.mod.retired → 1024 ≤ retiredRows s part.1 → exec (.fencePart host msg) s = .next (reply s q 5 [])) ∧
        (part ∈ s.mod.retired ∨ retiredRows s part.1 < 1024 → exec (.fencePart host msg) s = .next (reply { s with mod := { s.mod with
          retired := if part ∈ s.mod.retired then s.mod.retired else s.mod.retired ++ [part]
          fencedRows := s.mod.fencedRows ++ [part] } } q 0 []))))) ∧
  (∀ s host msg q, Asks s host msg 0x09 (some false) partOkArgs q →
    let part := (q.field 4 4, q.field 8 8)
    (q.field 0 4 ≠ 2 → ((∀ c ∈ partCores q, s.mod.snapshot.getLsbD c = true) ∨
        ∃ c ∈ partCores q, s.mod.snapshot.getLsbD c = false ∧ ∃ f ∈ s.mod.fencing, c ∈ f.cores) →
      exec (.returnPart host msg) s = .next (reply s q 6 [])) ∧
    (q.field 0 4 = 2 →
      (part ∈ s.mod.fencedRows → exec (.returnPart host msg) s = .next (reply { s with mod := { s.mod with
        fencedRows := s.mod.fencedRows.erase part, retired := s.mod.retired.erase part } } q 0 [])) ∧
      (part ∉ s.mod.fencedRows → exec (.returnPart host msg) s = .next (reply s q 6 [])))) ∧
  (∀ s host msg q n, Asks s host msg 0x01 none createOk q → newNumber s = some n →
    let c := newCtx n q s.mod.clock
    let t : State := { s with ctxs := s.ctxs.filter (fun x => x.number != n) ++ [c] }
    let u := if s.ctxs.any (fun x => x.live && x.host == host) then t else noteHost t host
    exec (.contextCreate host msg) s = .next (reply (deviceWrites u n [(c.trapBase, List.replicate 4096 0)]) { q with ctx := n } 0 [])) ∧
  (∀ s host msg q, Asks s host msg 0x02 (some true) (fun q => q.length == 0) q →
    exec (.contextDestroy host msg) s = .next (reply (endWith s q.ctx 0x3D 0 []) q 0 [])) ∧
  (∀ s host msg q, Asks s host msg 0x03 (some true) (fun q => q.length == 0) q → ctxRuns s q.ctx = true →
    exec (.preempt host msg) s = .next ((stopEngines s q.ctx).updCtx q.ctx (fun c => { c with preempt := .stopping s.mod.clock host q.seq }))) ∧
  (∀ s host msg q, Asks s host msg 0x04 (some true) (fun q => q.length == 0) q → s.saved q.ctx = true →
    exec (.resume host msg) s = .next (if resumeRoom s q.ctx then reply (resumeContext s q.ctx) q 0 [] else s)) ∧
  (∀ s host msg q, Asks s host msg 0x05 (some true) regionOk q → controls s host (q.field 24 4) = true →
    let r : Region := {
      index := q.field 0 4, vbase := q.field 8 8, length := q.field 16 8, ctx := q.field 24 4, perm := q.field 28 1, rate := q.field 32 4
      key := q.field 36 4, queue := ((regionOf s (q.field 0 4)).map Region.queue).getD [], window := s.mod.clock, count := 0 }
    let rs := s.mod.regions.filter (fun x => x.index != q.field 0 4) ++ [r]
    exec (.regionSet host msg) s = .next (reply { s with mod := { s.mod with regions := rs } } q 0 [])) ∧
  (∀ s host msg q, Asks s host msg 0x06 (some true) (fun q => q.length == 8 && decide (q.field 0 4 < 1024) && q.field 4 4 == 0) q →
    (∀ r, regionOf s (q.field 0 4) = some r → r.queue = []) → exec (.regionClear host msg) s =
      .next (reply { s with mod := { s.mod with regions := s.mod.regions.filter (fun x => x.index != q.field 0 4) } } q 0 [])) ∧
  (∀ s host msg q c, Asks s host msg 0x07 (some true) (fun q => q.length == 16 && q.field 0 8 % 4096 == 0 && decide (1 ≤ q.field 8 4) &&
      decide (q.field 8 4 ≤ 4096) && q.field 12 4 == 0) q → s.ctx? q.ctx = some c →
    exec (.stampRead host msg) s = .next (reply s q 0 (wordBytes ((List.range (q.field 8 4)).map (fun i =>
      let tile := q.field 0 8 / 4096 + i
      if ((leafOf s c (4096 * tile)).map Leaf.trk).getD false then (assoc c.stamps tile).getD 0 else 0)) ++
        List.replicate (q.field 8 4 % 2 * 4) 0))) ∧
  (∀ s host msg q, Asks s host msg 0x08 (some false) partOkArgs q → q.field 0 4 ≠ 2 →
    (partCores q).filter (fun c => s.mod.snapshot.getLsbD c) ≠ [] → ∃ t, exec (.fencePart host msg) s = .next t ∧
      t.mod.snapGen = (s.mod.snapGen + 1) % 2 ^ 32 ∧ t.mod.sent = s.mod.sent ∧ t.mem = s.mem ∧ t.warps = s.warps ∧ ∀ c, c < 256 →
        t.mod.snapshot.getLsbD c = (s.mod.snapshot.getLsbD c && !(partCores q).contains c)) ∧
  (∀ s host msg q, Asks s host msg 0x09 (some false) partOkArgs q → q.field 0 4 ≠ 2 →
    (partCores q).filter (fun c => !s.mod.snapshot.getLsbD c) ≠ [] → s.mod.fencing = [] → ∃ t, exec (.returnPart host msg) s = .next t ∧
      t.mod.snapGen = (s.mod.snapGen + 1) % 2 ^ 32 ∧ t.mem = s.mem ∧ t.warps = s.warps ∧ ∀ c, c < 256 →
        t.mod.snapshot.getLsbD c = (s.mod.snapshot.getLsbD c || (partCores q).contains c)) ∧
  (∀ s core f, s.mod.fencing = [f] → f.cores = [core] → coreFree s core = true → exec (.partLeaveService core) s =
    .next (reply { s with mod := { s.mod with fencing := [] } } (requestOf f.host f.head) 0 [])) ∧
  (∀ s host msg q, Asks s host msg 0x0A (some false) pushOk q → s.mod.locked = false →
    let n := q.field 12 4
    let o := q.field 0 8
    let t : State := { s with mem := Memory.writeN s.mem (carveBase + o) n (leNat ((q.args.drop 16).take n)), mod := { s.mod with
      imageLen := max s.mod.imageLen (o + n) } }
    (q.field 8 4 ≠ 1 → exec (.firmwarePush host msg) s = .next (reply t q 0 [])) ∧
    (q.field 8 4 = 1 → Config.signatureValid (imageBytes t) = true → exec (.firmwarePush host msg) s =
      .next (reply { t with mod := { t.mod with measurement := sha384 (s.mod.measurement ++ sha384 (imageBytes t)), locked := true
                                                released := true, heartbeats := List.replicate 16 s.mod.clock } } q 0 [])) ∧
    (q.field 8 4 = 1 → Config.signatureValid (imageBytes t) = false → exec (.firmwarePush host msg) s =
      .next (reply { t with mod := { t.mod with imageLen := 0 } } q 1 []))) ∧
  (∀ s host msg q, Asks s host msg 0x0B (some false) (fun q => q.length == 32) q →
    let body := s.mod.measurement ++ q.args.take 32 ++ natLe 16 Config.serialNumber
    exec (.attest host msg) s = .next (reply s q 0 (body ++ (List.range 96).map (fun i => (Config.quoteSignature body).getD i 0 % 256)))) ∧
  (∀ s host msg q, Asks s host msg 0x0C (some false)
      (fun q => q.length == 8 && decide (1500 ≤ q.field 0 4) && decide (q.field 0 4 ≤ 3000) && q.field 4 4 == 0) q →
    exec (.powerCap host msg) s = .next (reply { s with mod := { s.mod with powerCap := q.field 0 4 } } q 0 [])) ∧
  (∀ s host msg q, Asks s host msg 0x0D (some true) debugOk q →
    (q.field 0 4 = 0 → exec (.debugStepOff host msg) s = .next (reply (s.updCtx q.ctx (fun c => { c with stepping := false })) q 0 [])) ∧
    (q.field 0 4 = 1 → exec (.debugStepOn host msg) s = .next (reply (s.updCtx q.ctx (fun c => { c with stepping := true })) q 0 [])) ∧
    (q.field 0 4 = 2 → exec (.debugWatchSet host msg) s = .next (reply (s.updCtx q.ctx (fun c =>
      { c with watches := c.watches.set (q.field 4 4) (q.field 8 8, q.field 16 8) })) q 0 [])) ∧
    (q.field 0 4 = 3 → exec (.debugWatchClear host msg) s = .next (reply (s.updCtx q.ctx (fun c =>
      { c with watches := c.watches.set (q.field 4 4) (0, 0) })) q 0 [])) ∧
    (q.field 0 4 = 4 → exec (.debugHalt host msg) s =
      .next (reply (((s.warps.filter (fun w => w.ctx == q.ctx)).map Warp.id).foldl haltWarp s) q 0 []))) ∧
  (∀ s host msg q, Asks s host msg 0x0E (some false) (fun q => q.length == 0) q →
    exec (.keepalive host msg) s = .next (reply (noteHost s host) q 0 [])) ∧
  (∀ s host msg, (requestOf host msg).op = 0 ∨ 0x0E < (requestOf host msg).op →
    exec (.unknownOp host msg) s = .next (reply s (requestOf host msg) 6 [])) ∧
  ∀ s q status results, reply s q status results = { s with mod := { s.mod with sent := s.mod.sent ++ [{
    to_ := q.host, kind := 0
    bytes := natLe 2 q.op ++ natLe 2 status ++ natLe 4 q.seq ++ natLe 4 q.ctx ++ natLe 4 results.length ++ results }] } }

/-- R2, R355 to R360: what the module does by itself: module reset, a scheduler core's heartbeat and its absence, errors that ECC finds, the
retiring of a row, a failing core, and heat; each goes to a next state whatever the state it meets. A corrected error counts against the
row of its sector, whose size is the implementation's (log 48), and changes nothing else. Data found uncorrectable is a sector of HBM, a
64-bit word in L2 or of core SRAM, or a word of the register file, lanes 2j and 2j + 1 of a register (log 48); who reads it ends. That module reset clears memory is the model's
reading (log 47); so is what counts as work on a core, and who is told of a stack with no spare left (log 69). -/
def Obligations.ModuleEvents : Prop :=
  (∀ s, exec .moduleReset s = .next { State.reset with mod := { Module.reset with sent := s.mod.sent }, schedule := s.schedule
                                                       nextId := s.nextId, free := s.free }) ∧
  (∀ s core, exec (.schedulerHeartbeat core) s = .next (if s.mod.released then { s with mod := { s.mod with
    heartbeats := s.mod.heartbeats.set core s.mod.clock } } else s)) ∧
  (∀ s core t, s.mod.heartbeats[core]? = some t →
    (s.mod.released = true → t + 60000000 ≤ s.mod.clock →
      let u := endWhere s (fun _ => true) 0x55 []
      exec (.heartbeatTimeout core) s = .next { u with mod := { u.mod with released := Config.signatureValid (imageBytes u)
                                                                           heartbeats := List.replicate 16 u.mod.clock } }) ∧
    (s.mod.released = false ∨ s.mod.clock < t + 60000000 → exec (.heartbeatTimeout core) s = .next s)) ∧
  (∀ s stack row, 3 ≤ recentErrors s stack row →
    let t : State := { s with mod := { s.mod with corrected := s.mod.corrected.filter (fun e => !(e.1 == stack && e.2.1 == row)) } }
    (retiredRows s stack < 1024 → exec (.hbmRowRetire stack row) s = .next { t with mod := { t.mod with
      retired := if (stack, row) ∈ s.mod.retired then s.mod.retired else s.mod.retired ++ [(stack, row)] } }) ∧
    (1024 ≤ retiredRows s stack → exec (.hbmRowRetire stack row) s = .next { t with mod := { t.mod with
      sent := s.mod.sent ++ s.mod.hosts.map (fun h => { to_ := h.1, kind := 7, bytes := natLe 8 stack ++ natLe 8 row }) } })) ∧
  (∀ s stack row, recentErrors s stack row < 3 → exec (.hbmRowRetire stack row) s = .next s) ∧
  (∀ s stack row, recentErrors s stack row = (s.mod.corrected.filter (fun e =>
    e.1 == stack && e.2.1 == row && decide (s.mod.clock < e.2.2 + 24 * 3600 * 600000000))).length) ∧
  (∀ s loc, exec (.eccError 0 loc true) s = .next { s with mod := { s.mod with
      corrected := s.mod.corrected ++ [((rowOfSector loc).1, (rowOfSector loc).2, s.mod.clock)] } } ∧
    (∀ place, 0 < place → exec (.eccError place loc true) s = .next s) ∧
    (∀ place, place ≤ 2 → exec (.eccError place loc false) s =
      .next { s with mod := { s.mod with bad := s.mod.bad ++ [{ kind := place, loc := loc }] } }) ∧
    (∀ w r j, r < 256 → j < 16 → exec (.eccError 3 ((256 * w + r) * 16 + j) false) s =
      .next (s.updWarp w (fun v => if v.place.isSome then { v with bad := (r, j) :: v.bad } else v))) ∧
    rowOfSector loc = (loc / 2 ^ 31, 32 * (loc % 2 ^ 31) / Config.hbmRowBytes)) ∧
  (∀ s b a, s.mod.bad = [b] → badAt s a 1 =
    if b.kind = 0 ∧ a / 32 = b.loc then some 0x51 else if b.kind = 1 ∧ a / 8 = b.loc then some 0x52 else none) ∧
  (∀ (w : Warp) l n, w.isBad l n = true ↔ (n, l / 2) ∈ w.bad) ∧
  (∀ s core, exec (.coreFailure core) s = .next (endWhere s (fun c => (coreBlocks s core).any (fun b => b.ctx == c.number) ||
    (coreWarps s core).any (fun w => w.ctx == c.number)) 0x54 [core])) ∧
  (∀ s die, die < 4 → ∃ t u, exec (.thermalThrottle die) s = .next t ∧ exec (.thermalThrottleEnd die) s = .next u ∧
    t = { s with mod := { s.mod with throttled := t.mod.throttled } } ∧ u = { s with mod := { s.mod with throttled := u.mod.throttled } } ∧
    ∀ d, d < 4 → t.mod.throttled.getLsbD d = (s.mod.throttled.getLsbD d || d == die) ∧
      u.mod.throttled.getLsbD d = (s.mod.throttled.getLsbD d && d != die)) ∧
  (∀ s die, exec (.thermalShutdown die) s = .next (endWhere { s with mod := { s.mod with shut := s.mod.shut ||| (1#4 <<< die) } }
    (fun c => onDie s die c.number) 0x56 [die])) ∧
  (∀ (s : State) die core, die < 4 → dieOf core = die →
    coreUp ({ s with mod := { s.mod with shut := s.mod.shut ||| (1#4 <<< die) } } : State) core = false) ∧
  (∀ s p cause detail, (s.ctxs.filter (fun c => c.live && p c) = [] → endWhere s p cause detail = s) ∧
    ∀ c, s.ctxs.filter (fun c => c.live && p c) = [c] → endWhere s p cause detail = endWith s c.number cause 0 detail)


/-- R42 to R58: a well-formed instruction is read back from its word and from the word's bytes, and a word that is an instruction is the
word of that instruction: no bit of an encoding is dropped and no word has two meanings. -/
def Obligations.DecodeInvertsEncode : Prop :=
  (∀ i w, i.wf = true → encode i = some w → w < 2 ^ 32 ∧ decodeWord w = .ok i ∧
    ∀ rest, decodeBytes (natToBytes 4 w ++ rest) = .ok (i, rest)) ∧
  ∀ w i, w < 2 ^ 32 → decodeWord w = .ok i → i.wf = true ∧ encode i = some w

/-- Every step keeps every memory in its canonical form, from every state that has it (R164, log 1). -/
def Obligations.StepKeepsCanonical : Prop :=
  ∀ s t, s.Canonical → step s = .next t → t.Canonical

/-- R2, R355, R356: reset leaves no context, no warp, no block, no packet and the clock at 0; the measurement is 48 zero bytes, no image
is locked in and the scheduler cores stay in reset. Memory is in canonical form and lists nothing, so every byte reads 0 (log 1, the
model's choice). -/
def Obligations.ResetState : Prop :=
  State.reset.Canonical ∧ (∀ a, State.reset.byte a = 0#8) ∧ State.reset.ctxs = [] ∧ State.reset.launches = [] ∧ State.reset.jobs = [] ∧
  State.reset.blocks = [] ∧ State.reset.warps = [] ∧ State.reset.lines = [] ∧ State.reset.mod.clock = 0 ∧
  State.reset.mod.measurement = List.replicate 48 0 ∧ State.reset.mod.locked = false ∧ State.reset.mod.released = false

/-- A step runs the word that the selected run of the warp whose turn it is fetches (R19, R20, R42), with the run selected and the clock
one on, after the contexts whose end is due have ended; a word that is no instruction, or cannot be fetched, goes to its own row; an
event goes to its row; a word placed after reset is the next one run. That the turn is a schedule of the model's, that a step takes one
clock, and how a program comes to run are the model's (logs 2, 4, 14). -/
def Obligations.StepRunsTheWord : Prop :=
  (∀ s w t bytes, nextTurn s = .issue w → turnWarp (passClocks (popTurn s) 1) w = .fetched t bytes →
    (∀ i rest, decodeBytes bytes = .ok (i, rest) → step s = exec i t) ∧
    (∀ e, decodeBytes bytes = .error e → step s = exec (.unallocatedWord (bytesToNat bytes)) t)) ∧
  (∀ s w t, nextTurn s = .issue w → turnWarp (passClocks (popTurn s) 1) w = .unfetched t → step s = exec .fetchFault t) ∧
  (∀ s w, nextTurn s = .issue w → turnWarp (passClocks (popTurn s) 1) w = .idle → step s = .next (passClocks (popTurn s) 1)) ∧
  (∀ s i, nextTurn s = .event i → encode i = none → step s = exec i (passClocks (popTurn s) 1)) ∧
  (∀ s n, nextTurn s = .tick n → step s = .next (passClocks (popTurn s) n)) ∧
  (∀ s w run ready pc c id bytes t, s.warp? id = some w → mayIssue s w = true → selectRun w = some (run, ready, pc) →
    s.ctx? w.ctx = some c → fetchWord s c w (pc + BitVec.ofNat 56 (4 * w.group.length)).toNat = .ok (bytes, t) →
    turnWarp s id = .fetched { t with cur := some {
      warp := id, run := run, ready := ready, first := pc, addr := pc + BitVec.ofNat 56 (4 * w.group.length)
      word := BitVec.ofNat 32 (bytesToNat bytes) } } bytes) ∧
  (∀ s c w va pa l, resolve s c w.block .fetch 0 va 4 = .ok ⟨.hbm pa, some l⟩ → moveOf c l = none → s.lines = [] →
    badAt s pa 4 = none → s.mod.reader = 0 → s.mod.brought = [] →
    fetchWord s c w va = .ok ([s.byte pa, s.byte (pa + 1), s.byte (pa + 2), s.byte (pa + 3)], s)) ∧
  (∀ s n, s.mod.doomed = [] → (passClocks s n).mod.clock = s.mod.clock + n ∧ (passClocks s n).warps = s.warps ∧
    (passClocks s n).mem = s.mem ∧ (passClocks s n).blocks = s.blocks) ∧
  ∀ w i, decodeTableWord 32 w = some i → ∃ t, step (State.reset.withFetchWord 32 w) = exec i t ∧ t.mem = placedMem (w % 2 ^ 32) ∧
    t.cur.map Sel.run = some 0xFFFFFFFF#32

/-- R42 to R59: words of the spec's own listings decode to the instructions that stand beside them; a word of an unallocated cell, and
one with a reserved bit set, are refused by name (R58). -/
def Obligations.DecodedWords : Prop :=
  (∀ p ∈ ([
    (0xFE050000, Instr.hGuard 1 2), (0xFDFFFFFE, Instr.hImm 0x1FFFFFE), (0x4200C238, Instr.vAddImm 3 4 0x38),
    (0x46C0C181, Instr.vShlImm 3 3 1), (0x88818600, Instr.mSt 2 3 6 0), (0xC607FFFE, Instr.cWait 0 63 63 63),
    (0x0A280007, Instr.sMovi 10 7), (0x5424068F, Instr.vCmp 1 1 0 13 15), (0x4C060811, Instr.vFadd 24 16 17),
    (0xC01FFFE9, Instr.cBr 0 3 0x7FFE9), (0xD4200085, Instr.yKill 1 5), (0xCC400000, Instr.cExit),
    (0x5D850409, Instr.vIsect 20 8 9)] : List (Nat × Instr)), decodeWord p.1 = .ok p.2) ∧
  decodeWord 0x01C00000 = .error .illegalOpcode ∧ decodeWord 0xCC400001 = .error (.reservedField 1)
end

