-- ==== Sys2Proof/Laws/Lanes.lean ====
section
/-! SUPPORT. Sets of lanes, lanes of a warp, and the parts of the state found by number. -/

namespace Sys2Proof.Machine

/-! ### Sets of lanes -/

theorem fold_bits_lt (p : Nat → Bool) (n : Nat) :
    (List.range n).foldl (fun a l => if p l then a + 2 ^ l else a) 0 < 2 ^ n := by
  induction n with
  | zero => simp
  | succ n ih =>
    rw [List.range_succ, List.foldl_append]
    simp only [List.foldl_cons, List.foldl_nil, Nat.pow_succ]
    split <;> omega

theorem fold_bits_testBit (p : Nat → Bool) (n i : Nat) :
    ((List.range n).foldl (fun a l => if p l then a + 2 ^ l else a) 0).testBit i = (decide (i < n) && p i) := by
  induction n with
  | zero => simp
  | succ n ih =>
    rw [List.range_succ, List.foldl_append]
    simp only [List.foldl_cons, List.foldl_nil]
    have hlt := fold_bits_lt p n
    by_cases hp : p n
    · rw [if_pos hp, Nat.add_comm]
      rcases Nat.lt_trichotomy i n with h | h | h
      · rw [Nat.testBit_two_pow_add_gt h, ih]
        simp [h, Nat.lt_succ_of_lt h]
      · subst h
        rw [Nat.testBit_two_pow_add_eq, ih]
        simp [hp]
      · rw [Nat.testBit_lt_two_pow (Nat.lt_of_lt_of_le (by omega : _ < 2 ^ (n + 1)) (Nat.pow_le_pow_right (by omega) h))]
        simp [Nat.not_lt.mpr (Nat.succ_le_of_lt h)]
    · rw [if_neg hp, ih]
      by_cases hi : i = n
      · subst hi; simp [hp]
      · have : (i < n + 1) = (i < n) := by simp; omega
        simp [this]

theorem inMask_maskOf (p : Nat → Bool) (l : Nat) : inMask (maskOf p) l = (decide (l < 32) && p l) := by
  rw [inMask, maskOf, BitVec.getLsbD_ofNat, fold_bits_testBit]
  by_cases h : l < 32 <;> simp [h]

theorem inMask_lt {m : Mask} {l : Nat} (h : inMask m l = true) : l < 32 := by
  by_contra hl
  rw [inMask, BitVec.getLsbD_of_ge _ _ (by omega)] at h
  exact absurd h (by decide)

theorem mask_ext {a b : Mask} (h : ∀ l, l < 32 → inMask a l = inMask b l) : a = b :=
  BitVec.eq_of_getLsbD_eq (fun i hi => h i hi)

theorem inMask_zero (l : Nat) : inMask 0#32 l = false := by simp [inMask]

theorem inMask_allLanes {l : Nat} (h : l < 32) : inMask allLanes l = true := by
  rw [inMask, allLanes, BitVec.getLsbD_allOnes]; simp [h]

theorem inMask_oneLane (k l : Nat) : inMask (oneLane k) l = (decide (l < 32) && l == k) := inMask_maskOf _ _

theorem mem_lanesOf (m : Mask) (l : Nat) : l ∈ lanesOf m ↔ inMask m l = true := by
  simp only [lanesOf, List.mem_filter, List.mem_range]
  exact ⟨fun h => h.2, fun h => ⟨inMask_lt h, h⟩⟩

theorem lanesOf_eq_nil (m : Mask) : lanesOf m = [] ↔ m = 0#32 := by
  constructor
  · intro h
    refine mask_ext (fun l _ => ?_)
    rw [inMask_zero]
    by_contra hl
    have : l ∈ lanesOf m := (mem_lanesOf m l).2 (by simpa using hl)
    rw [h] at this
    exact absurd this List.not_mem_nil
  · rintro rfl
    apply List.eq_nil_iff_forall_not_mem.2
    intro l h
    rw [mem_lanesOf, inMask_zero] at h
    exact absurd h (by decide)

theorem lanesWhere_none {m : Mask} {p : Nat → Bool} (h : ∀ l, inMask m l = true → p l = false) :
    (lanesOf m).filter p = [] := by
  apply List.filter_eq_nil_iff.2
  intro l hl
  simp [h l ((mem_lanesOf m l).1 hl)]

/-! ### Lanes of a warp -/

theorem lane_eq {w : Warp} {l : Nat} (h : l < 32) : w.lane l = w.lanes[l] := by
  simp [Warp.lane, Nat.mod_eq_of_lt h]

theorem lane_mapLanes (w : Warp) (m : Mask) (f : Nat → Lane → Lane) {l : Nat} (h : l < 32) :
    (w.mapLanes m f).lane l = if inMask m l then f l (w.lane l) else w.lane l := by
  simp [Warp.lane, Warp.mapLanes, Nat.mod_eq_of_lt h]

/-- A lane is read from the lanes alone. -/
theorem lane_congr {v w : Warp} (h : v.lanes = w.lanes) (l : Nat) : v.lane l = w.lane l := by
  unfold Warp.lane
  rw [h]

/-- Two warps whose lanes agree have the same lanes. -/
theorem lanes_ext {v w : Warp} (h : ∀ l, l < 32 → v.lane l = w.lane l) : v.lanes = w.lanes := by
  apply Vector.ext
  intro i hi
  have := h i hi
  rwa [lane_eq hi, lane_eq hi] at this

@[simp] theorem mapLanes_id (w : Warp) (m : Mask) (f : Nat → Lane → Lane) : (w.mapLanes m f).id = w.id := by rw [Warp.mapLanes]
@[simp] theorem mapLanes_ctx (w : Warp) (m : Mask) (f : Nat → Lane → Lane) : (w.mapLanes m f).ctx = w.ctx := by rw [Warp.mapLanes]
@[simp] theorem mapLanes_launch (w : Warp) (m : Mask) (f : Nat → Lane → Lane) : (w.mapLanes m f).launch = w.launch := by rw [Warp.mapLanes]
@[simp] theorem mapLanes_block (w : Warp) (m : Mask) (f : Nat → Lane → Lane) : (w.mapLanes m f).block = w.block := by rw [Warp.mapLanes]
@[simp] theorem mapLanes_place (w : Warp) (m : Mask) (f : Nat → Lane → Lane) : (w.mapLanes m f).place = w.place := by rw [Warp.mapLanes]
@[simp] theorem mapLanes_kind (w : Warp) (m : Mask) (f : Nat → Lane → Lane) : (w.mapLanes m f).kind = w.kind := by rw [Warp.mapLanes]
@[simp] theorem mapLanes_regs (w : Warp) (m : Mask) (f : Nat → Lane → Lane) : (w.mapLanes m f).regs = w.regs := by rw [Warp.mapLanes]
@[simp] theorem mapLanes_marks (w : Warp) (m : Mask) (f : Nat → Lane → Lane) : (w.mapLanes m f).marks = w.marks := by rw [Warp.mapLanes]
@[simp] theorem mapLanes_ops (w : Warp) (m : Mask) (f : Nat → Lane → Lane) : (w.mapLanes m f).ops = w.ops := by rw [Warp.mapLanes]
@[simp] theorem mapLanes_issued (w : Warp) (m : Mask) (f : Nat → Lane → Lane) : (w.mapLanes m f).issued = w.issued := by rw [Warp.mapLanes]
@[simp] theorem mapLanes_fences (w : Warp) (m : Mask) (f : Nat → Lane → Lane) : (w.mapLanes m f).fences = w.fences := by rw [Warp.mapLanes]
@[simp] theorem mapLanes_absent (w : Warp) (m : Mask) (f : Nat → Lane → Lane) : (w.mapLanes m f).absent = w.absent := by rw [Warp.mapLanes]
@[simp] theorem mapLanes_group (w : Warp) (m : Mask) (f : Nat → Lane → Lane) : (w.mapLanes m f).group = w.group := by rw [Warp.mapLanes]
@[simp] theorem mapLanes_groupRun (w : Warp) (m : Mask) (f : Nat → Lane → Lane) : (w.mapLanes m f).groupRun = w.groupRun := by rw [Warp.mapLanes]
@[simp] theorem mapLanes_groupReady (w : Warp) (m : Mask) (f : Nat → Lane → Lane) : (w.mapLanes m f).groupReady = w.groupReady := by rw [Warp.mapLanes]
@[simp] theorem mapLanes_yielded (w : Warp) (m : Mask) (f : Nat → Lane → Lane) : (w.mapLanes m f).yielded = w.yielded := by rw [Warp.mapLanes]
@[simp] theorem mapLanes_lateFaults (w : Warp) (m : Mask) (f : Nat → Lane → Lane) : (w.mapLanes m f).lateFaults = w.lateFaults := by rw [Warp.mapLanes]
@[simp] theorem mapLanes_bad (w : Warp) (m : Mask) (f : Nat → Lane → Lane) : (w.mapLanes m f).bad = w.bad := by rw [Warp.mapLanes]

/-- Changing lanes changes nothing else of a warp. -/
theorem mapLanes_rest (w : Warp) (m : Mask) (f : Nat → Lane → Lane) : { w.mapLanes m f with lanes := w.lanes } = w := by rw [Warp.mapLanes]

theorem inMask_readyLanes (w : Warp) {l : Nat} (h : l < 32) : inMask w.readyLanes l = (w.lane l).isReady := by
  simp [Warp.readyLanes, inMask_maskOf, h]

theorem inMask_live (w : Warp) {l : Nat} (h : l < 32) : inMask w.live l = !(w.lane l).isExited := by
  simp [Warp.live, inMask_maskOf, h]

/-! ### Lists keyed by a number -/

theorem find_updFirst_same {α : Type} {p : α → Bool} {f : α → α} {l : List α} {x : α} (hp : p (f x) = true)
    (h : l.find? p = some x) : (updFirst p f l).find? p = some (f x) := by
  induction l with
  | nil => simp at h
  | cons y ys ih =>
    rw [List.find?_cons] at h
    unfold updFirst
    split at h
    · rename_i hy
      cases h
      rw [if_pos hy, List.find?_cons, hp]
    · rename_i hy
      rw [if_neg (by simp [hy]), List.find?_cons, hy]
      exact ih h

theorem find_updFirst_other {α : Type} {p q : α → Bool} {f : α → α} {l : List α}
    (h : ∀ x, p x = true → q x = false ∧ q (f x) = false) : (updFirst p f l).find? q = l.find? q := by
  induction l with
  | nil => rfl
  | cons y ys ih =>
    unfold updFirst
    by_cases hy : p y
    · rw [if_pos hy, List.find?_cons, List.find?_cons, (h y hy).1, (h y hy).2]
    · rw [if_neg hy, List.find?_cons, List.find?_cons, ih]

theorem updFirst_none {α : Type} {p : α → Bool} {f : α → α} {l : List α} (h : l.find? p = none) : updFirst p f l = l := by
  induction l with
  | nil => rfl
  | cons y ys ih =>
    rw [List.find?_cons] at h
    unfold updFirst
    split at h
    · simp at h
    · rename_i hy
      rw [if_neg (by simp [hy]), ih h]

theorem mem_updFirst {α : Type} {p : α → Bool} {f : α → α} {l : List α} {x : α} (h : x ∈ updFirst p f l) :
    x ∈ l ∨ ∃ y ∈ l, p y = true ∧ x = f y := by
  induction l with
  | nil => simp [updFirst] at h
  | cons y ys ih =>
    unfold updFirst at h
    split at h
    · rename_i hy
      rcases List.mem_cons.1 h with rfl | h
      · exact .inr ⟨y, by simp, hy, rfl⟩
      · exact .inl (List.mem_cons_of_mem _ h)
    · rcases List.mem_cons.1 h with rfl | h
      · exact .inl (by simp)
      · rcases ih h with h | ⟨z, hz, hp, rfl⟩
        · exact .inl (List.mem_cons_of_mem _ h)
        · exact .inr ⟨z, List.mem_cons_of_mem _ hz, hp, rfl⟩

/-! ### Warps found by their number -/

theorem warp?_id {s : State} {i : Nat} {w : Warp} (h : s.warp? i = some w) : w.id = i := by
  have := List.find?_some h
  simpa using this

theorem warp?_setWarp {s : State} {v w : Warp} (h : s.warp? w.id = some v) : (s.setWarp w).warp? w.id = some w :=
  find_updFirst_same (p := fun x : Warp => x.id == w.id) (f := fun _ => w) (by simp) h

theorem warp?_setWarp_other (s : State) (w : Warp) {j : Nat} (h : j ≠ w.id) : (s.setWarp w).warp? j = s.warp? j := by
  refine find_updFirst_other (fun x hx => ?_)
  simp only [beq_iff_eq] at hx
  simp [hx, Ne.symm h]

theorem warp?_updWarp {s : State} {i : Nat} {w : Warp} {f : Warp → Warp} (h : s.warp? i = some w) (hf : (f w).id = i) :
    (s.updWarp i f).warp? i = some (f w) :=
  find_updFirst_same (p := fun x : Warp => x.id == i) (f := f) (by simp [hf]) h

theorem warp?_updWarp_other (s : State) (i : Nat) (f : Warp → Warp) (hf : ∀ w, (f w).id = w.id) {j : Nat} (h : j ≠ i) :
    (s.updWarp i f).warp? j = s.warp? j := by
  refine find_updFirst_other (fun x hx => ?_)
  simp only [beq_iff_eq] at hx
  simp [hf, hx, Ne.symm h]

@[simp] theorem warp?_cur (s : State) (c : Option Sel) (i : Nat) : ({ s with cur := c } : State).warp? i = s.warp? i := rfl
@[simp] theorem ctx?_cur (s : State) (c : Option Sel) (i : Nat) : ({ s with cur := c } : State).ctx? i = s.ctx? i := rfl
@[simp] theorem ctx?_setWarp (s : State) (w : Warp) (i : Nat) : (s.setWarp w).ctx? i = s.ctx? i := rfl
@[simp] theorem ctx?_updWarp (s : State) (k : Nat) (f : Warp → Warp) (i : Nat) : (s.updWarp k f).ctx? i = s.ctx? i := rfl
@[simp] theorem warp?_updCtx (s : State) (k : Nat) (f : Ctx → Ctx) (i : Nat) : (s.updCtx k f).warp? i = s.warp? i := rfl
@[simp] theorem launch?_setWarp (s : State) (w : Warp) (i : Nat) : (s.setWarp w).launch? i = s.launch? i := rfl
@[simp] theorem launch?_updWarp (s : State) (k : Nat) (f : Warp → Warp) (i : Nat) : (s.updWarp k f).launch? i = s.launch? i := rfl
@[simp] theorem launch?_updCtx (s : State) (k : Nat) (f : Ctx → Ctx) (i : Nat) : (s.updCtx k f).launch? i = s.launch? i := rfl

theorem ctx?_number {s : State} {i : Nat} {c : Ctx} (h : s.ctx? i = some c) : c.number = i := by
  have := List.find?_some h
  simpa using this

theorem ctx?_updCtx {s : State} {i : Nat} {c : Ctx} {f : Ctx → Ctx} (h : s.ctx? i = some c) (hf : (f c).number = i) :
    (s.updCtx i f).ctx? i = some (f c) :=
  find_updFirst_same (p := fun x : Ctx => x.number == i) (f := f) (by simp [hf]) h

theorem ctx?_updCtx_other (s : State) (i : Nat) (f : Ctx → Ctx) (hf : ∀ c, (f c).number = c.number) {j : Nat} (h : j ≠ i) :
    (s.updCtx i f).ctx? j = s.ctx? j := by
  refine find_updFirst_other (fun x hx => ?_)
  simp only [beq_iff_eq] at hx
  simp [hf, hx, Ne.symm h]

end Sys2Proof.Machine
end

