-- ==== Sys2Proof/Laws/State.lean ====
section
/-! SUPPORT. One lemma for each field each update leaves alone, so that no proof unfolds a record update. -/

namespace Sys2Proof.Machine

/-! ### The state -/

@[simp] theorem State.setWarp_mem (s : State) (w : Warp) : (s.setWarp w).mem = s.mem := by rw [State.setWarp]
@[simp] theorem State.setWarp_mod (s : State) (w : Warp) : (s.setWarp w).mod = s.mod := by rw [State.setWarp]
@[simp] theorem State.setWarp_ctxs (s : State) (w : Warp) : (s.setWarp w).ctxs = s.ctxs := by rw [State.setWarp]
@[simp] theorem State.setWarp_launches (s : State) (w : Warp) : (s.setWarp w).launches = s.launches := by rw [State.setWarp]
@[simp] theorem State.setWarp_jobs (s : State) (w : Warp) : (s.setWarp w).jobs = s.jobs := by rw [State.setWarp]
@[simp] theorem State.setWarp_blocks (s : State) (w : Warp) : (s.setWarp w).blocks = s.blocks := by rw [State.setWarp]
@[simp] theorem State.setWarp_bars (s : State) (w : Warp) : (s.setWarp w).bars = s.bars := by rw [State.setWarp]
@[simp] theorem State.setWarp_lines (s : State) (w : Warp) : (s.setWarp w).lines = s.lines := by rw [State.setWarp]
@[simp] theorem State.setWarp_bins (s : State) (w : Warp) : (s.setWarp w).bins = s.bins := by rw [State.setWarp]
@[simp] theorem State.setWarp_passes (s : State) (w : Warp) : (s.setWarp w).passes = s.passes := by rw [State.setWarp]
@[simp] theorem State.setWarp_builds (s : State) (w : Warp) : (s.setWarp w).builds = s.builds := by rw [State.setWarp]
@[simp] theorem State.setWarp_schedule (s : State) (w : Warp) : (s.setWarp w).schedule = s.schedule := by rw [State.setWarp]
@[simp] theorem State.setWarp_cur (s : State) (w : Warp) : (s.setWarp w).cur = s.cur := by rw [State.setWarp]
@[simp] theorem State.setWarp_nextId (s : State) (w : Warp) : (s.setWarp w).nextId = s.nextId := by rw [State.setWarp]
@[simp] theorem State.setWarp_free (s : State) (w : Warp) : (s.setWarp w).free = s.free := by rw [State.setWarp]

@[simp] theorem State.updWarp_mem (s : State) (i : Nat) (f : Warp → Warp) : (s.updWarp i f).mem = s.mem := by rw [State.updWarp]
@[simp] theorem State.updWarp_mod (s : State) (i : Nat) (f : Warp → Warp) : (s.updWarp i f).mod = s.mod := by rw [State.updWarp]
@[simp] theorem State.updWarp_ctxs (s : State) (i : Nat) (f : Warp → Warp) : (s.updWarp i f).ctxs = s.ctxs := by rw [State.updWarp]
@[simp] theorem State.updWarp_launches (s : State) (i : Nat) (f : Warp → Warp) : (s.updWarp i f).launches = s.launches := by rw [State.updWarp]
@[simp] theorem State.updWarp_jobs (s : State) (i : Nat) (f : Warp → Warp) : (s.updWarp i f).jobs = s.jobs := by rw [State.updWarp]
@[simp] theorem State.updWarp_blocks (s : State) (i : Nat) (f : Warp → Warp) : (s.updWarp i f).blocks = s.blocks := by rw [State.updWarp]
@[simp] theorem State.updWarp_bars (s : State) (i : Nat) (f : Warp → Warp) : (s.updWarp i f).bars = s.bars := by rw [State.updWarp]
@[simp] theorem State.updWarp_lines (s : State) (i : Nat) (f : Warp → Warp) : (s.updWarp i f).lines = s.lines := by rw [State.updWarp]
@[simp] theorem State.updWarp_bins (s : State) (i : Nat) (f : Warp → Warp) : (s.updWarp i f).bins = s.bins := by rw [State.updWarp]
@[simp] theorem State.updWarp_passes (s : State) (i : Nat) (f : Warp → Warp) : (s.updWarp i f).passes = s.passes := by rw [State.updWarp]
@[simp] theorem State.updWarp_builds (s : State) (i : Nat) (f : Warp → Warp) : (s.updWarp i f).builds = s.builds := by rw [State.updWarp]
@[simp] theorem State.updWarp_schedule (s : State) (i : Nat) (f : Warp → Warp) : (s.updWarp i f).schedule = s.schedule := by rw [State.updWarp]
@[simp] theorem State.updWarp_cur (s : State) (i : Nat) (f : Warp → Warp) : (s.updWarp i f).cur = s.cur := by rw [State.updWarp]
@[simp] theorem State.updWarp_nextId (s : State) (i : Nat) (f : Warp → Warp) : (s.updWarp i f).nextId = s.nextId := by rw [State.updWarp]
@[simp] theorem State.updWarp_free (s : State) (i : Nat) (f : Warp → Warp) : (s.updWarp i f).free = s.free := by rw [State.updWarp]

@[simp] theorem State.setBlock_mem (s : State) (b : Block) : (s.setBlock b).mem = s.mem := by rw [State.setBlock]
@[simp] theorem State.setBlock_mod (s : State) (b : Block) : (s.setBlock b).mod = s.mod := by rw [State.setBlock]
@[simp] theorem State.setBlock_ctxs (s : State) (b : Block) : (s.setBlock b).ctxs = s.ctxs := by rw [State.setBlock]
@[simp] theorem State.setBlock_launches (s : State) (b : Block) : (s.setBlock b).launches = s.launches := by rw [State.setBlock]
@[simp] theorem State.setBlock_jobs (s : State) (b : Block) : (s.setBlock b).jobs = s.jobs := by rw [State.setBlock]
@[simp] theorem State.setBlock_warps (s : State) (b : Block) : (s.setBlock b).warps = s.warps := by rw [State.setBlock]
@[simp] theorem State.setBlock_bars (s : State) (b : Block) : (s.setBlock b).bars = s.bars := by rw [State.setBlock]
@[simp] theorem State.setBlock_lines (s : State) (b : Block) : (s.setBlock b).lines = s.lines := by rw [State.setBlock]
@[simp] theorem State.setBlock_bins (s : State) (b : Block) : (s.setBlock b).bins = s.bins := by rw [State.setBlock]
@[simp] theorem State.setBlock_passes (s : State) (b : Block) : (s.setBlock b).passes = s.passes := by rw [State.setBlock]
@[simp] theorem State.setBlock_builds (s : State) (b : Block) : (s.setBlock b).builds = s.builds := by rw [State.setBlock]
@[simp] theorem State.setBlock_schedule (s : State) (b : Block) : (s.setBlock b).schedule = s.schedule := by rw [State.setBlock]
@[simp] theorem State.setBlock_cur (s : State) (b : Block) : (s.setBlock b).cur = s.cur := by rw [State.setBlock]
@[simp] theorem State.setBlock_nextId (s : State) (b : Block) : (s.setBlock b).nextId = s.nextId := by rw [State.setBlock]
@[simp] theorem State.setBlock_free (s : State) (b : Block) : (s.setBlock b).free = s.free := by rw [State.setBlock]

@[simp] theorem State.updBlock_mem (s : State) (i : Nat) (f : Block → Block) : (s.updBlock i f).mem = s.mem := by rw [State.updBlock]
@[simp] theorem State.updBlock_mod (s : State) (i : Nat) (f : Block → Block) : (s.updBlock i f).mod = s.mod := by rw [State.updBlock]
@[simp] theorem State.updBlock_ctxs (s : State) (i : Nat) (f : Block → Block) : (s.updBlock i f).ctxs = s.ctxs := by rw [State.updBlock]
@[simp] theorem State.updBlock_launches (s : State) (i : Nat) (f : Block → Block) : (s.updBlock i f).launches = s.launches := by rw [State.updBlock]
@[simp] theorem State.updBlock_jobs (s : State) (i : Nat) (f : Block → Block) : (s.updBlock i f).jobs = s.jobs := by rw [State.updBlock]
@[simp] theorem State.updBlock_warps (s : State) (i : Nat) (f : Block → Block) : (s.updBlock i f).warps = s.warps := by rw [State.updBlock]
@[simp] theorem State.updBlock_bars (s : State) (i : Nat) (f : Block → Block) : (s.updBlock i f).bars = s.bars := by rw [State.updBlock]
@[simp] theorem State.updBlock_lines (s : State) (i : Nat) (f : Block → Block) : (s.updBlock i f).lines = s.lines := by rw [State.updBlock]
@[simp] theorem State.updBlock_bins (s : State) (i : Nat) (f : Block → Block) : (s.updBlock i f).bins = s.bins := by rw [State.updBlock]
@[simp] theorem State.updBlock_passes (s : State) (i : Nat) (f : Block → Block) : (s.updBlock i f).passes = s.passes := by rw [State.updBlock]
@[simp] theorem State.updBlock_builds (s : State) (i : Nat) (f : Block → Block) : (s.updBlock i f).builds = s.builds := by rw [State.updBlock]
@[simp] theorem State.updBlock_schedule (s : State) (i : Nat) (f : Block → Block) : (s.updBlock i f).schedule = s.schedule := by rw [State.updBlock]
@[simp] theorem State.updBlock_cur (s : State) (i : Nat) (f : Block → Block) : (s.updBlock i f).cur = s.cur := by rw [State.updBlock]
@[simp] theorem State.updBlock_nextId (s : State) (i : Nat) (f : Block → Block) : (s.updBlock i f).nextId = s.nextId := by rw [State.updBlock]
@[simp] theorem State.updBlock_free (s : State) (i : Nat) (f : Block → Block) : (s.updBlock i f).free = s.free := by rw [State.updBlock]

@[simp] theorem State.setLaunch_mem (s : State) (l : Launch) : (s.setLaunch l).mem = s.mem := by rw [State.setLaunch]
@[simp] theorem State.setLaunch_mod (s : State) (l : Launch) : (s.setLaunch l).mod = s.mod := by rw [State.setLaunch]
@[simp] theorem State.setLaunch_ctxs (s : State) (l : Launch) : (s.setLaunch l).ctxs = s.ctxs := by rw [State.setLaunch]
@[simp] theorem State.setLaunch_jobs (s : State) (l : Launch) : (s.setLaunch l).jobs = s.jobs := by rw [State.setLaunch]
@[simp] theorem State.setLaunch_blocks (s : State) (l : Launch) : (s.setLaunch l).blocks = s.blocks := by rw [State.setLaunch]
@[simp] theorem State.setLaunch_warps (s : State) (l : Launch) : (s.setLaunch l).warps = s.warps := by rw [State.setLaunch]
@[simp] theorem State.setLaunch_bars (s : State) (l : Launch) : (s.setLaunch l).bars = s.bars := by rw [State.setLaunch]
@[simp] theorem State.setLaunch_lines (s : State) (l : Launch) : (s.setLaunch l).lines = s.lines := by rw [State.setLaunch]
@[simp] theorem State.setLaunch_bins (s : State) (l : Launch) : (s.setLaunch l).bins = s.bins := by rw [State.setLaunch]
@[simp] theorem State.setLaunch_passes (s : State) (l : Launch) : (s.setLaunch l).passes = s.passes := by rw [State.setLaunch]
@[simp] theorem State.setLaunch_builds (s : State) (l : Launch) : (s.setLaunch l).builds = s.builds := by rw [State.setLaunch]
@[simp] theorem State.setLaunch_schedule (s : State) (l : Launch) : (s.setLaunch l).schedule = s.schedule := by rw [State.setLaunch]
@[simp] theorem State.setLaunch_cur (s : State) (l : Launch) : (s.setLaunch l).cur = s.cur := by rw [State.setLaunch]
@[simp] theorem State.setLaunch_nextId (s : State) (l : Launch) : (s.setLaunch l).nextId = s.nextId := by rw [State.setLaunch]
@[simp] theorem State.setLaunch_free (s : State) (l : Launch) : (s.setLaunch l).free = s.free := by rw [State.setLaunch]

@[simp] theorem State.updLaunch_mem (s : State) (i : Nat) (f : Launch → Launch) : (s.updLaunch i f).mem = s.mem := by rw [State.updLaunch]
@[simp] theorem State.updLaunch_mod (s : State) (i : Nat) (f : Launch → Launch) : (s.updLaunch i f).mod = s.mod := by rw [State.updLaunch]
@[simp] theorem State.updLaunch_ctxs (s : State) (i : Nat) (f : Launch → Launch) : (s.updLaunch i f).ctxs = s.ctxs := by rw [State.updLaunch]
@[simp] theorem State.updLaunch_jobs (s : State) (i : Nat) (f : Launch → Launch) : (s.updLaunch i f).jobs = s.jobs := by rw [State.updLaunch]
@[simp] theorem State.updLaunch_blocks (s : State) (i : Nat) (f : Launch → Launch) : (s.updLaunch i f).blocks = s.blocks := by rw [State.updLaunch]
@[simp] theorem State.updLaunch_warps (s : State) (i : Nat) (f : Launch → Launch) : (s.updLaunch i f).warps = s.warps := by rw [State.updLaunch]
@[simp] theorem State.updLaunch_bars (s : State) (i : Nat) (f : Launch → Launch) : (s.updLaunch i f).bars = s.bars := by rw [State.updLaunch]
@[simp] theorem State.updLaunch_lines (s : State) (i : Nat) (f : Launch → Launch) : (s.updLaunch i f).lines = s.lines := by rw [State.updLaunch]
@[simp] theorem State.updLaunch_bins (s : State) (i : Nat) (f : Launch → Launch) : (s.updLaunch i f).bins = s.bins := by rw [State.updLaunch]
@[simp] theorem State.updLaunch_passes (s : State) (i : Nat) (f : Launch → Launch) : (s.updLaunch i f).passes = s.passes := by rw [State.updLaunch]
@[simp] theorem State.updLaunch_builds (s : State) (i : Nat) (f : Launch → Launch) : (s.updLaunch i f).builds = s.builds := by rw [State.updLaunch]
@[simp] theorem State.updLaunch_schedule (s : State) (i : Nat) (f : Launch → Launch) : (s.updLaunch i f).schedule = s.schedule := by rw [State.updLaunch]
@[simp] theorem State.updLaunch_cur (s : State) (i : Nat) (f : Launch → Launch) : (s.updLaunch i f).cur = s.cur := by rw [State.updLaunch]
@[simp] theorem State.updLaunch_nextId (s : State) (i : Nat) (f : Launch → Launch) : (s.updLaunch i f).nextId = s.nextId := by rw [State.updLaunch]
@[simp] theorem State.updLaunch_free (s : State) (i : Nat) (f : Launch → Launch) : (s.updLaunch i f).free = s.free := by rw [State.updLaunch]

@[simp] theorem State.setJob_mem (s : State) (j : Job) : (s.setJob j).mem = s.mem := by rw [State.setJob]
@[simp] theorem State.setJob_mod (s : State) (j : Job) : (s.setJob j).mod = s.mod := by rw [State.setJob]
@[simp] theorem State.setJob_ctxs (s : State) (j : Job) : (s.setJob j).ctxs = s.ctxs := by rw [State.setJob]
@[simp] theorem State.setJob_launches (s : State) (j : Job) : (s.setJob j).launches = s.launches := by rw [State.setJob]
@[simp] theorem State.setJob_blocks (s : State) (j : Job) : (s.setJob j).blocks = s.blocks := by rw [State.setJob]
@[simp] theorem State.setJob_warps (s : State) (j : Job) : (s.setJob j).warps = s.warps := by rw [State.setJob]
@[simp] theorem State.setJob_bars (s : State) (j : Job) : (s.setJob j).bars = s.bars := by rw [State.setJob]
@[simp] theorem State.setJob_lines (s : State) (j : Job) : (s.setJob j).lines = s.lines := by rw [State.setJob]
@[simp] theorem State.setJob_bins (s : State) (j : Job) : (s.setJob j).bins = s.bins := by rw [State.setJob]
@[simp] theorem State.setJob_passes (s : State) (j : Job) : (s.setJob j).passes = s.passes := by rw [State.setJob]
@[simp] theorem State.setJob_builds (s : State) (j : Job) : (s.setJob j).builds = s.builds := by rw [State.setJob]
@[simp] theorem State.setJob_schedule (s : State) (j : Job) : (s.setJob j).schedule = s.schedule := by rw [State.setJob]
@[simp] theorem State.setJob_cur (s : State) (j : Job) : (s.setJob j).cur = s.cur := by rw [State.setJob]
@[simp] theorem State.setJob_nextId (s : State) (j : Job) : (s.setJob j).nextId = s.nextId := by rw [State.setJob]
@[simp] theorem State.setJob_free (s : State) (j : Job) : (s.setJob j).free = s.free := by rw [State.setJob]

@[simp] theorem State.setCtx_mem (s : State) (c : Ctx) : (s.setCtx c).mem = s.mem := by rw [State.setCtx]
@[simp] theorem State.setCtx_mod (s : State) (c : Ctx) : (s.setCtx c).mod = s.mod := by rw [State.setCtx]
@[simp] theorem State.setCtx_launches (s : State) (c : Ctx) : (s.setCtx c).launches = s.launches := by rw [State.setCtx]
@[simp] theorem State.setCtx_jobs (s : State) (c : Ctx) : (s.setCtx c).jobs = s.jobs := by rw [State.setCtx]
@[simp] theorem State.setCtx_blocks (s : State) (c : Ctx) : (s.setCtx c).blocks = s.blocks := by rw [State.setCtx]
@[simp] theorem State.setCtx_warps (s : State) (c : Ctx) : (s.setCtx c).warps = s.warps := by rw [State.setCtx]
@[simp] theorem State.setCtx_bars (s : State) (c : Ctx) : (s.setCtx c).bars = s.bars := by rw [State.setCtx]
@[simp] theorem State.setCtx_lines (s : State) (c : Ctx) : (s.setCtx c).lines = s.lines := by rw [State.setCtx]
@[simp] theorem State.setCtx_bins (s : State) (c : Ctx) : (s.setCtx c).bins = s.bins := by rw [State.setCtx]
@[simp] theorem State.setCtx_passes (s : State) (c : Ctx) : (s.setCtx c).passes = s.passes := by rw [State.setCtx]
@[simp] theorem State.setCtx_builds (s : State) (c : Ctx) : (s.setCtx c).builds = s.builds := by rw [State.setCtx]
@[simp] theorem State.setCtx_schedule (s : State) (c : Ctx) : (s.setCtx c).schedule = s.schedule := by rw [State.setCtx]
@[simp] theorem State.setCtx_cur (s : State) (c : Ctx) : (s.setCtx c).cur = s.cur := by rw [State.setCtx]
@[simp] theorem State.setCtx_nextId (s : State) (c : Ctx) : (s.setCtx c).nextId = s.nextId := by rw [State.setCtx]
@[simp] theorem State.setCtx_free (s : State) (c : Ctx) : (s.setCtx c).free = s.free := by rw [State.setCtx]

@[simp] theorem State.updCtx_mem (s : State) (i : Nat) (f : Ctx → Ctx) : (s.updCtx i f).mem = s.mem := by rw [State.updCtx]
@[simp] theorem State.updCtx_mod (s : State) (i : Nat) (f : Ctx → Ctx) : (s.updCtx i f).mod = s.mod := by rw [State.updCtx]
@[simp] theorem State.updCtx_launches (s : State) (i : Nat) (f : Ctx → Ctx) : (s.updCtx i f).launches = s.launches := by rw [State.updCtx]
@[simp] theorem State.updCtx_jobs (s : State) (i : Nat) (f : Ctx → Ctx) : (s.updCtx i f).jobs = s.jobs := by rw [State.updCtx]
@[simp] theorem State.updCtx_blocks (s : State) (i : Nat) (f : Ctx → Ctx) : (s.updCtx i f).blocks = s.blocks := by rw [State.updCtx]
@[simp] theorem State.updCtx_warps (s : State) (i : Nat) (f : Ctx → Ctx) : (s.updCtx i f).warps = s.warps := by rw [State.updCtx]
@[simp] theorem State.updCtx_bars (s : State) (i : Nat) (f : Ctx → Ctx) : (s.updCtx i f).bars = s.bars := by rw [State.updCtx]
@[simp] theorem State.updCtx_lines (s : State) (i : Nat) (f : Ctx → Ctx) : (s.updCtx i f).lines = s.lines := by rw [State.updCtx]
@[simp] theorem State.updCtx_bins (s : State) (i : Nat) (f : Ctx → Ctx) : (s.updCtx i f).bins = s.bins := by rw [State.updCtx]
@[simp] theorem State.updCtx_passes (s : State) (i : Nat) (f : Ctx → Ctx) : (s.updCtx i f).passes = s.passes := by rw [State.updCtx]
@[simp] theorem State.updCtx_builds (s : State) (i : Nat) (f : Ctx → Ctx) : (s.updCtx i f).builds = s.builds := by rw [State.updCtx]
@[simp] theorem State.updCtx_schedule (s : State) (i : Nat) (f : Ctx → Ctx) : (s.updCtx i f).schedule = s.schedule := by rw [State.updCtx]
@[simp] theorem State.updCtx_cur (s : State) (i : Nat) (f : Ctx → Ctx) : (s.updCtx i f).cur = s.cur := by rw [State.updCtx]
@[simp] theorem State.updCtx_nextId (s : State) (i : Nat) (f : Ctx → Ctx) : (s.updCtx i f).nextId = s.nextId := by rw [State.updCtx]
@[simp] theorem State.updCtx_free (s : State) (i : Nat) (f : Ctx → Ctx) : (s.updCtx i f).free = s.free := by rw [State.updCtx]

@[simp] theorem State.updPass_mem (s : State) (i : Nat) (f : Pass → Pass) : (s.updPass i f).mem = s.mem := by rw [State.updPass]
@[simp] theorem State.updPass_mod (s : State) (i : Nat) (f : Pass → Pass) : (s.updPass i f).mod = s.mod := by rw [State.updPass]
@[simp] theorem State.updPass_ctxs (s : State) (i : Nat) (f : Pass → Pass) : (s.updPass i f).ctxs = s.ctxs := by rw [State.updPass]
@[simp] theorem State.updPass_launches (s : State) (i : Nat) (f : Pass → Pass) : (s.updPass i f).launches = s.launches := by rw [State.updPass]
@[simp] theorem State.updPass_jobs (s : State) (i : Nat) (f : Pass → Pass) : (s.updPass i f).jobs = s.jobs := by rw [State.updPass]
@[simp] theorem State.updPass_blocks (s : State) (i : Nat) (f : Pass → Pass) : (s.updPass i f).blocks = s.blocks := by rw [State.updPass]
@[simp] theorem State.updPass_warps (s : State) (i : Nat) (f : Pass → Pass) : (s.updPass i f).warps = s.warps := by rw [State.updPass]
@[simp] theorem State.updPass_bars (s : State) (i : Nat) (f : Pass → Pass) : (s.updPass i f).bars = s.bars := by rw [State.updPass]
@[simp] theorem State.updPass_lines (s : State) (i : Nat) (f : Pass → Pass) : (s.updPass i f).lines = s.lines := by rw [State.updPass]
@[simp] theorem State.updPass_bins (s : State) (i : Nat) (f : Pass → Pass) : (s.updPass i f).bins = s.bins := by rw [State.updPass]
@[simp] theorem State.updPass_builds (s : State) (i : Nat) (f : Pass → Pass) : (s.updPass i f).builds = s.builds := by rw [State.updPass]
@[simp] theorem State.updPass_schedule (s : State) (i : Nat) (f : Pass → Pass) : (s.updPass i f).schedule = s.schedule := by rw [State.updPass]
@[simp] theorem State.updPass_cur (s : State) (i : Nat) (f : Pass → Pass) : (s.updPass i f).cur = s.cur := by rw [State.updPass]
@[simp] theorem State.updPass_nextId (s : State) (i : Nat) (f : Pass → Pass) : (s.updPass i f).nextId = s.nextId := by rw [State.updPass]
@[simp] theorem State.updPass_free (s : State) (i : Nat) (f : Pass → Pass) : (s.updPass i f).free = s.free := by rw [State.updPass]

@[simp] theorem State.setOp_mem (s : State) (o : Op) : (s.setOp o).mem = s.mem := by rw [State.setOp]
@[simp] theorem State.setOp_mod (s : State) (o : Op) : (s.setOp o).mod = s.mod := by rw [State.setOp]
@[simp] theorem State.setOp_ctxs (s : State) (o : Op) : (s.setOp o).ctxs = s.ctxs := by rw [State.setOp]
@[simp] theorem State.setOp_launches (s : State) (o : Op) : (s.setOp o).launches = s.launches := by rw [State.setOp]
@[simp] theorem State.setOp_jobs (s : State) (o : Op) : (s.setOp o).jobs = s.jobs := by rw [State.setOp]
@[simp] theorem State.setOp_blocks (s : State) (o : Op) : (s.setOp o).blocks = s.blocks := by rw [State.setOp]
@[simp] theorem State.setOp_bars (s : State) (o : Op) : (s.setOp o).bars = s.bars := by rw [State.setOp]
@[simp] theorem State.setOp_lines (s : State) (o : Op) : (s.setOp o).lines = s.lines := by rw [State.setOp]
@[simp] theorem State.setOp_bins (s : State) (o : Op) : (s.setOp o).bins = s.bins := by rw [State.setOp]
@[simp] theorem State.setOp_passes (s : State) (o : Op) : (s.setOp o).passes = s.passes := by rw [State.setOp]
@[simp] theorem State.setOp_builds (s : State) (o : Op) : (s.setOp o).builds = s.builds := by rw [State.setOp]
@[simp] theorem State.setOp_schedule (s : State) (o : Op) : (s.setOp o).schedule = s.schedule := by rw [State.setOp]
@[simp] theorem State.setOp_cur (s : State) (o : Op) : (s.setOp o).cur = s.cur := by rw [State.setOp]
@[simp] theorem State.setOp_nextId (s : State) (o : Op) : (s.setOp o).nextId = s.nextId := by rw [State.setOp]
@[simp] theorem State.setOp_free (s : State) (o : Op) : (s.setOp o).free = s.free := by rw [State.setOp]

/-! ### A warp -/

@[simp] theorem Warp.setForm_id (v : Warp) (n : Nat) (f : RegForm) : (v.setForm n f).id = v.id := by rw [Warp.setForm]
@[simp] theorem Warp.setForm_ctx (v : Warp) (n : Nat) (f : RegForm) : (v.setForm n f).ctx = v.ctx := by rw [Warp.setForm]
@[simp] theorem Warp.setForm_launch (v : Warp) (n : Nat) (f : RegForm) : (v.setForm n f).launch = v.launch := by rw [Warp.setForm]
@[simp] theorem Warp.setForm_block (v : Warp) (n : Nat) (f : RegForm) : (v.setForm n f).block = v.block := by rw [Warp.setForm]
@[simp] theorem Warp.setForm_number (v : Warp) (n : Nat) (f : RegForm) : (v.setForm n f).number = v.number := by rw [Warp.setForm]
@[simp] theorem Warp.setForm_kind (v : Warp) (n : Nat) (f : RegForm) : (v.setForm n f).kind = v.kind := by rw [Warp.setForm]
@[simp] theorem Warp.setForm_snap (v : Warp) (n : Nat) (f : RegForm) : (v.setForm n f).snap = v.snap := by rw [Warp.setForm]
@[simp] theorem Warp.setForm_place (v : Warp) (n : Nat) (f : RegForm) : (v.setForm n f).place = v.place := by rw [Warp.setForm]
@[simp] theorem Warp.setForm_die (v : Warp) (n : Nat) (f : RegForm) : (v.setForm n f).die = v.die := by rw [Warp.setForm]
@[simp] theorem Warp.setForm_cluster (v : Warp) (n : Nat) (f : RegForm) : (v.setForm n f).cluster = v.cluster := by rw [Warp.setForm]
@[simp] theorem Warp.setForm_marks (v : Warp) (n : Nat) (f : RegForm) : (v.setForm n f).marks = v.marks := by rw [Warp.setForm]
@[simp] theorem Warp.setForm_lanes (v : Warp) (n : Nat) (f : RegForm) : (v.setForm n f).lanes = v.lanes := by rw [Warp.setForm]
@[simp] theorem Warp.setForm_ops (v : Warp) (n : Nat) (f : RegForm) : (v.setForm n f).ops = v.ops := by rw [Warp.setForm]
@[simp] theorem Warp.setForm_bound (v : Warp) (n : Nat) (f : RegForm) : (v.setForm n f).bound = v.bound := by rw [Warp.setForm]
@[simp] theorem Warp.setForm_issued (v : Warp) (n : Nat) (f : RegForm) : (v.setForm n f).issued = v.issued := by rw [Warp.setForm]
@[simp] theorem Warp.setForm_fences (v : Warp) (n : Nat) (f : RegForm) : (v.setForm n f).fences = v.fences := by rw [Warp.setForm]
@[simp] theorem Warp.setForm_absent (v : Warp) (n : Nat) (f : RegForm) : (v.setForm n f).absent = v.absent := by rw [Warp.setForm]
@[simp] theorem Warp.setForm_group (v : Warp) (n : Nat) (f : RegForm) : (v.setForm n f).group = v.group := by rw [Warp.setForm]
@[simp] theorem Warp.setForm_groupRun (v : Warp) (n : Nat) (f : RegForm) : (v.setForm n f).groupRun = v.groupRun := by rw [Warp.setForm]
@[simp] theorem Warp.setForm_groupReady (v : Warp) (n : Nat) (f : RegForm) : (v.setForm n f).groupReady = v.groupReady := by rw [Warp.setForm]
@[simp] theorem Warp.setForm_yielded (v : Warp) (n : Nat) (f : RegForm) : (v.setForm n f).yielded = v.yielded := by rw [Warp.setForm]
@[simp] theorem Warp.setForm_lateFaults (v : Warp) (n : Nat) (f : RegForm) : (v.setForm n f).lateFaults = v.lateFaults := by rw [Warp.setForm]
@[simp] theorem Warp.setForm_bad (v : Warp) (n : Nat) (f : RegForm) : (v.setForm n f).bad = v.bad := by rw [Warp.setForm]

@[simp] theorem Warp.setLanes_id (v : Warp) (n : Nat) (m : Mask) (x : Nat → Word) : (v.setLanes n m x).id = v.id := by rw [Warp.setLanes, Warp.setForm]
@[simp] theorem Warp.setLanes_ctx (v : Warp) (n : Nat) (m : Mask) (x : Nat → Word) : (v.setLanes n m x).ctx = v.ctx := by rw [Warp.setLanes, Warp.setForm]
@[simp] theorem Warp.setLanes_launch (v : Warp) (n : Nat) (m : Mask) (x : Nat → Word) : (v.setLanes n m x).launch = v.launch := by rw [Warp.setLanes, Warp.setForm]
@[simp] theorem Warp.setLanes_block (v : Warp) (n : Nat) (m : Mask) (x : Nat → Word) : (v.setLanes n m x).block = v.block := by rw [Warp.setLanes, Warp.setForm]
@[simp] theorem Warp.setLanes_number (v : Warp) (n : Nat) (m : Mask) (x : Nat → Word) : (v.setLanes n m x).number = v.number := by rw [Warp.setLanes, Warp.setForm]
@[simp] theorem Warp.setLanes_kind (v : Warp) (n : Nat) (m : Mask) (x : Nat → Word) : (v.setLanes n m x).kind = v.kind := by rw [Warp.setLanes, Warp.setForm]
@[simp] theorem Warp.setLanes_snap (v : Warp) (n : Nat) (m : Mask) (x : Nat → Word) : (v.setLanes n m x).snap = v.snap := by rw [Warp.setLanes, Warp.setForm]
@[simp] theorem Warp.setLanes_place (v : Warp) (n : Nat) (m : Mask) (x : Nat → Word) : (v.setLanes n m x).place = v.place := by rw [Warp.setLanes, Warp.setForm]
@[simp] theorem Warp.setLanes_die (v : Warp) (n : Nat) (m : Mask) (x : Nat → Word) : (v.setLanes n m x).die = v.die := by rw [Warp.setLanes, Warp.setForm]
@[simp] theorem Warp.setLanes_cluster (v : Warp) (n : Nat) (m : Mask) (x : Nat → Word) : (v.setLanes n m x).cluster = v.cluster := by rw [Warp.setLanes, Warp.setForm]
@[simp] theorem Warp.setLanes_marks (v : Warp) (n : Nat) (m : Mask) (x : Nat → Word) : (v.setLanes n m x).marks = v.marks := by rw [Warp.setLanes, Warp.setForm]
@[simp] theorem Warp.setLanes_lanes (v : Warp) (n : Nat) (m : Mask) (x : Nat → Word) : (v.setLanes n m x).lanes = v.lanes := by rw [Warp.setLanes, Warp.setForm]
@[simp] theorem Warp.setLanes_ops (v : Warp) (n : Nat) (m : Mask) (x : Nat → Word) : (v.setLanes n m x).ops = v.ops := by rw [Warp.setLanes, Warp.setForm]
@[simp] theorem Warp.setLanes_bound (v : Warp) (n : Nat) (m : Mask) (x : Nat → Word) : (v.setLanes n m x).bound = v.bound := by rw [Warp.setLanes, Warp.setForm]
@[simp] theorem Warp.setLanes_issued (v : Warp) (n : Nat) (m : Mask) (x : Nat → Word) : (v.setLanes n m x).issued = v.issued := by rw [Warp.setLanes, Warp.setForm]
@[simp] theorem Warp.setLanes_fences (v : Warp) (n : Nat) (m : Mask) (x : Nat → Word) : (v.setLanes n m x).fences = v.fences := by rw [Warp.setLanes, Warp.setForm]
@[simp] theorem Warp.setLanes_absent (v : Warp) (n : Nat) (m : Mask) (x : Nat → Word) : (v.setLanes n m x).absent = v.absent := by rw [Warp.setLanes, Warp.setForm]
@[simp] theorem Warp.setLanes_group (v : Warp) (n : Nat) (m : Mask) (x : Nat → Word) : (v.setLanes n m x).group = v.group := by rw [Warp.setLanes, Warp.setForm]
@[simp] theorem Warp.setLanes_groupRun (v : Warp) (n : Nat) (m : Mask) (x : Nat → Word) : (v.setLanes n m x).groupRun = v.groupRun := by rw [Warp.setLanes, Warp.setForm]
@[simp] theorem Warp.setLanes_groupReady (v : Warp) (n : Nat) (m : Mask) (x : Nat → Word) : (v.setLanes n m x).groupReady = v.groupReady := by rw [Warp.setLanes, Warp.setForm]
@[simp] theorem Warp.setLanes_yielded (v : Warp) (n : Nat) (m : Mask) (x : Nat → Word) : (v.setLanes n m x).yielded = v.yielded := by rw [Warp.setLanes, Warp.setForm]
@[simp] theorem Warp.setLanes_lateFaults (v : Warp) (n : Nat) (m : Mask) (x : Nat → Word) : (v.setLanes n m x).lateFaults = v.lateFaults := by rw [Warp.setLanes, Warp.setForm]
@[simp] theorem Warp.setLanes_bad (v : Warp) (n : Nat) (m : Mask) (x : Nat → Word) : (v.setLanes n m x).bad = v.bad := by rw [Warp.setLanes, Warp.setForm]

@[simp] theorem Warp.setUniform_id (v : Warp) (n : Nat) (x : Word) : (v.setUniform n x).id = v.id := by rw [Warp.setUniform, Warp.setForm]
@[simp] theorem Warp.setUniform_ctx (v : Warp) (n : Nat) (x : Word) : (v.setUniform n x).ctx = v.ctx := by rw [Warp.setUniform, Warp.setForm]
@[simp] theorem Warp.setUniform_launch (v : Warp) (n : Nat) (x : Word) : (v.setUniform n x).launch = v.launch := by rw [Warp.setUniform, Warp.setForm]
@[simp] theorem Warp.setUniform_block (v : Warp) (n : Nat) (x : Word) : (v.setUniform n x).block = v.block := by rw [Warp.setUniform, Warp.setForm]
@[simp] theorem Warp.setUniform_number (v : Warp) (n : Nat) (x : Word) : (v.setUniform n x).number = v.number := by rw [Warp.setUniform, Warp.setForm]
@[simp] theorem Warp.setUniform_kind (v : Warp) (n : Nat) (x : Word) : (v.setUniform n x).kind = v.kind := by rw [Warp.setUniform, Warp.setForm]
@[simp] theorem Warp.setUniform_snap (v : Warp) (n : Nat) (x : Word) : (v.setUniform n x).snap = v.snap := by rw [Warp.setUniform, Warp.setForm]
@[simp] theorem Warp.setUniform_place (v : Warp) (n : Nat) (x : Word) : (v.setUniform n x).place = v.place := by rw [Warp.setUniform, Warp.setForm]
@[simp] theorem Warp.setUniform_die (v : Warp) (n : Nat) (x : Word) : (v.setUniform n x).die = v.die := by rw [Warp.setUniform, Warp.setForm]
@[simp] theorem Warp.setUniform_cluster (v : Warp) (n : Nat) (x : Word) : (v.setUniform n x).cluster = v.cluster := by rw [Warp.setUniform, Warp.setForm]
@[simp] theorem Warp.setUniform_marks (v : Warp) (n : Nat) (x : Word) : (v.setUniform n x).marks = v.marks := by rw [Warp.setUniform, Warp.setForm]
@[simp] theorem Warp.setUniform_lanes (v : Warp) (n : Nat) (x : Word) : (v.setUniform n x).lanes = v.lanes := by rw [Warp.setUniform, Warp.setForm]
@[simp] theorem Warp.setUniform_ops (v : Warp) (n : Nat) (x : Word) : (v.setUniform n x).ops = v.ops := by rw [Warp.setUniform, Warp.setForm]
@[simp] theorem Warp.setUniform_bound (v : Warp) (n : Nat) (x : Word) : (v.setUniform n x).bound = v.bound := by rw [Warp.setUniform, Warp.setForm]
@[simp] theorem Warp.setUniform_issued (v : Warp) (n : Nat) (x : Word) : (v.setUniform n x).issued = v.issued := by rw [Warp.setUniform, Warp.setForm]
@[simp] theorem Warp.setUniform_fences (v : Warp) (n : Nat) (x : Word) : (v.setUniform n x).fences = v.fences := by rw [Warp.setUniform, Warp.setForm]
@[simp] theorem Warp.setUniform_absent (v : Warp) (n : Nat) (x : Word) : (v.setUniform n x).absent = v.absent := by rw [Warp.setUniform, Warp.setForm]
@[simp] theorem Warp.setUniform_group (v : Warp) (n : Nat) (x : Word) : (v.setUniform n x).group = v.group := by rw [Warp.setUniform, Warp.setForm]
@[simp] theorem Warp.setUniform_groupRun (v : Warp) (n : Nat) (x : Word) : (v.setUniform n x).groupRun = v.groupRun := by rw [Warp.setUniform, Warp.setForm]
@[simp] theorem Warp.setUniform_groupReady (v : Warp) (n : Nat) (x : Word) : (v.setUniform n x).groupReady = v.groupReady := by rw [Warp.setUniform, Warp.setForm]
@[simp] theorem Warp.setUniform_yielded (v : Warp) (n : Nat) (x : Word) : (v.setUniform n x).yielded = v.yielded := by rw [Warp.setUniform, Warp.setForm]
@[simp] theorem Warp.setUniform_lateFaults (v : Warp) (n : Nat) (x : Word) : (v.setUniform n x).lateFaults = v.lateFaults := by rw [Warp.setUniform, Warp.setForm]
@[simp] theorem Warp.setUniform_bad (v : Warp) (n : Nat) (x : Word) : (v.setUniform n x).bad = v.bad := by rw [Warp.setUniform, Warp.setForm]

@[simp] theorem Warp.setLane_id (v : Warp) (l : Nat) (x : Lane) : (v.setLane l x).id = v.id := by rw [Warp.setLane]
@[simp] theorem Warp.setLane_ctx (v : Warp) (l : Nat) (x : Lane) : (v.setLane l x).ctx = v.ctx := by rw [Warp.setLane]
@[simp] theorem Warp.setLane_launch (v : Warp) (l : Nat) (x : Lane) : (v.setLane l x).launch = v.launch := by rw [Warp.setLane]
@[simp] theorem Warp.setLane_block (v : Warp) (l : Nat) (x : Lane) : (v.setLane l x).block = v.block := by rw [Warp.setLane]
@[simp] theorem Warp.setLane_number (v : Warp) (l : Nat) (x : Lane) : (v.setLane l x).number = v.number := by rw [Warp.setLane]
@[simp] theorem Warp.setLane_kind (v : Warp) (l : Nat) (x : Lane) : (v.setLane l x).kind = v.kind := by rw [Warp.setLane]
@[simp] theorem Warp.setLane_snap (v : Warp) (l : Nat) (x : Lane) : (v.setLane l x).snap = v.snap := by rw [Warp.setLane]
@[simp] theorem Warp.setLane_place (v : Warp) (l : Nat) (x : Lane) : (v.setLane l x).place = v.place := by rw [Warp.setLane]
@[simp] theorem Warp.setLane_die (v : Warp) (l : Nat) (x : Lane) : (v.setLane l x).die = v.die := by rw [Warp.setLane]
@[simp] theorem Warp.setLane_cluster (v : Warp) (l : Nat) (x : Lane) : (v.setLane l x).cluster = v.cluster := by rw [Warp.setLane]
@[simp] theorem Warp.setLane_regs (v : Warp) (l : Nat) (x : Lane) : (v.setLane l x).regs = v.regs := by rw [Warp.setLane]
@[simp] theorem Warp.setLane_marks (v : Warp) (l : Nat) (x : Lane) : (v.setLane l x).marks = v.marks := by rw [Warp.setLane]
@[simp] theorem Warp.setLane_ops (v : Warp) (l : Nat) (x : Lane) : (v.setLane l x).ops = v.ops := by rw [Warp.setLane]
@[simp] theorem Warp.setLane_bound (v : Warp) (l : Nat) (x : Lane) : (v.setLane l x).bound = v.bound := by rw [Warp.setLane]
@[simp] theorem Warp.setLane_issued (v : Warp) (l : Nat) (x : Lane) : (v.setLane l x).issued = v.issued := by rw [Warp.setLane]
@[simp] theorem Warp.setLane_fences (v : Warp) (l : Nat) (x : Lane) : (v.setLane l x).fences = v.fences := by rw [Warp.setLane]
@[simp] theorem Warp.setLane_absent (v : Warp) (l : Nat) (x : Lane) : (v.setLane l x).absent = v.absent := by rw [Warp.setLane]
@[simp] theorem Warp.setLane_group (v : Warp) (l : Nat) (x : Lane) : (v.setLane l x).group = v.group := by rw [Warp.setLane]
@[simp] theorem Warp.setLane_groupRun (v : Warp) (l : Nat) (x : Lane) : (v.setLane l x).groupRun = v.groupRun := by rw [Warp.setLane]
@[simp] theorem Warp.setLane_groupReady (v : Warp) (l : Nat) (x : Lane) : (v.setLane l x).groupReady = v.groupReady := by rw [Warp.setLane]
@[simp] theorem Warp.setLane_yielded (v : Warp) (l : Nat) (x : Lane) : (v.setLane l x).yielded = v.yielded := by rw [Warp.setLane]
@[simp] theorem Warp.setLane_lateFaults (v : Warp) (l : Nat) (x : Lane) : (v.setLane l x).lateFaults = v.lateFaults := by rw [Warp.setLane]
@[simp] theorem Warp.setLane_bad (v : Warp) (l : Nat) (x : Lane) : (v.setLane l x).bad = v.bad := by rw [Warp.setLane]

@[simp] theorem Warp.setOp_id (v : Warp) (o : Op) : (v.setOp o).id = v.id := by rw [Warp.setOp]
@[simp] theorem Warp.setOp_ctx (v : Warp) (o : Op) : (v.setOp o).ctx = v.ctx := by rw [Warp.setOp]
@[simp] theorem Warp.setOp_launch (v : Warp) (o : Op) : (v.setOp o).launch = v.launch := by rw [Warp.setOp]
@[simp] theorem Warp.setOp_block (v : Warp) (o : Op) : (v.setOp o).block = v.block := by rw [Warp.setOp]
@[simp] theorem Warp.setOp_number (v : Warp) (o : Op) : (v.setOp o).number = v.number := by rw [Warp.setOp]
@[simp] theorem Warp.setOp_kind (v : Warp) (o : Op) : (v.setOp o).kind = v.kind := by rw [Warp.setOp]
@[simp] theorem Warp.setOp_snap (v : Warp) (o : Op) : (v.setOp o).snap = v.snap := by rw [Warp.setOp]
@[simp] theorem Warp.setOp_place (v : Warp) (o : Op) : (v.setOp o).place = v.place := by rw [Warp.setOp]
@[simp] theorem Warp.setOp_die (v : Warp) (o : Op) : (v.setOp o).die = v.die := by rw [Warp.setOp]
@[simp] theorem Warp.setOp_cluster (v : Warp) (o : Op) : (v.setOp o).cluster = v.cluster := by rw [Warp.setOp]
@[simp] theorem Warp.setOp_regs (v : Warp) (o : Op) : (v.setOp o).regs = v.regs := by rw [Warp.setOp]
@[simp] theorem Warp.setOp_marks (v : Warp) (o : Op) : (v.setOp o).marks = v.marks := by rw [Warp.setOp]
@[simp] theorem Warp.setOp_lanes (v : Warp) (o : Op) : (v.setOp o).lanes = v.lanes := by rw [Warp.setOp]
@[simp] theorem Warp.setOp_bound (v : Warp) (o : Op) : (v.setOp o).bound = v.bound := by rw [Warp.setOp]
@[simp] theorem Warp.setOp_issued (v : Warp) (o : Op) : (v.setOp o).issued = v.issued := by rw [Warp.setOp]
@[simp] theorem Warp.setOp_fences (v : Warp) (o : Op) : (v.setOp o).fences = v.fences := by rw [Warp.setOp]
@[simp] theorem Warp.setOp_absent (v : Warp) (o : Op) : (v.setOp o).absent = v.absent := by rw [Warp.setOp]
@[simp] theorem Warp.setOp_group (v : Warp) (o : Op) : (v.setOp o).group = v.group := by rw [Warp.setOp]
@[simp] theorem Warp.setOp_groupRun (v : Warp) (o : Op) : (v.setOp o).groupRun = v.groupRun := by rw [Warp.setOp]
@[simp] theorem Warp.setOp_groupReady (v : Warp) (o : Op) : (v.setOp o).groupReady = v.groupReady := by rw [Warp.setOp]
@[simp] theorem Warp.setOp_yielded (v : Warp) (o : Op) : (v.setOp o).yielded = v.yielded := by rw [Warp.setOp]
@[simp] theorem Warp.setOp_lateFaults (v : Warp) (o : Op) : (v.setOp o).lateFaults = v.lateFaults := by rw [Warp.setOp]
@[simp] theorem Warp.setOp_bad (v : Warp) (o : Op) : (v.setOp o).bad = v.bad := by rw [Warp.setOp]

@[simp] theorem Warp.wrote_id (v : Warp) (m : Mask) (n : Nat) : (v.wrote m n).id = v.id := by rw [Warp.wrote]
@[simp] theorem Warp.wrote_ctx (v : Warp) (m : Mask) (n : Nat) : (v.wrote m n).ctx = v.ctx := by rw [Warp.wrote]
@[simp] theorem Warp.wrote_launch (v : Warp) (m : Mask) (n : Nat) : (v.wrote m n).launch = v.launch := by rw [Warp.wrote]
@[simp] theorem Warp.wrote_block (v : Warp) (m : Mask) (n : Nat) : (v.wrote m n).block = v.block := by rw [Warp.wrote]
@[simp] theorem Warp.wrote_number (v : Warp) (m : Mask) (n : Nat) : (v.wrote m n).number = v.number := by rw [Warp.wrote]
@[simp] theorem Warp.wrote_kind (v : Warp) (m : Mask) (n : Nat) : (v.wrote m n).kind = v.kind := by rw [Warp.wrote]
@[simp] theorem Warp.wrote_snap (v : Warp) (m : Mask) (n : Nat) : (v.wrote m n).snap = v.snap := by rw [Warp.wrote]
@[simp] theorem Warp.wrote_place (v : Warp) (m : Mask) (n : Nat) : (v.wrote m n).place = v.place := by rw [Warp.wrote]
@[simp] theorem Warp.wrote_die (v : Warp) (m : Mask) (n : Nat) : (v.wrote m n).die = v.die := by rw [Warp.wrote]
@[simp] theorem Warp.wrote_cluster (v : Warp) (m : Mask) (n : Nat) : (v.wrote m n).cluster = v.cluster := by rw [Warp.wrote]
@[simp] theorem Warp.wrote_regs (v : Warp) (m : Mask) (n : Nat) : (v.wrote m n).regs = v.regs := by rw [Warp.wrote]
@[simp] theorem Warp.wrote_marks (v : Warp) (m : Mask) (n : Nat) : (v.wrote m n).marks = v.marks := by rw [Warp.wrote]
@[simp] theorem Warp.wrote_lanes (v : Warp) (m : Mask) (n : Nat) : (v.wrote m n).lanes = v.lanes := by rw [Warp.wrote]
@[simp] theorem Warp.wrote_ops (v : Warp) (m : Mask) (n : Nat) : (v.wrote m n).ops = v.ops := by rw [Warp.wrote]
@[simp] theorem Warp.wrote_bound (v : Warp) (m : Mask) (n : Nat) : (v.wrote m n).bound = v.bound := by rw [Warp.wrote]
@[simp] theorem Warp.wrote_issued (v : Warp) (m : Mask) (n : Nat) : (v.wrote m n).issued = v.issued := by rw [Warp.wrote]
@[simp] theorem Warp.wrote_fences (v : Warp) (m : Mask) (n : Nat) : (v.wrote m n).fences = v.fences := by rw [Warp.wrote]
@[simp] theorem Warp.wrote_absent (v : Warp) (m : Mask) (n : Nat) : (v.wrote m n).absent = v.absent := by rw [Warp.wrote]
@[simp] theorem Warp.wrote_group (v : Warp) (m : Mask) (n : Nat) : (v.wrote m n).group = v.group := by rw [Warp.wrote]
@[simp] theorem Warp.wrote_groupRun (v : Warp) (m : Mask) (n : Nat) : (v.wrote m n).groupRun = v.groupRun := by rw [Warp.wrote]
@[simp] theorem Warp.wrote_groupReady (v : Warp) (m : Mask) (n : Nat) : (v.wrote m n).groupReady = v.groupReady := by rw [Warp.wrote]
@[simp] theorem Warp.wrote_yielded (v : Warp) (m : Mask) (n : Nat) : (v.wrote m n).yielded = v.yielded := by rw [Warp.wrote]
@[simp] theorem Warp.wrote_lateFaults (v : Warp) (m : Mask) (n : Nat) : (v.wrote m n).lateFaults = v.lateFaults := by rw [Warp.wrote]

/-! ### A lane -/

@[simp] theorem Lane.forget_cond (x : Lane) (n : Nat) : (x.forget n).cond = x.cond := by rw [Lane.forget]
@[simp] theorem Lane.forget_pc (x : Lane) (n : Nat) : (x.forget n).pc = x.pc := by rw [Lane.forget]
@[simp] theorem Lane.forget_age (x : Lane) (n : Nat) : (x.forget n).age = x.age := by rw [Lane.forget]
@[simp] theorem Lane.forget_preds (x : Lane) (n : Nat) : (x.forget n).preds = x.preds := by rw [Lane.forget]
@[simp] theorem Lane.forget_residue (x : Lane) (n : Nat) : (x.forget n).residue = x.residue := by rw [Lane.forget]
@[simp] theorem Lane.forget_pass (x : Lane) (n : Nat) : (x.forget n).pass = x.pass := by rw [Lane.forget]
@[simp] theorem Lane.forget_fpflags (x : Lane) (n : Nat) : (x.forget n).fpflags = x.fpflags := by rw [Lane.forget]
@[simp] theorem Lane.forget_issued (x : Lane) (n : Nat) : (x.forget n).issued = x.issued := by rw [Lane.forget]
@[simp] theorem Lane.forget_arrivals (x : Lane) (n : Nat) : (x.forget n).arrivals = x.arrivals := by rw [Lane.forget]
@[simp] theorem Lane.forget_origin (x : Lane) (n : Nat) : (x.forget n).origin = x.origin := by rw [Lane.forget]
@[simp] theorem Lane.forget_emitted (x : Lane) (n : Nat) : (x.forget n).emitted = x.emitted := by rw [Lane.forget]
@[simp] theorem Lane.forget_pastFence (x : Lane) (n : Nat) : (x.forget n).pastFence = x.pastFence := by rw [Lane.forget]

@[simp] theorem Lane.remember_cond (x : Lane) (n a : Nat) (old : Word) : (x.remember n a old).cond = x.cond := by rw [Lane.remember]
@[simp] theorem Lane.remember_pc (x : Lane) (n a : Nat) (old : Word) : (x.remember n a old).pc = x.pc := by rw [Lane.remember]
@[simp] theorem Lane.remember_age (x : Lane) (n a : Nat) (old : Word) : (x.remember n a old).age = x.age := by rw [Lane.remember]
@[simp] theorem Lane.remember_preds (x : Lane) (n a : Nat) (old : Word) : (x.remember n a old).preds = x.preds := by rw [Lane.remember]
@[simp] theorem Lane.remember_residue (x : Lane) (n a : Nat) (old : Word) : (x.remember n a old).residue = x.residue := by rw [Lane.remember]
@[simp] theorem Lane.remember_pass (x : Lane) (n a : Nat) (old : Word) : (x.remember n a old).pass = x.pass := by rw [Lane.remember]
@[simp] theorem Lane.remember_fpflags (x : Lane) (n a : Nat) (old : Word) : (x.remember n a old).fpflags = x.fpflags := by rw [Lane.remember]
@[simp] theorem Lane.remember_issued (x : Lane) (n a : Nat) (old : Word) : (x.remember n a old).issued = x.issued := by rw [Lane.remember]
@[simp] theorem Lane.remember_arrivals (x : Lane) (n a : Nat) (old : Word) : (x.remember n a old).arrivals = x.arrivals := by rw [Lane.remember]
@[simp] theorem Lane.remember_origin (x : Lane) (n a : Nat) (old : Word) : (x.remember n a old).origin = x.origin := by rw [Lane.remember]
@[simp] theorem Lane.remember_emitted (x : Lane) (n a : Nat) (old : Word) : (x.remember n a old).emitted = x.emitted := by rw [Lane.remember]
@[simp] theorem Lane.remember_pastFence (x : Lane) (n a : Nat) (old : Word) : (x.remember n a old).pastFence = x.pastFence := by rw [Lane.remember]

@[simp] theorem Lane.setPred_cond (x : Lane) (k : Nat) (p : Pred) : (x.setPred k p).cond = x.cond := by rw [Lane.setPred]
@[simp] theorem Lane.setPred_pc (x : Lane) (k : Nat) (p : Pred) : (x.setPred k p).pc = x.pc := by rw [Lane.setPred]
@[simp] theorem Lane.setPred_age (x : Lane) (k : Nat) (p : Pred) : (x.setPred k p).age = x.age := by rw [Lane.setPred]
@[simp] theorem Lane.setPred_residue (x : Lane) (k : Nat) (p : Pred) : (x.setPred k p).residue = x.residue := by rw [Lane.setPred]
@[simp] theorem Lane.setPred_pass (x : Lane) (k : Nat) (p : Pred) : (x.setPred k p).pass = x.pass := by rw [Lane.setPred]
@[simp] theorem Lane.setPred_fpflags (x : Lane) (k : Nat) (p : Pred) : (x.setPred k p).fpflags = x.fpflags := by rw [Lane.setPred]
@[simp] theorem Lane.setPred_issued (x : Lane) (k : Nat) (p : Pred) : (x.setPred k p).issued = x.issued := by rw [Lane.setPred]
@[simp] theorem Lane.setPred_recent (x : Lane) (k : Nat) (p : Pred) : (x.setPred k p).recent = x.recent := by rw [Lane.setPred]
@[simp] theorem Lane.setPred_arrivals (x : Lane) (k : Nat) (p : Pred) : (x.setPred k p).arrivals = x.arrivals := by rw [Lane.setPred]
@[simp] theorem Lane.setPred_origin (x : Lane) (k : Nat) (p : Pred) : (x.setPred k p).origin = x.origin := by rw [Lane.setPred]
@[simp] theorem Lane.setPred_emitted (x : Lane) (k : Nat) (p : Pred) : (x.setPred k p).emitted = x.emitted := by rw [Lane.setPred]
@[simp] theorem Lane.setPred_pastFence (x : Lane) (k : Nat) (p : Pred) : (x.setPred k p).pastFence = x.pastFence := by rw [Lane.setPred]

@[simp] theorem Lane.push_cond (x : Lane) (p : Pred) : (x.push p).cond = x.cond := by rw [Lane.push]
@[simp] theorem Lane.push_pc (x : Lane) (p : Pred) : (x.push p).pc = x.pc := by rw [Lane.push]
@[simp] theorem Lane.push_age (x : Lane) (p : Pred) : (x.push p).age = x.age := by rw [Lane.push]
@[simp] theorem Lane.push_residue (x : Lane) (p : Pred) : (x.push p).residue = x.residue := by rw [Lane.push]
@[simp] theorem Lane.push_pass (x : Lane) (p : Pred) : (x.push p).pass = x.pass := by rw [Lane.push]
@[simp] theorem Lane.push_fpflags (x : Lane) (p : Pred) : (x.push p).fpflags = x.fpflags := by rw [Lane.push]
@[simp] theorem Lane.push_issued (x : Lane) (p : Pred) : (x.push p).issued = x.issued := by rw [Lane.push]
@[simp] theorem Lane.push_recent (x : Lane) (p : Pred) : (x.push p).recent = x.recent := by rw [Lane.push]
@[simp] theorem Lane.push_arrivals (x : Lane) (p : Pred) : (x.push p).arrivals = x.arrivals := by rw [Lane.push]
@[simp] theorem Lane.push_origin (x : Lane) (p : Pred) : (x.push p).origin = x.origin := by rw [Lane.push]
@[simp] theorem Lane.push_emitted (x : Lane) (p : Pred) : (x.push p).emitted = x.emitted := by rw [Lane.push]
@[simp] theorem Lane.push_pastFence (x : Lane) (p : Pred) : (x.push p).pastFence = x.pastFence := by rw [Lane.push]

@[simp] theorem Lane.pop_cond (x : Lane) : (x.pop).cond = x.cond := by rw [Lane.pop]
@[simp] theorem Lane.pop_pc (x : Lane) : (x.pop).pc = x.pc := by rw [Lane.pop]
@[simp] theorem Lane.pop_age (x : Lane) : (x.pop).age = x.age := by rw [Lane.pop]
@[simp] theorem Lane.pop_residue (x : Lane) : (x.pop).residue = x.residue := by rw [Lane.pop]
@[simp] theorem Lane.pop_pass (x : Lane) : (x.pop).pass = x.pass := by rw [Lane.pop]
@[simp] theorem Lane.pop_fpflags (x : Lane) : (x.pop).fpflags = x.fpflags := by rw [Lane.pop]
@[simp] theorem Lane.pop_issued (x : Lane) : (x.pop).issued = x.issued := by rw [Lane.pop]
@[simp] theorem Lane.pop_recent (x : Lane) : (x.pop).recent = x.recent := by rw [Lane.pop]
@[simp] theorem Lane.pop_arrivals (x : Lane) : (x.pop).arrivals = x.arrivals := by rw [Lane.pop]
@[simp] theorem Lane.pop_origin (x : Lane) : (x.pop).origin = x.origin := by rw [Lane.pop]
@[simp] theorem Lane.pop_emitted (x : Lane) : (x.pop).emitted = x.emitted := by rw [Lane.pop]
@[simp] theorem Lane.pop_pastFence (x : Lane) : (x.pop).pastFence = x.pastFence := by rw [Lane.pop]

@[simp] theorem Lane.dropArrival_cond (x : Lane) (sc id : Nat) : (x.dropArrival sc id).cond = x.cond := by rw [Lane.dropArrival]
@[simp] theorem Lane.dropArrival_pc (x : Lane) (sc id : Nat) : (x.dropArrival sc id).pc = x.pc := by rw [Lane.dropArrival]
@[simp] theorem Lane.dropArrival_age (x : Lane) (sc id : Nat) : (x.dropArrival sc id).age = x.age := by rw [Lane.dropArrival]
@[simp] theorem Lane.dropArrival_preds (x : Lane) (sc id : Nat) : (x.dropArrival sc id).preds = x.preds := by rw [Lane.dropArrival]
@[simp] theorem Lane.dropArrival_residue (x : Lane) (sc id : Nat) : (x.dropArrival sc id).residue = x.residue := by rw [Lane.dropArrival]
@[simp] theorem Lane.dropArrival_pass (x : Lane) (sc id : Nat) : (x.dropArrival sc id).pass = x.pass := by rw [Lane.dropArrival]
@[simp] theorem Lane.dropArrival_fpflags (x : Lane) (sc id : Nat) : (x.dropArrival sc id).fpflags = x.fpflags := by rw [Lane.dropArrival]
@[simp] theorem Lane.dropArrival_issued (x : Lane) (sc id : Nat) : (x.dropArrival sc id).issued = x.issued := by rw [Lane.dropArrival]
@[simp] theorem Lane.dropArrival_recent (x : Lane) (sc id : Nat) : (x.dropArrival sc id).recent = x.recent := by rw [Lane.dropArrival]
@[simp] theorem Lane.dropArrival_origin (x : Lane) (sc id : Nat) : (x.dropArrival sc id).origin = x.origin := by rw [Lane.dropArrival]
@[simp] theorem Lane.dropArrival_emitted (x : Lane) (sc id : Nat) : (x.dropArrival sc id).emitted = x.emitted := by rw [Lane.dropArrival]
@[simp] theorem Lane.dropArrival_pastFence (x : Lane) (sc id : Nat) : (x.dropArrival sc id).pastFence = x.pastFence := by rw [Lane.dropArrival]

end Sys2Proof.Machine
end

