-- ==== Sys2Proof/Laws/Issue.lean ====
section
/-! SUPPORT. What the issue of a word does: the checks that pass, the frame of what completes, the traps of what does not. -/

namespace Sys2Proof.Machine

open Host (Outcome)

/-! ### Beginning -/

/-- Everything a begun issue says. -/
theorem begins_cases {s : State} {i : Info} {x : Cx} (h : Begins s i x) :
    s.cur = some x.sel ∧ x.s = s ∧ ∃ w, s.warp? x.sel.warp = some w ∧ s.ctx? w.ctx = some x.c ∧
      s.launch? w.launch = some x.l ∧ x.hints = readHints 0 Hints.none (w.group.map BitVec.toNat) ∧
      x.w = openGuard w x.sel.run x.hints.guard ∧ x.wd = applyLast x.w x.sel.run x.hints.last ∧
      x.act = activeLanes x.w x.sel.run := by
  unfold Begins beginIssue at h
  split at h
  · cases h
  · rename_i sel hc
    split at h
    · cases h
    · rename_i w hw
      split at h
      · rename_i c l hctx hl
        simp only [Except.ok.injEq] at h
        split at h
        · cases h
        · split at h
          · cases h
          · split at h
            · cases h
            · simp only [Except.ok.injEq] at h
              subst h
              exact ⟨hc, rfl, w, hw, hctx, hl, rfl, rfl, rfl, rfl⟩
      · cases h

theorem openGuard_rest (w : Warp) (run : Mask) (g) : { openGuard w run g with lanes := w.lanes } = w := by
  unfold openGuard
  split
  · rfl
  · exact mapLanes_rest _ _ _

theorem openGuard_id (w : Warp) (run : Mask) (g) : (openGuard w run g).id = w.id := by
  unfold openGuard
  split <;> simp

theorem openGuard_ctx (w : Warp) (run : Mask) (g) : (openGuard w run g).ctx = w.ctx := by
  unfold openGuard
  split <;> simp

theorem openGuard_regs (w : Warp) (run : Mask) (g) : (openGuard w run g).regs = w.regs := by
  unfold openGuard
  split <;> simp

/-- The warp of a begun issue stands in the state under its number. -/
theorem begins_warp {s : State} {i : Info} {x : Cx} (h : Begins s i x) : ∃ w, x.s.warp? x.w.id = some w := by
  obtain ⟨-, hs, w, hw, -, -, -, hx, -, -⟩ := begins_cases h
  refine ⟨w, ?_⟩
  rw [hx, openGuard_id, warp?_id hw, hs, hw]

theorem begins_ctx {s : State} {i : Info} {x : Cx} (h : Begins s i x) : x.s.ctx? x.w.ctx = some x.c := by
  obtain ⟨-, hs, w, hw, hc, -, -, hx, -, -⟩ := begins_cases h
  rw [hx, openGuard_ctx, hs, hc]

theorem begins_s {s : State} {i : Info} {x : Cx} (h : Begins s i x) : x.s = s := (begins_cases h).2.1

/-! ### A word that completes -/

/-- The issue of a begun word is its body. -/
theorem issue_of {s : State} {i : Info} {x : Cx} {body : Cx → Except Stop State} (h : Begins s i x) :
    issue s i body = match body x with | .error e => applyStop s e | .ok t => .next t := by
  unfold issue
  rw [show beginIssue s i = .ok (.ok x) from h]
  all_goals rfl

theorem issue_next {s : State} {i : Info} {x : Cx} {body : Cx → Except Stop State} {t : State} (h : Begins s i x)
    (hb : body x = .ok t) : issue s i body = .next t := by
  rw [issue_of h, hb]

/-! ### Joining and ages -/

theorem joinWaits_lane (w : Warp) {l : Nat} (h : l < 32) :
    (joinWaits w).lane l = if (w.lane l).isReady then
      (match w.waitAt (w.lane l).pc with
        | none => w.lane l
        | some (what, next, since) =>
          let x : Lane := { w.lane l with cond := .waiting what next since }
          match what with
          | .barrier sc id ph true =>
            if x.arrivals.any (fun a => a.scope == sc && a.id == id) then x
            else { x with arrivals := { scope := sc, id := id, phase := ph, before := w.opBound } :: x.arrivals }
          | _ => x)
      else w.lane l := by
  unfold joinWaits
  rw [lane_mapLanes _ _ _ h, inMask_readyLanes _ h]
  all_goals rfl

/-- Joining changes a ready lane's condition and arrivals and nothing else of any lane. -/
theorem joinWaits_kept (w : Warp) {l : Nat} (h : l < 32) :
    { (joinWaits w).lane l with cond := (w.lane l).cond, arrivals := (w.lane l).arrivals } = w.lane l ∧
    ((w.lane l).isReady = false → (joinWaits w).lane l = w.lane l) := by
  rw [joinWaits_lane w h]
  split
  · rename_i hr
    refine ⟨?_, fun hn => absurd hr (by simp [hn])⟩
    split
    · rfl
    · simp only
      split
      · split <;> rfl
      · rfl
  · exact ⟨rfl, fun _ => rfl⟩

theorem waitAt_none {w : Warp} (h : ∀ k, k < 32 → (w.lane k).isWaiting = false) (pc : Pc) : w.waitAt pc = none := by
  unfold Warp.waitAt
  rw [List.findSome?_eq_none_iff]
  intro k hk
  have := h k (inMask_lt ((mem_lanesOf _ _).1 hk))
  unfold Lane.isWaiting at this
  split
  · rename_i h2
    rw [h2] at this
    cases this
  · rfl

theorem joinWaits_none {w : Warp} (h : ∀ k, k < 32 → (w.lane k).isWaiting = false) {l : Nat} (hl : l < 32) :
    (joinWaits w).lane l = w.lane l := by
  rw [joinWaits_lane w hl, waitAt_none h]
  split <;> rfl

@[simp] theorem joinWaits_id (w : Warp) : (joinWaits w).id = w.id := by rw [joinWaits]; simp
@[simp] theorem joinWaits_group (w : Warp) : (joinWaits w).group = w.group := by rw [joinWaits]; simp
@[simp] theorem joinWaits_ctx (w : Warp) : (joinWaits w).ctx = w.ctx := by rw [joinWaits]; simp
theorem joinWaits_rest (w : Warp) : { joinWaits w with lanes := w.lanes } = w := mapLanes_rest _ _ _

theorem stepAges_lane (w : Warp) (ready run : Mask) (y : Bool) {l : Nat} (h : l < 32) :
    (stepAges w ready run y).lane l =
      { w.lane l with age := if inMask ready l then (if inMask run l then (if y then (w.lane l).age else 0)
          else min ((w.lane l).age + 1) 511) else (w.lane l).age } := by
  unfold stepAges
  rw [lane_mapLanes _ _ _ h]
  split
  · split
    · split <;> rfl
    · rfl
  · rfl

theorem isReady_congr {x y : Lane} (h : x.cond = y.cond) : x.isReady = y.isReady := by simp [Lane.isReady, h]
theorem isWaiting_congr {x y : Lane} (h : x.cond = y.cond) : x.isWaiting = y.isWaiting := by simp [Lane.isWaiting, h]

/-! ### The frame of what completes -/

/-- The warp of an issue before lanes join. -/
def Cx.issuedWarp (x : Cx) (w : Warp) (pc : Nat → Pc) (yielded : Bool) : Warp :=
  { stepAges (w.mapLanes x.run (fun l y =>
      { y with residue := y.residue - 1, issued := y.issued + (x.w.group.length + 1), pc := pc l })) x.sel.ready x.run yielded with
    group := [], groupRun := 0#32, groupReady := 0#32, yielded := if yielded then x.run else 0#32 }

theorem issuedWarp_lanes (x : Cx) (w : Warp) (pc : Nat → Pc) (yl : Bool) :
    (x.issuedWarp w pc yl).lanes = (stepAges (w.mapLanes x.run (fun l y =>
      { y with residue := y.residue - 1, issued := y.issued + (x.w.group.length + 1), pc := pc l })) x.sel.ready x.run yl).lanes := by
  rw [Cx.issuedWarp]

theorem issuedWarp_lane (x : Cx) (w : Warp) (pc) (yl : Bool) {l : Nat} (h : l < 32) :
    (x.issuedWarp w pc yl).lane l =
      { w.lane l with
        residue := if inMask x.run l then (w.lane l).residue - 1 else (w.lane l).residue
        issued := if inMask x.run l then (w.lane l).issued + (x.w.group.length + 1) else (w.lane l).issued
        pc := if inMask x.run l then pc l else (w.lane l).pc
        age := if inMask x.sel.ready l then (if inMask x.run l then (if yl then (w.lane l).age else 0)
          else min ((w.lane l).age + 1) 511) else (w.lane l).age } := by
  rw [lane_congr (issuedWarp_lanes x w pc yl), stepAges_lane _ _ _ _ h, lane_mapLanes _ _ _ h]
  split <;> rfl

@[simp] theorem stepAges_id (w : Warp) (a b : Mask) (y : Bool) : (stepAges w a b y).id = w.id := by rw [stepAges]; simp
@[simp] theorem stepAges_ctx (w : Warp) (a b : Mask) (y : Bool) : (stepAges w a b y).ctx = w.ctx := by rw [stepAges]; simp

@[simp] theorem issuedWarp_id (x : Cx) (w : Warp) (pc : Nat → Pc) (y : Bool) : (x.issuedWarp w pc y).id = w.id := by
  rw [Cx.issuedWarp]; simp
@[simp] theorem issuedWarp_ctx (x : Cx) (w : Warp) (pc : Nat → Pc) (y : Bool) : (x.issuedWarp w pc y).ctx = w.ctx := by
  rw [Cx.issuedWarp]; simp
@[simp] theorem issuedWarp_group (x : Cx) (w : Warp) (pc : Nat → Pc) (y : Bool) : (x.issuedWarp w pc y).group = [] := by
  rw [Cx.issuedWarp]

theorem issuedWarp_rest (x : Cx) (w : Warp) (pc : Nat → Pc) (y : Bool) :
    { x.issuedWarp w pc y with
        lanes := w.lanes, group := w.group, groupRun := w.groupRun, groupReady := w.groupReady, yielded := w.yielded } = w := by
  unfold Cx.issuedWarp stepAges Warp.mapLanes
  rfl

theorem advance_eq (x : Cx) (s : State) (w : Warp) (pc) (yl : Bool) :
    x.advance s w pc yl = { s.setWarp (x.issuedWarp w pc yl) with cur := none } := by
  unfold Cx.advance Cx.issuedWarp
  rfl

/-- Without step control, completing is the frame of an issue: nothing but the warp changes, and it as `Issued` says. -/
theorem finish_issued {x : Cx} {s : State} {w v : Warp} {c : Ctx} (pc : Nat → Pc) (yl : Bool)
    (hw : s.warp? x.w.id = some v) (hid : w.id = x.w.id) (hc : s.ctx? w.ctx = some c) (hs : c.stepping = false) :
    Issued x s w pc yl (x.finish s w pc yl) := by
  have hadv : (x.advance s w pc yl).warp? x.w.id = some (x.issuedWarp w pc yl) := by
    rw [advance_eq]
    have : (x.issuedWarp w pc yl).id = x.w.id := by rw [issuedWarp_id, hid]
    rw [warp?_cur]
    rw [← this] at hw ⊢
    exact warp?_setWarp hw
  have hupd : ((x.advance s w pc yl).updWarp x.w.id joinWaits).warp? x.w.id = some (joinWaits (x.issuedWarp w pc yl)) :=
    warp?_updWarp hadv (by rw [joinWaits_id, issuedWarp_id, hid])
  have hfin : x.finish s w pc yl = (x.advance s w pc yl).updWarp x.w.id joinWaits := by
    unfold Cx.finish stepTrap
    simp only
    rw [hupd]
    simp only
    have : ((x.advance s w pc yl).updWarp x.w.id joinWaits).ctx? (joinWaits (x.issuedWarp w pc yl)).ctx = some c := by
      rw [joinWaits_ctx, issuedWarp_ctx, ctx?_updWarp, advance_eq, ctx?_cur, ctx?_setWarp]; exact hc
    rw [this]
    simp [hs]
  rw [hfin]
  refine ⟨⟨by rw [State.updWarp, advance_eq, State.setWarp], by rw [State.updWarp, advance_eq], fun j hj => ?_⟩, joinWaits (x.issuedWarp w pc yl), hupd, by simp, ?_, fun l hl => ⟨?_, fun hno => ?_⟩⟩
  · rw [warp?_updWarp_other _ _ _ (fun w => joinWaits_id w) hj, advance_eq]
    rw [warp?_cur]
    exact warp?_setWarp_other s _ (by rw [issuedWarp_id, hid]; exact hj)
  · have h1 := joinWaits_rest (x.issuedWarp w pc yl)
    have h2 := issuedWarp_rest x w pc yl
    generalize joinWaits (x.issuedWarp w pc yl) = a at h1
    generalize x.issuedWarp w pc yl = b at h1 h2
    cases a; cases b; cases w
    simp only [Warp.mk.injEq] at h1 h2 ⊢
    simp_all only [and_self, true_and]
  · obtain ⟨hk, hn⟩ := joinWaits_kept (x.issuedWarp w pc yl) hl
    rw [issuedWarp_lane x w pc yl hl] at hk hn
    generalize (joinWaits (x.issuedWarp w pc yl)).lane l = z at hk hn
    cases z
    simp only [Lane.mk.injEq] at hk
    obtain ⟨-, h1, h2, h3, h4, h5, h6, h7, h8, -, h10, h11, h12⟩ := hk
    refine ⟨h1, h4, by rw [h7]; split <;> rfl, h2, h3, h5, h6, h10, h11, fun hr => ?_⟩
    have := hn (by simpa [Lane.isReady] using hr)
    simp only [Lane.mk.injEq] at this
    exact ⟨this.1, this.2.2.2.2.2.2.2.2.2.1⟩
  · rw [joinWaits_none ?_ hl, issuedWarp_lane x w pc yl hl]
    · exact ⟨rfl, rfl⟩
    · intro k hk
      rw [issuedWarp_lane x w pc yl hk]
      exact hno k hk

theorem applyLast_id (w : Warp) (run : Mask) (ns : List (Nat × Nat)) : (applyLast w run ns).id = w.id := by
  induction ns generalizing w with
  | nil => rfl
  | cons n ns ih =>
    obtain ⟨n, i⟩ := n
    unfold applyLast
    simp only
    rw [ih]
    split <;> simp

theorem applyLast_ctx (w : Warp) (run : Mask) (ns : List (Nat × Nat)) : (applyLast w run ns).ctx = w.ctx := by
  induction ns generalizing w with
  | nil => rfl
  | cons n ns ih =>
    obtain ⟨n, i⟩ := n
    unfold applyLast
    simp only
    rw [ih]
    split <;> simp

/-- A word whose effect is on its own warp alone goes on as `Cx.Goes` says. -/
theorem goes_of {s : State} {i : Info} {x : Cx} {k : Instr} {w : Warp} {pc : Nat → Pc} {yl : Bool} (h : Begins s i x)
    (hid : w.id = x.w.id) (hctx : w.ctx = x.w.ctx) (he : exec k s = .next (x.finish x.s w pc yl)) : x.Goes k w pc yl := by
  refine ⟨by rw [begins_s h]; rw [begins_s h] at he; exact he, fun hs => ?_⟩
  obtain ⟨v, hv⟩ := begins_warp h
  exact finish_issued pc yl hv hid (by rw [hctx]; exact begins_ctx h) hs

theorem completes_of {s : State} {i : Info} {x : Cx} {k : Instr} {w : Warp} (h : Begins s i x)
    (hid : w.id = x.w.id) (hctx : w.ctx = x.w.ctx) (he : exec k s = .next (x.done x.s w)) : x.Completes k x.s w := by
  have := goes_of (yl := false) h hid hctx he
  exact ⟨this.1, this.2⟩

end Sys2Proof.Machine
end

