-- ==== Sys2Proof/Laws/Alu.lean ====
section
/-! SUPPORT. What the two ways to execute an ALU word do: once for the run, and in each active lane (R22, R66). -/

namespace Sys2Proof.Machine

open Host (Outcome)

/-! ### Register checks -/

theorem lanesWhere_eq_none {m : Mask} {p : Nat → Bool} :
    lanesWhere m p = none ↔ ∀ l, inMask m l = true → p l = false := by
  unfold lanesWhere
  constructor
  · intro h l hl
    split at h
    · rename_i hn
      rw [List.filter_eq_nil_iff] at hn
      simpa using hn l ((mem_lanesOf m l).2 hl)
    · cases h
  · intro h
    rw [lanesWhere_none h]

theorem checkRange_ok {w : Warp} {m : Mask} {regs : Nat → List Nat}
    (h : ∀ l, inMask m l = true → ∀ n ∈ regs l, n < w.alloc) : checkRange w m regs = .ok () := by
  unfold checkRange
  rw [lanesWhere_eq_none.2]
  intro l hl
  rw [List.any_eq_false]
  intro n hn
  simpa using h l hl n hn

theorem pendingIn_none {w : Warp} {l : Nat} {regs preds : List Nat} (h : ∀ n ∈ regs, w.isPending l n = false)
    (hp : ∀ k ∈ preds, ((w.lane l).pred k).pend = none) : pendingIn w l regs preds = none := by
  unfold pendingIn
  have h1 : regs.find? (w.isPending l) = none := by
    rw [List.find?_eq_none]
    intro n hn
    simp [h n hn]
  have h2 : preds.find? (fun k => ((w.lane l).pred k).pend.isSome) = none := by
    rw [List.find?_eq_none]
    intro k hk
    simp [hp k hk]
  rw [h1, h2]
  rfl

theorem checkPending_ok {w : Warp} {m : Mask} {regs preds : Nat → List Nat}
    (h : ∀ l, inMask m l = true → ∀ n ∈ regs l, w.isPending l n = false)
    (hp : ∀ l, inMask m l = true → ∀ k ∈ preds l, ((w.lane l).pred k).pend = none) :
    checkPending w m regs preds = .ok () := by
  unfold checkPending
  rw [lanesWhere_eq_none.2]
  intro l hl
  rw [pendingIn_none (h l hl) (hp l hl)]
  rfl

theorem checkGood_ok {w : Warp} {m : Mask} {srcs : Nat → List Nat}
    (h : ∀ l, inMask m l = true → ∀ n ∈ srcs l, w.isBad l n = false) : checkGood w m srcs = .ok () := by
  unfold checkGood
  rw [if_neg]
  simp only [List.any_eq_true, not_exists, not_and]
  intro l hl n hn
  simp [h l ((mem_lanesOf m l).1 hl) n hn]

/-- What `Ready` says of one lane of the set. -/
theorem Ready.reads {w : Warp} {m : Mask} {srcs dsts : List Nat} (h : Ready w m srcs dsts) {l n : Nat} (hl : inMask m l = true)
    (hn : n ∈ srcs) : n < w.alloc ∧ w.isPending l n = false ∧ w.isBad l n = false := ⟨(h.1 n hn).1, (h.1 n hn).2 l hl⟩

theorem Ready.writes {w : Warp} {m : Mask} {srcs dsts : List Nat} (h : Ready w m srcs dsts) {l n : Nat} (hl : inMask m l = true)
    (hn : n ∈ dsts) : n < w.alloc ∧ w.isPending l n = false := ⟨(h.2 n hn).1, (h.2 n hn).2 l hl⟩

theorem Ready.names {w : Warp} {m : Mask} {srcs dsts : List Nat} (h : Ready w m srcs dsts) {l n : Nat} (hl : inMask m l = true)
    (hn : n ∈ srcs ++ dsts) : n < w.alloc ∧ w.isPending l n = false := by
  rcases List.mem_append.1 hn with hs | hd
  · exact ⟨(h.reads hl hs).1, (h.reads hl hs).2.1⟩
  · exact h.writes hl hd

theorem checkNamed_ok {w : Warp} {m : Mask} {srcs dsts preds : Nat → List Nat}
    (h : ∀ l, inMask m l = true → ∀ n ∈ srcs l ++ dsts l, n < w.alloc ∧ w.isPending l n = false)
    (hp : ∀ l, inMask m l = true → ∀ k ∈ preds l, ((w.lane l).pred k).pend = none)
    (hg : ∀ l, inMask m l = true → ∀ n ∈ srcs l, w.isBad l n = false) :
    checkNamed w m srcs dsts preds = .ok () := by
  unfold checkNamed
  rw [checkRange_ok (fun l hl n hn => (h l hl n hn).1)]
  simp only
  rw [checkPending_ok (fun l hl n hn => (h l hl n hn).2) hp]
  exact checkGood_ok hg

theorem checkRegs_ok {w : Warp} {m : Mask} {srcs dsts : List Nat} (h : Ready w m srcs dsts) : checkRegs w m srcs dsts = .ok () :=
  checkNamed_ok (fun _ hl _ hn => h.names hl hn) (fun _ _ k hk => by simp at hk) (fun _ hl _ hn => (h.reads hl hn).2.2)

theorem checkUniform_ok {w : Warp} {lead : Nat} {srcs dsts : List Nat} (hl : lead < 32) (hs : Ready w (oneLane lead) srcs [])
    (hd : Ready w w.live [] dsts) : checkUniform w lead srcs dsts = .ok () := by
  have key : ∀ l n, n ∈ (if l = lead then srcs else []) → n < w.alloc ∧ w.isPending l n = false ∧ w.isBad l n = false := by
    intro l n hn
    split at hn
    · rename_i he
      subst he
      exact hs.reads (by simp [inMask_oneLane, hl]) hn
    · simp at hn
  refine checkNamed_ok (fun l hm n hn => ?_) (fun _ _ k hk => by simp at hk) (fun l _ n hn => (key l n hn).2.2)
  rcases List.mem_append.1 hn with h | h
  · exact ⟨(key l n h).1, (key l n h).2.1⟩
  · exact hd.writes hm h

theorem leadOf_lt (m : Mask) : leadOf m < 32 := by
  unfold leadOf
  cases h : lanesOf m with
  | nil => simp
  | cons l ls => simpa using inMask_lt ((mem_lanesOf m l).1 (by rw [h]; simp))

theorem lead_lt (x : Cx) : x.lead < 32 := leadOf_lt _

/-! ### Forms and registers -/

@[simp] theorem setForm_lane (w : Warp) (n : Nat) (f : RegForm) (l : Nat) : (w.setForm n f).lane l = w.lane l := by
  exact lane_congr (v := w.setForm n f) (by simp) l

theorem reg_mapLanes (w : Warp) (m : Mask) (g : Nat → Lane → Lane) (l n : Nat) : (w.mapLanes m g).reg l n = w.reg l n := by
  simp [Warp.reg]

theorem reg_setForm (w : Warp) {n : Nat} (f : RegForm) (hn : n < w.regs.length) (l k : Nat) :
    (w.setForm n f).reg l k = if k = n then f.get l else w.reg l k := by
  unfold Warp.reg Warp.setForm
  simp only [List.getD_eq_getElem?_getD, List.getElem?_set]
  by_cases h : n = k
  · subst h
    simp [hn]
  · simp [h, Ne.symm h]

theorem get_perLane {l : Nat} (f : Fin 32 → Word) (h : l < 32) : (RegForm.perLane (Vector.ofFn f)).get l = f ⟨l, h⟩ := by
  simp [RegForm.get, Nat.mod_eq_of_lt h]

theorem get_laneForm (w : Warp) (n : Nat) (m : Mask) (v : Nat → Nat) {l : Nat} (h : l < 32) :
    (laneForm w n m v).get l = if inMask m l then BitVec.ofNat 32 (v l) else w.reg l n := by
  unfold laneForm
  rw [get_perLane _ h]

/-! ### The discards of `h.last` -/

/-- `h.last` gives registers back their old values and changes nothing else. -/
theorem applyLast_kept (run : Mask) (ns : List (Nat × Nat)) (w : Warp) :
    (applyLast w run ns).regs.length = w.regs.length ∧
    { applyLast w run ns with regs := w.regs, lanes := w.lanes } = w ∧
    ∀ l, l < 32 → { (applyLast w run ns).lane l with recent := (w.lane l).recent } = w.lane l := by
  induction ns generalizing w with
  | nil => exact ⟨rfl, rfl, fun _ _ => rfl⟩
  | cons n ns ih =>
    obtain ⟨n, i⟩ := n
    unfold applyLast
    simp only
    split
    · exact ih w
    · obtain ⟨h1, h2, h3⟩ := ih ((w.setLanes n (maskOf fun l => inMask run l && ((w.lane l).discarded n i).isSome) fun l =>
          ((w.lane l).discarded n i).getD 0#32).mapLanes (maskOf fun l => inMask run l && ((w.lane l).discarded n i).isSome)
          fun _ x => x.forget n)
      refine ⟨?_, ?_, fun l hl => ?_⟩
      · rw [h1, mapLanes_regs, Warp.setLanes, Warp.setForm]
        simp
      · generalize applyLast _ run ns = a at h2
        have e : ∀ (v : Warp) (m : Mask) (g : Nat → Lane → Lane), (v.mapLanes m g) = { v with lanes := (v.mapLanes m g).lanes } := by
          intro v m g; rw [Warp.mapLanes]
        rw [e, Warp.setLanes, Warp.setForm] at h2
        generalize (Warp.mapLanes _ _ _).lanes = ls at h2
        cases a
        cases w
        simp only [Warp.mk.injEq, true_and] at h2 ⊢
        exact h2
      · have := h3 l hl
        generalize (applyLast _ run ns).lane l = z at this
        rw [lane_mapLanes _ _ _ hl, Warp.setLanes, setForm_lane] at this
        cases z
        generalize w.lane l = y at this ⊢
        cases y
        split at this <;> simp only [Lane.forget, Lane.mk.injEq] at this ⊢ <;> simp_all only [and_self]

theorem applyLast_alloc (w : Warp) (run : Mask) (ns : List (Nat × Nat)) : (applyLast w run ns).alloc = w.alloc :=
  (applyLast_kept run ns w).1

theorem wd_kept {s : State} {i : Info} {x : Cx} (h : Begins s i x) :
    x.wd.regs.length = x.w.alloc ∧ { x.wd with regs := x.w.regs, lanes := x.w.lanes } = x.w ∧
    ∀ l, l < 32 → { x.wd.lane l with recent := (x.w.lane l).recent } = x.w.lane l := by
  obtain ⟨-, -, w, -, -, -, -, -, hwd, -⟩ := begins_cases h
  rw [hwd]
  exact applyLast_kept _ _ _

theorem wd_id {s : State} {i : Info} {x : Cx} (h : Begins s i x) : x.wd.id = x.w.id := by
  rw [← congrArg Warp.id (wd_kept h).2.1]

theorem wd_ctx {s : State} {i : Info} {x : Cx} (h : Begins s i x) : x.wd.ctx = x.w.ctx := by
  rw [← congrArg Warp.ctx (wd_kept h).2.1]

theorem wd_exited {s : State} {i : Info} {x : Cx} (h : Begins s i x) {l : Nat} (hl : l < 32) :
    (x.wd.lane l).isExited = (x.w.lane l).isExited := by
  have := congrArg Lane.cond ((wd_kept h).2.2 l hl)
  simp only at this
  simp [Lane.isExited, this]

/-! ### Writing -/

/-- A word is whole in a set by what the set holds of its lanes that have not exited. -/
theorem wholeWord_congr {v w : Warp} {m k : Nat → Bool} {j : Nat}
    (he : ∀ l, l < 32 → (v.lane l).isExited = (w.lane l).isExited)
    (hm : ∀ l, l < 32 → (v.lane l).isExited = false → m l = k l) : v.wholeWord m j = w.wholeWord k j := by
  unfold Warp.wholeWord
  by_cases h : 2 * j + 1 < 32
  · have h0 : 2 * j < 32 := by omega
    have m0 := hm _ h0
    have m1 := hm _ h
    rw [he _ h0] at m0
    rw [he _ h] at m1
    simp only [List.all_cons, List.all_nil, List.any_cons, List.any_nil, he _ h0, he _ h, Bool.and_true, Bool.or_false]
    cases e0 : (w.lane (2 * j)).isExited <;> cases e1 : (w.lane (2 * j + 1)).isExited <;> simp_all
  · simp [h]

theorem wroteWhole_congr {v w : Warp} {f g : Nat → Nat → Option Word} {b : Nat × Nat}
    (he : ∀ l, l < 32 → (v.lane l).isExited = (w.lane l).isExited)
    (hf : ∀ l, l < 32 → (v.lane l).isExited = false → (f l b.1).isSome = (g l b.1).isSome) : wroteWhole v f b = wroteWhole w g b :=
  wholeWord_congr he hf

/-- Where nothing is written to a register, no word of it is. -/
theorem wroteWhole_none {v : Warp} {f : Nat → Nat → Option Word} {b : Nat × Nat} (h : ∀ l, f l b.1 = none) : wroteWhole v f b = false := by
  unfold wroteWhole Warp.wholeWord
  simp only [h, Option.isSome_none, List.all_cons, List.all_nil, List.any_cons, List.any_nil, Bool.false_or, Bool.and_true, Bool.or_false]
  cases (v.lane (2 * b.2)).isExited <;> cases (v.lane (2 * b.2 + 1)).isExited <;> simp

/-- `Writes` without its flags part: nothing is ORed. -/
theorem writes_refl (w : Warp) : Writes w w noReg noFlags :=
  ⟨fun _ _ _ _ => rfl, rfl, fun _ _ => by simp [noFlags], fun _ _ => rfl, fun b => by simp [wroteWhole_none (f := noReg) (fun _ => rfl)],
    rfl⟩

/-- Two sets of writes one after the other, no word of the register file written in halves by the two. -/
theorem writes_trans {u v w : Warp} {f g : Nat → Nat → Option Word} {a b : Nat → Flags} (h1 : Writes u v f a) (h2 : Writes v w g b)
    (hfg : ∀ n, (∀ l, f l n = none) ∨ (∀ l, g l n = none)) :
    Writes u w (fun l n => (g l n).or (f l n)) (fun l => a l ||| b l) := by
  refine ⟨fun l hl he n => ?_, h2.count.trans h1.count, fun l hl => ?_, fun l hl => ?_, fun b => ?_, ?_⟩
  · have hv : (v.lane l).isExited = false := by
      have := congrArg Lane.cond (h1.lanes l hl)
      simp only at this
      simpa [Lane.isExited, this] using he
    rw [h2.regs l hl hv, h1.regs l hl he]
    cases g l n <;> rfl
  · rw [h2.flags l hl, h1.flags l hl, BitVec.or_assoc]
  · have a1 := h1.lanes l hl
    have a2 := h2.lanes l hl
    generalize u.lane l = p at *
    generalize v.lane l = q at *
    generalize w.lane l = r at *
    cases p; cases q; cases r
    simp only [Lane.mk.injEq] at *
    simp_all only [and_self]
  · have he : ∀ l, l < 32 → (v.lane l).isExited = (u.lane l).isExited := by
      intro l hl
      have := congrArg Lane.cond (h1.lanes l hl)
      simp only at this
      simp [Lane.isExited, this]
    rw [h2.bad, h1.bad, wroteWhole_congr (w := u) (g := g) he (fun _ _ _ => rfl)]
    rcases hfg b.1 with h | h
    · rw [wroteWhole_none h, wroteWhole_congr (v := u) (w := u) (f := fun l n => (g l n).or (f l n)) (g := g) (fun _ _ => rfl)
        (fun l _ _ => by simp [h l])]
      simp
    · rw [wroteWhole_none h, wroteWhole_congr (v := u) (w := u) (f := fun l n => (g l n).or (f l n)) (g := f) (fun _ _ => rfl)
        (fun l _ _ => by simp [h l])]
      simp
  · have a1 := h1.rest
    have a2 := h2.rest
    cases u; cases v; cases w
    simp only [Warp.mk.injEq] at *
    simp_all only [and_self]

theorem remember_kept (y : Lane) (n a : Nat) (old : Word) : { y.remember n a old with recent := y.recent } = y := by
  cases y; rfl

theorem forget_kept (y : Lane) (n : Nat) : { y.forget n with recent := y.recent } = y := by
  cases y; rfl

@[simp] theorem wrote_lane (w : Warp) (m : Mask) (n l : Nat) : (w.wrote m n).lane l = w.lane l :=
  lane_congr (v := w.wrote m n) (by simp) l

@[simp] theorem wrote_reg (w : Warp) (m : Mask) (n l k : Nat) : (w.wrote m n).reg l k = w.reg l k := by
  simp [Warp.reg]

theorem mem_wrote_bad (w : Warp) (m : Mask) (n : Nat) (b : Nat × Nat) :
    b ∈ (w.wrote m n).bad ↔ b ∈ w.bad ∧ (b.1 = n → w.wholeWord (inMask m) b.2 = false) := by
  simp only [Warp.wrote, List.mem_filter, and_congr_right_iff]
  intro _
  by_cases h : b.1 = n <;> simp [h]

/-- Writing a form to a register. -/
theorem write_writes (x : Cx) (w : Warp) (m : Mask) {n : Nat} (f : RegForm) (hn : n < w.regs.length) (new : Nat → Nat → Option Word)
    (hnew : ∀ l, l < 32 → (w.lane l).isExited = false → ∀ k, (new l k).getD (w.reg l k) = if k = n then f.get l else w.reg l k)
    (hsome : ∀ l, l < 32 → (w.lane l).isExited = false → ∀ k, (new l k).isSome = (k == n && inMask m l)) :
    Writes w (x.write w m n f) new noFlags := by
  have hlane : ∀ l, l < 32 → ∃ r, (x.write w m n f).lane l = { w.lane l with recent := r } := by
    intro l hl
    unfold Cx.write
    rw [wrote_lane, setForm_lane, lane_mapLanes _ _ _ hl]
    split
    · split
      · exact ⟨_, rfl⟩
      · exact ⟨_, rfl⟩
    · exact ⟨_, rfl⟩
  refine ⟨fun l hl he k => ?_, by simp [Cx.write, Warp.setForm], fun l hl => ?_, fun l hl => ?_, fun b => ?_, ?_⟩
  · unfold Cx.write
    rw [wrote_reg, reg_setForm _ _ (by simpa using hn), reg_mapLanes, hnew l hl he]
  · obtain ⟨r, hr⟩ := hlane l hl
    rw [hr]
    simp [noFlags]
  · obtain ⟨r, hr⟩ := hlane l hl
    rw [hr]
  · have he : ∀ l, l < 32 → (w.lane l).isExited =
        (((w.mapLanes m (fun l y =>
          if inMask x.run l then y.remember n (x.number w l) (w.reg l n) else y.forget n)).setForm n f).lane l).isExited := by
      intro l hl
      obtain ⟨r, hr⟩ := hlane l hl
      unfold Cx.write at hr
      rw [wrote_lane] at hr
      rw [hr]
      rfl
    unfold Cx.write
    rw [mem_wrote_bad]
    simp only [Warp.setForm_bad, mapLanes_bad, and_congr_right_iff]
    intro _
    by_cases hb : b.1 = n
    · rw [wroteWhole, wholeWord_congr (k := inMask m) he (fun l hl hx => by simp [hsome l hl hx, hb])]
      simp [hb]
    · have h0 := wroteWhole_none (v := w) (f := noReg) (b := b) (fun _ => rfl)
      rw [wroteWhole_congr (w := w) (g := noReg) (fun _ _ => rfl) (fun l hl hx => by simp [hsome l hl hx, hb, noReg]), h0]
      simp [hb]
  · unfold Cx.write Warp.wrote Warp.setForm Warp.mapLanes
    rfl

/-- Flags ORed into lanes of a set. -/
theorem orFlags_writes (w : Warp) (m : Mask) (f : Nat → Flags) :
    Writes w (w.orFlags m f) noReg (fun l => if inMask m l then f l else 0#5) := by
  have hlane : ∀ l, l < 32 → (w.orFlags m f).lane l =
      { w.lane l with fpflags := (w.lane l).fpflags ||| (if inMask m l then f l else 0#5) } := by
    intro l hl
    unfold Warp.orFlags
    rw [lane_mapLanes _ _ _ hl]
    split <;> simp
  refine ⟨fun l _ _ k => by simp [noReg, Warp.orFlags, reg_mapLanes], by simp [Warp.orFlags], fun l hl => ?_, fun l hl => ?_,
    fun b => by simp [wroteWhole_none (f := noReg) (fun _ => rfl), Warp.orFlags], ?_⟩
  · rw [hlane l hl]
  · rw [hlane l hl]
  · unfold Warp.orFlags Warp.mapLanes
    rfl

theorem writes_congr {v w : Warp} {f g : Nat → Nat → Option Word} {a b : Nat → Flags} (h : Writes v w f a)
    (hf : ∀ l, l < 32 → (v.lane l).isExited = false → ∀ n, f l n = g l n)
    (ha : ∀ l, l < 32 → a l = b l) : Writes v w g b :=
  ⟨fun l hl he n => by rw [h.regs l hl he, hf l hl he], h.count, fun l hl => by rw [h.flags l hl, ha l hl], h.lanes,
    fun b => by rw [h.bad, wroteWhole_congr (fun _ _ => rfl) (fun l hl he => by rw [hf l hl he])], h.rest⟩

theorem writes_id {v w : Warp} {f : Nat → Nat → Option Word} {a : Nat → Flags} (h : Writes v w f a) : w.id = v.id := by
  rw [← congrArg Warp.id h.rest]

theorem writes_ctx {v w : Warp} {f : Nat → Nat → Option Word} {a : Nat → Flags} (h : Writes v w f a) : w.ctx = v.ctx := by
  rw [← congrArg Warp.ctx h.rest]

/-- A value written in uniform form to every lane that has not exited (R22). -/
theorem writeUniform_one {x : Cx} {w : Warp} {d v : Nat} (hd : d < w.regs.length)
    (hw : ∀ l, l < 32 → (w.lane l).isExited = (x.w.lane l).isExited) :
    Writes w (x.writeUniform w [d] [v]) (oneReg x.w.live d (fun _ => BitVec.ofNat 32 v)) noFlags := by
  refine write_writes x w x.everyone _ hd _ (fun l hl he k => ?_) (fun l hl he k => ?_)
  · rw [hw l hl] at he
    by_cases h : k = d
    · simp [oneReg, inMask_live _ hl, he, h, RegForm.get]
    · simp [oneReg, h]
  · by_cases h : k = d
    · by_cases hm : inMask x.w.live l = true <;> simp [oneReg, Cx.everyone, h, hm]
    · simp [oneReg, h]

theorem ofNat_mod32 (v : Nat) : BitVec.ofNat 32 (v % 2 ^ 32) = BitVec.ofNat 32 v := by
  apply BitVec.eq_of_toNat_eq
  simp

theorem low_ofNat (v : Nat) : (BitVec.ofNat 64 v).extractLsb' 0 32 = BitVec.ofNat 32 v := by
  apply BitVec.eq_of_toNat_eq
  simp only [BitVec.extractLsb'_toNat, BitVec.toNat_ofNat, Nat.shiftRight_zero]
  omega

theorem high_ofNat (v : Nat) : (BitVec.ofNat 64 v).extractLsb' 32 32 = BitVec.ofNat 32 (v / 2 ^ 32) := by
  apply BitVec.eq_of_toNat_eq
  simp only [BitVec.extractLsb'_toNat, BitVec.toNat_ofNat, Nat.shiftRight_eq_div_pow]
  omega

theorem isExited_congr {x y : Lane} (h : x.cond = y.cond) : x.isExited = y.isExited := by
  unfold Lane.isExited
  rw [h]

theorem writeUniform_two (x : Cx) (w : Warp) (d v : Nat) : x.writeUniform w [d, d + 1] (twoWords v) =
    x.writeUniform (x.writeUniform w [d] [v % 2 ^ 32]) [d + 1] [v / 2 ^ 32 % 2 ^ 32] := by
  simp only [twoWords, Cx.writeUniform]

theorem writeLanes_two (x : Cx) (w : Warp) (d : Nat) (v : Nat → List Nat) : x.writeLanes w v 0 [d, d + 1] =
    x.writeLanes (x.writeLanes w v 0 [d]) v 1 [d + 1] := by
  simp only [Cx.writeLanes]

/-- Writes of a register and of the next one touch no register both. -/
theorem oneReg_apart (m : Mask) (d : Nat) (a b : Nat → Word) (n : Nat) :
    (∀ l, oneReg m d a l n = none) ∨ ∀ l, oneReg m (d + 1) b l n = none := by
  by_cases h : n = d
  · exact .inr (fun l => by simp [oneReg, h])
  · exact .inl (fun l => by simp [oneReg, h])

/-- Two registers written one after the other make a pair. -/
theorem pair_of_two {m : Mask} {d l : Nat} (v : Nat → Nat) (n : Nat) :
    (oneReg m (d + 1) (fun l => BitVec.ofNat 32 (v l / 2 ^ 32 % 2 ^ 32)) l n).or
      (oneReg m d (fun l => BitVec.ofNat 32 (v l % 2 ^ 32)) l n) =
    onePair m d (fun l => BitVec.ofNat 64 (v l)) l n := by
  simp only [oneReg, onePair, ofNat_mod32, low_ofNat, high_ofNat]
  by_cases hm : inMask m l = true
  · by_cases h : n = d
    · subst h; simp [hm]
    · by_cases h' : n = d + 1
      · subst h'; simp [hm]
      · simp [h, h']
  · simp [hm]

theorem writeUniform_pair {x : Cx} {w : Warp} {d v : Nat} (hd : d + 1 < w.regs.length)
    (hw : ∀ l, l < 32 → (w.lane l).isExited = (x.w.lane l).isExited) :
    Writes w (x.writeUniform w [d, d + 1] (twoWords v)) (onePair x.w.live d (fun _ => BitVec.ofNat 64 v)) noFlags := by
  have h1 := writeUniform_one (x := x) (v := v % 2 ^ 32) (by omega : d < w.regs.length) hw
  have hw' : ∀ l, l < 32 → ((x.writeUniform w [d] [v % 2 ^ 32]).lane l).isExited = (x.w.lane l).isExited := by
    intro l hl
    have := congrArg Lane.cond (h1.lanes l hl)
    simp only at this
    rw [← hw l hl]
    exact isExited_congr this
  have h2 := writeUniform_one (x := x) (w := x.writeUniform w [d] [v % 2 ^ 32]) (d := d + 1) (v := v / 2 ^ 32 % 2 ^ 32)
    (by rw [h1.count]; exact hd) hw'
  rw [writeUniform_two]
  exact writes_congr (writes_trans h1 h2 (oneReg_apart _ _ _ _)) (fun l hl he n => pair_of_two (fun _ => v) n)
    (fun l hl => by simp [noFlags])

/-- A value of its own written in each active lane. -/
theorem writeLanes_one {x : Cx} {w : Warp} {d k : Nat} {v : Nat → List Nat} (hd : d < w.regs.length) :
    Writes w (x.writeLanes w v k [d]) (oneReg x.act d (fun l => BitVec.ofNat 32 ((v l).getD k 0))) noFlags := by
  refine write_writes x w x.act _ hd _ (fun l hl _ n => ?_) (fun l hl _ n => ?_)
  · rw [get_laneForm _ _ _ _ hl]
    by_cases h : n = d
    · subst h
      by_cases hm : inMask x.act l = true <;> simp [oneReg, hm]
    · simp [oneReg, h]
  · by_cases h : n = d
    · by_cases hm : inMask x.act l = true <;> simp [oneReg, h, hm]
    · simp [oneReg, h]

theorem writeLanes_pair {x : Cx} {w : Warp} {d : Nat} {v : Nat → Nat} (hd : d + 1 < w.regs.length) :
    Writes w (x.writeLanes w (fun l => twoWords (v l)) 0 [d, d + 1]) (onePair x.act d (fun l => BitVec.ofNat 64 (v l))) noFlags := by
  have h1 := writeLanes_one (x := x) (k := 0) (v := fun l => twoWords (v l)) (by omega : d < w.regs.length)
  have h2 := writeLanes_one (x := x) (w := x.writeLanes w (fun l => twoWords (v l)) 0 [d]) (d := d + 1) (k := 1)
    (v := fun l => twoWords (v l)) (by rw [h1.count]; exact hd)
  rw [writeLanes_two]
  exact writes_congr (writes_trans h1 h2 (oneReg_apart _ _ _ _)) (fun l hl he n => pair_of_two v n) (fun l hl => by simp [noFlags])

/-! ### Executing -/

theorem flagsIn_zero (m : Mask) : flagsIn m (fun _ => 0#5) = noFlags := by
  funext l
  simp [flagsIn, noFlags]

theorem ready_last {w : Warp} {m : Mask} {rs : List Nat} {d : Nat} (h : Ready w m rs [d]) : d < w.alloc := (h.2 d (by simp)).1

/-- `uniformAlu` with one destination. -/
theorem uniformAlu_one {s : State} {i : Info} {x : Cx} {k : Instr} {op : Hints → Alu} {d v : Nat} {fl : Flags} {srcs : List Nat}
    (h : Begins s i x) (he : exec k s = uniformAlu s i op) (hs : (op x.hints).srcs = srcs) (hd : (op x.hints).dsts = [d])
    (hf : (op x.hints).fn (fun n => x.w.val x.lead n) = ([v], fl))
    (h1 : Ready x.w (oneLane x.lead) srcs []) (h2 : Ready x.w x.w.live [] [d]) (h3 : d < x.w.alloc) :
    ∃ w', x.Completes k x.s w' ∧ Writes x.wd w' (oneReg x.w.live d (fun _ => BitVec.ofNat 32 v)) (flagsIn x.w.live (fun _ => fl)) := by
  obtain ⟨k1, k2, k3⟩ := wd_kept h
  have hw := writeUniform_one (x := x) (w := x.wd) (v := v) (by rw [k1]; exact h3) (fun l hl => wd_exited h hl)
  have hw := writes_congr (writes_trans hw (orFlags_writes _ x.w.live (fun _ => fl)) (fun _ => .inr (fun _ => rfl))) (g := oneReg x.w.live d (fun _ => BitVec.ofNat 32 v))
    (b := flagsIn x.w.live (fun _ => fl)) (fun _ _ _ _ => rfl) (fun l _ => by simp [noFlags, flagsIn])
  refine ⟨_, completes_of h ?_ ?_ ?_, hw⟩
  · rw [writes_id hw, wd_id h]
  · rw [writes_ctx hw, wd_ctx h]
  · rw [he]
    unfold uniformAlu
    refine issue_next h ?_
    simp only [hs, hd]
    rw [checkUniform_ok (lead_lt x) h1 h2]
    have hf' : (op x.hints).fn (fun n => (x.w.reg x.lead n).toNat) = ([v], fl) := hf
    simp only [hf']
    rfl

/-- `uniformAlu` with a destination pair. -/
theorem uniformAlu_pair {s : State} {i : Info} {x : Cx} {k : Instr} {op : Hints → Alu} {d v : Nat} {fl : Flags} {srcs : List Nat}
    (h : Begins s i x) (he : exec k s = uniformAlu s i op) (hs : (op x.hints).srcs = srcs) (hd : (op x.hints).dsts = [d, d + 1])
    (hf : (op x.hints).fn (fun n => x.w.val x.lead n) = (twoWords v, fl))
    (h1 : Ready x.w (oneLane x.lead) srcs []) (h2 : Ready x.w x.w.live [] [d, d + 1]) (h3 : d + 1 < x.w.alloc) :
    ∃ w', x.Completes k x.s w' ∧ Writes x.wd w' (onePair x.w.live d (fun _ => BitVec.ofNat 64 v)) (flagsIn x.w.live (fun _ => fl)) := by
  obtain ⟨k1, k2, k3⟩ := wd_kept h
  have hw := writeUniform_pair (x := x) (w := x.wd) (v := v) (by rw [k1]; exact h3) (fun l hl => wd_exited h hl)
  have hw := writes_congr (writes_trans hw (orFlags_writes _ x.w.live (fun _ => fl)) (fun _ => .inr (fun _ => rfl))) (g := onePair x.w.live d (fun _ => BitVec.ofNat 64 v))
    (b := flagsIn x.w.live (fun _ => fl)) (fun _ _ _ _ => rfl) (fun l _ => by simp [noFlags, flagsIn])
  refine ⟨_, completes_of h ?_ ?_ ?_, hw⟩
  · rw [writes_id hw, wd_id h]
  · rw [writes_ctx hw, wd_ctx h]
  · rw [he]
    unfold uniformAlu
    refine issue_next h ?_
    simp only [hs, hd]
    rw [checkUniform_ok (lead_lt x) h1 h2]
    have hf' : (op x.hints).fn (fun n => (x.w.reg x.lead n).toNat) = (twoWords v, fl) := hf
    simp only [hf']
    rfl

/-- `laneAlu` with one destination: the form kept, where one is, holds each lane's own value. -/
theorem laneAlu_one {s : State} {i : Info} {x : Cx} {k : Instr} {op : Hints → Alu} {keep : Hints → Warp → Option RegForm} {d : Nat}
    {v : Nat → Nat} {fl : Nat → Flags} {srcs : List Nat}
    (h : Begins s i x) (he : exec k s = laneAlu s i op keep) (hs : (op x.hints).srcs = srcs) (hd : (op x.hints).dsts = [d])
    (hf : ∀ l, (op x.hints).fn (fun n => x.w.val l n) = ([v l], fl l))
    (hk : ∀ f, keep x.hints x.w = some f → ∀ l, l < 32 → f.get l = BitVec.ofNat 32 (v l))
    (h1 : Ready x.w x.act srcs [d]) (h3 : d < x.w.alloc) :
    ∃ w', x.Completes k x.s w' ∧ Writes x.wd w' (oneReg x.act d (fun l => BitVec.ofNat 32 (v l))) (flagsIn x.act fl) := by
  obtain ⟨k1, k2, k3⟩ := wd_kept h
  have hf' : ∀ l, (op x.hints).fn (fun n => (x.w.reg l n).toNat) = ([v l], fl l) := hf
  have key : ∃ w1, Writes x.wd w1 (oneReg x.act d (fun l => BitVec.ofNat 32 (v l))) noFlags ∧
      (match (if x.act = allLanes then keep x.hints x.w else none), [d] with
        | some f, [d] => x.write x.wd x.act d f
        | _, _ => if x.act = 0#32 then x.wd else x.writeLanes x.wd (fun l => [v l]) 0 [d]) = w1 := by
    refine ⟨_, ?_, rfl⟩
    split
    · rename_i f d' hkeep hd'
      cases hd'
      split at hkeep
      · rename_i ha
        refine write_writes x x.wd x.act _ (by rw [k1]; exact h3) _ (fun l hl _ n => ?_) (fun l hl _ n => ?_)
        · by_cases hn : n = d
          · subst hn
            simp [oneReg, ha, inMask_allLanes hl, hk f hkeep l hl]
          · simp [oneReg, hn]
        · by_cases hn : n = d <;> simp [oneReg, ha, inMask_allLanes hl, hn]
      · cases hkeep
    · split
      · rename_i ha
        exact writes_congr (writes_refl _) (fun l _ _ n => by simp [noReg, oneReg, ha, inMask_zero]) (fun _ _ => rfl)
      · exact writeLanes_one (by rw [k1]; exact h3)
  obtain ⟨w1, hw, hw1⟩ := key
  have hw := writes_congr (writes_trans hw (orFlags_writes _ x.act fl) (fun _ => .inr (fun _ => rfl))) (g := oneReg x.act d (fun l => BitVec.ofNat 32 (v l)))
    (b := flagsIn x.act fl) (fun _ _ _ _ => rfl) (fun l _ => by simp [noFlags, flagsIn])
  refine ⟨_, completes_of h ?_ ?_ ?_, hw⟩
  · rw [writes_id hw, wd_id h]
  · rw [writes_ctx hw, wd_ctx h]
  · rw [he]
    unfold laneAlu
    refine issue_next h ?_
    simp only [hs, hd]
    rw [checkRegs_ok h1]
    simp only [hf']
    rw [← hw1]
    all_goals rfl

/-- `perLaneAlu` with one destination. -/
theorem perLaneAlu_one {s : State} {i : Info} {x : Cx} {k : Instr} {op : Hints → Alu} {d : Nat}
    {v : Nat → Nat} {fl : Nat → Flags} {srcs : List Nat}
    (h : Begins s i x) (he : exec k s = perLaneAlu s i op) (hs : (op x.hints).srcs = srcs) (hd : (op x.hints).dsts = [d])
    (hf : ∀ l, (op x.hints).fn (fun n => x.w.val l n) = ([v l], fl l))
    (h1 : Ready x.w x.act srcs [d]) (h3 : d < x.w.alloc) :
    ∃ w', x.Completes k x.s w' ∧ Writes x.wd w' (oneReg x.act d (fun l => BitVec.ofNat 32 (v l))) (flagsIn x.act fl) :=
  laneAlu_one h he hs hd hf (fun _ hf => by cases hf) h1 h3

/-- `perLaneAlu` with a destination pair. -/
theorem perLaneAlu_pair {s : State} {i : Info} {x : Cx} {k : Instr} {op : Hints → Alu} {d : Nat}
    {v : Nat → Nat} {fl : Nat → Flags} {srcs : List Nat}
    (h : Begins s i x) (he : exec k s = perLaneAlu s i op) (hs : (op x.hints).srcs = srcs) (hd : (op x.hints).dsts = [d, d + 1])
    (hf : ∀ l, (op x.hints).fn (fun n => x.w.val l n) = (twoWords (v l), fl l))
    (h1 : Ready x.w x.act srcs [d, d + 1]) (h3 : d + 1 < x.w.alloc) :
    ∃ w', x.Completes k x.s w' ∧ Writes x.wd w' (onePair x.act d (fun l => BitVec.ofNat 64 (v l))) (flagsIn x.act fl) := by
  obtain ⟨k1, k2, k3⟩ := wd_kept h
  have hf' : ∀ l, (op x.hints).fn (fun n => (x.w.reg l n).toNat) = (twoWords (v l), fl l) := hf
  have key : ∃ w1, Writes x.wd w1 (onePair x.act d (fun l => BitVec.ofNat 64 (v l))) noFlags ∧
      (if x.act = 0#32 then x.wd else x.writeLanes x.wd (fun l => twoWords (v l)) 0 [d, d + 1]) = w1 := by
    refine ⟨_, ?_, rfl⟩
    split
    · rename_i ha
      exact writes_congr (writes_refl _) (fun l _ _ n => by simp [noReg, onePair, ha, inMask_zero]) (fun _ _ => rfl)
    · exact writeLanes_pair (by rw [k1]; exact h3)
  obtain ⟨w1, hw, hw1⟩ := key
  have hw := writes_congr (writes_trans hw (orFlags_writes _ x.act fl) (fun _ => .inr (fun _ => rfl))) (g := onePair x.act d (fun l => BitVec.ofNat 64 (v l)))
    (b := flagsIn x.act fl) (fun _ _ _ _ => rfl) (fun l _ => by simp [noFlags, flagsIn])
  refine ⟨_, completes_of h ?_ ?_ ?_, hw⟩
  · rw [writes_id hw, wd_id h]
  · rw [writes_ctx hw, wd_ctx h]
  · rw [he]
    unfold perLaneAlu laneAlu
    refine issue_next h ?_
    simp only [hs, hd]
    rw [checkRegs_ok h1]
    simp only [hf', ite_self]
    rw [← hw1]

/-! ### The forms a `v.` twin keeps hold each lane's value (R28) -/

theorem ofNat_val (w : Word) : BitVec.ofNat 32 w.toNat = w := by
  apply BitVec.eq_of_toNat_eq
  simp

theorem keepAdd_value {a b f : RegForm} (h : keepAdd a b = some f) {l : Nat} : f.get l = a.get l + b.get l := by
  unfold keepAdd at h
  split at h <;> simp only [Option.some.injEq, reduceCtorEq] at h <;> subst h <;> simp only [RegForm.get] <;> ring

theorem keepSub_value {a b f : RegForm} (h : keepSub a b = some f) {l : Nat} : f.get l = a.get l - b.get l := by
  unfold keepSub at h
  split at h <;> simp only [Option.some.injEq, reduceCtorEq] at h
  subst h
  simp only [RegForm.get]
  ring

theorem keepMul_value {a b f : RegForm} (h : keepMul a b = some f) {l : Nat} : f.get l = a.get l * b.get l := by
  unfold keepMul at h
  split at h <;> simp only [Option.some.injEq, reduceCtorEq] at h <;> subst h <;> simp only [RegForm.get] <;> ring

theorem shl_mul (x : Word) {n : Nat} : x <<< n = x * BitVec.ofNat 32 (2 ^ n) := by
  apply BitVec.eq_of_toNat_eq
  simp [Nat.shiftLeft_eq, Nat.mul_mod]

theorem keepShl_value {a b f : RegForm} (h : keepShl a b = some f) {l : Nat} :
    f.get l = if (b.get l).toNat < 32 then a.get l <<< (b.get l).toNat else 0#32 := by
  unfold keepShl at h
  split at h
  · split at h
    · rename_i hlt
      simp only [Option.some.injEq] at h
      subst h
      simp only [RegForm.get, if_pos hlt, shl_mul]
      ring
    · cases h
  · cases h

theorem keepMov_value {a f : RegForm} (h : keepMov a = some f) {l : Nat} : f.get l = a.get l := by
  unfold keepMov at h
  split at h
  · cases h
  · cases h
    rfl

end Sys2Proof.Machine
end

