-- ==== Sys2Proof/Laws/Memory.lean ====
section
/-! SUPPORT. The laws of memory: a read after a write, and that every write keeps the canonical form (R164). -/

namespace Sys2Proof.Machine

theorem Memory.wfFrom_mono {m : Memory} {a b : Nat} (h : a ≤ b) (w : Memory.wfFrom b m = true) : Memory.wfFrom a m = true := by
  cases m with
  | nil => rfl
  | cons c m =>
    simp only [Memory.wfFrom, Bool.and_eq_true, decide_eq_true_eq] at w ⊢
    exact ⟨⟨by omega, w.1.2⟩, w.2⟩

theorem Memory.read_below {m : Memory} {lo a : Nat} (w : Memory.wfFrom lo m = true) (h : a < lo) : Memory.read m a = 0#8 := by
  cases m with
  | nil => rfl
  | cons c m =>
    simp only [Memory.wfFrom, Bool.and_eq_true, decide_eq_true_eq] at w
    have h1 : ¬ c.1 = a := by omega
    have h2 : a < c.1 := by omega
    simp [Memory.read, h1, h2]

theorem Memory.wfFrom_write {a : Nat} {b : Byte} : ∀ {m : Memory} {lo : Nat}, lo ≤ a → Memory.wfFrom lo m = true →
    Memory.wfFrom lo (Memory.write m a b) = true
  | [], lo, h, _ => by
    by_cases hb : b = 0#8 <;> simp [Memory.write, hb, Memory.wfFrom, h]
  | (x, c) :: m, lo, h, w => by
    simp only [Memory.wfFrom, Bool.and_eq_true, decide_eq_true_eq] at w
    simp only [Memory.write]
    split
    · split
      · simp [Memory.wfFrom, w.1.1, w.2]; simpa using w.1.2
      · rename_i hlt hb
        simp only [Memory.wfFrom, Bool.and_eq_true, decide_eq_true_eq]
        exact ⟨⟨h, by simpa using hb⟩, ⟨by omega, w.1.2⟩, w.2⟩
    · split
      · split
        · exact Memory.wfFrom_mono (by omega) w.2
        · rename_i hx hb
          simp only [Memory.wfFrom, Bool.and_eq_true, decide_eq_true_eq]
          exact ⟨⟨h, by simpa using hb⟩, by rw [hx]; exact w.2⟩
      · rename_i h1 h2
        simp only [Memory.wfFrom, Bool.and_eq_true, decide_eq_true_eq]
        exact ⟨w.1, Memory.wfFrom_write (by omega) w.2⟩

/-- A write of one byte keeps the canonical form. -/
theorem Memory.wf_write {m : Memory} (a : Nat) (b : Byte) (w : Memory.wf m = true) : Memory.wf (Memory.write m a b) = true :=
  Memory.wfFrom_write (Nat.zero_le a) w

/-- A write of several bytes keeps the canonical form. -/
theorem Memory.wf_writeN : ∀ (n : Nat) {m : Memory} (a v : Nat), Memory.wf m = true → Memory.wf (Memory.writeN m a n v) = true
  | 0, _, _, _, w => w
  | n + 1, _, a, _, w => Memory.wf_writeN n (a + 1) _ (Memory.wf_write a _ w)

theorem Memory.read_write_from {a : Nat} {b : Byte} (x : Nat) : ∀ {m : Memory} {lo : Nat}, Memory.wfFrom lo m = true →
    Memory.read (Memory.write m a b) x = if x = a then b else Memory.read m x
  | [], _, _ => by
    by_cases hb : b = 0#8
    · subst hb; simp [Memory.write, Memory.read]
    · simp only [Memory.write, hb, if_false, Memory.read]
      by_cases hx : x = a
      · simp [hx]
      · simp [hx, Ne.symm hx]
  | (y, c) :: m, lo, w => by
    simp only [Memory.wfFrom, Bool.and_eq_true, decide_eq_true_eq] at w
    simp only [Memory.write]
    split
    · rename_i hlt
      split
      · rename_i hb
        subst hb
        by_cases hx : x = a
        · subst hx
          have : ¬ y = x := by omega
          simp [Memory.read, this, hlt]
        · simp [hx]
      · by_cases hx : x = a
        · subst hx; simp [Memory.read]
        · by_cases hxa : x < a
          · have h1 : ¬ y = x := by omega
            have h2 : x < y := by omega
            simp [Memory.read, hx, Ne.symm hx, hxa, h1, h2]
          · simp [Memory.read, hx, Ne.symm hx, hxa]
    · split
      · rename_i hay
        subst hay
        split
        · rename_i hb
          subst hb
          by_cases hx : x = a
          · subst hx; simp [Memory.read_below w.2 (Nat.lt_succ_self x)]
          · by_cases hxa : x < a
            · simp [Memory.read, hx, Ne.symm hx, hxa, Memory.read_below w.2 (show x < a + 1 by omega)]
            · simp [Memory.read, hx, Ne.symm hx, hxa]
        · by_cases hx : x = a
          · subst hx; simp [Memory.read]
          · simp [Memory.read, hx, Ne.symm hx]
      · rename_i h1 h2
        simp only [Memory.read]
        rw [Memory.read_write_from x w.2]
        by_cases hx : x = a
        · subst hx
          have h3 : ¬ y = x := Ne.symm h2
          have h4 : ¬ x < y := h1
          simp [h3, h4]
        · simp [hx]

/-- A read after a write: the byte written at its address, the byte that was there elsewhere. -/
theorem Memory.read_write {m : Memory} (w : Memory.wf m = true) (a : Nat) (b : Byte) (x : Nat) :
    Memory.read (Memory.write m a b) x = if x = a then b else Memory.read m x :=
  Memory.read_write_from x w

/-- A read after a write of several bytes. -/
theorem Memory.read_writeN : ∀ (n : Nat) {m : Memory} (_ : Memory.wf m = true) (a v x : Nat),
    Memory.read (Memory.writeN m a n v) x = if a ≤ x ∧ x < a + n then BitVec.ofNat 8 (v / 256 ^ (x - a)) else Memory.read m x
  | 0, m, _, a, v, x => by
    have : ¬ (a ≤ x ∧ x < a + 0) := by omega
    rw [if_neg this]; rfl
  | n + 1, m, w, a, v, x => by
    simp only [Memory.writeN]
    rw [Memory.read_writeN n (Memory.wf_write a _ w), Memory.read_write w]
    by_cases h1 : a + 1 ≤ x ∧ x < a + 1 + n
    · have h2 : a ≤ x ∧ x < a + (n + 1) := by omega
      rw [if_pos h1, if_pos h2, Nat.div_div_eq_div_mul]
      have h3 : x - a = (x - (a + 1)) + 1 := by omega
      rw [h3, pow_succ, Nat.mul_comm]
    · rw [if_neg h1]
      by_cases hx : x = a
      · subst hx; simp
      · have h2 : ¬ (a ≤ x ∧ x < a + (n + 1)) := by omega
        rw [if_neg h2]; simp [hx]

/-- Reading bytes depends on those bytes alone. -/
theorem Memory.readN_congr {m k : Memory} : ∀ (n a : Nat), (∀ x, a ≤ x → x < a + n → Memory.read m x = Memory.read k x) →
    Memory.readN m a n = Memory.readN k a n
  | 0, _, _ => rfl
  | n + 1, a, h => by
    simp only [Memory.readN]
    rw [h a (by omega) (by omega), Memory.readN_congr n (a + 1) (fun x h1 h2 => h x (by omega) (by omega))]

theorem Memory.readN_lt (m : Memory) : ∀ (n a : Nat), Memory.readN m a n < 256 ^ n
  | 0, _ => by simp [Memory.readN]
  | n + 1, a => by
    simp only [Memory.readN, pow_succ]
    have h1 := Memory.readN_lt m n (a + 1)
    have h2 := (Memory.read m a).isLt
    omega

/-- What was written is read back. -/
theorem Memory.readN_writeN : ∀ (n : Nat) {m : Memory} (_ : Memory.wf m = true) (a v : Nat),
    Memory.readN (Memory.writeN m a n v) a n = v % 256 ^ n
  | 0, _, _, _, _ => by simp [Memory.readN, Nat.mod_one]
  | n + 1, m, w, a, v => by
    have h0 : Memory.read (Memory.writeN m a (n + 1) v) a = BitVec.ofNat 8 v := by
      rw [Memory.read_writeN (n + 1) w]; simp
    have h1 : Memory.readN (Memory.writeN m a (n + 1) v) (a + 1) n = (v / 256) % 256 ^ n := by
      simp only [Memory.writeN]
      exact Memory.readN_writeN n (Memory.wf_write a _ w) (a + 1) (v / 256)
    simp only [Memory.readN, h0, h1]
    have : (256 : Nat) ^ (n + 1) = 256 * 256 ^ n := by rw [pow_succ, Nat.mul_comm]
    rw [this, Nat.mod_mul]
    simp

/-- Bytes elsewhere are read as before. -/
theorem Memory.readN_writeN_of_disjoint {m : Memory} (w : Memory.wf m = true) (n a v k b : Nat) (h : b + k ≤ a ∨ a + n ≤ b) :
    Memory.readN (Memory.writeN m a n v) b k = Memory.readN m b k := by
  apply Memory.readN_congr
  intro x h1 h2
  rw [Memory.read_writeN n w, if_neg (by omega)]

/-- Each byte of a value read is the byte that stands there. -/
theorem Memory.byte_of_readN (m : Memory) : ∀ (n a i : Nat), i < n →
    BitVec.ofNat 8 (Memory.readN m a n / 256 ^ i) = Memory.read m (a + i)
  | n + 1, a, 0, _ => by
    simp only [Memory.readN, pow_zero, Nat.div_one, Nat.add_zero]
    apply BitVec.eq_of_toNat_eq
    simp only [BitVec.toNat_ofNat]
    have := (Memory.read m a).isLt
    omega
  | n + 1, a, i + 1, h => by
    simp only [Memory.readN]
    have h1 := Memory.byte_of_readN m n (a + 1) i (by omega)
    have h2 := (Memory.read m a).isLt
    rw [pow_succ, Nat.mul_comm (256 ^ i) 256, ← Nat.div_div_eq_div_mul]
    have h3 : ((Memory.read m a).toNat + 256 * Memory.readN m (a + 1) n) / 256 = Memory.readN m (a + 1) n := by omega
    rw [h3, h1]
    congr 1
    omega

/-- The memory of reset is in the canonical form. -/
theorem reset_canonical : State.reset.Canonical := ⟨rfl, fun _ h => nomatch h⟩

end Sys2Proof.Machine
end

