-- ==== Sys2Proof/Laws/Canonical.lean ====
section
/-! SUPPORT. Every operation on memory keeps every memory in its canonical form. -/

namespace Sys2Proof.Machine

/-- Only the contents of memory and of the blocks matter. -/
theorem State.Canonical.congr {s t : State} (h : s.Canonical) (hm : t.mem = s.mem) (hb : t.blocks = s.blocks) : t.Canonical := by
  unfold State.Canonical
  rw [hm, hb]
  exact h

/-- Writing HBM. -/
theorem State.Canonical.writeHbm {s t : State} (h : s.Canonical) (a n v : Nat) (hm : t.mem = Memory.writeN s.mem a n v)
    (hb : t.blocks = s.blocks) : t.Canonical := by
  unfold State.Canonical
  rw [hm, hb]
  exact ⟨Memory.wf_writeN n a v h.1, h.2⟩

theorem State.Canonical.store {s : State} (h : s.Canonical) (a n v : Nat) : { s with mem := Memory.writeN s.mem a n v }.Canonical :=
  ⟨Memory.wf_writeN n a v h.1, h.2⟩

theorem State.Canonical.storeMod {s : State} (h : s.Canonical) (a n v : Nat) (m : Module) :
    { s with mem := Memory.writeN s.mem a n v, mod := m }.Canonical := ⟨Memory.wf_writeN n a v h.1, h.2⟩

theorem updFirst_from {α : Type} {p : α → Bool} {f : α → α} {x : α} : ∀ {l : List α}, x ∈ updFirst p f l → x ∈ l ∨ ∃ y ∈ l, x = f y
  | [], h => absurd h (by simp [updFirst])
  | y :: ys, h => by
    simp only [updFirst] at h
    split at h
    · rcases List.mem_cons.mp h with rfl | h
      · exact .inr ⟨y, by simp, rfl⟩
      · exact .inl (by simp [h])
    · rcases List.mem_cons.mp h with rfl | h
      · exact .inl (by simp)
      · rcases updFirst_from h with h | ⟨z, hz, e⟩
        · exact .inl (by simp [h])
        · exact .inr ⟨z, by simp [hz], e⟩

/-- Changing a block in a way that keeps its memories canonical. -/
theorem State.Canonical.updBlock {s : State} (h : s.Canonical) (id : Nat) (f : Block → Block)
    (hf : ∀ b, Memory.wf b.scratch = true → Memory.wf b.tiles = true → Memory.wf (f b).scratch = true ∧ Memory.wf (f b).tiles = true) :
    (s.updBlock id f).Canonical := by
  refine ⟨h.1, fun b hb => ?_⟩
  rcases updFirst_from hb with hb | ⟨y, hy, rfl⟩
  · exact h.2 b hb
  · exact hf y (h.2 y hy).1 (h.2 y hy).2

/-- A fold keeps what its function keeps. -/
theorem foldl_keeps {α : Type} {f : State → α → State} (h : ∀ s a, s.Canonical → (f s a).Canonical) :
    ∀ (l : List α) (s : State), s.Canonical → (l.foldl f s).Canonical
  | [], _, k => k
  | a :: l, s, k => foldl_keeps h l (f s a) (h s a k)

/-! ### Operations that write no memory -/

theorem canonical_noteWrite {s : State} (h : s.Canonical) (p : Target → Nat → Bool) : (noteWrite s p).Canonical := h.congr rfl rfl

theorem canonical_updCtx {s : State} (h : s.Canonical) (n : Nat) (f : Ctx → Ctx) : (s.updCtx n f).Canonical := h.congr rfl rfl

theorem canonical_updWarp {s : State} (h : s.Canonical) (n : Nat) (f : Warp → Warp) : (s.updWarp n f).Canonical := h.congr rfl rfl

theorem canonical_setWarp {s : State} (h : s.Canonical) (w : Warp) : (s.setWarp w).Canonical := h.congr rfl rfl

theorem canonical_updLaunch {s : State} (h : s.Canonical) (n : Nat) (f : Launch → Launch) : (s.updLaunch n f).Canonical := h.congr rfl rfl

theorem canonical_setLaunch {s : State} (h : s.Canonical) (l : Launch) : (s.setLaunch l).Canonical := h.congr rfl rfl

theorem canonical_setJob {s : State} (h : s.Canonical) (j : Job) : (s.setJob j).Canonical := h.congr rfl rfl

theorem canonical_updPass {s : State} (h : s.Canonical) (n : Nat) (f : Pass → Pass) : (s.updPass n f).Canonical := h.congr rfl rfl

theorem canonical_sendMessage {s : State} (h : s.Canonical) (m : Message) : (sendMessage s m).Canonical := h.congr rfl rfl

theorem canonical_noteWriteOf {s : State} (h : s.Canonical) (who : Warp → Bool) (p : Target → Nat → Bool) :
    (noteWriteOf s who p).Canonical := h.congr rfl rfl

theorem canonical_requestPage {s : State} (h : s.Canonical) (n p : Nat) : (requestPage s n p).Canonical := by
  unfold requestPage
  split
  · exact h
  · split
    · exact h
    · split
      · exact canonical_noteWriteOf (canonical_updCtx h _ _) _ _
      · exact h

theorem canonical_requestPages {s : State} (h : s.Canonical) (n : Nat) (ps : List Nat) : (requestPages s n ps).Canonical :=
  foldl_keeps (fun _ _ k => canonical_requestPage k _ _) ps s h

theorem canonical_stampTile {s : State} (h : s.Canonical) (n : Nat) (l : Leaf) (va : Nat) : (stampTile s n l va).Canonical := by
  unfold stampTile
  split
  · exact canonical_updCtx h _ _
  · exact h

theorem canonical_clearBad {s : State} (h : s.Canonical) (a n : Nat) : (clearBad s a n).Canonical := h.congr rfl rfl

theorem canonical_clearSram {s : State} (h : s.Canonical) (b : Nat) (t : Bool) (o n : Nat) : (clearSram s b t o n).Canonical :=
  h.congr rfl rfl

theorem canonical_notePending {s : State} (h : s.Canonical) (ctx va n raw : Nat) : (notePending s ctx va n raw).Canonical :=
  h.congr rfl rfl

theorem canonical_updParts {s : State} (h : s.Canonical) (ctx : Nat) (f : Part → Part) : (updParts s ctx f).Canonical := h.congr rfl rfl

theorem canonical_followLine {s : State} (h : s.Canonical) (ctx va a b : Nat) : (followLine s ctx va a b).Canonical :=
  canonical_updParts h _ _

theorem canonical_followPage {s : State} (h : s.Canonical) (ctx : Nat) (l : Leaf) (f : Nat) (cow : Bool) :
    (followPage s ctx l f cow).Canonical := canonical_updParts h _ _

theorem canonical_takeFrame {s : State} (h : s.Canonical) (f : Nat) : (takeFrame s f).Canonical := h.congr rfl rfl

theorem canonical_copyLine {s : State} (h : s.Canonical) (ctx va a b : Nat) : (copyLine s ctx va a b).Canonical := by
  unfold copyLine
  exact canonical_followLine (h.storeMod _ _ _ _) _ _ _ _

/-! ### Writes at their home -/

theorem canonical_rawStore {s : State} (h : s.Canonical) (ctx : Nat) (l : Leaf) (va pa n v : Nat) : (rawStore s ctx l va pa n v).Canonical := by
  unfold rawStore
  exact canonical_noteWrite (canonical_clearBad (canonical_stampTile (h.store pa n v) _ _ _) _ _) _

theorem canonical_doom {s : State} (h : s.Canonical) (ctx cause va : Nat) : (doom s ctx cause va).Canonical := h.congr rfl rfl

theorem canonical_mergePartial {s : State} (h : s.Canonical) (p : Partial) : (mergePartial s p).Canonical := by
  unfold mergePartial
  split
  · exact h
  · simp only
    split
    · exact canonical_doom h _ _ _
    · split
      · exact h.store _ _ _
      · exact canonical_rawStore h _ _ _ _ _ _

theorem canonical_mergeParts {s : State} (h : s.Canonical) (ls : List UpdateLine) :
    (ls.foldl (fun s l => l.parts.foldl mergePartial s) s).Canonical :=
  foldl_keeps (fun _ _ k => foldl_keeps (fun _ p k => canonical_mergePartial k p) _ _ k) ls s h

theorem canonical_mergeLine {s : State} (h : s.Canonical) (line : Nat) : (mergeLine s line).Canonical :=
  canonical_mergeParts (h.congr (t := { s with lines := s.lines.filter (fun l => l.line != line) }) rfl rfl) _

theorem canonical_pushLines {s : State} (h : s.Canonical) (core : Nat) : (pushLines s core).Canonical :=
  canonical_mergeParts (h.congr (t := { s with lines := s.lines.filter (fun l => l.core != core) }) rfl rfl) _

theorem canonical_pullLine {s : State} (h : s.Canonical) (c : Ctx) (l : Leaf) (va : Nat) : (pullLine s c l va).Canonical := by
  unfold pullLine
  split
  · exact h
  · simp only
    split
    · exact h
    · exact canonical_noteWrite (canonical_updCtx (canonical_copyLine (canonical_mergeLine h _) _ _ _ _) _ _) _

theorem canonical_pullAll {s : State} (h : s.Canonical) (c : Ctx) (l : Leaf) : (pullAll s c l).Canonical := by
  unfold pullAll
  split
  · exact h
  · exact canonical_updCtx (foldl_keeps (fun _ _ k => canonical_pullLine k _ _ _) _ _ h) _ _

theorem canonical_breakCow {s t : State} (h : s.Canonical) {c : Ctx} {l : Leaf} (e : breakCow s c l = some t) : t.Canonical := by
  unfold breakCow at e
  split at e
  · cases e
  · cases e
    exact (canonical_takeFrame (canonical_followPage (canonical_pullAll h c l) _ _ _ _) _).writeHbm _ _ _ rfl rfl

theorem canonical_prepareWrite {s t : State} (h : s.Canonical) {c : Ctx} {l : Leaf} {va : Nat} (e : prepareWrite s c l va = .ok t) :
    t.Canonical := by
  unfold prepareWrite at e
  split at e
  · cases e
  split at e
  · cases e
  split at e
  · split at e
    · cases e
    · rename_i s' hs
      split at e
      · cases e
      · split at e
        · cases e
        · cases e
          exact canonical_pullLine (canonical_breakCow h hs) _ _ _
  · cases e
    exact canonical_pullLine h _ _ _

theorem canonical_storeVa {s t : State} (h : s.Canonical) {ctx va n v : Nat} (e : storeVa s ctx va n v = .ok t) : t.Canonical := by
  unfold storeVa at e
  split at e
  · cases e
  · split at e
    · cases e
    · split at e
      · cases e
      · split at e
        · cases e
        · split at e
          · cases e
          · split at e
            · cases e
            · rename_i h1
              split at e
              · cases e
              · cases e
                exact canonical_rawStore (canonical_prepareWrite h h1) _ _ _ _ _ _

theorem canonical_widenElem {s t : State} (h : s.Canonical) {ctx r ch raw : Nat} {x : Tensor} {f : Fmt}
    (e : widenElem s ctx x f r ch raw = .ok t) : t.Canonical := by
  unfold widenElem at e
  split at e
  · cases e; exact h
  · simp only at e
    split at e
    · split at e
      · cases e
      · rename_i s1 h1
        split at e
        · cases e
        · rename_i s2 h2
          cases e
          exact canonical_storeVa (canonical_notePending (canonical_storeVa h h1) _ _ _ _) h2
    · cases e
    · cases e

theorem canonical_widenBytes {ctx : Nat} {x : Tensor} {f : Nat → Nat} : ∀ {os : List Nat} {s t : State}, s.Canonical →
    widenBytes s ctx x f os = .ok t → t.Canonical
  | [], s, t, h, e => by cases e; exact h
  | o :: os, s, t, h, e => by
    simp only [widenBytes] at e
    split at e
    · cases e; exact h
    split at e
    · split at e
      · exact canonical_widenBytes h e
      · split at e
        · cases e
        · rename_i h1
          exact canonical_widenBytes (canonical_widenElem h h1) e
    · exact canonical_widenBytes h e

theorem canonical_widenAll {ctx va n v : Nat} {rd : State → Nat → Nat} : ∀ {ts : List Tensor} {s t : State}, s.Canonical →
    widenAll s ctx va n v rd ts = .ok t → t.Canonical
  | [], s, t, h, e => by cases e; exact h
  | x :: ts, s, t, h, e => by
    simp only [widenAll] at e
    split at e
    · split at e
      · cases e
      · rename_i h1
        exact canonical_widenAll (canonical_widenBytes h h1) e
    · exact canonical_widenAll h e

/-! ### Reads and writes of bytes -/

theorem canonical_readChunk {s t : State} (h : s.Canonical) {c : Ctx} {blk : Option Nat} {kind va n v : Nat}
    (e : readChunk s c blk kind va n = .ok (v, t)) : t.Canonical := by
  unfold readChunk at e
  split at e
  · cases e
  · split at e
    · split at e
      · cases e
      · split at e
        · cases e
        · simp only at e
          split at e
          · cases e
          · cases e; exact canonical_mergeLine (canonical_pullLine h _ _ _) _
    · split at e
      · cases e
      · split at e <;> cases e
        exact h
    · split at e
      · cases e
      · split at e <;> cases e
        exact h
    · cases e; exact h
    · split at e <;> cases e
      exact h
    · cases e
    · cases e
    · cases e
    · split at e <;> cases e

/-- A write at its home, with the widenings it causes. -/
theorem canonical_writeHome {s t : State} (h : s.Canonical) {c : Ctx} {l : Leaf} {va n v : Nat} (e : writeHome s c l va n v = .ok t) :
    t.Canonical := by
  unfold writeHome at e
  simp only at e
  split at e
  · cases e
  · rename_i s1 h1
    have k1 : s1.Canonical := by
      split at h1
      · exact canonical_widenAll (canonical_mergeLine h _) h1
      · cases h1; exact canonical_mergeLine h _
    split at e
    · cases e
    · split at e
      · cases e
      · rename_i s2 h2
        split at e
        · cases e
        · cases e
          exact canonical_rawStore (canonical_prepareWrite k1 h2) _ _ _ _ _ _

theorem canonical_writeChunk {s t : State} (h : s.Canonical) {c : Ctx} {blk : Option Nat} {kind va n v : Nat}
    (e : writeChunk s c blk kind va n v = .ok t) : t.Canonical := by
  unfold writeChunk at e
  split at e
  · cases e
  · split at e
    · cases e
      refine canonical_noteWrite (State.Canonical.updBlock (canonical_clearSram h _ _ _ _) _ _ ?_) _
      exact fun b h1 h2 => ⟨Memory.wf_writeN n _ v h1, h2⟩
    · cases e
      refine State.Canonical.updBlock (canonical_clearSram h _ _ _ _) _ _ ?_
      exact fun b h1 h2 => ⟨h1, Memory.wf_writeN n _ v h2⟩
    · cases e
    · cases e
    · cases e
    · cases e
    · cases e
    · split at e
      · cases e
      · split at e
        · cases e
        · exact canonical_writeHome h e

theorem canonical_readBytes {ctx : Nat} {blk : Option Nat} {kind : Nat} : ∀ {fuel va n : Nat} {s t : State} {b : List Nat}, s.Canonical →
    readBytes s ctx blk kind fuel va n = .ok (b, t) → t.Canonical
  | 0, _, _, _, _, _, h, e => by cases e; exact h
  | fuel + 1, va, n, s, t, b, h, e => by
    simp only [readBytes] at e
    split at e
    · cases e; exact h
    · split at e
      · cases e
      · split at e
        · cases e
        · rename_i h1
          split at e
          · cases e
          · rename_i h2
            cases e
            exact canonical_readBytes (canonical_readChunk h h1) h2

theorem canonical_writeBytes {ctx : Nat} {blk : Option Nat} {kind : Nat} : ∀ {fuel va : Nat} {bytes : List Nat} {s t : State}, s.Canonical →
    writeBytes s ctx blk kind fuel va bytes = .ok t → t.Canonical
  | 0, _, _, _, _, h, e => by cases e; exact h
  | fuel + 1, va, [], s, t, h, e => by cases e; exact h
  | fuel + 1, va, _ :: _, s, t, h, e => by
    simp only [writeBytes] at e
    split at e
    · cases e
    · split at e
      · cases e
      · rename_i h1
        exact canonical_writeBytes (canonical_writeChunk h h1) e

/-- A read of a list of bytes, which may merge reductions, keeps the canonical form. -/
theorem canonical_readMem {s t : State} (h : s.Canonical) {ctx : Nat} {blk : Option Nat} {kind va n : Nat} {b : List Nat}
    (e : readMem s ctx blk kind va n = .ok (b, t)) : t.Canonical := canonical_readBytes h e

/-- A write of a list of bytes keeps the canonical form. -/
theorem canonical_writeMem {s t : State} (h : s.Canonical) {ctx : Nat} {blk : Option Nat} {kind va : Nat} {bytes : List Nat}
    (e : writeMem s ctx blk kind va bytes = .ok t) : t.Canonical := canonical_writeBytes h e

/-! ### The device's own writes, the log, the end of a context -/

theorem canonical_kickQueue {s : State} (h : s.Canonical) (ctx q v : Nat) : (kickQueue s ctx q v).Canonical := canonical_updCtx h _ _

theorem canonical_addKick {s : State} (h : s.Canonical) (ctx k v : Nat) : (addKick s ctx k v).Canonical := canonical_updCtx h _ _

/-- A store of the device's own, a kick among them. -/
theorem canonical_deviceStore {s t : State} (h : s.Canonical) {ctx va : Nat} {bytes : List Nat}
    (e : deviceStore s ctx va bytes = .ok t) : t.Canonical := by
  unfold deviceStore at e
  split at e
  · cases e; exact canonical_kickQueue h _ _ _
  · split at e
    · cases e
    · cases e; exact canonical_addKick h _ _ _
  · exact canonical_writeMem h e

theorem canonical_drainWrites {ctx : Nat} : ∀ (n : Nat) {s : State}, s.Canonical → (drainWrites s ctx n).Canonical
  | 0, _, h => h
  | n + 1, s, h => by
    simp only [drainWrites]
    have ends (s : State) (h : s.Canonical) (live : Bool) (cause a : Nat) (d : List Nat) :
        (if live = true then { s with mod := { s.mod with doomed := s.mod.doomed ++ [(ctx, cause, a, d)] } } else s).Canonical := by
      split
      · exact h.congr rfl rfl
      · exact h
    split
    · exact h
    · split
      · exact h
      · split
        · rename_i h1
          exact canonical_drainWrites n (canonical_updCtx (canonical_deviceStore h h1) _ _)
        · exact canonical_requestPage h _ _
        · exact canonical_drainWrites n (canonical_updCtx (ends s h _ _ _ _) _ _)
        · exact canonical_drainWrites n (canonical_updCtx (ends s h _ _ _ _) _ _)
        · exact canonical_drainWrites n (canonical_updCtx h _ _)

theorem canonical_deviceWrites {s : State} (h : s.Canonical) (ctx : Nat) (ws : List (Nat × List Nat)) : (deviceWrites s ctx ws).Canonical :=
  canonical_drainWrites _ (canonical_updCtx h _ _)

theorem canonical_logEntry {s : State} (h : s.Canonical) (ctx : Nat) (ws : List Nat) : (logEntry s ctx ws).Canonical := by
  unfold logEntry
  split
  · exact h
  · exact canonical_deviceWrites (canonical_updCtx h _ _) _ _

theorem canonical_logFault {s : State} (h : s.Canonical) (ctx pc : Nat) (run : Mask) (f : OpFault) : (logFault s ctx pc run f).Canonical :=
  canonical_logEntry h _ _

theorem canonical_answerPreempt {s : State} (h : s.Canonical) (c : Ctx) : (answerPreempt s c).Canonical := by
  unfold answerPreempt
  split
  · exact canonical_sendMessage h _
  · exact h

theorem canonical_endContext {s : State} (h : s.Canonical) (ctx : Nat) (ws : List Nat) : (endContext s ctx ws).Canonical := by
  unfold endContext
  split
  · exact h
  · split
    · apply canonical_deviceWrites
      apply canonical_answerPreempt
      refine ⟨h.1, fun b hb => h.2 b ?_⟩
      exact (List.mem_filter.mp hb).1
    · exact h

theorem canonical_endWith {s : State} (h : s.Canonical) (ctx cause addr : Nat) (d : List Nat) : (endWith s ctx cause addr d).Canonical :=
  canonical_endContext h _ _

end Sys2Proof.Machine
end

