-- ==== Sys2Proof/Laws/Values.lean ====
section
/-! SUPPORT. The integer functions as operations on 32-bit and 64-bit words (R106 to R110). -/

namespace Sys2Proof.Machine

theorem signed32 (a : Word) : signed 32 a.toNat = a.toInt := by
  unfold signed
  rw [BitVec.toInt_eq_toNat_cond]
  have := a.isLt
  rw [Nat.mod_eq_of_lt this]
  split <;> split <;> omega

theorem signed64 (a : DWord) : signed 64 a.toNat = a.toInt := by
  unfold signed
  rw [BitVec.toInt_eq_toNat_cond]
  have := a.isLt
  rw [Nat.mod_eq_of_lt this]
  split <;> split <;> omega

theorem ofNat_toNat32 (a : Word) : BitVec.ofNat 32 a.toNat = a := by
  apply BitVec.eq_of_toNat_eq
  simp

theorem low32_ofNat (i : Int) : BitVec.ofNat 32 (low32 i) = BitVec.ofInt 32 i := ofNat_toNat32 _

theorem val_add (a b : Word) : BitVec.ofNat 32 (intAdd a.toNat b.toNat) = a + b := by
  apply BitVec.eq_of_toNat_eq
  simp [intAdd]

theorem val_sub (a b : Word) : BitVec.ofNat 32 (intSub a.toNat b.toNat) = a - b := by
  rw [intSub, low32_ofNat]
  apply BitVec.eq_of_toNat_eq
  rw [BitVec.toNat_ofInt, BitVec.toNat_sub]
  have := a.isLt
  have := b.isLt
  omega

theorem val_mullo (a b : Word) : BitVec.ofNat 32 (intMullo a.toNat b.toNat) = a * b := by
  apply BitVec.eq_of_toNat_eq
  simp [intMullo]

theorem val_mulhiS (a b : Word) : BitVec.ofNat 32 (intMulhiS a.toNat b.toNat) = BitVec.ofInt 32 (a.toInt * b.toInt / 2 ^ 32) := by
  rw [intMulhiS, low32_ofNat, signed32, signed32]

theorem val_mad (a b c : Word) : BitVec.ofNat 32 (intMad a.toNat b.toNat c.toNat) = a * b + c := by
  apply BitVec.eq_of_toNat_eq
  simp [intMad]

theorem val_minS (a b : Word) : BitVec.ofNat 32 (intMinS a.toNat b.toNat) = if a.toInt ≤ b.toInt then a else b := by
  rw [intMinS, signed32, signed32]
  split <;> exact ofNat_toNat32 _

theorem val_maxS (a b : Word) : BitVec.ofNat 32 (intMaxS a.toNat b.toNat) = if a.toInt ≥ b.toInt then a else b := by
  rw [intMaxS, signed32, signed32]
  split <;> exact ofNat_toNat32 _

theorem val_minZ (a b : Word) : BitVec.ofNat 32 (intMinZ a.toNat b.toNat) = if a.toNat ≤ b.toNat then a else b := by
  rw [intMinZ, Nat.min_def]
  split <;> exact ofNat_toNat32 _

theorem val_maxZ (a b : Word) : BitVec.ofNat 32 (intMaxZ a.toNat b.toNat) = if a.toNat ≥ b.toNat then a else b := by
  rw [intMaxZ, Nat.max_def]
  by_cases h : a.toNat ≤ b.toNat
  · rw [if_pos h, ofNat_toNat32]
    split
    · exact BitVec.eq_of_toNat_eq (by omega)
    · rfl
  · rw [if_neg h, if_pos (by omega), ofNat_toNat32]

theorem val_absdiff (a b : Word) : BitVec.ofNat 32 (intAbsdiff a.toNat b.toNat) = BitVec.ofInt 32 |a.toInt - b.toInt| := by
  rw [intAbsdiff, signed32, signed32, ← BitVec.ofInt_natCast, Int.natCast_natAbs]

theorem val_addsat (a b : Word) : BitVec.ofNat 32 (intAddsatS a.toNat b.toNat) =
    BitVec.ofInt 32 (max (-(2 ^ 31)) (min (2 ^ 31 - 1) (a.toInt + b.toInt))) := by
  rw [intAddsatS, clamp32, low32_ofNat, signed32, signed32]

theorem val_subsat (a b : Word) : BitVec.ofNat 32 (intSubsatS a.toNat b.toNat) =
    BitVec.ofInt 32 (max (-(2 ^ 31)) (min (2 ^ 31 - 1) (a.toInt - b.toInt))) := by
  rw [intSubsatS, clamp32, low32_ofNat, signed32, signed32]

theorem val_mulhiZ (a b : Word) : BitVec.ofNat 32 (intMulhiZ a.toNat b.toNat) = BitVec.ofNat 32 (a.toNat * b.toNat / 2 ^ 32) := rfl

theorem val_avg (a b : Word) : BitVec.ofNat 32 (intAvgZ a.toNat b.toNat) = BitVec.ofNat 32 ((a.toNat + b.toNat + 1) / 2) := rfl

/-! ### Logic and shifts -/

theorem val_and (a b : Word) : BitVec.ofNat 32 (bitAnd a.toNat b.toNat) = a &&& b := by
  rw [bitAnd, ← BitVec.toNat_and, ofNat_toNat32]

theorem val_or (a b : Word) : BitVec.ofNat 32 (bitOr a.toNat b.toNat) = a ||| b := by
  rw [bitOr, ← BitVec.toNat_or, ofNat_toNat32]

theorem val_xor (a b : Word) : BitVec.ofNat 32 (bitXor a.toNat b.toNat) = a ^^^ b := by
  rw [bitXor, ← BitVec.toNat_xor, ofNat_toNat32]

theorem bitNot_toNat (a : Word) : bitNot a.toNat = (~~~a).toNat := by
  rw [bitNot, BitVec.toNat_not, Nat.mod_eq_of_lt a.isLt]

theorem val_not (a : Word) : BitVec.ofNat 32 (bitNot a.toNat) = ~~~a := by rw [bitNot_toNat, ofNat_toNat32]

theorem val_andn (a b : Word) : BitVec.ofNat 32 (bitAndn a.toNat b.toNat) = a &&& ~~~b := by
  rw [bitAndn, bitNot_toNat, ← BitVec.toNat_and, ofNat_toNat32]

theorem val_orn (a b : Word) : BitVec.ofNat 32 (bitOrn a.toNat b.toNat) = a ||| ~~~b := by
  rw [bitOrn, bitNot_toNat, ← BitVec.toNat_or, ofNat_toNat32]

theorem val_xnor (a b : Word) : BitVec.ofNat 32 (bitXnor a.toNat b.toNat) = ~~~(a ^^^ b) := by
  rw [bitXnor, ← BitVec.toNat_xor, val_not]

theorem val_shl (a b : Word) : BitVec.ofNat 32 (bitShl a.toNat b.toNat) = if b.toNat < 32 then a <<< b.toNat else 0#32 := by
  rw [bitShl]
  split
  · apply BitVec.eq_of_toNat_eq
    simp [Nat.shiftLeft_eq]
  · rfl

theorem val_shr (a b : Word) : BitVec.ofNat 32 (bitShr a.toNat b.toNat) = if b.toNat < 32 then a >>> b.toNat else 0#32 := by
  rw [bitShr]
  split
  · apply BitVec.eq_of_toNat_eq
    rw [BitVec.toNat_ushiftRight, Nat.shiftRight_eq_div_pow, BitVec.toNat_ofNat, Nat.mod_eq_of_lt]
    exact Nat.lt_of_le_of_lt (Nat.div_le_self _ _) a.isLt
  · rfl

theorem val_sar (a b : Word) : BitVec.ofNat 32 (bitSar a.toNat b.toNat) = BitVec.ofInt 32 (a.toInt / 2 ^ min b.toNat 31) := by
  rw [bitSar, low32_ofNat, signed32]

theorem rotl_toNat (a : Word) {n : Nat} (h : n < 32) :
    (a.rotateLeft n).toNat = a.toNat * 2 ^ n % 2 ^ 32 + a.toNat / 2 ^ (32 - n) := by
  rw [BitVec.rotateLeft_def, Nat.mod_eq_of_lt h, BitVec.toNat_or, BitVec.toNat_shiftLeft, BitVec.toNat_ushiftRight,
    Nat.shiftLeft_eq, Nat.shiftRight_eq_div_pow]
  have ha := a.isLt
  have e1 : a.toNat * 2 ^ n % 2 ^ 32 = 2 ^ n * (a.toNat % 2 ^ (32 - n)) := by
    rw [show (2 : Nat) ^ 32 = 2 ^ n * 2 ^ (32 - n) by rw [← Nat.pow_add]; congr 1; omega, Nat.mul_comm, Nat.mul_mod_mul_left]
  have e2 : a.toNat / 2 ^ (32 - n) < 2 ^ n := by
    rw [Nat.div_lt_iff_lt_mul (Nat.two_pow_pos _), ← Nat.pow_add]
    rw [show n + (32 - n) = 32 by omega]
    exact ha
  rw [e1, Nat.two_pow_add_eq_or_of_lt e2]

theorem val_rotl (a b : Word) : BitVec.ofNat 32 (bitRotl a.toNat b.toNat) = a.rotateLeft (b.toNat % 32) := by
  rw [bitRotl, ← rotl_toNat a (Nat.mod_lt _ (by decide)), ofNat_toNat32]

theorem val_rotr (a b : Word) : BitVec.ofNat 32 (bitRotr a.toNat b.toNat) = a.rotateRight (b.toNat % 32) := by
  have hm := Nat.mod_lt b.toNat (show 0 < 32 by decide)
  rw [bitRotr, bitRotl, ← rotl_toNat a (Nat.mod_lt _ (by decide)), ofNat_toNat32, BitVec.rotateLeft_def, BitVec.rotateRight_def]
  rcases Nat.eq_zero_or_pos (b.toNat % 32) with h | h
  · rw [h]
    apply BitVec.eq_of_getLsbD_eq
    intro i hi
    simp
  · rw [Nat.mod_eq_of_lt (by omega : 32 - b.toNat % 32 < 32), Nat.mod_eq_of_lt (by omega : 32 - b.toNat % 32 < 32),
      Nat.mod_eq_of_lt hm, show 32 - (32 - b.toNat % 32) = b.toNat % 32 by omega, BitVec.or_comm]

theorem bit_div (a : Word) (i : Nat) : (a.toNat / 2 ^ i % 2 == 1) = a.getLsbD i := by
  rw [BitVec.getLsbD, Nat.testBit_eq_decide_div_mod_eq]
  rfl

theorem val_popc (a : Word) : BitVec.ofNat 32 (bitPopc a.toNat) = BitVec.ofNat 32 (oneBits a) := by
  rw [bitPopc, oneBits]
  simp only [bit_div]

theorem foldl_add (g : Nat → Nat) (n : Nat) : (List.range n).foldl (fun s i => s + g i) 0 = ∑ i ∈ Finset.range n, g i := by
  induction n with
  | zero => rfl
  | succ n ih => rw [List.range_succ, List.foldl_append, ih, Finset.sum_range_succ]; rfl

theorem val_brev (a : Word) : BitVec.ofNat 32 (bitBrev a.toNat) = bitsReversed a := by
  unfold bitBrev bitsReversed maskOf
  congr 1
  have e : (fun (s i : Nat) => if a.getLsbD (31 - i) then s + 2 ^ i else s) =
      fun s i => s + (if a.getLsbD (31 - i) then 2 ^ i else 0) := by
    funext s i
    split <;> simp
  rw [e, foldl_add, foldl_add, ← Finset.sum_range_reflect]
  refine Finset.sum_congr rfl (fun i hi => ?_)
  have hi' : i < 32 := Finset.mem_range.1 hi
  have h2 : a.toNat / 2 ^ (31 - i) % 2 = if a.getLsbD (31 - i) then 1 else 0 := by
    rw [← bit_div]
    have := Nat.mod_two_eq_zero_or_one (a.toNat / 2 ^ (31 - i))
    rcases this with h | h <;> simp [h]
  rw [show 32 - 1 - i = 31 - i from rfl, h2, show 31 - (31 - i) = i by omega]
  split <;> simp

theorem takeWhile_range {p : Nat → Bool} {n k : Nat} (hk : k < n) (h1 : ∀ i, i < k → p i = true) (h2 : p k = false) :
    ((List.range n).takeWhile p).length = k := by
  obtain ⟨m, rfl⟩ : ∃ m, n = k + (m + 1) := ⟨n - k - 1, by omega⟩
  rw [List.range_add, List.takeWhile_append_of_pos (by intro i hi; exact h1 i (List.mem_range.1 hi)), List.length_append,
    List.length_range, List.range_succ_eq_map, List.map_cons, List.takeWhile_cons, Nat.add_zero, h2]
  simp

theorem val_clz (a : Word) : BitVec.ofNat 32 (bitClz a.toNat) = BitVec.ofNat 32 (leadingZeros a) := by
  congr 1
  unfold bitClz leadingZeros
  split
  · rename_i h
    have : a = 0#32 := BitVec.eq_of_toNat_eq (by simpa using h)
    subst this
    rfl
  · rename_i h
    have hl : Nat.log2 a.toNat < 32 := (Nat.log2_lt h).2 a.isLt
    rw [takeWhile_range (k := 31 - Nat.log2 a.toNat) (by omega)]
    · intro i hi
      rw [Bool.not_eq_true', BitVec.getLsbD]
      apply Nat.testBit_lt_two_pow
      exact (Nat.log2_lt h).1 (by omega)
    · rw [show 31 - (31 - Nat.log2 a.toNat) = Nat.log2 a.toNat by omega, BitVec.getLsbD]
      simpa using Nat.testBit_log2 h

/-! ### Fields (R110) -/

theorem val_bfeZ (a b : Word) : BitVec.ofNat 32 (bfeZ a.toNat b.toNat) =
    BitVec.ofNat 32 (a.toNat / 2 ^ (b.toNat % 2 ^ 8) % 2 ^ (min (b.toNat / 2 ^ 8 % 2 ^ 8) 32)) := rfl

theorem val_bfeS (a b : Word) : BitVec.ofNat 32 (bfeS a.toNat b.toNat) =
    BitVec.ofInt 32 (
      let len := min (b.toNat / 2 ^ 8 % 2 ^ 8) 32
      let f := a.toInt / 2 ^ (b.toNat % 2 ^ 8) % 2 ^ len
      if len > 0 ∧ f ≥ 2 ^ (len - 1) then f - 2 ^ len else f) := by
  unfold bfeS
  simp only
  rw [low32_ofNat, signed32]
  rfl

theorem add_eq_or {x y : Nat} (h : x &&& y = 0) : x + y = x ||| y := by
  have hx : x < 2 ^ (max x y) := Nat.lt_of_le_of_lt (Nat.le_max_left _ _) Nat.lt_two_pow_self
  have hy : y < 2 ^ (max x y) := Nat.lt_of_le_of_lt (Nat.le_max_right _ _) Nat.lt_two_pow_self
  have hb := BitVec.add_eq_or_of_and_eq_zero (BitVec.ofNat (max x y + 1) x) (BitVec.ofNat (max x y + 1) y) (by
    rw [← BitVec.ofNat_and, h])
  have := congrArg BitVec.toNat hb
  rw [BitVec.toNat_add, BitVec.toNat_or, BitVec.toNat_ofNat, BitVec.toNat_ofNat] at this
  have e : (2 : Nat) ^ (max x y + 1) = 2 * 2 ^ max x y := by rw [Nat.pow_succ, Nat.mul_comm]
  rw [Nat.mod_eq_of_lt (by omega : x < 2 ^ (max x y + 1)), Nat.mod_eq_of_lt (by omega : y < 2 ^ (max x y + 1)),
    Nat.mod_eq_of_lt (by omega)] at this
  exact this

/-- A number without the bits of a mask, and with bits of the mask put in. -/
theorem mask_merge (c m y : Nat) : c - (c &&& m) + (y &&& m) = c ^^^ ((c ^^^ y) &&& m) := by
  have h1 : c - (c &&& m) = c ^^^ (c &&& m) := by
    have hle : (c &&& m) ||| (c ^^^ (c &&& m)) = c := by
      apply Nat.eq_of_testBit_eq
      intro i
      simp only [Nat.testBit_or, Nat.testBit_and, Nat.testBit_xor]
      cases c.testBit i <;> cases m.testBit i <;> rfl
    have hd : (c &&& m) &&& (c ^^^ (c &&& m)) = 0 := by
      apply Nat.eq_of_testBit_eq
      intro i
      simp only [Nat.testBit_and, Nat.testBit_xor, Nat.zero_testBit]
      cases c.testBit i <;> cases m.testBit i <;> rfl
    have := add_eq_or hd
    omega
  have h2 : (c ^^^ (c &&& m)) &&& (y &&& m) = 0 := by
    apply Nat.eq_of_testBit_eq
    intro i
    simp only [Nat.testBit_and, Nat.testBit_xor, Nat.zero_testBit]
    cases c.testBit i <;> cases m.testBit i <;> cases y.testBit i <;> rfl
  rw [h1, add_eq_or h2]
  apply Nat.eq_of_testBit_eq
  intro i
  simp only [Nat.testBit_or, Nat.testBit_and, Nat.testBit_xor]
  cases c.testBit i <;> cases m.testBit i <;> cases y.testBit i <;> rfl

theorem val_bfi (a b c : Word) : BitVec.ofNat 32 (bfi a.toNat b.toNat c.toNat) =
    (let m := BitVec.ofNat 32 ((2 ^ min (b.toNat / 2 ^ 8 % 2 ^ 8) 32 - 1) * 2 ^ (b.toNat % 2 ^ 8))
     (c &&& ~~~m) ||| (BitVec.ofNat 32 (a.toNat * 2 ^ (b.toNat % 2 ^ 8)) &&& m)) := by
  unfold bfi
  simp only [fieldLen, fieldPos]
  generalize (2 ^ min (b.toNat / 2 ^ 8 % 2 ^ 8) 32 - 1) * 2 ^ (b.toNat % 2 ^ 8) = m
  generalize a.toNat * 2 ^ (b.toNat % 2 ^ 8) = y
  rw [mask_merge]
  apply BitVec.eq_of_getLsbD_eq
  intro i hi
  simp only [BitVec.getLsbD_ofNat, BitVec.getLsbD_or, BitVec.getLsbD_and, BitVec.getLsbD_not, Nat.testBit_xor, Nat.testBit_and,
    hi, decide_true, Bool.true_and]
  rw [show c.toNat.testBit i = c.getLsbD i from rfl]
  cases c.getLsbD i <;> cases m.testBit i <;> cases y.testBit i <;> rfl

/-! ### 64-bit pairs (R109) -/

theorem ofNat_toNat64 (a : DWord) : BitVec.ofNat 64 a.toNat = a := by
  apply BitVec.eq_of_toNat_eq
  simp

theorem pairAt_toNat (r : Nat → Word) (n : Nat) : (pairAt r n).toNat = (r n).toNat + 2 ^ 32 * (r (n + 1)).toNat := by
  rw [pairAt, BitVec.toNat_append, Nat.shiftLeft_eq, Nat.mul_comm, ← Nat.two_pow_add_eq_or_of_lt (r n).isLt, Nat.add_comm]

theorem val_add64 (a b : DWord) : BitVec.ofNat 64 (add64 a.toNat b.toNat) = a + b := by
  apply BitVec.eq_of_toNat_eq
  simp [add64]

theorem val_sub64 (a b : DWord) : BitVec.ofNat 64 (sub64 a.toNat b.toNat) = a - b := by
  apply BitVec.eq_of_toNat_eq
  rw [sub64, BitVec.toNat_ofNat, BitVec.toNat_sub]
  have := b.isLt
  congr 1
  omega

theorem val_mul64 (a b : DWord) : BitVec.ofNat 64 (mul64lo a.toNat b.toNat) = a * b := by
  apply BitVec.eq_of_toNat_eq
  simp [mul64lo]

theorem val_shl64 (a : DWord) (b : Word) : BitVec.ofNat 64 (shl64 a.toNat b.toNat) = if b.toNat < 64 then a <<< b.toNat else 0#64 := by
  rw [shl64]
  split
  · apply BitVec.eq_of_toNat_eq
    simp [Nat.shiftLeft_eq]
  · rfl

theorem val_shr64 (a : DWord) (b : Word) : BitVec.ofNat 64 (shr64 a.toNat b.toNat) = if b.toNat < 64 then a >>> b.toNat else 0#64 := by
  rw [shr64]
  split
  · apply BitVec.eq_of_toNat_eq
    rw [BitVec.toNat_ushiftRight, Nat.shiftRight_eq_div_pow, BitVec.toNat_ofNat, Nat.mod_eq_of_lt]
    exact Nat.lt_of_le_of_lt (Nat.div_le_self _ _) a.isLt
  · rfl

theorem val_sar64 (a : DWord) (b : Word) : BitVec.ofNat 64 (sar64 a.toNat b.toNat) = BitVec.ofInt 64 (a.toInt / 2 ^ min b.toNat 63) := by
  rw [sar64, ofNat_toNat64, signed64]

/-! ### `prmt` (R110) -/

theorem reverseByte_eq : ∀ y : BitVec 8, reverseByte y.toNat = y.reverse.toNat := by decide

theorem bitAt_eq {n : Nat} (c : BitVec n) (i : Nat) : bitAt c.toNat i = c.getLsbD i := by
  rw [bitAt, BitVec.getLsbD, Nat.testBit_eq_decide_div_mod_eq]
  rfl

theorem prmtByte_eq (a b c : Word) (below : Byte) (i : Nat) :
    prmtByte (b.toNat * 2 ^ 32 + a.toNat) c.toNat i below.toNat = (permutedByte a b c below i).toNat := by
  have hx : b.toNat * 2 ^ 32 + a.toNat = (b ++ a).toNat := by
    have := pairAt_toNat (fun n => if n = 0 then a else b) 0
    simp only [pairAt] at this
    simp only [Nat.zero_add, if_pos, if_neg (show ¬(1 = 0) by decide)] at this
    rw [this]
    omega
  have hy : (b.toNat * 2 ^ 32 + a.toNat) / 2 ^ (8 * (c.toNat / 2 ^ (3 * i) % 8)) % 256 =
      ((b ++ a).extractLsb' (8 * (c.toNat / 2 ^ (3 * i) % 8)) 8).toNat := by
    rw [BitVec.extractLsb'_toNat, Nat.shiftRight_eq_div_pow, hx]
  unfold prmtByte permutedByte
  simp only [hy, bitAt_eq]
  generalize (b ++ a).extractLsb' (8 * (c.toNat / 2 ^ (3 * i) % 8)) 8 = y
  rw [reverseByte_eq]
  have hb : 255 * (below.toNat / 2 ^ 7) = (if below.msb then 0xFF#8 else 0#8).toNat := by
    revert below
    decide
  rw [hb]
  by_cases h1 : (decide (i > 0) && c.getLsbD (20 + i)) = true
  · rw [if_pos h1, if_pos h1]
  · rw [if_neg h1, if_neg h1]
    by_cases h2 : c.getLsbD (12 + i) = true
    · rw [if_pos h2, if_pos h2]
      rfl
    · rw [if_neg h2, if_neg h2]
      split <;> rfl

theorem val_prmt (a b c : Word) : BitVec.ofNat 32 (prmt a.toNat b.toNat c.toNat) = permuted a b c := by
  have h0 := prmtByte_eq a b c 0#8 0
  unfold prmt permuted
  simp only
  rw [show (0#8).toNat = 0 from rfl] at h0
  rw [h0, prmtByte_eq, prmtByte_eq, prmtByte_eq]
  generalize permutedByte a b c _ 0 = d0
  generalize permutedByte a b c _ 1 = d1
  generalize permutedByte a b c _ 2 = d2
  generalize permutedByte a b c _ 3 = d3
  apply BitVec.eq_of_toNat_eq
  rw [BitVec.toNat_ofNat, BitVec.toNat_append, BitVec.toNat_append, BitVec.toNat_append]
  have b0 := d0.isLt
  have b1 := d1.isLt
  have b2 := d2.isLt
  have b3 := d3.isLt
  rw [Nat.shiftLeft_eq, Nat.shiftLeft_eq, Nat.shiftLeft_eq, Nat.mul_comm _ (2 ^ 8), Nat.mul_comm _ (2 ^ 8), Nat.mul_comm _ (2 ^ 8),
    ← Nat.two_pow_add_eq_or_of_lt b2, ← Nat.two_pow_add_eq_or_of_lt b1, ← Nat.two_pow_add_eq_or_of_lt b0]
  omega

end Sys2Proof.Machine
end

