-- ==== Sys2Proof/Laws/Effects.lean ====
section
/-! SUPPORT. From what an ALU word reads and computes to the effect of its twins. -/

namespace Sys2Proof.Machine

open Host (Outcome)

theorem uniformEffect_of {i : Info} {k : Instr} {op : Hints → Alu} {srcs : Hints → List Nat} {d : Nat}
    {f : Hints → (Nat → Word) → Word × Flags} (he : ∀ s, exec k s = uniformAlu s i op) (hs : ∀ h, (op h).srcs = srcs h)
    (hd : ∀ h, (op h).dsts = [d])
    (hf : ∀ h r, ∃ u, (op h).fn (fun n => (r n).toNat) = ([u], (f h r).2) ∧ BitVec.ofNat 32 u = (f h r).1) :
    UniformEffect i k srcs d f := by
  intro s x hb h1 h2
  obtain ⟨u, hu, hv⟩ := hf x.hints (x.w.reg x.lead)
  have := uniformAlu_one hb (he s) (hs _) (hd _) hu h1 h2 (h2.2 d (by simp)).1
  rw [hv] at this
  exact this

theorem laneEffect_of {i : Info} {k : Instr} {op : Hints → Alu} {keep : Hints → Warp → Option RegForm} {srcs : Hints → List Nat}
    {d : Nat} {f : Hints → (Nat → Word) → Word × Flags} (he : ∀ s, exec k s = laneAlu s i op keep) (hs : ∀ h, (op h).srcs = srcs h)
    (hd : ∀ h, (op h).dsts = [d])
    (hf : ∀ h r, ∃ u, (op h).fn (fun n => (r n).toNat) = ([u], (f h r).2) ∧ BitVec.ofNat 32 u = (f h r).1)
    (hk : ∀ h w g, keep h w = some g → ∀ l, l < 32 → g.get l = (f h (w.reg l)).1) :
    LaneEffect i k srcs d f := by
  intro s x hb h1
  choose u hu hv using hf x.hints
  have := laneAlu_one (v := fun l => u (x.w.reg l)) (fl := fun l => (f x.hints (x.w.reg l)).2) hb (he s) (hs _) (hd _)
    (fun l => hu (x.w.reg l)) (fun g hg l hl => by rw [hk _ _ g hg l hl, hv]) h1 (ready_last h1)
  simp only [hv] at this
  exact this

theorem perLaneEffect_of {i : Info} {k : Instr} {op : Hints → Alu} {srcs : Hints → List Nat}
    {d : Nat} {f : Hints → (Nat → Word) → Word × Flags} (he : ∀ s, exec k s = perLaneAlu s i op) (hs : ∀ h, (op h).srcs = srcs h)
    (hd : ∀ h, (op h).dsts = [d])
    (hf : ∀ h r, ∃ u, (op h).fn (fun n => (r n).toNat) = ([u], (f h r).2) ∧ BitVec.ofNat 32 u = (f h r).1) :
    LaneEffect i k srcs d f :=
  laneEffect_of he hs hd hf (fun _ _ _ h => by cases h)

theorem uniformPairEffect_of {i : Info} {k : Instr} {op : Hints → Alu} {srcs : Hints → List Nat} {d : Nat}
    {f : Hints → (Nat → Word) → DWord × Flags} (he : ∀ s, exec k s = uniformAlu s i op) (hs : ∀ h, (op h).srcs = srcs h)
    (hd : ∀ h, (op h).dsts = [d, d + 1])
    (hf : ∀ h r, ∃ u, (op h).fn (fun n => (r n).toNat) = (twoWords u, (f h r).2) ∧ BitVec.ofNat 64 u = (f h r).1) :
    UniformPairEffect i k srcs d f := by
  intro s x hb h1 h2
  obtain ⟨u, hu, hv⟩ := hf x.hints (x.w.reg x.lead)
  have := uniformAlu_pair hb (he s) (hs _) (hd _) hu h1 h2 (h2.2 (d + 1) (by simp)).1
  rw [hv] at this
  exact this

theorem lanePairEffect_of {i : Info} {k : Instr} {op : Hints → Alu} {srcs : Hints → List Nat} {d : Nat}
    {f : Hints → (Nat → Word) → DWord × Flags} (he : ∀ s, exec k s = perLaneAlu s i op) (hs : ∀ h, (op h).srcs = srcs h)
    (hd : ∀ h, (op h).dsts = [d, d + 1])
    (hf : ∀ h r, ∃ u, (op h).fn (fun n => (r n).toNat) = (twoWords u, (f h r).2) ∧ BitVec.ofNat 64 u = (f h r).1) :
    LanePairEffect i k srcs d f := by
  intro s x hb h1
  choose u hu hv using hf x.hints
  have := perLaneAlu_pair (v := fun l => u (x.w.reg l)) (fl := fun l => (f x.hints (x.w.reg l)).2) hb (he s) (hs _) (hd _)
    (fun l => hu (x.w.reg l)) h1 (h1.2 (d + 1) (by simp)).1
  simp only [hv] at this
  exact this

/-! ### Immediates -/

theorem signed7 (i : Nat) : signed 7 i = (BitVec.ofNat 7 i).toInt := by
  unfold signed
  rw [BitVec.toInt_eq_toNat_cond, BitVec.toNat_ofNat]
  split <;> split <;> omega

/-- The immediate of R60 and R102 as the operand forms compute it. -/
theorem imm7_eq (h : Hints) {i : Nat} (hi : i < 2 ^ 7) : imm7 h i = (immediate h i).toNat := by
  unfold imm7 immediate
  generalize h.imm = m
  cases m with
  | none =>
    simp only
    rw [signed7, BitVec.signExtend]
  | some x =>
    simp only
    rw [BitVec.toNat_append, Nat.shiftLeft_eq, BitVec.toNat_ofNat, BitVec.toNat_ofNat, Nat.mod_eq_of_lt hi, Nat.mul_comm (x % 2 ^ 25) (2 ^ 7),
      ← Nat.two_pow_add_eq_or_of_lt hi]
    omega

theorem reg_val (w : Warp) (l n : Nat) : w.val l n = (w.reg l n).toNat := rfl

theorem form_get (w : Warp) (l n : Nat) : (w.form n).get l = w.reg l n := rfl

/-! ### The operand forms -/

/-- A function of two registers, `s.` twin. -/
theorem uniform_two {c i3 r : Bool} {k : Instr} {d a b : Nat} {g : Nat → Nat → Nat} {f : Word → Word → Word}
  (he : ∀ s, exec k s = uniformAlu s (Info.of 0 c i3 r) (alu2 d a b g))
  (hv : ∀ x y : Word, BitVec.ofNat 32 (g x.toNat y.toNat) = f x y) :
  UniformEffect (Info.of 0 c i3 r) k (fun _ => [a, b]) d (fun _ r => (f (r a) (r b), 0#5)) :=
  uniformEffect_of he (fun _ => rfl) (fun _ => rfl) (fun _ _ => ⟨_, rfl, hv _ _⟩)

/-- A function of a register and the immediate, `s.` twin. -/
theorem uniform_imm {c i3 r : Bool} {k : Instr} {d a b : Nat} {g : Nat → Nat → Nat} {f : Word → Word → Word} (hb : b < 2 ^ 7)
  (he : ∀ s, exec k s = uniformAlu s (Info.of 0 c i3 r) (alu2i d a b g))
  (hv : ∀ x y : Word, BitVec.ofNat 32 (g x.toNat y.toNat) = f x y) :
  UniformEffect (Info.of 0 c i3 r) k (fun _ => [a]) d (fun h r => (f (r a) (immediate h b), 0#5)) :=
  uniformEffect_of he (fun _ => rfl) (fun _ => rfl) (fun h _ => ⟨_, rfl, by rw [imm7_eq h hb, hv]⟩)

/-- A function of two registers, `v.` twin. -/
theorem lane_two {c i3 r : Bool} {k : Instr} {d a b : Nat} {g : Nat → Nat → Nat} {f : Word → Word → Word}
  {keep : Hints → Warp → Option RegForm}
  (he : ∀ s, exec k s = laneAlu s (Info.of 1 c i3 r) (alu2 d a b g) keep)
  (hk : ∀ h w q, keep h w = some q → ∀ l, l < 32 → q.get l = f (w.reg l a) (w.reg l b))
  (hv : ∀ x y : Word, BitVec.ofNat 32 (g x.toNat y.toNat) = f x y) :
  LaneEffect (Info.of 1 c i3 r) k (fun _ => [a, b]) d (fun _ r => (f (r a) (r b), 0#5)) :=
  laneEffect_of he (fun _ => rfl) (fun _ => rfl) (fun _ _ => ⟨_, rfl, hv _ _⟩) hk

/-- A function of a register and the immediate, `v.` twin. -/
theorem lane_imm {c i3 r : Bool} {k : Instr} {d a b : Nat} {g : Nat → Nat → Nat} {f : Word → Word → Word} (hb : b < 2 ^ 7)
  {keep : Hints → Warp → Option RegForm}
  (he : ∀ s, exec k s = laneAlu s (Info.of 1 c i3 r) (alu2i d a b g) keep)
  (hk : ∀ h w q, keep h w = some q → ∀ l, l < 32 → q.get l = f (w.reg l a) (immediate h b))
  (hv : ∀ x y : Word, BitVec.ofNat 32 (g x.toNat y.toNat) = f x y) :
  LaneEffect (Info.of 1 c i3 r) k (fun _ => [a]) d (fun h r => (f (r a) (immediate h b), 0#5)) :=
  laneEffect_of he (fun _ => rfl) (fun _ => rfl) (fun h _ => ⟨_, rfl, by rw [imm7_eq h hb, hv]⟩) hk

/-- No form is kept. -/
theorem no_keep {P : Hints → Warp → RegForm → Prop} : ∀ h w q, (fun (_ : Hints) (_ : Warp) => (none : Option RegForm)) h w = some q → P h w q :=
  fun _ _ _ h => by cases h

/-- A form rule over two registers holds the function's value. -/
theorem keepRR_value {k : RegForm → RegForm → Option RegForm} {f : Word → Word → Word} {a b : Nat}
    (hk : ∀ x y q, k x y = some q → ∀ l, q.get l = f (x.get l) (y.get l)) :
    ∀ h w q, keepRR k a b h w = some q → ∀ l, l < 32 → q.get l = f (w.reg l a) (w.reg l b) :=
  fun _ _ _ hq l _ => hk _ _ _ hq l

/-- A form rule over a register and the immediate. -/
theorem keepRI_value {k : RegForm → RegForm → Option RegForm} {f : Word → Word → Word} {a b : Nat} (hb : b < 2 ^ 7)
    (hk : ∀ x y q, k x y = some q → ∀ l, q.get l = f (x.get l) (y.get l)) :
    ∀ h w q, keepRI k a b h w = some q → ∀ l, l < 32 → q.get l = f (w.reg l a) (immediate h b) :=
  fun h _ _ hq l _ => by
    rw [hk _ _ _ hq l, RegForm.get.eq_def (RegForm.uniform _)]
    simp only [imm7_eq h hb, ofNat_toNat32, form_get]

/-- A function of one register, `s.` twin. -/
theorem uniform_one {k : Instr} {d a : Nat} {g : Nat → Nat} {f : Word → Word}
    (he : ∀ s, exec k s = uniformAlu s (Info.of 0 false false false) (alu1 d a g))
    (hv : ∀ x : Word, BitVec.ofNat 32 (g x.toNat) = f x) :
    UniformEffect (Info.of 0 false false false) k (fun _ => [a]) d (fun _ r => (f (r a), 0#5)) :=
  uniformEffect_of he (fun _ => rfl) (fun _ => rfl) (fun _ _ => ⟨_, rfl, hv _⟩)

/-- A function of one register, `v.` twin. -/
theorem lane_one {k : Instr} {d a : Nat} {g : Nat → Nat} {f : Word → Word} {keep : Hints → Warp → Option RegForm}
    (he : ∀ s, exec k s = laneAlu s (Info.of 1 false false false) (alu1 d a g) keep)
    (hk : ∀ h w q, keep h w = some q → ∀ l, l < 32 → q.get l = f (w.reg l a))
    (hv : ∀ x : Word, BitVec.ofNat 32 (g x.toNat) = f x) :
    LaneEffect (Info.of 1 false false false) k (fun _ => [a]) d (fun _ r => (f (r a), 0#5)) :=
  laneEffect_of he (fun _ => rfl) (fun _ => rfl) (fun _ _ => ⟨_, rfl, hv _⟩) hk

/-- A function of two registers, `v.` twin of a function that keeps no form. -/
theorem perLane_two {c i3 r : Bool} {k : Instr} {d a b : Nat} {g : Nat → Nat → Nat} {f : Word → Word → Word}
    (he : ∀ s, exec k s = perLaneAlu s (Info.of 1 c i3 r) (alu2 d a b g))
    (hv : ∀ x y : Word, BitVec.ofNat 32 (g x.toNat y.toNat) = f x y) :
    LaneEffect (Info.of 1 c i3 r) k (fun _ => [a, b]) d (fun _ r => (f (r a) (r b), 0#5)) :=
  perLaneEffect_of he (fun _ => rfl) (fun _ => rfl) (fun _ _ => ⟨_, rfl, hv _ _⟩)

/-- A function of a register and the immediate, `v.` twin of a function that keeps no form. -/
theorem perLane_imm {c i3 r : Bool} {k : Instr} {d a b : Nat} {g : Nat → Nat → Nat} {f : Word → Word → Word} (hb : b < 2 ^ 7)
    (he : ∀ s, exec k s = perLaneAlu s (Info.of 1 c i3 r) (alu2i d a b g))
    (hv : ∀ x y : Word, BitVec.ofNat 32 (g x.toNat y.toNat) = f x y) :
    LaneEffect (Info.of 1 c i3 r) k (fun _ => [a]) d (fun h r => (f (r a) (immediate h b), 0#5)) :=
  perLaneEffect_of he (fun _ => rfl) (fun _ => rfl) (fun h _ => ⟨_, rfl, by rw [imm7_eq h hb, hv]⟩)

/-- A function of one register, `v.` twin of a function that keeps no form. -/
theorem perLane_one {k : Instr} {d a : Nat} {g : Nat → Nat} {f : Word → Word}
    (he : ∀ s, exec k s = perLaneAlu s (Info.of 1 false false false) (alu1 d a g))
    (hv : ∀ x : Word, BitVec.ofNat 32 (g x.toNat) = f x) :
    LaneEffect (Info.of 1 false false false) k (fun _ => [a]) d (fun _ r => (f (r a), 0#5)) :=
  perLaneEffect_of he (fun _ => rfl) (fun _ => rfl) (fun _ _ => ⟨_, rfl, hv _⟩)

end Sys2Proof.Machine
end

