-- ==== Sys2Proof/Laws/Exec.lean ====
section
/-! SUPPORT. Each arm of `exec`, so that no proof unfolds the whole match. -/

namespace Sys2Proof.Machine

theorem exec_sAdd {d a b} (s) : exec (.sAdd d a b) s = execSAdd d a b s := rfl
theorem exec_sAddImm {d a imm} (s) : exec (.sAddImm d a imm) s = execSAddImm d a imm s := rfl
theorem exec_vAdd {d a b} (s) : exec (.vAdd d a b) s = execVAdd d a b s := rfl
theorem exec_vAddImm {d a imm} (s) : exec (.vAddImm d a imm) s = execVAddImm d a imm s := rfl
theorem exec_sSub {d a b} (s) : exec (.sSub d a b) s = execSSub d a b s := rfl
theorem exec_sSubImm {d a imm} (s) : exec (.sSubImm d a imm) s = execSSubImm d a imm s := rfl
theorem exec_vSub {d a b} (s) : exec (.vSub d a b) s = execVSub d a b s := rfl
theorem exec_vSubImm {d a imm} (s) : exec (.vSubImm d a imm) s = execVSubImm d a imm s := rfl
theorem exec_sMullo {d a b} (s) : exec (.sMullo d a b) s = execSMullo d a b s := rfl
theorem exec_sMulloImm {d a imm} (s) : exec (.sMulloImm d a imm) s = execSMulloImm d a imm s := rfl
theorem exec_vMullo {d a b} (s) : exec (.vMullo d a b) s = execVMullo d a b s := rfl
theorem exec_vMulloImm {d a imm} (s) : exec (.vMulloImm d a imm) s = execVMulloImm d a imm s := rfl
theorem exec_sMulhiS {d a b} (s) : exec (.sMulhiS d a b) s = execSMulhiS d a b s := rfl
theorem exec_sMulhiSImm {d a imm} (s) : exec (.sMulhiSImm d a imm) s = execSMulhiSImm d a imm s := rfl
theorem exec_vMulhiS {d a b} (s) : exec (.vMulhiS d a b) s = execVMulhiS d a b s := rfl
theorem exec_vMulhiSImm {d a imm} (s) : exec (.vMulhiSImm d a imm) s = execVMulhiSImm d a imm s := rfl
theorem exec_sMulhiZ {d a b} (s) : exec (.sMulhiZ d a b) s = execSMulhiZ d a b s := rfl
theorem exec_sMulhiZImm {d a imm} (s) : exec (.sMulhiZImm d a imm) s = execSMulhiZImm d a imm s := rfl
theorem exec_vMulhiZ {d a b} (s) : exec (.vMulhiZ d a b) s = execVMulhiZ d a b s := rfl
theorem exec_vMulhiZImm {d a imm} (s) : exec (.vMulhiZImm d a imm) s = execVMulhiZImm d a imm s := rfl
theorem exec_sMad {d a b} (s) : exec (.sMad d a b) s = execSMad d a b s := rfl
theorem exec_sMadImm {d a imm} (s) : exec (.sMadImm d a imm) s = execSMadImm d a imm s := rfl
theorem exec_vMad {d a b} (s) : exec (.vMad d a b) s = execVMad d a b s := rfl
theorem exec_vMadImm {d a imm} (s) : exec (.vMadImm d a imm) s = execVMadImm d a imm s := rfl
theorem exec_sMinS {d a b} (s) : exec (.sMinS d a b) s = execSMinS d a b s := rfl
theorem exec_sMinSImm {d a imm} (s) : exec (.sMinSImm d a imm) s = execSMinSImm d a imm s := rfl
theorem exec_vMinS {d a b} (s) : exec (.vMinS d a b) s = execVMinS d a b s := rfl
theorem exec_vMinSImm {d a imm} (s) : exec (.vMinSImm d a imm) s = execVMinSImm d a imm s := rfl
theorem exec_sMaxS {d a b} (s) : exec (.sMaxS d a b) s = execSMaxS d a b s := rfl
theorem exec_sMaxSImm {d a imm} (s) : exec (.sMaxSImm d a imm) s = execSMaxSImm d a imm s := rfl
theorem exec_vMaxS {d a b} (s) : exec (.vMaxS d a b) s = execVMaxS d a b s := rfl
theorem exec_vMaxSImm {d a imm} (s) : exec (.vMaxSImm d a imm) s = execVMaxSImm d a imm s := rfl
theorem exec_sMinZ {d a b} (s) : exec (.sMinZ d a b) s = execSMinZ d a b s := rfl
theorem exec_sMinZImm {d a imm} (s) : exec (.sMinZImm d a imm) s = execSMinZImm d a imm s := rfl
theorem exec_vMinZ {d a b} (s) : exec (.vMinZ d a b) s = execVMinZ d a b s := rfl
theorem exec_vMinZImm {d a imm} (s) : exec (.vMinZImm d a imm) s = execVMinZImm d a imm s := rfl
theorem exec_sMaxZ {d a b} (s) : exec (.sMaxZ d a b) s = execSMaxZ d a b s := rfl
theorem exec_sMaxZImm {d a imm} (s) : exec (.sMaxZImm d a imm) s = execSMaxZImm d a imm s := rfl
theorem exec_vMaxZ {d a b} (s) : exec (.vMaxZ d a b) s = execVMaxZ d a b s := rfl
theorem exec_vMaxZImm {d a imm} (s) : exec (.vMaxZImm d a imm) s = execVMaxZImm d a imm s := rfl
theorem exec_sAbsdiff {d a b} (s) : exec (.sAbsdiff d a b) s = execSAbsdiff d a b s := rfl
theorem exec_sAbsdiffImm {d a imm} (s) : exec (.sAbsdiffImm d a imm) s = execSAbsdiffImm d a imm s := rfl
theorem exec_vAbsdiff {d a b} (s) : exec (.vAbsdiff d a b) s = execVAbsdiff d a b s := rfl
theorem exec_vAbsdiffImm {d a imm} (s) : exec (.vAbsdiffImm d a imm) s = execVAbsdiffImm d a imm s := rfl
theorem exec_sAddsatS {d a b} (s) : exec (.sAddsatS d a b) s = execSAddsatS d a b s := rfl
theorem exec_sAddsatSImm {d a imm} (s) : exec (.sAddsatSImm d a imm) s = execSAddsatSImm d a imm s := rfl
theorem exec_vAddsatS {d a b} (s) : exec (.vAddsatS d a b) s = execVAddsatS d a b s := rfl
theorem exec_vAddsatSImm {d a imm} (s) : exec (.vAddsatSImm d a imm) s = execVAddsatSImm d a imm s := rfl
theorem exec_sSubsatS {d a b} (s) : exec (.sSubsatS d a b) s = execSSubsatS d a b s := rfl
theorem exec_sSubsatSImm {d a imm} (s) : exec (.sSubsatSImm d a imm) s = execSSubsatSImm d a imm s := rfl
theorem exec_vSubsatS {d a b} (s) : exec (.vSubsatS d a b) s = execVSubsatS d a b s := rfl
theorem exec_vSubsatSImm {d a imm} (s) : exec (.vSubsatSImm d a imm) s = execVSubsatSImm d a imm s := rfl
theorem exec_sAvgZ {d a b} (s) : exec (.sAvgZ d a b) s = execSAvgZ d a b s := rfl
theorem exec_sAvgZImm {d a imm} (s) : exec (.sAvgZImm d a imm) s = execSAvgZImm d a imm s := rfl
theorem exec_vAvgZ {d a b} (s) : exec (.vAvgZ d a b) s = execVAvgZ d a b s := rfl
theorem exec_vAvgZImm {d a imm} (s) : exec (.vAvgZImm d a imm) s = execVAvgZImm d a imm s := rfl
theorem exec_sAnd {d a b} (s) : exec (.sAnd d a b) s = execSAnd d a b s := rfl
theorem exec_sAndImm {d a imm} (s) : exec (.sAndImm d a imm) s = execSAndImm d a imm s := rfl
theorem exec_vAnd {d a b} (s) : exec (.vAnd d a b) s = execVAnd d a b s := rfl
theorem exec_vAndImm {d a imm} (s) : exec (.vAndImm d a imm) s = execVAndImm d a imm s := rfl
theorem exec_sOr {d a b} (s) : exec (.sOr d a b) s = execSOr d a b s := rfl
theorem exec_sOrImm {d a imm} (s) : exec (.sOrImm d a imm) s = execSOrImm d a imm s := rfl
theorem exec_vOr {d a b} (s) : exec (.vOr d a b) s = execVOr d a b s := rfl
theorem exec_vOrImm {d a imm} (s) : exec (.vOrImm d a imm) s = execVOrImm d a imm s := rfl
theorem exec_sXor {d a b} (s) : exec (.sXor d a b) s = execSXor d a b s := rfl
theorem exec_sXorImm {d a imm} (s) : exec (.sXorImm d a imm) s = execSXorImm d a imm s := rfl
theorem exec_vXor {d a b} (s) : exec (.vXor d a b) s = execVXor d a b s := rfl
theorem exec_vXorImm {d a imm} (s) : exec (.vXorImm d a imm) s = execVXorImm d a imm s := rfl
theorem exec_sAndn {d a b} (s) : exec (.sAndn d a b) s = execSAndn d a b s := rfl
theorem exec_sAndnImm {d a imm} (s) : exec (.sAndnImm d a imm) s = execSAndnImm d a imm s := rfl
theorem exec_vAndn {d a b} (s) : exec (.vAndn d a b) s = execVAndn d a b s := rfl
theorem exec_vAndnImm {d a imm} (s) : exec (.vAndnImm d a imm) s = execVAndnImm d a imm s := rfl
theorem exec_sOrn {d a b} (s) : exec (.sOrn d a b) s = execSOrn d a b s := rfl
theorem exec_sOrnImm {d a imm} (s) : exec (.sOrnImm d a imm) s = execSOrnImm d a imm s := rfl
theorem exec_vOrn {d a b} (s) : exec (.vOrn d a b) s = execVOrn d a b s := rfl
theorem exec_vOrnImm {d a imm} (s) : exec (.vOrnImm d a imm) s = execVOrnImm d a imm s := rfl
theorem exec_sXnor {d a b} (s) : exec (.sXnor d a b) s = execSXnor d a b s := rfl
theorem exec_sXnorImm {d a imm} (s) : exec (.sXnorImm d a imm) s = execSXnorImm d a imm s := rfl
theorem exec_vXnor {d a b} (s) : exec (.vXnor d a b) s = execVXnor d a b s := rfl
theorem exec_vXnorImm {d a imm} (s) : exec (.vXnorImm d a imm) s = execVXnorImm d a imm s := rfl
theorem exec_sShl {d a b} (s) : exec (.sShl d a b) s = execSShl d a b s := rfl
theorem exec_sShlImm {d a imm} (s) : exec (.sShlImm d a imm) s = execSShlImm d a imm s := rfl
theorem exec_vShl {d a b} (s) : exec (.vShl d a b) s = execVShl d a b s := rfl
theorem exec_vShlImm {d a imm} (s) : exec (.vShlImm d a imm) s = execVShlImm d a imm s := rfl
theorem exec_sShr {d a b} (s) : exec (.sShr d a b) s = execSShr d a b s := rfl
theorem exec_sShrImm {d a imm} (s) : exec (.sShrImm d a imm) s = execSShrImm d a imm s := rfl
theorem exec_vShr {d a b} (s) : exec (.vShr d a b) s = execVShr d a b s := rfl
theorem exec_vShrImm {d a imm} (s) : exec (.vShrImm d a imm) s = execVShrImm d a imm s := rfl
theorem exec_sSar {d a b} (s) : exec (.sSar d a b) s = execSSar d a b s := rfl
theorem exec_sSarImm {d a imm} (s) : exec (.sSarImm d a imm) s = execSSarImm d a imm s := rfl
theorem exec_vSar {d a b} (s) : exec (.vSar d a b) s = execVSar d a b s := rfl
theorem exec_vSarImm {d a imm} (s) : exec (.vSarImm d a imm) s = execVSarImm d a imm s := rfl
theorem exec_sRotl {d a b} (s) : exec (.sRotl d a b) s = execSRotl d a b s := rfl
theorem exec_sRotlImm {d a imm} (s) : exec (.sRotlImm d a imm) s = execSRotlImm d a imm s := rfl
theorem exec_vRotl {d a b} (s) : exec (.vRotl d a b) s = execVRotl d a b s := rfl
theorem exec_vRotlImm {d a imm} (s) : exec (.vRotlImm d a imm) s = execVRotlImm d a imm s := rfl
theorem exec_sRotr {d a b} (s) : exec (.sRotr d a b) s = execSRotr d a b s := rfl
theorem exec_sRotrImm {d a imm} (s) : exec (.sRotrImm d a imm) s = execSRotrImm d a imm s := rfl
theorem exec_vRotr {d a b} (s) : exec (.vRotr d a b) s = execVRotr d a b s := rfl
theorem exec_vRotrImm {d a imm} (s) : exec (.vRotrImm d a imm) s = execVRotrImm d a imm s := rfl
theorem exec_sClz {d a} (s) : exec (.sClz d a) s = execSClz d a s := rfl
theorem exec_vClz {d a} (s) : exec (.vClz d a) s = execVClz d a s := rfl
theorem exec_sPopc {d a} (s) : exec (.sPopc d a) s = execSPopc d a s := rfl
theorem exec_vPopc {d a} (s) : exec (.vPopc d a) s = execVPopc d a s := rfl
theorem exec_sBrev {d a} (s) : exec (.sBrev d a) s = execSBrev d a s := rfl
theorem exec_vBrev {d a} (s) : exec (.vBrev d a) s = execVBrev d a s := rfl
theorem exec_sMov {d a} (s) : exec (.sMov d a) s = execSMov d a s := rfl
theorem exec_sMovImm {d imm} (s) : exec (.sMovImm d imm) s = execSMovImm d imm s := rfl
theorem exec_vMov {d a} (s) : exec (.vMov d a) s = execVMov d a s := rfl
theorem exec_vMovImm {d imm} (s) : exec (.vMovImm d imm) s = execVMovImm d imm s := rfl
theorem exec_sNot {d a} (s) : exec (.sNot d a) s = execSNot d a s := rfl
theorem exec_vNot {d a} (s) : exec (.vNot d a) s = execVNot d a s := rfl
theorem exec_sBfeS {d a b} (s) : exec (.sBfeS d a b) s = execSBfeS d a b s := rfl
theorem exec_vBfeS {d a b} (s) : exec (.vBfeS d a b) s = execVBfeS d a b s := rfl
theorem exec_sBfeZ {d a b} (s) : exec (.sBfeZ d a b) s = execSBfeZ d a b s := rfl
theorem exec_vBfeZ {d a b} (s) : exec (.vBfeZ d a b) s = execVBfeZ d a b s := rfl
theorem exec_sBfi {d a b} (s) : exec (.sBfi d a b) s = execSBfi d a b s := rfl
theorem exec_vBfi {d a b} (s) : exec (.vBfi d a b) s = execVBfi d a b s := rfl
theorem exec_sPrmt {d a b} (s) : exec (.sPrmt d a b) s = execSPrmt d a b s := rfl
theorem exec_vPrmt {d a b} (s) : exec (.vPrmt d a b) s = execVPrmt d a b s := rfl
theorem exec_sAdd64 {d a b} (s) : exec (.sAdd64 d a b) s = execSAdd64 d a b s := rfl
theorem exec_vAdd64 {d a b} (s) : exec (.vAdd64 d a b) s = execVAdd64 d a b s := rfl
theorem exec_sSub64 {d a b} (s) : exec (.sSub64 d a b) s = execSSub64 d a b s := rfl
theorem exec_vSub64 {d a b} (s) : exec (.vSub64 d a b) s = execVSub64 d a b s := rfl
theorem exec_sShl64 {d a b} (s) : exec (.sShl64 d a b) s = execSShl64 d a b s := rfl
theorem exec_vShl64 {d a b} (s) : exec (.vShl64 d a b) s = execVShl64 d a b s := rfl
theorem exec_sShr64 {d a b} (s) : exec (.sShr64 d a b) s = execSShr64 d a b s := rfl
theorem exec_vShr64 {d a b} (s) : exec (.vShr64 d a b) s = execVShr64 d a b s := rfl
theorem exec_sSar64 {d a b} (s) : exec (.sSar64 d a b) s = execSSar64 d a b s := rfl
theorem exec_vSar64 {d a b} (s) : exec (.vSar64 d a b) s = execVSar64 d a b s := rfl
theorem exec_sMul64lo {d a b} (s) : exec (.sMul64lo d a b) s = execSMul64lo d a b s := rfl
theorem exec_vMul64lo {d a b} (s) : exec (.vMul64lo d a b) s = execVMul64lo d a b s := rfl
theorem exec_sMovi {d imm} (s) : exec (.sMovi d imm) s = execSMovi d imm s := rfl
theorem exec_vMovi {d imm} (s) : exec (.vMovi d imm) s = execVMovi d imm s := rfl
theorem exec_sFadd {d a b} (s) : exec (.sFadd d a b) s = execSFadd d a b s := rfl
theorem exec_vFadd {d a b} (s) : exec (.vFadd d a b) s = execVFadd d a b s := rfl
theorem exec_sFsub {d a b} (s) : exec (.sFsub d a b) s = execSFsub d a b s := rfl
theorem exec_vFsub {d a b} (s) : exec (.vFsub d a b) s = execVFsub d a b s := rfl
theorem exec_sFmul {d a b} (s) : exec (.sFmul d a b) s = execSFmul d a b s := rfl
theorem exec_vFmul {d a b} (s) : exec (.vFmul d a b) s = execVFmul d a b s := rfl
theorem exec_sFfma {d a b} (s) : exec (.sFfma d a b) s = execSFfma d a b s := rfl
theorem exec_vFfma {d a b} (s) : exec (.vFfma d a b) s = execVFfma d a b s := rfl
theorem exec_sFmin {d a b} (s) : exec (.sFmin d a b) s = execSFmin d a b s := rfl
theorem exec_vFmin {d a b} (s) : exec (.vFmin d a b) s = execVFmin d a b s := rfl
theorem exec_sFmax {d a b} (s) : exec (.sFmax d a b) s = execSFmax d a b s := rfl
theorem exec_vFmax {d a b} (s) : exec (.vFmax d a b) s = execVFmax d a b s := rfl
theorem exec_sFabs {d a} (s) : exec (.sFabs d a) s = execSFabs d a s := rfl
theorem exec_vFabs {d a} (s) : exec (.vFabs d a) s = execVFabs d a s := rfl
theorem exec_sFneg {d a} (s) : exec (.sFneg d a) s = execSFneg d a s := rfl
theorem exec_vFneg {d a} (s) : exec (.vFneg d a) s = execVFneg d a s := rfl
theorem exec_sFcopysign {d a b} (s) : exec (.sFcopysign d a b) s = execSFcopysign d a b s := rfl
theorem exec_vFcopysign {d a b} (s) : exec (.vFcopysign d a b) s = execVFcopysign d a b s := rfl
theorem exec_sFclass {d a} (s) : exec (.sFclass d a) s = execSFclass d a s := rfl
theorem exec_vFclass {d a} (s) : exec (.vFclass d a) s = execVFclass d a s := rfl
theorem exec_sFrcp {d a} (s) : exec (.sFrcp d a) s = execSFrcp d a s := rfl
theorem exec_vFrcp {d a} (s) : exec (.vFrcp d a) s = execVFrcp d a s := rfl
theorem exec_sFrsq {d a} (s) : exec (.sFrsq d a) s = execSFrsq d a s := rfl
theorem exec_vFrsq {d a} (s) : exec (.vFrsq d a) s = execVFrsq d a s := rfl
theorem exec_sFsqrt {d a} (s) : exec (.sFsqrt d a) s = execSFsqrt d a s := rfl
theorem exec_vFsqrt {d a} (s) : exec (.vFsqrt d a) s = execVFsqrt d a s := rfl
theorem exec_sFexp2 {d a} (s) : exec (.sFexp2 d a) s = execSFexp2 d a s := rfl
theorem exec_vFexp2 {d a} (s) : exec (.vFexp2 d a) s = execVFexp2 d a s := rfl
theorem exec_sFlog2 {d a} (s) : exec (.sFlog2 d a) s = execSFlog2 d a s := rfl
theorem exec_vFlog2 {d a} (s) : exec (.vFlog2 d a) s = execVFlog2 d a s := rfl
theorem exec_sFsinpi {d a} (s) : exec (.sFsinpi d a) s = execSFsinpi d a s := rfl
theorem exec_vFsinpi {d a} (s) : exec (.vFsinpi d a) s = execVFsinpi d a s := rfl
theorem exec_sFcospi {d a} (s) : exec (.sFcospi d a) s = execSFcospi d a s := rfl
theorem exec_vFcospi {d a} (s) : exec (.vFcospi d a) s = execVFcospi d a s := rfl
theorem exec_sFtanh {d a} (s) : exec (.sFtanh d a) s = execSFtanh d a s := rfl
theorem exec_vFtanh {d a} (s) : exec (.vFtanh d a) s = execVFtanh d a s := rfl
theorem exec_sFrintNe {d a} (s) : exec (.sFrintNe d a) s = execSFrintNe d a s := rfl
theorem exec_vFrintNe {d a} (s) : exec (.vFrintNe d a) s = execVFrintNe d a s := rfl
theorem exec_sFrintZ {d a} (s) : exec (.sFrintZ d a) s = execSFrintZ d a s := rfl
theorem exec_vFrintZ {d a} (s) : exec (.vFrintZ d a) s = execVFrintZ d a s := rfl
theorem exec_sFrintDn {d a} (s) : exec (.sFrintDn d a) s = execSFrintDn d a s := rfl
theorem exec_vFrintDn {d a} (s) : exec (.vFrintDn d a) s = execVFrintDn d a s := rfl
theorem exec_sFrintUp {d a} (s) : exec (.sFrintUp d a) s = execSFrintUp d a s := rfl
theorem exec_vFrintUp {d a} (s) : exec (.vFrintUp d a) s = execVFrintUp d a s := rfl
theorem exec_sFaddF16x2 {d a b} (s) : exec (.sFaddF16x2 d a b) s = execSFaddF16x2 d a b s := rfl
theorem exec_vFaddF16x2 {d a b} (s) : exec (.vFaddF16x2 d a b) s = execVFaddF16x2 d a b s := rfl
theorem exec_sFsubF16x2 {d a b} (s) : exec (.sFsubF16x2 d a b) s = execSFsubF16x2 d a b s := rfl
theorem exec_vFsubF16x2 {d a b} (s) : exec (.vFsubF16x2 d a b) s = execVFsubF16x2 d a b s := rfl
theorem exec_sFmulF16x2 {d a b} (s) : exec (.sFmulF16x2 d a b) s = execSFmulF16x2 d a b s := rfl
theorem exec_vFmulF16x2 {d a b} (s) : exec (.vFmulF16x2 d a b) s = execVFmulF16x2 d a b s := rfl
theorem exec_sFfmaF16x2 {d a b} (s) : exec (.sFfmaF16x2 d a b) s = execSFfmaF16x2 d a b s := rfl
theorem exec_vFfmaF16x2 {d a b} (s) : exec (.vFfmaF16x2 d a b) s = execVFfmaF16x2 d a b s := rfl
theorem exec_sFminF16x2 {d a b} (s) : exec (.sFminF16x2 d a b) s = execSFminF16x2 d a b s := rfl
theorem exec_vFminF16x2 {d a b} (s) : exec (.vFminF16x2 d a b) s = execVFminF16x2 d a b s := rfl
theorem exec_sFmaxF16x2 {d a b} (s) : exec (.sFmaxF16x2 d a b) s = execSFmaxF16x2 d a b s := rfl
theorem exec_vFmaxF16x2 {d a b} (s) : exec (.vFmaxF16x2 d a b) s = execVFmaxF16x2 d a b s := rfl
theorem exec_sFaddBf16x2 {d a b} (s) : exec (.sFaddBf16x2 d a b) s = execSFaddBf16x2 d a b s := rfl
theorem exec_vFaddBf16x2 {d a b} (s) : exec (.vFaddBf16x2 d a b) s = execVFaddBf16x2 d a b s := rfl
theorem exec_sFsubBf16x2 {d a b} (s) : exec (.sFsubBf16x2 d a b) s = execSFsubBf16x2 d a b s := rfl
theorem exec_vFsubBf16x2 {d a b} (s) : exec (.vFsubBf16x2 d a b) s = execVFsubBf16x2 d a b s := rfl
theorem exec_sFmulBf16x2 {d a b} (s) : exec (.sFmulBf16x2 d a b) s = execSFmulBf16x2 d a b s := rfl
theorem exec_vFmulBf16x2 {d a b} (s) : exec (.vFmulBf16x2 d a b) s = execVFmulBf16x2 d a b s := rfl
theorem exec_sFfmaBf16x2 {d a b} (s) : exec (.sFfmaBf16x2 d a b) s = execSFfmaBf16x2 d a b s := rfl
theorem exec_vFfmaBf16x2 {d a b} (s) : exec (.vFfmaBf16x2 d a b) s = execVFfmaBf16x2 d a b s := rfl
theorem exec_sFminBf16x2 {d a b} (s) : exec (.sFminBf16x2 d a b) s = execSFminBf16x2 d a b s := rfl
theorem exec_vFminBf16x2 {d a b} (s) : exec (.vFminBf16x2 d a b) s = execVFminBf16x2 d a b s := rfl
theorem exec_sFmaxBf16x2 {d a b} (s) : exec (.sFmaxBf16x2 d a b) s = execSFmaxBf16x2 d a b s := rfl
theorem exec_vFmaxBf16x2 {d a b} (s) : exec (.vFmaxBf16x2 d a b) s = execVFmaxBf16x2 d a b s := rfl
theorem exec_sCvt {f d a src t} (s) : exec (.sCvt f d a src t) s = execSCvt f d a src t s := rfl
theorem exec_vCvt {f d a src t} (s) : exec (.vCvt f d a src t) s = execVCvt f d a src t s := rfl
theorem exec_sCmp {k t m a b} (s) : exec (.sCmp k t m a b) s = execSCmp k t m a b s := rfl
theorem exec_vCmp {k t m a b} (s) : exec (.vCmp k t m a b) s = execVCmp k t m a b s := rfl
theorem exec_sFcmp {k t m a b} (s) : exec (.sFcmp k t m a b) s = execSFcmp k t m a b s := rfl
theorem exec_vFcmp {k t m a b} (s) : exec (.vFcmp k t m a b) s = execVFcmp k t m a b s := rfl
theorem exec_sSel {k d a b} (s) : exec (.sSel k d a b) s = execSSel k d a b s := rfl
theorem exec_vSel {k d a b} (s) : exec (.vSel k d a b) s = execVSel k d a b s := rfl
theorem exec_sPget {d} (s) : exec (.sPget d) s = execSPget d s := rfl
theorem exec_vPget {d} (s) : exec (.vPget d) s = execVPget d s := rfl
theorem exec_vPpop {n} (s) : exec (.vPpop n) s = execVPpop n s := rfl
theorem exec_vPdup {k} (s) : exec (.vPdup k) s = execVPdup k s := rfl
theorem exec_vPand {k} (s) : exec (.vPand k) s = execVPand k s := rfl
theorem exec_vPor {k} (s) : exec (.vPor k) s = execVPor k s := rfl
theorem exec_vPxor {k} (s) : exec (.vPxor k) s = execVPxor k s := rfl
theorem exec_vPnot {k} (s) : exec (.vPnot k) s = execVPnot k s := rfl
theorem exec_vPswap {k} (s) : exec (.vPswap k) s = execVPswap k s := rfl
theorem exec_vPpush {b} (s) : exec (.vPpush b) s = execVPpush b s := rfl
theorem exec_vPset {b} (s) : exec (.vPset b) s = execVPset b s := rfl
theorem exec_vShflIdx {d a b} (s) : exec (.vShflIdx d a b) s = execVShflIdx d a b s := rfl
theorem exec_vShflUp {d a b} (s) : exec (.vShflUp d a b) s = execVShflUp d a b s := rfl
theorem exec_vShflDown {d a b} (s) : exec (.vShflDown d a b) s = execVShflDown d a b s := rfl
theorem exec_vShflXor {d a b} (s) : exec (.vShflXor d a b) s = execVShflXor d a b s := rfl
theorem exec_vBcast {d a b} (s) : exec (.vBcast d a b) s = execVBcast d a b s := rfl
theorem exec_vVoteBallot {d a} (s) : exec (.vVoteBallot d a) s = execVVoteBallot d a s := rfl
theorem exec_vReduxAdd {d a t} (s) : exec (.vReduxAdd d a t) s = execVReduxAdd d a t s := rfl
theorem exec_vReduxMin {d a t} (s) : exec (.vReduxMin d a t) s = execVReduxMin d a t s := rfl
theorem exec_vReduxMax {d a t} (s) : exec (.vReduxMax d a t) s = execVReduxMax d a t s := rfl
theorem exec_vScanIncl {d a t} (s) : exec (.vScanIncl d a t) s = execVScanIncl d a t s := rfl
theorem exec_vScanExcl {d a t} (s) : exec (.vScanExcl d a t) s = execVScanExcl d a t s := rfl
theorem exec_vMatch {d a} (s) : exec (.vMatch d a) s = execVMatch d a s := rfl
theorem exec_vIsect {d a b} (s) : exec (.vIsect d a b) s = execVIsect d a b s := rfl
theorem exec_sMovx {d imm k} (s) : exec (.sMovx d imm k) s = execSMovx d imm k s := rfl
theorem exec_vMovx {d imm k} (s) : exec (.vMovx d imm k) s = execVMovx d imm k s := rfl
theorem exec_sMovxw {src imm k} (s) : exec (.sMovxw src imm k) s = execSMovxw src imm k s := rfl
theorem exec_vMovxw {src imm k} (s) : exec (.vMovxw src imm k) s = execVMovxw src imm k s := rfl
theorem exec_mLd {z d a o} (s) : exec (.mLd z d a o) s = execMLd z d a o s := rfl
theorem exec_mLdPr {z d a o} (s) : exec (.mLdPr z d a o) s = execMLdPr z d a o s := rfl
theorem exec_mLdAcq {z d a o} (s) : exec (.mLdAcq z d a o) s = execMLdAcq z d a o s := rfl
theorem exec_mLdu {z d a o} (s) : exec (.mLdu z d a o) s = execMLdu z d a o s := rfl
theorem exec_mSt {z d a o} (s) : exec (.mSt z d a o) s = execMSt z d a o s := rfl
theorem exec_mStRel {z d a o} (s) : exec (.mStRel z d a o) s = execMStRel z d a o s := rfl
theorem exec_mAtomAddS32 {d a b} (s) : exec (.mAtomAddS32 d a b) s = execMAtomAddS32 d a b s := rfl
theorem exec_mAtomAndB32 {d a b} (s) : exec (.mAtomAndB32 d a b) s = execMAtomAndB32 d a b s := rfl
theorem exec_mAtomOrB32 {d a b} (s) : exec (.mAtomOrB32 d a b) s = execMAtomOrB32 d a b s := rfl
theorem exec_mAtomXorB32 {d a b} (s) : exec (.mAtomXorB32 d a b) s = execMAtomXorB32 d a b s := rfl
theorem exec_mAtomMinS32 {d a b} (s) : exec (.mAtomMinS32 d a b) s = execMAtomMinS32 d a b s := rfl
theorem exec_mAtomMaxS32 {d a b} (s) : exec (.mAtomMaxS32 d a b) s = execMAtomMaxS32 d a b s := rfl
theorem exec_mAtomMinZ32 {d a b} (s) : exec (.mAtomMinZ32 d a b) s = execMAtomMinZ32 d a b s := rfl
theorem exec_mAtomMaxZ32 {d a b} (s) : exec (.mAtomMaxZ32 d a b) s = execMAtomMaxZ32 d a b s := rfl
theorem exec_mAtomExchB32 {d a b} (s) : exec (.mAtomExchB32 d a b) s = execMAtomExchB32 d a b s := rfl
theorem exec_mAtomAddS64 {d a b} (s) : exec (.mAtomAddS64 d a b) s = execMAtomAddS64 d a b s := rfl
theorem exec_mAtomAndB64 {d a b} (s) : exec (.mAtomAndB64 d a b) s = execMAtomAndB64 d a b s := rfl
theorem exec_mAtomOrB64 {d a b} (s) : exec (.mAtomOrB64 d a b) s = execMAtomOrB64 d a b s := rfl
theorem exec_mAtomXorB64 {d a b} (s) : exec (.mAtomXorB64 d a b) s = execMAtomXorB64 d a b s := rfl
theorem exec_mAtomMinS64 {d a b} (s) : exec (.mAtomMinS64 d a b) s = execMAtomMinS64 d a b s := rfl
theorem exec_mAtomMaxS64 {d a b} (s) : exec (.mAtomMaxS64 d a b) s = execMAtomMaxS64 d a b s := rfl
theorem exec_mAtomMinZ64 {d a b} (s) : exec (.mAtomMinZ64 d a b) s = execMAtomMinZ64 d a b s := rfl
theorem exec_mAtomMaxZ64 {d a b} (s) : exec (.mAtomMaxZ64 d a b) s = execMAtomMaxZ64 d a b s := rfl
theorem exec_mAtomExchB64 {d a b} (s) : exec (.mAtomExchB64 d a b) s = execMAtomExchB64 d a b s := rfl
theorem exec_mAtomAddF32 {d a b} (s) : exec (.mAtomAddF32 d a b) s = execMAtomAddF32 d a b s := rfl
theorem exec_mAtomMinF32 {d a b} (s) : exec (.mAtomMinF32 d a b) s = execMAtomMinF32 d a b s := rfl
theorem exec_mAtomMaxF32 {d a b} (s) : exec (.mAtomMaxF32 d a b) s = execMAtomMaxF32 d a b s := rfl
theorem exec_mAtomAddF16x2 {d a b} (s) : exec (.mAtomAddF16x2 d a b) s = execMAtomAddF16x2 d a b s := rfl
theorem exec_mAtomAddBf16x2 {d a b} (s) : exec (.mAtomAddBf16x2 d a b) s = execMAtomAddBf16x2 d a b s := rfl
theorem exec_mRedAddS32 {a b} (s) : exec (.mRedAddS32 a b) s = execMRedAddS32 a b s := rfl
theorem exec_mRedAddS64 {a b} (s) : exec (.mRedAddS64 a b) s = execMRedAddS64 a b s := rfl
theorem exec_mRedAddF32 {a b} (s) : exec (.mRedAddF32 a b) s = execMRedAddF32 a b s := rfl
theorem exec_mRedMinS32 {a b} (s) : exec (.mRedMinS32 a b) s = execMRedMinS32 a b s := rfl
theorem exec_mRedMaxS32 {a b} (s) : exec (.mRedMaxS32 a b) s = execMRedMaxS32 a b s := rfl
theorem exec_mRedMinZ32 {a b} (s) : exec (.mRedMinZ32 a b) s = execMRedMinZ32 a b s := rfl
theorem exec_mRedMaxZ32 {a b} (s) : exec (.mRedMaxZ32 a b) s = execMRedMaxZ32 a b s := rfl
theorem exec_mRedAndB32 {a b} (s) : exec (.mRedAndB32 a b) s = execMRedAndB32 a b s := rfl
theorem exec_mRedOrB32 {a b} (s) : exec (.mRedOrB32 a b) s = execMRedOrB32 a b s := rfl
theorem exec_mRedXorB32 {a b} (s) : exec (.mRedXorB32 a b) s = execMRedXorB32 a b s := rfl
theorem exec_mRedMinF32 {a b} (s) : exec (.mRedMinF32 a b) s = execMRedMinF32 a b s := rfl
theorem exec_mRedMaxF32 {a b} (s) : exec (.mRedMaxF32 a b) s = execMRedMaxF32 a b s := rfl
theorem exec_mRedAddF16x2 {a b} (s) : exec (.mRedAddF16x2 a b) s = execMRedAddF16x2 a b s := rfl
theorem exec_mRedAddBf16x2 {a b} (s) : exec (.mRedAddBf16x2 a b) s = execMRedAddBf16x2 a b s := rfl
theorem exec_mCasB32 {d a b} (s) : exec (.mCasB32 d a b) s = execMCasB32 d a b s := rfl
theorem exec_mCasB64 {d a b} (s) : exec (.mCasB64 d a b) s = execMCasB64 d a b s := rfl
theorem exec_mFenceAcq {src} (s) : exec (.mFenceAcq src) s = execMFenceAcq src s := rfl
theorem exec_mFenceRel {src} (s) : exec (.mFenceRel src) s = execMFenceRel src s := rfl
theorem exec_mFenceFull {src} (s) : exec (.mFenceFull src) s = execMFenceFull src s := rfl
theorem exec_mMwait {o a b} (s) : exec (.mMwait o a b) s = execMMwait o a b s := rfl
theorem exec_mPgreq {a} (s) : exec (.mPgreq a) s = execMPgreq a s := rfl
theorem exec_mPgprobe {d a} (s) : exec (.mPgprobe d a) s = execMPgprobe d a s := rfl
theorem exec_mPref {a} (s) : exec (.mPref a) s = execMPref a s := rfl
theorem exec_mTexSample {d a b} (s) : exec (.mTexSample d a b) s = execMTexSample d a b s := rfl
theorem exec_mTexSampleLod {d a b} (s) : exec (.mTexSampleLod d a b) s = execMTexSampleLod d a b s := rfl
theorem exec_mTexSampleGrad {d a b} (s) : exec (.mTexSampleGrad d a b) s = execMTexSampleGrad d a b s := rfl
theorem exec_mTexFetch {d a b} (s) : exec (.mTexFetch d a b) s = execMTexFetch d a b s := rfl
theorem exec_mTexGath4 {d a b} (s) : exec (.mTexGath4 d a b) s = execMTexGath4 d a b s := rfl
theorem exec_mTexqSize {d a b} (s) : exec (.mTexqSize d a b) s = execMTexqSize d a b s := rfl
theorem exec_mTexqLevels {d a} (s) : exec (.mTexqLevels d a) s = execMTexqLevels d a s := rfl
theorem exec_mTexqFormat {d a} (s) : exec (.mTexqFormat d a) s = execMTexqFormat d a s := rfl
theorem exec_eCpy {p t src} (s) : exec (.eCpy p t src) s = execECpy p t src s := rfl
theorem exec_eGath {p t} (s) : exec (.eGath p t) s = execEGath p t s := rfl
theorem exec_eScat {o p t} (s) : exec (.eScat o p t) s = execEScat o p t s := rfl
theorem exec_eMma {p} (s) : exec (.eMma p) s = execEMma p s := rfl
theorem exec_eMsrch {p} (s) : exec (.eMsrch p) s = execEMsrch p s := rfl
theorem exec_eQuant {p} (s) : exec (.eQuant p) s = execEQuant p s := rfl
theorem exec_eKselThr {p t} (s) : exec (.eKselThr p t) s = execEKselThr p t s := rfl
theorem exec_eKselTopk {p t} (s) : exec (.eKselTopk p t) s = execEKselTopk p t s := rfl
theorem exec_eKgat {p t} (s) : exec (.eKgat p t) s = execEKgat p t s := rfl
theorem exec_eKsum {p t} (s) : exec (.eKsum p t) s = execEKsum p t s := rfl
theorem exec_eSpawn {p} (s) : exec (.eSpawn p) s = execESpawn p s := rfl
theorem exec_eSpawnDie {p x} (s) : exec (.eSpawnDie p x) s = execESpawnDie p x s := rfl
theorem exec_eEnq {p q} (s) : exec (.eEnq p q) s = execEEnq p q s := rfl
theorem exec_eSsbld {p t} (s) : exec (.eSsbld p t) s = execESsbld p t s := rfl
theorem exec_eBind {p k} (s) : exec (.eBind p k) s = execEBind p k s := rfl
theorem exec_eEmit {p} (s) : exec (.eEmit p) s = execEEmit p s := rfl
theorem exec_eRelaunch {p} (s) : exec (.eRelaunch p) s = execERelaunch p s := rfl
theorem exec_eTdset {p} (s) : exec (.eTdset p) s = execETdset p s := rfl
theorem exec_cBr {k m o} (s) : exec (.cBr k m o) s = execCBr k m o s := rfl
theorem exec_cCall {j o} (s) : exec (.cCall j o) s = execCCall j o s := rfl
theorem exec_cJmp {a} (s) : exec (.cJmp a) s = execCJmp a s := rfl
theorem exec_cCallx {d a} (s) : exec (.cCallx d a) s = execCCallx d a s := rfl
theorem exec_cRet {a} (s) : exec (.cRet a) s = execCRet a s := rfl
theorem exec_cWait {l src c x} (s) : exec (.cWait l src c x) s = execCWait l src c x s := rfl
theorem exec_cTwaitAny {a} (s) : exec (.cTwaitAny a) s = execCTwaitAny a s := rfl
theorem exec_cTwaitAll {a} (s) : exec (.cTwaitAll a) s = execCTwaitAll a s := rfl
theorem exec_cTffs {d a} (s) : exec (.cTffs d a) s = execCTffs d a s := rfl
theorem exec_cTclr {a} (s) : exec (.cTclr a) s = execCTclr a s := rfl
theorem exec_cBarArrive {src imm} (s) : exec (.cBarArrive src imm) s = execCBarArrive src imm s := rfl
theorem exec_cBarWait {src imm} (s) : exec (.cBarWait src imm) s = execCBarWait src imm s := rfl
theorem exec_cBarSync {src imm} (s) : exec (.cBarSync src imm) s = execCBarSync src imm s := rfl
theorem exec_cNop (s) : exec (.cNop) s = execCNop s := rfl
theorem exec_cYield (s) : exec (.cYield) s = execCYield s := rfl
theorem exec_cExit (s) : exec (.cExit) s = execCExit s := rfl
theorem exec_cBrk {b} (s) : exec (.cBrk b) s = execCBrk b s := rfl
theorem exec_cTrap {n} (s) : exec (.cTrap n) s = execCTrap n s := rfl
theorem exec_yGsr {d r} (s) : exec (.yGsr d r) s = execYGsr d r s := rfl
theorem exec_ySsr {r b} (s) : exec (.ySsr r b) s = execYSsr r b s := rfl
theorem exec_yResume {a b} (s) : exec (.yResume a b) s = execYResume a b s := rfl
theorem exec_yKill {a b} (s) : exec (.yKill a b) s = execYKill a b s := rfl
theorem exec_yCtxinfo {d n} (s) : exec (.yCtxinfo d n) s = execYCtxinfo d n s := rfl
theorem exec_hImm {x} (s) : exec (.hImm x) s = execHImm x s := rfl
theorem exec_hGuard {k n} (s) : exec (.hGuard k n) s = execHGuard k n s := rfl
theorem exec_hGuardNot {k n} (s) : exec (.hGuardNot k n) s = execHGuardNot k n s := rfl
theorem exec_hSrc3 {c} (s) : exec (.hSrc3 c) s = execHSrc3 c s := rfl
theorem exec_hReuse {x n} (s) : exec (.hReuse x n) s = execHReuse x n s := rfl
theorem exec_hLast {x y n} (s) : exec (.hLast x y n) s = execHLast x y n s := rfl
theorem exec_hRnd {m} (s) : exec (.hRnd m) s = execHRnd m s := rfl
theorem exec_hScope {src} (s) : exec (.hScope src) s = execHScope src s := rfl
theorem exec_hSched {n} (s) : exec (.hSched n) s = execHSched n s := rfl
theorem exec_hCache {p} (s) : exec (.hCache p) s = execHCache p s := rfl
theorem exec_loadRetire {op lanes} (s) : exec (.loadRetire op lanes) s = execLoadRetire op lanes s := rfl
theorem exec_storePerform {op lanes} (s) : exec (.storePerform op lanes) s = execStorePerform op lanes s := rfl
theorem exec_atomicPerform {op lanes} (s) : exec (.atomicPerform op lanes) s = execAtomicPerform op lanes s := rfl
theorem exec_reductionPlace {op lanes} (s) : exec (.reductionPlace op lanes) s = execReductionPlace op lanes s := rfl
theorem exec_updateLineMerge {core line} (s) : exec (.updateLineMerge core line) s = execUpdateLineMerge core line s := rfl
theorem exec_texRetire {op} (s) : exec (.texRetire op) s = execTexRetire op s := rfl
theorem exec_waitComplete {warp lane} (s) : exec (.waitComplete warp lane) s = execWaitComplete warp lane s := rfl
theorem exec_tagSet {op} (s) : exec (.tagSet op) s = execTagSet op s := rfl
theorem exec_tagWaitComplete {warp lane} (s) : exec (.tagWaitComplete warp lane) s = execTagWaitComplete warp lane s := rfl
theorem exec_barrierPhaseComplete {bar} (s) : exec (.barrierPhaseComplete bar) s = execBarrierPhaseComplete bar s := rfl
theorem exec_monitorWake {warp lane} (s) : exec (.monitorWake warp lane) s = execMonitorWake warp lane s := rfl
theorem exec_monitorReread {warp lane} (s) : exec (.monitorReread warp lane) s = execMonitorReread warp lane s := rfl
theorem exec_blockSwapOut {block ok} (s) : exec (.blockSwapOut block ok) s = execBlockSwapOut block ok s := rfl
theorem exec_blockSwapIn {block} (s) : exec (.blockSwapIn block) s = execBlockSwapIn block s := rfl
theorem exec_scratchRefill {block page ok} (s) : exec (.scratchRefill block page ok) s = execScratchRefill block page ok s := rfl
theorem exec_pageWaitRetry {warp lane} (s) : exec (.pageWaitRetry warp lane) s = execPageWaitRetry warp lane s := rfl
theorem exec_pteChange {ctx level va value frames} (s) : exec (.pteChange ctx level va value frames) s = execPteChange ctx level va value frames s := rfl
theorem exec_residencyPresent {ctx va} (s) : exec (.residencyPresent ctx va) s = execResidencyPresent ctx va s := rfl
theorem exec_residencyRefuse {ctx va} (s) : exec (.residencyRefuse ctx va) s = execResidencyRefuse ctx va s := rfl
theorem exec_residencyEvict {ctx va} (s) : exec (.residencyEvict ctx va) s = execResidencyEvict ctx va s := rfl
theorem exec_migration {ctx va frame} (s) : exec (.migration ctx va frame) s = execMigration ctx va frame s := rfl
theorem exec_migrationRequest {ctx va agent frame} (s) : exec (.migrationRequest ctx va agent frame) s = execMigrationRequest ctx va agent frame s := rfl
theorem exec_kickWrite {ctx queue value} (s) : exec (.kickWrite ctx queue value) s = execKickWrite ctx queue value s := rfl
theorem exec_packetTake {ctx queue} (s) : exec (.packetTake ctx queue) s = execPacketTake ctx queue s := rfl
theorem exec_packetHeaderWake {ctx queue} (s) : exec (.packetHeaderWake ctx queue) s = execPacketHeaderWake ctx queue s := rfl
theorem exec_launch {job} (s) : exec (.launch job) s = execLaunch job s := rfl
theorem exec_seed {job} (s) : exec (.seed job) s = execSeed job s := rfl
theorem exec_graphReplay {job} (s) : exec (.graphReplay job) s = execGraphReplay job s := rfl
theorem exec_relaunch {job} (s) : exec (.relaunch job) s = execRelaunch job s := rfl
theorem exec_signal {job} (s) : exec (.signal job) s = execSignal job s := rfl
theorem exec_waitValue {job} (s) : exec (.waitValue job) s = execWaitValue job s := rfl
theorem exec_waitValueRecheck {job} (s) : exec (.waitValueRecheck job) s = execWaitValueRecheck job s := rfl
theorem exec_barrierOnly {job} (s) : exec (.barrierOnly job) s = execBarrierOnly job s := rfl
theorem exec_queueCreate {job} (s) : exec (.queueCreate job) s = execQueueCreate job s := rfl
theorem exec_queueDestroy {job} (s) : exec (.queueDestroy job) s = execQueueDestroy job s := rfl
theorem exec_settings {job} (s) : exec (.settings job) s = execSettings job s := rfl
theorem exec_graphBind {job} (s) : exec (.graphBind job) s = execGraphBind job s := rfl
theorem exec_packetComplete {job} (s) : exec (.packetComplete job) s = execPacketComplete job s := rfl
theorem exec_graphKick {ctx slot table} (s) : exec (.graphKick ctx slot table) s = execGraphKick ctx slot table s := rfl
theorem exec_graphNodeStart {ctx slot node} (s) : exec (.graphNodeStart ctx slot node) s = execGraphNodeStart ctx slot node s := rfl
theorem exec_blockStart {launch block} (s) : exec (.blockStart launch block) s = execBlockStart launch block s := rfl
theorem exec_warpPlace {warp core} (s) : exec (.warpPlace warp core) s = execWarpPlace warp core s := rfl
theorem exec_warpEnd {warp} (s) : exec (.warpEnd warp) s = execWarpEnd warp s := rfl
theorem exec_spawnRetire {op} (s) : exec (.spawnRetire op) s = execSpawnRetire op s := rfl
theorem exec_binTimerExpiry {die bin} (s) : exec (.binTimerExpiry die bin) s = execBinTimerExpiry die bin s := rfl
theorem exec_spillRingMove {ctx die} (s) : exec (.spillRingMove ctx die) s = execSpillRingMove ctx die s := rfl
theorem exec_hangDetected {ctx} (s) : exec (.hangDetected ctx) s = execHangDetected ctx s := rfl
theorem exec_cpyComplete {op} (s) : exec (.cpyComplete op) s = execCpyComplete op s := rfl
theorem exec_gathComplete {op} (s) : exec (.gathComplete op) s = execGathComplete op s := rfl
theorem exec_scatComplete {op} (s) : exec (.scatComplete op) s = execScatComplete op s := rfl
theorem exec_mmaComplete {op} (s) : exec (.mmaComplete op) s = execMmaComplete op s := rfl
theorem exec_msrchComplete {op} (s) : exec (.msrchComplete op) s = execMsrchComplete op s := rfl
theorem exec_quantComplete {op} (s) : exec (.quantComplete op) s = execQuantComplete op s := rfl
theorem exec_kselComplete {op} (s) : exec (.kselComplete op) s = execKselComplete op s := rfl
theorem exec_kgatComplete {op} (s) : exec (.kgatComplete op) s = execKgatComplete op s := rfl
theorem exec_ksumInstall {op} (s) : exec (.ksumInstall op) s = execKsumInstall op s := rfl
theorem exec_ksumComplete {op} (s) : exec (.ksumComplete op) s = execKsumComplete op s := rfl
theorem exec_engineStallResume {op} (s) : exec (.engineStallResume op) s = execEngineStallResume op s := rfl
theorem exec_engineFaultStop {op} (s) : exec (.engineFaultStop op) s = execEngineFaultStop op s := rfl
theorem exec_enqRetire {op} (s) : exec (.enqRetire op) s = execEnqRetire op s := rfl
theorem exec_emitAccept {op lanes} (s) : exec (.emitAccept op lanes) s = execEmitAccept op lanes s := rfl
theorem exec_binnerAccept {op lane} (s) : exec (.binnerAccept op lane) s = execBinnerAccept op lane s := rfl
theorem exec_buildComplete {build} (s) : exec (.buildComplete build) s = execBuildComplete build s := rfl
theorem exec_buildRecord {op lane} (s) : exec (.buildRecord op lane) s = execBuildRecord op lane s := rfl
theorem exec_rasterLeaf {pass leaf cluster} (s) : exec (.rasterLeaf pass leaf cluster) s = execRasterLeaf pass leaf cluster s := rfl
theorem exec_blenderApply {pass} (s) : exec (.blenderApply pass) s = execBlenderApply pass s := rfl
theorem exec_passEnd {pass} (s) : exec (.passEnd pass) s = execPassEnd pass s := rfl
theorem exec_passAutoClose {pass} (s) : exec (.passAutoClose pass) s = execPassAutoClose pass s := rfl
theorem exec_pixelPreemptDeadline {ctx} (s) : exec (.pixelPreemptDeadline ctx) s = execPixelPreemptDeadline ctx s := rfl
theorem exec_inboundRmaWrite {host key addr data} (s) : exec (.inboundRmaWrite host key addr data) s = execInboundRmaWrite host key addr data s := rfl
theorem exec_inboundRmaRead {host key addr len} (s) : exec (.inboundRmaRead host key addr len) s = execInboundRmaRead host key addr len s := rfl
theorem exec_inboundFetchAdd {host key addr value} (s) : exec (.inboundFetchAdd host key addr value) s = execInboundFetchAdd host key addr value s := rfl
theorem exec_inboundSwap {host key addr value} (s) : exec (.inboundSwap host key addr value) s = execInboundSwap host key addr value s := rfl
theorem exec_inboundCas {host key addr expect value} (s) : exec (.inboundCas host key addr expect value) s = execInboundCas host key addr expect value s := rfl
theorem exec_inboundRateRelease {region place} (s) : exec (.inboundRateRelease region place) s = execInboundRateRelease region place s := rfl
theorem exec_remoteCompletion {req status data} (s) : exec (.remoteCompletion req status data) s = execRemoteCompletion req status data s := rfl
theorem exec_remoteTimeout {req} (s) : exec (.remoteTimeout req) s = execRemoteTimeout req s := rfl
theorem exec_remoteStoreFailure {req status} (s) : exec (.remoteStoreFailure req status) s = execRemoteStoreFailure req status s := rfl
theorem exec_peerReset {peer} (s) : exec (.peerReset peer) s = execPeerReset peer s := rfl
theorem exec_hostDetach {host} (s) : exec (.hostDetach host) s = execHostDetach host s := rfl
theorem exec_contextCreate {host msg} (s) : exec (.contextCreate host msg) s = execContextCreate host msg s := rfl
theorem exec_contextDestroy {host msg} (s) : exec (.contextDestroy host msg) s = execContextDestroy host msg s := rfl
theorem exec_preempt {host msg} (s) : exec (.preempt host msg) s = execPreempt host msg s := rfl
theorem exec_resume {host msg} (s) : exec (.resume host msg) s = execResume host msg s := rfl
theorem exec_regionSet {host msg} (s) : exec (.regionSet host msg) s = execRegionSet host msg s := rfl
theorem exec_regionClear {host msg} (s) : exec (.regionClear host msg) s = execRegionClear host msg s := rfl
theorem exec_stampRead {host msg} (s) : exec (.stampRead host msg) s = execStampRead host msg s := rfl
theorem exec_fencePart {host msg} (s) : exec (.fencePart host msg) s = execFencePart host msg s := rfl
theorem exec_returnPart {host msg} (s) : exec (.returnPart host msg) s = execReturnPart host msg s := rfl
theorem exec_partLeaveService {core} (s) : exec (.partLeaveService core) s = execPartLeaveService core s := rfl
theorem exec_firmwarePush {host msg} (s) : exec (.firmwarePush host msg) s = execFirmwarePush host msg s := rfl
theorem exec_attest {host msg} (s) : exec (.attest host msg) s = execAttest host msg s := rfl
theorem exec_powerCap {host msg} (s) : exec (.powerCap host msg) s = execPowerCap host msg s := rfl
theorem exec_debugStepOn {host msg} (s) : exec (.debugStepOn host msg) s = execDebugStepOn host msg s := rfl
theorem exec_debugStepOff {host msg} (s) : exec (.debugStepOff host msg) s = execDebugStepOff host msg s := rfl
theorem exec_debugWatchSet {host msg} (s) : exec (.debugWatchSet host msg) s = execDebugWatchSet host msg s := rfl
theorem exec_debugWatchClear {host msg} (s) : exec (.debugWatchClear host msg) s = execDebugWatchClear host msg s := rfl
theorem exec_debugHalt {host msg} (s) : exec (.debugHalt host msg) s = execDebugHalt host msg s := rfl
theorem exec_keepalive {host msg} (s) : exec (.keepalive host msg) s = execKeepalive host msg s := rfl
theorem exec_moduleReset (s) : exec (.moduleReset) s = execModuleReset s := rfl
theorem exec_schedulerHeartbeat {core} (s) : exec (.schedulerHeartbeat core) s = execSchedulerHeartbeat core s := rfl
theorem exec_heartbeatTimeout {core} (s) : exec (.heartbeatTimeout core) s = execHeartbeatTimeout core s := rfl
theorem exec_hbmRowRetire {stack row} (s) : exec (.hbmRowRetire stack row) s = execHbmRowRetire stack row s := rfl
theorem exec_coreFailure {core} (s) : exec (.coreFailure core) s = execCoreFailure core s := rfl
theorem exec_thermalThrottle {die} (s) : exec (.thermalThrottle die) s = execThermalThrottle die s := rfl
theorem exec_thermalShutdown {die} (s) : exec (.thermalShutdown die) s = execThermalShutdown die s := rfl
theorem exec_unallocatedWord {w} (s) : exec (.unallocatedWord w) s = execUnallocatedWord w s := rfl
theorem exec_fetchFault (s) : exec (.fetchFault) s = execFetchFault s := rfl
theorem exec_engineUnitWrite {op} (s) : exec (.engineUnitWrite op) s = execEngineUnitWrite op s := rfl
theorem exec_contextTimeout {ctx} (s) : exec (.contextTimeout ctx) s = execContextTimeout ctx s := rfl
theorem exec_contextWipe {ctx} (s) : exec (.contextWipe ctx) s = execContextWipe ctx s := rfl
theorem exec_linkDown {port} (s) : exec (.linkDown port) s = execLinkDown port s := rfl
theorem exec_linkUp {port} (s) : exec (.linkUp port) s = execLinkUp port s := rfl
theorem exec_egressRateRelease {req} (s) : exec (.egressRateRelease req) s = execEgressRateRelease req s := rfl
theorem exec_connectionSetup {peer kind} (s) : exec (.connectionSetup peer kind) s = execConnectionSetup peer kind s := rfl
theorem exec_unknownOp {host msg} (s) : exec (.unknownOp host msg) s = execUnknownOp host msg s := rfl
theorem exec_eccError {place loc corrected} (s) : exec (.eccError place loc corrected) s = execEccError place loc corrected s := rfl
theorem exec_thermalThrottleEnd {die} (s) : exec (.thermalThrottleEnd die) s = execThermalThrottleEnd die s := rfl

end Sys2Proof.Machine
end

