-- ==== Sys2Proof/Laws/PerInstr.lean ====
section
/-! SUPPORT. One lemma per constructor of Instr: the word of a well-formed instruction fits in 32 bits (R42, R44); an event has none. -/

namespace Sys2Proof.Laws.WordFits

/-- The word of the instruction, where it has one, fits in 32 bits. -/
def Statement (i : Instr) : Prop := ∀ w, i.wf = true → encode i = some w → w < 2 ^ 32

theorem fits1 {a u : Nat} (h : fits a u = true) : u < 2 ^ a := of_decide_eq_true h

theorem fits2 {a b u v : Nat} (h : (fits a u && fits b v) = true) : u < 2 ^ a ∧ v < 2 ^ b := by
  simpa [fits] using h

theorem fits3 {a b c u v x : Nat} (h : (fits a u && fits b v && fits c x) = true) : u < 2 ^ a ∧ v < 2 ^ b ∧ x < 2 ^ c := by
  simpa [fits, and_assoc] using h

theorem fits4 {a b c d u v x y : Nat} (h : (fits a u && fits b v && fits c x && fits d y) = true) :
    u < 2 ^ a ∧ v < 2 ^ b ∧ x < 2 ^ c ∧ y < 2 ^ d := by
  simpa [fits, and_assoc] using h

theorem fits5 {a b c d e u v x y z : Nat} (h : (fits a u && fits b v && fits c x && fits d y && fits e z) = true) :
    u < 2 ^ a ∧ v < 2 ^ b ∧ x < 2 ^ c ∧ y < 2 ^ d ∧ z < 2 ^ e := by
  simpa [fits, and_assoc] using h


theorem sAdd (d a b : Nat) : Statement (Instr.sAdd d a b) := fun _ h e => by cases e; have := fits3 h; unfold put14_7_0; omega
theorem sAddImm (d a i : Nat) : Statement (Instr.sAddImm d a i) := fun _ h e => by cases e; have := fits3 h; unfold put14_7_0; omega
theorem vAdd (d a b : Nat) : Statement (Instr.vAdd d a b) := fun _ h e => by cases e; have := fits3 h; unfold put14_7_0; omega
theorem vAddImm (d a i : Nat) : Statement (Instr.vAddImm d a i) := fun _ h e => by cases e; have := fits3 h; unfold put14_7_0; omega
theorem sSub (d a b : Nat) : Statement (Instr.sSub d a b) := fun _ h e => by cases e; have := fits3 h; unfold put14_7_0; omega
theorem sSubImm (d a i : Nat) : Statement (Instr.sSubImm d a i) := fun _ h e => by cases e; have := fits3 h; unfold put14_7_0; omega
theorem vSub (d a b : Nat) : Statement (Instr.vSub d a b) := fun _ h e => by cases e; have := fits3 h; unfold put14_7_0; omega
theorem vSubImm (d a i : Nat) : Statement (Instr.vSubImm d a i) := fun _ h e => by cases e; have := fits3 h; unfold put14_7_0; omega
theorem sMullo (d a b : Nat) : Statement (Instr.sMullo d a b) := fun _ h e => by cases e; have := fits3 h; unfold put14_7_0; omega
theorem sMulloImm (d a i : Nat) : Statement (Instr.sMulloImm d a i) := fun _ h e => by cases e; have := fits3 h; unfold put14_7_0; omega
theorem vMullo (d a b : Nat) : Statement (Instr.vMullo d a b) := fun _ h e => by cases e; have := fits3 h; unfold put14_7_0; omega
theorem vMulloImm (d a i : Nat) : Statement (Instr.vMulloImm d a i) := fun _ h e => by cases e; have := fits3 h; unfold put14_7_0; omega
theorem sMulhiS (d a b : Nat) : Statement (Instr.sMulhiS d a b) := fun _ h e => by cases e; have := fits3 h; unfold put14_7_0; omega
theorem sMulhiSImm (d a i : Nat) : Statement (Instr.sMulhiSImm d a i) := fun _ h e => by cases e; have := fits3 h; unfold put14_7_0; omega
theorem vMulhiS (d a b : Nat) : Statement (Instr.vMulhiS d a b) := fun _ h e => by cases e; have := fits3 h; unfold put14_7_0; omega
theorem vMulhiSImm (d a i : Nat) : Statement (Instr.vMulhiSImm d a i) := fun _ h e => by cases e; have := fits3 h; unfold put14_7_0; omega
theorem sMulhiZ (d a b : Nat) : Statement (Instr.sMulhiZ d a b) := fun _ h e => by cases e; have := fits3 h; unfold put14_7_0; omega
theorem sMulhiZImm (d a i : Nat) : Statement (Instr.sMulhiZImm d a i) := fun _ h e => by cases e; have := fits3 h; unfold put14_7_0; omega
theorem vMulhiZ (d a b : Nat) : Statement (Instr.vMulhiZ d a b) := fun _ h e => by cases e; have := fits3 h; unfold put14_7_0; omega
theorem vMulhiZImm (d a i : Nat) : Statement (Instr.vMulhiZImm d a i) := fun _ h e => by cases e; have := fits3 h; unfold put14_7_0; omega
theorem sMad (d a b : Nat) : Statement (Instr.sMad d a b) := fun _ h e => by cases e; have := fits3 h; unfold put14_7_0; omega
theorem sMadImm (d a i : Nat) : Statement (Instr.sMadImm d a i) := fun _ h e => by cases e; have := fits3 h; unfold put14_7_0; omega
theorem vMad (d a b : Nat) : Statement (Instr.vMad d a b) := fun _ h e => by cases e; have := fits3 h; unfold put14_7_0; omega
theorem vMadImm (d a i : Nat) : Statement (Instr.vMadImm d a i) := fun _ h e => by cases e; have := fits3 h; unfold put14_7_0; omega
theorem sMinS (d a b : Nat) : Statement (Instr.sMinS d a b) := fun _ h e => by cases e; have := fits3 h; unfold put14_7_0; omega
theorem sMinSImm (d a i : Nat) : Statement (Instr.sMinSImm d a i) := fun _ h e => by cases e; have := fits3 h; unfold put14_7_0; omega
theorem vMinS (d a b : Nat) : Statement (Instr.vMinS d a b) := fun _ h e => by cases e; have := fits3 h; unfold put14_7_0; omega
theorem vMinSImm (d a i : Nat) : Statement (Instr.vMinSImm d a i) := fun _ h e => by cases e; have := fits3 h; unfold put14_7_0; omega
theorem sMaxS (d a b : Nat) : Statement (Instr.sMaxS d a b) := fun _ h e => by cases e; have := fits3 h; unfold put14_7_0; omega
theorem sMaxSImm (d a i : Nat) : Statement (Instr.sMaxSImm d a i) := fun _ h e => by cases e; have := fits3 h; unfold put14_7_0; omega
theorem vMaxS (d a b : Nat) : Statement (Instr.vMaxS d a b) := fun _ h e => by cases e; have := fits3 h; unfold put14_7_0; omega
theorem vMaxSImm (d a i : Nat) : Statement (Instr.vMaxSImm d a i) := fun _ h e => by cases e; have := fits3 h; unfold put14_7_0; omega
theorem sMinZ (d a b : Nat) : Statement (Instr.sMinZ d a b) := fun _ h e => by cases e; have := fits3 h; unfold put14_7_0; omega
theorem sMinZImm (d a i : Nat) : Statement (Instr.sMinZImm d a i) := fun _ h e => by cases e; have := fits3 h; unfold put14_7_0; omega
theorem vMinZ (d a b : Nat) : Statement (Instr.vMinZ d a b) := fun _ h e => by cases e; have := fits3 h; unfold put14_7_0; omega
theorem vMinZImm (d a i : Nat) : Statement (Instr.vMinZImm d a i) := fun _ h e => by cases e; have := fits3 h; unfold put14_7_0; omega
theorem sMaxZ (d a b : Nat) : Statement (Instr.sMaxZ d a b) := fun _ h e => by cases e; have := fits3 h; unfold put14_7_0; omega
theorem sMaxZImm (d a i : Nat) : Statement (Instr.sMaxZImm d a i) := fun _ h e => by cases e; have := fits3 h; unfold put14_7_0; omega
theorem vMaxZ (d a b : Nat) : Statement (Instr.vMaxZ d a b) := fun _ h e => by cases e; have := fits3 h; unfold put14_7_0; omega
theorem vMaxZImm (d a i : Nat) : Statement (Instr.vMaxZImm d a i) := fun _ h e => by cases e; have := fits3 h; unfold put14_7_0; omega
theorem sAbsdiff (d a b : Nat) : Statement (Instr.sAbsdiff d a b) := fun _ h e => by cases e; have := fits3 h; unfold put14_7_0; omega
theorem sAbsdiffImm (d a i : Nat) : Statement (Instr.sAbsdiffImm d a i) := fun _ h e => by cases e; have := fits3 h; unfold put14_7_0; omega
theorem vAbsdiff (d a b : Nat) : Statement (Instr.vAbsdiff d a b) := fun _ h e => by cases e; have := fits3 h; unfold put14_7_0; omega
theorem vAbsdiffImm (d a i : Nat) : Statement (Instr.vAbsdiffImm d a i) := fun _ h e => by cases e; have := fits3 h; unfold put14_7_0; omega
theorem sAddsatS (d a b : Nat) : Statement (Instr.sAddsatS d a b) := fun _ h e => by cases e; have := fits3 h; unfold put14_7_0; omega
theorem sAddsatSImm (d a i : Nat) : Statement (Instr.sAddsatSImm d a i) := fun _ h e => by cases e; have := fits3 h; unfold put14_7_0; omega
theorem vAddsatS (d a b : Nat) : Statement (Instr.vAddsatS d a b) := fun _ h e => by cases e; have := fits3 h; unfold put14_7_0; omega
theorem vAddsatSImm (d a i : Nat) : Statement (Instr.vAddsatSImm d a i) := fun _ h e => by cases e; have := fits3 h; unfold put14_7_0; omega
theorem sSubsatS (d a b : Nat) : Statement (Instr.sSubsatS d a b) := fun _ h e => by cases e; have := fits3 h; unfold put14_7_0; omega
theorem sSubsatSImm (d a i : Nat) : Statement (Instr.sSubsatSImm d a i) := fun _ h e => by cases e; have := fits3 h; unfold put14_7_0; omega
theorem vSubsatS (d a b : Nat) : Statement (Instr.vSubsatS d a b) := fun _ h e => by cases e; have := fits3 h; unfold put14_7_0; omega
theorem vSubsatSImm (d a i : Nat) : Statement (Instr.vSubsatSImm d a i) := fun _ h e => by cases e; have := fits3 h; unfold put14_7_0; omega
theorem sAvgZ (d a b : Nat) : Statement (Instr.sAvgZ d a b) := fun _ h e => by cases e; have := fits3 h; unfold put14_7_0; omega
theorem sAvgZImm (d a i : Nat) : Statement (Instr.sAvgZImm d a i) := fun _ h e => by cases e; have := fits3 h; unfold put14_7_0; omega
theorem vAvgZ (d a b : Nat) : Statement (Instr.vAvgZ d a b) := fun _ h e => by cases e; have := fits3 h; unfold put14_7_0; omega
theorem vAvgZImm (d a i : Nat) : Statement (Instr.vAvgZImm d a i) := fun _ h e => by cases e; have := fits3 h; unfold put14_7_0; omega
theorem sAnd (d a b : Nat) : Statement (Instr.sAnd d a b) := fun _ h e => by cases e; have := fits3 h; unfold put14_7_0; omega
theorem sAndImm (d a i : Nat) : Statement (Instr.sAndImm d a i) := fun _ h e => by cases e; have := fits3 h; unfold put14_7_0; omega
theorem vAnd (d a b : Nat) : Statement (Instr.vAnd d a b) := fun _ h e => by cases e; have := fits3 h; unfold put14_7_0; omega
theorem vAndImm (d a i : Nat) : Statement (Instr.vAndImm d a i) := fun _ h e => by cases e; have := fits3 h; unfold put14_7_0; omega
theorem sOr (d a b : Nat) : Statement (Instr.sOr d a b) := fun _ h e => by cases e; have := fits3 h; unfold put14_7_0; omega
theorem sOrImm (d a i : Nat) : Statement (Instr.sOrImm d a i) := fun _ h e => by cases e; have := fits3 h; unfold put14_7_0; omega
theorem vOr (d a b : Nat) : Statement (Instr.vOr d a b) := fun _ h e => by cases e; have := fits3 h; unfold put14_7_0; omega
theorem vOrImm (d a i : Nat) : Statement (Instr.vOrImm d a i) := fun _ h e => by cases e; have := fits3 h; unfold put14_7_0; omega
theorem sXor (d a b : Nat) : Statement (Instr.sXor d a b) := fun _ h e => by cases e; have := fits3 h; unfold put14_7_0; omega
theorem sXorImm (d a i : Nat) : Statement (Instr.sXorImm d a i) := fun _ h e => by cases e; have := fits3 h; unfold put14_7_0; omega
theorem vXor (d a b : Nat) : Statement (Instr.vXor d a b) := fun _ h e => by cases e; have := fits3 h; unfold put14_7_0; omega
theorem vXorImm (d a i : Nat) : Statement (Instr.vXorImm d a i) := fun _ h e => by cases e; have := fits3 h; unfold put14_7_0; omega
theorem sAndn (d a b : Nat) : Statement (Instr.sAndn d a b) := fun _ h e => by cases e; have := fits3 h; unfold put14_7_0; omega
theorem sAndnImm (d a i : Nat) : Statement (Instr.sAndnImm d a i) := fun _ h e => by cases e; have := fits3 h; unfold put14_7_0; omega
theorem vAndn (d a b : Nat) : Statement (Instr.vAndn d a b) := fun _ h e => by cases e; have := fits3 h; unfold put14_7_0; omega
theorem vAndnImm (d a i : Nat) : Statement (Instr.vAndnImm d a i) := fun _ h e => by cases e; have := fits3 h; unfold put14_7_0; omega
theorem sOrn (d a b : Nat) : Statement (Instr.sOrn d a b) := fun _ h e => by cases e; have := fits3 h; unfold put14_7_0; omega
theorem sOrnImm (d a i : Nat) : Statement (Instr.sOrnImm d a i) := fun _ h e => by cases e; have := fits3 h; unfold put14_7_0; omega
theorem vOrn (d a b : Nat) : Statement (Instr.vOrn d a b) := fun _ h e => by cases e; have := fits3 h; unfold put14_7_0; omega
theorem vOrnImm (d a i : Nat) : Statement (Instr.vOrnImm d a i) := fun _ h e => by cases e; have := fits3 h; unfold put14_7_0; omega
theorem sXnor (d a b : Nat) : Statement (Instr.sXnor d a b) := fun _ h e => by cases e; have := fits3 h; unfold put14_7_0; omega
theorem sXnorImm (d a i : Nat) : Statement (Instr.sXnorImm d a i) := fun _ h e => by cases e; have := fits3 h; unfold put14_7_0; omega
theorem vXnor (d a b : Nat) : Statement (Instr.vXnor d a b) := fun _ h e => by cases e; have := fits3 h; unfold put14_7_0; omega
theorem vXnorImm (d a i : Nat) : Statement (Instr.vXnorImm d a i) := fun _ h e => by cases e; have := fits3 h; unfold put14_7_0; omega
theorem sShl (d a b : Nat) : Statement (Instr.sShl d a b) := fun _ h e => by cases e; have := fits3 h; unfold put14_7_0; omega
theorem sShlImm (d a i : Nat) : Statement (Instr.sShlImm d a i) := fun _ h e => by cases e; have := fits3 h; unfold put14_7_0; omega
theorem vShl (d a b : Nat) : Statement (Instr.vShl d a b) := fun _ h e => by cases e; have := fits3 h; unfold put14_7_0; omega
theorem vShlImm (d a i : Nat) : Statement (Instr.vShlImm d a i) := fun _ h e => by cases e; have := fits3 h; unfold put14_7_0; omega
theorem sShr (d a b : Nat) : Statement (Instr.sShr d a b) := fun _ h e => by cases e; have := fits3 h; unfold put14_7_0; omega
theorem sShrImm (d a i : Nat) : Statement (Instr.sShrImm d a i) := fun _ h e => by cases e; have := fits3 h; unfold put14_7_0; omega
theorem vShr (d a b : Nat) : Statement (Instr.vShr d a b) := fun _ h e => by cases e; have := fits3 h; unfold put14_7_0; omega
theorem vShrImm (d a i : Nat) : Statement (Instr.vShrImm d a i) := fun _ h e => by cases e; have := fits3 h; unfold put14_7_0; omega
theorem sSar (d a b : Nat) : Statement (Instr.sSar d a b) := fun _ h e => by cases e; have := fits3 h; unfold put14_7_0; omega
theorem sSarImm (d a i : Nat) : Statement (Instr.sSarImm d a i) := fun _ h e => by cases e; have := fits3 h; unfold put14_7_0; omega
theorem vSar (d a b : Nat) : Statement (Instr.vSar d a b) := fun _ h e => by cases e; have := fits3 h; unfold put14_7_0; omega
theorem vSarImm (d a i : Nat) : Statement (Instr.vSarImm d a i) := fun _ h e => by cases e; have := fits3 h; unfold put14_7_0; omega
theorem sRotl (d a b : Nat) : Statement (Instr.sRotl d a b) := fun _ h e => by cases e; have := fits3 h; unfold put14_7_0; omega
theorem sRotlImm (d a i : Nat) : Statement (Instr.sRotlImm d a i) := fun _ h e => by cases e; have := fits3 h; unfold put14_7_0; omega
theorem vRotl (d a b : Nat) : Statement (Instr.vRotl d a b) := fun _ h e => by cases e; have := fits3 h; unfold put14_7_0; omega
theorem vRotlImm (d a i : Nat) : Statement (Instr.vRotlImm d a i) := fun _ h e => by cases e; have := fits3 h; unfold put14_7_0; omega
theorem sRotr (d a b : Nat) : Statement (Instr.sRotr d a b) := fun _ h e => by cases e; have := fits3 h; unfold put14_7_0; omega
theorem sRotrImm (d a i : Nat) : Statement (Instr.sRotrImm d a i) := fun _ h e => by cases e; have := fits3 h; unfold put14_7_0; omega
theorem vRotr (d a b : Nat) : Statement (Instr.vRotr d a b) := fun _ h e => by cases e; have := fits3 h; unfold put14_7_0; omega
theorem vRotrImm (d a i : Nat) : Statement (Instr.vRotrImm d a i) := fun _ h e => by cases e; have := fits3 h; unfold put14_7_0; omega
theorem sClz (d a : Nat) : Statement (Instr.sClz d a) := fun _ h e => by cases e; have := fits2 h; unfold put14_7; omega
theorem vClz (d a : Nat) : Statement (Instr.vClz d a) := fun _ h e => by cases e; have := fits2 h; unfold put14_7; omega
theorem sPopc (d a : Nat) : Statement (Instr.sPopc d a) := fun _ h e => by cases e; have := fits2 h; unfold put14_7; omega
theorem vPopc (d a : Nat) : Statement (Instr.vPopc d a) := fun _ h e => by cases e; have := fits2 h; unfold put14_7; omega
theorem sBrev (d a : Nat) : Statement (Instr.sBrev d a) := fun _ h e => by cases e; have := fits2 h; unfold put14_7; omega
theorem vBrev (d a : Nat) : Statement (Instr.vBrev d a) := fun _ h e => by cases e; have := fits2 h; unfold put14_7; omega
theorem sMov (d a : Nat) : Statement (Instr.sMov d a) := fun _ h e => by cases e; have := fits2 h; unfold put14_7; omega
theorem sMovImm (d i : Nat) : Statement (Instr.sMovImm d i) := fun _ h e => by cases e; have := fits2 h; unfold put14_0; omega
theorem vMov (d a : Nat) : Statement (Instr.vMov d a) := fun _ h e => by cases e; have := fits2 h; unfold put14_7; omega
theorem vMovImm (d i : Nat) : Statement (Instr.vMovImm d i) := fun _ h e => by cases e; have := fits2 h; unfold put14_0; omega
theorem sNot (d a : Nat) : Statement (Instr.sNot d a) := fun _ h e => by cases e; have := fits2 h; unfold put14_7; omega
theorem vNot (d a : Nat) : Statement (Instr.vNot d a) := fun _ h e => by cases e; have := fits2 h; unfold put14_7; omega
theorem sBfeS (d a b : Nat) : Statement (Instr.sBfeS d a b) := fun _ h e => by cases e; have := fits3 h; unfold put14_7_0; omega
theorem vBfeS (d a b : Nat) : Statement (Instr.vBfeS d a b) := fun _ h e => by cases e; have := fits3 h; unfold put14_7_0; omega
theorem sBfeZ (d a b : Nat) : Statement (Instr.sBfeZ d a b) := fun _ h e => by cases e; have := fits3 h; unfold put14_7_0; omega
theorem vBfeZ (d a b : Nat) : Statement (Instr.vBfeZ d a b) := fun _ h e => by cases e; have := fits3 h; unfold put14_7_0; omega
theorem sBfi (d a b : Nat) : Statement (Instr.sBfi d a b) := fun _ h e => by cases e; have := fits3 h; unfold put14_7_0; omega
theorem vBfi (d a b : Nat) : Statement (Instr.vBfi d a b) := fun _ h e => by cases e; have := fits3 h; unfold put14_7_0; omega
theorem sPrmt (d a b : Nat) : Statement (Instr.sPrmt d a b) := fun _ h e => by cases e; have := fits3 h; unfold put14_7_0; omega
theorem vPrmt (d a b : Nat) : Statement (Instr.vPrmt d a b) := fun _ h e => by cases e; have := fits3 h; unfold put14_7_0; omega
theorem sAdd64 (d a b : Nat) : Statement (Instr.sAdd64 d a b) := fun _ h e => by cases e; have := fits3 h; unfold put14_7_0; omega
theorem vAdd64 (d a b : Nat) : Statement (Instr.vAdd64 d a b) := fun _ h e => by cases e; have := fits3 h; unfold put14_7_0; omega
theorem sSub64 (d a b : Nat) : Statement (Instr.sSub64 d a b) := fun _ h e => by cases e; have := fits3 h; unfold put14_7_0; omega
theorem vSub64 (d a b : Nat) : Statement (Instr.vSub64 d a b) := fun _ h e => by cases e; have := fits3 h; unfold put14_7_0; omega
theorem sShl64 (d a b : Nat) : Statement (Instr.sShl64 d a b) := fun _ h e => by cases e; have := fits3 h; unfold put14_7_0; omega
theorem vShl64 (d a b : Nat) : Statement (Instr.vShl64 d a b) := fun _ h e => by cases e; have := fits3 h; unfold put14_7_0; omega
theorem sShr64 (d a b : Nat) : Statement (Instr.sShr64 d a b) := fun _ h e => by cases e; have := fits3 h; unfold put14_7_0; omega
theorem vShr64 (d a b : Nat) : Statement (Instr.vShr64 d a b) := fun _ h e => by cases e; have := fits3 h; unfold put14_7_0; omega
theorem sSar64 (d a b : Nat) : Statement (Instr.sSar64 d a b) := fun _ h e => by cases e; have := fits3 h; unfold put14_7_0; omega
theorem vSar64 (d a b : Nat) : Statement (Instr.vSar64 d a b) := fun _ h e => by cases e; have := fits3 h; unfold put14_7_0; omega
theorem sMul64lo (d a b : Nat) : Statement (Instr.sMul64lo d a b) := fun _ h e => by cases e; have := fits3 h; unfold put14_7_0; omega
theorem vMul64lo (d a b : Nat) : Statement (Instr.vMul64lo d a b) := fun _ h e => by cases e; have := fits3 h; unfold put14_7_0; omega
theorem sMovi (d i : Nat) : Statement (Instr.sMovi d i) := fun _ h e => by cases e; have := fits2 h; unfold put18_0; omega
theorem vMovi (d i : Nat) : Statement (Instr.vMovi d i) := fun _ h e => by cases e; have := fits2 h; unfold put18_0; omega
theorem sFadd (d a b : Nat) : Statement (Instr.sFadd d a b) := fun _ h e => by cases e; have := fits3 h; unfold put14_7_0; omega
theorem vFadd (d a b : Nat) : Statement (Instr.vFadd d a b) := fun _ h e => by cases e; have := fits3 h; unfold put14_7_0; omega
theorem sFsub (d a b : Nat) : Statement (Instr.sFsub d a b) := fun _ h e => by cases e; have := fits3 h; unfold put14_7_0; omega
theorem vFsub (d a b : Nat) : Statement (Instr.vFsub d a b) := fun _ h e => by cases e; have := fits3 h; unfold put14_7_0; omega
theorem sFmul (d a b : Nat) : Statement (Instr.sFmul d a b) := fun _ h e => by cases e; have := fits3 h; unfold put14_7_0; omega
theorem vFmul (d a b : Nat) : Statement (Instr.vFmul d a b) := fun _ h e => by cases e; have := fits3 h; unfold put14_7_0; omega
theorem sFfma (d a b : Nat) : Statement (Instr.sFfma d a b) := fun _ h e => by cases e; have := fits3 h; unfold put14_7_0; omega
theorem vFfma (d a b : Nat) : Statement (Instr.vFfma d a b) := fun _ h e => by cases e; have := fits3 h; unfold put14_7_0; omega
theorem sFmin (d a b : Nat) : Statement (Instr.sFmin d a b) := fun _ h e => by cases e; have := fits3 h; unfold put14_7_0; omega
theorem vFmin (d a b : Nat) : Statement (Instr.vFmin d a b) := fun _ h e => by cases e; have := fits3 h; unfold put14_7_0; omega
theorem sFmax (d a b : Nat) : Statement (Instr.sFmax d a b) := fun _ h e => by cases e; have := fits3 h; unfold put14_7_0; omega
theorem vFmax (d a b : Nat) : Statement (Instr.vFmax d a b) := fun _ h e => by cases e; have := fits3 h; unfold put14_7_0; omega
theorem sFabs (d a : Nat) : Statement (Instr.sFabs d a) := fun _ h e => by cases e; have := fits2 h; unfold put14_7; omega
theorem vFabs (d a : Nat) : Statement (Instr.vFabs d a) := fun _ h e => by cases e; have := fits2 h; unfold put14_7; omega
theorem sFneg (d a : Nat) : Statement (Instr.sFneg d a) := fun _ h e => by cases e; have := fits2 h; unfold put14_7; omega
theorem vFneg (d a : Nat) : Statement (Instr.vFneg d a) := fun _ h e => by cases e; have := fits2 h; unfold put14_7; omega
theorem sFcopysign (d a b : Nat) : Statement (Instr.sFcopysign d a b) := fun _ h e => by cases e; have := fits3 h; unfold put14_7_0; omega
theorem vFcopysign (d a b : Nat) : Statement (Instr.vFcopysign d a b) := fun _ h e => by cases e; have := fits3 h; unfold put14_7_0; omega
theorem sFclass (d a : Nat) : Statement (Instr.sFclass d a) := fun _ h e => by cases e; have := fits2 h; unfold put14_7; omega
theorem vFclass (d a : Nat) : Statement (Instr.vFclass d a) := fun _ h e => by cases e; have := fits2 h; unfold put14_7; omega
theorem sFrcp (d a : Nat) : Statement (Instr.sFrcp d a) := fun _ h e => by cases e; have := fits2 h; unfold put14_7; omega
theorem vFrcp (d a : Nat) : Statement (Instr.vFrcp d a) := fun _ h e => by cases e; have := fits2 h; unfold put14_7; omega
theorem sFrsq (d a : Nat) : Statement (Instr.sFrsq d a) := fun _ h e => by cases e; have := fits2 h; unfold put14_7; omega
theorem vFrsq (d a : Nat) : Statement (Instr.vFrsq d a) := fun _ h e => by cases e; have := fits2 h; unfold put14_7; omega
theorem sFsqrt (d a : Nat) : Statement (Instr.sFsqrt d a) := fun _ h e => by cases e; have := fits2 h; unfold put14_7; omega
theorem vFsqrt (d a : Nat) : Statement (Instr.vFsqrt d a) := fun _ h e => by cases e; have := fits2 h; unfold put14_7; omega
theorem sFexp2 (d a : Nat) : Statement (Instr.sFexp2 d a) := fun _ h e => by cases e; have := fits2 h; unfold put14_7; omega
theorem vFexp2 (d a : Nat) : Statement (Instr.vFexp2 d a) := fun _ h e => by cases e; have := fits2 h; unfold put14_7; omega
theorem sFlog2 (d a : Nat) : Statement (Instr.sFlog2 d a) := fun _ h e => by cases e; have := fits2 h; unfold put14_7; omega
theorem vFlog2 (d a : Nat) : Statement (Instr.vFlog2 d a) := fun _ h e => by cases e; have := fits2 h; unfold put14_7; omega
theorem sFsinpi (d a : Nat) : Statement (Instr.sFsinpi d a) := fun _ h e => by cases e; have := fits2 h; unfold put14_7; omega
theorem vFsinpi (d a : Nat) : Statement (Instr.vFsinpi d a) := fun _ h e => by cases e; have := fits2 h; unfold put14_7; omega
theorem sFcospi (d a : Nat) : Statement (Instr.sFcospi d a) := fun _ h e => by cases e; have := fits2 h; unfold put14_7; omega
theorem vFcospi (d a : Nat) : Statement (Instr.vFcospi d a) := fun _ h e => by cases e; have := fits2 h; unfold put14_7; omega
theorem sFtanh (d a : Nat) : Statement (Instr.sFtanh d a) := fun _ h e => by cases e; have := fits2 h; unfold put14_7; omega
theorem vFtanh (d a : Nat) : Statement (Instr.vFtanh d a) := fun _ h e => by cases e; have := fits2 h; unfold put14_7; omega
theorem sFrintNe (d a : Nat) : Statement (Instr.sFrintNe d a) := fun _ h e => by cases e; have := fits2 h; unfold put14_7; omega
theorem vFrintNe (d a : Nat) : Statement (Instr.vFrintNe d a) := fun _ h e => by cases e; have := fits2 h; unfold put14_7; omega
theorem sFrintZ (d a : Nat) : Statement (Instr.sFrintZ d a) := fun _ h e => by cases e; have := fits2 h; unfold put14_7; omega
theorem vFrintZ (d a : Nat) : Statement (Instr.vFrintZ d a) := fun _ h e => by cases e; have := fits2 h; unfold put14_7; omega
theorem sFrintDn (d a : Nat) : Statement (Instr.sFrintDn d a) := fun _ h e => by cases e; have := fits2 h; unfold put14_7; omega
theorem vFrintDn (d a : Nat) : Statement (Instr.vFrintDn d a) := fun _ h e => by cases e; have := fits2 h; unfold put14_7; omega
theorem sFrintUp (d a : Nat) : Statement (Instr.sFrintUp d a) := fun _ h e => by cases e; have := fits2 h; unfold put14_7; omega
theorem vFrintUp (d a : Nat) : Statement (Instr.vFrintUp d a) := fun _ h e => by cases e; have := fits2 h; unfold put14_7; omega
theorem sFaddF16x2 (d a b : Nat) : Statement (Instr.sFaddF16x2 d a b) := fun _ h e => by cases e; have := fits3 h; unfold put14_7_0; omega
theorem vFaddF16x2 (d a b : Nat) : Statement (Instr.vFaddF16x2 d a b) := fun _ h e => by cases e; have := fits3 h; unfold put14_7_0; omega
theorem sFsubF16x2 (d a b : Nat) : Statement (Instr.sFsubF16x2 d a b) := fun _ h e => by cases e; have := fits3 h; unfold put14_7_0; omega
theorem vFsubF16x2 (d a b : Nat) : Statement (Instr.vFsubF16x2 d a b) := fun _ h e => by cases e; have := fits3 h; unfold put14_7_0; omega
theorem sFmulF16x2 (d a b : Nat) : Statement (Instr.sFmulF16x2 d a b) := fun _ h e => by cases e; have := fits3 h; unfold put14_7_0; omega
theorem vFmulF16x2 (d a b : Nat) : Statement (Instr.vFmulF16x2 d a b) := fun _ h e => by cases e; have := fits3 h; unfold put14_7_0; omega
theorem sFfmaF16x2 (d a b : Nat) : Statement (Instr.sFfmaF16x2 d a b) := fun _ h e => by cases e; have := fits3 h; unfold put14_7_0; omega
theorem vFfmaF16x2 (d a b : Nat) : Statement (Instr.vFfmaF16x2 d a b) := fun _ h e => by cases e; have := fits3 h; unfold put14_7_0; omega
theorem sFminF16x2 (d a b : Nat) : Statement (Instr.sFminF16x2 d a b) := fun _ h e => by cases e; have := fits3 h; unfold put14_7_0; omega
theorem vFminF16x2 (d a b : Nat) : Statement (Instr.vFminF16x2 d a b) := fun _ h e => by cases e; have := fits3 h; unfold put14_7_0; omega
theorem sFmaxF16x2 (d a b : Nat) : Statement (Instr.sFmaxF16x2 d a b) := fun _ h e => by cases e; have := fits3 h; unfold put14_7_0; omega
theorem vFmaxF16x2 (d a b : Nat) : Statement (Instr.vFmaxF16x2 d a b) := fun _ h e => by cases e; have := fits3 h; unfold put14_7_0; omega
theorem sFaddBf16x2 (d a b : Nat) : Statement (Instr.sFaddBf16x2 d a b) := fun _ h e => by cases e; have := fits3 h; unfold put14_7_0; omega
theorem vFaddBf16x2 (d a b : Nat) : Statement (Instr.vFaddBf16x2 d a b) := fun _ h e => by cases e; have := fits3 h; unfold put14_7_0; omega
theorem sFsubBf16x2 (d a b : Nat) : Statement (Instr.sFsubBf16x2 d a b) := fun _ h e => by cases e; have := fits3 h; unfold put14_7_0; omega
theorem vFsubBf16x2 (d a b : Nat) : Statement (Instr.vFsubBf16x2 d a b) := fun _ h e => by cases e; have := fits3 h; unfold put14_7_0; omega
theorem sFmulBf16x2 (d a b : Nat) : Statement (Instr.sFmulBf16x2 d a b) := fun _ h e => by cases e; have := fits3 h; unfold put14_7_0; omega
theorem vFmulBf16x2 (d a b : Nat) : Statement (Instr.vFmulBf16x2 d a b) := fun _ h e => by cases e; have := fits3 h; unfold put14_7_0; omega
theorem sFfmaBf16x2 (d a b : Nat) : Statement (Instr.sFfmaBf16x2 d a b) := fun _ h e => by cases e; have := fits3 h; unfold put14_7_0; omega
theorem vFfmaBf16x2 (d a b : Nat) : Statement (Instr.vFfmaBf16x2 d a b) := fun _ h e => by cases e; have := fits3 h; unfold put14_7_0; omega
theorem sFminBf16x2 (d a b : Nat) : Statement (Instr.sFminBf16x2 d a b) := fun _ h e => by cases e; have := fits3 h; unfold put14_7_0; omega
theorem vFminBf16x2 (d a b : Nat) : Statement (Instr.vFminBf16x2 d a b) := fun _ h e => by cases e; have := fits3 h; unfold put14_7_0; omega
theorem sFmaxBf16x2 (d a b : Nat) : Statement (Instr.sFmaxBf16x2 d a b) := fun _ h e => by cases e; have := fits3 h; unfold put14_7_0; omega
theorem vFmaxBf16x2 (d a b : Nat) : Statement (Instr.vFmaxBf16x2 d a b) := fun _ h e => by cases e; have := fits3 h; unfold put14_7_0; omega
theorem sCvt (f d a s t : Nat) : Statement (Instr.sCvt f d a s t) := fun _ h e => by cases e; have := fits5 h; unfold put21_14_7_3_2; omega
theorem vCvt (f d a s t : Nat) : Statement (Instr.vCvt f d a s t) := fun _ h e => by cases e; have := fits5 h; unfold put21_14_7_3_2; omega
theorem sCmp (k t m a b : Nat) : Statement (Instr.sCmp k t m a b) := fun _ h e => by cases e; have := fits5 h; unfold put21_18_14_7_0; omega
theorem vCmp (k t m a b : Nat) : Statement (Instr.vCmp k t m a b) := fun _ h e => by cases e; have := fits5 h; unfold put21_18_14_7_0; omega
theorem sFcmp (k t m a b : Nat) : Statement (Instr.sFcmp k t m a b) := fun _ h e => by cases e; have := fits5 h; unfold put21_18_14_7_0; omega
theorem vFcmp (k t m a b : Nat) : Statement (Instr.vFcmp k t m a b) := fun _ h e => by cases e; have := fits5 h; unfold put21_18_14_7_0; omega
theorem sSel (k d a b : Nat) : Statement (Instr.sSel k d a b) := fun _ h e => by cases e; have := fits4 h; unfold put22_14_7_0; omega
theorem vSel (k d a b : Nat) : Statement (Instr.vSel k d a b) := fun _ h e => by cases e; have := fits4 h; unfold put22_14_7_0; omega
theorem sPget (d : Nat) : Statement (Instr.sPget d) := fun _ h e => by cases e; have := fits1 h; unfold put14; omega
theorem vPget (d : Nat) : Statement (Instr.vPget d) := fun _ h e => by cases e; have := fits1 h; unfold put14; omega
theorem vPpop (n : Nat) : Statement (Instr.vPpop n) := fun _ h e => by cases e; have := fits1 h; unfold put18; omega
theorem vPdup (k : Nat) : Statement (Instr.vPdup k) := fun _ h e => by cases e; have := fits1 h; unfold put18; omega
theorem vPand (k : Nat) : Statement (Instr.vPand k) := fun _ h e => by cases e; have := fits1 h; unfold put18; omega
theorem vPor (k : Nat) : Statement (Instr.vPor k) := fun _ h e => by cases e; have := fits1 h; unfold put18; omega
theorem vPxor (k : Nat) : Statement (Instr.vPxor k) := fun _ h e => by cases e; have := fits1 h; unfold put18; omega
theorem vPnot (k : Nat) : Statement (Instr.vPnot k) := fun _ h e => by cases e; have := fits1 h; unfold put18; omega
theorem vPswap (k : Nat) : Statement (Instr.vPswap k) := fun _ h e => by cases e; have := fits1 h; unfold put18; omega
theorem vPpush (b : Nat) : Statement (Instr.vPpush b) := fun _ h e => by cases e; have := fits1 h; unfold put0; omega
theorem vPset (b : Nat) : Statement (Instr.vPset b) := fun _ h e => by cases e; have := fits1 h; unfold put0; omega
theorem vShflIdx (d a b : Nat) : Statement (Instr.vShflIdx d a b) := fun _ h e => by cases e; have := fits3 h; unfold put14_7_0; omega
theorem vShflUp (d a b : Nat) : Statement (Instr.vShflUp d a b) := fun _ h e => by cases e; have := fits3 h; unfold put14_7_0; omega
theorem vShflDown (d a b : Nat) : Statement (Instr.vShflDown d a b) := fun _ h e => by cases e; have := fits3 h; unfold put14_7_0; omega
theorem vShflXor (d a b : Nat) : Statement (Instr.vShflXor d a b) := fun _ h e => by cases e; have := fits3 h; unfold put14_7_0; omega
theorem vBcast (d a b : Nat) : Statement (Instr.vBcast d a b) := fun _ h e => by cases e; have := fits3 h; unfold put14_7_0; omega
theorem vVoteBallot (d a : Nat) : Statement (Instr.vVoteBallot d a) := fun _ h e => by cases e; have := fits2 h; unfold put14_7; omega
theorem vReduxAdd (d a t : Nat) : Statement (Instr.vReduxAdd d a t) := fun _ h e => by cases e; have := fits3 h; unfold put14_7_0; omega
theorem vReduxMin (d a t : Nat) : Statement (Instr.vReduxMin d a t) := fun _ h e => by cases e; have := fits3 h; unfold put14_7_0; omega
theorem vReduxMax (d a t : Nat) : Statement (Instr.vReduxMax d a t) := fun _ h e => by cases e; have := fits3 h; unfold put14_7_0; omega
theorem vScanIncl (d a t : Nat) : Statement (Instr.vScanIncl d a t) := fun _ h e => by cases e; have := fits3 h; unfold put14_7_0; omega
theorem vScanExcl (d a t : Nat) : Statement (Instr.vScanExcl d a t) := fun _ h e => by cases e; have := fits3 h; unfold put14_7_0; omega
theorem vMatch (d a : Nat) : Statement (Instr.vMatch d a) := fun _ h e => by cases e; have := fits2 h; unfold put14_7; omega
theorem vIsect (d a b : Nat) : Statement (Instr.vIsect d a b) := fun _ h e => by cases e; have := fits3 h; unfold put14_7_0; omega
theorem sMovx (d i k : Nat) : Statement (Instr.sMovx d i k) := fun _ h e => by cases e; have := fits3 h; unfold put14_7_0; omega
theorem vMovx (d i k : Nat) : Statement (Instr.vMovx d i k) := fun _ h e => by cases e; have := fits3 h; unfold put14_7_0; omega
theorem sMovxw (s i k : Nat) : Statement (Instr.sMovxw s i k) := fun _ h e => by cases e; have := fits3 h; unfold put14_7_0; omega
theorem vMovxw (s i k : Nat) : Statement (Instr.vMovxw s i k) := fun _ h e => by cases e; have := fits3 h; unfold put14_7_0; omega
theorem mLd (z d a o : Nat) : Statement (Instr.mLd z d a o) := fun _ h e => by cases e; have := fits4 h; unfold put22_15_8_0; omega
theorem mLdPr (z d a o : Nat) : Statement (Instr.mLdPr z d a o) := fun _ h e => by cases e; have := fits4 h; unfold put22_15_8_0; omega
theorem mLdAcq (z d a o : Nat) : Statement (Instr.mLdAcq z d a o) := fun _ h e => by cases e; have := fits4 h; unfold put22_15_8_0; omega
theorem mLdu (z d a o : Nat) : Statement (Instr.mLdu z d a o) := fun _ h e => by cases e; have := fits4 h; unfold put22_15_8_0; omega
theorem mSt (z d a o : Nat) : Statement (Instr.mSt z d a o) := fun _ h e => by cases e; have := fits4 h; unfold put22_15_8_0; omega
theorem mStRel (z d a o : Nat) : Statement (Instr.mStRel z d a o) := fun _ h e => by cases e; have := fits4 h; unfold put22_15_8_0; omega
theorem mAtomAddS32 (d a b : Nat) : Statement (Instr.mAtomAddS32 d a b) := fun _ h e => by cases e; have := fits3 h; unfold put14_7_0; omega
theorem mAtomAndB32 (d a b : Nat) : Statement (Instr.mAtomAndB32 d a b) := fun _ h e => by cases e; have := fits3 h; unfold put14_7_0; omega
theorem mAtomOrB32 (d a b : Nat) : Statement (Instr.mAtomOrB32 d a b) := fun _ h e => by cases e; have := fits3 h; unfold put14_7_0; omega
theorem mAtomXorB32 (d a b : Nat) : Statement (Instr.mAtomXorB32 d a b) := fun _ h e => by cases e; have := fits3 h; unfold put14_7_0; omega
theorem mAtomMinS32 (d a b : Nat) : Statement (Instr.mAtomMinS32 d a b) := fun _ h e => by cases e; have := fits3 h; unfold put14_7_0; omega
theorem mAtomMaxS32 (d a b : Nat) : Statement (Instr.mAtomMaxS32 d a b) := fun _ h e => by cases e; have := fits3 h; unfold put14_7_0; omega
theorem mAtomMinZ32 (d a b : Nat) : Statement (Instr.mAtomMinZ32 d a b) := fun _ h e => by cases e; have := fits3 h; unfold put14_7_0; omega
theorem mAtomMaxZ32 (d a b : Nat) : Statement (Instr.mAtomMaxZ32 d a b) := fun _ h e => by cases e; have := fits3 h; unfold put14_7_0; omega
theorem mAtomExchB32 (d a b : Nat) : Statement (Instr.mAtomExchB32 d a b) := fun _ h e => by cases e; have := fits3 h; unfold put14_7_0; omega
theorem mAtomAddS64 (d a b : Nat) : Statement (Instr.mAtomAddS64 d a b) := fun _ h e => by cases e; have := fits3 h; unfold put14_7_0; omega
theorem mAtomAndB64 (d a b : Nat) : Statement (Instr.mAtomAndB64 d a b) := fun _ h e => by cases e; have := fits3 h; unfold put14_7_0; omega
theorem mAtomOrB64 (d a b : Nat) : Statement (Instr.mAtomOrB64 d a b) := fun _ h e => by cases e; have := fits3 h; unfold put14_7_0; omega
theorem mAtomXorB64 (d a b : Nat) : Statement (Instr.mAtomXorB64 d a b) := fun _ h e => by cases e; have := fits3 h; unfold put14_7_0; omega
theorem mAtomMinS64 (d a b : Nat) : Statement (Instr.mAtomMinS64 d a b) := fun _ h e => by cases e; have := fits3 h; unfold put14_7_0; omega
theorem mAtomMaxS64 (d a b : Nat) : Statement (Instr.mAtomMaxS64 d a b) := fun _ h e => by cases e; have := fits3 h; unfold put14_7_0; omega
theorem mAtomMinZ64 (d a b : Nat) : Statement (Instr.mAtomMinZ64 d a b) := fun _ h e => by cases e; have := fits3 h; unfold put14_7_0; omega
theorem mAtomMaxZ64 (d a b : Nat) : Statement (Instr.mAtomMaxZ64 d a b) := fun _ h e => by cases e; have := fits3 h; unfold put14_7_0; omega
theorem mAtomExchB64 (d a b : Nat) : Statement (Instr.mAtomExchB64 d a b) := fun _ h e => by cases e; have := fits3 h; unfold put14_7_0; omega
theorem mAtomAddF32 (d a b : Nat) : Statement (Instr.mAtomAddF32 d a b) := fun _ h e => by cases e; have := fits3 h; unfold put14_7_0; omega
theorem mAtomMinF32 (d a b : Nat) : Statement (Instr.mAtomMinF32 d a b) := fun _ h e => by cases e; have := fits3 h; unfold put14_7_0; omega
theorem mAtomMaxF32 (d a b : Nat) : Statement (Instr.mAtomMaxF32 d a b) := fun _ h e => by cases e; have := fits3 h; unfold put14_7_0; omega
theorem mAtomAddF16x2 (d a b : Nat) : Statement (Instr.mAtomAddF16x2 d a b) := fun _ h e => by cases e; have := fits3 h; unfold put14_7_0; omega
theorem mAtomAddBf16x2 (d a b : Nat) : Statement (Instr.mAtomAddBf16x2 d a b) := fun _ h e => by cases e; have := fits3 h; unfold put14_7_0; omega
theorem mRedAddS32 (a b : Nat) : Statement (Instr.mRedAddS32 a b) := fun _ h e => by cases e; have := fits2 h; unfold put7_0; omega
theorem mRedAddS64 (a b : Nat) : Statement (Instr.mRedAddS64 a b) := fun _ h e => by cases e; have := fits2 h; unfold put7_0; omega
theorem mRedAddF32 (a b : Nat) : Statement (Instr.mRedAddF32 a b) := fun _ h e => by cases e; have := fits2 h; unfold put7_0; omega
theorem mRedMinS32 (a b : Nat) : Statement (Instr.mRedMinS32 a b) := fun _ h e => by cases e; have := fits2 h; unfold put7_0; omega
theorem mRedMaxS32 (a b : Nat) : Statement (Instr.mRedMaxS32 a b) := fun _ h e => by cases e; have := fits2 h; unfold put7_0; omega
theorem mRedMinZ32 (a b : Nat) : Statement (Instr.mRedMinZ32 a b) := fun _ h e => by cases e; have := fits2 h; unfold put7_0; omega
theorem mRedMaxZ32 (a b : Nat) : Statement (Instr.mRedMaxZ32 a b) := fun _ h e => by cases e; have := fits2 h; unfold put7_0; omega
theorem mRedAndB32 (a b : Nat) : Statement (Instr.mRedAndB32 a b) := fun _ h e => by cases e; have := fits2 h; unfold put7_0; omega
theorem mRedOrB32 (a b : Nat) : Statement (Instr.mRedOrB32 a b) := fun _ h e => by cases e; have := fits2 h; unfold put7_0; omega
theorem mRedXorB32 (a b : Nat) : Statement (Instr.mRedXorB32 a b) := fun _ h e => by cases e; have := fits2 h; unfold put7_0; omega
theorem mRedMinF32 (a b : Nat) : Statement (Instr.mRedMinF32 a b) := fun _ h e => by cases e; have := fits2 h; unfold put7_0; omega
theorem mRedMaxF32 (a b : Nat) : Statement (Instr.mRedMaxF32 a b) := fun _ h e => by cases e; have := fits2 h; unfold put7_0; omega
theorem mRedAddF16x2 (a b : Nat) : Statement (Instr.mRedAddF16x2 a b) := fun _ h e => by cases e; have := fits2 h; unfold put7_0; omega
theorem mRedAddBf16x2 (a b : Nat) : Statement (Instr.mRedAddBf16x2 a b) := fun _ h e => by cases e; have := fits2 h; unfold put7_0; omega
theorem mCasB32 (d a b : Nat) : Statement (Instr.mCasB32 d a b) := fun _ h e => by cases e; have := fits3 h; unfold put14_7_0; omega
theorem mCasB64 (d a b : Nat) : Statement (Instr.mCasB64 d a b) := fun _ h e => by cases e; have := fits3 h; unfold put14_7_0; omega
theorem mFenceAcq (s : Nat) : Statement (Instr.mFenceAcq s) := fun _ h e => by cases e; have := fits1 h; unfold put22; omega
theorem mFenceRel (s : Nat) : Statement (Instr.mFenceRel s) := fun _ h e => by cases e; have := fits1 h; unfold put22; omega
theorem mFenceFull (s : Nat) : Statement (Instr.mFenceFull s) := fun _ h e => by cases e; have := fits1 h; unfold put22; omega
theorem mMwait (o a b : Nat) : Statement (Instr.mMwait o a b) := fun _ h e => by cases e; have := fits3 h; unfold put21_7_0; omega
theorem mPgreq (a : Nat) : Statement (Instr.mPgreq a) := fun _ h e => by cases e; have := fits1 h; unfold put7; omega
theorem mPgprobe (d a : Nat) : Statement (Instr.mPgprobe d a) := fun _ h e => by cases e; have := fits2 h; unfold put14_7; omega
theorem mPref (a : Nat) : Statement (Instr.mPref a) := fun _ h e => by cases e; have := fits1 h; unfold put7; omega
theorem mTexSample (d a b : Nat) : Statement (Instr.mTexSample d a b) := fun _ h e => by cases e; have := fits3 h; unfold put14_7_0; omega
theorem mTexSampleLod (d a b : Nat) : Statement (Instr.mTexSampleLod d a b) := fun _ h e => by cases e; have := fits3 h; unfold put14_7_0; omega
theorem mTexSampleGrad (d a b : Nat) : Statement (Instr.mTexSampleGrad d a b) := fun _ h e => by cases e; have := fits3 h; unfold put14_7_0; omega
theorem mTexFetch (d a b : Nat) : Statement (Instr.mTexFetch d a b) := fun _ h e => by cases e; have := fits3 h; unfold put14_7_0; omega
theorem mTexGath4 (d a b : Nat) : Statement (Instr.mTexGath4 d a b) := fun _ h e => by cases e; have := fits3 h; unfold put14_7_0; omega
theorem mTexqSize (d a b : Nat) : Statement (Instr.mTexqSize d a b) := fun _ h e => by cases e; have := fits3 h; unfold put14_7_0; omega
theorem mTexqLevels (d a : Nat) : Statement (Instr.mTexqLevels d a) := fun _ h e => by cases e; have := fits2 h; unfold put14_7; omega
theorem mTexqFormat (d a : Nat) : Statement (Instr.mTexqFormat d a) := fun _ h e => by cases e; have := fits2 h; unfold put14_7; omega
theorem eCpy (p t s : Nat) : Statement (Instr.eCpy p t s) := fun _ h e => by cases e; have := fits3 h; unfold put14_8_0; omega
theorem eGath (p t : Nat) : Statement (Instr.eGath p t) := fun _ h e => by cases e; have := fits2 h; unfold put14_8; omega
theorem eScat (o p t : Nat) : Statement (Instr.eScat o p t) := fun _ h e => by cases e; have := fits3 h; unfold put21_14_8; omega
theorem eMma (p : Nat) : Statement (Instr.eMma p) := fun _ h e => by cases e; have := fits1 h; unfold put14; omega
theorem eMsrch (p : Nat) : Statement (Instr.eMsrch p) := fun _ h e => by cases e; have := fits1 h; unfold put14; omega
theorem eQuant (p : Nat) : Statement (Instr.eQuant p) := fun _ h e => by cases e; have := fits1 h; unfold put14; omega
theorem eKselThr (p t : Nat) : Statement (Instr.eKselThr p t) := fun _ h e => by cases e; have := fits2 h; unfold put14_8; omega
theorem eKselTopk (p t : Nat) : Statement (Instr.eKselTopk p t) := fun _ h e => by cases e; have := fits2 h; unfold put14_8; omega
theorem eKgat (p t : Nat) : Statement (Instr.eKgat p t) := fun _ h e => by cases e; have := fits2 h; unfold put14_8; omega
theorem eKsum (p t : Nat) : Statement (Instr.eKsum p t) := fun _ h e => by cases e; have := fits2 h; unfold put14_8; omega
theorem eSpawn (p : Nat) : Statement (Instr.eSpawn p) := fun _ h e => by cases e; have := fits1 h; unfold put14; omega
theorem eSpawnDie (p x : Nat) : Statement (Instr.eSpawnDie p x) := fun _ h e => by cases e; have := fits2 h; unfold put14_0; omega
theorem eEnq (p q : Nat) : Statement (Instr.eEnq p q) := fun _ h e => by cases e; have := fits2 h; unfold put14_0; omega
theorem eSsbld (p t : Nat) : Statement (Instr.eSsbld p t) := fun _ h e => by cases e; have := fits2 h; unfold put14_8; omega
theorem eBind (p k : Nat) : Statement (Instr.eBind p k) := fun _ h e => by cases e; have := fits2 h; unfold put14_0; omega
theorem eEmit (p : Nat) : Statement (Instr.eEmit p) := fun _ h e => by cases e; have := fits1 h; unfold put14; omega
theorem eRelaunch (p : Nat) : Statement (Instr.eRelaunch p) := fun _ h e => by cases e; have := fits1 h; unfold put14; omega
theorem eTdset (p : Nat) : Statement (Instr.eTdset p) := fun _ h e => by cases e; have := fits1 h; unfold put14; omega
theorem cBr (k m o : Nat) : Statement (Instr.cBr k m o) := fun _ h e => by cases e; have := fits3 h; unfold put22_19_0; omega
theorem cCall (j o : Nat) : Statement (Instr.cCall j o) := fun _ h e => by cases e; have := fits2 h; unfold put19_0; omega
theorem cJmp (a : Nat) : Statement (Instr.cJmp a) := fun _ h e => by cases e; have := fits1 h; unfold put7; omega
theorem cCallx (d a : Nat) : Statement (Instr.cCallx d a) := fun _ h e => by cases e; have := fits2 h; unfold put14_7; omega
theorem cRet (a : Nat) : Statement (Instr.cRet a) := fun _ h e => by cases e; have := fits1 h; unfold put7; omega
theorem cWait (l s c x : Nat) : Statement (Instr.cWait l s c x) := fun _ h e => by cases e; have := fits4 h; unfold put19_13_7_1; omega
theorem cTwaitAny (a : Nat) : Statement (Instr.cTwaitAny a) := fun _ h e => by cases e; have := fits1 h; unfold put7; omega
theorem cTwaitAll (a : Nat) : Statement (Instr.cTwaitAll a) := fun _ h e => by cases e; have := fits1 h; unfold put7; omega
theorem cTffs (d a : Nat) : Statement (Instr.cTffs d a) := fun _ h e => by cases e; have := fits2 h; unfold put14_7; omega
theorem cTclr (a : Nat) : Statement (Instr.cTclr a) := fun _ h e => by cases e; have := fits1 h; unfold put7; omega
theorem cBarArrive (s i : Nat) : Statement (Instr.cBarArrive s i) := fun _ h e => by cases e; have := fits2 h; unfold put18_14; omega
theorem cBarWait (s i : Nat) : Statement (Instr.cBarWait s i) := fun _ h e => by cases e; have := fits2 h; unfold put18_14; omega
theorem cBarSync (s i : Nat) : Statement (Instr.cBarSync s i) := fun _ h e => by cases e; have := fits2 h; unfold put18_14; omega
theorem cNop : Statement (Instr.cNop) := fun _ _ e => by cases e; decide
theorem cYield : Statement (Instr.cYield) := fun _ _ e => by cases e; decide
theorem cExit : Statement (Instr.cExit) := fun _ _ e => by cases e; decide
theorem cBrk (b : Nat) : Statement (Instr.cBrk b) := fun _ h e => by cases e; have := fits1 h; unfold put0; omega
theorem cTrap (n : Nat) : Statement (Instr.cTrap n) := fun _ h e => by cases e; have := fits1 h; unfold put0; omega
theorem yGsr (d r : Nat) : Statement (Instr.yGsr d r) := fun _ h e => by cases e; have := fits2 h; unfold put14_7; omega
theorem ySsr (r b : Nat) : Statement (Instr.ySsr r b) := fun _ h e => by cases e; have := fits2 h; unfold put7_0; omega
theorem yResume (a b : Nat) : Statement (Instr.yResume a b) := fun _ h e => by cases e; have := fits2 h; unfold put7_0; omega
theorem yKill (a b : Nat) : Statement (Instr.yKill a b) := fun _ h e => by cases e; have := fits2 h; unfold put7_0; omega
theorem yCtxinfo (d n : Nat) : Statement (Instr.yCtxinfo d n) := fun _ h e => by cases e; have := fits2 h; unfold put14_7; omega
theorem hImm (x : Nat) : Statement (Instr.hImm x) := fun _ h e => by cases e; have := fits1 h; unfold put0; omega
theorem hGuard (k n : Nat) : Statement (Instr.hGuard k n) := fun _ h e => by cases e; have := fits2 h; unfold put18_15; omega
theorem hGuardNot (k n : Nat) : Statement (Instr.hGuardNot k n) := fun _ h e => by cases e; have := fits2 h; unfold put18_15; omega
theorem hSrc3 (c : Nat) : Statement (Instr.hSrc3 c) := fun _ h e => by cases e; have := fits1 h; unfold put14; omega
theorem hReuse (x n : Nat) : Statement (Instr.hReuse x n) := fun _ h e => by cases e; have := fits2 h; unfold put14_0; omega
theorem hLast (x y n : Nat) : Statement (Instr.hLast x y n) := fun _ h e => by cases e; have := fits3 h; unfold put14_7_0; omega
theorem hRnd (m : Nat) : Statement (Instr.hRnd m) := fun _ h e => by cases e; have := fits1 h; unfold put19; omega
theorem hScope (s : Nat) : Statement (Instr.hScope s) := fun _ h e => by cases e; have := fits1 h; unfold put18; omega
theorem hSched (n : Nat) : Statement (Instr.hSched n) := fun _ h e => by cases e; have := fits1 h; unfold put16; omega
theorem hCache (p : Nat) : Statement (Instr.hCache p) := fun _ h e => by cases e; have := fits1 h; unfold put18; omega
theorem loadRetire (op : Nat) (lanes : Nat) : Statement (Instr.loadRetire op lanes) := fun _ _ e => nomatch e
theorem storePerform (op : Nat) (lanes : Nat) : Statement (Instr.storePerform op lanes) := fun _ _ e => nomatch e
theorem atomicPerform (op : Nat) (lanes : Nat) : Statement (Instr.atomicPerform op lanes) := fun _ _ e => nomatch e
theorem reductionPlace (op : Nat) (lanes : Nat) : Statement (Instr.reductionPlace op lanes) := fun _ _ e => nomatch e
theorem updateLineMerge (core : Nat) (line : Nat) : Statement (Instr.updateLineMerge core line) := fun _ _ e => nomatch e
theorem texRetire (op : Nat) : Statement (Instr.texRetire op) := fun _ _ e => nomatch e
theorem waitComplete (warp : Nat) (lane : Nat) : Statement (Instr.waitComplete warp lane) := fun _ _ e => nomatch e
theorem tagSet (op : Nat) : Statement (Instr.tagSet op) := fun _ _ e => nomatch e
theorem tagWaitComplete (warp : Nat) (lane : Nat) : Statement (Instr.tagWaitComplete warp lane) := fun _ _ e => nomatch e
theorem barrierPhaseComplete (bar : Nat) : Statement (Instr.barrierPhaseComplete bar) := fun _ _ e => nomatch e
theorem monitorWake (warp : Nat) (lane : Nat) : Statement (Instr.monitorWake warp lane) := fun _ _ e => nomatch e
theorem monitorReread (warp : Nat) (lane : Nat) : Statement (Instr.monitorReread warp lane) := fun _ _ e => nomatch e
theorem blockSwapOut (block : Nat) (ok : Bool) : Statement (Instr.blockSwapOut block ok) := fun _ _ e => nomatch e
theorem blockSwapIn (block : Nat) : Statement (Instr.blockSwapIn block) := fun _ _ e => nomatch e
theorem scratchRefill (block : Nat) (page : Nat) (ok : Bool) : Statement (Instr.scratchRefill block page ok) := fun _ _ e => nomatch e
theorem pageWaitRetry (warp : Nat) (lane : Nat) : Statement (Instr.pageWaitRetry warp lane) := fun _ _ e => nomatch e
theorem pteChange (ctx : Nat) (level : Nat) (va : Nat) (value : Nat) (frames : List Nat) : Statement (Instr.pteChange ctx level va value frames) := fun _ _ e => nomatch e
theorem residencyPresent (ctx : Nat) (va : Nat) : Statement (Instr.residencyPresent ctx va) := fun _ _ e => nomatch e
theorem residencyRefuse (ctx : Nat) (va : Nat) : Statement (Instr.residencyRefuse ctx va) := fun _ _ e => nomatch e
theorem residencyEvict (ctx : Nat) (va : Nat) : Statement (Instr.residencyEvict ctx va) := fun _ _ e => nomatch e
theorem migration (ctx : Nat) (va : Nat) (frame : Nat) : Statement (Instr.migration ctx va frame) := fun _ _ e => nomatch e
theorem migrationRequest (ctx : Nat) (va : Nat) (agent : Nat) (frame : Nat) : Statement (Instr.migrationRequest ctx va agent frame) := fun _ _ e => nomatch e
theorem kickWrite (ctx : Nat) (queue : Nat) (value : Nat) : Statement (Instr.kickWrite ctx queue value) := fun _ _ e => nomatch e
theorem packetTake (ctx : Nat) (queue : Nat) : Statement (Instr.packetTake ctx queue) := fun _ _ e => nomatch e
theorem packetHeaderWake (ctx : Nat) (queue : Nat) : Statement (Instr.packetHeaderWake ctx queue) := fun _ _ e => nomatch e
theorem launch (job : Nat) : Statement (Instr.launch job) := fun _ _ e => nomatch e
theorem seed (job : Nat) : Statement (Instr.seed job) := fun _ _ e => nomatch e
theorem graphReplay (job : Nat) : Statement (Instr.graphReplay job) := fun _ _ e => nomatch e
theorem relaunch (job : Nat) : Statement (Instr.relaunch job) := fun _ _ e => nomatch e
theorem signal (job : Nat) : Statement (Instr.signal job) := fun _ _ e => nomatch e
theorem waitValue (job : Nat) : Statement (Instr.waitValue job) := fun _ _ e => nomatch e
theorem waitValueRecheck (job : Nat) : Statement (Instr.waitValueRecheck job) := fun _ _ e => nomatch e
theorem barrierOnly (job : Nat) : Statement (Instr.barrierOnly job) := fun _ _ e => nomatch e
theorem queueCreate (job : Nat) : Statement (Instr.queueCreate job) := fun _ _ e => nomatch e
theorem queueDestroy (job : Nat) : Statement (Instr.queueDestroy job) := fun _ _ e => nomatch e
theorem settings (job : Nat) : Statement (Instr.settings job) := fun _ _ e => nomatch e
theorem graphBind (job : Nat) : Statement (Instr.graphBind job) := fun _ _ e => nomatch e
theorem packetComplete (job : Nat) : Statement (Instr.packetComplete job) := fun _ _ e => nomatch e
theorem graphKick (ctx : Nat) (slot : Nat) (table : Nat) : Statement (Instr.graphKick ctx slot table) := fun _ _ e => nomatch e
theorem graphNodeStart (ctx : Nat) (slot : Nat) (node : Nat) : Statement (Instr.graphNodeStart ctx slot node) := fun _ _ e => nomatch e
theorem blockStart (launch : Nat) (block : Nat) : Statement (Instr.blockStart launch block) := fun _ _ e => nomatch e
theorem warpPlace (warp : Nat) (core : Nat) : Statement (Instr.warpPlace warp core) := fun _ _ e => nomatch e
theorem warpEnd (warp : Nat) : Statement (Instr.warpEnd warp) := fun _ _ e => nomatch e
theorem spawnRetire (op : Nat) : Statement (Instr.spawnRetire op) := fun _ _ e => nomatch e
theorem binTimerExpiry (die : Nat) (bin : Nat) : Statement (Instr.binTimerExpiry die bin) := fun _ _ e => nomatch e
theorem spillRingMove (ctx : Nat) (die : Nat) : Statement (Instr.spillRingMove ctx die) := fun _ _ e => nomatch e
theorem hangDetected (ctx : Nat) : Statement (Instr.hangDetected ctx) := fun _ _ e => nomatch e
theorem cpyComplete (op : Nat) : Statement (Instr.cpyComplete op) := fun _ _ e => nomatch e
theorem gathComplete (op : Nat) : Statement (Instr.gathComplete op) := fun _ _ e => nomatch e
theorem scatComplete (op : Nat) : Statement (Instr.scatComplete op) := fun _ _ e => nomatch e
theorem mmaComplete (op : Nat) : Statement (Instr.mmaComplete op) := fun _ _ e => nomatch e
theorem msrchComplete (op : Nat) : Statement (Instr.msrchComplete op) := fun _ _ e => nomatch e
theorem quantComplete (op : Nat) : Statement (Instr.quantComplete op) := fun _ _ e => nomatch e
theorem kselComplete (op : Nat) : Statement (Instr.kselComplete op) := fun _ _ e => nomatch e
theorem kgatComplete (op : Nat) : Statement (Instr.kgatComplete op) := fun _ _ e => nomatch e
theorem ksumInstall (op : Nat) : Statement (Instr.ksumInstall op) := fun _ _ e => nomatch e
theorem ksumComplete (op : Nat) : Statement (Instr.ksumComplete op) := fun _ _ e => nomatch e
theorem engineStallResume (op : Nat) : Statement (Instr.engineStallResume op) := fun _ _ e => nomatch e
theorem engineFaultStop (op : Nat) : Statement (Instr.engineFaultStop op) := fun _ _ e => nomatch e
theorem enqRetire (op : Nat) : Statement (Instr.enqRetire op) := fun _ _ e => nomatch e
theorem emitAccept (op : Nat) (lanes : Nat) : Statement (Instr.emitAccept op lanes) := fun _ _ e => nomatch e
theorem binnerAccept (op : Nat) (lane : Nat) : Statement (Instr.binnerAccept op lane) := fun _ _ e => nomatch e
theorem buildComplete (build : Nat) : Statement (Instr.buildComplete build) := fun _ _ e => nomatch e
theorem buildRecord (op : Nat) (lane : Nat) : Statement (Instr.buildRecord op lane) := fun _ _ e => nomatch e
theorem rasterLeaf (pass : Nat) (leaf : Nat) (cluster : Nat) : Statement (Instr.rasterLeaf pass leaf cluster) := fun _ _ e => nomatch e
theorem blenderApply (pass : Nat) : Statement (Instr.blenderApply pass) := fun _ _ e => nomatch e
theorem passEnd (pass : Nat) : Statement (Instr.passEnd pass) := fun _ _ e => nomatch e
theorem passAutoClose (pass : Nat) : Statement (Instr.passAutoClose pass) := fun _ _ e => nomatch e
theorem pixelPreemptDeadline (ctx : Nat) : Statement (Instr.pixelPreemptDeadline ctx) := fun _ _ e => nomatch e
theorem inboundRmaWrite (host : Nat) (key : Nat) (addr : Nat) (data : List Nat) : Statement (Instr.inboundRmaWrite host key addr data) := fun _ _ e => nomatch e
theorem inboundRmaRead (host : Nat) (key : Nat) (addr : Nat) (len : Nat) : Statement (Instr.inboundRmaRead host key addr len) := fun _ _ e => nomatch e
theorem inboundFetchAdd (host : Nat) (key : Nat) (addr : Nat) (value : Nat) : Statement (Instr.inboundFetchAdd host key addr value) := fun _ _ e => nomatch e
theorem inboundSwap (host : Nat) (key : Nat) (addr : Nat) (value : Nat) : Statement (Instr.inboundSwap host key addr value) := fun _ _ e => nomatch e
theorem inboundCas (host : Nat) (key : Nat) (addr : Nat) (expect : Nat) (value : Nat) : Statement (Instr.inboundCas host key addr expect value) := fun _ _ e => nomatch e
theorem inboundRateRelease (region : Nat) (place : Nat) : Statement (Instr.inboundRateRelease region place) := fun _ _ e => nomatch e
theorem remoteCompletion (req : Nat) (status : Nat) (data : List Nat) : Statement (Instr.remoteCompletion req status data) := fun _ _ e => nomatch e
theorem remoteTimeout (req : Nat) : Statement (Instr.remoteTimeout req) := fun _ _ e => nomatch e
theorem remoteStoreFailure (req : Nat) (status : Nat) : Statement (Instr.remoteStoreFailure req status) := fun _ _ e => nomatch e
theorem peerReset (peer : Nat) : Statement (Instr.peerReset peer) := fun _ _ e => nomatch e
theorem hostDetach (host : Nat) : Statement (Instr.hostDetach host) := fun _ _ e => nomatch e
theorem contextCreate (host : Nat) (msg : List Nat) : Statement (Instr.contextCreate host msg) := fun _ _ e => nomatch e
theorem contextDestroy (host : Nat) (msg : List Nat) : Statement (Instr.contextDestroy host msg) := fun _ _ e => nomatch e
theorem preempt (host : Nat) (msg : List Nat) : Statement (Instr.preempt host msg) := fun _ _ e => nomatch e
theorem resume (host : Nat) (msg : List Nat) : Statement (Instr.resume host msg) := fun _ _ e => nomatch e
theorem regionSet (host : Nat) (msg : List Nat) : Statement (Instr.regionSet host msg) := fun _ _ e => nomatch e
theorem regionClear (host : Nat) (msg : List Nat) : Statement (Instr.regionClear host msg) := fun _ _ e => nomatch e
theorem stampRead (host : Nat) (msg : List Nat) : Statement (Instr.stampRead host msg) := fun _ _ e => nomatch e
theorem fencePart (host : Nat) (msg : List Nat) : Statement (Instr.fencePart host msg) := fun _ _ e => nomatch e
theorem returnPart (host : Nat) (msg : List Nat) : Statement (Instr.returnPart host msg) := fun _ _ e => nomatch e
theorem partLeaveService (core : Nat) : Statement (Instr.partLeaveService core) := fun _ _ e => nomatch e
theorem firmwarePush (host : Nat) (msg : List Nat) : Statement (Instr.firmwarePush host msg) := fun _ _ e => nomatch e
theorem attest (host : Nat) (msg : List Nat) : Statement (Instr.attest host msg) := fun _ _ e => nomatch e
theorem powerCap (host : Nat) (msg : List Nat) : Statement (Instr.powerCap host msg) := fun _ _ e => nomatch e
theorem debugStepOn (host : Nat) (msg : List Nat) : Statement (Instr.debugStepOn host msg) := fun _ _ e => nomatch e
theorem debugStepOff (host : Nat) (msg : List Nat) : Statement (Instr.debugStepOff host msg) := fun _ _ e => nomatch e
theorem debugWatchSet (host : Nat) (msg : List Nat) : Statement (Instr.debugWatchSet host msg) := fun _ _ e => nomatch e
theorem debugWatchClear (host : Nat) (msg : List Nat) : Statement (Instr.debugWatchClear host msg) := fun _ _ e => nomatch e
theorem debugHalt (host : Nat) (msg : List Nat) : Statement (Instr.debugHalt host msg) := fun _ _ e => nomatch e
theorem keepalive (host : Nat) (msg : List Nat) : Statement (Instr.keepalive host msg) := fun _ _ e => nomatch e
theorem moduleReset  : Statement (Instr.moduleReset) := fun _ _ e => nomatch e
theorem schedulerHeartbeat (core : Nat) : Statement (Instr.schedulerHeartbeat core) := fun _ _ e => nomatch e
theorem heartbeatTimeout (core : Nat) : Statement (Instr.heartbeatTimeout core) := fun _ _ e => nomatch e
theorem hbmRowRetire (stack : Nat) (row : Nat) : Statement (Instr.hbmRowRetire stack row) := fun _ _ e => nomatch e
theorem coreFailure (core : Nat) : Statement (Instr.coreFailure core) := fun _ _ e => nomatch e
theorem thermalThrottle (die : Nat) : Statement (Instr.thermalThrottle die) := fun _ _ e => nomatch e
theorem thermalShutdown (die : Nat) : Statement (Instr.thermalShutdown die) := fun _ _ e => nomatch e
theorem unallocatedWord (w : Nat) : Statement (Instr.unallocatedWord w) := fun _ _ e => nomatch e
theorem fetchFault  : Statement (Instr.fetchFault) := fun _ _ e => nomatch e
theorem engineUnitWrite (op : Nat) : Statement (Instr.engineUnitWrite op) := fun _ _ e => nomatch e
theorem contextTimeout (ctx : Nat) : Statement (Instr.contextTimeout ctx) := fun _ _ e => nomatch e
theorem contextWipe (ctx : Nat) : Statement (Instr.contextWipe ctx) := fun _ _ e => nomatch e
theorem linkDown (port : Nat) : Statement (Instr.linkDown port) := fun _ _ e => nomatch e
theorem linkUp (port : Nat) : Statement (Instr.linkUp port) := fun _ _ e => nomatch e
theorem egressRateRelease (req : Nat) : Statement (Instr.egressRateRelease req) := fun _ _ e => nomatch e
theorem connectionSetup (peer : Nat) (kind : Nat) : Statement (Instr.connectionSetup peer kind) := fun _ _ e => nomatch e
theorem unknownOp (host : Nat) (msg : List Nat) : Statement (Instr.unknownOp host msg) := fun _ _ e => nomatch e
theorem eccError (place : Nat) (loc : Nat) (corrected : Bool) : Statement (Instr.eccError place loc corrected) := fun _ _ e => nomatch e
theorem thermalThrottleEnd (die : Nat) : Statement (Instr.thermalThrottleEnd die) := fun _ _ e => nomatch e

end Sys2Proof.Laws.WordFits
end

