-- ==== Sys2Proof/Laws/Pred.lean ====
section
/-! SUPPORT. What compares, the functions of the predicate stack and the cross-lane functions do. -/

namespace Sys2Proof.Machine

open Host (Outcome)

/-! ### Completing -/

/-- A word whose body ends in `done` with a warp that differs from the begun one in registers and flags. -/
theorem completes_writes {s : State} {i : Info} {x : Cx} {k : Instr} {body : Cx → Except Stop State} {w : Warp}
    {new : Nat → Nat → Option Word} {fl : Nat → Flags} (h : Begins s i x) (he : exec k s = issue s i body)
    (hb : body x = .ok (x.done x.s w)) (hw : Writes x.wd w new fl) :
    ∃ w', x.Completes k x.s w' ∧ Writes x.wd w' new fl :=
  ⟨w, completes_of h (by rw [writes_id hw, wd_id h]) (by rw [writes_ctx hw, wd_ctx h]) (by rw [he]; exact issue_next h hb), hw⟩

theorem restacks_id {v w : Warp} {m : Mask} {new : Nat → Nat → Pred} {fl : Nat → Flags} (h : Restacks v w m new fl) : w.id = v.id := by
  rw [← congrArg Warp.id h.rest]

theorem restacks_ctx {v w : Warp} {m : Mask} {new : Nat → Nat → Pred} {fl : Nat → Flags} (h : Restacks v w m new fl) : w.ctx = v.ctx := by
  rw [← congrArg Warp.ctx h.rest]

/-- The same for a word that changes predicate stacks. -/
theorem completes_restacks {s : State} {i : Info} {x : Cx} {k : Instr} {body : Cx → Except Stop State} {w : Warp} {m : Mask}
    {new : Nat → Nat → Pred} {fl : Nat → Flags} (h : Begins s i x) (he : exec k s = issue s i body)
    (hb : body x = .ok (x.done x.s w)) (hw : Restacks x.wd w m new fl) :
    ∃ w', x.Completes k x.s w' ∧ Restacks x.wd w' m new fl :=
  ⟨w, completes_of h (by rw [restacks_id hw, wd_id h]) (by rw [restacks_ctx hw, wd_ctx h]) (by rw [he]; exact issue_next h hb), hw⟩

/-! ### Stacks -/

theorem pred_setPred (y : Lane) {n : Nat} (p : Pred) (hn : n < 8) {k : Nat} (hk : k < 8) :
    (y.setPred n p).pred k = if k = n then p else y.pred k := by
  simp only [Lane.pred, Lane.setPred, Nat.mod_eq_of_lt hn, Nat.mod_eq_of_lt hk]
  by_cases h : n = k
  · subst h; simp
  · rw [Vector.getElem_set_ne _ _ h]; simp [Ne.symm h]

theorem pred_push (y : Lane) (p : Pred) {k : Nat} (hk : k < 8) : (y.push p).pred k = if k = 0 then p else y.pred (k - 1) := by
  simp [Lane.pred, Lane.push, Nat.mod_eq_of_lt hk]

theorem pred_pop (y : Lane) {k : Nat} (hk : k < 8) : y.pop.pred k = if k + 1 < 8 then y.pred (k + 1) else Pred.of false := by
  simp only [Lane.pop, Lane.pred, Nat.mod_eq_of_lt hk, Vector.getElem_ofFn, Pred.of]
  by_cases h : k = 7
  · subst h; rfl
  · simp [h, show k + 1 < 8 by omega]

theorem pred_popN (n : Nat) (y : Lane) {k : Nat} (hk : k < 8) :
    (y.popN n).pred k = if k + n < 8 then y.pred (k + n) else Pred.of false := by
  induction n generalizing y with
  | zero => simp [Lane.popN, hk]
  | succ n ih =>
    rw [Lane.popN, ih]
    by_cases h : k + n < 8
    · rw [if_pos h, pred_pop _ h]
      rfl
    · rw [if_neg h, if_neg (by omega)]

theorem pred_take {mode : Nat} (y : Lane) (t : Bool) {k : Nat} (hk : k < 8) : (y.take mode t).pred k = compared mode t y.pred k := by
  match mode with
  | 0 => simp [Lane.take, compared, pushed, pred_push _ _ hk, Pred.of]
  | 1 => simp [Lane.take, compared, replaced, pred_setPred _ _ (by decide : 0 < 8) hk, Pred.of]
  | 2 => simp [Lane.take, compared, replaced, pred_setPred _ _ (by decide : 0 < 8) hk, Pred.of]
  | _ + 3 => simp [Lane.take, compared, replaced, pred_setPred _ _ (by decide : 0 < 8) hk, Pred.of]

/-- Only the stack of a lane changes. -/
def OnlyStack (y z : Lane) : Prop := { z with preds := y.preds } = y

theorem onlyStack_setPred (y : Lane) (n : Nat) (p : Pred) : OnlyStack y (y.setPred n p) := by cases y; rfl
theorem onlyStack_push (y : Lane) (p : Pred) : OnlyStack y (y.push p) := by cases y; rfl
theorem onlyStack_trans {x y z : Lane} (h1 : OnlyStack x y) (h2 : OnlyStack y z) : OnlyStack x z := by
  unfold OnlyStack at *
  rw [← h1, ← h2]
theorem onlyStack_popN (n : Nat) (y : Lane) : OnlyStack y (y.popN n) := by
  induction n generalizing y with
  | zero => cases y; rfl
  | succ n ih => exact onlyStack_trans (y := y.pop) (by cases y; rfl) (ih _)
theorem onlyStack_take (y : Lane) (mode : Nat) (t : Bool) : OnlyStack y (y.take mode t) := by
  unfold Lane.take
  split
  · exact onlyStack_push _ _
  · exact onlyStack_setPred _ _ _
  · exact onlyStack_setPred _ _ _
  · exact onlyStack_setPred _ _ _

/-- Stacks changed in the lanes of a set. -/
theorem mapLanes_restacks (v : Warp) (m : Mask) (f : Nat → Lane → Lane) (new : Nat → Nat → Pred)
    (h : ∀ l, l < 32 → inMask m l = true → OnlyStack (v.lane l) (f l (v.lane l)) ∧ ∀ k, k < 8 → (f l (v.lane l)).pred k = new l k) :
    Restacks v (v.mapLanes m f) m new (fun _ => 0#5) := by
  refine ⟨fun l hl k hk => ?_, fun l hl => ?_, fun l hl => ?_, mapLanes_rest _ _ _⟩
  · rw [lane_mapLanes _ _ _ hl]
    split
    · rename_i hm
      exact (h l hl hm).2 k hk
    · rfl
  · rw [lane_mapLanes _ _ _ hl]
    split
    · rename_i hm
      have := congrArg Lane.fpflags (h l hl hm).1
      simp only at this
      rw [this]
      simp [flagsIn]
    · simp [flagsIn, *]
  · rw [lane_mapLanes _ _ _ hl]
    split
    · rename_i hm
      have := (h l hl hm).1
      unfold OnlyStack at this
      generalize f l (v.lane l) = z at this ⊢
      generalize v.lane l = y at this ⊢
      cases y; cases z
      simp only [Lane.mk.injEq] at this ⊢
      simp_all only [and_self]
    · rfl

/-- Flags ORed after. -/
theorem restacks_flags {v w : Warp} {m : Mask} {new : Nat → Nat → Pred} (h : Restacks v w m new (fun _ => 0#5)) (f : Nat → Flags) :
    Restacks v (w.orFlags m f) m new f := by
  have hlane : ∀ l, l < 32 → (w.orFlags m f).lane l = { w.lane l with fpflags := (w.lane l).fpflags ||| flagsIn m f l } := by
    intro l hl
    unfold Warp.orFlags
    rw [lane_mapLanes _ _ _ hl]
    split <;> simp [flagsIn, *]
  refine ⟨fun l hl k hk => ?_, fun l hl => ?_, fun l hl => ?_, ?_⟩
  · rw [hlane l hl]
    exact h.preds l hl k hk
  · rw [hlane l hl, h.flags l hl]
    simp [flagsIn]
  · rw [hlane l hl]
    exact h.lanes l hl
  · rw [Warp.orFlags, Warp.mapLanes]
    exact h.rest

theorem wd_pred {s : State} {i : Info} {x : Cx} (h : Begins s i x) {l : Nat} (hl : l < 32) : (x.wd.lane l).pred = (x.w.lane l).pred := by
  have := congrArg Lane.preds ((wd_kept h).2.2 l hl)
  simp only at this
  funext k
  simp only [Lane.pred, this]

theorem uniformCompare_of {i : Info} {k : Instr} {srcs : List Nat} {m : Nat} {bit f : Warp → Nat → Bool × Flags}
    (he : ∀ s, exec k s = uniformCompare s i srcs m bit) (hf : ∀ w l, bit w l = f w l) : UniformCompare i k srcs m f := by
  intro s x h h1 h2
  refine completes_restacks h (he s) ?_ (restacks_flags (mapLanes_restacks x.wd x.w.live (fun _ y => y.take m (f x.w x.lead).1) _
    (fun l hl _ => ⟨onlyStack_take _ _ _, fun k hk => by rw [pred_take _ _ hk, wd_pred h hl]⟩)) (fun _ => (f x.w x.lead).2))
  have key : ∀ l n, n ∈ (if l = x.lead then srcs else []) → n < x.w.alloc ∧ x.w.isPending l n = false ∧ x.w.isBad l n = false := by
    intro l n hn
    split at hn
    · rename_i he
      subst he
      exact h1.reads (by simp [inMask_oneLane, lead_lt]) hn
    · simp at hn
  rw [checkNamed_ok]
  · simp only [hf]
    rfl
  · intro l _ n hn
    have := key l n (by simpa using hn)
    exact ⟨this.1, this.2.1⟩
  · intro l hl n hn
    exact h2 n (by unfold modeReads at hn; exact hn) l hl
  · exact fun l _ n hn => (key l n hn).2.2

theorem laneCompare_of {i : Info} {k : Instr} {srcs : List Nat} {m : Nat} {bit f : Warp → Nat → Bool × Flags}
    (he : ∀ s, exec k s = laneCompare s i srcs m bit) (hf : ∀ w l, bit w l = f w l) : LaneCompare i k srcs m f := by
  intro s x h h1 h2
  refine completes_restacks h (he s) ?_ (restacks_flags (mapLanes_restacks x.wd x.act (fun l y => y.take m (f x.w l).1) _
    (fun l hl _ => ⟨onlyStack_take _ _ _, fun k hk => by rw [pred_take _ _ hk, wd_pred h hl]⟩)) (fun l => (f x.w l).2))
  rw [checkNamed_ok (fun l hl n hn => h1.names hl hn)
    (fun l hl n hn => h2 n (by unfold modeReads at hn; exact hn) l hl) (fun l hl n hn => (h1.reads hl hn).2.2)]
  simp only [hf]

theorem stackEffect_of {k : Instr} {regs preds : List Nat} {f : Warp → Nat → Lane → Lane}
    {new : (Nat → Word) → (Nat → Pred) → Nat → Pred} (he : ∀ s, exec k s = stackOp s regs preds f)
    (hf : ∀ w l y, OnlyStack y (f w l y) ∧ ∀ k, k < 8 → (∀ n ∈ preds, (y.pred n).pend = none) → (f w l y).pred k = new (w.reg l) y.pred k) :
    StackEffect k regs preds new := by
  intro s x h h1 h2
  refine completes_restacks h (he s) ?_ (mapLanes_restacks x.wd x.act (f x.w) _
    (fun l hl hm => ⟨(hf _ _ _).1, fun k hk => by
      rw [(hf x.w l _).2 k hk (by rw [wd_pred h hl]; exact fun n hn => h2 n hn l hm), wd_pred h hl]⟩))
  rw [checkNamed_ok (fun l hl n hn => h1.names hl hn) (fun l hl n hn => h2 n hn l hl) (fun l hl n hn => (h1.reads hl hn).2.2)]

/-! ### Cross-lane functions -/

theorem crossEffect_of {i : Info} {k : Instr} {srcs : List Nat} {d : Nat} {g : Warp → List Nat → Nat → List Nat × Flags}
    {f : Warp → List Nat → Nat → Word × Flags} (he : ∀ s, exec k s = crossOp s i srcs [d] g)
    (hf : ∀ w m l, inMask m l = true → ∃ u, g w (lanesOf m) l = ([u], (f w (lanesOf m) l).2) ∧ BitVec.ofNat 32 u = (f w (lanesOf m) l).1) :
    CrossEffect i k srcs d f := by
  intro s x h h1
  obtain ⟨k1, -, -⟩ := wd_kept h
  refine completes_writes h (he s) (w := (if x.act = 0#32 then x.wd else x.writeLanes x.wd (fun l => (g x.w (lanesOf x.act) l).1) 0 [d]).orFlags
    x.act (fun l => (g x.w (lanesOf x.act) l).2)) ?_ ?_
  · simp only
    rw [checkRegs_ok h1]
  · have hw : Writes x.wd (if x.act = 0#32 then x.wd else x.writeLanes x.wd (fun l => (g x.w (lanesOf x.act) l).1) 0 [d])
        (oneReg x.act d (fun l => (f x.w (lanesOf x.act) l).1)) noFlags := by
      split
      · rename_i ha
        exact writes_congr (writes_refl _) (fun l _ _ n => by simp [noReg, oneReg, ha, inMask_zero]) (fun _ _ => rfl)
      · refine writes_congr (writeLanes_one (by rw [k1]; exact ready_last h1)) (fun l _ _ n => ?_) (fun _ _ => rfl)
        unfold oneReg
        by_cases hm : inMask x.act l = true
        · obtain ⟨u, hu, hv⟩ := hf x.w x.act l hm
          simp [hu, hv]
        · simp [hm]
    refine writes_congr (writes_trans hw (orFlags_writes _ x.act _) (fun _ => .inr (fun _ => rfl))) (fun _ _ _ _ => rfl) (fun l _ => ?_)
    unfold flagsIn noFlags
    by_cases hm : inMask x.act l = true
    · obtain ⟨u, hu, -⟩ := hf x.w x.act l hm
      simp [hm, hu]
    · simp [hm]

end Sys2Proof.Machine
end

