-- ==== Sys2Proof/Laws/Trap.lean ====
section
/-! SUPPORT. The handle a stopped run gets (R146). -/
namespace Sys2Proof.Machine

/-- The handles under which lanes of a warp are stopped. -/
theorem handleInUse_mem {s : State} {ctx k : Nat} (h : handleInUse s ctx k = true) :
    k ∈ s.warps.flatMap (fun w => (lanesOf allLanes).map (fun l => match (w.lane l).cond with | .stopped n => n | _ => 0)) := by
  simp only [handleInUse, Bool.and_eq_true, List.any_eq_true] at h
  obtain ⟨-, w, hw, -, l, hl, hc⟩ := h
  refine List.mem_flatMap.2 ⟨w, hw, List.mem_map.2 ⟨l, hl, ?_⟩⟩
  rw [eq_of_beq hc]

theorem lanesOf_all_length : (lanesOf allLanes).length = 32 := by decide +kernel

/-- R146: a handle given is in use nowhere, where any number is. -/
theorem nextHandle_free {s : State} {c : Ctx} (h : ∃ k, 0 < k ∧ k < 2 ^ 32 ∧ handleInUse s c.number k = false) :
    handleInUse s c.number (nextHandle s c) = false := by
  unfold nextHandle
  extract_lets g
  split
  case isFalse hg => simpa using hg
  case isTrue hg =>
    set n := min (32 * s.warps.length + 1) (2 ^ 32 - 1) with hn
    cases hf : (((List.range n).map (· + 1)).find? (fun k => !handleInUse s c.number k)) with
    | some k => simpa using List.find?_some hf
    | none =>
      exfalso
      simp only [List.find?_eq_none, List.mem_map, List.mem_range, Bool.not_eq_true', Bool.not_eq_false] at hf
      have all : ∀ k, 0 < k → k ≤ n → handleInUse s c.number k = true := fun k h0 h1 => by
        simpa using hf k ⟨k - 1, by omega, by omega⟩
      obtain ⟨k, h0, h1, h2⟩ := h
      by_cases hc : n = 2 ^ 32 - 1
      · rw [all k h0 (by omega)] at h2; cases h2
      · have e : n = 32 * s.warps.length + 1 := by omega
        have sub : (List.range n).map (· + 1) ⊆
            s.warps.flatMap (fun w => (lanesOf allLanes).map (fun l => match (w.lane l).cond with | .stopped n => n | _ => 0)) := by
          intro x hx
          obtain ⟨y, hy, rfl⟩ := List.mem_map.1 hx
          exact handleInUse_mem (all _ (by omega) (by have := List.mem_range.1 hy; omega))
        have nd : ((List.range n).map (· + 1)).Nodup := (List.nodup_range).map (fun a b h => by simpa using h)
        have len := (List.subperm_of_subset nd sub).length_le
        simp [lanesOf_all_length, List.length_flatMap] at len
        omega

/-- R146: a handle given is a non-zero z32. -/
theorem nextHandle_range (s : State) (c : Ctx) : 0 < nextHandle s c ∧ nextHandle s c < 2 ^ 32 := by
  unfold nextHandle
  extract_lets g
  have hg : 0 < g ∧ g < 2 ^ 32 := by simp only [g]; split <;> omega
  split
  · cases hf : (((List.range (min (32 * s.warps.length + 1) (2 ^ 32 - 1))).map (· + 1)).find? (fun k => !handleInUse s c.number k)) with
    | none => exact hg
    | some k =>
      obtain ⟨y, hy, e⟩ := List.mem_map.1 (List.mem_of_find?_eq_some hf)
      have := List.mem_range.1 hy
      simp only [Option.getD_some]
      omega
  · exact hg
end Sys2Proof.Machine
end

