-- ==== Sys2Proof/Tests/Slice0.lean ====
section
/-! SUPPORT. Tests: ill-formed terms are refused, words of the spec's encoding decode, the hypotheses of the statements are met,
small steps give what the spec says. -/

namespace Sys2Proof.Tests

set_option Elab.async false

open Sys2Proof.Machine

/-! ### Well-formedness: for each constructor, a term whose every field is one too large is refused, and so is each field alone
for one constructor of each format -/

theorem test_wf_refuses_0 : ([
  .sAdd 128 128 128, .sAddImm 128 128 128, .vAdd 128 128 128, .vAddImm 128 128 128, .sSub 128 128 128, .sSubImm 128 128 128,
  .vSub 128 128 128, .vSubImm 128 128 128, .sMullo 128 128 128, .sMulloImm 128 128 128, .vMullo 128 128 128, .vMulloImm 128 128 128,
  .sMulhiS 128 128 128, .sMulhiSImm 128 128 128, .vMulhiS 128 128 128, .vMulhiSImm 128 128 128, .sMulhiZ 128 128 128, .sMulhiZImm 128 128 128,
  .vMulhiZ 128 128 128, .vMulhiZImm 128 128 128, .sMad 128 128 128, .sMadImm 128 128 128, .vMad 128 128 128, .vMadImm 128 128 128,
  .sMinS 128 128 128, .sMinSImm 128 128 128, .vMinS 128 128 128, .vMinSImm 128 128 128, .sMaxS 128 128 128, .sMaxSImm 128 128 128,
  .vMaxS 128 128 128, .vMaxSImm 128 128 128, .sMinZ 128 128 128, .sMinZImm 128 128 128, .vMinZ 128 128 128, .vMinZImm 128 128 128,
  .sMaxZ 128 128 128, .sMaxZImm 128 128 128, .vMaxZ 128 128 128, .vMaxZImm 128 128 128, .sAbsdiff 128 128 128, .sAbsdiffImm 128 128 128,
  .vAbsdiff 128 128 128, .vAbsdiffImm 128 128 128, .sAddsatS 128 128 128, .sAddsatSImm 128 128 128, .vAddsatS 128 128 128, .vAddsatSImm 128 128 128,
  .sSubsatS 128 128 128, .sSubsatSImm 128 128 128, .vSubsatS 128 128 128, .vSubsatSImm 128 128 128, .sAvgZ 128 128 128, .sAvgZImm 128 128 128,
  .vAvgZ 128 128 128, .vAvgZImm 128 128 128, .sAnd 128 128 128, .sAndImm 128 128 128, .vAnd 128 128 128, .vAndImm 128 128 128] : List Instr).all (fun i => !i.wf) = true := by decide

theorem test_wf_refuses_1 : ([
  .sOr 128 128 128, .sOrImm 128 128 128, .vOr 128 128 128, .vOrImm 128 128 128, .sXor 128 128 128, .sXorImm 128 128 128,
  .vXor 128 128 128, .vXorImm 128 128 128, .sAndn 128 128 128, .sAndnImm 128 128 128, .vAndn 128 128 128, .vAndnImm 128 128 128,
  .sOrn 128 128 128, .sOrnImm 128 128 128, .vOrn 128 128 128, .vOrnImm 128 128 128, .sXnor 128 128 128, .sXnorImm 128 128 128,
  .vXnor 128 128 128, .vXnorImm 128 128 128, .sShl 128 128 128, .sShlImm 128 128 128, .vShl 128 128 128, .vShlImm 128 128 128,
  .sShr 128 128 128, .sShrImm 128 128 128, .vShr 128 128 128, .vShrImm 128 128 128, .sSar 128 128 128, .sSarImm 128 128 128,
  .vSar 128 128 128, .vSarImm 128 128 128, .sRotl 128 128 128, .sRotlImm 128 128 128, .vRotl 128 128 128, .vRotlImm 128 128 128,
  .sRotr 128 128 128, .sRotrImm 128 128 128, .vRotr 128 128 128, .vRotrImm 128 128 128, .sClz 128 128, .vClz 128 128,
  .sPopc 128 128, .vPopc 128 128, .sBrev 128 128, .vBrev 128 128, .sMov 128 128, .sMovImm 128 128,
  .vMov 128 128, .vMovImm 128 128, .sNot 128 128, .vNot 128 128, .sBfeS 128 128 128, .vBfeS 128 128 128,
  .sBfeZ 128 128 128, .vBfeZ 128 128 128, .sBfi 128 128 128, .vBfi 128 128 128, .sPrmt 128 128 128, .vPrmt 128 128 128] : List Instr).all (fun i => !i.wf) = true := by decide

theorem test_wf_refuses_2 : ([
  .sAdd64 128 128 128, .vAdd64 128 128 128, .sSub64 128 128 128, .vSub64 128 128 128, .sShl64 128 128 128, .vShl64 128 128 128,
  .sShr64 128 128 128, .vShr64 128 128 128, .sSar64 128 128 128, .vSar64 128 128 128, .sMul64lo 128 128 128, .vMul64lo 128 128 128,
  .sMovi 128 262144, .vMovi 128 262144, .sFadd 128 128 128, .vFadd 128 128 128, .sFsub 128 128 128, .vFsub 128 128 128,
  .sFmul 128 128 128, .vFmul 128 128 128, .sFfma 128 128 128, .vFfma 128 128 128, .sFmin 128 128 128, .vFmin 128 128 128,
  .sFmax 128 128 128, .vFmax 128 128 128, .sFabs 128 128, .vFabs 128 128, .sFneg 128 128, .vFneg 128 128,
  .sFcopysign 128 128 128, .vFcopysign 128 128 128, .sFclass 128 128, .vFclass 128 128, .sFrcp 128 128, .vFrcp 128 128,
  .sFrsq 128 128, .vFrsq 128 128, .sFsqrt 128 128, .vFsqrt 128 128, .sFexp2 128 128, .vFexp2 128 128,
  .sFlog2 128 128, .vFlog2 128 128, .sFsinpi 128 128, .vFsinpi 128 128, .sFcospi 128 128, .vFcospi 128 128,
  .sFtanh 128 128, .vFtanh 128 128, .sFrintNe 128 128, .vFrintNe 128 128, .sFrintZ 128 128, .vFrintZ 128 128,
  .sFrintDn 128 128, .vFrintDn 128 128, .sFrintUp 128 128, .vFrintUp 128 128, .sFaddF16x2 128 128 128, .vFaddF16x2 128 128 128] : List Instr).all (fun i => !i.wf) = true := by decide

theorem test_wf_refuses_3 : ([
  .sFsubF16x2 128 128 128, .vFsubF16x2 128 128 128, .sFmulF16x2 128 128 128, .vFmulF16x2 128 128 128, .sFfmaF16x2 128 128 128, .vFfmaF16x2 128 128 128,
  .sFminF16x2 128 128 128, .vFminF16x2 128 128 128, .sFmaxF16x2 128 128 128, .vFmaxF16x2 128 128 128, .sFaddBf16x2 128 128 128, .vFaddBf16x2 128 128 128,
  .sFsubBf16x2 128 128 128, .vFsubBf16x2 128 128 128, .sFmulBf16x2 128 128 128, .vFmulBf16x2 128 128 128, .sFfmaBf16x2 128 128 128, .vFfmaBf16x2 128 128 128,
  .sFminBf16x2 128 128 128, .vFminBf16x2 128 128 128, .sFmaxBf16x2 128 128 128, .vFmaxBf16x2 128 128 128, .sCvt 16 128 128 16 2, .vCvt 16 128 128 16 2,
  .sCmp 16 8 16 128 128, .vCmp 16 8 16 128 128, .sFcmp 16 8 16 128 128, .vFcmp 16 8 16 128 128, .sSel 8 128 128 128, .vSel 8 128 128 128,
  .sPget 128, .vPget 128, .vPpop 8, .vPdup 8, .vPand 8, .vPor 8,
  .vPxor 8, .vPnot 8, .vPswap 8, .vPpush 128, .vPset 128, .vShflIdx 128 128 128,
  .vShflUp 128 128 128, .vShflDown 128 128 128, .vShflXor 128 128 128, .vBcast 128 128 128, .vVoteBallot 128 128, .vReduxAdd 128 128 128,
  .vReduxMin 128 128 128, .vReduxMax 128 128 128, .vScanIncl 128 128 128, .vScanExcl 128 128 128, .vMatch 128 128, .vIsect 128 128 128,
  .sMovx 128 128 128, .vMovx 128 128 128, .sMovxw 128 128 128, .vMovxw 128 128 128, .mLd 8 128 128 256, .mLdPr 8 128 128 256] : List Instr).all (fun i => !i.wf) = true := by decide

theorem test_wf_refuses_4 : ([
  .mLdAcq 8 128 128 256, .mLdu 8 128 128 256, .mSt 8 128 128 256, .mStRel 8 128 128 256, .mAtomAddS32 128 128 128, .mAtomAndB32 128 128 128,
  .mAtomOrB32 128 128 128, .mAtomXorB32 128 128 128, .mAtomMinS32 128 128 128, .mAtomMaxS32 128 128 128, .mAtomMinZ32 128 128 128, .mAtomMaxZ32 128 128 128,
  .mAtomExchB32 128 128 128, .mAtomAddS64 128 128 128, .mAtomAndB64 128 128 128, .mAtomOrB64 128 128 128, .mAtomXorB64 128 128 128, .mAtomMinS64 128 128 128,
  .mAtomMaxS64 128 128 128, .mAtomMinZ64 128 128 128, .mAtomMaxZ64 128 128 128, .mAtomExchB64 128 128 128, .mAtomAddF32 128 128 128, .mAtomMinF32 128 128 128,
  .mAtomMaxF32 128 128 128, .mAtomAddF16x2 128 128 128, .mAtomAddBf16x2 128 128 128, .mRedAddS32 128 128, .mRedAddS64 128 128, .mRedAddF32 128 128,
  .mRedMinS32 128 128, .mRedMaxS32 128 128, .mRedMinZ32 128 128, .mRedMaxZ32 128 128, .mRedAndB32 128 128, .mRedOrB32 128 128,
  .mRedXorB32 128 128, .mRedMinF32 128 128, .mRedMaxF32 128 128, .mRedAddF16x2 128 128, .mRedAddBf16x2 128 128, .mCasB32 128 128 128,
  .mCasB64 128 128 128, .mFenceAcq 8, .mFenceRel 8, .mFenceFull 8, .mMwait 16 128 128, .mPgreq 128,
  .mPgprobe 128 128, .mPref 128, .mTexSample 128 128 128, .mTexSampleLod 128 128 128, .mTexSampleGrad 128 128 128, .mTexFetch 128 128 128,
  .mTexGath4 128 128 128, .mTexqSize 128 128 128, .mTexqLevels 128 128, .mTexqFormat 128 128, .eCpy 128 64 4, .eGath 128 64] : List Instr).all (fun i => !i.wf) = true := by decide

theorem test_wf_refuses_5 : ([
  .eScat 16 128 64, .eMma 128, .eMsrch 128, .eQuant 128, .eKselThr 128 64, .eKselTopk 128 64,
  .eKgat 128 64, .eKsum 128 64, .eSpawn 128, .eSpawnDie 128 128, .eEnq 128 64, .eSsbld 128 64,
  .eBind 128 8, .eEmit 128, .eRelaunch 128, .eTdset 128, .cBr 8 8 524288, .cCall 64 524288,
  .cJmp 128, .cCallx 128 128, .cRet 128, .cWait 64 64 64 64, .cTwaitAny 128, .cTwaitAll 128,
  .cTffs 128 128, .cTclr 128, .cBarArrive 8 16, .cBarWait 8 16, .cBarSync 8 16, .cBrk 128,
  .cTrap 8, .yGsr 128 128, .ySsr 128 128, .yResume 128 128, .yKill 128 128, .yCtxinfo 128 128,
  .hImm 33554432, .hGuard 8 8, .hGuardNot 8 8, .hSrc3 128, .hReuse 128 4, .hLast 128 128 4,
  .hRnd 4, .hScope 8, .hSched 32, .hCache 8, .loadRetire 0 4294967296, .storePerform 0 4294967296,
  .atomicPerform 0 4294967296, .reductionPlace 0 4294967296, .waitComplete 0 32, .tagWaitComplete 0 32, .monitorWake 0 32, .monitorReread 0 32,
  .pageWaitRetry 0 32, .pteChange 0 8 18446744073709551616 18446744073709551616 [256], .residencyPresent 0 18446744073709551616, .residencyRefuse 0 18446744073709551616, .residencyEvict 0 18446744073709551616, .migration 0 18446744073709551616 0] : List Instr).all (fun i => !i.wf) = true := by decide

theorem test_wf_refuses_6 : ([
  .migrationRequest 0 18446744073709551616 0 0, .kickWrite 0 0 18446744073709551616, .graphKick 0 0 18446744073709551616, .binTimerExpiry 4 0, .spillRingMove 0 4, .emitAccept 0 4294967296,
  .binnerAccept 0 32, .buildRecord 0 32, .inboundRmaWrite 0 0 18446744073709551616 [256], .inboundRmaRead 0 0 18446744073709551616 0, .inboundFetchAdd 0 0 18446744073709551616 18446744073709551616, .inboundSwap 0 0 18446744073709551616 18446744073709551616,
  .inboundCas 0 0 18446744073709551616 18446744073709551616 18446744073709551616, .remoteCompletion 0 0 [256], .contextCreate 0 [256], .contextDestroy 0 [256], .preempt 0 [256], .resume 0 [256],
  .regionSet 0 [256], .regionClear 0 [256], .stampRead 0 [256], .fencePart 0 [256], .returnPart 0 [256], .firmwarePush 0 [256],
  .attest 0 [256], .powerCap 0 [256], .debugStepOn 0 [256], .debugStepOff 0 [256], .debugWatchSet 0 [256], .debugWatchClear 0 [256],
  .debugHalt 0 [256], .keepalive 0 [256], .thermalThrottle 4, .thermalShutdown 4, .unallocatedWord 4294967296, .unknownOp 0 [256],
  .thermalThrottleEnd 4] : List Instr).all (fun i => !i.wf) = true := by decide

theorem test_wf_refuses_field_0 : ([
  .sAdd 128 0 0, .sAdd 0 128 0, .sAdd 0 0 128, .sClz 128 0, .sClz 0 128, .sMovi 128 0,
  .sMovi 0 262144, .sCvt 16 0 0 0 0, .sCvt 0 128 0 0 0, .sCvt 0 0 128 0 0, .sCvt 0 0 0 16 0, .sCvt 0 0 0 0 2,
  .sCmp 16 0 0 0 0, .sCmp 0 8 0 0 0, .sCmp 0 0 16 0 0, .sCmp 0 0 0 128 0, .sCmp 0 0 0 0 128, .sSel 8 0 0 0,
  .sSel 0 128 0 0, .sSel 0 0 128 0, .sSel 0 0 0 128, .mLd 8 0 0 0, .mLd 0 128 0 0, .mLd 0 0 128 0,
  .mLd 0 0 0 256, .mMwait 16 0 0, .mMwait 0 128 0, .mMwait 0 0 128, .eCpy 128 0 0, .eCpy 0 64 0,
  .eCpy 0 0 4, .eGath 128 0, .eGath 0 64, .eScat 16 0 0, .eScat 0 128 0, .eScat 0 0 64,
  .eBind 128 0, .eBind 0 8, .cBr 8 0 0, .cBr 0 8 0, .cBr 0 0 524288, .cCall 64 0,
  .cCall 0 524288, .cWait 64 0 0 0, .cWait 0 64 0 0, .cWait 0 0 64 0, .cWait 0 0 0 64, .cBarArrive 8 0,
  .cBarArrive 0 16, .hGuard 8 0, .hGuard 0 8, .hReuse 128 0, .hReuse 0 4, .hLast 128 0 0,
  .hLast 0 128 0, .hLast 0 0 4, .inboundFetchAdd 0 0 18446744073709551616 0, .inboundFetchAdd 0 0 0 18446744073709551616, .inboundCas 0 0 18446744073709551616 0 0, .inboundCas 0 0 0 18446744073709551616 0] : List Instr).all (fun i => !i.wf) = true := by decide

theorem test_wf_refuses_field_1 : ([
  .inboundCas 0 0 0 0 18446744073709551616] : List Instr).all (fun i => !i.wf) = true := by decide

/-! ### Decoding: one word of every row, written out from the row's fixed bits and fields -/

/-- The word decodes to the instruction, whose word it is. -/
noncomputable def reads (w : Nat) (i : Instr) : Bool := i.wf && encode i == some w && decide (decodeTableWord 32 w = some i)

theorem test_decode_0 : ([
  (0x001541EA, .sAdd 85 3 106), (0x021541EA, .sAddImm 85 3 106), (0x401541EA, .vAdd 85 3 106),
  (0x421541EA, .vAddImm 85 3 106), (0x003541EA, .sSub 85 3 106), (0x023541EA, .sSubImm 85 3 106),
  (0x403541EA, .vSub 85 3 106), (0x423541EA, .vSubImm 85 3 106), (0x005541EA, .sMullo 85 3 106),
  (0x025541EA, .sMulloImm 85 3 106), (0x405541EA, .vMullo 85 3 106), (0x425541EA, .vMulloImm 85 3 106),
  (0x007541EA, .sMulhiS 85 3 106), (0x027541EA, .sMulhiSImm 85 3 106), (0x407541EA, .vMulhiS 85 3 106),
  (0x427541EA, .vMulhiSImm 85 3 106), (0x009541EA, .sMulhiZ 85 3 106), (0x029541EA, .sMulhiZImm 85 3 106)] : List (Nat × Instr)).all (fun p => reads p.1 p.2) = true := by decide +kernel

theorem test_decode_1 : ([
  (0x409541EA, .vMulhiZ 85 3 106), (0x429541EA, .vMulhiZImm 85 3 106), (0x00B541EA, .sMad 85 3 106),
  (0x02B541EA, .sMadImm 85 3 106), (0x40B541EA, .vMad 85 3 106), (0x42B541EA, .vMadImm 85 3 106),
  (0x00D541EA, .sMinS 85 3 106), (0x02D541EA, .sMinSImm 85 3 106), (0x40D541EA, .vMinS 85 3 106),
  (0x42D541EA, .vMinSImm 85 3 106), (0x00F541EA, .sMaxS 85 3 106), (0x02F541EA, .sMaxSImm 85 3 106),
  (0x40F541EA, .vMaxS 85 3 106), (0x42F541EA, .vMaxSImm 85 3 106), (0x011541EA, .sMinZ 85 3 106),
  (0x031541EA, .sMinZImm 85 3 106), (0x411541EA, .vMinZ 85 3 106), (0x431541EA, .vMinZImm 85 3 106)] : List (Nat × Instr)).all (fun p => reads p.1 p.2) = true := by decide +kernel

theorem test_decode_2 : ([
  (0x013541EA, .sMaxZ 85 3 106), (0x033541EA, .sMaxZImm 85 3 106), (0x413541EA, .vMaxZ 85 3 106),
  (0x433541EA, .vMaxZImm 85 3 106), (0x015541EA, .sAbsdiff 85 3 106), (0x035541EA, .sAbsdiffImm 85 3 106),
  (0x415541EA, .vAbsdiff 85 3 106), (0x435541EA, .vAbsdiffImm 85 3 106), (0x017541EA, .sAddsatS 85 3 106),
  (0x037541EA, .sAddsatSImm 85 3 106), (0x417541EA, .vAddsatS 85 3 106), (0x437541EA, .vAddsatSImm 85 3 106),
  (0x019541EA, .sSubsatS 85 3 106), (0x039541EA, .sSubsatSImm 85 3 106), (0x419541EA, .vSubsatS 85 3 106),
  (0x439541EA, .vSubsatSImm 85 3 106), (0x01B541EA, .sAvgZ 85 3 106), (0x03B541EA, .sAvgZImm 85 3 106)] : List (Nat × Instr)).all (fun p => reads p.1 p.2) = true := by decide +kernel

theorem test_decode_3 : ([
  (0x41B541EA, .vAvgZ 85 3 106), (0x43B541EA, .vAvgZImm 85 3 106), (0x041541EA, .sAnd 85 3 106),
  (0x061541EA, .sAndImm 85 3 106), (0x441541EA, .vAnd 85 3 106), (0x461541EA, .vAndImm 85 3 106),
  (0x043541EA, .sOr 85 3 106), (0x063541EA, .sOrImm 85 3 106), (0x443541EA, .vOr 85 3 106),
  (0x463541EA, .vOrImm 85 3 106), (0x045541EA, .sXor 85 3 106), (0x065541EA, .sXorImm 85 3 106),
  (0x445541EA, .vXor 85 3 106), (0x465541EA, .vXorImm 85 3 106), (0x047541EA, .sAndn 85 3 106),
  (0x067541EA, .sAndnImm 85 3 106), (0x447541EA, .vAndn 85 3 106), (0x467541EA, .vAndnImm 85 3 106)] : List (Nat × Instr)).all (fun p => reads p.1 p.2) = true := by decide +kernel

theorem test_decode_4 : ([
  (0x049541EA, .sOrn 85 3 106), (0x069541EA, .sOrnImm 85 3 106), (0x449541EA, .vOrn 85 3 106),
  (0x469541EA, .vOrnImm 85 3 106), (0x04B541EA, .sXnor 85 3 106), (0x06B541EA, .sXnorImm 85 3 106),
  (0x44B541EA, .vXnor 85 3 106), (0x46B541EA, .vXnorImm 85 3 106), (0x04D541EA, .sShl 85 3 106),
  (0x06D541EA, .sShlImm 85 3 106), (0x44D541EA, .vShl 85 3 106), (0x46D541EA, .vShlImm 85 3 106),
  (0x04F541EA, .sShr 85 3 106), (0x06F541EA, .sShrImm 85 3 106), (0x44F541EA, .vShr 85 3 106),
  (0x46F541EA, .vShrImm 85 3 106), (0x051541EA, .sSar 85 3 106), (0x071541EA, .sSarImm 85 3 106)] : List (Nat × Instr)).all (fun p => reads p.1 p.2) = true := by decide +kernel

theorem test_decode_5 : ([
  (0x451541EA, .vSar 85 3 106), (0x471541EA, .vSarImm 85 3 106), (0x053541EA, .sRotl 85 3 106),
  (0x073541EA, .sRotlImm 85 3 106), (0x453541EA, .vRotl 85 3 106), (0x473541EA, .vRotlImm 85 3 106),
  (0x055541EA, .sRotr 85 3 106), (0x075541EA, .sRotrImm 85 3 106), (0x455541EA, .vRotr 85 3 106),
  (0x475541EA, .vRotrImm 85 3 106), (0x05754180, .sClz 85 3), (0x45754180, .vClz 85 3),
  (0x05954180, .sPopc 85 3), (0x45954180, .vPopc 85 3), (0x05B54180, .sBrev 85 3),
  (0x45B54180, .vBrev 85 3), (0x05D54180, .sMov 85 3), (0x07D54003, .sMovImm 85 3)] : List (Nat × Instr)).all (fun p => reads p.1 p.2) = true := by decide +kernel

theorem test_decode_6 : ([
  (0x45D54180, .vMov 85 3), (0x47D54003, .vMovImm 85 3), (0x05F54180, .sNot 85 3),
  (0x45F54180, .vNot 85 3), (0x081541EA, .sBfeS 85 3 106), (0x481541EA, .vBfeS 85 3 106),
  (0x083541EA, .sBfeZ 85 3 106), (0x483541EA, .vBfeZ 85 3 106), (0x085541EA, .sBfi 85 3 106),
  (0x485541EA, .vBfi 85 3 106), (0x087541EA, .sPrmt 85 3 106), (0x487541EA, .vPrmt 85 3 106),
  (0x089541EA, .sAdd64 85 3 106), (0x489541EA, .vAdd64 85 3 106), (0x08B541EA, .sSub64 85 3 106),
  (0x48B541EA, .vSub64 85 3 106), (0x08D541EA, .sShl64 85 3 106), (0x48D541EA, .vShl64 85 3 106)] : List (Nat × Instr)).all (fun p => reads p.1 p.2) = true := by decide +kernel

theorem test_decode_7 : ([
  (0x08F541EA, .sShr64 85 3 106), (0x48F541EA, .vShr64 85 3 106), (0x091541EA, .sSar64 85 3 106),
  (0x491541EA, .vSar64 85 3 106), (0x093541EA, .sMul64lo 85 3 106), (0x493541EA, .vMul64lo 85 3 106),
  (0x0B540003, .sMovi 85 3), (0x4B540003, .vMovi 85 3), (0x0C1541EA, .sFadd 85 3 106),
  (0x4C1541EA, .vFadd 85 3 106), (0x0C3541EA, .sFsub 85 3 106), (0x4C3541EA, .vFsub 85 3 106),
  (0x0C5541EA, .sFmul 85 3 106), (0x4C5541EA, .vFmul 85 3 106), (0x0C7541EA, .sFfma 85 3 106),
  (0x4C7541EA, .vFfma 85 3 106), (0x0C9541EA, .sFmin 85 3 106), (0x4C9541EA, .vFmin 85 3 106)] : List (Nat × Instr)).all (fun p => reads p.1 p.2) = true := by decide +kernel

theorem test_decode_8 : ([
  (0x0CB541EA, .sFmax 85 3 106), (0x4CB541EA, .vFmax 85 3 106), (0x0CD54180, .sFabs 85 3),
  (0x4CD54180, .vFabs 85 3), (0x0CF54180, .sFneg 85 3), (0x4CF54180, .vFneg 85 3),
  (0x0D1541EA, .sFcopysign 85 3 106), (0x4D1541EA, .vFcopysign 85 3 106), (0x0D354180, .sFclass 85 3),
  (0x4D354180, .vFclass 85 3), (0x0E154180, .sFrcp 85 3), (0x4E154180, .vFrcp 85 3),
  (0x0E354180, .sFrsq 85 3), (0x4E354180, .vFrsq 85 3), (0x0E554180, .sFsqrt 85 3),
  (0x4E554180, .vFsqrt 85 3), (0x0E754180, .sFexp2 85 3), (0x4E754180, .vFexp2 85 3)] : List (Nat × Instr)).all (fun p => reads p.1 p.2) = true := by decide +kernel

theorem test_decode_9 : ([
  (0x0E954180, .sFlog2 85 3), (0x4E954180, .vFlog2 85 3), (0x0EB54180, .sFsinpi 85 3),
  (0x4EB54180, .vFsinpi 85 3), (0x0ED54180, .sFcospi 85 3), (0x4ED54180, .vFcospi 85 3),
  (0x0EF54180, .sFtanh 85 3), (0x4EF54180, .vFtanh 85 3), (0x0F154180, .sFrintNe 85 3),
  (0x4F154180, .vFrintNe 85 3), (0x0F354180, .sFrintZ 85 3), (0x4F354180, .vFrintZ 85 3),
  (0x0F554180, .sFrintDn 85 3), (0x4F554180, .vFrintDn 85 3), (0x0F754180, .sFrintUp 85 3),
  (0x4F754180, .vFrintUp 85 3), (0x101541EA, .sFaddF16x2 85 3 106), (0x501541EA, .vFaddF16x2 85 3 106)] : List (Nat × Instr)).all (fun p => reads p.1 p.2) = true := by decide +kernel

theorem test_decode_10 : ([
  (0x103541EA, .sFsubF16x2 85 3 106), (0x503541EA, .vFsubF16x2 85 3 106), (0x105541EA, .sFmulF16x2 85 3 106),
  (0x505541EA, .vFmulF16x2 85 3 106), (0x107541EA, .sFfmaF16x2 85 3 106), (0x507541EA, .vFfmaF16x2 85 3 106),
  (0x109541EA, .sFminF16x2 85 3 106), (0x509541EA, .vFminF16x2 85 3 106), (0x10B541EA, .sFmaxF16x2 85 3 106),
  (0x50B541EA, .vFmaxF16x2 85 3 106), (0x111541EA, .sFaddBf16x2 85 3 106), (0x511541EA, .vFaddBf16x2 85 3 106),
  (0x113541EA, .sFsubBf16x2 85 3 106), (0x513541EA, .vFsubBf16x2 85 3 106), (0x115541EA, .sFmulBf16x2 85 3 106),
  (0x515541EA, .vFmulBf16x2 85 3 106), (0x117541EA, .sFfmaBf16x2 85 3 106), (0x517541EA, .vFfmaBf16x2 85 3 106)] : List (Nat × Instr)).all (fun p => reads p.1 p.2) = true := by decide +kernel

theorem test_decode_11 : ([
  (0x119541EA, .sFminBf16x2 85 3 106), (0x519541EA, .vFminBf16x2 85 3 106), (0x11B541EA, .sFmaxBf16x2 85 3 106),
  (0x51B541EA, .vFmaxBf16x2 85 3 106), (0x12A0F53C, .sCvt 5 3 106 7 1), (0x52A0F53C, .vCvt 5 3 106 7 1),
  (0x14BA8BAC, .sCmp 5 6 10 23 44), (0x54BA8BAC, .vCmp 5 6 10 23 44), (0x16BA8BAC, .sFcmp 5 6 10 23 44),
  (0x56BA8BAC, .vFcmp 5 6 10 23 44), (0x19C0F517, .sSel 7 3 106 23), (0x59C0F517, .vSel 7 3 106 23),
  (0x18354000, .sPget 85), (0x58354000, .vPget 85), (0x5A1C0000, .vPpop 7),
  (0x5A3C0000, .vPdup 7), (0x5A5C0000, .vPand 7), (0x5A7C0000, .vPor 7)] : List (Nat × Instr)).all (fun p => reads p.1 p.2) = true := by decide +kernel

theorem test_decode_12 : ([
  (0x5A9C0000, .vPxor 7), (0x5ABC0000, .vPnot 7), (0x5ADC0000, .vPswap 7),
  (0x5AE00055, .vPpush 85), (0x5B000055, .vPset 85), (0x5C1541EA, .vShflIdx 85 3 106),
  (0x5C3541EA, .vShflUp 85 3 106), (0x5C5541EA, .vShflDown 85 3 106), (0x5C7541EA, .vShflXor 85 3 106),
  (0x5C9541EA, .vBcast 85 3 106), (0x5CB54180, .vVoteBallot 85 3), (0x5CD541EA, .vReduxAdd 85 3 106),
  (0x5CF541EA, .vReduxMin 85 3 106), (0x5D1541EA, .vReduxMax 85 3 106), (0x5D3541EA, .vScanIncl 85 3 106),
  (0x5D5541EA, .vScanExcl 85 3 106), (0x5D754180, .vMatch 85 3), (0x5D9541EA, .vIsect 85 3 106)] : List (Nat × Instr)).all (fun p => reads p.1 p.2) = true := by decide +kernel

theorem test_decode_13 : ([
  (0x1E1541EA, .sMovx 85 3 106), (0x5E1541EA, .vMovx 85 3 106), (0x1E3541EA, .sMovxw 85 3 106),
  (0x5E3541EA, .vMovxw 85 3 106), (0x81C1EA17, .mLd 7 3 106 23), (0x83C1EA17, .mLdPr 7 3 106 23),
  (0x85C1EA17, .mLdAcq 7 3 106 23), (0x87C1EA17, .mLdu 7 3 106 23), (0x89C1EA17, .mSt 7 3 106 23),
  (0x8BC1EA17, .mStRel 7 3 106 23), (0x8C1541EA, .mAtomAddS32 85 3 106), (0x8C3541EA, .mAtomAndB32 85 3 106),
  (0x8C5541EA, .mAtomOrB32 85 3 106), (0x8C7541EA, .mAtomXorB32 85 3 106), (0x8C9541EA, .mAtomMinS32 85 3 106),
  (0x8CB541EA, .mAtomMaxS32 85 3 106), (0x8CD541EA, .mAtomMinZ32 85 3 106), (0x8CF541EA, .mAtomMaxZ32 85 3 106)] : List (Nat × Instr)).all (fun p => reads p.1 p.2) = true := by decide +kernel

theorem test_decode_14 : ([
  (0x8D1541EA, .mAtomExchB32 85 3 106), (0x8E1541EA, .mAtomAddS64 85 3 106), (0x8E3541EA, .mAtomAndB64 85 3 106),
  (0x8E5541EA, .mAtomOrB64 85 3 106), (0x8E7541EA, .mAtomXorB64 85 3 106), (0x8E9541EA, .mAtomMinS64 85 3 106),
  (0x8EB541EA, .mAtomMaxS64 85 3 106), (0x8ED541EA, .mAtomMinZ64 85 3 106), (0x8EF541EA, .mAtomMaxZ64 85 3 106),
  (0x8F1541EA, .mAtomExchB64 85 3 106), (0x901541EA, .mAtomAddF32 85 3 106), (0x903541EA, .mAtomMinF32 85 3 106),
  (0x905541EA, .mAtomMaxF32 85 3 106), (0x907541EA, .mAtomAddF16x2 85 3 106), (0x909541EA, .mAtomAddBf16x2 85 3 106),
  (0x92002A83, .mRedAddS32 85 3), (0x92202A83, .mRedAddS64 85 3), (0x92402A83, .mRedAddF32 85 3)] : List (Nat × Instr)).all (fun p => reads p.1 p.2) = true := by decide +kernel

theorem test_decode_15 : ([
  (0x92602A83, .mRedMinS32 85 3), (0x92802A83, .mRedMaxS32 85 3), (0x92A02A83, .mRedMinZ32 85 3),
  (0x92C02A83, .mRedMaxZ32 85 3), (0x92E02A83, .mRedAndB32 85 3), (0x93002A83, .mRedOrB32 85 3),
  (0x93202A83, .mRedXorB32 85 3), (0x93402A83, .mRedMinF32 85 3), (0x93602A83, .mRedMaxF32 85 3),
  (0x93802A83, .mRedAddF16x2 85 3), (0x93A02A83, .mRedAddBf16x2 85 3), (0x941541EA, .mCasB32 85 3 106),
  (0x943541EA, .mCasB64 85 3 106), (0x97C00000, .mFenceAcq 7), (0x97D00000, .mFenceRel 7),
  (0x97E00000, .mFenceFull 7), (0x98A001EA, .mMwait 5 3 106), (0x9A002A80, .mPgreq 85)] : List (Nat × Instr)).all (fun p => reads p.1 p.2) = true := by decide +kernel

theorem test_decode_16 : ([
  (0x9A354180, .mPgprobe 85 3), (0x9A402A80, .mPref 85), (0x9C1541EA, .mTexSample 85 3 106),
  (0x9C3541EA, .mTexSampleLod 85 3 106), (0x9C5541EA, .mTexSampleGrad 85 3 106), (0x9C7541EA, .mTexFetch 85 3 106),
  (0x9C9541EA, .mTexGath4 85 3 106), (0x9E1541EA, .mTexqSize 85 3 106), (0x9E354180, .mTexqLevels 85 3),
  (0x9E554180, .mTexqFormat 85 3), (0xA0154301, .eCpy 85 3 1), (0xA2154300, .eGath 85 3),
  (0xA4A0EA00, .eScat 5 3 42), (0xA6154000, .eMma 85), (0xA8154000, .eMsrch 85),
  (0xAA154000, .eQuant 85), (0xAC154300, .eKselThr 85 3), (0xAC354300, .eKselTopk 85 3)] : List (Nat × Instr)).all (fun p => reads p.1 p.2) = true := by decide +kernel

theorem test_decode_17 : ([
  (0xAE154300, .eKgat 85 3), (0xB0154300, .eKsum 85 3), (0xB2154000, .eSpawn 85),
  (0xB2354003, .eSpawnDie 85 3), (0xB4154003, .eEnq 85 3), (0xB6154300, .eSsbld 85 3),
  (0xB8154006, .eBind 85 6), (0xBA154000, .eEmit 85), (0xBC154000, .eRelaunch 85),
  (0xBE154000, .eTdset 85), (0xC1F26A6A, .cBr 7 6 158314), (0xC2A80003, .cCall 21 3),
  (0xC4002A80, .cJmp 85), (0xC4354180, .cCallx 85 3), (0xC4402A80, .cRet 85),
  (0xC6A8752E, .cWait 21 3 42 23), (0xC8002A80, .cTwaitAny 85), (0xC8202A80, .cTwaitAll 85)] : List (Nat × Instr)).all (fun p => reads p.1 p.2) = true := by decide +kernel

theorem test_decode_18 : ([
  (0xC8554180, .cTffs 85 3), (0xC8602A80, .cTclr 85), (0xCA1CC000, .cBarArrive 7 3),
  (0xCA3CC000, .cBarWait 7 3), (0xCA5CC000, .cBarSync 7 3), (0xCC000000, .cNop),
  (0xCC200000, .cYield), (0xCC400000, .cExit), (0xCC600055, .cBrk 85),
  (0xCE000007, .cTrap 7), (0xD0154180, .yGsr 85 3), (0xD2002A83, .ySsr 85 3),
  (0xD4002A83, .yResume 85 3), (0xD4202A83, .yKill 85 3), (0xD6154180, .yCtxinfo 85 3),
  (0xFC555555, .hImm 5592405), (0xFE1F0000, .hGuard 7 6), (0xFE1F4000, .hGuardNot 7 6)] : List (Nat × Instr)).all (fun p => reads p.1 p.2) = true := by decide +kernel

theorem test_decode_19 : ([
  (0xFE354000, .hSrc3 85), (0xFE554002, .hReuse 85 2), (0xFE754181, .hLast 85 3 1),
  (0xFE980000, .hRnd 3), (0xFEBC0000, .hScope 7), (0xFED50000, .hSched 21),
  (0xFEFC0000, .hCache 7)] : List (Nat × Instr)).all (fun p => reads p.1 p.2) = true := by decide +kernel

/-- Words that the spec leaves unallocated or reserved are refused by name (R58). -/
theorem test_decode_refuses :
    (match decodeWord 0x01C00000 with | .error .illegalOpcode => true | _ => false) = true ∧
    (match decodeWord 0x96300000 with | .error (.reservedField m) => m == 0x00300000 | _ => false) = true ∧
    (match decodeWord 0xCC400001 with | .error (.reservedField m) => m == 1 | _ => false) = true ∧
    (match decodeBytes [0#8, 0#8, 0#8] with | .error .truncated => true | _ => false) = true := by decide +kernel

/-! ### Witnesses: states that meet the hypotheses of the statements

`here` is a small state: one context whose page of 64 KiB at address 0 lies in HBM, one launch, one block, one warp of 32 ready
lanes with zeros in its registers, its run selected for issue. -/

/-- The selected run. -/
def hereSel : Sel := { warp := 3, run := allLanes, ready := allLanes, first := 0#56, addr := 0#56, word := 0#32 }

/-- The state at issue. -/
def here : State := { placeWord State.reset 0 with cur := some hereSel }

/-- `here` with its warp and its context changed. -/
def hereWith (f : Warp → Warp) (g : Ctx → Ctx) : State := { here with warps := [f placedWarp], ctxs := [g placedCtx] }

/-- Bytes in the page of `here`: HBM from 0x10000 on. -/
def placeBytes (s : State) (va : Nat) (bytes : List Nat) : State :=
  { s with mem := Memory.writeN s.mem (0x10000 + va) bytes.length (leNat bytes) }

/-- An answer that is not an error. -/
def fine {ε α : Type} (e : Except ε α) : Bool := match e with | .ok _ => true | .error _ => false

theorem ok_of_fine {ε α : Type} {e : Except ε α} (h : fine e = true) : ∃ v, e = .ok v := by
  cases e with
  | ok v => exact ⟨v, rfl⟩
  | error e => cases h

/-- The issue begins, with what `p` says of it. -/
def begins (s : State) (i : Info) (p : Cx → Bool) : Bool := match beginIssue s i with | .ok (.ok x) => p x | _ => false

theorem begins_of {s : State} {i : Info} {p : Cx → Bool} (h : begins s i p = true) : ∃ x, Begins s i x ∧ p x = true := by
  unfold begins at h
  split at h
  · rename_i x hx
    exact ⟨x, hx, h⟩
  · cases h

/-- Nothing of the warp is pending or uncorrectable, and every lane is active. -/
def calm (x : Cx) : Bool :=
  x.w.bad.isEmpty && x.w.alloc == 128 && x.w.marks.isEmpty && x.act == allLanes && x.w.ops.isEmpty &&
  (List.range 32).all (fun l => (List.range 8).all (fun k => ((x.w.lane l).pred k).pend == none))

theorem lane_mod (l : Nat) (h : ¬ l < 32) (m : Mask) : inMask m l = false := by
  unfold inMask
  rw [BitVec.getLsbD_of_ge]
  omega

theorem calm_ready {x : Cx} (h : calm x = true) (m : Mask) (srcs dsts : List Nat) (hs : ∀ n ∈ srcs, n < 128) (hd : ∀ n ∈ dsts, n < 128) :
    Ready x.w m srcs dsts := by
  simp only [calm, Bool.and_eq_true, beq_iff_eq, List.isEmpty_iff] at h
  exact ⟨fun n hn => ⟨by rw [h.1.1.1.1.2]; exact hs n hn, fun l _ => by simp [Warp.isPending, Warp.isBad, h.1.1.1.1.1, h.1.1.1.2]⟩,
    fun n hn => ⟨by rw [h.1.1.1.1.2]; exact hd n hn, fun l _ => by simp [Warp.isPending, h.1.1.1.2]⟩⟩

theorem calm_preds {x : Cx} (h : calm x = true) (m : Mask) (ks : List Nat) (hk : ∀ k ∈ ks, k < 8) : PredsReady x.w m ks := by
  simp only [calm, Bool.and_eq_true, List.all_eq_true, List.mem_range, beq_iff_eq] at h
  intro k hkm l hl
  by_cases h32 : l < 32
  · exact h.2 l h32 k (hk k hkm)
  · rw [lane_mod l h32 m] at hl
    cases hl

/-- What the words' own checks are toward R66, for the forms of the statements: none of `here`'s words breaks them. -/
def infos : List Info :=
  [Info.of 0 false false false, Info.of 1 false false false, Info.of 0 true false false, Info.of 1 true false false,
   Info.of 0 false true false, Info.of 1 false true false, Info.of 0 true true false, Info.of 1 true true false,
   Info.of 0 false false true, Info.of 1 false false true, Info.of 0 false true true, Info.of 1 false true true,
   (Info.of 0 true false false).bad (moviBad here 5), (Info.of 1 true false false).bad (moviBad here 5),
   Info.plain 0, Info.plain 1, Info.plain 3, cvtInfo 0 2 4 6 0 0, cvtInfo 1 2 4 6 0 0, cvtInfo 0 9 4 6 2 0, cvtInfo 1 9 4 6 2 0,
   cmpInfo 0 2 0 0 4 6, cmpInfo 1 5 3 3 4 6, fcmpInfo 0 6 0 0 4 6, fcmpInfo 1 13 2 3 4 6, typedInfo 0, typedInfo 1, typedInfo 2,
   memInfo true false (memReserved false 2 4 6), memInfo true true (memReserved false 6 4 6), memInfo true false (memReserved true 4 4 6),
   memInfo true true (memReserved true 0 4 6), memInfo false true (maReserved 8 4 6 8 true), memInfo false true (maReserved 4 4 6 8 true),
   memInfo false true (maReserved 8 0 6 8 false), memInfo false false (texReserved 4 6 8 true), memInfo false false 0]

theorem begins_here : infos.all (fun i => begins here i calm) = true := by decide +kernel

/-- Integer and floating-point functions, conversions, compares, the predicate stack, the cross-lane functions, the loads, stores,
atomics, textures and fences: the issue begins, every register below the allocation and every predicate is ready. -/
theorem witness_issue : ∀ i ∈ infos, ∃ x, Begins here i x ∧ (∀ m srcs dsts, (∀ n ∈ srcs, n < 128) → (∀ n ∈ dsts, n < 128) → Ready x.w m srcs dsts) ∧
    (∀ m ks, (∀ k ∈ ks, k < 8) → PredsReady x.w m ks) ∧ x.act = allLanes ∧ ∀ k, x.w.outstanding k < 63 := by
  intro i hi
  have h := List.all_eq_true.mp begins_here i hi
  obtain ⟨x, hx, hc⟩ := begins_of h
  refine ⟨x, hx, calm_ready hc, calm_preds hc, ?_, ?_⟩
  · simp only [calm, Bool.and_eq_true, beq_iff_eq] at hc
    exact hc.1.1.2
  · intro k
    simp only [calm, Bool.and_eq_true, List.isEmpty_iff] at hc
    simp [Warp.outstanding, hc.1.2]

/-- The check that registers are ready, to be read or written (R8, R9, R33, R358). -/
def readyB (w : Warp) (m : Mask) (regs : List Nat) : Bool :=
  regs.all (fun n => decide (n < w.alloc) && (List.range 32).all (fun l => !inMask m l || (!w.isPending l n && !w.isBad l n)))

theorem ready_of {w : Warp} {m : Mask} {srcs dsts : List Nat} (h : readyB w m (srcs ++ dsts) = true) : Ready w m srcs dsts := by
  have one : ∀ n ∈ srcs ++ dsts, n < w.alloc ∧ ∀ l, inMask m l = true → w.isPending l n = false ∧ w.isBad l n = false := by
    simp only [readyB, List.all_eq_true, Bool.and_eq_true, decide_eq_true_eq, List.mem_range] at h
    intro n hn
    refine ⟨(h n hn).1, fun l hl => ?_⟩
    by_cases h32 : l < 32
    · simpa [hl] using (h n hn).2 l h32
    · rw [lane_mod l h32 m] at hl
      cases hl
  exact ⟨fun n hn => one n (List.mem_append_left _ hn),
    fun n hn => ⟨(one n (List.mem_append_right _ hn)).1, fun l hl => ((one n (List.mem_append_right _ hn)).2 l hl).1⟩⟩

/-! ### Words that reach memory -/

/-- The lanes' accesses are judged good. -/
def placesB (x : Cx) (f : Form) (field n : Nat) (addr : Nat → Nat) (m : Mask) : Bool :=
  fine (judgeLanes x.s x.c x.w.block f field n addr m)

/-- `here` with no lane that passes its guard: the hint `h.guard p0` stands before the word and every predicate is false. -/
def idle : State := hereWith (fun w => { w with group := [0xFE000000#32], groupRun := allLanes, groupReady := allLanes }) id

/-- The run is lane 0 alone. -/
def lone (s : State) : State := { s with cur := some { hereSel with run := oneLane 0 } }

/-- A lane is active, and the counter has room. -/
def busy (x : Cx) (k : Nat) : Bool := x.act != 0#32 && decide (x.w.outstanding k < 63)

/-- No lane is active, and the counter has room. -/
def empty_ (x : Cx) (k : Nat) : Bool := x.act == 0#32 && decide (x.w.outstanding k < 63)

/-- LoadsIssue, StoresIssue: 32 and 128 bits and a sign-extended byte at address 0, plain and with the scope hint allowed, and with no
lane active. -/
theorem witness_loads_stores :
    [(2, 4), (5, 4), (4, 124)].all (fun p => [(lone here, busy), (idle, empty_)].all (fun h => [true, false].all (fun acq =>
      let n := sizeBytes p.1
      begins h.1 (memInfo true acq (memReserved false p.1 p.2 6)) (fun x =>
        let addr := x.addr 6 (byteOffset x.hints 0 n)
        readyB x.w x.act ([6, 7] ++ sizeRegs p.2 n) && placesB x .load 0 n addr x.act && readyB x.w (oneLane x.lead) [6, 7]
          && readyB x.w x.w.live (sizeRegs p.2 n) && placesB x .load 0 n addr (if x.act = 0#32 then 0#32 else oneLane x.lead)
          && h.2 x 0)))) &&
    [(2, 4), (0, 127), (4, 124)].all (fun p => [(lone here, busy), (idle, empty_)].all (fun h => [true, false].all (fun rel =>
      let n := sizeBytes p.1
      begins h.1 (memInfo true rel (memReserved true p.1 p.2 6)) (fun x =>
        readyB x.w x.act ([6, 7] ++ regsFrom p.2 ((n + 3) / 4)) && placesB x .store 0 n (x.addr 6 (byteOffset x.hints 0 n)) x.act
          && h.2 x 1)))) = true := by decide +kernel

/-- AtomicsIssue: 32 and 64 bits, those that may leave for a remote page and those that may not. -/
theorem witness_atomics :
    [4, 8].all (fun n => [true, false].all (fun remote => [(here, busy), (idle, empty_)].all (fun h =>
      begins h.1 (memInfo false true (maReserved n 4 6 8 true)) (fun x =>
        readyB x.w x.act ([6, 7] ++ regsFrom 8 (n / 4) ++ regsFrom 4 (n / 4)) && placesB x (.atomic remote) x.opField n (x.addr 6 0) x.act
          && h.2 x 0) &&
      begins h.1 (memInfo false true (maReserved n 0 6 8 false)) (fun x =>
        readyB x.w x.act ([6, 7] ++ regsFrom 8 (n / 4)) && placesB x (.reduce remote) x.opField n (x.addr 6 0) x.act && h.2 x 1)))) =
      true := by decide +kernel

/-- A texture descriptor at address 0: 4 by 4 texels, format 1, one level, base 0. -/
def texHere (s : State) : State := placeBytes s 0 [0, 0, 0, 0, 0, 0, 0, 0, 3, 0, 3, 0, 1, 1, 0, 0]

/-- TexturesIssue: each of the five sampling forms and the three queries, with a lane active and with none. -/
theorem witness_textures :
    [(false, 0, 4), (false, 1, 4), (false, 2, 8), (false, 3, 4), (false, 4, 4), (true, 0, 1), (true, 1, 0), (true, 2, 0)].all (fun f =>
      [(lone (texHere here), busy), (texHere idle, empty_)].all (fun h =>
      begins h.1 (memInfo false false (if f.1 then misaligned 4 14 1 + misaligned 6 7 1 else texReserved 4 6 8 (f.2.2 == 8))) (fun x =>
        readyB x.w x.act ([6, 7] ++ regsFrom 8 f.2.2 ++ regsFrom 4 4) && placesB x .load x.opField 64 (x.addr 6 0) x.act &&
        (lanesOf x.act).all (fun l => match descNow x.s x.w (x.addr 6 0 l) with
          | some t => descOk t && (f.1 || (rangeErrs x.s x.c x.w l (planRanges (TexDesc.read t) (planOf (TexDesc.read t) f.2.1
              (if f.2.1 = 0 then sampleArgs 8 x l else (regsFrom 8 f.2.2).map (x.w.val l) ++ (if f.2.1 = 2 then [1] else [])) x.s.free))).isEmpty)
          | none => false)
        && h.2 x 0))) = true := by decide +kernel

/-- `here` with the failure of a remote store noted for the warp's next fence. -/
def lateHere : State :=
  hereWith (fun w => { w with lateFaults := [{ cause := 0x43, lanes := 1#32, addr := 0, detail := [0] }] }) id

/-- Fences: no active lane; a scope below fabric; fabric with no failure noted, with one, and with one already raised. -/
theorem witness_fences :
    begins idle (memInfo false false 0) (fun x => x.act == 0#32) &&
    begins here (memInfo false false 0) (fun x => x.act != 0#32 && x.w.lateFaults.isEmpty && x.s.lines.isEmpty) &&
    begins lateHere (memInfo false false 0) (fun x => x.act != 0#32 && !x.w.lateFaults.isEmpty && x.s.lines.isEmpty &&
      (lanesOf x.run).all (fun l => !(x.w.lane l).pastFence)) &&
    begins (hereWith (fun w => (lateHere.warps.headD w).mapLanes 1#32 (fun _ y => { y with pastFence := true })) id) (memInfo false false 0)
      (fun x => x.act != 0#32 && inMask x.run 0 && (x.w.lane 0).pastFence) = true := by decide +kernel

/-- MonitorWait: at address 0, where the word is 0 as the value is: op 0 (equal) holds and op 1 does not; 64 bits as well. -/
theorem witness_mwait :
    [(0, 4, true), (1, 4, false), (8, 8, true), (9, 8, false)].all (fun p =>
      begins (placeBytes here 0 [0, 0, 0, 0, 0, 0, 0, 0]) { memInfo false false (maReserved p.2.1 0 6 8 false) with illegal := p.1 % 8 == 7 } (fun x =>
        let l := leadOf x.act
        x.act != 0#32 && readyB x.w (oneLane l) ([6, 7] ++ regsFrom 8 (p.2.1 / 4))
          && placesB x .monitor x.opField p.2.1 (x.addr 6 0) (oneLane l) && x.s.lines.isEmpty && x.l.rec_.trace == 0
          && monitorHolds p.1 p.2.1 (wordNow x.s x.c x.w.block (x.addr 6 0 l) p.2.1) (x.w.words l 8 (p.2.1 / 4)) == p.2.2)) &&
    begins idle { memInfo false false (maReserved 4 0 6 8 false) with illegal := false } (fun x => x.act == 0#32) = true := by
  decide +kernel

/-- PageHints. -/
theorem witness_pages :
    [(here, busy), (idle, empty_)].all (fun h => begins h.1 (memInfo false false (misaligned 6 7 1)) (fun x =>
      readyB x.w x.act [6, 7, 4] && (lanesOf x.act).all (fun l => (pgreqErr x.s x.c (x.addr 6 0 l)).isNone && decide (x.addr 6 0 l < 2 ^ 56))
        && h.2 x 0)) = true := by decide +kernel

/-- RelativeRegisters: index 0 with offset 5, and with offset 127. -/
theorem witness_relative :
    [5, 127].all (fun k => [0, 1].all (fun t => begins here (Info.plain t) (fun x =>
      readyB x.w (oneLane x.lead) [2, 4, (x.w.reg x.lead 2).toNat + k] && readyB x.w x.w.live [4, (x.w.reg x.lead 2).toNat + k] &&
      readyB x.w x.act [2, 4] && (lanesOf x.act).all (fun l => readyB x.w (oneLane l) [(x.w.reg l 2).toNat + k])))) = true := by
  decide +kernel

/-! ### Control words and traps -/

/-- Transfers: `c.br` in mode 0 and in modes 1 and 5 with p7, the calls and jumps at pair 2, addresses below 2^56. -/
theorem witness_transfers :
    [(0, 0), (7, 1), (7, 5), (0, 3)].all (fun p => begins here { Info.plain 3 with reserved := brReserved p.1 p.2 } (fun x =>
      (lanesOf x.run).all (fun l => ((x.w.lane l).pred p.1).pend == none))) &&
    begins here (Info.plain 3) (fun x => readyB x.w x.run [2, 3, 4, 5] && (lanesOf x.run).all (fun l => decide ((x.w.dword l 2).toNat < 2 ^ 56)))
      = true := by decide +kernel

/-- An operation on LD that has issued first. -/
def firstOp (st : OpState) : Op :=
  { id := 3, counter := 0, seq := 0, kind := .load 4 4 false false false none, parts := [], scope := 0, tag := none, state := st }

/-- `here` with one operation outstanding. -/
def withOp (st : OpState) : State := hereWith (fun w => { w with ops := [firstOp st], issued := #v[1, 0, 0, 0] }) id

/-- A failure. -/
def someFault : OpFault := { cause := 0x15, lanes := 1#32, addr := 8, detail := [] }

/-- CounterWaits: nothing outstanding; an operation that has failed; one that runs. -/
theorem witness_waits :
    begins here (Info.plain 3) (fun x => x.w.ops.isEmpty) &&
    begins (withOp (.failed someFault)) (Info.plain 3) (fun x => decide (0 < x.w.issuedOn 0) && x.w.ops == [firstOp (.failed someFault)]) &&
    begins (withOp .running) (Info.plain 3) (fun x => decide (0 < x.w.issuedOn 0) && x.w.ops == [firstOp .running]) = true := by decide +kernel

/-- TagInstructions: the mask in pair 6 is 0, and in lane 0's pair 2 it is bit 0 with the tag set and clear. -/
theorem witness_tags :
    [(0#64, false), (1#64, true), (1#64, false)].all (fun p =>
      begins (hereWith (fun w => { w with regs := w.regs.set 6 (.uniform (p.1.setWidth 32)) })
          (fun c => if p.2 then { c with tagsClear := [(0, 1#64)] } else c)) (Info.plain 3) (fun x =>
        readyB x.w (oneLane x.lead) [6, 7] && readyB x.w x.w.live [4] && x.w.dword x.lead 6 == p.1 &&
        (tagMap x.c 0 &&& p.1 == if p.2 then 0#64 else p.1))) = true := by decide +kernel

/-- `here` with each lane arrived at barrier 1 of scope 0 in phase 0, and the barrier in a phase. -/
def arrived (phase : Nat) : State :=
  { hereWith (fun w => w.mapLanes allLanes (fun _ y => { y with arrivals := [{ scope := 0, id := 1, phase := 0, before := 0 }] })) id with
    bars := [{ key := 5, scope := 0, id := 1, owner := 3, group := 0, phase := phase, expected := 0 }] }

/-- BarrierInstructions: a scope without owner; no arrival at a scope that has one; arrivals in the current phase and in one that is
over; an arrival of one lane and none of another. -/
theorem witness_barriers :
    begins here (Info.plain 3) (fun x => (barOwner x.s x.w x.l 5).isNone) &&
    [0, 1].all (fun sc => begins here (Info.plain 3) (fun x => (barOwner x.s x.w x.l sc).isSome && x.run != 0#32 &&
      (lanesOf x.run).all (fun l => (x.w.lane l).arrivalAt sc 1 == none))) &&
    [0, 1].all (fun ph => begins (arrived ph) (Info.plain 3) (fun x => (barOwner x.s x.w x.l 0).isSome &&
      (lanesOf x.run).all (fun l => ((x.w.lane l).arrivalAt 0 1).isSome) && (x.s.needBar 0 1 3 0).1.phase == ph &&
      waitPhase x.wd x.run 0 1 == 0)) &&
    begins { arrived 0 with warps := (arrived 0).warps.map (fun w => w.mapLanes 1#32 (fun _ y => { y with arrivals := [] })) } (Info.plain 3) (fun x =>
      (barOwner x.s x.w x.l 0).isSome && inMask x.run 0 && (x.w.lane 0).arrivalAt 0 1 == none && inMask x.run 1 &&
      ((x.w.lane 1).arrivalAt 0 1).isSome) = true := by decide +kernel

/-- A seed warp of a launch that has 32 lanes to count. -/
def seedHere : State :=
  { hereWith (fun w => { w with kind := .seed, block := none }) id with launches := [{ placedLaunch with kind := .seed, spawned := 32 }] }

/-- OtherControl: a warp that does not count; the last warp of a SEED launch whose count the device holds. -/
theorem witness_control :
    begins here (Info.plain 3) (fun x => !x.w.counts && x.w.ops.isEmpty) &&
    begins seedHere (Info.plain 3) (fun x => x.w.counts && x.l.kind == .seed && x.l.rec_.spawnCtr == 0 && !x.c.stepping && x.w.ops.isEmpty &&
      decide ((lanesOf (x.run &&& x.w.live)).length ≤ x.l.spawned)) = true := by decide +kernel

/-- SpecialRegisters: every number assigned, of a lane and of the warp, single and pair; the two that are written; the five context
items. -/
theorem witness_special :
    (List.range 128).all (fun r => !srAssigned r ||
      begins here { Info.plain 3 with illegal := !srAssigned r, reserved := if srPair r then misaligned 4 14 1 else 0 } (fun x =>
        x.l.rec_.trace == 0 && readyB x.w x.run [4] && readyB x.w x.w.live [4, 5])) &&
    [0, 14, 32, 38].any srPerLane && [0, 14, 32, 38].any srPair && srAssigned 1 && !srPerLane 1 && !srPair 1 &&
    begins here { Info.plain 3 with illegal := false } (fun x => readyB x.w x.run [6] && readyB x.w (oneLane x.lead) [6]) &&
    (List.range 5).all (fun n =>
      begins here { Info.plain 3 with illegal := decide (n > 4), reserved := if n = 2 then misaligned 4 14 1 else 0 } (fun x =>
        x.l.rec_.trace == 0 && readyB x.w x.w.live (if n = 2 then [4, 5] else [4]))) = true := by decide +kernel

/-- SpecialRegisters: a placed warp of a block whose launch has a level, and counters below 64. -/
theorem witness_special_values :
    begins { here with launches := [{ placedLaunch with rec_ := { placedLaunch.rec_ with levels := [{ extent := 4, domain := 0, scope := 0 }] } }] } (Info.plain 3)
      (fun x => x.w.core?.isSome && (x.w.block.bind x.s.block?).isSome && x.l.rec_.levels[0]?.isSome && x.l.rec_.levels[1]? == none &&
        x.l.rec_.levels.all (fun u => decide (1 ≤ u.extent)) && (List.range 4).all (fun k => decide (x.w.outstanding k < 64))) = true := by
  decide +kernel

/-- A warp whose lanes are stopped under handle 7. -/
def stoppedHere : Warp := { placedWarp.mapLanes allLanes (fun _ y => { y with cond := .stopped 7 }) with id := 4 }

/-- The handler's run of lane 0, handle and mask in registers 2 and 3. -/
def handlerHere (kind : WarpKind) (h : Nat) (run : Mask) : State :=
  { hereWith (fun w => { w with kind := kind, regs := w.regs.set 2 (.uniform (BitVec.ofNat 32 h)) }) id with
    warps := [{ placedWarp with kind := kind, regs := placedWarp.regs.set 2 (.uniform (BitVec.ofNat 32 h)) }, stoppedHere]
    cur := some { hereSel with run := run, ready := run }, nextId := 5 }

/-- HandlerReturns: a handler and the warp stopped under its handle; a warp that is no handler; a handle that stops no lane. -/
theorem witness_handlers :
    begins (handlerHere (.handler 7) 7 (oneLane 0)) (Info.plain 3) (fun x =>
      let s1 := x.finish x.s x.wd (fun _ => x.next) false
      x.w.kind == .handler 7 && x.run == oneLane x.lead && readyB x.w x.run [2, 3] && handleInUse x.s x.w.ctx (x.w.val x.lead 2) &&
      (match stoppedWarp s1 x.w.ctx (x.w.val x.lead 2) with
        | some w => !w.counts && w.ops.isEmpty && s1.warp? w.id == some w
        | none => false)) &&
    begins (handlerHere .static 7 allLanes) (Info.plain 3) (fun x => readyB x.w x.run [2, 3] && x.w.kind == .static &&
      (lanesOf x.run).all (fun l => handleInUse x.s x.w.ctx (x.w.val l 2))) &&
    begins (handlerHere (.handler 7) 8 (oneLane 0)) (Info.plain 3) (fun x => readyB x.w x.run [2, 3] && x.run == oneLane x.lead &&
      !handleInUse x.s x.w.ctx (x.w.val x.lead 2)) = true := by decide +kernel

/-- Hints: a run is selected. -/
theorem witness_hints : here.cur = some hereSel ∧ here.warp? hereSel.warp = some placedWarp := by decide +kernel

/-- TrapEntry: a warp that is no handler under a trap entry, one without, and a handler. -/
theorem witness_trap :
    (here.warp? 3 = some placedWarp ∧ here.ctx? 0 = some placedCtx ∧ here.launch? 1 = some placedLaunch ∧ placedWarp.kind = .static ∧
      placedLaunch.rec_.trapEntry ≠ 0 ∧ waitingHandlers here 0 < 1023 ∧ placedWarp.id < here.nextId ∧ (∀ v ∈ here.warps, v.id < here.nextId)) ∧
    { placedLaunch.rec_ with trapEntry := 0 }.trapEntry = 0 ∧
    ((handlerHere (.handler 7) 7 (oneLane 0)).warp? 3).map Warp.kind = some (.handler 7) := by decide +kernel

/-- RegisterTraps: what a run of lanes names, and the least lane that names a bad register. -/
def badFirst (m : Mask) (regs : Nat → List Nat) (p : Nat → Nat → Bool) (n : Nat) : Bool :=
  (((lanesOf m).find? (fun l => (regs l).any (p l))).bind (fun l => (regs l).find? (p l))) == some n

/-- RegisterTraps: register 16 of an allocation of 16, register 5 pending in lane 1, and uncorrectable data in register 5 of lane 0, for both
twins with and without a rounding mode, an immediate and a third source, a pair, `movi` and `cvt`. -/
theorem witness_registers :
    let infos (k : Nat) : List Info := [Info.of k false false false, Info.of k false false true, Info.of k true false false,
      Info.of k false true false, Info.of k true true false, Info.of k false true true, (Info.of k true false false).bad (moviBad here 5),
      cvtInfo k 2 4 6 0 0]
    [0, 1].all (fun k => (infos k).all (fun i =>
      let who (x : Cx) : Mask := if k = 0 then x.w.live else x.act
      let of (srcs dsts : List Nat) (x : Cx) (l : Nat) : List Nat := (if k = 1 ∨ l = x.lead then srcs else []) ++ dsts
      let inside (x : Cx) (f : Cx → Nat → List Nat) : Bool := (lanesOf (who x)).all (fun l => (f x l).all (fun n => decide (n < x.w.alloc)))
      begins (hereWith (fun w => { w with regs := w.regs.take 16 }) id) i (fun x =>
        x.w.alloc == 16 && badFirst (who x) (of [4, 3] [16] x) (fun _ n => decide (x.w.alloc ≤ n)) 16) &&
      begins (hereWith (fun w => { w with marks := [{ reg := 5, lanes := 2#32, seq := 0 }] }) id) i (fun x =>
        inside x (of [4, 6] [5]) && badFirst (who x) (of [4, 6] [5] x) x.w.isPending 5) &&
      begins (hereWith (fun w => { w with bad := [(5, 0)] }) id) i (fun x =>
        inside x (of [4, 5] [6]) && (lanesOf (who x)).all (fun l => (of [4, 5] [6] x l).all (fun n => !x.w.isPending l n)) &&
        inMask (who x) 0 && x.lead == 0 && x.w.isBad 0 5))) = true := by decide +kernel

/-- WordTraps and NoInstruction: the selected run, its warp, context and launch; words that are no instruction. -/
theorem witness_words :
    (here.cur = some hereSel ∧ here.warp? 3 = some placedWarp ∧ here.ctx? 0 = some placedCtx ∧ here.launch? 1 = some placedLaunch ∧
      placedWarp.group = []) ∧
    wordCell 0x01C00000 = none ∧ isHint 0x01C00000 = false ∧
    wordCell 0xCC400001 = some 1 ∧ isHint 0xCC400001 = false ∧ operandIllegal 0xCC400001 = false ∧ isHint 0xFE000001 = true ∧
    (match resolve here placedCtx (some 2) .fetch 0 0x10000 4 with | .error (.trap _ va _) => va == 0x10000 | _ => false) = true := by decide +kernel

/-! ### Engine words and registrations -/

/-- The bytes of a reserved field are zero. -/
def zerosB (bytes : List Nat) (lo n : Nat) : Bool := (List.range n).all (fun i => bytes.getD (lo + i) 0 == 0)

/-- The restart word keeps to R273. -/
def restartB (bytes : List Nat) (total : Nat) : Bool :=
  (!restartV bytes || decide (restartAt bytes < total)) && (restartV bytes || fieldAt bytes 32 4 == 0)

/-- The BAR field keeps to R278. -/
def barB (w : Warp) (bytes : List Nat) : Bool :=
  decide (bytes.getD 28 0 < 32) && zerosB bytes 29 3 && (decide (bytes.getD 28 0 < 16) || w.block.isSome)

def namesB (bytes : List Nat) (o : Nat) : Bool := decide (fieldAt bytes o 2 ≤ 4095)

def withinB (bytes : List Nat) (o n lo hi : Nat) : Bool := decide (lo ≤ fieldAt bytes o n) && decide (fieldAt bytes o n ≤ hi)

/-- A plain tensor of two dimensions. -/
def ten (id fmt base rows cols : Nat) : Tensor :=
  let es := elemBytes fmt
  { id := id, base := base, fmt := fmt, ndim := 2, swz := 0, trl := false, lay := false, sumd := false
    ext := [cols, rows, 0, 0, 0], str := [(es : Int), (es * cols : Nat), 0, 0, 0], scaleb := 0, tagb := 0, sumb := 0, page := 0 }

/-- Lane 0 runs alone, tensors are set, the block at address 0 is `bytes`, the block of warps has one scratchpad page and one tile. -/
def eng (ts : List Tensor) (bytes : List Nat) : State :=
  { lone (placeBytes (hereWith id (fun c => { c with tensors := ts })) 0 bytes) with blocks := [{ placedBlock with pages := 1, tileCount := 1 }] }

/-- The lowest active lane's pair 6 names a block that is read by a word of the checks `i`, and `q` holds of it. -/
def blockOf (i : Info) (s : State) (n align : Nat) (q : Cx → List Nat → Bool) : Bool :=
  begins s i (fun x =>
    x.act != 0#32 && readyB x.w (oneLane (leadOf x.act)) [6, 7] &&
    [1, 2, 3].all (fun k => decide (x.w.outstanding k < 63)) &&
    match readParam x.s x.w (leadOf x.act) (x.w.pair (leadOf x.act) 6) n align with
    | .ok (bytes, t) => q (x.after t) bytes
    | .error _ => false)

/-- Of a word that takes a guard, and a scope if told. -/
def block (s : State) (scopes : Bool) (n align : Nat) (q : Cx → List Nat → Bool) : Bool :=
  blockOf (memInfo false scopes (misaligned 6 14 1)) s n align q

/-- Of a word that takes no guard. -/
def bare (s : State) (n align : Nat) (q : Cx → List Nat → Bool) : Bool := blockOf (bareInfo (misaligned 6 14 1)) s n align q

/-- No lane is selected: a word that takes no guard has no lane active. -/
def nobody : State := { here with cur := some { hereSel with run := 0#32 } }

/-- Engine words with no lane active. -/
theorem witness_engine_idle :
    [true, false].all (fun sc => begins idle (memInfo false sc (misaligned 6 14 1)) (fun x => x.act == 0#32 &&
      [1, 2, 3].all (fun k => decide (x.w.outstanding k < 63)))) = true := by decide +kernel

/-- CopyCommands: a copy of one element, with a barrier signal and without. -/
theorem witness_cpy :
    [0, 16].all (fun bar => block (eng [ten 1 2 0x100 4 4, ten 2 2 0x200 4 4] ([1, 0, 2, 0] ++ List.replicate 16 0 ++ [1, 0, 0, 0, 1, 0, 0, 0, bar]))
      false 64 64 (fun x bytes =>
        match x.c.tensor? (fieldAt bytes 0 2), x.c.tensor? (fieldAt bytes 2 2) with
        | some src, some dst =>
          let k := mkCommand x .cpy 0 0 bytes [src, dst] 0
          namesB bytes 0 && namesB bytes 2 && withinB bytes 20 4 1 4096 && withinB bytes 24 4 1 4096 && barB x.w bytes && zerosB bytes 36 28 &&
          !src.isWeight && !dst.isWeight && elemBytes dst.fmt == elemBytes src.fmt && !inResidency dst.base && !inNodes dst.base &&
          src.holds 0 1 0 1 && dst.holds 0 1 0 1 && (swizzleBad 0 src dst (src.addr 0 0) (dst.addr 0 0) 1).isNone &&
          (tileBeyond x.s x.w (cpyFrom k ++ cpyTo k)).isNone && restartB bytes (sectorsOf (cpyTo k)).length
        | _, _ => false)) = true := by decide +kernel

/-- CopyCommands: a gather and a scatter of one row, for every function of `e.scat`. -/
theorem witness_gath_scat :
    block (eng [ten 1 2 0x100 4 4, ten 2 2 0x200 4 4] ([1, 0, 2, 0] ++ List.replicate 12 0 ++ [1, 0, 0, 0, 1, 0, 0, 0])) false 64 64 (fun x bytes =>
      match x.c.tensor? (fieldAt bytes 0 2), x.c.tensor? (fieldAt bytes 2 2) with
      | some tbl, some dst =>
        withinB bytes 16 4 1 65536 && withinB bytes 20 4 1 4096 && zerosB bytes 24 4 && barB x.w bytes && restartB bytes 1 && zerosB bytes 36 4 &&
        fieldAt bytes 40 8 % 4 == 0 && zerosB bytes 56 8 && !tbl.isWeight && !dst.isWeight && !inTiles tbl.base && !inTiles dst.base &&
        elemBytes dst.fmt == elemBytes tbl.fmt && !inResidency dst.base && !inNodes dst.base && tbl.holds 0 0 0 1 && dst.holds 0 1 0 1
      | _, _ => false) &&
    (List.range 14).all (fun o => [0, 1, 2, 3, 4, 9].any (fun fmt =>
      block (eng [ten 1 fmt 0x100 4 4, ten 2 fmt 0x200 4 4] ([1, 0, 2, 0] ++ List.replicate 12 0 ++ [1, 0, 0, 0, 2, 0, 0, 0])) true 64 64 (fun x bytes =>
        match x.c.tensor? (fieldAt bytes 0 2), x.c.tensor? (fieldAt bytes 2 2) with
        | some src, some tbl =>
          let fn := redFn o
          withinB bytes 16 4 1 65536 && withinB bytes 20 4 1 4096 && (!fn.isHalves || (fieldAt bytes 8 4 % 2 == 0 && fieldAt bytes 12 4 % 2 == 0 &&
            fieldAt bytes 20 4 % 2 == 0)) && zerosB bytes 24 8 && restartB bytes 1 && zerosB bytes 36 4 && fieldAt bytes 40 8 % 4 == 0 && zerosB bytes 56 8 &&
          scatFormat fn src.fmt && scatFormat fn tbl.fmt && !inTiles src.base && !inTiles tbl.base && src.holds 0 1 0 2 && tbl.holds 0 0 0 2
        | _, _ => false))) = true := by decide +kernel

/-- MatrixCommands: an `e.mma` of 16 by 16 by 1 in f16, a search of 8 by 4, a quantisation of one element. -/
theorem witness_matrix :
    block (eng [ten 1 3 0x100 16 1, ten 2 3 0x200 1 16] ([1, 0, 2, 0] ++ List.replicate 20 0 ++ [16, 0, 16, 0, 1, 0, 0, 0])) false 64 64 (fun x bytes =>
      (mmaFields bytes).isEmpty && (match mmaTensors x 0 bytes with
        | .ok (a, b, m) => (mmaLate a b bytes).isEmpty && mmaShape bytes && mmaAHolds a bytes && mmaBHolds b bytes && m.all (fun k => mmaMaskHolds k bytes)
        | .error _ => false) && (tileBeyond x.s x.w [tileBase + 65536 * bytes.getD 20 0]).isNone) &&
    block (eng [ten 1 3 0x100 8 4, ten 2 3 0x200 8 4, ten 3 0xE 0x300 4 1] ([1, 0, 2, 0, 3] ++ List.replicate 11 0 ++ [8, 0, 0, 0, 4])) false 64 64
      (fun x bytes =>
        match x.c.tensor? (fieldAt bytes 0 2), x.c.tensor? (fieldAt bytes 2 2), x.c.tensor? (fieldAt bytes 4 2) with
        | some src, some dst, some m =>
          zerosB bytes 6 2 && fieldAt bytes 8 4 == 0 && fieldAt bytes 12 4 == 0 && withinB bytes 16 4 8 8192 && withinB bytes 20 4 4 8192 && zerosB bytes 24 8 &&
          restartB bytes 1 && zerosB bytes 36 28 && msrchFormat src && msrchFormat dst && dst.fmt == src.fmt && m.fmt == 0xE && !inTiles m.base &&
          msrchHolds src bytes && msrchHolds dst bytes && m.holds 0 4 0 1
        | _, _, _ => false) &&
    block (eng [ten 1 5 0x100 8 4] ([1] ++ List.replicate 15 0 ++ [1, 0, 1])) false 64 64 (fun x bytes =>
      match x.c.tensor? (fieldAt bytes 0 2) with
      | some dst =>
        zerosB bytes 2 2 && fieldAt bytes 8 4 == 0 && bytes.getD 12 0 == 0 && bytes.getD 13 0 == 0 && zerosB bytes 14 2 && withinB bytes 16 2 1 128 &&
        withinB bytes 18 2 1 128 && !quantFixed bytes && zerosB bytes 20 12 && restartB bytes 1 && zerosB bytes 36 28 && !dst.lay && !inTiles dst.base &&
        dst.fmt == 5 && dst.holds 0 1 0 1 && (tileBeyond x.s x.w [tileBase]).isNone
      | none => false) = true := by decide +kernel

/-- A summarised key tensor of one page. -/
def keyTen (id : Nat) : Tensor := { ten id 2 0x400 2 2 with sumd := true, sumb := 0x8000, page := 64 }

/-- The key tensor of a selection command whose block names page 0 alone. -/
def rangedB (x : Cx) (bytes : List Nat) : Bool :=
  namesB bytes 0 && zerosB bytes 2 2 && withinB bytes 8 4 1 65536 && restartB bytes (fieldAt bytes 8 4) &&
  match x.c.tensor? (fieldAt bytes 0 2) with
  | some key => key.sumd && decide (fieldAt bytes 4 4 + fieldAt bytes 8 4 ≤ key.pages)
  | none => false

/-- SelectionCommands: a threshold of 0 and a top 1, a list of one place at the start of the scratchpad; a gather; a summary. -/
theorem witness_selection :
    [(false, 0), (true, 1)].all (fun q =>
      bare (eng [keyTen 1] ([1] ++ List.replicate 7 0 ++ [1, 0, 0, 0, q.2] ++ List.replicate 11 0 ++ natLe 8 scratchBase ++ [0, 0, 0, 0, 1])) 64 64
        (fun x bytes => rangedB x bytes &&
          (if q.1 then decide (1 ≤ fieldAt bytes 12 4) && decide (fieldAt bytes 12 4 ≤ fieldAt bytes 36 4) else !(Fmt.f32.decode (fieldAt bytes 12 4)).isNan) &&
          fieldAt bytes 16 8 % 4 == 0 && fieldAt bytes 24 8 % 4 == 0 && inShare x.s x.w (fieldAt bytes 24 8) (4 + 4 * fieldAt bytes 36 4) &&
          withinB bytes 36 4 1 65536 && zerosB bytes 40 24)) &&
    bare (eng [keyTen 1, ten 2 2 0x400 2 2, ten 3 2 0x600 64 2, ten 4 2 0x700 64 2] ([1, 0, 2, 0, 3, 0, 4, 0] ++ natLe 8 scratchBase)) 64 64
      (fun x bytes =>
        match x.c.tensor? (fieldAt bytes 0 2), x.c.tensor? (fieldAt bytes 2 2), x.c.tensor? (fieldAt bytes 4 2), x.c.tensor? (fieldAt bytes 6 2) with
        | some k, some v, some kd, some vd =>
          fieldAt bytes 8 8 % 4 == 0 && inShare x.s x.w (fieldAt bytes 8 8) 4 && zerosB bytes 20 8 && barB x.w bytes && fieldAt bytes 32 4 == 0 &&
          zerosB bytes 36 28 && k.sumd && v.rows == k.rows && [v, kd, vd].all (fun t => !t.isWeight && !inTiles t.base && elemBytes t.fmt == elemBytes k.fmt &&
            !inResidency t.base && !inNodes t.base)
        | _, _, _, _ => false) &&
    bare (eng [keyTen 1] ([1] ++ List.replicate 7 0 ++ [1])) 64 64 (fun x bytes => rangedB x bytes && zerosB bytes 12 20 && zerosB bytes 36 28)
      = true := by decide +kernel

/-- The record of `e.tdset`: tensor `id` of one byte element. -/
def descRecord (id : Nat) : List Nat := [id, 0, 0, 0, 0, 0, 0, 0] ++ [0, 0, 0, 0, 0, 0, 0, 0, 5, 2, 0, 0, 0, 0, 0, 0, 1, 0, 0, 0, 1] ++
  List.replicate 19 0 ++ [1]

/-- Registrations, `e.tdset`: a descriptor that is valid and one whose reserved bytes are not zero. -/
theorem witness_tdset :
    [(false, true), (true, false)].all (fun q => bare (eng [] ((if q.1 then [9, 0, 1] else [9, 0, 0]) ++ (descRecord 9).drop 3)) 136 8 (fun x bytes =>
      let id := fieldAt bytes 0 2
      let others := (x.c.tensors.filter (fun u => u.sumd && u.id != id)).length
      (decide (id ≤ 4095) && zerosB bytes 2 6 && tensorOk (readTensor id (bytes.drop 8)) (bytes.drop 8) others) == q.2)) = true := by
  decide +kernel

/-- A sample-set header (R292): 1 sample at most, extent 0 to 4 in both directions, tiles of 4, leaves of 4, STATUS as given. -/
def setHeader (status : Nat) : List Nat :=
  [0, 0, 0, 0, 1, 0, 0, 0, 0, 0, 0, 0, 0, 0, 0, 0, 0, 0, 0x80, 0x40, 0, 0, 0x80, 0x40, 4, 0, 0, 0, 4, status]

/-- A pass of slot 1 on the set at 0x100. -/
def aPass : Pass where
  id := 9
  ctx := 0
  slot := 1
  launch := 1
  origin := 0
  setAddr := 0x100
  pixel := 0
  att := 0
  op := 0
  done := 0
  doneVal := 0
  open_ := true
  tris := []
  copy := none
  dies := []
  leaves := []
  units := []
  frags := []
  failed := none

/-- A traced launch of id 0, as registered. -/
def aTraced : Traced where
  launchId := 0
  launch := 1
  rec_ := placedLaunch.rec_
  seed := false

/-- Registrations: `e.bind` opens a pass on a built set and closes one; `e.relaunch` of a launch that is not registered and of one that is. -/
theorem witness_registrations :
    bare (placeBytes (eng [] [0, 1]) 0x100 (setHeader 2)) 64 64 (fun x bytes =>
      fieldAt bytes 8 8 % 4 == 0 && bytes.getD 15 0 == 0 && decide (bytes.getD 16 0 ≤ 7) && decide (bytes.getD 17 0 ≤ 3) && zerosB bytes 18 6 &&
      fieldAt bytes 24 8 % 8 == 0 && zerosB bytes 40 24 && (match readHeader x.s x.w 0 (fieldAt bytes 0 8) with
        | .ok (h, _) => setStatus h == 2 && decide (attFmt h 0 ≤ 2) && !inFixedWindow (attBase h 0)
        | .error _ => false) && (slotPass x.s 0 1).isNone) &&
    bare { eng [] (List.replicate 20 0 ++ [1]) with passes := [aPass] } 64 64 (fun x bytes =>
      zerosB bytes 0 20 && bytes.getD 20 0 == 1 && zerosB bytes 21 43 && ((slotPass x.s 0 1).map Pass.open_ == some true)) &&
    [[], [aTraced]].all (fun ts => bare { eng [] [] with ctxs := [{ placedCtx with traced := ts }] } 64 64 (fun x bytes =>
      zerosB bytes 4 4 && fieldAt bytes 8 8 % 8 == 0 && decide (fieldAt bytes 16 8 < 2 ^ 63) && zerosB bytes 24 40 && x.c.traced == ts &&
      aTraced.launchId == fieldAt bytes 0 4 && decide ((queuedRelaunches x.s x.w.ctx).length < 16) && orderAt x.s x.w x.s.nextId true true)) = true := by
  decide +kernel

/-- A queue of sixteen slots, its ring at 0x400, its words at 0x300 and 0x308. -/
def aQueue : Queue := { number := 2, ring := 0x400, size := 16, wAddr := 0x300, rAddr := 0x308, read := 0, tail := 1, stalled := false, taking := none, key := 7 }

/-- RecordsIssue: spawns with a lane active and with none; `e.enq` to no queue and to one; `e.emit` of a warp that is no pixel warp, of
one that is, of one whose lane has emitted, and with no lane active; `e.ssbld` of a set that can be built, of one that is being built, and with no lane active. -/
theorem witness_records :
    [(lone here, busy), (nobody, empty_)].all (fun h => begins h.1 (bareInfo (misaligned 6 14 1)) (fun x =>
      (match judgeLanes x.s x.c x.w.block .load 0 64 (fun l => x.w.pair l 6) x.act with
        | .ok places => (absentStop x.c places (fun l => x.w.pair l 6)).isNone
        | .error _ => false) && readyB x.w x.act [6, 7, 8] && h.2 x 1 && decide (x.w.outstanding 2 < 63) &&
      (lanesOf x.act).all (fun l => (enabledCores x.s.mod.snapshot).any (fun k => dieOf k == dieOf (x.w.core?.getD 0)) &&
        (enabledCores x.s.mod.snapshot).any (fun k => dieOf k == x.w.val l 8 % 4)))) &&
    bare (eng [] [1]) 64 64 (fun x _ => x.c.queues.isEmpty) &&
    bare { eng [] [1] with ctxs := [{ placedCtx with queues := [aQueue] }] } 64 64 (fun x bytes =>
      x.c.queues.any (fun k => k.number == 2) && bytes.getD 0 0 != 0) &&
    [.static, .pixel 9 0 0].all (fun k => begins (lone (hereWith (fun w => { w with kind := k }) id)) (bareInfo (misaligned 6 14 1)) (fun x =>
      readyB x.w x.act [6, 7] && x.w.kind == k && (lanesOf x.act).all (fun l => !(x.w.lane l).emitted) &&
      placesB x .load 0 16 (fun l => x.w.pair l 6) x.act && busy x 1)) &&
    begins (lone (hereWith (fun w => { w.mapLanes 1#32 (fun _ y => { y with emitted := true }) with kind := .pixel 9 0 0 }) id))
      (bareInfo (misaligned 6 14 1)) (fun x => x.w.kind == .pixel 9 0 0 && inMask x.act 0 && (x.w.lane 0).emitted && readyB x.w x.act [6, 7] &&
      placesB x .load 0 16 (fun l => x.w.pair l 6) x.act) &&
    [(0, true), (1, false)].all (fun q => bare (eng [] (setHeader q.1)) 256 64 (fun x h =>
      buildable x.s x.w.ctx 0 h == q.2 && fine (writeMem x.s x.w.ctx x.w.block 3 29 [1]))) = true := by decide +kernel

/-! ### Numbers -/

/-- FloatArithmetic, FloatRounding, Conversions: codes that hold numbers, infinities and NaNs of both kinds, a format that saturates. -/
theorem witness_numbers :
    (Fmt.f16.decode 0x7BFF).isFinite = true ∧ Fmt.f32.decode 0x7F800000 = .inf false ∧ Fmt.f32.decode 0xFF800000 = .inf true ∧
    (Fmt.f32.decode 0x7F800001).isSignalling = true ∧ (Fmt.f32.decode 0x7FC00000).isNan = true ∧ (Fmt.f32.decode 0x80000000).isZero = true ∧
    Fmt.e4m3.narrow = true ∧ (Fmt.f32.decode 0x3F800000).rat < (Fmt.f32.decode 0x40000000).rat := by decide +kernel

/-- SpecialFunctions: the operands of its cases. -/
theorem witness_special_operands :
    (Fmt.f32.decode 0x41180000).rat = 19 / 2 ∧ (Fmt.f32.decode 0x43000000).rat = 128 ∧ (Fmt.f32.decode 0xC3170000).rat < -150 ∧
    (Fmt.f32.decode 0x40400000).rat = 3 ∧ (Fmt.f32.decode 0x3F000000).rat = 0 + 1 / 2 ∧
    0 < |(Fmt.f32.decode 1).rat| ∧ (Fmt.f32.decode 0xBF800000).isNeg = true ∧
    (Fmt.f32.mag 0x40000000) ^ 2 = (Fmt.f32.decode 0x40800000).rat ∧ (Fmt.f32.mag 0x3F800000) ^ 2 < (Fmt.f32.decode 0x3F800001).rat ∧
    (Fmt.f32.decode 0x3F800001).rat < (Fmt.f32.mag 0x3F800001) ^ 2 ∧ (Fmt.f32.mag 0x3F000000) ^ 2 * (Fmt.f32.decode 0x40800000).rat = 1 := by
  decide +kernel

/-- R112, R256: the sum of 1 and 2^-24 lies half-way and goes to the even code in RNE, up in RUP, both inexact. -/
theorem test_add_tie : fpAdd .f32 .rne 0x3F800000 0x33800000 = (0x3F800000, flagNX) ∧
    fpAdd .f32 .rup 0x3F800000 0x33800000 = (0x3F800001, flagNX) := by decide +kernel

/-- R258: 2.5 to s32 in RNE is 2, inexact; 2^31 is beyond s32 and gives its greatest number with NV. -/
theorem test_cvt : cvtResult 0 2 false .rne 0x40200000 = (2, flagNX) ∧ cvtResult 0 2 false .rne 0x4F000000 = (0x7FFFFFFF, flagNV) := by
  decide +kernel

/-! ### Waits, accesses, engines, records -/

/-- The next state of an outcome. -/
def after_ (o : Host.Outcome State Fault Refusal) : State := match o with | .next t => t | _ => State.reset

/-- Every lane of the warp waits, the word after its own at address 4. -/
def waitingOn (what : Wait) (f : Warp → Warp) : State :=
  hereWith (fun w => f (w.mapLanes allLanes (fun _ y => { y with cond := .waiting what 4#56 0 }))) id

/-- WaitsEnd: the waits that end, with their conditions; and one whose operation has failed. -/
theorem witness_ends :
    [(Wait.counters [1, 0, 0, 0] [0, 63, 63, 63], waitingOn (.counters [1, 0, 0, 0] [0, 63, 63, 63]) id),
      (.counters [1, 0, 0, 0] [0, 63, 63, 63],
        waitingOn (.counters [1, 0, 0, 0] [0, 63, 63, 63]) (fun w => { w with ops := [firstOp (.failed someFault)] })),
      (.barrier 0 1 0 true, { waitingOn (.barrier 0 1 0 true) id with
        bars := [{ key := 5, scope := 0, id := 1, owner := 3, group := 0, phase := 1, expected := 0 }] }),
      (.full 1, waitingOn (.full 1) id), (.relaunch, waitingOn .relaunch id), (.tags true 1#64, waitingOn (.tags true 1#64) id),
      (.tags false 0#64, waitingOn (.tags false 0#64) id), (.monitor 1 0 4 0 true, waitingOn (.monitor 1 0 4 0 true) id),
      (.pages [0], waitingOn (.pages [0]) id)].all (fun p =>
    match p.2.awakeWarp? 3, p.2.ctx? 0 with
    | some w, some c => !c.stepping && (w.lane 0).cond == .waiting p.1 4#56 0 && (match p.1 with
      | .counters below _ => w.ops.isEmpty || ((w.ops.filter (fun o => decide (o.seq < below.getD o.counter 0))).find? (fun o => o.state != .done)).map Op.state
          == some (.failed someFault)
      | .barrier sc id ph _ => (barOf p.2 w sc id).any (fun b => decide (ph < b.phase))
      | .full k => decide (w.outstanding k < 63)
      | .relaunch => decide ((queuedRelaunches p.2 w.ctx).length < 16) && orderAt p.2 w p.2.nextId true true
      | .tags all mask => if all then tagMap c 0 &&& mask == mask else mask == 0#64
      | .monitor op _ _ _ hit => hit && op != 16
      | .pages vas => pagesReady p.2 c vas
      | _ => false)
    | _, _ => false) = true := by decide +kernel

/-- Five warps whose 160 lanes each stand at a program counter of their own and wait for the word at address 0, which is 0. -/
def crowd : State :=
  { here with warps := (List.range 5).map (fun i => { placedWarp.mapLanes allLanes (fun l y => { y with
      pc := BitVec.ofNat 56 (4 * l), cond := .waiting (.monitor 0 0 4 0 false) 4#56 0 }) with id := 3 + i }) }

theorem crowd_resolves : (match resolve crowd placedCtx (some 2) .read 0 0 4 with | .ok p => p.tgt == .hbm 0x10000 | .error _ => false) = true := by
  decide +kernel

theorem crowd_waits : ∀ w ∈ crowd.warps, w.block = some 2 ∧ crowd.ctx? w.ctx = some placedCtx ∧ ∀ l, l < 32 →
    (w.lane l).waits = some (.monitor 0 0 4 0 false) ∧ (match (w.lane l).cond with | .waiting _ _ t => decide (t ≤ 0) | _ => false) = true := by
  decide +kernel

theorem crowd_slice (w : Warp) (hw : w ∈ crowd.warps) (l : Nat) (hl : l < 32) :
    monitorSlice crowd placedCtx w (w.lane l) = some (homeSlice 0x10000) := by
  have h := crowd_resolves
  unfold monitorSlice
  rw [((crowd_waits w hw).2.2 l hl).1, (crowd_waits w hw).1]
  split at h
  · rename_i p hp
    obtain ⟨t, lf⟩ := p
    simp only [beq_iff_eq] at h
    subst h
    simp [hp]
  · cases h

theorem crowd_runs : ∀ w ∈ crowd.warps, (splitByPc w 32 allLanes).length = 32 := by decide +kernel

/-- WaitsEnd: a monitor beyond 128 of its slice. -/
theorem witness_crowd : 128 < sliceMonitors crowd (homeSlice 0x10000) 0 := by
  have e : ∀ w ∈ crowd.warps, (match crowd.ctx? w.ctx with
      | none => 0
      | some c => (splitByPc w 32 (maskOf (fun l => monitorSlice crowd c w (w.lane l) == some (homeSlice 0x10000) &&
        (match (w.lane l).cond with | .waiting _ _ t => decide (t ≤ 0) | _ => false)))).length) = 32 := by
    intro w hw
    rw [(crowd_waits w hw).2.1]
    have m : maskOf (fun l => monitorSlice crowd placedCtx w (w.lane l) == some (homeSlice 0x10000) &&
        (match (w.lane l).cond with | .waiting _ _ t => decide (t ≤ 0) | _ => false)) = allLanes := by
      apply BitVec.eq_of_getLsbD_eq
      intro l hl
      have h := inMask_maskOf (fun l => monitorSlice crowd placedCtx w (w.lane l) == some (homeSlice 0x10000) &&
        (match (w.lane l).cond with | .waiting _ _ t => decide (t ≤ 0) | _ => false)) l
      have k := inMask_allLanes hl
      unfold inMask at h k
      simp only [crowd_slice w hw l hl, ((crowd_waits w hw).2.2 l hl).2, hl, beq_self_eq_true, Bool.and_self, decide_true] at h
      rw [h, k]
    simp only [m]
    clear m
    exact crowd_runs w hw
  have h : (crowd.warps.map (fun _ => 32)).foldl (· + ·) 0 = 160 := by decide +kernel
  exact Nat.lt_of_lt_of_eq (by decide : 128 < 160)
    (h.symm.trans (congrArg (fun l => List.foldl (· + ·) 0 l) (List.map_congr_left e)).symm)

/-- WaitsEnd, the run that goes on: no lane outside it waits. -/
theorem witness_join : here.warp? 3 = some placedWarp ∧ (List.range 32).all (fun j => !(placedWarp.lane j).isWaiting) = true := by decide +kernel

/-- One access of lane 0 at address 0x40, outstanding alone. -/
def access (k : OpKind) (n : Nat) : State :=
  hereWith (fun w => { w with ops := [{ firstOp .running with kind := k, parts := [mkPart 0 0x40 n ⟨.hbm 0x10040, none⟩ 7 0] }], issued := #v[1, 0, 0, 0] }) id

/-- Operation 3 is alone, its parts not performed. -/
def aloneAllB (s : State) (q : Warp → Op → List Part → Ctx → Bool) : Bool :=
  match s.awakeOp? 3 with
  | none => false
  | some (w, o) =>
    match s.warp? w.id, s.ctx? w.ctx with
    | some v, some c => v == w && w.ops == [o] && o.state == .running &&
        o.parts.all (fun p => !p.done && p.refused.isNone && !p.sent && decide (p.lane < 32) && inMask w.live p.lane) && w.fences.isEmpty &&
        o.tag.isNone && s.warps.length == 1 && s.lines.isEmpty && (s.launch? w.launch).all (fun l => l.rec_.trace == 0) &&
        s.mod.remotes.isEmpty && s.mod.brought.isEmpty && q w o o.parts c
    | _, _ => false

/-- Of one part. -/
def aloneB (s : State) (q : Warp → Op → Part → Ctx → Bool) : Bool :=
  aloneAllB s (fun w o ps c => match ps with | [p] => q w o p c | _ => false)

/-- An access leads to plain memory. -/
def plainB (s : State) (c : Ctx) (blk : Option Nat) (acc : Access) (kind va n : Nat) : Bool :=
  match resolve s c blk acc kind va n with
  | .ok ⟨.hbm pa, some l⟩ => l.p && !l.sum && !l.cow && !l.trk && (moveOf c l).isNone && (badAt s pa n).isNone
  | _ => false

/-- The page's entry as given. -/
def entered (entry : Nat) (s : State) : State := { s with mem := Memory.writeN s.mem 0x5000 8 entry }

/-- AccessesPerform: loads of every width, of each kind, of a page that is present and of one that is not. -/
theorem witness_loads :
    [(1, true, false), (2, true, true), (4, false, true), (8, false, false), (16, false, true)].all (fun (n, sgn, pr) =>
      (let s := access (.load 4 n sgn false pr (some 1)) n
       aloneB s (fun w o p c => o.kind == .load 4 n sgn false pr (some 1) && p.size == n && decide (4 + (n + 3) / 4 ≤ w.alloc) &&
        plainB s c w.block .read 0 p.va n)) &&
      (let s := access (.load 4 n sgn true false none) n
       aloneB s (fun w o p c => o.kind == .load 4 n sgn true false none && p.size == n && decide (4 + (n + 3) / 4 ≤ w.alloc) &&
        plainB s c w.block .read 0 p.va n)) &&
      (let s := entered 0x10033 (access (.load 4 n sgn false pr none) n)
       aloneB s (fun w o p c => o.kind == .load 4 n sgn false pr none && p.size == n && decide (4 + (n + 3) / 4 ≤ w.alloc) &&
        (match resolve s c w.block .read 0 p.va n with | .ok ⟨.absent, some _⟩ => true | _ => false)))) = true := by decide +kernel

/-- AccessesPerform: stores of every width, atomics, compare-and-swaps and reductions of 4 and 8 bytes. -/
theorem witness_writes :
    [1, 2, 4, 8, 16].all (fun n => let s := access (.store none) n
      aloneB s (fun w o p c => o.kind == .store none && p.size == n && plainB s c w.block .write 1 p.va n && Memory.wf s.mem)) &&
    [(OpKind.atomic .add32 4, 4), (.atomic .addF16x2 4, 4), (.atomic .minS64 4, 8), (.cas 4 4, 4), (.cas 4 8, 8)].all (fun (k, n) =>
      let s := access k n
      aloneB s (fun w o p c => o.kind == k && p.size == n && decide (4 + (n + 3) / 4 ≤ w.alloc) && plainB s c w.block .atomic 2 p.va n &&
        Memory.wf s.mem)) &&
    [.add32, .add64].all (fun fn => let s := access (.reduce fn) fn.bytes
      aloneB s (fun w o p c => o.kind == .reduce fn && p.size == fn.bytes && w.core? == some 0 && plainB s c w.block .atomic 2 p.va fn.bytes &&
        !lineMonitored s (0x10040 / 128))) = true := by decide +kernel

/-- Lanes 0 and 5 add to one word. -/
def twoAdds : State :=
  hereWith (fun w => { w with issued := #v[1, 0, 0, 0], ops := [{ firstOp .running with kind := .atomic .add32 4, parts :=
    [mkPart 0 0x40 4 ⟨.hbm 0x10040, none⟩ 7 0, mkPart 5 0x40 4 ⟨.hbm 0x10040, none⟩ 9 0] }] }) id

/-- AccessesPerform: two lanes of one atomic. -/
theorem witness_two_lanes : aloneAllB twoAdds (fun w o ps c => match ps with
    | [p, q] => c == placedCtx && w.block == some 2 && o.kind == .atomic .add32 4 && p.size == 4 && q.size == 4 && p.va == 0x40 && q.va == 0x40 &&
      decide (p.lane < q.lane) && decide (4 + 1 ≤ w.alloc) && plainB twoAdds c w.block .atomic 2 p.va 4 && Memory.wf twoAdds.mem
    | _ => false) = true := by decide +kernel

theorem walkFrom_nil (m k : Memory) (va t : Nat) : walkFrom m va [] t = walkFrom k va [] t := rfl

theorem walkFrom_step {m k : Memory} {va level low width table : Nat} {rest : List (Nat × Nat × Nat)}
    (h : Memory.readN m (table + 8 * bitsAt va low width) 8 = Memory.readN k (table + 8 * bitsAt va low width) 8)
    (g : walkFrom m va rest (bitsAt (Memory.readN k (table + 8 * bitsAt va low width) 8) 12 40 * 2 ^ 12) =
      walkFrom k va rest (bitsAt (Memory.readN k (table + 8 * bitsAt va low width) 8) 12 40 * 2 ^ 12)) :
    walkFrom m va ((level, low, width) :: rest) table = walkFrom k va ((level, low, width) :: rest) table := by
  simp only [walkFrom, h, g]

/-- AccessesPerform: the walk does not read the word of the two lanes. -/
theorem witness_two_lanes_walk (acc : Access) (x : Nat) :
    resolve { twoAdds with mem := Memory.writeN twoAdds.mem 0x10040 4 x } placedCtx (some 2) acc 2 0x40 4 =
      resolve twoAdds placedCtx (some 2) acc 2 0x40 4 := by
  have wf : Memory.wf twoAdds.mem = true := by decide +kernel
  have r : ∀ a, a + 8 ≤ 0x10040 → Memory.readN (Memory.writeN twoAdds.mem 0x10040 4 x) a 8 = Memory.readN twoAdds.mem a 8 :=
    fun a h => Memory.readN_writeN_of_disjoint wf 4 0x10040 x 8 a (.inl h)
  have e : walk { twoAdds with mem := Memory.writeN twoAdds.mem 0x10040 4 x } placedCtx 0x40 = walk twoAdds placedCtx 0x40 :=
    walkFrom_step (r _ (by decide +kernel)) (walkFrom_step (r _ (by decide +kernel)) (walkFrom_step (r _ (by decide +kernel))
      (walkFrom_step (r _ (by decide +kernel)) (walkFrom_step (r _ (by decide +kernel)) (walkFrom_nil _ _ _ _)))))
  unfold resolve
  simp only [e]
  rfl

/-- A core's copy of a line with one partial. -/
def withLine : State :=
  { here with lines := [{ core := 0, line := 0x10040 / 128, parts := [{ pa := 0x10040, va := 0x40, ctx := 0, fn := .add32, value := 5, op := 3 }] }] }

/-- The descriptor of a texture of 4 by 4 texels of format 1 at address 0, in the page of a state. -/
def textured (s : State) : State := placeBytes s 0x40 [0, 0, 0, 0, 0, 0, 0, 0, 3, 0, 3, 0, 1, 1, 0, 0]

/-- AccessesPerform: the merge of a line; a texture query at address 0x40, and a fetch of the texel at 0. -/
theorem witness_merge :
    ((match withLine.ctx? 0 with
      | some c => (leafOf withLine c 0x40).any (fun l => !l.sum) && (badAt withLine 0x10040 4).isNone
      | none => false) && Memory.wf withLine.mem) &&
    [0, 1, 2].all (fun fn => let s := textured (access (.texq fn 4) 64)
     aloneB s (fun w o p _ => o.kind == .texq fn 4 && decide (4 + 2 ≤ w.alloc) && (match readMem (asReader s o.id) w.ctx w.block 0 p.va 64 with
       | .ok (b, t) => t == asReader s o.id && descOk b
       | .error _ => false))) &&
    (let s := textured (access (.tex 3 4) 64)
     aloneB s (fun w o p _ => o.kind == .tex 3 4 && decide (4 + 4 ≤ w.alloc) && (match readMem (asReader s o.id) w.ctx w.block 0 p.va 64 with
       | .ok (b, t) =>
         let e := TexDesc.read b
         let x := p.args.getD 0 0
         let y := p.args.getD 1 0
         let level := p.args.getD 2 0
         let r := { asReader s o.id with free := s.free + 16 }
         t == asReader s o.id && descOk b && e.fmt == 1 && !e.srgb && decide (level < e.levels) && decide (x < levelWidth e level) &&
         decide (y < levelHeight e level) && (match readMem r w.ctx w.block 0 (unitAddr e level x y) 4 with
           | .ok (px, u) => u == r && px.all (fun v => decide (v < 256))
           | .error _ => false)
       | .error _ => false))) = true := by decide +kernel

/-- A copy of one element from 0x100 to 0x200, issued; and to an address on no page. -/
def copying (to_ : Nat) : State :=
  after_ (execECpy 6 0 0 (eng [ten 1 2 0x100 4 4, ten 2 2 to_ 4 4] ([1, 0, 2, 0] ++ List.replicate 16 0 ++ [1, 0, 0, 0, 1])))

/-- The other commands, issued: gathers of 1 and 9 rows, a scatter, a product, a search, a quantisation, two selections, a gather of pages,
a summary. -/
def gathering (n : Nat) : State :=
  after_ (execEGath 6 0 (eng [ten 1 2 0x100 4 4, ten 2 2 0x200 16 4] ([1, 0, 2, 0] ++ List.replicate 12 0 ++ [n, 0, 0, 0, 1] ++ List.replicate 19 0 ++
    [0x40, 0, 0, 0, 0, 0, 0, 0, 0x80])))

def scattering : State :=
  after_ (execEScat 0 6 0 (eng [ten 1 0 0x100 4 4, ten 2 0 0x200 4 4] ([1, 0, 2, 0] ++ List.replicate 12 0 ++ [1, 0, 0, 0, 1])))

def multiplying : State := after_ (execEMma 6 (eng [ten 1 5 0x100 16 1, { ten 2 5 0x200 16 1 with lay := true }]
    ([1, 0, 2, 0] ++ List.replicate 17 0 ++ [1, 0, 0, 16, 0, 16, 0, 1])))

def searching : State :=
  after_ (execEMsrch 6 (eng [ten 1 3 0x100 8 4, ten 2 3 0x200 8 4, ten 3 0xE 0x300 4 1] ([1, 0, 2, 0, 3] ++ List.replicate 11 0 ++ [8, 0, 0, 0, 4])))

def quantising : State := after_ (execEQuant 6 (eng [ten 1 5 0x100 8 4] ([1] ++ List.replicate 15 0 ++ [1, 0, 1])))

def selecting (k : Bool) : State :=
  after_ ((if k then execEKselTopk else execEKselThr) 6 0
    (eng [keyTen 1] ([1] ++ List.replicate 7 0 ++ [1, 0, 0, 0, if k then 1 else 0] ++ List.replicate 11 0 ++ natLe 8 scratchBase ++ [0, 0, 0, 0, 1])))

def gatheringPages (rows : Nat) : State :=
  after_ (execEKgat 6 0 { eng [keyTen 1, ten 2 2 0x400 2 2, ten 3 2 0x600 rows 2, ten 4 2 0x700 64 2]
    ([1, 0, 2, 0, 3, 0, 4, 0] ++ natLe 8 scratchBase) with blocks := [{ placedBlock with pages := 1, tileCount := 1, scratch := [(0, 1#8)] }] })

def summarising : State := after_ (execEKsum 6 0 (eng [{ keyTen 1 with base := 0 }] ([1] ++ List.replicate 7 0 ++ [1])))

/-- A command that may go on. -/
def command (s : State) (q : Warp → Op → Command → Bool) : Bool :=
  match readyCommand s 4 with | some (w, o, c) => !writesAway s o.id && c.closing.isNone && q w o c | none => false

/-- The command has read what it reads before its next unit. -/
def readied (s : State) : State :=
  match readyCommand s 4 with
  | none => s
  | some (w, o, c) => match attempt s o.id (fun s => prepare s w c) with | .ok (t, k) => setCommand t o k | .error _ => s

/-- The command after its next unit. -/
def doneUnit (s : State) : State :=
  match readyCommand s 4 with
  | none => s
  | some (w, o, c) => match attempt s o.id (fun s => doUnit s w o.id c) with | .ok (t, k) => setCommand t o k | .error _ => s

/-- The command changed. -/
def commanded (f : Command → Command) (s : State) : State :=
  match readyCommand s 4 with | none => s | some (_, o, c) => setCommand s o (f c)

/-- The command with some of its units done. -/
def atUnit (n : Nat) (s : State) : State := commanded (fun c => { c with progress := n }) s

/-- EngineProgress: commands that read first, and have read. -/
theorem witness_prepare :
    [copying 0x200, selecting false, selecting true, gatheringPages 64, summarising].all (fun s =>
      command s (fun w o c => !prepared c && fine (attempt s o.id (fun s => prepare s w c))) && command (readied s) (fun _ _ c => prepared c))
      = true := by decide +kernel

/-- Every command whose last unit is next. -/
def lastUnits : List (State × EngineOp) :=
  [(readied (copying 0x200), .cpy), (gathering 1, .gath), (scattering, .scat (redFn 0)), (atUnit 15 multiplying, .mma), (quantising, .quant),
    (searching, .msrch), (readied (selecting false), .kselThr), (readied (selecting true), .kselTopk), (readied (gatheringPages 64), .kgat)]

/-- EngineProgress: every command whose last unit is next. -/
theorem witness_last :
    lastUnits.all (fun p =>
      command p.1 (fun w o c => c.op == p.2 && prepared c && atLast c && (match attempt p.1 o.id (fun s => lastPart s w o.id c) with
          | .ok (t, _, f) => f.isSome && !writesAway t o.id
          | .error _ => false) &&
        (o.counter == 3 || (p.1.awakeOp? 4 == some (w, o) && o.tag.isSome)))) = true := by decide +kernel

/-- EngineProgress: a unit that is not the last, a summary's unit and its end, an access that cannot be performed, a fault of a unit,
a stall that is over, and what closing a command takes. -/
theorem witness_units :
    command (gathering 9) (fun w o c => prepared c && c.op != .ksum && !atLast c && fine (attempt (gathering 9) o.id (fun s => doUnit s w o.id c))) &&
    command (readied summarising) (fun w o c => prepared c && c.op == .ksum && decide (c.progress < c.total) &&
      fine (attempt (readied summarising) o.id (fun s => ksumUnit s w o.id c))) &&
    command (atUnit 1 summarising) (fun _ _ c => c.op == .ksum && c.progress == c.total) &&
    (let s := readied (copying 0x20000)
     command s (fun w o c => (match nextError s w o.id c with
        | some (.acc _ e) => (accAddr e).isSome
        | _ => false) && c.op != .ssbld && fine (writeMem s w.ctx w.block 3 (c.addr + 32) [0, 0, 0, 0]))) &&
    (let s := doneUnit (readied (gatheringPages 1))
     command s (fun w o c => match nextError s w o.id c with
        | some (.fault _ f zero) => f.cause == 0x27 && !zero
        | _ => false)) &&
    (match (copying 0x200).awakeOp? 4 with
      | some (w, o) => o.state == .running && stallOver (copying 0x200) w.ctx 0 && (match o.kind with
        | .engine c => c.owed.isNone && c.closing.isNone && !writesAway (copying 0x200) o.id
        | _ => false)
      | none => false) &&
    (match (withOp .running).op? 3 with
      | some (w, o) => (withOp .running).warp? w.id == some w && w.ops == [o] && o.state == .running && o.tag.isNone && w.live != 0#32
      | none => false) = true := by decide +kernel

/-- EngineProgress: a fault whose restart word has its page away, a word that is owed, and commands that leave. -/
theorem witness_owed :
    (let s := entered 0x10033 (readied (copying 0x20000))
     command s (fun w o c => (match nextError s w o.id c with | some (.acc _ e) => (accAddr e).isSome | _ => false) &&
       (match writeMem (asPinned s w) w.ctx w.block 3 (c.addr + 32) (natLe 4 (restartWord c)) with | .error (.wait _ _) => true | _ => false))) &&
    ((commanded (fun c => { c with owed := some 0 }) (copying 0x200)).awakeOp? 4).any (fun x => x.2.state == .running && (match x.2.kind with
      | .engine c => c.owed == some 0 && c.stalled.isNone && c.closing.isNone
      | _ => false)) &&
    [none, some { cause := 0x20, lanes := 0#32, addr := 0, detail := [] }].all (fun f =>
      let s := commanded (fun c => { c with closing := some f }) (copying 0x200)
      (readyCommand s 4).any (fun x => x.2.2.op == .cpy && x.2.2.closing == some f && x.2.2.owed.isNone && !writesAway s x.2.1.id)) = true := by
  decide +kernel

/-! ### What engine units write -/

/-- The engine finds a value at each of the addresses, and its reads change nothing. -/
def findsB (s : State) (w : Warp) (c : Command) (n : Nat) (addrs : List Nat) : Bool :=
  addrs.all (fun a => match engNat s w c a n with | .ok (_, t) => t == s | .error _ => false)

/-- The bytes the engine finds at an address. -/
def foundAt (s : State) (w : Warp) (c : Command) (n a : Nat) : Nat := match engNat s w c a n with | .ok (v, _) => v | .error _ => 0

/-- The same state found with what was read. -/
def sameB {α : Type} (s : State) (r : Except EngErr (α × State)) : Bool := match r with | .ok (_, t) => t == s | .error _ => false

/-- EngineWrites: a write into plain memory; a copy's source row, and its sector. -/
theorem witness_writes_copy :
    (let s := readied (copying 0x200)
     command s (fun w o c => s.lines.isEmpty && (s.ctx? w.ctx).any (fun x => plainB s x w.block .write 3 0x200 2) && Memory.wf s.mem && c.op == .cpy &&
      fine (writeRuns w o.id c s (cellRuns (32 * (sectorsOf (cpyTo c)).getD c.progress 0) (sectorCells ((cpyTo c).zip (c.held.map
        (natLe (cpyElem c)))) ((sectorsOf (cpyTo c)).getD c.progress 0)))))) &&
    command (copying 0x200) (fun w _ c => findsB (copying 0x200) w c (cpyElem c) (((cpyFrom c).drop c.held.length).take (fieldAt c.params 24 4))) = true := by
  decide +kernel

/-- EngineWrites: a gather's row and its status, a scatter's status. -/
theorem witness_writes_gather :
    (let s := gathering 1
     command s (fun w o c => c.op == .gath && unitEnd c == c.progress + 1 && (match c.tensor 0, c.tensor 1 with
      | some tbl, some dst =>
        let idx := foundAt s w c 4 (fieldAt c.params 40 8)
        let es := elemBytes tbl.fmt
        let cols := fieldAt c.params 20 4
        findsB s w c 4 [fieldAt c.params 40 8] && decide (idx < tbl.rows) && findsB s w c es (tileAddrs tbl idx 1 (fieldAt c.params 4 4) cols) &&
        fine (engWrite s w o.id c (fieldAt c.params 48 8 + c.progress) [0]) &&
        fine (writeTile s w o.id c ((List.range cols).map (fun j => (dst.addr (fieldAt c.params 8 4) (fieldAt c.params 12 4 + j),
          natLe es (foundAt s w c es (tbl.addr idx (fieldAt c.params 4 4 + j)))))))
      | _, _ => false))) &&
    [gathering 1, scattering].all (fun s => command s (fun w o c =>
      let r := match c.op with | .scat fn => reduceItems w c o.id fn s c.items | _ => .ok s
      match r with
      | .ok t => fine (engWrite t w o.id c (fieldAt c.params 48 8 + c.progress - c.held.length) c.held)
      | .error _ => false)) = true := by decide +kernel

/-- EngineWrites: a row of a product, with and without prior values. -/
theorem witness_writes_matrix :
    (let s := multiplying
     command s (fun w o c => c.op == .mma && (match c.tensor 0, c.tensor 1 with
      | some a, some b =>
        let at_ := tileBase + 65536 * c.params.getD 20 0 + 512 * c.progress
        let cols := List.range (fieldAt c.params 26 2)
        let lines (j : Nat) : List Line := match mmaColumn s w c b j with | .ok (l, _) => l | .error _ => []
        sameB s (mmaRow s w c a c.progress) && cols.all (fun j => sameB s (mmaColumn s w c b j)) && findsB s w c 4 (cols.map (fun j => at_ + 4 * j)) &&
        (match mmaRow s w c a c.progress with
          | .ok (la, _) => fine (engWrite s w o.id c at_ (cols.flatMap (fun j => natLe 4 (mmaElement (isNarrow a.fmt)
              (if mmaFlag c.params 0 then 0 else foundAt s w c 4 (at_ + 4 * j)) la (lines j)))))
          | .error _ => false)
      | _, _ => false))) = true := by decide +kernel

/-- EngineWrites: the elements a search reads, and what it may write. -/
theorem witness_writes_search :
    (let s := searching
     command s (fun w o c => c.op == .msrch && (match c.tensor 0, c.tensor 1, c.tensor 2 with
      | some src, some dst, some m =>
        let row := fieldAt c.params 8 4 + 8 * c.progress
        let col := fieldAt c.params 12 4
        let n := fieldAt c.params 20 4
        let places := (List.range 8).flatMap (fun i => (List.range n).map (fun j => (i, j)))
        n % 4 == 0 && (fmtOfCode src.fmt).isSome && findsB s w c (elemBytes src.fmt) (places.map (fun p => msrchAddr src (row + p.1) (col + p.2))) &&
        fine (writeTile s w o.id c (places.map (fun p => (msrchAddr dst (row + p.1) (col + p.2), natLe (elemBytes src.fmt) 0)) ++
          (List.range n).map (fun j => (m.addr (col + j) (row / 8), [0]))))
      | _, _, _ => false))) = true := by decide +kernel

/-- EngineWrites: a quantised row, and the trailer of a tensor that has one. -/
theorem witness_writes_quant :
    (let s := quantising
     command s (fun w o c => c.op == .quant && unitEnd c == c.progress + 1 && (match c.tensor 0 with
      | some t =>
        let at_ (i j : Nat) : Nat := tileBase + 65536 * c.params.getD 12 0 + 512 * i + 4 * j
        (fmtOfCode (quantCode c.params)).isSome && findsB s w c 4 ((List.range (fieldAt c.params 18 2)).map (at_ c.progress)) && t.scaleb == 0 && t.fmt != 0x10 &&
        fine (writeTile s w o.id c ((List.range 128).map (fun k => (t.slotAddr (fieldAt c.params 4 4 + c.progress) (fieldAt c.params 8 4) + k, [0]))))
      | none => false))) &&
    (let s := quantising
     command s (fun w o c => match c.tensor 0 with
      | some u =>
        let t := { u with trl := true, scaleb := 0x220 }
        (match crcBlocks (fun s a n => engRead s w c a n) id t (fieldAt c.params 8 4) s (regsFrom (fieldAt c.params 4 4) (fieldAt c.params 16 2)) with
          | .ok (_, v) => v == s
          | .error _ => false) && fine (engWrite s w o.id c (t.scaleb - 32) (List.replicate 32 0)) && { c with tensors := [t] }.tensor 0 == some t
      | none => false)) = true := by decide +kernel

/-- EngineWrites: the bounds of a page of a selection, and its list. -/
theorem witness_writes_selection :
    [false, true].all (fun k => let s := readied (selecting k)
      command s (fun w o c => c.op == (if k then .kselTopk else .kselThr) && (match c.tensor 0 with
        | some t => (match engRead s w c (t.sumb + 4 * t.cols * (fieldAt c.params 4 4 + c.progress)) (4 * t.cols) with
            | .ok (b, u) => u == s && b.length == 4 * t.cols
            | .error _ => false) && fine (engWrite s w o.id c (fieldAt c.params 24 8) [0, 0, 0, 0])
        | none => false))) = true := by decide +kernel

/-- EngineWrites: a page that is gathered whole; a page that is summarised, and its bounds. -/
theorem witness_writes_pages :
    (let s := readied (gatheringPages 64)
     command s (fun w o c => c.op == .kgat && !c.again && (match c.tensor 0, c.tensor 1, c.tensor 2, c.tensor 3 with
      | some k, some v, some kd, some vd => kgatWhole c k v kd vd c.progress && kgatEnd c k v kd vd == c.progress + 1 && (match kgatEntry c k c.progress with
        | some g =>
          let copies (s : State) (src dst : Tensor) := copyElems s w o.id c (elemBytes src.fmt)
            (tileAddrs src (64 * g) (min 64 (k.rows - 64 * g)) 0 src.cols)
            (tileAddrs dst (fieldAt c.params 16 4 + 64 * c.progress) (min 64 (k.rows - 64 * g)) 0 src.cols)
          (match copies s k kd with | .ok t => fine (copies t v vd) | .error _ => false) &&
          findsB s w c (elemBytes k.fmt) (tileAddrs k (64 * g) (min 64 (k.rows - 64 * g)) 0 k.cols)
        | none => false)
      | _, _, _, _ => false))) &&
    command summarising (fun w _ c => c.op == .ksum && (match c.tensor 0 with
      | some t => (fmtOfCode t.fmt).isSome && findsB summarising w c (elemBytes t.fmt)
          (tileAddrs t (64 * (fieldAt c.params 4 4 + c.progress)) (min 64 (t.rows - 64 * (fieldAt c.params 4 4 + c.progress))) 0 t.cols)
      | none => false)) &&
    (let s := readied summarising
     command s (fun w o c => match c.tensor 0 with
      | some t => fine (engWrite s w o.id c (t.sumb + 4 * t.cols * (fieldAt c.params 4 4 + c.progress)) (c.held.flatMap (natLe 2)))
      | none => false)) = true := by decide +kernel

/-! ### Records, passes -/

/-- A spawn of lane 0, its record read. -/
def spawning (data : Nat) (done : Bool) : State :=
  hereWith (fun w => { w with
    ops := [{ firstOp .running with kind := .spawn, counter := 1, parts := [{ mkPart 0 0 64 ⟨.hbm 0x10000, none⟩ data 0 with present := true, done := done, args := [0, 0, 1] }] }]
    issued := #v[0, 1, 0, 0] }) id

/-- A record to the binner of slot 1: three vertices at 0, sequence 0, rate 0. -/
def triRecord : Nat := nodeEntry 1 + 256 ^ 56

/-- A record to the builder: the header at 0x100, no completion word. -/
def buildRec : Nat := nodeEntry 4 + 0x100 * 256 ^ 8

/-- A build of the set at 0x100 that no word started. -/
def aBuild : Build :=
  { id := 9, ctx := 0, launch := 1, origin := 0, setAddr := 0x100, header := setHeader 1 ++ List.replicate 226 0, op := none, block := none, done := 0, doneVal := 0, fault := none }

/-- RecordsArrive: a spawn all of whose records are placed; records to the binner and to the builder; a build that runs. -/
theorem witness_spawned :
    (match (spawnGo (spawning 0 true) 3 false).awakeOp? 3 with
      | some (_, o) => o.kind == .spawn && o.state == .running && o.parts.all (fun p => p.done && p.refused.isNone)
      | none => false) &&
    (let s := spawnGo { spawning triRecord false with passes := [aPass] } 3 false
     match nodePart s 3 0 .binner with
      | some (w, p) => (slotPass s w.ctx (p.field 56 1)).any Pass.open_ && decide (p.field 56 1 < 8) && decide (p.field 57 1 ≤ 2) && p.field 58 6 == 0
      | none => false) &&
    (let s := spawnGo (placeBytes (spawning buildRec false) 0x100 (setHeader 0)) 3 false
     match nodePart s 3 0 .builder with
      | some (w, p) => p.field 32 32 == 0 && decide (p.field 24 8 < 2 ^ 63) && p.field 8 8 % 64 == 0 && p.field 16 8 % 8 == 0 &&
          (match devRead s w.ctx (p.field 8 8) 256 with
            | .ok (h, t) => buildable t w.ctx (p.field 8 8) h && fine (devWrite t w.ctx (p.field 8 8 + 29) [1])
            | .error _ => false)
      | none => false) &&
    (let s := { placeBytes here 0x100 (setHeader 1) with builds := [aBuild] }
     match s.build? 9 with
      | some b => buildRuns s b && decide (2 ≤ b.header.length) && !writesAway s b.user && (match runBuild (asReader s b.user) b with
          | (t, none) => !writesAway (dropBrought t b.user) b.user && fine (buildWrite (dropBrought t b.user) b (b.setAddr + 29) [2])
          | _ => false)
      | none => false) = true := by decide +kernel

/-- A bin of die 0 with one record, as old as the timer; and a record on the die's spill ring. -/
def binned : State :=
  { here with
    mod := { Module.reset with clock := 1024 }
    bins := [{ die := 0, ctx := 0, launch := 1, entry := 0x100, records := [{ words := List.replicate 16 0#32, origin := 0 }], since := 0 }]
    ctxs := [{ placedCtx with spilled := [{ die := 0, launch := 1, entry := 0x100, record := { words := List.replicate 16 0#32, origin := 0 } }] }] }

/-- RecordsArrive: a bin whose timer is over, a ring whose first record finds a bin, an enqueue in its three parts. -/
theorem witness_bins :
    (match (binned.bins.filter (fun b => b.die == 0))[0]?, binned.ctx? 0, binned.launch? 1 with
      | some b, some c, some _ => b.ctx == 0 && b.launch == 1 && c.live && c.preempt == .running && decide (b.since + c.spawnTimer ≤ binned.mod.clock) &&
          (match onRing c 0 with
            | x :: _ => (toBin binned 0 x.launch x.entry 0 x.record).isSome
            | [] => false)
      | _, _, _ => false) &&
    [OpKind.enq 2 (List.replicate 64 7) none false, .enq 2 (List.replicate 64 7) (some 0) false, .enq 2 (List.replicate 64 7) (some 0) true].all (fun k =>
      let s := hereWith (fun w => { w with ops := [{ firstOp .running with kind := k, counter := 1 }] }) (fun c => { c with queues := [aQueue] })
      match s.awakeOp? 3, (s.ctx? 0).bind (fun c => c.queues.find? (fun k => k.number == 2)), s.ctx? 0 with
      | some (w, o), some q, some c => o.state == .running && engineRuns s w && orderOk s w o && !writesAway s 3 && o.kind == k && q == aQueue &&
          (match resolve s c none .atomic 2 q.wAddr 8 with | .ok ⟨.hbm _, _⟩ => true | _ => false) &&
          (match readMem s w.ctx none 2 q.wAddr 8 with
            | .ok (b, t) => fine (writeWord64 t w.ctx q.wAddr ((leNat b + 1) % 2 ^ 64))
            | .error _ => false) &&
          (match readMem (asReader s o.id) w.ctx none 0 q.rAddr 8 with
            | .ok (b, t) => decide (0 < leNat b + q.size) &&
                (match writeMem (dropBrought t o.id) w.ctx none 1 (q.ring + 8) (List.replicate 56 7) with
                  | .ok u => !writesAway u 3 && fine (writeMem u w.ctx none 1 q.ring (List.replicate 8 7))
                  | .error _ => false)
            | .error _ => false)
      | _, _, _ => false) = true := by decide +kernel

/-- The set at 0x100 with one sample, leaf 0 in tile 0, as a closed pass copied it. -/
def aCopy : SetCopy := { copyOf (setHeader 2 ++ List.replicate 226 0) 0 with count := 1, nleaf := 1, leafb := 0x400, permb := 0x500, attBase := 0x600 }

/-- A pass that has closed. -/
def closed (leaves : List Nat) (frags : List Frag) : State :=
  { placeBytes (placeBytes here 0x100 (setHeader 2)) 0x414 [1] with
    passes := [{ aPass with open_ := false, dies := [0], copy := some aCopy, leaves := leaves, frags := frags }] }

/-- A fragment whose lane has emitted 5. -/
def aFrag (st : FragState) : Frag := { sample := 0, order := 0, warp := 3, lane := 0, state := st }

/-- A triangle over half of the extent. -/
def aTri : Triangle := { verts := [0, 0, 0, 0x40800000, 0, 0, 0, 0x40800000, 0], seq := 0, attr := 0, rate := 0, op := 3, lane := 0 }

/-- The pass's unit 0 has read leaf 0, whose one sample lies where it is told; two triangles are in its tile's list. -/
def reading (x y : Nat) : State :=
  let s := closed [] []
  { s with passes := s.passes.map (fun p => { p with
      tris := [aTri, { aTri with seq := 1, lane := 1 }], units := [{ cluster := 0, leaf := 0, data := some { tile := 0, points := [(0, x, y)] }, next := 0 }] }) }

/-- PassEvents: a leaf to take, and a unit with two primitives to go. -/
theorem witness_leaves :
    (let s := closed [0] []
     match closedPass s 9 with
      | .ok (p, c) => p.id == 9 && s.pass? 9 == some p && (match c.geom, s.launch? p.launch with
          | some g, some _ => ctxRuns s p.ctx && (p.unit? 0).isNone && unitFree s 0 && (enabledCores s.mod.snapshot).any (fun n => clusterOf n == 0) &&
              !s.mod.shut.getLsbD 0 && mayTake s p c 0 0 &&
              (let q := { p with leaves := p.leaves.filter (fun x => x != 0), units := p.units ++ [{ cluster := 0, leaf := 0, data := none, next := 0 }] }
               match readLeafData (s.updPass 9 (fun _ => q)) q c g 0 with
                | .ok (some d, _) => p.dies[d.tile % max p.dies.length 1]? == some 0
                | _ => false)
          | _, _ => false)
      | .error _ => false) &&
    (let s := reading 256 256
     match closedPass s 9 with
      | .ok (p, c) => p.id == 9 && s.pass? 9 == some p && (match c.geom, s.launch? p.launch, p.unit? 0 with
          | some g, some _, some x => ctxRuns s p.ctx && x.leaf == 0 && x.data.isSome && decide (x.next + 1 < (tileList g p 0 0).length)
          | _, _, _ => false)
      | .error _ => false) = true := by decide +kernel

/-- PassEvents: a sample that a triangle covers, and one that it does not. -/
theorem witness_covers :
    [(256, true), (100000, false)].all (fun q => (aCopy.geom.bind (fun g => primOf g aTri)).any (fun r => r.covers q.1 q.1 == q.2)) = true := by decide +kernel

/-- PassEvents: an emitted value to apply, and nothing to apply; a pass with nothing left; a pass left open. -/
theorem witness_passes :
    (let s := closed [] [aFrag .settled, aFrag (.emitted 5)]
     match closedPass (settleFrags s 9) 9 with
      | .ok (p, k) => p.id == 9 && p.frags == [aFrag .settled, aFrag (.emitted 5)] &&
          fine (applyElement (settleFrags s 9) p ((k.attBase + 4 * 0) % 2 ^ 64) 5)
      | .error _ => false) &&
    (let s := closed [] [aFrag .settled]
     match closedPass (settleFrags s 9) 9 with
      | .ok (p, _) => p.id == 9 && p.leaves.isEmpty && p.units.isEmpty && p.frags.all (fun f => f.state == .settled) && p.failed.isNone &&
          s.warps.all (fun w => w.kind == .static) && fine (storeDone (settleFrags s 9) p.ctx p.done p.doneVal)
      | .error _ => false) &&
    (let s := { here with passes := [aPass], warps := [], launches := [{ placedLaunch with ended := [0] }] }
     match s.pass? 9 with
      | some p => p.open_ && ctxRuns s p.ctx && (s.launch? p.launch).any (fun l => launchQuiet s l)
      | none => false) = true := by decide +kernel

/-- PassEvents: an attachment element in plain memory; an emission of a pixel warp, alone. -/
theorem witness_emit :
    (match here.ctx? aPass.ctx with
      | some c => plainB here c none .atomic 2 0x600 4 && plainB here c none .read 2 0x600 4 && plainB here c none .write 2 0x600 4 &&
          here.lines.isEmpty && Memory.wf here.mem
      | none => false) &&
    (let s := hereWith (fun w => { w with kind := .pixel 9 0 0, ops := [{ firstOp .running with kind := .emit, counter := 1, parts := [mkPart 0 0x40 16 ⟨.hbm 0x10040, none⟩ 0 0] }] }) id
     aloneB s (fun w o p c => o.kind == .emit && p.size == 16 && w.kind == .pixel 9 0 0 && plainB s c w.block .read 0 p.va 16)) = true := by decide +kernel

/-! ### Queues, graphs, launches -/

/-- A context with a queue, and a job of a packet of it. -/
def jobState (bytes : List Nat) (st : JobState) : State :=
  { hereWith id (fun c => { c with queues := [aQueue] }) with
    jobs := [{ id := 8, ctx := 0, source := .packet 2 0, bytes := bytes, state := st, snapshot := BitVec.allOnes 256, order := 8
               key := 7, slot := 0x400, place := 0 }], nextId := 9 }

/-- The job of a type may start: it is the only one, and held. -/
def startB (s : State) (type : Nat) (q : Job → Bool) : Bool :=
  match s.job? 8 with
  | some j => j.bytes.getD 0 0 == type && ctxRuns s j.ctx && j.state == .held && s.jobs.length == 1 && q j
  | none => false

/-- A packet: its type, FLAGS 0, then its fields. -/
def pkt (type : Nat) (rest : List Nat) : List Nat := ((type :: List.replicate 7 0) ++ rest ++ List.replicate 64 0).take 64

/-- QueuePackets: an empty header and a packet to take; a header to wake; SIGNAL, WAIT_VALUE met and not met, BARRIER_ONLY. -/
theorem witness_packets :
    [pkt 0 [], pkt 7 []].all (fun b =>
      let s := { placeBytes here 0x400 b with ctxs := [{ placedCtx with queues := [aQueue] }] }
      match queueOf s 0 2 with
      | some q => ctxRuns s 0 && !q.stalled && decide (q.read < q.tail) && s.jobs.isEmpty && (match devRead s 0 (q.ring + 64 * (q.read % q.size)) 64 with
          | .ok (r, t) => r == b && q.taking.isNone && packetOk (pkt 7 []) && (match devWrite t 0 q.ring (List.replicate 64 0) with
              | .ok u => fine (devWrite (updQueue u 0 2 (fun q => { q with taking := some b })) 0 q.rAddr (natLe 8 1))
              | .error _ => false)
          | .error _ => false)
      | none => false) &&
    (let s := { here with ctxs := [{ placedCtx with queues := [{ aQueue with taking := some (pkt 7 []) }] }] }
     match queueOf s 0 2 with
      | some q => ctxRuns s 0 && q.taking == some (pkt 7 []) && s.jobs.isEmpty && fine (devWrite s 0 q.rAddr (natLe 8 1))
      | none => false) &&
    (let t := placeBytes here 0x400 (pkt 7 [])
     let s := { t with mem := Memory.writeN t.mem 0x5008 8 0x10033, ctxs := [{ placedCtx with queues := [{ aQueue with rAddr := 0x10000 }] }] }
     match devRead s 0 0x400 64 with
      | .ok (b, t) => b == pkt 7 [] && (match devWrite t 0 0x400 (List.replicate 64 0) with
          | .ok u => (match devWrite (updQueue u 0 2 (fun q => { q with taking := some b })) 0 0x10000 (natLe 8 1) with
              | .error (.wait _ _) => true
              | _ => false)
          | .error _ => false)
      | .error _ => false) &&
    (let s := { placeBytes here 0x400 [7] with ctxs := [{ placedCtx with queues := [{ aQueue with stalled := true }] }] }
     match queueOf s 0 2, s.ctx? 0 with
      | some q, some c => q.stalled && wordNow s c none (q.ring + 64 * (q.read % q.size)) 4 % 256 != 0
      | _, _ => false) &&
    startB (jobState (pkt 5 [0, 3, 0, 0, 0, 0, 0, 0, 7]) .held) 5 (fun j => fine (devWrite (jobState (pkt 5 [0, 3, 0, 0, 0, 0, 0, 0, 7]) .held) j.ctx (fieldAt j.bytes 8 8)
      (natLe 8 (fieldAt j.bytes 16 8)))) &&
    [(0, true), (1, false), (2, true), (3, false)].all (fun p => let s := jobState (pkt 6 ([0, 3] ++ List.replicate 14 0 ++ List.replicate 8 255 ++ [p.1])) .held
      startB s 6 (fun j => match devRead s j.ctx (fieldAt j.bytes 8 8) 8 with
        | .ok (b, _) => waitMet j.bytes (leNat b) == p.2
        | .error _ => false)) &&
    startB (jobState (pkt 7 []) .held) 7 (fun _ => true) = true := by decide +kernel

/-- A graph of two nodes, the second after the first. -/
def aGraph : Graph := { nodes := [pkt 7 [], pkt 7 []], edges := [(0, 1)] }

/-- QueuePackets and LaunchesAndGraphs: the CONTEXT packets: a queue made, one removed by a node, settings; a slot unbound, bound to an object
that is valid and to one that is not. -/
theorem witness_contexts :
    (let s := jobState (pkt 8 [1, 0, 3, 0, 16, 0, 0, 0, 0, 8, 0, 0, 0, 0, 0, 0, 0, 7, 0, 0, 0, 0, 0, 0, 8, 7]) .held
     startB s 8 (fun j => fieldAt j.bytes 8 2 == 1 && (queueOf s 0 3).isNone && fine (devWrite s 0 (fieldAt j.bytes 32 8) (natLe 8 0)))) &&
    (let s := jobState (pkt 8 [2, 0, 2]) .held
     let t := { s with jobs := s.jobs.map (fun j => { j with source := .node 0 0 }) }
     startB t 8 (fun j => fieldAt j.bytes 8 2 == 2 && (queueOf t 0 2).isSome && j.source == .node 0 0)) &&
    startB (jobState (pkt 8 [3, 0, 0, 0, 64]) .held) 8 (fun j => fieldAt j.bytes 8 2 == 3) &&
    startB (jobState (pkt 8 [4, 0, 5]) .held) 8 (fun j => fieldAt j.bytes 8 2 == 4 && fieldAt j.bytes 16 8 == 0) &&
    [2, 0].all (fun n =>
      let s := placeBytes (jobState (pkt 8 ([4, 0, 5] ++ List.replicate 5 0 ++ [0, 8])) .held) 0x800
        ([n, 0, 0, 0, 1] ++ List.replicate 59 0 ++ pkt 7 [] ++ pkt 7 [] ++ [0, 0, 1, 0])
      startB s 8 (fun j => fieldAt j.bytes 8 2 == 4 && fieldAt j.bytes 16 8 != 0 && (match readGraph s 0 (fieldAt j.bytes 16 8) with
        | .ok (g, _) => g == if n = 2 then some aGraph else none
        | .error _ => false))) = true := by decide +kernel

/-- A slot with a graph. -/
def aSlot (r : Option Replay) : GraphSlot := { number := 5, graph := some aGraph, rebind := none, pending := [], running := r }

/-- LaunchesAndGraphs: a replay to begin, a kick to queue, a node to start, a replay that has completed, a launch that has. -/
theorem witness_graphs :
    (let s := { jobState (pkt 3 [5]) .held with ctxs := [{ placedCtx with queues := [aQueue], slots := [aSlot none] }] }
     startB s 3 (fun j => match slotOf s 0 (j.bytes.getD 8 0) with
       | some x => x.graph == some aGraph && x.running.isNone && x.pending.isEmpty && (match readPatch s 0 (fieldAt j.bytes 16 8) aGraph.nodes with
           | .ok (some _, _) => true
           | _ => false)
       | none => false)) &&
    (here.ctx? 0).any (fun c => c.live && c.slots.isEmpty) &&
    (let r : Replay := { graph := aGraph, started := [0], completed := [0], job := none }
     let s := hereWith id (fun c => { c with slots := [aSlot (some r)] })
     ctxRuns s 0 && (slotOf s 0 5).bind GraphSlot.running == some r && nextNode r 1 && !lowerHeld s 0 5 1 r) &&
    (let s := jobState (pkt 3 [5]) .running
     match s.job? 8, s.ctx? 0 with
      | some j, some c => j.state == .running && ctxRuns s j.ctx && j.bytes.getD 0 0 == 3 && c.slots.isEmpty && fine (storeDone s j.ctx (compAddr j.bytes) (fieldAt j.bytes 32 8))
      | _, _ => false) &&
    (let s := { jobState (pkt 1 []) .running with warps := [], launches := [{ placedLaunch with job := 8, ended := [0] }] }
     match s.job? 8, s.launches.find? (fun l => l.job == 8) with
      | some j, some l => j.state == .running && ctxRuns s j.ctx && j.bytes.getD 0 0 != 3 && s.launch? l.id == some l && l.rec_.trace == 0 && l.rec_.spawnCtr == 0 &&
          launchIdle s l && l.spawned == 0
      | _, _ => false) = true := by decide +kernel

/-- A launch record: one level of 32 lanes, 8 registers, one granule, entry 0x100. -/
def launchBytes (version : Nat) : List Nat :=
  [version, 0, 1, 8, 1, 0, 0, 0, 0, 0, 0, 0, 0, 0, 0, 0, 0, 1] ++ List.replicate 46 0 ++ [32, 0, 0, 0, 0, 4]

/-- LaunchesAndGraphs: LAUNCH and SEED of a record that is valid and of one that is not; a relaunch of a registered launch. -/
theorem witness_launches :
    [(1, false), (2, true)].all (fun q => [(1, true), (0, false)].all (fun v =>
      let s := placeBytes (jobState (pkt q.1 [0, 8]) .held) 0x800 (launchBytes v.1)
      startB s q.1 (fun j => match devRead s j.ctx (fieldAt j.bytes 8 8) 256 with
        | .ok (b, _) => recordOk (formRecord b j.bytes) q.2 j.snapshot == v.2 && (launchRecOf (formRecord b j.bytes)).trace == 0 &&
            (launchRecOf (formRecord b j.bytes)).spawnCtr == 0
        | .error _ => false))) &&
    (let t := { aTraced with launch := 77, rec_ := { placedLaunch.rec_ with trace := 0x800 } }
     let s := { jobState (pkt 4 [0]) .held with ctxs := [{ placedCtx with queues := [aQueue], traced := [t] }] }
     startB s 4 (fun j => match s.ctx? 0 with
       | some c => c.traced.find? (fun k => k.launchId == fieldAt j.bytes 8 4) == some t && !t.seed && !relaunchHeld s j t &&
           (match selectBlocks j.ctx t.rec_.trace s (List.range t.rec_.blocks) with
             | .ok (_, u) => ((u.ctx? j.ctx).map generationFull) == some false
             | .error _ => false)
       | none => false)) = true := by decide +kernel

/-! ### Blocks and warps, pages -/

/-- `here` with nothing placed. -/
def unplaced : State := { here with blocks := [], warps := [], launches := [{ placedLaunch with started := [] }] }

/-- `here` at a clock. -/
def at_ (t : Nat) (f : Warp → Warp) (g : Ctx → Ctx) : State := { hereWith f g with mod := { Module.reset with clock := t } }

/-- WarpsAndBlocks: a block to start, its warps' state, a warp to place, warps that end, a barrier whose phase is over. -/
theorem witness_starts :
    (match unplaced.launch? 1 with
      | some l => ctxRuns unplaced l.ctx && coreUp unplaced 0 && !l.unset && l.members.contains 0 && !l.started.contains 0 && coreOf l.snapshot l.rec_ 0 == some 0 && l.members.all (fun k => decide (0 ≤ k)) &&
          blockRoom unplaced 0 l (mates l 0 0).length && unplaced.warps.all (fun w => decide (w.id < unplaced.nextId)) && decide (2 ≤ l.rec_.regs) && l.rec_.widest.isNone
      | none => false) &&
    (let s := hereWith (fun w => { w with place := none, block := none, kind := .seed }) id
     match s.awakeWarp? 3, s.launch? 1 with
      | some w, some l => w.launch == 1 && w.place.isNone && w.block.isNone && mayPlace s w && coreUp s 0 && w.snap.getLsbD 0 && dieOf 0 == w.die && w.cluster.isNone &&
          partitionRoom s 0 l && warpRoom s 0 l 1 (128 * w.alloc)
      | _, _ => false) &&
    (let s := hereWith (fun w => w.mapLanes allLanes (fun _ y => { y with cond := .exited })) id
     (s.awakeWarp? 3).any (fun w => w.live == 0#32 && w.ops.isEmpty && w.kind == .static)) &&
    (let h := (placedWarp.mapLanes allLanes (fun _ y => { y with cond := .exited }))
     let s := { here with warps := [{ h with kind := .handler 7 }, stoppedHere] }
     (s.awakeWarp? 3).any (fun w => w.live == 0#32 && w.ops.isEmpty && w.kind == .handler 7 && fine (killLanes s w.ctx 7 allLanes))) &&
    (match (arrived 0).bars.find? (fun b => b.key == 5) with
      | some b => b.expected == 0 && (match barWarps (arrived 0) b with
          | some ws => ws.all (fun w => !(arrived 0).saved w.ctx && warpArrived (arrived 0) w b.scope b.id b.phase) && ws.any (fun w => (w.lane 0).arrivals.any (fun a => a.scope == b.scope && a.id == b.id &&
              a.phase == b.phase))
          | none => false)
      | none => false) &&
    (let s := { arrived 0 with warps := (arrived 0).warps.map (fun w => Warp.mapLanes w allLanes (fun _ y => { y with cond := .waiting (.barrier 0 1 0 true) 4#56 0 })) }
     match s.bars, s.warps with
      | [b], [w] => (match barrierRuns s b w with
          | [m] => (match (w.lane (leadOf m)).cond with | .waiting _ _ _ => true | _ => false)
          | _ => false)
      | _, _ => false) = true := by decide +kernel

/-- A block of one page, as given. -/
def withBlock (s : State) (st : BlockState) (un : List Nat) : State := { s with blocks := [{ placedBlock with pages := 1, state := st, unpinned := un }] }

/-- WarpsAndBlocks: a block whose warp has monitored for as long as asked; one that comes back; a page to refill; a hang; a pre-emption. -/
theorem witness_swaps :
    (let s := withBlock (at_ 30000 (fun w => w.mapLanes allLanes (fun _ y => { y with cond := .waiting (.monitor 0 0 4 1 false) 4#56 0 })) id) .running []
     match s.block? 2, s.ctx? 0, s.warps with
      | some b, some c, [w] => b.ctx == 0 && b.state == .running && ctxRuns s b.ctx && w.group.isEmpty && w.block == some 2 &&
          (w.lane 0).cond == .waiting (.monitor 0 0 4 1 false) 4#56 0 && decide (600 * c.swapUs ≤ s.mod.clock)
      | _, _, _ => false) &&
    (let s := withBlock (hereWith (fun w => { w with place := none }) id) .swapped []
     let s := { s with launches := [{ placedLaunch with rec_ := { placedLaunch.rec_ with scratch := 4096, partition := 1 + 512 } }] }
     match s.block? 2, s.launch? 1 with
      | some b, some l => b.launch == 1 && b.state == .swapped && ctxRuns s b.ctx && blockRoom s b.core l 1
      | _, _ => false) &&
    (let s := withBlock here .running [0]
     (s.block? 2).any (fun b => b.state == .running && ctxAwake s b.ctx && b.unpinned.contains 0)) &&
    (let s := at_ (2 ^ 24) (fun w => w.mapLanes allLanes (fun _ y => { y with cond := .waiting (.full 0) 4#56 0 })) id
     (s.ctx? 0).any (fun c => c.live && decide (c.hangSince + 2 ^ c.hangExp ≤ s.mod.clock)) &&
       s.warps.all (fun w => w.ctx == 0 && w.live != 0#32 && w.readyLanes == 0#32)) &&
    (let s := at_ 1200 id (fun c => { c with preempt := .stopping 0 0 1 })
     (s.ctx? 0).any (fun c => c.live && c.preempt == .stopping 0 0 1) && decide (1200 ≤ s.mod.clock) && haltedNow s 0) &&
    (here.ctx? 0).any Ctx.live = true := by decide +kernel

/-- PagesChange: an entry that can be reached; a page absent, requested, refused, present; a frame to move to; a move held off; a line to pull;
a page that lies at the host. -/
theorem witness_paging :
    (match here.ctx? 0 with
      | some c => (entryAt here.mem 0 4 walkLevels c.root).any (fun p => inHbm p.1) && here.lines.isEmpty
      | none => false) &&
    [(0, 0), (1, 1), (3, 3)].all (fun p =>
      let s := entered 0x10033 (hereWith id (fun c => { c with residency := if p.1 = 0 then [] else [(0, p.1)] }))
      (localLeaf s 0 0).any (fun q => !q.2.p && pageState q.1 q.2 == p.2)) &&
    (localLeaf here 0 0).any (fun q => q.2.p && pageState q.1 q.2 == 2 && (moveOf q.1 q.2).isNone && inHbm q.2.frame && 0x30000 % q.2.size == 0 &&
      inHbm (0x30000 + q.2.size - 1) && !inCarve (0x30000 + q.2.size - 1) && q.2.frame != 0x30000 && 0x30000 / 2 ^ 36 / 3 == 0 &&
      decide ((assoc q.1.holds q.2.page).getD 0 ≤ here.mod.clock)) &&
    (let s := hereWith id (fun c => { c with holds := [(0, 10)] })
     (s.ctx? 0).any (fun c => (leafOf s c 0).any (fun l => !l.rem && l.p && decide (s.mod.clock < (assoc c.holds l.page).getD 0)))) &&
    (let s := hereWith id (fun c => { c with farMaps := [(0, 0)] })
     match s.ctx? 0, s.cur.bind (fun x => s.warp? x.warp) with
      | some c, some w => w.core?.any (fun k => (match resolve s c w.block .atomic 2 0x40 4 with
          | .ok p => p.leaf.any (fun l => c.farMaps.contains (l.page, dieOf k))
          | .error _ => false))
      | _, _ => false) &&
    (let s := hereWith id (fun c => { c with moves := [{ page := 0, size := 0x10000, oldFrame := 0x30000, newFrame := 0x10000, pulled := [1] }] })
     (localLeaf s 0 0).any (fun q => (moveOf q.1 q.2).any (fun m => !m.pulled.contains 0) && s.lines.isEmpty && Memory.wf s.mem)) &&
    (let s := entered (0x10033 + 2 ^ 9) here
     match s.ctx? 0 with
      | some c => (leafOf s c 0).any (fun l => l.rem && l.tgt == 0 && 0x30000 / 2 ^ 36 / 3 == 0 && decide ((assoc c.holds l.page).getD 0 ≤ s.mod.clock) &&
          0x30000 % l.size == 0 && inHbm (0x30000 + l.size - 1) && !inCarve (0x30000 + l.size - 1))
      | none => false) = true := by decide +kernel

/-! ### The module -/

/-- A remote access as given, and a second behind it. -/
def aRemote (write : Bool) (sent : Option Nat) : RemoteReq :=
  { id := 6, ctx := 0, warp := 3, op := 9, lane := 0, peer := 1, launch := 1, addr := 0, va := 0x40, write := write, fill := 0, kind := 0, bytes := [], port := 0, sentAt := sent }

/-- RemoteAccesses: a request that is out, for a read and for a write, and late, and the part it is for; one held for rate, with a port and with none;
one whose bytes are for no warp; a host that has been silent for 10 seconds. -/
theorem witness_remote :
    [true, false].all (fun wr => let s := { at_ 1200000 id id with mod := { Module.reset with clock := 1200000, remotes := [aRemote wr (some 0)] } }
      (s.mod.remotes.find? (fun r => r.id == 6)).any (fun r => r.sentAt == some 0 && r.write == wr) && decide (0 + 1200000 ≤ s.mod.clock)) &&
    (let s := access (.load 4 4 false false false none) 4
     (remotePart s { aRemote false (some 0) with op := 3 }).any (fun x => x.2.1.kind != .emit)) &&
    (here.warp? 9).isNone && (({ aRemote false (some 0) with fill := 4 } : RemoteReq).fill != 0) &&
    [true, false].all (fun port => let s := { hereWith id (fun c => { c with egressRates := if port then List.replicate 16 5 else c.egressRates }) with
        mod := { Module.reset with remotes := [aRemote false none] } }
      match s.mod.remotes.find? (fun r => r.id == 6), s.ctx? 0 with
      | some r, some c => r.ctx == 0 && r.sentAt.isNone && (s.mod.remotes.takeWhile (fun x => x.id != 6)).isEmpty && (match choosePort s c with
          | .ok p => port && decide (portCount s 0 p < c.egressRates.getD p 0)
          | .error _ => !port)
      | _, _ => false) &&
    (let s := { here with mod := { Module.reset with clock := 6000000000, hosts := [(1, 0)] } }
     assoc s.mod.hosts 1 == some 0 && decide (0 + 6000000000 ≤ s.mod.clock)) = true := by decide +kernel

/-- Region 0 over the context's page, every access allowed. -/
def aRegion (rate : Nat) (queue : List Inbound) : Region :=
  { index := 0, vbase := 0, length := 65536, ctx := 0, perm := 7, rate := rate, key := 9, queue := queue, window := 0, count := 1 }

/-- A request of each kind at offset 0x40. -/
def inbound (kind : Nat) : Inbound := { host := 1, stream := 0, kind := kind, key := 9, addr := 0x40, values := [8, 1], order := 4, held := false, sent := false }

/-- `here` with the region. -/
def regioned (r : Region) : State := { here with mod := { Module.reset with regions := [r] } }

/-- Of a request that reaches the context's page: what holds of the context, and of whether no part of it is carried to a remote target. -/
def reaches (s : State) (q : Inbound) (f : Ctx → Bool → Bool) : Bool :=
  (s.ctx? 0).any (fun c => f c (farPieces (numbered s) c q (pagePieces (q.size + 1) 0x40 q.size)).isEmpty)

/-- `regioned`, the page on a host, ports at hand. -/
def farRegion (queue : List Inbound) : State :=
  { entered 0x1023B (hereWith id (fun c => { c with egressRates := List.replicate 16 5, egressTargets := BitVec.allOnes _ })) with
    mod := { Module.reset with regions := [aRegion 0 queue] } }

/-- InboundRequests: requests that are carried to a host, and what is answered when it has answered. -/
theorem witness_inbound_far :
    [0, 2, 3, 4].all (fun k => let s := farRegion []
      reaches s (inbound k) (fun c far => !far && (inboundBarred (numbered s) c 0x40 (inbound k)).isNone && fine (farPuts c (inbound k) 0x40
        (farPieces (numbered s) c (inbound k) (pagePieces ((inbound k).size + 1) 0x40 (inbound k).size)) (numbered s)
        (pagePieces ((inbound k).size + 1) 0x40 (inbound k).size)))) &&
    (let s := farRegion []
     reaches s (inbound 1) (fun c far => !far && (match readMem (asReader (numbered s) s.nextId) 0 none 0 0x40 8 with
       | .error (.remote a peer b n) => fine (askRemote (numbered s) c 0 s.nextId 0 a peer b n)
       | _ => false))) &&
    (let s := farRegion [inbound 1]
     reaches s (inbound 1) (fun c far => !far && (inboundBarred s c 0x40 (inbound 1)).isNone && (match readMem (asReader s 4) 0 none 0 0x40 8 with
       | .error (.remote a peer b n) => fine (readMem (asReader { s with mod := { s.mod with brought :=
           [{ user := 4, peer := peer, addr := b, bytes := List.replicate n 1 : Brought }] } } 4) 0 none 0 a n)
       | _ => false))) &&
    [0, 2].all (fun k => let q := { inbound k with sent := true, held := true }
      let s := farRegion [q]
      (s.mod.regions.find? (fun r => r.index == 0)).any (fun r => r.queue[0]? == some q && rateAllows s r && !streamBlocked s q &&
        regionRefuses s (some r) q == none && s.mod.remotes.isEmpty && (inboundOf s 4).isSome)) = true := by decide +kernel

/-- InboundRequests: no region; a request refused for its key; one performed; one that waits for rate, and one with 4,096 before it; one held for its
page; one that an earlier write of its stream holds; one that is served from the queue; plain memory for each kind; a drop that is trapped
and one that is counted. -/
theorem witness_inbound :
    (here.mod.regions.find? (fun r => r.index == 0)).isNone &&
    regionRefuses (regioned (aRegion 0 [])) (some (aRegion 0 [])) { inbound 0 with key := 8 } == some 1 &&
    (List.range 5).all (fun k => let s := regioned (aRegion 0 [])
      regionRefuses s (some (aRegion 0 [])) (inbound k) == none && rateAllows s (aRegion 0 []) && !streamBlocked s (inbound k) &&
      (reaches s (inbound k) (fun c far => far && (inboundBarred (numbered s) c 0x40 (inbound k)).isNone)) &&
      fine (inboundAccess (numbered s) 0 (0 + 0x40) (inbound k))) &&
    !rateAllows (regioned (aRegion 1 [])) (aRegion 1 []) &&
    decide (4096 ≤ ((List.replicate 4096 (inbound 1)).filter (fun x => !x.held)).length) &&
    (let s := entered 0x10033 (regioned (aRegion 0 []))
     reaches s (inbound 1) (fun c _ => match inboundBarred (numbered s) c 0x40 (inbound 1) with | some (.wait _ _) => true | _ => false)) &&
    (let s := entered 0 (regioned (aRegion 0 []))
     reaches s (inbound 1) (fun c _ => match inboundBarred (numbered s) c 0x40 (inbound 1) with | some (.trap _ _ _) => true | _ => false)) &&
    (let s := regioned (aRegion 0 [{ inbound 0 with stream := 2, order := 1, held := true }])
     streamBlocked s { inbound 0 with stream := 2 } && s.mod.regions.all (fun r => r.queue.all Inbound.held && rateAllows s r)) &&
    (let s := regioned (aRegion 0 [inbound 1])
     (s.mod.regions.find? (fun r => r.index == 0)).any (fun r => r.queue[0]? == some (inbound 1) && rateAllows s r && regionRefuses s (some r) (inbound 1) == none &&
       !streamBlocked s (inbound 1) && reaches s (inbound 1) (fun c far => far && (inboundBarred s c 0x40 (inbound 1)).isNone) && fine (inboundAccess s r.ctx (r.vbase + 0x40) (inbound 1)))) &&
    (match here.ctx? 0 with
      | some c => plainB here c none .atomic 2 0x40 8 && plainB here c none .write 1 0x40 2 && plainB here c none .read 0 0x40 2 && here.lines.isEmpty &&
          Memory.wf here.mem && c.droppedTrap.isNone
      | none => false) &&
    ((hereWith id (fun c => { c with droppedTrap := some 0 })).ctx? 0).any (fun c => c.droppedTrap.any (fun t => decide (here.mod.clock < t + 60000))) = true := by
  decide +kernel

/-- A management message: op, sequence number 1, context, arguments. -/
def msg (op ctx : Nat) (args : List Nat) : List Nat := natLe 2 op ++ [0, 0, 1, 0, 0, 0] ++ natLe 4 ctx ++ natLe 4 args.length ++ args

/-- The request of a message is served: `Asks`. -/
def asksB (s : State) (op : Nat) (named : Option Bool) (ok : Request → Bool) (m : List Nat) : Bool :=
  let q := requestOf 0 m
  q.op == op && (op == 0x0A || op == 0x0B || s.mod.released) && q.whole && ok q && (named != some false || q.ctx == 0xFFFFFFFF) &&
    (named != some true || controls s 0 q.ctx)

/-- `here` with the firmware released. -/
def managed (g : Ctx → Ctx) : State := { hereWith id g with mod := { Module.reset with released := true } }

/-- ManagementRequests: each operation asked as it must be. -/
theorem witness_requests :
    asksB (managed id) 0x01 none createOk (msg 0x01 0xFFFFFFFF (List.replicate 24 0 ++ [16] ++ List.replicate 55 0 ++ [12] ++ List.replicate 103 0)) &&
    (newNumber (managed id) == some 1) &&
    [0x02, 0x03].all (fun op => asksB (managed id) op (some true) (fun q => q.length == 0) (msg op 0 [])) && ctxRuns (managed id) 0 &&
    (let s := managed (fun c => { c with preempt := .saved }); asksB s 0x04 (some true) (fun q => q.length == 0) (msg 0x04 0 []) && s.saved 0) &&
    (let m := msg 0x05 0 (List.replicate 18 0 ++ [1] ++ List.replicate 21 0)
     asksB (managed id) 0x05 (some true) regionOk m && controls (managed id) 0 ((requestOf 0 m).field 24 4)) &&
    asksB (managed id) 0x06 (some true) (fun q => q.length == 8 && decide (q.field 0 4 < 1024) && q.field 4 4 == 0) (msg 0x06 0 (List.replicate 8 0)) &&
    asksB (managed id) 0x07 (some true) (fun q => q.length == 16 && q.field 0 8 % 4096 == 0 && decide (1 ≤ q.field 8 4) && decide (q.field 8 4 ≤ 4096) && q.field 12 4 == 0)
      (msg 0x07 0 (List.replicate 8 0 ++ [1] ++ List.replicate 7 0)) &&
    (let m := msg 0x08 0xFFFFFFFF (List.replicate 16 0)
     asksB (managed id) 0x08 (some false) partOkArgs m && (requestOf 0 m).field 0 4 != 2 && (partCores (requestOf 0 m)).any (fun c => (managed id).mod.snapshot.getLsbD c)) &&
    (let m := msg 0x09 0xFFFFFFFF (List.replicate 16 0)
     let s := { managed id with mod := { (managed id).mod with snapshot := BitVec.allOnes 256 <<< 1 } }
     asksB s 0x09 (some false) partOkArgs m && (requestOf 0 m).field 0 4 != 2 && (partCores (requestOf 0 m)).any (fun c => !s.mod.snapshot.getLsbD c) && s.mod.fencing.isEmpty) &&
    (let f : Fencing := { host := 0, head := msg 0x08 0xFFFFFFFF [], cores := [7] }
     let s := { managed id with mod := { (managed id).mod with fencing := [f] } }
     s.mod.fencing == [f] && f.cores == [7] && coreFree s 7) &&
    [0, 1].all (fun last => asksB here 0x0A (some false) pushOk (msg 0x0A 0xFFFFFFFF (List.replicate 8 0 ++ [last, 0, 0, 0, 8] ++ List.replicate 11 0))) && !here.mod.locked &&
    asksB here 0x0B (some false) (fun q => q.length == 32) (msg 0x0B 0xFFFFFFFF (List.replicate 32 0)) &&
    [1500, 3000].all (fun w => asksB (managed id) 0x0C (some false)
      (fun q => q.length == 8 && decide (1500 ≤ q.field 0 4) && decide (q.field 0 4 ≤ 3000) && q.field 4 4 == 0) (msg 0x0C 0xFFFFFFFF (natLe 8 w))) &&
    (List.range 5).all (fun sub => asksB (managed id) 0x0D (some true) debugOk (msg 0x0D 0 (sub :: List.replicate 23 0))) &&
    asksB (managed id) 0x0E (some false) (fun q => q.length == 0) (msg 0x0E 0xFFFFFFFF []) &&
    (requestOf 0 (msg 0 0 [])).op == 0 && decide (0x0E < (requestOf 0 (msg 0x0F 0 [])).op) = true := by decide +kernel

/-- ManagementRequests: those that are refused: firmware in reset, a length that is wrong, a context of another host, a context that
does not run, one that is not saved, a region of another host's context, an image locked in, cores fenced already and in service already. -/
theorem witness_refusals :
    !here.mod.released && createOk (requestOf 0 (msg 0x01 0xFFFFFFFF [])) == false && !controls (managed id) 1 0 && controls (managed id) 0 0 &&
    !ctxRuns (managed (fun c => { c with preempt := .saved })) 0 && !(managed id).saved 0 &&
    (let m := msg 0x05 0 (List.replicate 18 0 ++ [1] ++ List.replicate 5 0 ++ [5] ++ List.replicate 15 0)
     asksB (managed id) 0x05 (some true) regionOk m && !controls (managed id) 0 ((requestOf 0 m).field 24 4)) &&
    (let s := { here with mod := { Module.reset with locked := true } }; s.mod.locked && asksB s 0x0A (some false) pushOk (msg 0x0A 0xFFFFFFFF
      (List.replicate 12 0 ++ [8] ++ List.replicate 11 0))) &&
    (let m (op : Nat) := msg op 0xFFFFFFFF (List.replicate 16 0)
     let s := { managed id with mod := { (managed id).mod with snapshot := 0#256 } }
     asksB s 0x08 (some false) partOkArgs (m 0x08) && (partCores (requestOf 0 (m 0x08))).all (fun c => !s.mod.snapshot.getLsbD c)) &&
    (let m := msg 0x09 0xFFFFFFFF (List.replicate 16 0)
     asksB (managed id) 0x09 (some false) partOkArgs m && (partCores (requestOf 0 m)).all (fun c => (managed id).mod.snapshot.getLsbD c)) = true := by decide +kernel

/-- The module with the first context numbers taken. -/
def full (k : Nat) : State := { managed id with ctxs := (List.range k).map (fun n => { placedCtx with number := n }) }

theorem full_ctx (k n : Nat) (h : n < k) : ∃ c, (full k).ctx? n = some c ∧ c.live = true := by
  have e : ((full k).ctxs.find? (fun c => c.number == n)).isSome = true :=
    List.find?_isSome.mpr ⟨{ placedCtx with number := n }, List.mem_map.mpr ⟨n, List.mem_range.mpr h, rfl⟩, by simp⟩
  obtain ⟨c, hc⟩ := Option.isSome_iff_exists.mp e
  obtain ⟨k, -, rfl⟩ := List.mem_map.mp (List.mem_of_find?_eq_some hc)
  exact ⟨_, hc, rfl⟩

theorem newNumber_none {s : State} (f : ∀ n, n < 1024 → ∃ c, s.ctx? n = some c ∧ c.live = true) : newNumber s = none := by
  have a : (List.range 1024).find? (fun n => (s.ctx? n).isNone) = none :=
    List.find?_eq_none.mpr fun n h => by obtain ⟨c, e, -⟩ := f n (List.mem_range.mp h); simp [e]
  have b : (List.range 1024).find? (fun n => ((s.ctx? n).map (fun c => !c.live)).getD false) = none :=
    List.find?_eq_none.mpr fun n h => by obtain ⟨c, e, l⟩ := f n (List.mem_range.mp h); simp [e, l]
  unfold newNumber
  rw [a, b]

/-- ManagementRequests: no context number is left. -/
theorem witness_no_number : newNumber (full 1024) = none := newNumber_none (full_ctx 1024)

/-- A request about row 0 of stack 0. -/
def rowRequest (op : Nat) : Request := requestOf 0 (msg op 0xFFFFFFFF ([2, 0, 0, 0] ++ List.replicate 12 0))

/-- ManagementRequests: a row that can be fenced or returned, whatever the size of rows. -/
theorem witness_rows (op : Nat) (h : op = 0x08 ∨ op = 0x09) : partOkArgs (rowRequest op) = true ∧ (rowRequest op).field 0 4 = 2 ∧
    (rowRequest op).op = op ∧ (rowRequest op).whole = true ∧ (rowRequest op).ctx = 0xFFFFFFFF := by
  have z : (0 < 2 ^ 36 / Config.hbmRowBytes) = True := by
    have := Config.hbmRowSectors.isLt
    exact eq_true (Nat.div_pos (by unfold Config.hbmRowBytes; omega) (by unfold Config.hbmRowBytes; omega))
  have e : (rowRequest op).field 8 8 = 0 ∧ (rowRequest op).field 0 4 = 2 ∧ (rowRequest op).field 4 4 = 0 ∧ (rowRequest op).length = 16 ∧
      (rowRequest op).op = op ∧ (rowRequest op).whole = true ∧ (rowRequest op).ctx = 0xFFFFFFFF := by
    rcases h with rfl | rfl <;> decide +kernel
  obtain ⟨e1, e2, e3, e4, e5⟩ := e
  refine ⟨?_, e2, e5⟩
  unfold partOkArgs
  simp only [e1, e2, e3, e4, z]
  decide

/-- ManagementRequests: a stack with spares, one with none, and no row fenced. -/
theorem witness_spares : (managed id).mod.fencedRows = [] ∧ retiredRows (managed id) 0 < 1024 ∧
    1024 ≤ retiredRows { here with mod := { Module.reset with retired := List.replicate 1024 (0, 5) } } 0 := by decide +kernel


/-! ### Decoding, steps, invariants -/

/-- DecodeInvertsEncode: an instruction that is well formed, and a word that is an instruction. -/
theorem witness_encode : (Instr.vAdd 3 4 5).wf = true ∧ encode (.vAdd 3 4 5) = some 0x4000C205 ∧ decodeWord 0x4000C205 = .ok (.vAdd 3 4 5) := by
  decide +kernel

/-- The machine goes on. -/
def goes (o : Host.Outcome State Fault Refusal) : Bool := match o with | .next _ => true | _ => false

/-- StepKeepsCanonical: a state in canonical form that steps. -/
theorem witness_canonical : (placeWord State.reset 0xCC000000).Canonical ∧ goes (step (placeWord State.reset 0xCC000000)) = true :=
  ⟨⟨by decide +kernel, by decide +kernel⟩, by decide +kernel⟩

/-- What a turn fetches. -/
noncomputable def turnKind (s : State) : Nat := match nextTurn s with
  | .issue w => (match turnWarp (passClocks (popTurn s) 1) w with
    | .fetched _ bytes => match decodeBytes bytes with | .ok _ => 1 | .error _ => 2
    | .unfetched _ => 3
    | .idle => 4)
  | .event _ => 5
  | .tick _ => 6

/-- StepRunsTheWord: a word, one that is no instruction, one that cannot be fetched, a warp that may not issue, an event, a tick. -/
theorem witness_turns :
    turnKind (placeWord State.reset 0x4000C205) = 1 ∧ turnKind (placeWord State.reset 0x01C00000) = 2 ∧
    turnKind { here with warps := [placedWarp.mapLanes allLanes (fun _ y => { y with pc := 0x20000#56 })] } = 3 ∧
    turnKind { here with warps := [placedWarp.mapLanes allLanes (fun _ y => { y with cond := .exited })] } = 4 ∧
    turnKind { here with schedule := [.event .moduleReset] } = 5 ∧ encode .moduleReset = none ∧ turnKind { here with schedule := [.tick 3] } = 6 := by
  decide +kernel

/-- StepRunsTheWord: the run selected and its fetch; a word of the table. -/
theorem witness_fetch :
    (match here.warp? 3 with
      | some w => mayIssue here w && (match selectRun w, here.ctx? w.ctx with
          | some (_, _, pc), some c => fine (fetchWord here c w (pc + BitVec.ofNat 56 (4 * w.group.length)).toNat) &&
              (match resolve here c w.block .fetch 0 0 4 with
                | .ok ⟨.hbm pa, some l⟩ => (badAt here pa 4).isNone && (moveOf c l).isNone && here.lines.isEmpty && here.mod.reader == 0 &&
                    here.mod.brought.isEmpty && here.mod.doomed.isEmpty
                | _ => false)
          | _, _ => false)
      | none => false) = true ∧ decodeTableWord 32 0x4000C205 = some (.vAdd 3 4 5) := by decide +kernel

/-! ### Results from the spec's own examples -/

/-- Words that the chapters print beside their assembly (R194, R195, R257, R270, R281, R282, R134, R135, R342). -/
theorem test_words : ([(0x96D00000, Instr.mFenceRel 3), (0x97200000, .mFenceFull 4), (0x98A00206, .mMwait 5 4 6), (0x52A0C114, .vCvt 5 3 2 2 1),
    (0xBE028000, .eTdset 10), (0xA2030200, .eGath 12 2), (0xC4000200, .cJmp 4), (0xC4278200, .cCallx 30 4), (0xC4400F00, .cRet 30),
    (0xBC018000, .eRelaunch 6)] : List (Nat × Instr)).all (fun p => decide (decodeWord p.1 = .ok p.2)) = true := by decide +kernel

/-- A register of a lane after one word. -/
def regAfter (o : Host.Outcome State Fault Refusal) (l n : Nat) : Option Word := ((after_ o).warp? 3).map (fun w => w.reg l n)

/-- `here` with registers. -/
def withRegs (l : List (Nat × RegForm)) (f : Warp → Warp) : State := hereWith (fun w => f { w with regs := l.foldl (fun rs p => rs.set p.1 p.2) w.regs }) id

/-- The listing of the hints' chapter: under `h.guard p1, 3` and `h.imm 0x1FFFFFE`, `v.add v3, v4, -200` makes 800 of 1,000 in a lane with p1 set
and leaves 7 in one without. -/
theorem test_add_imm : ((fun s => (regAfter (execVAddImm 3 4 0x38 s) 0 3, regAfter (execVAddImm 3 4 0x38 s) 1 3))
    (withRegs [(3, .uniform 7#32), (4, .uniform 1000#32)] (fun w =>
      { w.mapLanes 1#32 (fun _ y => { y with preds := y.preds.set 1 { val := true, pend := none } }) with
        group := [0xFE050000#32, 0xFDFFFFFE#32], groupRun := allLanes, groupReady := allLanes }))) = (some 800#32, some 7#32) := by decide +kernel

/-- The example of `v.addsat.s`: beyond 0x7FFFFFFF the sum stays there. -/
theorem test_addsat : regAfter (execVAddsatS 3 4 5 (withRegs [(4, .uniform 0x7FFFFFFF#32), (5, .uniform 1#32)] id)) 9 3 = some 0x7FFFFFFF#32 := by
  decide +kernel

/-- R102: `v.min.z v1, v2, -1` compares against 0xFFFFFFFF. -/
theorem test_min_imm : regAfter (execVMinZImm 1 2 0x7F (withRegs [(2, .uniform 0x80000000#32)] id)) 0 1 = some 0x80000000#32 := by decide +kernel

/-- The listing of `v.isect`: A = 2l and B = 3l in 32 lanes. -/
theorem test_isect :
    (fun t => [0, 1, 3, 31].map (fun l => (regAfter t l 20, regAfter t l 21)))
      (execVIsect 20 8 9 (withRegs [(8, .compressed 0#32 2#32), (9, .compressed 0#32 3#32)] id)) =
    [(some 0x80000000#32, some 0x00150020#32), (some 0#32, some 0x00150020#32), (some 0x80000002#32, some 0x00150020#32),
      (some 0#32, some 0x00150020#32)] := by decide +kernel

/-- R135: `c.callx` leaves its own address + 4 in the link pair, and takes its target first where the pairs are one. -/
theorem test_callx : ((fun t => (((after_ t).warp? 3).map (fun w => (w.lane 0).pc), regAfter t 0 30))
    (execCCallx 30 30 (withRegs [(30, .uniform 0x103#32)] id))) = (some 0x100#56, some 4#32) := by decide +kernel

/-- R140, R141: `c.bar.arrive` twice in one phase traps; the first does not. -/
theorem test_arrive_twice : (((after_ (execCBarArrive 0 1 (arrived 0))).warps.length, (after_ (execCBarArrive 0 1 here)).warps.length)) = (2, 1) := by
  decide +kernel

/-- R161: row 5, column 7 of tile 3. -/
theorem test_tile : tileRow 3 5 + 4 * 7 = 0x00FFFF0100030A1C := by decide

/-- The indexes of the address 0x1234567890 at the five levels (R165). -/
theorem test_walk : walkLevels.map (fun l => bitsAt 0x0000001234567890 l.2.1 l.2.2) = [0, 0, 0x48, 0x1A2, 0x16] := by decide

/-- R35: the partition word 0x00805008. -/
theorem test_partition : (fun r : LaunchRec => (r.regg, r.scrg, r.acct)) { placedLaunch.rec_ with partition := 0x00805008 } = (8, 40, 32) := by
  decide +kernel

/-- The example of R262: block 7 of a weight tensor with K = 512 and N = 256; in an e2m1 slot position 261 is the high nibble of byte 130. -/
theorem test_block :
    ({ ten 1 0x10 0 256 512 with lay := true }).blockNo 128 384 = 7 ∧ ({ ten 1 0x10 0 256 512 with lay := true }).slotPos (128 + 2) (384 + 5) = 261 ∧
    slotBits 7 261 = (130, 4, 4) := by decide +kernel

/-- R146, R148: `c.trap 7` at address 0: the run stops under a handle; the handler's v0 is the cause 0x5F, its v2 the address after the word, and it
stands at the trap entry. -/
theorem test_trap : ((fun s => ((s.warp? 3).map (fun w => (w.lane 0).cond), ((s.warps.filter (fun w => w.id != 3)).map (fun w =>
    ((w.lane 0).pc, w.reg 0 0, w.reg 0 2))))) (after_ (execCTrap 7 here))) =
    (some (.stopped 1), [(0x8000#56, 0x5F#32, 4#32)]) := by decide +kernel

/-- R187: an atomic add returns the old word and stores the sum, in one step. -/
theorem test_atomic : (fun s => (Memory.readN s.mem 0x10040 4, (s.warp? 3).map (fun w => (w.reg 0 4, w.ops.length))))
    (after_ (execAtomicPerform 3 1 (placeBytes (access (.atomic .add32 4) 4) 0x40 [5]))) = (12, some (5#32, 0)) := by decide +kernel

/-- R3, R185: a store leaves its least significant byte lowest. -/
theorem test_store : (fun s => [0x10040, 0x10041, 0x10042].map (fun a => s.byte a))
    (after_ (execStorePerform 3 1 (hereWith (fun w => { w with ops := [{ firstOp .running with kind := .store none, counter := 1, parts := [mkPart 0 0x40 2 ⟨.hbm 0x10040, none⟩ 0x1234 0] }] }) id)))
    = [0x34#8, 0x12#8, 0#8] := by decide +kernel

/-- The worked case of directed rounding: q = 0x3EAAAAAB against a greatest key of 3.0 (bf16 0x4040) gives the bound 0x3F800001. -/
theorem test_bound : boundOf [0x3EAAAAAB] [0] [0x4040] = 0x3F800001 := by decide +kernel

/-- The integer, predicate and bit-field words the machine has no instruction for: function 14 of majors 0 and 1, class 00 of major 0x0D, a code past the
last of 0x2D, and a reserved bit set. -/
theorem witness_illegal_words : (fld 0x01C00000 25 7 = 0 ∧ 14 ≤ fld 0x01C00000 21 4) ∧ fld 0x1A000000 25 7 = 0x0D ∧
    (fld 0x5B200000 25 7 = 0x2D ∧ 9 ≤ fld 0x5B200000 21 4) ∧ (fld 0x5A000001 25 7 = 0x2D ∧ held 0x5A000001 0 18 ≠ 0) := by decide +kernel

/-! ### Values, refusals and counts -/

/-- AccessesPerform: a texture operation of each kind of plan whose texels the unit reads. -/
theorem witness_tex_values :
    [0, 3, 4].all (fun fn => let s := textured (access (.tex fn 4) 64)
      aloneB s (fun w o p _ => o.kind == .tex fn 4 && decide (4 + 4 ≤ w.alloc) && (match readMem (asReader s o.id) w.ctx w.block 0 p.va 64 with
        | .ok (b, t) =>
          let e := TexDesc.read b
          let r := { asReader s o.id with free := s.free + 16 }
          t == asReader s o.id && descOk b && (planOf e fn p.args s.free).taps.length == (if fn = 4 then 4 else 1) &&
            (planRanges e (planOf e fn p.args s.free)).all (fun q => match readMem r w.ctx w.block 0 q.1 q.2 with | .ok (_, u) => u == r | .error _ => false)
        | .error _ => false))) = true := by decide +kernel

/-- TexturesIssue: coordinates that are finite at both ends of a row of 4, and a lod within each filter's levels. -/
theorem witness_tex_coordinates :
    let e := { TexDesc.read ([0, 0, 0, 0, 0, 0, 0, 0, 3, 0, 3, 0, 1, 2, 0, 0] ++ List.replicate 48 0) with levels := 2 }
    let scaled (u : Nat) : Nat := rneOf (fpMul .f32) (finiteOr u) (f32OfNat 4)
    levelWidth e 0 = 4 ∧ ([0, 0x3F800000, 0xBF800000].all (fun u =>
      (Fmt.f32.decode (scaled u)).isFinite && (Fmt.f32.decode (rneOf (fpSub .f32) (scaled u) 0x3F000000)).isFinite)) = true ∧
    [0, 1, 2].all (fun f => { e with flags := 32 * f }.filter == f) = true ∧
    (Fmt.f32.decode (rneOf (fpAdd .f32) e.bias 0)).isNan = false ∧
    (Fmt.f32.decode (lodOf (f32OfNat 4) (f32OfNat 4) e.bias 0 0 0 0x3F800000 0)).isNan = false ∧
    (Fmt.e4m3.decode 0x7F).isNan = true ∧ (Fmt.f16.decode 0x7C01).isNan = true ∧ (Fmt.e4m3.decode 0).isFinite = true := by decide +kernel

/-- AtomicsIssue, ReductionsAndScans: an extreme of a NaN and a number, of two NaNs, of two numbers. -/
theorem witness_extremes : (Fmt.f32.decode 0x7F800001).isSignalling = true ∧ (Fmt.f32.decode 0x7F800001).isNan = true ∧
    (Fmt.f32.decode 0x3F800000).isNan = false ∧ ([5, 9] : List Nat).all (fun _ => (Fmt.f32.decode 0x7FC00000).isNan) = true := by decide +kernel

/-- EngineProgress: a copy whose write finds no private frame, and one whose line's old home is shut. -/
theorem witness_own_causes :
    [(0x19, entered 0x1007B (readied (copying 0x200))),
      (0x1A, let s := readied (copying 0x200)
        { s with mod := { s.mod with shut := 2#4 }
                 ctxs := s.ctxs.map (fun c => { c with moves := [{ page := 0, size := 0x10000, oldFrame := 3 * 2 ^ 36, newFrame := 0x10000, pulled := [] }] }) })].all (fun p =>
      command p.2 (fun w o c => (match nextError p.2 w o.id c with
        | some (.acc _ (.trap k a d)) => k == p.1 && accAddr (.trap k a d) == some a
        | _ => false))) = true := by decide +kernel

/-- EngineWrites: an entry of a gather of pages that does not fit, its first row copied and then stopped at. -/
theorem witness_kgat_unfit :
    let s := readied (gatheringPages 1)
    let unfit (c : Command) (ok : Tensor → Tensor → Nat → Nat → Bool) : Bool :=
      c.op == .kgat && (match c.tensor 0, c.tensor 1, c.tensor 2, c.tensor 3 with
        | some k, some v, some kd, some _ => (kgatEntry c k c.progress).any (fun g =>
            !kd.holds (fieldAt c.params 16 4 + 64 * c.progress) (min 64 (k.rows - 64 * g)) 0 k.cols && v.rows == k.rows &&
            ok k kd g (fieldAt c.params 16 4 + 64 * c.progress))
        | _, _, _, _ => false)
    (command s (fun w o c => !c.again && unfit c (fun k kd g row => let n := min (min 64 (k.rows - 64 * g)) (kd.rows - row)
        k.cols ≤ kd.cols && fine (copyElems s w o.id c (elemBytes k.fmt) (tileAddrs k (64 * g) n 0 k.cols) (tileAddrs kd row n 0 k.cols)))) &&
      command (doneUnit s) (fun _ _ c => c.again && unfit c (fun _ _ _ _ => true))) = true := by decide +kernel

/-- R256, R259: 470.0 to e4m3 under `h.rnd.z` and by default, from the table after R259 (log 74). -/
theorem test_e4m3_overflow :
    (roundVal .e4m3 .rz false (Fmt.f32.decode 0x43EB0000)) = (0x7E, flagOF ||| flagNX) ∧
    (roundVal .e4m3 .rne false (Fmt.f32.decode 0x43EB0000)) = (0x7F, flagOF ||| flagNX) := by decide +kernel

/-- SelectionCommands: a gather of pages that goes on at its first entry, of a list of one. -/
theorem witness_kgat_resumed :
    bare { eng [keyTen 1, ten 2 2 0x400 2 2, ten 3 2 0x600 64 2, ten 4 2 0x700 64 2]
        ([1, 0, 2, 0, 3, 0, 4, 0] ++ natLe 8 scratchBase ++ List.replicate 16 0 ++ [0, 0, 0, 0x80]) with
      blocks := [{ placedBlock with pages := 1, tileCount := 1, scratch := [(0, 1#8)] }] } 64 64 (fun x bytes =>
        restartV bytes && inShare x.s x.w (fieldAt bytes 8 8) 4 && (match readMem x.s x.w.ctx x.w.block 3 (fieldAt bytes 8 8) 4 with
          | .ok (b, _) => restartAt bytes < leNat b
          | .error _ => false)) = true := by decide +kernel

/-- OtherControl: a SEED warp whose count is a word of memory. -/
theorem witness_counted_word :
    begins (placeBytes { seedHere with launches := [{ placedLaunch with kind := .seed, rec_ := { placedLaunch.rec_ with spawnCtr := 0x200 } }] } 0x200 [32])
      (Info.plain 3) (fun x => x.w.counts && x.l.kind == .seed && x.l.rec_.spawnCtr + 8 ≤ windowBase && x.w.ops.isEmpty &&
        (match readMem x.s x.l.ctx none 0 x.l.rec_.spawnCtr 8 with
          | .ok (b, t) => decide ((lanesOf (x.run &&& x.w.live)).length ≤ leNat b) &&
              fine (writeWord64 t x.l.ctx x.l.rec_.spawnCtr (leNat b - (lanesOf (x.run &&& x.w.live)).length))
          | .error _ => false)) = true := by decide +kernel

/-- QueuePackets: a node's packet and one of another node, neither of a replay's predecessors, are ready at once; one that follows is not. -/
theorem witness_ready_at :
    let g : Graph := { nodes := [pkt 7 [], pkt 7 [], pkt 7 []], edges := [(0, 2)] }
    let r : Replay := { graph := g, started := [0, 1], completed := [], job := none }
    readyAt r 0 = readyAt r 1 ∧ readyAt { r with completed := [0] } 2 ≠ readyAt r 1 := by decide +kernel

/-- R358: bad data is a sector of HBM, or a 64-bit word of a line in L2. -/
theorem test_bad_words :
    (let s (k n : Nat) : State := { here with mod := { here.mod with bad := [{ kind := k, loc := n }] } }
     [badAt (s 0 2) 0x5F 1, badAt (s 0 2) 0x60 1, badAt (s 1 2) 0x17 1, badAt (s 1 2) 0x18 1]) = [some 0x51, none, some 0x52, none] := by decide +kernel

/-- R200: a BC1 block from red to blue; a BC6H and a BC7 block all of whose ends are greatest; an ASTC block of a grey ramp. Expected values by
hand from the formulas of the Khronos Data Format Specification (log 7). -/
theorem test_blocks :
    ([0, 2, 3].map (fun x => blockChannels 0x10 false (0xF800 + 0x1F * 2 ^ 16 + 0xE4 * 2 ^ 32) x 0)) =
      [[0x3F800000, 0, 0, 0x3F800000], [0x3F2AAAAB, 0, 0x3EAAAAAB, 0x3F800000], [0x3EAAAAAB, 0, 0x3F2AAAAB, 0x3F800000]] ∧
    bc6Texel false (3 + (2 ^ 60 - 1) * 32) 0 = [0x7BFF, 0x7BFF, 0x7BFF] ∧ bc7Texel (2 ^ 128 - 64) 5 = [255, 255, 255, 255] ∧
    ([0, 1, 2].map (fun x => astcTexel 4 4 false (0x42 + 255 * 2 ^ 25 + 2 ^ 127 + 2 ^ 123 + 2 ^ 122) x 0)) =
      [[21504, 21504, 21504, 65535], [0, 0, 0, 65535], [65535, 65535, 65535, 65535]] := by decide +kernel

end Sys2Proof.Tests
end

section
/-! SUPPORT. The decoder and the encoder of words (R42 to R58): the encoder's word has the format's fields in their places and its code
above them, and the decoder reads the code and then the fields. -/

namespace Sys2Proof

/-! ### Words of a format: which words one is, by the fields of the word (R44) -/

/-- The format of three registers: `base` is the code of a word, `x`, `y` and `z` are its fields. The lemmas that follow say the same of the
other formats; where a format leaves bits reserved, they are zero. -/
theorem put14_7_0_iff {base w x y z : Nat} (hb : base % 0x200000 = 0 ∧ base < 0x100000000) :
    (fits 7 x && fits 7 y && fits 7 z) = true ∧ put14_7_0 base x y z = w ↔
      w < 2 ^ 32 ∧ fld w 25 7 = base / 0x2000000 ∧ fld w 21 4 = base / 0x200000 % 16 ∧ fld w 14 7 = x ∧ fld w 7 7 = y ∧ fld w 0 7 = z := by
  simp only [fits, put14_7_0, fld, Bool.and_eq_true, decide_eq_true_eq]
  omega

theorem put14_7_iff {base w x y : Nat} (hb : base % 0x200000 = 0 ∧ base < 0x100000000) :
    (fits 7 x && fits 7 y) = true ∧ put14_7 base x y = w ↔
      w < 2 ^ 32 ∧ fld w 25 7 = base / 0x2000000 ∧ fld w 21 4 = base / 0x200000 % 16 ∧ held w 0 7 = 0 ∧ fld w 14 7 = x ∧ fld w 7 7 = y := by
  simp only [fits, put14_7, fld, held, Bool.and_eq_true, decide_eq_true_eq]
  omega

theorem put14_0_iff {base w x y : Nat} (hb : base % 0x200000 = 0 ∧ base < 0x100000000) :
    (fits 7 x && fits 7 y) = true ∧ put14_0 base x y = w ↔
      w < 2 ^ 32 ∧ fld w 25 7 = base / 0x2000000 ∧ fld w 21 4 = base / 0x200000 % 16 ∧ held w 7 7 = 0 ∧ fld w 14 7 = x ∧ fld w 0 7 = y := by
  simp only [fits, put14_0, fld, held, Bool.and_eq_true, decide_eq_true_eq]
  omega

theorem put18_0_iff {base w x y : Nat} (hb : base % 0x2000000 = 0 ∧ base < 0x100000000) :
    (fits 7 x && fits 18 y) = true ∧ put18_0 base x y = w ↔
      w < 2 ^ 32 ∧ fld w 25 7 = base / 0x2000000 ∧ fld w 18 7 = x ∧ fld w 0 18 = y := by
  simp only [fits, put18_0, fld, Bool.and_eq_true, decide_eq_true_eq]
  omega

theorem put21_14_7_3_2_iff {base w x y z u v : Nat} (hb : base % 0x2000000 = 0 ∧ base < 0x100000000) :
    (fits 4 x && fits 7 y && fits 7 z && fits 4 u && fits 1 v) = true ∧ put21_14_7_3_2 base x y z u v = w ↔
      w < 2 ^ 32 ∧ fld w 25 7 = base / 0x2000000 ∧ held w 0 2 = 0 ∧ fld w 21 4 = x ∧ fld w 14 7 = y ∧ fld w 7 7 = z ∧ fld w 3 4 = u ∧
      fld w 2 1 = v := by
  simp only [fits, put21_14_7_3_2, fld, held, Bool.and_eq_true, decide_eq_true_eq]
  omega

theorem put21_18_14_7_0_iff {base w x y z u v : Nat} (hb : base % 0x2000000 = 0 ∧ base < 0x100000000) :
    (fits 4 x && fits 3 y && fits 4 z && fits 7 u && fits 7 v) = true ∧ put21_18_14_7_0 base x y z u v = w ↔
      w < 2 ^ 32 ∧ fld w 25 7 = base / 0x2000000 ∧ fld w 21 4 = x ∧ fld w 18 3 = y ∧ fld w 14 4 = z ∧ fld w 7 7 = u ∧ fld w 0 7 = v := by
  simp only [fits, put21_18_14_7_0, fld, Bool.and_eq_true, decide_eq_true_eq]
  omega

theorem put22_14_7_0_iff {base w x y z u : Nat} (hb : base % 0x200000 = 0 ∧ base / 0x200000 % 16 < 2 ∧ base < 0x100000000) :
    (fits 3 x && fits 7 y && fits 7 z && fits 7 u) = true ∧ put22_14_7_0 base x y z u = w ↔
      w < 2 ^ 32 ∧ fld w 25 7 = base / 0x2000000 ∧ fld w 21 1 = base / 0x200000 % 2 ∧ fld w 22 3 = x ∧ fld w 14 7 = y ∧ fld w 7 7 = z ∧
      fld w 0 7 = u := by
  simp only [fits, put22_14_7_0, fld, Bool.and_eq_true, decide_eq_true_eq]
  constructor
  · rintro ⟨⟨⟨⟨hx, hy⟩, hz⟩, hu⟩, rfl⟩
    omega
  · rintro ⟨hw, hM, hf, rfl, rfl, rfl, rfl⟩
    omega

/-- `pget`, whose code is one bit. -/
theorem put14_bit21_iff {base w x : Nat} (hb : base % 0x200000 = 0 ∧ base / 0x200000 % 16 < 2 ∧ base < 0x100000000) :
    (fits 7 x) = true ∧ put14 base x = w ↔
      w < 2 ^ 32 ∧ fld w 25 7 = base / 0x2000000 ∧ fld w 21 1 = base / 0x200000 % 2 ∧ held w 0 14 + held w 22 3 = 0 ∧ fld w 14 7 = x := by
  simp only [fits, put14, fld, held, decide_eq_true_eq]
  omega

theorem put18_iff {base w x : Nat} (hb : base % 0x200000 = 0 ∧ base < 0x100000000) :
    (fits 3 x) = true ∧ put18 base x = w ↔
      w < 2 ^ 32 ∧ fld w 25 7 = base / 0x2000000 ∧ fld w 21 4 = base / 0x200000 % 16 ∧ held w 0 18 = 0 ∧ fld w 18 3 = x := by
  simp only [fits, put18, fld, held, decide_eq_true_eq]
  omega

theorem put0_iff {base w x : Nat} (hb : base % 0x200000 = 0 ∧ base < 0x100000000) :
    (fits 7 x) = true ∧ put0 base x = w ↔
      w < 2 ^ 32 ∧ fld w 25 7 = base / 0x2000000 ∧ fld w 21 4 = base / 0x200000 % 16 ∧ held w 7 14 = 0 ∧ fld w 0 7 = x := by
  simp only [fits, put0, fld, held, decide_eq_true_eq]
  omega

theorem put22_15_8_0_iff {base w x y z u : Nat} (hb : base % 0x2000000 = 0 ∧ base < 0x100000000) :
    (fits 3 x && fits 7 y && fits 7 z && fits 8 u) = true ∧ put22_15_8_0 base x y z u = w ↔
      w < 2 ^ 32 ∧ fld w 25 7 = base / 0x2000000 ∧ fld w 22 3 = x ∧ fld w 15 7 = y ∧ fld w 8 7 = z ∧ fld w 0 8 = u := by
  simp only [fits, put22_15_8_0, fld, Bool.and_eq_true, decide_eq_true_eq]
  omega

theorem put7_0_iff {base w x y : Nat} (hb : base % 0x200000 = 0 ∧ base < 0x100000000) :
    (fits 7 x && fits 7 y) = true ∧ put7_0 base x y = w ↔
      w < 2 ^ 32 ∧ fld w 25 7 = base / 0x2000000 ∧ fld w 21 4 = base / 0x200000 % 16 ∧ held w 14 7 = 0 ∧ fld w 7 7 = x ∧ fld w 0 7 = y := by
  simp only [fits, put7_0, fld, held, Bool.and_eq_true, decide_eq_true_eq]
  omega

/-- The fences, whose code lies at bit 20. -/
theorem put22_iff {base w x : Nat} (hb : base % 0x100000 = 0 ∧ base / 0x100000 % 32 < 4 ∧ base < 0x100000000) :
    (fits 3 x) = true ∧ put22 base x = w ↔
      w < 2 ^ 32 ∧ fld w 25 7 = base / 0x2000000 ∧ fld w 20 2 = base / 0x100000 % 4 ∧ held w 0 20 = 0 ∧ fld w 22 3 = x := by
  simp only [fits, put22, fld, held, decide_eq_true_eq]
  omega

theorem put21_7_0_iff {base w x y z : Nat} (hb : base % 0x2000000 = 0 ∧ base < 0x100000000) :
    (fits 4 x && fits 7 y && fits 7 z) = true ∧ put21_7_0 base x y z = w ↔
      w < 2 ^ 32 ∧ fld w 25 7 = base / 0x2000000 ∧ held w 14 7 = 0 ∧ fld w 21 4 = x ∧ fld w 7 7 = y ∧ fld w 0 7 = z := by
  simp only [fits, put21_7_0, fld, held, Bool.and_eq_true, decide_eq_true_eq]
  omega

theorem put7_iff {base w x : Nat} (hb : base % 0x200000 = 0 ∧ base < 0x100000000) :
    (fits 7 x) = true ∧ put7 base x = w ↔
      w < 2 ^ 32 ∧ fld w 25 7 = base / 0x2000000 ∧ fld w 21 4 = base / 0x200000 % 16 ∧ held w 0 7 + held w 14 7 = 0 ∧ fld w 7 7 = x := by
  simp only [fits, put7, fld, held, decide_eq_true_eq]
  omega

theorem put14_8_0_iff {base w x y z : Nat} (hb : base % 0x200000 = 0 ∧ base < 0x100000000) :
    (fits 7 x && fits 6 y && fits 2 z) = true ∧ put14_8_0 base x y z = w ↔
      w < 2 ^ 32 ∧ fld w 25 7 = base / 0x2000000 ∧ fld w 21 4 = base / 0x200000 % 16 ∧ held w 2 6 = 0 ∧ fld w 14 7 = x ∧ fld w 8 6 = y ∧
      fld w 0 2 = z := by
  simp only [fits, put14_8_0, fld, held, Bool.and_eq_true, decide_eq_true_eq]
  omega

theorem put14_8_iff {base w x y : Nat} (hb : base % 0x200000 = 0 ∧ base < 0x100000000) :
    (fits 7 x && fits 6 y) = true ∧ put14_8 base x y = w ↔
      w < 2 ^ 32 ∧ fld w 25 7 = base / 0x2000000 ∧ fld w 21 4 = base / 0x200000 % 16 ∧ held w 0 8 = 0 ∧ fld w 14 7 = x ∧ fld w 8 6 = y := by
  simp only [fits, put14_8, fld, held, Bool.and_eq_true, decide_eq_true_eq]
  omega

theorem put21_14_8_iff {base w x y z : Nat} (hb : base % 0x2000000 = 0 ∧ base < 0x100000000) :
    (fits 4 x && fits 7 y && fits 6 z) = true ∧ put21_14_8 base x y z = w ↔
      w < 2 ^ 32 ∧ fld w 25 7 = base / 0x2000000 ∧ held w 0 8 = 0 ∧ fld w 21 4 = x ∧ fld w 14 7 = y ∧ fld w 8 6 = z := by
  simp only [fits, put21_14_8, fld, held, Bool.and_eq_true, decide_eq_true_eq]
  omega

theorem put14_iff {base w x : Nat} (hb : base % 0x200000 = 0 ∧ base < 0x100000000) :
    (fits 7 x) = true ∧ put14 base x = w ↔
      w < 2 ^ 32 ∧ fld w 25 7 = base / 0x2000000 ∧ fld w 21 4 = base / 0x200000 % 16 ∧ held w 0 14 = 0 ∧ fld w 14 7 = x := by
  simp only [fits, put14, fld, held, decide_eq_true_eq]
  omega

/-- A low field of 6 bits. -/
theorem put14_0_six_iff {base w x y : Nat} (hb : base % 0x200000 = 0 ∧ base < 0x100000000) :
    (fits 7 x && fits 6 y) = true ∧ put14_0 base x y = w ↔
      w < 2 ^ 32 ∧ fld w 25 7 = base / 0x2000000 ∧ fld w 21 4 = base / 0x200000 % 16 ∧ held w 6 8 = 0 ∧ fld w 14 7 = x ∧ fld w 0 6 = y := by
  simp only [fits, put14_0, fld, held, Bool.and_eq_true, decide_eq_true_eq]
  omega

/-- A low field of 3 bits. -/
theorem put14_0_three_iff {base w x y : Nat} (hb : base % 0x200000 = 0 ∧ base < 0x100000000) :
    (fits 7 x && fits 3 y) = true ∧ put14_0 base x y = w ↔
      w < 2 ^ 32 ∧ fld w 25 7 = base / 0x2000000 ∧ fld w 21 4 = base / 0x200000 % 16 ∧ held w 3 11 = 0 ∧ fld w 14 7 = x ∧
      fld w 0 3 = y := by
  simp only [fits, put14_0, fld, held, Bool.and_eq_true, decide_eq_true_eq]
  omega

theorem put22_19_0_iff {base w x y z : Nat} (hb : base % 0x2000000 = 0 ∧ base < 0x100000000) :
    (fits 3 x && fits 3 y && fits 19 z) = true ∧ put22_19_0 base x y z = w ↔
      w < 2 ^ 32 ∧ fld w 25 7 = base / 0x2000000 ∧ fld w 22 3 = x ∧ fld w 19 3 = y ∧ fld w 0 19 = z := by
  simp only [fits, put22_19_0, fld, Bool.and_eq_true, decide_eq_true_eq]
  omega

theorem put19_0_iff {base w x y : Nat} (hb : base % 0x2000000 = 0 ∧ base < 0x100000000) :
    (fits 6 x && fits 19 y) = true ∧ put19_0 base x y = w ↔
      w < 2 ^ 32 ∧ fld w 25 7 = base / 0x2000000 ∧ fld w 19 6 = x ∧ fld w 0 19 = y := by
  simp only [fits, put19_0, fld, Bool.and_eq_true, decide_eq_true_eq]
  omega

theorem put19_13_7_1_iff {base w x y z u : Nat} (hb : base % 0x2000000 = 0 ∧ base < 0x100000000) :
    (fits 6 x && fits 6 y && fits 6 z && fits 6 u) = true ∧ put19_13_7_1 base x y z u = w ↔
      w < 2 ^ 32 ∧ fld w 25 7 = base / 0x2000000 ∧ held w 0 1 = 0 ∧ fld w 19 6 = x ∧ fld w 13 6 = y ∧ fld w 7 6 = z ∧ fld w 1 6 = u := by
  simp only [fits, put19_13_7_1, fld, held, Bool.and_eq_true, decide_eq_true_eq]
  omega

theorem put18_14_iff {base w x y : Nat} (hb : base % 0x200000 = 0 ∧ base < 0x100000000) :
    (fits 3 x && fits 4 y) = true ∧ put18_14 base x y = w ↔
      w < 2 ^ 32 ∧ fld w 25 7 = base / 0x2000000 ∧ fld w 21 4 = base / 0x200000 % 16 ∧ held w 0 14 = 0 ∧ fld w 18 3 = x ∧
      fld w 14 4 = y := by
  simp only [fits, put18_14, fld, held, Bool.and_eq_true, decide_eq_true_eq]
  omega

/-- A word with no field. -/
theorem word_iff {base w : Nat} (hb : base % 0x200000 = 0 ∧ base < 0x100000000) :
    (true) = true ∧ base = w ↔
      w < 2 ^ 32 ∧ fld w 25 7 = base / 0x2000000 ∧ fld w 21 4 = base / 0x200000 % 16 ∧ held w 0 21 = 0 := by
  simp only [fld, held, true_and]
  constructor
  · rintro rfl
    omega
  · rintro ⟨hw, hM, hf, hz⟩
    omega

/-- `c.trap`, whose one field is a number of 3 bits. -/
theorem put0_three_iff {base w x : Nat} (hb : base % 0x2000000 = 0 ∧ base < 0x100000000) :
    (fits 3 x) = true ∧ put0 base x = w ↔
      w < 2 ^ 32 ∧ fld w 25 7 = base / 0x2000000 ∧ held w 3 22 = 0 ∧ fld w 0 3 = x := by
  simp only [fits, put0, fld, held, decide_eq_true_eq]
  omega

/-- `h.imm`, whose one field is the rest of the word. -/
theorem put0_twentyFive_iff {base w x : Nat} (hb : base % 0x2000000 = 0 ∧ base < 0x100000000) :
    (fits 25 x) = true ∧ put0 base x = w ↔
      w < 2 ^ 32 ∧ fld w 25 7 = base / 0x2000000 ∧ fld w 0 25 = x := by
  simp only [fits, put0, fld, decide_eq_true_eq]
  omega

/-- `h.guard`, with bit 14 clear. -/
theorem put18_15_iff {w x y : Nat} :
    (fits 3 x && fits 3 y) = true ∧ put18_15 0xFE000000 x y = w ↔
      w < 2 ^ 32 ∧ fld w 25 7 = 127 ∧ fld w 21 4 = 0 ∧ held w 0 14 = 0 ∧ fld w 14 1 = 0 ∧ fld w 18 3 = x ∧ fld w 15 3 = y := by
  simp only [fits, put18_15, fld, held, Bool.and_eq_true, decide_eq_true_eq]
  omega

/-- `h.guard` with bit 14 set. -/
theorem put18_15_not_iff {w x y : Nat} :
    (fits 3 x && fits 3 y) = true ∧ put18_15 0xFE004000 x y = w ↔
      w < 2 ^ 32 ∧ fld w 25 7 = 127 ∧ fld w 21 4 = 0 ∧ held w 0 14 = 0 ∧ fld w 14 1 ≠ 0 ∧ fld w 18 3 = x ∧ fld w 15 3 = y := by
  simp only [fits, put18_15, fld, held, Bool.and_eq_true, decide_eq_true_eq]
  omega

/-- A low field of 2 bits. -/
theorem put14_0_two_iff {base w x y : Nat} (hb : base % 0x200000 = 0 ∧ base < 0x100000000) :
    (fits 7 x && fits 2 y) = true ∧ put14_0 base x y = w ↔
      w < 2 ^ 32 ∧ fld w 25 7 = base / 0x2000000 ∧ fld w 21 4 = base / 0x200000 % 16 ∧ held w 2 12 = 0 ∧ fld w 14 7 = x ∧
      fld w 0 2 = y := by
  simp only [fits, put14_0, fld, held, Bool.and_eq_true, decide_eq_true_eq]
  omega

/-- `h.last`, whose low field has 2 bits. -/
theorem put14_7_0_two_iff {base w x y z : Nat} (hb : base % 0x200000 = 0 ∧ base < 0x100000000) :
    (fits 7 x && fits 7 y && fits 2 z) = true ∧ put14_7_0 base x y z = w ↔
      w < 2 ^ 32 ∧ fld w 25 7 = base / 0x2000000 ∧ fld w 21 4 = base / 0x200000 % 16 ∧ held w 2 5 = 0 ∧ fld w 14 7 = x ∧ fld w 7 7 = y ∧
      fld w 0 2 = z := by
  simp only [fits, put14_7_0, fld, held, Bool.and_eq_true, decide_eq_true_eq]
  omega

theorem put19_iff {base w x : Nat} (hb : base % 0x200000 = 0 ∧ base < 0x100000000) :
    (fits 2 x) = true ∧ put19 base x = w ↔
      w < 2 ^ 32 ∧ fld w 25 7 = base / 0x2000000 ∧ fld w 21 4 = base / 0x200000 % 16 ∧ held w 0 19 = 0 ∧ fld w 19 2 = x := by
  simp only [fits, put19, fld, held, decide_eq_true_eq]
  omega

theorem put16_iff {base w x : Nat} (hb : base % 0x200000 = 0 ∧ base < 0x100000000) :
    (fits 5 x) = true ∧ put16 base x = w ↔
      w < 2 ^ 32 ∧ fld w 25 7 = base / 0x2000000 ∧ fld w 21 4 = base / 0x200000 % 16 ∧ held w 0 16 = 0 ∧ fld w 16 5 = x := by
  simp only [fits, put16, fld, held, decide_eq_true_eq]
  omega

/-! ### A word that is an instruction is the word of that instruction (R58) -/

/-- What `decodeWord w = r` claims of the encoder: if `r` is an instruction, it is well formed and its word is `w`. -/
def Reads (w : Nat) (r : Except DecodeError Instr) : Prop :=
  ∀ i, r = .ok i → i.wf = true ∧ encode i = some w

theorem reads_error {w : Nat} {e : DecodeError} : Reads w (.error e) := fun _ h => nomatch h

theorem reads_ok {w v : Nat} {i : Instr} (he : encode i = some v) (h : i.wf = true ∧ v = w) : Reads w (.ok i) := by
  rintro _ ⟨⟩
  exact ⟨h.1, h.2 ▸ he⟩

theorem reads_whenZero {w r : Nat} {i : Instr} (h : r = 0 → Reads w (.ok i)) : Reads w (whenZero r i) := by
  unfold whenZero
  split
  · exact h ‹_›
  · exact reads_error

theorem reads_decode00 {w : Nat} (hw : w < 2 ^ 32) (hM : fld w 25 7 = 0x00) : Reads w (decode00 w) := by
  unfold decode00
  split
  iterate 14 next hf => exact reads_ok rfl ((put14_7_0_iff (by decide)).2 ⟨hw, hM, hf, rfl, rfl, rfl⟩)
  · exact reads_error

theorem reads_decode01 {w : Nat} (hw : w < 2 ^ 32) (hM : fld w 25 7 = 0x01) : Reads w (decode01 w) := by
  unfold decode01
  split
  iterate 14 next hf => exact reads_ok rfl ((put14_7_0_iff (by decide)).2 ⟨hw, hM, hf, rfl, rfl, rfl⟩)
  · exact reads_error

theorem reads_decode02 {w : Nat} (hw : w < 2 ^ 32) (hM : fld w 25 7 = 0x02) : Reads w (decode02 w) := by
  unfold decode02
  split
  iterate 11 next hf => exact reads_ok rfl ((put14_7_0_iff (by decide)).2 ⟨hw, hM, hf, rfl, rfl, rfl⟩)
  iterate 5 next hf => exact reads_whenZero fun hz => reads_ok rfl ((put14_7_iff (by decide)).2 ⟨hw, hM, hf, hz, rfl, rfl⟩)
  · exact reads_error

theorem reads_decode03 {w : Nat} (hw : w < 2 ^ 32) (hM : fld w 25 7 = 0x03) : Reads w (decode03 w) := by
  unfold decode03
  split
  iterate 11 next hf => exact reads_ok rfl ((put14_7_0_iff (by decide)).2 ⟨hw, hM, hf, rfl, rfl, rfl⟩)
  · next hf => exact reads_whenZero fun hz => reads_ok rfl ((put14_0_iff (by decide)).2 ⟨hw, hM, hf, hz, rfl, rfl⟩)
  · exact reads_error

theorem reads_decode04 {w : Nat} (hw : w < 2 ^ 32) (hM : fld w 25 7 = 0x04) : Reads w (decode04 w) := by
  unfold decode04
  split
  iterate 10 next hf => exact reads_ok rfl ((put14_7_0_iff (by decide)).2 ⟨hw, hM, hf, rfl, rfl, rfl⟩)
  · exact reads_error

theorem reads_decode05 {w : Nat} (hw : w < 2 ^ 32) (hM : fld w 25 7 = 0x05) : Reads w (decode05 w) :=
  reads_ok rfl ((put18_0_iff (by decide)).2 ⟨hw, hM, rfl, rfl⟩)

theorem reads_decode06 {w : Nat} (hw : w < 2 ^ 32) (hM : fld w 25 7 = 0x06) : Reads w (decode06 w) := by
  unfold decode06
  split
  iterate 6 next hf => exact reads_ok rfl ((put14_7_0_iff (by decide)).2 ⟨hw, hM, hf, rfl, rfl, rfl⟩)
  iterate 2 next hf => exact reads_whenZero fun hz => reads_ok rfl ((put14_7_iff (by decide)).2 ⟨hw, hM, hf, hz, rfl, rfl⟩)
  · next hf => exact reads_ok rfl ((put14_7_0_iff (by decide)).2 ⟨hw, hM, hf, rfl, rfl, rfl⟩)
  · next hf => exact reads_whenZero fun hz => reads_ok rfl ((put14_7_iff (by decide)).2 ⟨hw, hM, hf, hz, rfl, rfl⟩)
  · exact reads_error

theorem reads_decode07 {w : Nat} (hw : w < 2 ^ 32) (hM : fld w 25 7 = 0x07) : Reads w (decode07 w) := by
  unfold decode07
  split
  iterate 12 next hf => exact reads_whenZero fun hz => reads_ok rfl ((put14_7_iff (by decide)).2 ⟨hw, hM, hf, hz, rfl, rfl⟩)
  · exact reads_error

theorem reads_decode08 {w : Nat} (hw : w < 2 ^ 32) (hM : fld w 25 7 = 0x08) : Reads w (decode08 w) := by
  unfold decode08
  split
  iterate 12 next hf => exact reads_ok rfl ((put14_7_0_iff (by decide)).2 ⟨hw, hM, hf, rfl, rfl, rfl⟩)
  · exact reads_error

theorem reads_decode09 {w : Nat} (hw : w < 2 ^ 32) (hM : fld w 25 7 = 0x09) : Reads w (decode09 w) :=
  reads_whenZero fun hz => reads_ok rfl ((put21_14_7_3_2_iff (by decide)).2 ⟨hw, hM, hz, rfl, rfl, rfl, rfl, rfl⟩)

theorem reads_decode0A {w : Nat} (hw : w < 2 ^ 32) (hM : fld w 25 7 = 0x0A) : Reads w (decode0A w) :=
  reads_ok rfl ((put21_18_14_7_0_iff (by decide)).2 ⟨hw, hM, rfl, rfl, rfl, rfl, rfl⟩)

theorem reads_decode0B {w : Nat} (hw : w < 2 ^ 32) (hM : fld w 25 7 = 0x0B) : Reads w (decode0B w) :=
  reads_ok rfl ((put21_18_14_7_0_iff (by decide)).2 ⟨hw, hM, rfl, rfl, rfl, rfl, rfl⟩)

theorem reads_decode0C {w : Nat} (hw : w < 2 ^ 32) (hM : fld w 25 7 = 0x0C) : Reads w (decode0C w) := by
  unfold decode0C
  split
  · next hf => exact reads_ok rfl ((put22_14_7_0_iff (by decide)).2 ⟨hw, hM, hf, rfl, rfl, rfl, rfl⟩)
  · next hf => exact reads_whenZero fun hz => reads_ok rfl ((put14_bit21_iff (by decide)).2 ⟨hw, hM, hf, hz, rfl⟩)
  · exact reads_error

theorem reads_decode0F {w : Nat} (hw : w < 2 ^ 32) (hM : fld w 25 7 = 0x0F) : Reads w (decode0F w) := by
  unfold decode0F
  split
  iterate 2 next hf => exact reads_ok rfl ((put14_7_0_iff (by decide)).2 ⟨hw, hM, hf, rfl, rfl, rfl⟩)
  · exact reads_error

theorem reads_decode20 {w : Nat} (hw : w < 2 ^ 32) (hM : fld w 25 7 = 0x20) : Reads w (decode20 w) := by
  unfold decode20
  split
  iterate 14 next hf => exact reads_ok rfl ((put14_7_0_iff (by decide)).2 ⟨hw, hM, hf, rfl, rfl, rfl⟩)
  · exact reads_error

theorem reads_decode21 {w : Nat} (hw : w < 2 ^ 32) (hM : fld w 25 7 = 0x21) : Reads w (decode21 w) := by
  unfold decode21
  split
  iterate 14 next hf => exact reads_ok rfl ((put14_7_0_iff (by decide)).2 ⟨hw, hM, hf, rfl, rfl, rfl⟩)
  · exact reads_error

theorem reads_decode22 {w : Nat} (hw : w < 2 ^ 32) (hM : fld w 25 7 = 0x22) : Reads w (decode22 w) := by
  unfold decode22
  split
  iterate 11 next hf => exact reads_ok rfl ((put14_7_0_iff (by decide)).2 ⟨hw, hM, hf, rfl, rfl, rfl⟩)
  iterate 5 next hf => exact reads_whenZero fun hz => reads_ok rfl ((put14_7_iff (by decide)).2 ⟨hw, hM, hf, hz, rfl, rfl⟩)
  · exact reads_error

theorem reads_decode23 {w : Nat} (hw : w < 2 ^ 32) (hM : fld w 25 7 = 0x23) : Reads w (decode23 w) := by
  unfold decode23
  split
  iterate 11 next hf => exact reads_ok rfl ((put14_7_0_iff (by decide)).2 ⟨hw, hM, hf, rfl, rfl, rfl⟩)
  · next hf => exact reads_whenZero fun hz => reads_ok rfl ((put14_0_iff (by decide)).2 ⟨hw, hM, hf, hz, rfl, rfl⟩)
  · exact reads_error

theorem reads_decode24 {w : Nat} (hw : w < 2 ^ 32) (hM : fld w 25 7 = 0x24) : Reads w (decode24 w) := by
  unfold decode24
  split
  iterate 10 next hf => exact reads_ok rfl ((put14_7_0_iff (by decide)).2 ⟨hw, hM, hf, rfl, rfl, rfl⟩)
  · exact reads_error

theorem reads_decode25 {w : Nat} (hw : w < 2 ^ 32) (hM : fld w 25 7 = 0x25) : Reads w (decode25 w) :=
  reads_ok rfl ((put18_0_iff (by decide)).2 ⟨hw, hM, rfl, rfl⟩)

theorem reads_decode26 {w : Nat} (hw : w < 2 ^ 32) (hM : fld w 25 7 = 0x26) : Reads w (decode26 w) := by
  unfold decode26
  split
  iterate 6 next hf => exact reads_ok rfl ((put14_7_0_iff (by decide)).2 ⟨hw, hM, hf, rfl, rfl, rfl⟩)
  iterate 2 next hf => exact reads_whenZero fun hz => reads_ok rfl ((put14_7_iff (by decide)).2 ⟨hw, hM, hf, hz, rfl, rfl⟩)
  · next hf => exact reads_ok rfl ((put14_7_0_iff (by decide)).2 ⟨hw, hM, hf, rfl, rfl, rfl⟩)
  · next hf => exact reads_whenZero fun hz => reads_ok rfl ((put14_7_iff (by decide)).2 ⟨hw, hM, hf, hz, rfl, rfl⟩)
  · exact reads_error

theorem reads_decode27 {w : Nat} (hw : w < 2 ^ 32) (hM : fld w 25 7 = 0x27) : Reads w (decode27 w) := by
  unfold decode27
  split
  iterate 12 next hf => exact reads_whenZero fun hz => reads_ok rfl ((put14_7_iff (by decide)).2 ⟨hw, hM, hf, hz, rfl, rfl⟩)
  · exact reads_error

theorem reads_decode28 {w : Nat} (hw : w < 2 ^ 32) (hM : fld w 25 7 = 0x28) : Reads w (decode28 w) := by
  unfold decode28
  split
  iterate 12 next hf => exact reads_ok rfl ((put14_7_0_iff (by decide)).2 ⟨hw, hM, hf, rfl, rfl, rfl⟩)
  · exact reads_error

theorem reads_decode29 {w : Nat} (hw : w < 2 ^ 32) (hM : fld w 25 7 = 0x29) : Reads w (decode29 w) :=
  reads_whenZero fun hz => reads_ok rfl ((put21_14_7_3_2_iff (by decide)).2 ⟨hw, hM, hz, rfl, rfl, rfl, rfl, rfl⟩)

theorem reads_decode2A {w : Nat} (hw : w < 2 ^ 32) (hM : fld w 25 7 = 0x2A) : Reads w (decode2A w) :=
  reads_ok rfl ((put21_18_14_7_0_iff (by decide)).2 ⟨hw, hM, rfl, rfl, rfl, rfl, rfl⟩)

theorem reads_decode2B {w : Nat} (hw : w < 2 ^ 32) (hM : fld w 25 7 = 0x2B) : Reads w (decode2B w) :=
  reads_ok rfl ((put21_18_14_7_0_iff (by decide)).2 ⟨hw, hM, rfl, rfl, rfl, rfl, rfl⟩)

theorem reads_decode2C {w : Nat} (hw : w < 2 ^ 32) (hM : fld w 25 7 = 0x2C) : Reads w (decode2C w) := by
  unfold decode2C
  split
  · next hf => exact reads_ok rfl ((put22_14_7_0_iff (by decide)).2 ⟨hw, hM, hf, rfl, rfl, rfl, rfl⟩)
  · next hf => exact reads_whenZero fun hz => reads_ok rfl ((put14_bit21_iff (by decide)).2 ⟨hw, hM, hf, hz, rfl⟩)
  · exact reads_error

theorem reads_decode2D {w : Nat} (hw : w < 2 ^ 32) (hM : fld w 25 7 = 0x2D) : Reads w (decode2D w) := by
  unfold decode2D
  split
  iterate 7 next hf => exact reads_whenZero fun hz => reads_ok rfl ((put18_iff (by decide)).2 ⟨hw, hM, hf, hz, rfl⟩)
  iterate 2 next hf => exact reads_whenZero fun hz => reads_ok rfl ((put0_iff (by decide)).2 ⟨hw, hM, hf, hz, rfl⟩)
  · exact reads_error

theorem reads_decode2E {w : Nat} (hw : w < 2 ^ 32) (hM : fld w 25 7 = 0x2E) : Reads w (decode2E w) := by
  unfold decode2E
  split
  iterate 5 next hf => exact reads_ok rfl ((put14_7_0_iff (by decide)).2 ⟨hw, hM, hf, rfl, rfl, rfl⟩)
  · next hf => exact reads_whenZero fun hz => reads_ok rfl ((put14_7_iff (by decide)).2 ⟨hw, hM, hf, hz, rfl, rfl⟩)
  iterate 5 next hf => exact reads_ok rfl ((put14_7_0_iff (by decide)).2 ⟨hw, hM, hf, rfl, rfl, rfl⟩)
  · next hf => exact reads_whenZero fun hz => reads_ok rfl ((put14_7_iff (by decide)).2 ⟨hw, hM, hf, hz, rfl, rfl⟩)
  · next hf => exact reads_ok rfl ((put14_7_0_iff (by decide)).2 ⟨hw, hM, hf, rfl, rfl, rfl⟩)
  · exact reads_error

theorem reads_decode2F {w : Nat} (hw : w < 2 ^ 32) (hM : fld w 25 7 = 0x2F) : Reads w (decode2F w) := by
  unfold decode2F
  split
  iterate 2 next hf => exact reads_ok rfl ((put14_7_0_iff (by decide)).2 ⟨hw, hM, hf, rfl, rfl, rfl⟩)
  · exact reads_error

theorem reads_decode40 {w : Nat} (hw : w < 2 ^ 32) (hM : fld w 25 7 = 0x40) : Reads w (decode40 w) :=
  reads_ok rfl ((put22_15_8_0_iff (by decide)).2 ⟨hw, hM, rfl, rfl, rfl, rfl⟩)

theorem reads_decode41 {w : Nat} (hw : w < 2 ^ 32) (hM : fld w 25 7 = 0x41) : Reads w (decode41 w) :=
  reads_ok rfl ((put22_15_8_0_iff (by decide)).2 ⟨hw, hM, rfl, rfl, rfl, rfl⟩)

theorem reads_decode42 {w : Nat} (hw : w < 2 ^ 32) (hM : fld w 25 7 = 0x42) : Reads w (decode42 w) :=
  reads_ok rfl ((put22_15_8_0_iff (by decide)).2 ⟨hw, hM, rfl, rfl, rfl, rfl⟩)

theorem reads_decode43 {w : Nat} (hw : w < 2 ^ 32) (hM : fld w 25 7 = 0x43) : Reads w (decode43 w) :=
  reads_ok rfl ((put22_15_8_0_iff (by decide)).2 ⟨hw, hM, rfl, rfl, rfl, rfl⟩)

theorem reads_decode44 {w : Nat} (hw : w < 2 ^ 32) (hM : fld w 25 7 = 0x44) : Reads w (decode44 w) :=
  reads_ok rfl ((put22_15_8_0_iff (by decide)).2 ⟨hw, hM, rfl, rfl, rfl, rfl⟩)

theorem reads_decode45 {w : Nat} (hw : w < 2 ^ 32) (hM : fld w 25 7 = 0x45) : Reads w (decode45 w) :=
  reads_ok rfl ((put22_15_8_0_iff (by decide)).2 ⟨hw, hM, rfl, rfl, rfl, rfl⟩)

theorem reads_decode46 {w : Nat} (hw : w < 2 ^ 32) (hM : fld w 25 7 = 0x46) : Reads w (decode46 w) := by
  unfold decode46
  split
  iterate 9 next hf => exact reads_ok rfl ((put14_7_0_iff (by decide)).2 ⟨hw, hM, hf, rfl, rfl, rfl⟩)
  · exact reads_error

theorem reads_decode47 {w : Nat} (hw : w < 2 ^ 32) (hM : fld w 25 7 = 0x47) : Reads w (decode47 w) := by
  unfold decode47
  split
  iterate 9 next hf => exact reads_ok rfl ((put14_7_0_iff (by decide)).2 ⟨hw, hM, hf, rfl, rfl, rfl⟩)
  · exact reads_error

theorem reads_decode48 {w : Nat} (hw : w < 2 ^ 32) (hM : fld w 25 7 = 0x48) : Reads w (decode48 w) := by
  unfold decode48
  split
  iterate 5 next hf => exact reads_ok rfl ((put14_7_0_iff (by decide)).2 ⟨hw, hM, hf, rfl, rfl, rfl⟩)
  · exact reads_error

theorem reads_decode49 {w : Nat} (hw : w < 2 ^ 32) (hM : fld w 25 7 = 0x49) : Reads w (decode49 w) := by
  unfold decode49
  split
  iterate 14 next hf => exact reads_whenZero fun hz => reads_ok rfl ((put7_0_iff (by decide)).2 ⟨hw, hM, hf, hz, rfl, rfl⟩)
  · exact reads_error

theorem reads_decode4A {w : Nat} (hw : w < 2 ^ 32) (hM : fld w 25 7 = 0x4A) : Reads w (decode4A w) := by
  unfold decode4A
  split
  iterate 2 next hf => exact reads_ok rfl ((put14_7_0_iff (by decide)).2 ⟨hw, hM, hf, rfl, rfl, rfl⟩)
  · exact reads_error

theorem reads_decode4B {w : Nat} (hw : w < 2 ^ 32) (hM : fld w 25 7 = 0x4B) : Reads w (decode4B w) := by
  unfold decode4B
  split
  iterate 3 next hf => exact reads_whenZero fun hz => reads_ok rfl ((put22_iff (by decide)).2 ⟨hw, hM, hf, hz, rfl⟩)
  · exact reads_error

theorem reads_decode4C {w : Nat} (hw : w < 2 ^ 32) (hM : fld w 25 7 = 0x4C) : Reads w (decode4C w) :=
  reads_whenZero fun hz => reads_ok rfl ((put21_7_0_iff (by decide)).2 ⟨hw, hM, hz, rfl, rfl, rfl⟩)

theorem reads_decode4D {w : Nat} (hw : w < 2 ^ 32) (hM : fld w 25 7 = 0x4D) : Reads w (decode4D w) := by
  unfold decode4D
  split
  · next hf => exact reads_whenZero fun hz => reads_ok rfl ((put7_iff (by decide)).2 ⟨hw, hM, hf, hz, rfl⟩)
  · next hf => exact reads_whenZero fun hz => reads_ok rfl ((put14_7_iff (by decide)).2 ⟨hw, hM, hf, hz, rfl, rfl⟩)
  · next hf => exact reads_whenZero fun hz => reads_ok rfl ((put7_iff (by decide)).2 ⟨hw, hM, hf, hz, rfl⟩)
  · exact reads_error

theorem reads_decode4E {w : Nat} (hw : w < 2 ^ 32) (hM : fld w 25 7 = 0x4E) : Reads w (decode4E w) := by
  unfold decode4E
  split
  iterate 5 next hf => exact reads_ok rfl ((put14_7_0_iff (by decide)).2 ⟨hw, hM, hf, rfl, rfl, rfl⟩)
  · exact reads_error

theorem reads_decode4F {w : Nat} (hw : w < 2 ^ 32) (hM : fld w 25 7 = 0x4F) : Reads w (decode4F w) := by
  unfold decode4F
  split
  · next hf => exact reads_ok rfl ((put14_7_0_iff (by decide)).2 ⟨hw, hM, hf, rfl, rfl, rfl⟩)
  iterate 2 next hf => exact reads_whenZero fun hz => reads_ok rfl ((put14_7_iff (by decide)).2 ⟨hw, hM, hf, hz, rfl, rfl⟩)
  · exact reads_error

theorem reads_decode50 {w : Nat} (hw : w < 2 ^ 32) (hM : fld w 25 7 = 0x50) : Reads w (decode50 w) := by
  unfold decode50
  split
  · next hf => exact reads_whenZero fun hz => reads_ok rfl ((put14_8_0_iff (by decide)).2 ⟨hw, hM, hf, hz, rfl, rfl, rfl⟩)
  · exact reads_error

theorem reads_decode51 {w : Nat} (hw : w < 2 ^ 32) (hM : fld w 25 7 = 0x51) : Reads w (decode51 w) := by
  unfold decode51
  split
  · next hf => exact reads_whenZero fun hz => reads_ok rfl ((put14_8_iff (by decide)).2 ⟨hw, hM, hf, hz, rfl, rfl⟩)
  · exact reads_error

theorem reads_decode52 {w : Nat} (hw : w < 2 ^ 32) (hM : fld w 25 7 = 0x52) : Reads w (decode52 w) :=
  reads_whenZero fun hz => reads_ok rfl ((put21_14_8_iff (by decide)).2 ⟨hw, hM, hz, rfl, rfl, rfl⟩)

theorem reads_decode53 {w : Nat} (hw : w < 2 ^ 32) (hM : fld w 25 7 = 0x53) : Reads w (decode53 w) := by
  unfold decode53
  split
  · next hf => exact reads_whenZero fun hz => reads_ok rfl ((put14_iff (by decide)).2 ⟨hw, hM, hf, hz, rfl⟩)
  · exact reads_error

theorem reads_decode54 {w : Nat} (hw : w < 2 ^ 32) (hM : fld w 25 7 = 0x54) : Reads w (decode54 w) := by
  unfold decode54
  split
  · next hf => exact reads_whenZero fun hz => reads_ok rfl ((put14_iff (by decide)).2 ⟨hw, hM, hf, hz, rfl⟩)
  · exact reads_error

theorem reads_decode55 {w : Nat} (hw : w < 2 ^ 32) (hM : fld w 25 7 = 0x55) : Reads w (decode55 w) := by
  unfold decode55
  split
  · next hf => exact reads_whenZero fun hz => reads_ok rfl ((put14_iff (by decide)).2 ⟨hw, hM, hf, hz, rfl⟩)
  · exact reads_error

theorem reads_decode56 {w : Nat} (hw : w < 2 ^ 32) (hM : fld w 25 7 = 0x56) : Reads w (decode56 w) := by
  unfold decode56
  split
  iterate 2 next hf => exact reads_whenZero fun hz => reads_ok rfl ((put14_8_iff (by decide)).2 ⟨hw, hM, hf, hz, rfl, rfl⟩)
  · exact reads_error

theorem reads_decode57 {w : Nat} (hw : w < 2 ^ 32) (hM : fld w 25 7 = 0x57) : Reads w (decode57 w) := by
  unfold decode57
  split
  · next hf => exact reads_whenZero fun hz => reads_ok rfl ((put14_8_iff (by decide)).2 ⟨hw, hM, hf, hz, rfl, rfl⟩)
  · exact reads_error

theorem reads_decode58 {w : Nat} (hw : w < 2 ^ 32) (hM : fld w 25 7 = 0x58) : Reads w (decode58 w) := by
  unfold decode58
  split
  · next hf => exact reads_whenZero fun hz => reads_ok rfl ((put14_8_iff (by decide)).2 ⟨hw, hM, hf, hz, rfl, rfl⟩)
  · exact reads_error

theorem reads_decode59 {w : Nat} (hw : w < 2 ^ 32) (hM : fld w 25 7 = 0x59) : Reads w (decode59 w) := by
  unfold decode59
  split
  · next hf => exact reads_whenZero fun hz => reads_ok rfl ((put14_iff (by decide)).2 ⟨hw, hM, hf, hz, rfl⟩)
  · next hf => exact reads_whenZero fun hz => reads_ok rfl ((put14_0_iff (by decide)).2 ⟨hw, hM, hf, hz, rfl, rfl⟩)
  · exact reads_error

theorem reads_decode5A {w : Nat} (hw : w < 2 ^ 32) (hM : fld w 25 7 = 0x5A) : Reads w (decode5A w) := by
  unfold decode5A
  split
  · next hf => exact reads_whenZero fun hz => reads_ok rfl ((put14_0_six_iff (by decide)).2 ⟨hw, hM, hf, hz, rfl, rfl⟩)
  · exact reads_error

theorem reads_decode5B {w : Nat} (hw : w < 2 ^ 32) (hM : fld w 25 7 = 0x5B) : Reads w (decode5B w) := by
  unfold decode5B
  split
  · next hf => exact reads_whenZero fun hz => reads_ok rfl ((put14_8_iff (by decide)).2 ⟨hw, hM, hf, hz, rfl, rfl⟩)
  · exact reads_error

theorem reads_decode5C {w : Nat} (hw : w < 2 ^ 32) (hM : fld w 25 7 = 0x5C) : Reads w (decode5C w) := by
  unfold decode5C
  split
  · next hf => exact reads_whenZero fun hz => reads_ok rfl ((put14_0_three_iff (by decide)).2 ⟨hw, hM, hf, hz, rfl, rfl⟩)
  · exact reads_error

theorem reads_decode5D {w : Nat} (hw : w < 2 ^ 32) (hM : fld w 25 7 = 0x5D) : Reads w (decode5D w) := by
  unfold decode5D
  split
  · next hf => exact reads_whenZero fun hz => reads_ok rfl ((put14_iff (by decide)).2 ⟨hw, hM, hf, hz, rfl⟩)
  · exact reads_error

theorem reads_decode5E {w : Nat} (hw : w < 2 ^ 32) (hM : fld w 25 7 = 0x5E) : Reads w (decode5E w) := by
  unfold decode5E
  split
  · next hf => exact reads_whenZero fun hz => reads_ok rfl ((put14_iff (by decide)).2 ⟨hw, hM, hf, hz, rfl⟩)
  · exact reads_error

theorem reads_decode5F {w : Nat} (hw : w < 2 ^ 32) (hM : fld w 25 7 = 0x5F) : Reads w (decode5F w) := by
  unfold decode5F
  split
  · next hf => exact reads_whenZero fun hz => reads_ok rfl ((put14_iff (by decide)).2 ⟨hw, hM, hf, hz, rfl⟩)
  · exact reads_error

theorem reads_decode60 {w : Nat} (hw : w < 2 ^ 32) (hM : fld w 25 7 = 0x60) : Reads w (decode60 w) :=
  reads_ok rfl ((put22_19_0_iff (by decide)).2 ⟨hw, hM, rfl, rfl, rfl⟩)

theorem reads_decode61 {w : Nat} (hw : w < 2 ^ 32) (hM : fld w 25 7 = 0x61) : Reads w (decode61 w) :=
  reads_ok rfl ((put19_0_iff (by decide)).2 ⟨hw, hM, rfl, rfl⟩)

theorem reads_decode62 {w : Nat} (hw : w < 2 ^ 32) (hM : fld w 25 7 = 0x62) : Reads w (decode62 w) := by
  unfold decode62
  split
  · next hf => exact reads_whenZero fun hz => reads_ok rfl ((put7_iff (by decide)).2 ⟨hw, hM, hf, hz, rfl⟩)
  · next hf => exact reads_whenZero fun hz => reads_ok rfl ((put14_7_iff (by decide)).2 ⟨hw, hM, hf, hz, rfl, rfl⟩)
  · next hf => exact reads_whenZero fun hz => reads_ok rfl ((put7_iff (by decide)).2 ⟨hw, hM, hf, hz, rfl⟩)
  · exact reads_error

theorem reads_decode63 {w : Nat} (hw : w < 2 ^ 32) (hM : fld w 25 7 = 0x63) : Reads w (decode63 w) :=
  reads_whenZero fun hz => reads_ok rfl ((put19_13_7_1_iff (by decide)).2 ⟨hw, hM, hz, rfl, rfl, rfl, rfl⟩)

theorem reads_decode64 {w : Nat} (hw : w < 2 ^ 32) (hM : fld w 25 7 = 0x64) : Reads w (decode64 w) := by
  unfold decode64
  split
  iterate 2 next hf => exact reads_whenZero fun hz => reads_ok rfl ((put7_iff (by decide)).2 ⟨hw, hM, hf, hz, rfl⟩)
  · next hf => exact reads_whenZero fun hz => reads_ok rfl ((put14_7_iff (by decide)).2 ⟨hw, hM, hf, hz, rfl, rfl⟩)
  · next hf => exact reads_whenZero fun hz => reads_ok rfl ((put7_iff (by decide)).2 ⟨hw, hM, hf, hz, rfl⟩)
  · exact reads_error

theorem reads_decode65 {w : Nat} (hw : w < 2 ^ 32) (hM : fld w 25 7 = 0x65) : Reads w (decode65 w) := by
  unfold decode65
  split
  iterate 3 next hf => exact reads_whenZero fun hz => reads_ok rfl ((put18_14_iff (by decide)).2 ⟨hw, hM, hf, hz, rfl, rfl⟩)
  · exact reads_error

theorem reads_decode66 {w : Nat} (hw : w < 2 ^ 32) (hM : fld w 25 7 = 0x66) : Reads w (decode66 w) := by
  unfold decode66
  split
  iterate 3 next hf => exact reads_whenZero fun hz => reads_ok rfl ((word_iff (by decide)).2 ⟨hw, hM, hf, hz⟩)
  · next hf => exact reads_whenZero fun hz => reads_ok rfl ((put0_iff (by decide)).2 ⟨hw, hM, hf, hz, rfl⟩)
  · exact reads_error

theorem reads_decode67 {w : Nat} (hw : w < 2 ^ 32) (hM : fld w 25 7 = 0x67) : Reads w (decode67 w) :=
  reads_whenZero fun hz => reads_ok rfl ((put0_three_iff (by decide)).2 ⟨hw, hM, hz, rfl⟩)

theorem reads_decode68 {w : Nat} (hw : w < 2 ^ 32) (hM : fld w 25 7 = 0x68) : Reads w (decode68 w) := by
  unfold decode68
  split
  · next hf => exact reads_whenZero fun hz => reads_ok rfl ((put14_7_iff (by decide)).2 ⟨hw, hM, hf, hz, rfl, rfl⟩)
  · exact reads_error

theorem reads_decode69 {w : Nat} (hw : w < 2 ^ 32) (hM : fld w 25 7 = 0x69) : Reads w (decode69 w) := by
  unfold decode69
  split
  · next hf => exact reads_whenZero fun hz => reads_ok rfl ((put7_0_iff (by decide)).2 ⟨hw, hM, hf, hz, rfl, rfl⟩)
  · exact reads_error

theorem reads_decode6A {w : Nat} (hw : w < 2 ^ 32) (hM : fld w 25 7 = 0x6A) : Reads w (decode6A w) := by
  unfold decode6A
  split
  iterate 2 next hf => exact reads_whenZero fun hz => reads_ok rfl ((put7_0_iff (by decide)).2 ⟨hw, hM, hf, hz, rfl, rfl⟩)
  · exact reads_error

theorem reads_decode6B {w : Nat} (hw : w < 2 ^ 32) (hM : fld w 25 7 = 0x6B) : Reads w (decode6B w) := by
  unfold decode6B
  split
  · next hf => exact reads_whenZero fun hz => reads_ok rfl ((put14_7_iff (by decide)).2 ⟨hw, hM, hf, hz, rfl, rfl⟩)
  · exact reads_error

theorem reads_decode7E {w : Nat} (hw : w < 2 ^ 32) (hM : fld w 25 7 = 0x7E) : Reads w (decode7E w) :=
  reads_ok rfl ((put0_twentyFive_iff (by decide)).2 ⟨hw, hM, rfl⟩)

theorem reads_decode7F {w : Nat} (hw : w < 2 ^ 32) (hM : fld w 25 7 = 0x7F) : Reads w (decode7F w) := by
  unfold decode7F
  split
  next hf =>
    split
    · next hk => exact reads_whenZero fun hz => reads_ok rfl (put18_15_iff.2 ⟨hw, hM, hf, hz, hk, rfl, rfl⟩)
    · next hk => exact reads_whenZero fun hz => reads_ok rfl (put18_15_not_iff.2 ⟨hw, hM, hf, hz, hk, rfl, rfl⟩)
  · next hf => exact reads_whenZero fun hz => reads_ok rfl ((put14_iff (by decide)).2 ⟨hw, hM, hf, hz, rfl⟩)
  · next hf => exact reads_whenZero fun hz => reads_ok rfl ((put14_0_two_iff (by decide)).2 ⟨hw, hM, hf, hz, rfl, rfl⟩)
  · next hf => exact reads_whenZero fun hz => reads_ok rfl ((put14_7_0_two_iff (by decide)).2 ⟨hw, hM, hf, hz, rfl, rfl, rfl⟩)
  · next hf => exact reads_whenZero fun hz => reads_ok rfl ((put19_iff (by decide)).2 ⟨hw, hM, hf, hz, rfl⟩)
  · next hf => exact reads_whenZero fun hz => reads_ok rfl ((put18_iff (by decide)).2 ⟨hw, hM, hf, hz, rfl⟩)
  · next hf => exact reads_whenZero fun hz => reads_ok rfl ((put16_iff (by decide)).2 ⟨hw, hM, hf, hz, rfl⟩)
  · next hf => exact reads_whenZero fun hz => reads_ok rfl ((put18_iff (by decide)).2 ⟨hw, hM, hf, hz, rfl⟩)
  · exact reads_error

theorem reads_decodeWord {w : Nat} (hw : w < 2 ^ 32) : Reads w (decodeWord w) := by
  unfold decodeWord
  split
  · exact reads_decode00 hw ‹_›
  · exact reads_decode01 hw ‹_›
  · exact reads_decode02 hw ‹_›
  · exact reads_decode03 hw ‹_›
  · exact reads_decode04 hw ‹_›
  · exact reads_decode05 hw ‹_›
  · exact reads_decode06 hw ‹_›
  · exact reads_decode07 hw ‹_›
  · exact reads_decode08 hw ‹_›
  · exact reads_decode09 hw ‹_›
  · exact reads_decode0A hw ‹_›
  · exact reads_decode0B hw ‹_›
  · exact reads_decode0C hw ‹_›
  · exact reads_decode0F hw ‹_›
  · exact reads_decode20 hw ‹_›
  · exact reads_decode21 hw ‹_›
  · exact reads_decode22 hw ‹_›
  · exact reads_decode23 hw ‹_›
  · exact reads_decode24 hw ‹_›
  · exact reads_decode25 hw ‹_›
  · exact reads_decode26 hw ‹_›
  · exact reads_decode27 hw ‹_›
  · exact reads_decode28 hw ‹_›
  · exact reads_decode29 hw ‹_›
  · exact reads_decode2A hw ‹_›
  · exact reads_decode2B hw ‹_›
  · exact reads_decode2C hw ‹_›
  · exact reads_decode2D hw ‹_›
  · exact reads_decode2E hw ‹_›
  · exact reads_decode2F hw ‹_›
  · exact reads_decode40 hw ‹_›
  · exact reads_decode41 hw ‹_›
  · exact reads_decode42 hw ‹_›
  · exact reads_decode43 hw ‹_›
  · exact reads_decode44 hw ‹_›
  · exact reads_decode45 hw ‹_›
  · exact reads_decode46 hw ‹_›
  · exact reads_decode47 hw ‹_›
  · exact reads_decode48 hw ‹_›
  · exact reads_decode49 hw ‹_›
  · exact reads_decode4A hw ‹_›
  · exact reads_decode4B hw ‹_›
  · exact reads_decode4C hw ‹_›
  · exact reads_decode4D hw ‹_›
  · exact reads_decode4E hw ‹_›
  · exact reads_decode4F hw ‹_›
  · exact reads_decode50 hw ‹_›
  · exact reads_decode51 hw ‹_›
  · exact reads_decode52 hw ‹_›
  · exact reads_decode53 hw ‹_›
  · exact reads_decode54 hw ‹_›
  · exact reads_decode55 hw ‹_›
  · exact reads_decode56 hw ‹_›
  · exact reads_decode57 hw ‹_›
  · exact reads_decode58 hw ‹_›
  · exact reads_decode59 hw ‹_›
  · exact reads_decode5A hw ‹_›
  · exact reads_decode5B hw ‹_›
  · exact reads_decode5C hw ‹_›
  · exact reads_decode5D hw ‹_›
  · exact reads_decode5E hw ‹_›
  · exact reads_decode5F hw ‹_›
  · exact reads_decode60 hw ‹_›
  · exact reads_decode61 hw ‹_›
  · exact reads_decode62 hw ‹_›
  · exact reads_decode63 hw ‹_›
  · exact reads_decode64 hw ‹_›
  · exact reads_decode65 hw ‹_›
  · exact reads_decode66 hw ‹_›
  · exact reads_decode67 hw ‹_›
  · exact reads_decode68 hw ‹_›
  · exact reads_decode69 hw ‹_›
  · exact reads_decode6A hw ‹_›
  · exact reads_decode6B hw ‹_›
  · exact reads_decode7E hw ‹_›
  · exact reads_decode7F hw ‹_›
  · exact reads_error

/-! ### A well-formed instruction is read back from its word -/
theorem decodeWord_encode {i : Instr} {w : Nat} (hi : i.wf = true) (he : encode i = some w) :
    w < 2 ^ 32 ∧ decodeWord w = .ok i := by
  cases i with
  | sAdd | sSub | sMullo | sMulhiS | sMulhiZ | sMad | sMinS | sMaxS | sMinZ | sMaxZ | sAbsdiff | sAddsatS | sSubsatS | sAvgZ =>
    obtain ⟨hw, hM, hf, rfl, rfl, rfl⟩ := (put14_7_0_iff (by decide)).1 ⟨hi, Option.some.inj he⟩
    exact ⟨hw, by rw [decodeWord, hM]; show decode00 w = _; rw [decode00, hf]; rfl⟩
  | sAddImm | sSubImm | sMulloImm | sMulhiSImm | sMulhiZImm | sMadImm | sMinSImm | sMaxSImm | sMinZImm | sMaxZImm | sAbsdiffImm |
    sAddsatSImm | sSubsatSImm | sAvgZImm =>
    obtain ⟨hw, hM, hf, rfl, rfl, rfl⟩ := (put14_7_0_iff (by decide)).1 ⟨hi, Option.some.inj he⟩
    exact ⟨hw, by rw [decodeWord, hM]; show decode01 w = _; rw [decode01, hf]; rfl⟩
  | sAnd | sOr | sXor | sAndn | sOrn | sXnor | sShl | sShr | sSar | sRotl | sRotr =>
    obtain ⟨hw, hM, hf, rfl, rfl, rfl⟩ := (put14_7_0_iff (by decide)).1 ⟨hi, Option.some.inj he⟩
    exact ⟨hw, by rw [decodeWord, hM]; show decode02 w = _; rw [decode02, hf]; rfl⟩
  | sClz | sPopc | sBrev | sMov | sNot =>
    obtain ⟨hw, hM, hf, hz, rfl, rfl⟩ := (put14_7_iff (by decide)).1 ⟨hi, Option.some.inj he⟩
    exact ⟨hw, by rw [decodeWord, hM]; show decode02 w = _; rw [decode02, hf, hz]; rfl⟩
  | sAndImm | sOrImm | sXorImm | sAndnImm | sOrnImm | sXnorImm | sShlImm | sShrImm | sSarImm | sRotlImm | sRotrImm =>
    obtain ⟨hw, hM, hf, rfl, rfl, rfl⟩ := (put14_7_0_iff (by decide)).1 ⟨hi, Option.some.inj he⟩
    exact ⟨hw, by rw [decodeWord, hM]; show decode03 w = _; rw [decode03, hf]; rfl⟩
  | sMovImm =>
    obtain ⟨hw, hM, hf, hz, rfl, rfl⟩ := (put14_0_iff (by decide)).1 ⟨hi, Option.some.inj he⟩
    exact ⟨hw, by rw [decodeWord, hM]; show decode03 w = _; rw [decode03, hf, hz]; rfl⟩
  | sBfeS | sBfeZ | sBfi | sPrmt | sAdd64 | sSub64 | sShl64 | sShr64 | sSar64 | sMul64lo =>
    obtain ⟨hw, hM, hf, rfl, rfl, rfl⟩ := (put14_7_0_iff (by decide)).1 ⟨hi, Option.some.inj he⟩
    exact ⟨hw, by rw [decodeWord, hM]; show decode04 w = _; rw [decode04, hf]; rfl⟩
  | sMovi =>
    obtain ⟨hw, hM, rfl, rfl⟩ := (put18_0_iff (by decide)).1 ⟨hi, Option.some.inj he⟩
    exact ⟨hw, by rw [decodeWord, hM]; rfl⟩
  | sFadd | sFsub | sFmul | sFfma | sFmin | sFmax | sFcopysign =>
    obtain ⟨hw, hM, hf, rfl, rfl, rfl⟩ := (put14_7_0_iff (by decide)).1 ⟨hi, Option.some.inj he⟩
    exact ⟨hw, by rw [decodeWord, hM]; show decode06 w = _; rw [decode06, hf]; rfl⟩
  | sFabs | sFneg | sFclass =>
    obtain ⟨hw, hM, hf, hz, rfl, rfl⟩ := (put14_7_iff (by decide)).1 ⟨hi, Option.some.inj he⟩
    exact ⟨hw, by rw [decodeWord, hM]; show decode06 w = _; rw [decode06, hf, hz]; rfl⟩
  | sFrcp | sFrsq | sFsqrt | sFexp2 | sFlog2 | sFsinpi | sFcospi | sFtanh | sFrintNe | sFrintZ | sFrintDn | sFrintUp =>
    obtain ⟨hw, hM, hf, hz, rfl, rfl⟩ := (put14_7_iff (by decide)).1 ⟨hi, Option.some.inj he⟩
    exact ⟨hw, by rw [decodeWord, hM]; show decode07 w = _; rw [decode07, hf, hz]; rfl⟩
  | sFaddF16x2 | sFsubF16x2 | sFmulF16x2 | sFfmaF16x2 | sFminF16x2 | sFmaxF16x2 | sFaddBf16x2 | sFsubBf16x2 | sFmulBf16x2 |
    sFfmaBf16x2 | sFminBf16x2 | sFmaxBf16x2 =>
    obtain ⟨hw, hM, hf, rfl, rfl, rfl⟩ := (put14_7_0_iff (by decide)).1 ⟨hi, Option.some.inj he⟩
    exact ⟨hw, by rw [decodeWord, hM]; show decode08 w = _; rw [decode08, hf]; rfl⟩
  | sCvt =>
    obtain ⟨hw, hM, hz, rfl, rfl, rfl, rfl, rfl⟩ := (put21_14_7_3_2_iff (by decide)).1 ⟨hi, Option.some.inj he⟩
    exact ⟨hw, by rw [decodeWord, hM]; show decode09 w = _; rw [decode09, hz]; rfl⟩
  | sCmp =>
    obtain ⟨hw, hM, rfl, rfl, rfl, rfl, rfl⟩ := (put21_18_14_7_0_iff (by decide)).1 ⟨hi, Option.some.inj he⟩
    exact ⟨hw, by rw [decodeWord, hM]; rfl⟩
  | sFcmp =>
    obtain ⟨hw, hM, rfl, rfl, rfl, rfl, rfl⟩ := (put21_18_14_7_0_iff (by decide)).1 ⟨hi, Option.some.inj he⟩
    exact ⟨hw, by rw [decodeWord, hM]; rfl⟩
  | sSel =>
    obtain ⟨hw, hM, hf, rfl, rfl, rfl, rfl⟩ := (put22_14_7_0_iff (by decide)).1 ⟨hi, Option.some.inj he⟩
    exact ⟨hw, by rw [decodeWord, hM]; show decode0C w = _; rw [decode0C, hf]; rfl⟩
  | sPget =>
    obtain ⟨hw, hM, hf, hz, rfl⟩ := (put14_bit21_iff (by decide)).1 ⟨hi, Option.some.inj he⟩
    exact ⟨hw, by rw [decodeWord, hM]; show decode0C w = _; rw [decode0C, hf, hz]; rfl⟩
  | sMovx | sMovxw =>
    obtain ⟨hw, hM, hf, rfl, rfl, rfl⟩ := (put14_7_0_iff (by decide)).1 ⟨hi, Option.some.inj he⟩
    exact ⟨hw, by rw [decodeWord, hM]; show decode0F w = _; rw [decode0F, hf]; rfl⟩
  | vAdd | vSub | vMullo | vMulhiS | vMulhiZ | vMad | vMinS | vMaxS | vMinZ | vMaxZ | vAbsdiff | vAddsatS | vSubsatS | vAvgZ =>
    obtain ⟨hw, hM, hf, rfl, rfl, rfl⟩ := (put14_7_0_iff (by decide)).1 ⟨hi, Option.some.inj he⟩
    exact ⟨hw, by rw [decodeWord, hM]; show decode20 w = _; rw [decode20, hf]; rfl⟩
  | vAddImm | vSubImm | vMulloImm | vMulhiSImm | vMulhiZImm | vMadImm | vMinSImm | vMaxSImm | vMinZImm | vMaxZImm | vAbsdiffImm |
    vAddsatSImm | vSubsatSImm | vAvgZImm =>
    obtain ⟨hw, hM, hf, rfl, rfl, rfl⟩ := (put14_7_0_iff (by decide)).1 ⟨hi, Option.some.inj he⟩
    exact ⟨hw, by rw [decodeWord, hM]; show decode21 w = _; rw [decode21, hf]; rfl⟩
  | vAnd | vOr | vXor | vAndn | vOrn | vXnor | vShl | vShr | vSar | vRotl | vRotr =>
    obtain ⟨hw, hM, hf, rfl, rfl, rfl⟩ := (put14_7_0_iff (by decide)).1 ⟨hi, Option.some.inj he⟩
    exact ⟨hw, by rw [decodeWord, hM]; show decode22 w = _; rw [decode22, hf]; rfl⟩
  | vClz | vPopc | vBrev | vMov | vNot =>
    obtain ⟨hw, hM, hf, hz, rfl, rfl⟩ := (put14_7_iff (by decide)).1 ⟨hi, Option.some.inj he⟩
    exact ⟨hw, by rw [decodeWord, hM]; show decode22 w = _; rw [decode22, hf, hz]; rfl⟩
  | vAndImm | vOrImm | vXorImm | vAndnImm | vOrnImm | vXnorImm | vShlImm | vShrImm | vSarImm | vRotlImm | vRotrImm =>
    obtain ⟨hw, hM, hf, rfl, rfl, rfl⟩ := (put14_7_0_iff (by decide)).1 ⟨hi, Option.some.inj he⟩
    exact ⟨hw, by rw [decodeWord, hM]; show decode23 w = _; rw [decode23, hf]; rfl⟩
  | vMovImm =>
    obtain ⟨hw, hM, hf, hz, rfl, rfl⟩ := (put14_0_iff (by decide)).1 ⟨hi, Option.some.inj he⟩
    exact ⟨hw, by rw [decodeWord, hM]; show decode23 w = _; rw [decode23, hf, hz]; rfl⟩
  | vBfeS | vBfeZ | vBfi | vPrmt | vAdd64 | vSub64 | vShl64 | vShr64 | vSar64 | vMul64lo =>
    obtain ⟨hw, hM, hf, rfl, rfl, rfl⟩ := (put14_7_0_iff (by decide)).1 ⟨hi, Option.some.inj he⟩
    exact ⟨hw, by rw [decodeWord, hM]; show decode24 w = _; rw [decode24, hf]; rfl⟩
  | vMovi =>
    obtain ⟨hw, hM, rfl, rfl⟩ := (put18_0_iff (by decide)).1 ⟨hi, Option.some.inj he⟩
    exact ⟨hw, by rw [decodeWord, hM]; rfl⟩
  | vFadd | vFsub | vFmul | vFfma | vFmin | vFmax | vFcopysign =>
    obtain ⟨hw, hM, hf, rfl, rfl, rfl⟩ := (put14_7_0_iff (by decide)).1 ⟨hi, Option.some.inj he⟩
    exact ⟨hw, by rw [decodeWord, hM]; show decode26 w = _; rw [decode26, hf]; rfl⟩
  | vFabs | vFneg | vFclass =>
    obtain ⟨hw, hM, hf, hz, rfl, rfl⟩ := (put14_7_iff (by decide)).1 ⟨hi, Option.some.inj he⟩
    exact ⟨hw, by rw [decodeWord, hM]; show decode26 w = _; rw [decode26, hf, hz]; rfl⟩
  | vFrcp | vFrsq | vFsqrt | vFexp2 | vFlog2 | vFsinpi | vFcospi | vFtanh | vFrintNe | vFrintZ | vFrintDn | vFrintUp =>
    obtain ⟨hw, hM, hf, hz, rfl, rfl⟩ := (put14_7_iff (by decide)).1 ⟨hi, Option.some.inj he⟩
    exact ⟨hw, by rw [decodeWord, hM]; show decode27 w = _; rw [decode27, hf, hz]; rfl⟩
  | vFaddF16x2 | vFsubF16x2 | vFmulF16x2 | vFfmaF16x2 | vFminF16x2 | vFmaxF16x2 | vFaddBf16x2 | vFsubBf16x2 | vFmulBf16x2 |
    vFfmaBf16x2 | vFminBf16x2 | vFmaxBf16x2 =>
    obtain ⟨hw, hM, hf, rfl, rfl, rfl⟩ := (put14_7_0_iff (by decide)).1 ⟨hi, Option.some.inj he⟩
    exact ⟨hw, by rw [decodeWord, hM]; show decode28 w = _; rw [decode28, hf]; rfl⟩
  | vCvt =>
    obtain ⟨hw, hM, hz, rfl, rfl, rfl, rfl, rfl⟩ := (put21_14_7_3_2_iff (by decide)).1 ⟨hi, Option.some.inj he⟩
    exact ⟨hw, by rw [decodeWord, hM]; show decode29 w = _; rw [decode29, hz]; rfl⟩
  | vCmp =>
    obtain ⟨hw, hM, rfl, rfl, rfl, rfl, rfl⟩ := (put21_18_14_7_0_iff (by decide)).1 ⟨hi, Option.some.inj he⟩
    exact ⟨hw, by rw [decodeWord, hM]; rfl⟩
  | vFcmp =>
    obtain ⟨hw, hM, rfl, rfl, rfl, rfl, rfl⟩ := (put21_18_14_7_0_iff (by decide)).1 ⟨hi, Option.some.inj he⟩
    exact ⟨hw, by rw [decodeWord, hM]; rfl⟩
  | vSel =>
    obtain ⟨hw, hM, hf, rfl, rfl, rfl, rfl⟩ := (put22_14_7_0_iff (by decide)).1 ⟨hi, Option.some.inj he⟩
    exact ⟨hw, by rw [decodeWord, hM]; show decode2C w = _; rw [decode2C, hf]; rfl⟩
  | vPget =>
    obtain ⟨hw, hM, hf, hz, rfl⟩ := (put14_bit21_iff (by decide)).1 ⟨hi, Option.some.inj he⟩
    exact ⟨hw, by rw [decodeWord, hM]; show decode2C w = _; rw [decode2C, hf, hz]; rfl⟩
  | vPpop | vPdup | vPand | vPor | vPxor | vPnot | vPswap =>
    obtain ⟨hw, hM, hf, hz, rfl⟩ := (put18_iff (by decide)).1 ⟨hi, Option.some.inj he⟩
    exact ⟨hw, by rw [decodeWord, hM]; show decode2D w = _; rw [decode2D, hf, hz]; rfl⟩
  | vPpush | vPset =>
    obtain ⟨hw, hM, hf, hz, rfl⟩ := (put0_iff (by decide)).1 ⟨hi, Option.some.inj he⟩
    exact ⟨hw, by rw [decodeWord, hM]; show decode2D w = _; rw [decode2D, hf, hz]; rfl⟩
  | vShflIdx | vShflUp | vShflDown | vShflXor | vBcast | vReduxAdd | vReduxMin | vReduxMax | vScanIncl | vScanExcl | vIsect =>
    obtain ⟨hw, hM, hf, rfl, rfl, rfl⟩ := (put14_7_0_iff (by decide)).1 ⟨hi, Option.some.inj he⟩
    exact ⟨hw, by rw [decodeWord, hM]; show decode2E w = _; rw [decode2E, hf]; rfl⟩
  | vVoteBallot | vMatch =>
    obtain ⟨hw, hM, hf, hz, rfl, rfl⟩ := (put14_7_iff (by decide)).1 ⟨hi, Option.some.inj he⟩
    exact ⟨hw, by rw [decodeWord, hM]; show decode2E w = _; rw [decode2E, hf, hz]; rfl⟩
  | vMovx | vMovxw =>
    obtain ⟨hw, hM, hf, rfl, rfl, rfl⟩ := (put14_7_0_iff (by decide)).1 ⟨hi, Option.some.inj he⟩
    exact ⟨hw, by rw [decodeWord, hM]; show decode2F w = _; rw [decode2F, hf]; rfl⟩
  | mLd =>
    obtain ⟨hw, hM, rfl, rfl, rfl, rfl⟩ := (put22_15_8_0_iff (by decide)).1 ⟨hi, Option.some.inj he⟩
    exact ⟨hw, by rw [decodeWord, hM]; rfl⟩
  | mLdPr =>
    obtain ⟨hw, hM, rfl, rfl, rfl, rfl⟩ := (put22_15_8_0_iff (by decide)).1 ⟨hi, Option.some.inj he⟩
    exact ⟨hw, by rw [decodeWord, hM]; rfl⟩
  | mLdAcq =>
    obtain ⟨hw, hM, rfl, rfl, rfl, rfl⟩ := (put22_15_8_0_iff (by decide)).1 ⟨hi, Option.some.inj he⟩
    exact ⟨hw, by rw [decodeWord, hM]; rfl⟩
  | mLdu =>
    obtain ⟨hw, hM, rfl, rfl, rfl, rfl⟩ := (put22_15_8_0_iff (by decide)).1 ⟨hi, Option.some.inj he⟩
    exact ⟨hw, by rw [decodeWord, hM]; rfl⟩
  | mSt =>
    obtain ⟨hw, hM, rfl, rfl, rfl, rfl⟩ := (put22_15_8_0_iff (by decide)).1 ⟨hi, Option.some.inj he⟩
    exact ⟨hw, by rw [decodeWord, hM]; rfl⟩
  | mStRel =>
    obtain ⟨hw, hM, rfl, rfl, rfl, rfl⟩ := (put22_15_8_0_iff (by decide)).1 ⟨hi, Option.some.inj he⟩
    exact ⟨hw, by rw [decodeWord, hM]; rfl⟩
  | mAtomAddS32 | mAtomAndB32 | mAtomOrB32 | mAtomXorB32 | mAtomMinS32 | mAtomMaxS32 | mAtomMinZ32 | mAtomMaxZ32 | mAtomExchB32 =>
    obtain ⟨hw, hM, hf, rfl, rfl, rfl⟩ := (put14_7_0_iff (by decide)).1 ⟨hi, Option.some.inj he⟩
    exact ⟨hw, by rw [decodeWord, hM]; show decode46 w = _; rw [decode46, hf]; rfl⟩
  | mAtomAddS64 | mAtomAndB64 | mAtomOrB64 | mAtomXorB64 | mAtomMinS64 | mAtomMaxS64 | mAtomMinZ64 | mAtomMaxZ64 | mAtomExchB64 =>
    obtain ⟨hw, hM, hf, rfl, rfl, rfl⟩ := (put14_7_0_iff (by decide)).1 ⟨hi, Option.some.inj he⟩
    exact ⟨hw, by rw [decodeWord, hM]; show decode47 w = _; rw [decode47, hf]; rfl⟩
  | mAtomAddF32 | mAtomMinF32 | mAtomMaxF32 | mAtomAddF16x2 | mAtomAddBf16x2 =>
    obtain ⟨hw, hM, hf, rfl, rfl, rfl⟩ := (put14_7_0_iff (by decide)).1 ⟨hi, Option.some.inj he⟩
    exact ⟨hw, by rw [decodeWord, hM]; show decode48 w = _; rw [decode48, hf]; rfl⟩
  | mRedAddS32 | mRedAddS64 | mRedAddF32 | mRedMinS32 | mRedMaxS32 | mRedMinZ32 | mRedMaxZ32 | mRedAndB32 | mRedOrB32 | mRedXorB32
    | mRedMinF32 | mRedMaxF32 | mRedAddF16x2 | mRedAddBf16x2 =>
    obtain ⟨hw, hM, hf, hz, rfl, rfl⟩ := (put7_0_iff (by decide)).1 ⟨hi, Option.some.inj he⟩
    exact ⟨hw, by rw [decodeWord, hM]; show decode49 w = _; rw [decode49, hf, hz]; rfl⟩
  | mCasB32 | mCasB64 =>
    obtain ⟨hw, hM, hf, rfl, rfl, rfl⟩ := (put14_7_0_iff (by decide)).1 ⟨hi, Option.some.inj he⟩
    exact ⟨hw, by rw [decodeWord, hM]; show decode4A w = _; rw [decode4A, hf]; rfl⟩
  | mFenceAcq | mFenceRel | mFenceFull =>
    obtain ⟨hw, hM, hf, hz, rfl⟩ := (put22_iff (by decide)).1 ⟨hi, Option.some.inj he⟩
    exact ⟨hw, by rw [decodeWord, hM]; show decode4B w = _; rw [decode4B, hf, hz]; rfl⟩
  | mMwait =>
    obtain ⟨hw, hM, hz, rfl, rfl, rfl⟩ := (put21_7_0_iff (by decide)).1 ⟨hi, Option.some.inj he⟩
    exact ⟨hw, by rw [decodeWord, hM]; show decode4C w = _; rw [decode4C, hz]; rfl⟩
  | mPgreq | mPref =>
    obtain ⟨hw, hM, hf, hz, rfl⟩ := (put7_iff (by decide)).1 ⟨hi, Option.some.inj he⟩
    exact ⟨hw, by rw [decodeWord, hM]; show decode4D w = _; rw [decode4D, hf, hz]; rfl⟩
  | mPgprobe =>
    obtain ⟨hw, hM, hf, hz, rfl, rfl⟩ := (put14_7_iff (by decide)).1 ⟨hi, Option.some.inj he⟩
    exact ⟨hw, by rw [decodeWord, hM]; show decode4D w = _; rw [decode4D, hf, hz]; rfl⟩
  | mTexSample | mTexSampleLod | mTexSampleGrad | mTexFetch | mTexGath4 =>
    obtain ⟨hw, hM, hf, rfl, rfl, rfl⟩ := (put14_7_0_iff (by decide)).1 ⟨hi, Option.some.inj he⟩
    exact ⟨hw, by rw [decodeWord, hM]; show decode4E w = _; rw [decode4E, hf]; rfl⟩
  | mTexqSize =>
    obtain ⟨hw, hM, hf, rfl, rfl, rfl⟩ := (put14_7_0_iff (by decide)).1 ⟨hi, Option.some.inj he⟩
    exact ⟨hw, by rw [decodeWord, hM]; show decode4F w = _; rw [decode4F, hf]; rfl⟩
  | mTexqLevels | mTexqFormat =>
    obtain ⟨hw, hM, hf, hz, rfl, rfl⟩ := (put14_7_iff (by decide)).1 ⟨hi, Option.some.inj he⟩
    exact ⟨hw, by rw [decodeWord, hM]; show decode4F w = _; rw [decode4F, hf, hz]; rfl⟩
  | eCpy =>
    obtain ⟨hw, hM, hf, hz, rfl, rfl, rfl⟩ := (put14_8_0_iff (by decide)).1 ⟨hi, Option.some.inj he⟩
    exact ⟨hw, by rw [decodeWord, hM]; show decode50 w = _; rw [decode50, hf, hz]; rfl⟩
  | eGath =>
    obtain ⟨hw, hM, hf, hz, rfl, rfl⟩ := (put14_8_iff (by decide)).1 ⟨hi, Option.some.inj he⟩
    exact ⟨hw, by rw [decodeWord, hM]; show decode51 w = _; rw [decode51, hf, hz]; rfl⟩
  | eScat =>
    obtain ⟨hw, hM, hz, rfl, rfl, rfl⟩ := (put21_14_8_iff (by decide)).1 ⟨hi, Option.some.inj he⟩
    exact ⟨hw, by rw [decodeWord, hM]; show decode52 w = _; rw [decode52, hz]; rfl⟩
  | eMma =>
    obtain ⟨hw, hM, hf, hz, rfl⟩ := (put14_iff (by decide)).1 ⟨hi, Option.some.inj he⟩
    exact ⟨hw, by rw [decodeWord, hM]; show decode53 w = _; rw [decode53, hf, hz]; rfl⟩
  | eMsrch =>
    obtain ⟨hw, hM, hf, hz, rfl⟩ := (put14_iff (by decide)).1 ⟨hi, Option.some.inj he⟩
    exact ⟨hw, by rw [decodeWord, hM]; show decode54 w = _; rw [decode54, hf, hz]; rfl⟩
  | eQuant =>
    obtain ⟨hw, hM, hf, hz, rfl⟩ := (put14_iff (by decide)).1 ⟨hi, Option.some.inj he⟩
    exact ⟨hw, by rw [decodeWord, hM]; show decode55 w = _; rw [decode55, hf, hz]; rfl⟩
  | eKselThr | eKselTopk =>
    obtain ⟨hw, hM, hf, hz, rfl, rfl⟩ := (put14_8_iff (by decide)).1 ⟨hi, Option.some.inj he⟩
    exact ⟨hw, by rw [decodeWord, hM]; show decode56 w = _; rw [decode56, hf, hz]; rfl⟩
  | eKgat =>
    obtain ⟨hw, hM, hf, hz, rfl, rfl⟩ := (put14_8_iff (by decide)).1 ⟨hi, Option.some.inj he⟩
    exact ⟨hw, by rw [decodeWord, hM]; show decode57 w = _; rw [decode57, hf, hz]; rfl⟩
  | eKsum =>
    obtain ⟨hw, hM, hf, hz, rfl, rfl⟩ := (put14_8_iff (by decide)).1 ⟨hi, Option.some.inj he⟩
    exact ⟨hw, by rw [decodeWord, hM]; show decode58 w = _; rw [decode58, hf, hz]; rfl⟩
  | eSpawn =>
    obtain ⟨hw, hM, hf, hz, rfl⟩ := (put14_iff (by decide)).1 ⟨hi, Option.some.inj he⟩
    exact ⟨hw, by rw [decodeWord, hM]; show decode59 w = _; rw [decode59, hf, hz]; rfl⟩
  | eSpawnDie =>
    obtain ⟨hw, hM, hf, hz, rfl, rfl⟩ := (put14_0_iff (by decide)).1 ⟨hi, Option.some.inj he⟩
    exact ⟨hw, by rw [decodeWord, hM]; show decode59 w = _; rw [decode59, hf, hz]; rfl⟩
  | eEnq =>
    obtain ⟨hw, hM, hf, hz, rfl, rfl⟩ := (put14_0_six_iff (by decide)).1 ⟨hi, Option.some.inj he⟩
    exact ⟨hw, by rw [decodeWord, hM]; show decode5A w = _; rw [decode5A, hf, hz]; rfl⟩
  | eSsbld =>
    obtain ⟨hw, hM, hf, hz, rfl, rfl⟩ := (put14_8_iff (by decide)).1 ⟨hi, Option.some.inj he⟩
    exact ⟨hw, by rw [decodeWord, hM]; show decode5B w = _; rw [decode5B, hf, hz]; rfl⟩
  | eBind =>
    obtain ⟨hw, hM, hf, hz, rfl, rfl⟩ := (put14_0_three_iff (by decide)).1 ⟨hi, Option.some.inj he⟩
    exact ⟨hw, by rw [decodeWord, hM]; show decode5C w = _; rw [decode5C, hf, hz]; rfl⟩
  | eEmit =>
    obtain ⟨hw, hM, hf, hz, rfl⟩ := (put14_iff (by decide)).1 ⟨hi, Option.some.inj he⟩
    exact ⟨hw, by rw [decodeWord, hM]; show decode5D w = _; rw [decode5D, hf, hz]; rfl⟩
  | eRelaunch =>
    obtain ⟨hw, hM, hf, hz, rfl⟩ := (put14_iff (by decide)).1 ⟨hi, Option.some.inj he⟩
    exact ⟨hw, by rw [decodeWord, hM]; show decode5E w = _; rw [decode5E, hf, hz]; rfl⟩
  | eTdset =>
    obtain ⟨hw, hM, hf, hz, rfl⟩ := (put14_iff (by decide)).1 ⟨hi, Option.some.inj he⟩
    exact ⟨hw, by rw [decodeWord, hM]; show decode5F w = _; rw [decode5F, hf, hz]; rfl⟩
  | cBr =>
    obtain ⟨hw, hM, rfl, rfl, rfl⟩ := (put22_19_0_iff (by decide)).1 ⟨hi, Option.some.inj he⟩
    exact ⟨hw, by rw [decodeWord, hM]; rfl⟩
  | cCall =>
    obtain ⟨hw, hM, rfl, rfl⟩ := (put19_0_iff (by decide)).1 ⟨hi, Option.some.inj he⟩
    exact ⟨hw, by rw [decodeWord, hM]; rfl⟩
  | cJmp | cRet =>
    obtain ⟨hw, hM, hf, hz, rfl⟩ := (put7_iff (by decide)).1 ⟨hi, Option.some.inj he⟩
    exact ⟨hw, by rw [decodeWord, hM]; show decode62 w = _; rw [decode62, hf, hz]; rfl⟩
  | cCallx =>
    obtain ⟨hw, hM, hf, hz, rfl, rfl⟩ := (put14_7_iff (by decide)).1 ⟨hi, Option.some.inj he⟩
    exact ⟨hw, by rw [decodeWord, hM]; show decode62 w = _; rw [decode62, hf, hz]; rfl⟩
  | cWait =>
    obtain ⟨hw, hM, hz, rfl, rfl, rfl, rfl⟩ := (put19_13_7_1_iff (by decide)).1 ⟨hi, Option.some.inj he⟩
    exact ⟨hw, by rw [decodeWord, hM]; show decode63 w = _; rw [decode63, hz]; rfl⟩
  | cTwaitAny | cTwaitAll | cTclr =>
    obtain ⟨hw, hM, hf, hz, rfl⟩ := (put7_iff (by decide)).1 ⟨hi, Option.some.inj he⟩
    exact ⟨hw, by rw [decodeWord, hM]; show decode64 w = _; rw [decode64, hf, hz]; rfl⟩
  | cTffs =>
    obtain ⟨hw, hM, hf, hz, rfl, rfl⟩ := (put14_7_iff (by decide)).1 ⟨hi, Option.some.inj he⟩
    exact ⟨hw, by rw [decodeWord, hM]; show decode64 w = _; rw [decode64, hf, hz]; rfl⟩
  | cBarArrive | cBarWait | cBarSync =>
    obtain ⟨hw, hM, hf, hz, rfl, rfl⟩ := (put18_14_iff (by decide)).1 ⟨hi, Option.some.inj he⟩
    exact ⟨hw, by rw [decodeWord, hM]; show decode65 w = _; rw [decode65, hf, hz]; rfl⟩
  | cNop | cYield | cExit =>
    obtain ⟨hw, hM, hf, hz⟩ := (word_iff (by decide)).1 ⟨hi, Option.some.inj he⟩
    exact ⟨hw, by rw [decodeWord, hM]; show decode66 w = _; rw [decode66, hf, hz]; rfl⟩
  | cBrk =>
    obtain ⟨hw, hM, hf, hz, rfl⟩ := (put0_iff (by decide)).1 ⟨hi, Option.some.inj he⟩
    exact ⟨hw, by rw [decodeWord, hM]; show decode66 w = _; rw [decode66, hf, hz]; rfl⟩
  | cTrap =>
    obtain ⟨hw, hM, hz, rfl⟩ := (put0_three_iff (by decide)).1 ⟨hi, Option.some.inj he⟩
    exact ⟨hw, by rw [decodeWord, hM]; show decode67 w = _; rw [decode67, hz]; rfl⟩
  | yGsr =>
    obtain ⟨hw, hM, hf, hz, rfl, rfl⟩ := (put14_7_iff (by decide)).1 ⟨hi, Option.some.inj he⟩
    exact ⟨hw, by rw [decodeWord, hM]; show decode68 w = _; rw [decode68, hf, hz]; rfl⟩
  | ySsr =>
    obtain ⟨hw, hM, hf, hz, rfl, rfl⟩ := (put7_0_iff (by decide)).1 ⟨hi, Option.some.inj he⟩
    exact ⟨hw, by rw [decodeWord, hM]; show decode69 w = _; rw [decode69, hf, hz]; rfl⟩
  | yResume | yKill =>
    obtain ⟨hw, hM, hf, hz, rfl, rfl⟩ := (put7_0_iff (by decide)).1 ⟨hi, Option.some.inj he⟩
    exact ⟨hw, by rw [decodeWord, hM]; show decode6A w = _; rw [decode6A, hf, hz]; rfl⟩
  | yCtxinfo =>
    obtain ⟨hw, hM, hf, hz, rfl, rfl⟩ := (put14_7_iff (by decide)).1 ⟨hi, Option.some.inj he⟩
    exact ⟨hw, by rw [decodeWord, hM]; show decode6B w = _; rw [decode6B, hf, hz]; rfl⟩
  | hImm =>
    obtain ⟨hw, hM, rfl⟩ := (put0_twentyFive_iff (by decide)).1 ⟨hi, Option.some.inj he⟩
    exact ⟨hw, by rw [decodeWord, hM]; rfl⟩
  | hGuard =>
    obtain ⟨hw, hM, hf, hz, hk, rfl, rfl⟩ := (put18_15_iff).1 ⟨hi, Option.some.inj he⟩
    exact ⟨hw, by rw [decodeWord, hM]; show decode7F w = _; rw [decode7F, hf, hz, if_pos hk]; rfl⟩
  | hGuardNot =>
    obtain ⟨hw, hM, hf, hz, hk, rfl, rfl⟩ := (put18_15_not_iff).1 ⟨hi, Option.some.inj he⟩
    exact ⟨hw, by rw [decodeWord, hM]; show decode7F w = _; rw [decode7F, hf, hz, if_neg hk]; rfl⟩
  | hSrc3 =>
    obtain ⟨hw, hM, hf, hz, rfl⟩ := (put14_iff (by decide)).1 ⟨hi, Option.some.inj he⟩
    exact ⟨hw, by rw [decodeWord, hM]; show decode7F w = _; rw [decode7F, hf, hz]; rfl⟩
  | hReuse =>
    obtain ⟨hw, hM, hf, hz, rfl, rfl⟩ := (put14_0_two_iff (by decide)).1 ⟨hi, Option.some.inj he⟩
    exact ⟨hw, by rw [decodeWord, hM]; show decode7F w = _; rw [decode7F, hf, hz]; rfl⟩
  | hLast =>
    obtain ⟨hw, hM, hf, hz, rfl, rfl, rfl⟩ := (put14_7_0_two_iff (by decide)).1 ⟨hi, Option.some.inj he⟩
    exact ⟨hw, by rw [decodeWord, hM]; show decode7F w = _; rw [decode7F, hf, hz]; rfl⟩
  | hRnd =>
    obtain ⟨hw, hM, hf, hz, rfl⟩ := (put19_iff (by decide)).1 ⟨hi, Option.some.inj he⟩
    exact ⟨hw, by rw [decodeWord, hM]; show decode7F w = _; rw [decode7F, hf, hz]; rfl⟩
  | hScope | hCache =>
    obtain ⟨hw, hM, hf, hz, rfl⟩ := (put18_iff (by decide)).1 ⟨hi, Option.some.inj he⟩
    exact ⟨hw, by rw [decodeWord, hM]; show decode7F w = _; rw [decode7F, hf, hz]; rfl⟩
  | hSched =>
    obtain ⟨hw, hM, hf, hz, rfl⟩ := (put16_iff (by decide)).1 ⟨hi, Option.some.inj he⟩
    exact ⟨hw, by rw [decodeWord, hM]; show decode7F w = _; rw [decode7F, hf, hz]; rfl⟩
  | _ => nomatch he

/-! ### The bytes of a word (R3) -/

theorem bytesToNat_natToBytes (n v : Nat) : bytesToNat (natToBytes n v) = v % 256 ^ n := by
  induction n generalizing v with
  | zero => simp [natToBytes, bytesToNat, Nat.mod_one]
  | succ n ih => simp [natToBytes, bytesToNat, ih, Nat.pow_succ', Nat.mod_mul]

theorem decodeBytes_natToBytes {w : Nat} (hw : w < 2 ^ 32) (rest : List (BitVec 8)) :
    decodeBytes (natToBytes 4 w ++ rest) = (decodeWord w).map (fun i => (i, rest)) := by
  have hb : bytesToNat (natToBytes 4 w) = w := (bytesToNat_natToBytes 4 w).trans (Nat.mod_eq_of_lt hw)
  exact congrArg (fun v => (decodeWord v).map (fun i => (i, rest))) hb

/-- Settles O56: the word's fields are those of the format, for every format (R44), and every arm of the decoder keeps the whole word. -/
theorem decodeInvertsEncode : Obligations.DecodeInvertsEncode := by
  unfold Obligations.DecodeInvertsEncode
  constructor
  · intro i w hi he
    obtain ⟨hw, hd⟩ := decodeWord_encode hi he
    exact ⟨hw, hd, fun rest => by rw [decodeBytes_natToBytes hw, hd]; rfl⟩
  · exact fun w i hw hd => reads_decodeWord hw i hd

end Sys2Proof
end

section
/-! SUPPORT. What the checks on registers do where one of them does not pass (R8, R9, R33, R66, R67, R358), and the traps of the ALU words. -/

namespace Sys2Proof.Machine

/-! ### The lanes that fail a check -/

/-- The lanes of a set that satisfy `p` are named, with the lowest of them. -/
theorem lanesWhere_eq_some {m : Mask} {p : Nat → Bool} {l : Nat} (hl : inMask (maskOf (fun k => inMask m k && p k)) l = true)
    (hmin : ∀ j, j < l → inMask (maskOf (fun k => inMask m k && p k)) j = false) :
    lanesWhere m p = some (maskOf (fun k => inMask m k && p k), l) := by
  have hmem : ∀ k, k ∈ (lanesOf m).filter p ↔ inMask (maskOf (fun k => inMask m k && p k)) k = true := by
    intro k
    rw [List.mem_filter, mem_lanesOf, inMask_maskOf]
    constructor
    · rintro ⟨hm, hp⟩
      simp [inMask_lt hm, hm, hp]
    · simp
  have hsorted : ((lanesOf m).filter p).Pairwise (· < ·) := (List.pairwise_lt_range.filter _).filter _
  unfold lanesWhere
  cases hf : (lanesOf m).filter p with
  | nil => simpa [hf] using (hmem l).2 hl
  | cons k ks =>
    rw [hf] at hmem hsorted
    have hk : ¬ k < l := fun h => by simpa [hmin k h] using (hmem k).1 (by simp)
    have hlk : l = k := by
      rcases List.mem_cons.1 ((hmem l).2 hl) with h | h
      · exact h
      · exact absurd ((List.pairwise_cons.1 hsorted).1 l h) hk
    rw [hlk]

/-- No lane of a set satisfies `p` where the set of those that do is empty. -/
theorem lanesWhere_of_empty {m : Mask} {p : Nat → Bool} (h : maskOf (fun k => inMask m k && p k) = 0#32) : lanesWhere m p = none := by
  refine lanesWhere_eq_none.2 (fun l hl => ?_)
  have hz := congrArg (fun k => inMask k l) h
  simpa [inMask_maskOf, inMask_lt hl, hl, inMask_zero] using hz

theorem checkRange_first {w : Warp} {m : Mask} {regs : Nat → List Nat} {l n : Nat}
    (hl : inMask (maskOf (fun k => inMask m k && (regs k).any (fun n => decide (w.alloc ≤ n)))) l = true)
    (hmin : ∀ j, j < l → inMask (maskOf (fun k => inMask m k && (regs k).any (fun n => decide (w.alloc ≤ n)))) j = false)
    (hn : (regs l).find? (fun n => decide (w.alloc ≤ n)) = some n) :
    checkRange w m regs =
      .error (.trap (maskOf (fun k => inMask m k && (regs k).any (fun n => decide (w.alloc ≤ n)))) 0x04 0 [n, 0, w.alloc]) := by
  unfold checkRange
  rw [lanesWhere_eq_some hl hmin]
  simp only [ge_iff_le, hn, Option.getD_some]

theorem checkRange_empty {w : Warp} {m : Mask} {regs : Nat → List Nat}
    (h : maskOf (fun k => inMask m k && (regs k).any (fun n => decide (w.alloc ≤ n))) = 0#32) : checkRange w m regs = .ok () := by
  unfold checkRange
  rw [lanesWhere_of_empty h]

/-- Without predicate entries, a pending register is what a lane names. -/
theorem pendingIn_regs (w : Warp) (l : Nat) (regs : List Nat) : pendingIn w l regs [] = regs.find? (w.isPending l) := by
  unfold pendingIn
  cases regs.find? (w.isPending l) <;> rfl

theorem pendingIn_isSome (w : Warp) (l : Nat) (regs : List Nat) : (pendingIn w l regs []).isSome = regs.any (w.isPending l) := by
  rw [pendingIn_regs, Bool.eq_iff_iff, List.find?_isSome, List.any_eq_true]

theorem checkPending_first {w : Warp} {m : Mask} {regs : Nat → List Nat} {l n : Nat}
    (hl : inMask (maskOf (fun k => inMask m k && (regs k).any (w.isPending k))) l = true)
    (hmin : ∀ j, j < l → inMask (maskOf (fun k => inMask m k && (regs k).any (w.isPending k))) j = false)
    (hn : (regs l).find? (w.isPending l) = some n) :
    checkPending w m regs (fun _ => []) =
      .error (.trap (maskOf (fun k => inMask m k && (regs k).any (w.isPending k))) 0x03 0 [n, 0]) := by
  unfold checkPending
  simp only [pendingIn_isSome]
  rw [lanesWhere_eq_some hl hmin]
  simp only [pendingIn_regs, hn, Option.getD_some]

theorem checkPending_empty {w : Warp} {m : Mask} {regs : Nat → List Nat}
    (h : maskOf (fun k => inMask m k && (regs k).any (w.isPending k)) = 0#32) : checkPending w m regs (fun _ => []) = .ok () := by
  unfold checkPending
  simp only [pendingIn_isSome]
  rw [lanesWhere_of_empty h]

theorem checkGood_bad {w : Warp} {m : Mask} {srcs : Nat → List Nat} {l n : Nat} (hl : inMask m l = true) (hn : n ∈ srcs l)
    (hb : w.isBad l n = true) : checkGood w m srcs = .error (.endCtx 0x53 0 [(w.core?).getD 0]) := by
  unfold checkGood
  rw [if_pos]
  exact List.any_eq_true.2 ⟨l, (mem_lanesOf m l).2 hl, List.any_eq_true.2 ⟨n, hn, hb⟩⟩

/-- The checks on registers stop at the first that does not pass. -/
theorem checkNamed_range {w : Warp} {m : Mask} {srcs dsts preds : Nat → List Nat} {e : Stop}
    (h : checkRange w m (fun l => srcs l ++ dsts l) = .error e) : checkNamed w m srcs dsts preds = .error e := by
  unfold checkNamed
  rw [h]

theorem checkNamed_pending {w : Warp} {m : Mask} {srcs dsts preds : Nat → List Nat} {e : Stop}
    (h0 : checkRange w m (fun l => srcs l ++ dsts l) = .ok ()) (h : checkPending w m (fun l => srcs l ++ dsts l) preds = .error e) :
    checkNamed w m srcs dsts preds = .error e := by
  unfold checkNamed
  rw [h0]
  simp only
  rw [h]

theorem checkNamed_good {w : Warp} {m : Mask} {srcs dsts preds : Nat → List Nat}
    (h0 : checkRange w m (fun l => srcs l ++ dsts l) = .ok ()) (h1 : checkPending w m (fun l => srcs l ++ dsts l) preds = .ok ()) :
    checkNamed w m srcs dsts preds = checkGood w m srcs := by
  unfold checkNamed
  rw [h0]
  simp only
  rw [h1]

/-! ### What a stop of a begun word does -/

theorem applyStop_trap {s : State} {i : Info} {x : Cx} (h : Begins s i x) (lanes : Mask) (cause addr : Nat) (detail : List Nat) :
    applyStop s (.trap lanes cause addr detail) = .next (trapNow s x.sel lanes cause addr detail) := by
  unfold applyStop
  rw [(begins_cases h).1]

/-- The end of the context names the first word of the group, the run and all its lanes (log 23). -/
theorem applyStop_endCtx {s : State} {i : Info} {x : Cx} (h : Begins s i x) (cause addr : Nat) (detail : List Nat) :
    applyStop s (.endCtx cause addr detail) = .next { endContext s x.w.ctx
      (recordWords cause 0 x.sel.first.toNat x.sel.run x.sel.run addr detail) with cur := none } := by
  obtain ⟨hc, -, w, hw, -, -, -, hx, -, -⟩ := begins_cases h
  unfold applyStop
  rw [hc]
  simp only [hw, hx, openGuard_ctx]

/-- A word whose body begins with the checks on its registers traps as R66 and R67 order them: range, pending, data. -/
theorem trapsOnRegisters_of {i : State → Info} {k : Instr} {m : Cx → Mask} {srcs dsts : Cx → Nat → List Nat}
    {body : Cx → Except Stop State} (he : ∀ s, exec k s = issue s (i s) body)
    (hb : ∀ x e, checkNamed x.w (m x) (srcs x) (dsts x) (fun _ => []) = .error e → body x = .error e) :
    TrapsOnRegisters i k m srcs dsts := by
  intro s x h
  have hs := begins_s h
  have stops : ∀ e, checkNamed x.w (m x) (srcs x) (dsts x) (fun _ => []) = .error e → exec k x.s = applyStop x.s e := by
    intro e hc
    rw [hs, he, issue_of h, hb x e hc]
  refine ⟨?_, ?_, ?_⟩
  · rintro n ⟨l, -, hl, hmin, hn⟩
    rw [stops _ (checkNamed_range (checkRange_first hl hmin hn)), hs, applyStop_trap h]
  · rintro h0 n ⟨l, -, hl, hmin, hn⟩
    rw [stops _ (checkNamed_pending (checkRange_empty h0) (checkPending_first hl hmin hn)), hs, applyStop_trap h]
  · rintro h0 h1 ⟨l, hl, n, hn, hbad⟩
    have hg := checkNamed_good (preds := fun _ => []) (checkRange_empty h0) (checkPending_empty h1)
    rw [stops _ (hg.trans (checkGood_bad hl hn hbad)), hs, applyStop_endCtx h]

/-! ### The two ways to execute an ALU word (R22, R66) -/

theorem uniformAlu_traps {i : State → Info} {k : Instr} {op : Hints → Alu} (he : ∀ s, exec k s = uniformAlu s (i s) op) :
    TrapsOnRegisters i k (fun x => x.w.live) (fun x l => if l = x.lead then (op x.hints).srcs else [])
      (fun x _ => (op x.hints).dsts) := by
  refine trapsOnRegisters_of he (fun x e hc => ?_)
  have hu : checkUniform x.w x.lead (op x.hints).srcs (op x.hints).dsts = .error e := hc
  simp only [hu]

theorem laneAlu_traps {i : State → Info} {k : Instr} {op : Hints → Alu} {keep : Hints → Warp → Option RegForm}
    (he : ∀ s, exec k s = laneAlu s (i s) op keep) :
    TrapsOnRegisters i k Cx.act (fun x _ => (op x.hints).srcs) (fun x _ => (op x.hints).dsts) := by
  refine trapsOnRegisters_of he (fun x e hc => ?_)
  have hu : checkRegs x.w x.act (op x.hints).srcs (op x.hints).dsts = .error e := hc
  simp only [hu]

theorem perLaneAlu_traps {i : State → Info} {k : Instr} {op : Hints → Alu} (he : ∀ s, exec k s = perLaneAlu s (i s) op) :
    TrapsOnRegisters i k Cx.act (fun x _ => (op x.hints).srcs) (fun x _ => (op x.hints).dsts) :=
  laneAlu_traps (keep := fun _ _ => none) he

/-- Both twins of a word that writes the registers `dsts` whatever its hints. -/
theorem twinsTrap_of {src3 imm rnd : Bool} {s v : Instr}
    {op : Hints → Alu} {keep : Hints → Warp → Option RegForm}
    {srcs : Hints → List Nat} {dsts : List Nat}
    (hs : ∀ t, exec s t = uniformAlu t (Info.of 0 imm src3 rnd) op)
    (hv : ∀ t, exec v t = laneAlu t (Info.of 1 imm src3 rnd) op keep)
    (hsrcs : ∀ h, (op h).srcs = srcs h) (hdsts : ∀ h, (op h).dsts = dsts) : TwinsTrap src3 imm rnd s v srcs dsts := by
  have h1 := uniformAlu_traps hs
  have h2 := laneAlu_traps hv
  simp only [hsrcs, hdsts] at h1 h2
  exact ⟨h1, h2⟩

/-- The same where the result of the `v.` twin is always per-lane (R28). -/
theorem twinsTrap_perLane {src3 imm rnd : Bool} {s v : Instr} {op : Hints → Alu} {srcs : Hints → List Nat} {dsts : List Nat}
    (hs : ∀ t, exec s t = uniformAlu t (Info.of 0 imm src3 rnd) op) (hv : ∀ t, exec v t = perLaneAlu t (Info.of 1 imm src3 rnd) op)
    (hsrcs : ∀ h, (op h).srcs = srcs h) (hdsts : ∀ h, (op h).dsts = dsts) : TwinsTrap src3 imm rnd s v srcs dsts :=
  twinsTrap_of (keep := fun _ _ => none) hs hv hsrcs hdsts

/-- Even pair fields break no rule on fields (R45). -/
theorem oddPairs_even {d a b : Nat} {pb : Bool} (hd : d % 2 = 0) (ha : a % 2 = 0) (hb : pb = true → b % 2 = 0) :
    oddPairs d a b true true pb = 0 := by
  unfold oddPairs misaligned
  cases pb <;> simp [hd, ha, hb]

/-- Both twins of a word that writes a pair, its pair fields even. -/
theorem twinsTrap_pair {o : Nat} {s v : Instr} {op : Hints → Alu} {srcs : Hints → List Nat} {dsts : List Nat} (ho : o = 0)
    (hs : ∀ t, exec s t = uniformAlu t ((Info.of 0 false false false).bad o) op)
    (hv : ∀ t, exec v t = perLaneAlu t ((Info.of 1 false false false).bad o) op)
    (hsrcs : ∀ h, (op h).srcs = srcs h) (hdsts : ∀ h, (op h).dsts = dsts) : TwinsTrap false false false s v srcs dsts := by
  subst ho
  exact twinsTrap_perLane hs hv hsrcs hdsts

/-- Settles O34: every word named is one of the two ways to execute an ALU word, whose checks on registers come before its effect. -/
theorem registerTraps : Obligations.RegisterTraps := by
  unfold Obligations.RegisterTraps
  intro d a b
  refine ⟨?two, ?twoRound, ?twoImm, ?one, ?sqrt, ?movImm, ?three, ?madImm, ?threeRound, ?pairs, ?pairBy, ?movi, ?cvt⟩
  case two =>
    iterate 3 refine List.forall_mem_cons.2 ⟨twinsTrap_of (fun _ => rfl) (fun _ => rfl) (fun _ => rfl) (fun _ => rfl), ?_⟩
    iterate 16 refine List.forall_mem_cons.2 ⟨twinsTrap_perLane (fun _ => rfl) (fun _ => rfl) (fun _ => rfl) (fun _ => rfl), ?_⟩
    refine List.forall_mem_cons.2 ⟨twinsTrap_of (fun _ => rfl) (fun _ => rfl) (fun _ => rfl) (fun _ => rfl), ?_⟩
    iterate 13 refine List.forall_mem_cons.2 ⟨twinsTrap_perLane (fun _ => rfl) (fun _ => rfl) (fun _ => rfl) (fun _ => rfl), ?_⟩
    exact List.forall_mem_nil _
  case twoRound =>
    iterate 9 refine List.forall_mem_cons.2 ⟨twinsTrap_perLane (fun _ => rfl) (fun _ => rfl) (fun _ => rfl) (fun _ => rfl), ?_⟩
    exact List.forall_mem_nil _
  case twoImm =>
    iterate 3 refine List.forall_mem_cons.2 ⟨twinsTrap_of (fun _ => rfl) (fun _ => rfl) (fun _ => rfl) (fun _ => rfl), ?_⟩
    iterate 16 refine List.forall_mem_cons.2 ⟨twinsTrap_perLane (fun _ => rfl) (fun _ => rfl) (fun _ => rfl) (fun _ => rfl), ?_⟩
    refine List.forall_mem_cons.2 ⟨twinsTrap_of (fun _ => rfl) (fun _ => rfl) (fun _ => rfl) (fun _ => rfl), ?_⟩
    iterate 4 refine List.forall_mem_cons.2 ⟨twinsTrap_perLane (fun _ => rfl) (fun _ => rfl) (fun _ => rfl) (fun _ => rfl), ?_⟩
    exact List.forall_mem_nil _
  case one =>
    iterate 3 refine List.forall_mem_cons.2 ⟨twinsTrap_perLane (fun _ => rfl) (fun _ => rfl) (fun _ => rfl) (fun _ => rfl), ?_⟩
    refine List.forall_mem_cons.2 ⟨twinsTrap_of exec_sMov exec_vMov (fun _ => rfl) (fun _ => rfl), ?_⟩
    iterate 15 refine List.forall_mem_cons.2 ⟨twinsTrap_perLane (fun _ => rfl) (fun _ => rfl) (fun _ => rfl) (fun _ => rfl), ?_⟩
    exact List.forall_mem_nil _
  case sqrt => exact twinsTrap_perLane exec_sFsqrt exec_vFsqrt (fun _ => rfl) (fun _ => rfl)
  case movImm => exact twinsTrap_perLane exec_sMovImm exec_vMovImm (fun _ => rfl) (fun _ => rfl)
  case three =>
    iterate 3 refine List.forall_mem_cons.2 ⟨twinsTrap_perLane (fun _ => rfl) (fun _ => rfl) (fun _ => rfl) (fun _ => rfl), ?_⟩
    exact List.forall_mem_nil _
  case madImm => exact twinsTrap_perLane exec_sMadImm exec_vMadImm (fun _ => rfl) (fun _ => rfl)
  case threeRound =>
    iterate 3 refine List.forall_mem_cons.2 ⟨twinsTrap_perLane (fun _ => rfl) (fun _ => rfl) (fun _ => rfl) (fun _ => rfl), ?_⟩
    exact List.forall_mem_nil _
  case pairs =>
    intro hd ha hb
    refine List.forall_mem_cons.2 ⟨
      twinsTrap_pair (oddPairs_even hd ha fun _ => hb) exec_sAdd64 exec_vAdd64 (fun _ => rfl) (fun _ => rfl), ?_⟩
    refine List.forall_mem_cons.2 ⟨
      twinsTrap_pair (oddPairs_even hd ha fun _ => hb) exec_sSub64 exec_vSub64 (fun _ => rfl) (fun _ => rfl), ?_⟩
    refine List.forall_mem_cons.2 ⟨
      twinsTrap_pair (oddPairs_even hd ha fun _ => hb) exec_sMul64lo exec_vMul64lo (fun _ => rfl) (fun _ => rfl), ?_⟩
    exact List.forall_mem_nil _
  case pairBy =>
    intro hd ha
    refine List.forall_mem_cons.2 ⟨
      twinsTrap_pair (oddPairs_even (pb := false) hd ha nofun) exec_sShl64 exec_vShl64 (fun _ => rfl) (fun _ => rfl), ?_⟩
    refine List.forall_mem_cons.2 ⟨
      twinsTrap_pair (oddPairs_even (pb := false) hd ha nofun) exec_sShr64 exec_vShr64 (fun _ => rfl) (fun _ => rfl), ?_⟩
    refine List.forall_mem_cons.2 ⟨
      twinsTrap_pair (oddPairs_even (pb := false) hd ha nofun) exec_sSar64 exec_vSar64 (fun _ => rfl) (fun _ => rfl), ?_⟩
    exact List.forall_mem_nil _
  case movi =>
    intro i
    have hs := uniformAlu_traps (i := fun s => (Info.of 0 true false false).bad (moviBad s i)) (exec_sMovi (d := d) (imm := i))
    have hv := perLaneAlu_traps (i := fun s => (Info.of 1 true false false).bad (moviBad s i)) (exec_vMovi (d := d) (imm := i))
    simp only [ite_self] at hs
    exact ⟨hs, hv⟩
  case cvt =>
    exact fun f src t => ⟨uniformAlu_traps (op := cvtAlu f d a src t) exec_sCvt, perLaneAlu_traps (op := cvtAlu f d a src t) exec_vCvt⟩

end Sys2Proof.Machine
end

section
/-! SUPPORT. The bit of an integer compare is the relation of the operands read as the type (R49, R121). -/

namespace Sys2Proof.Machine

theorem intCompare_relation {c : Nat × (Int → Int → Bool)} (hc : c ∈ intRelations) (x y : Int) : intCompare c.1 x y = c.2 x y := by
  simp only [intRelations, List.mem_cons, List.not_mem_nil, or_false] at hc
  rcases hc with rfl | rfl | rfl | rfl | rfl | rfl <;> rfl

/-- The number that a pair makes of its two registers (R3). -/
theorem dword_toNat (w : Warp) (l n : Nat) : (w.dword l n).toNat = w.pair l n := pairAt_toNat (w.reg l) n

/-- An operand of `cmp`: a pair or a register, read as the type. -/
theorem cmpValue_type {t : Nat × (Warp → Nat → Nat → Int)} (ht : t ∈ intTypes) (w : Warp) (l n : Nat) :
    cmpValue t.1 (if cmpPair t.1 then w.pair l n else (w.reg l n).toNat) = t.2 w l n := by
  simp only [intTypes, List.mem_cons, List.not_mem_nil, or_false] at ht
  rcases ht with rfl | rfl | rfl | rfl
  case inl => exact signed32 _
  case inr.inl => rfl
  case inr.inr.inl => exact (congrArg (signed 64) (dword_toNat w l n).symm).trans (signed64 _)
  case inr.inr.inr => exact congrArg Int.ofNat (dword_toNat w l n).symm

theorem cmpBit_eq {c : Nat × (Int → Int → Bool)} (hc : c ∈ intRelations) {t : Nat × (Warp → Nat → Nat → Int)} (ht : t ∈ intTypes)
    (a b : Nat) (w : Warp) (l : Nat) : cmpBit c.1 t.1 a b w l = (c.2 (t.2 w l a) (t.2 w l b), 0#5) := by
  rw [← intCompare_relation hc, ← cmpValue_type ht, ← cmpValue_type ht]
  unfold cmpBit
  split <;> rfl

theorem cmpSrcs_eq {t : Nat × (Warp → Nat → Nat → Int)} (ht : t ∈ intTypes) (a b : Nat) :
    cmpSrcs (cmpPair t.1) a b = if t.1 ≥ 2 then [a, a + 1, b, b + 1] else [a, b] := by
  simp only [intTypes, List.mem_cons, List.not_mem_nil, or_false] at ht
  rcases ht with rfl | rfl | rfl | rfl <;> rfl

/-- Settles O10: a compare of either twin takes the bit of its operands' relation onto the stacks, in every push mode. -/
theorem integerCompares : Obligations.IntegerCompares := by
  unfold Obligations.IntegerCompares
  intro c hc t ht m a b _
  rw [← cmpSrcs_eq ht]
  exact ⟨uniformCompare_of exec_sCmp (cmpBit_eq hc ht a b), laneCompare_of exec_vCmp (cmpBit_eq hc ht a b)⟩

end Sys2Proof.Machine
end

section
/-! SUPPORT. What the module does by itself (R355 to R360), one lemma for each event, and reset. -/

namespace Sys2Proof.Machine

/-! ### Reset and heartbeats (R355, R356) -/

/-- Settles O58: memory of reset is canonical and lists no byte, and every other part has the value that reset gives it. -/
theorem resetState : Obligations.ResetState :=
  ⟨reset_canonical, fun _ => rfl, rfl, rfl, rfl, rfl, rfl, rfl, rfl, rfl, rfl, rfl⟩

/-- A scheduler core whose heartbeat has not come for 100 ms: every context ends and the image is verified again. -/
theorem execHeartbeatTimeout_late {s : State} {core t : Nat} (hc : s.mod.heartbeats[core]? = some t) (hr : s.mod.released = true)
    (ht : t + 60000000 ≤ s.mod.clock) :
    let u := endWhere s (fun _ => true) 0x55 []
    execHeartbeatTimeout core s = .next { u with mod := { u.mod with
      released := Config.signatureValid (imageBytes u), heartbeats := List.replicate 16 u.mod.clock } } := by
  unfold execHeartbeatTimeout
  simp [hc, hr, ht]

theorem execHeartbeatTimeout_early {s : State} {core t : Nat} (hc : s.mod.heartbeats[core]? = some t)
    (h : s.mod.released = false ∨ s.mod.clock < t + 60000000) : execHeartbeatTimeout core s = .next s := by
  unfold execHeartbeatTimeout
  rw [hc]
  rcases h with hr | ht
  · simp [hr]
  · simp [Nat.not_le.2 ht]

/-! ### Rows of HBM (R359) -/

/-- A report to several hosts is one message to each, in order. -/
theorem foldl_sendMessage (kind : Nat) (bytes : List Nat) (hosts : List Nat) (s : State) :
    hosts.foldl (fun s h => sendMessage s { to_ := h, kind := kind, bytes := bytes }) s =
      { s with mod := { s.mod with sent := s.mod.sent ++ hosts.map (fun h => { to_ := h, kind := kind, bytes := bytes }) } } := by
  induction hosts generalizing s with
  | nil => simp
  | cons h hs ih => rw [List.foldl_cons, ih]; simp [sendMessage]

theorem retireRow_eq (s : State) (stack row : Nat) : retireRow s stack row = { s with mod := { s.mod with
    retired := if (stack, row) ∈ s.mod.retired then s.mod.retired else s.mod.retired ++ [(stack, row)] } } := by
  unfold retireRow
  by_cases h : (stack, row) ∈ s.mod.retired
  · rw [if_pos (List.contains_iff_mem.2 h), if_pos h]
  · rw [if_neg (fun hc => h (List.contains_iff_mem.1 hc)), if_neg h]

/-- The record of corrected errors without those of a row. -/
def forgetRow (s : State) (stack row : Nat) : State :=
  { s with mod := { s.mod with corrected := s.mod.corrected.filter (fun e => !(e.1 == stack && e.2.1 == row)) } }

/-- Three corrected errors of a row within 24 hours retire it where its stack has a spare; else the hosts are told. -/
theorem execHbmRowRetire_many {s : State} {stack row : Nat} (h : 3 ≤ recentErrors s stack row) :
    execHbmRowRetire stack row s = .next (
      if retiredRows s stack < 1024 then retireRow (forgetRow s stack row) stack row
      else (s.mod.hosts.map Prod.fst).foldl (fun s h => sendMessage s { to_ := h, kind := 7, bytes := natLe 8 stack ++ natLe 8 row })
        (forgetRow s stack row)) := by
  unfold execHbmRowRetire
  rw [if_pos h]
  rfl

theorem execHbmRowRetire_few {s : State} {stack row : Nat} (h : recentErrors s stack row < 3) : execHbmRowRetire stack row s = .next s := by
  unfold execHbmRowRetire
  rw [if_neg (Nat.not_le.2 h)]

/-! ### Errors in storage (R358) -/

theorem rowOfSector_eq (loc : Nat) : rowOfSector loc = (loc / 2 ^ 31, 32 * (loc % 2 ^ 31) / Config.hbmRowBytes) := by
  unfold rowOfSector
  congr 1
  · omega
  · congr 1; omega

theorem execEccError_place {place loc : Nat} (h : place ≤ 2) (s : State) :
    execEccError place loc false s = .next { s with mod := { s.mod with bad := s.mod.bad ++ [{ kind := place, loc := loc }] } } := by
  unfold execEccError
  simp [h, show place ≠ 3 by omega]

/-- The word of the register file that a location names: warp, register and pair of lanes. -/
theorem execEccError_register {w r j : Nat} (hr : r < 256) (hj : j < 16) (s : State) :
    execEccError 3 ((256 * w + r) * 16 + j) false s =
      .next (s.updWarp w (fun v => if v.place.isSome then { v with bad := (r, j) :: v.bad } else v)) := by
  have hw : ((256 * w + r) * 16 + j) / 4096 = w := by omega
  have hreg : ((256 * w + r) * 16 + j) / 16 % 256 = r := by omega
  have hpair : ((256 * w + r) * 16 + j) % 16 = j := by omega
  unfold execEccError
  simp [hw, hreg, hpair]

theorem meets_byte (b : BadPlace) (a : Nat) : b.meets a 1 = true ↔ (b.kind = 0 ∧ a / 32 = b.loc) ∨ (b.kind = 1 ∧ a / 8 = b.loc) := by
  unfold BadPlace.meets BadPlace.bytes
  simp only [Bool.and_eq_true, Bool.or_eq_true, beq_iff_eq, decide_eq_true_eq]
  split <;> omega

/-- A byte is bad where it lies in a bad sector of HBM or in a bad 64-bit word of L2. -/
theorem badAt_single {s : State} {b : BadPlace} (h : s.mod.bad = [b]) (a : Nat) :
    badAt s a 1 = if b.kind = 0 ∧ a / 32 = b.loc then some 0x51 else if b.kind = 1 ∧ a / 8 = b.loc then some 0x52 else none := by
  unfold badAt
  rw [h, List.find?_singleton]
  simp only [meets_byte]
  by_cases h0 : b.kind = 0 ∧ a / 32 = b.loc
  · simp [h0]
  · by_cases h1 : b.kind = 1 ∧ a / 8 = b.loc <;> simp [h0, h1]

theorem isBad_iff (w : Warp) (l n : Nat) : w.isBad l n = true ↔ (n, l / 2) ∈ w.bad := List.contains_iff_mem

/-! ### Heat (R360) -/

/-- The set of one die of the four. -/
theorem getLsbD_oneDie {die d : Nat} (hdie : die < 4) (hd : d < 4) : (1#4 <<< die).getLsbD d = (d == die) := by
  have all : ∀ die < 4, ∀ d < 4, (1#4 <<< die).getLsbD d = (d == die) := by decide
  exact all die hdie d hd

/-- A die that throttles is added to the set of those that do, and taken from it when that ends; nothing else changes. -/
theorem throttled_die (s : State) {die : Nat} (hdie : die < 4) : ∃ t u, exec (.thermalThrottle die) s = .next t ∧
    exec (.thermalThrottleEnd die) s = .next u ∧
    t = { s with mod := { s.mod with throttled := t.mod.throttled } } ∧ u = { s with mod := { s.mod with throttled := u.mod.throttled } } ∧
    ∀ d, d < 4 → t.mod.throttled.getLsbD d = (s.mod.throttled.getLsbD d || d == die) ∧
      u.mod.throttled.getLsbD d = (s.mod.throttled.getLsbD d && d != die) := by
  refine ⟨_, _, exec_thermalThrottle s, exec_thermalThrottleEnd s, rfl, rfl, fun d hd => ⟨?_, ?_⟩⟩
  · rw [BitVec.getLsbD_or, getLsbD_oneDie hdie hd]
  · rw [BitVec.getLsbD_and, BitVec.getLsbD_not, getLsbD_oneDie hdie hd, bne, decide_eq_true hd, Bool.true_and]

/-- No core of a die that is shut down runs. -/
theorem coreUp_shut (s : State) {die core : Nat} (hdie : die < 4) (hc : dieOf core = die) :
    coreUp { s with mod := { s.mod with shut := s.mod.shut ||| (1#4 <<< die) } } core = false := by
  unfold coreUp
  rw [hc, BitVec.getLsbD_or, getLsbD_oneDie hdie hdie]
  simp

/-! ### Contexts that end -/

theorem endWhere_none {s : State} {p : Ctx → Bool} (h : s.ctxs.filter (fun c => c.live && p c) = []) (cause : Nat) (detail : List Nat) :
    endWhere s p cause detail = s := by
  unfold endWhere
  rw [h]
  rfl

theorem endWhere_one {s : State} {p : Ctx → Bool} {c : Ctx} (h : s.ctxs.filter (fun c => c.live && p c) = [c]) (cause : Nat)
    (detail : List Nat) : endWhere s p cause detail = endWith s c.number cause 0 detail := by
  unfold endWhere
  rw [h]
  rfl

/-- Settles O55, each event by its lemma. -/
theorem moduleEvents : Obligations.ModuleEvents := by
  unfold Obligations.ModuleEvents
  refine ⟨exec_moduleReset, fun s core => exec_schedulerHeartbeat s, fun s core t hc => ⟨fun hr ht => ?late, fun h => ?early⟩,
    fun s stack row h => ⟨fun hs => ?spare, fun hs => ?told⟩, fun s stack row h => ?few, fun s stack row => rfl,
    fun s loc => ⟨exec_eccError s, fun place hp => ?corrected, fun place hp => ?place, fun w r j hr hj => ?register, rowOfSector_eq loc⟩,
    fun s b a h => badAt_single h a, isBad_iff, fun s core => exec_coreFailure s, fun s die hdie => throttled_die s hdie,
    fun s die => exec_thermalShutdown s, fun s die core hdie hc => coreUp_shut s hdie hc,
    fun s p cause detail => ⟨fun h => endWhere_none h cause detail, fun c h => endWhere_one h cause detail⟩⟩
  case late => exact (exec_heartbeatTimeout s).trans (execHeartbeatTimeout_late hc hr ht)
  case early => exact (exec_heartbeatTimeout s).trans (execHeartbeatTimeout_early hc h)
  case spare => rw [exec_hbmRowRetire, execHbmRowRetire_many h, if_pos hs, retireRow_eq]; rfl
  case told => rw [exec_hbmRowRetire, execHbmRowRetire_many h, if_neg (Nat.not_lt.2 hs), foldl_sendMessage, List.map_map]; rfl
  case few => rw [exec_hbmRowRetire, execHbmRowRetire_few h]
  case corrected => rw [exec_eccError, execEccError, if_pos rfl, if_neg (Nat.ne_of_gt hp)]
  case place => exact (exec_eccError s).trans (execEccError_place hp s)
  case register => exact (exec_eccError s).trans (execEccError_register hr hj s)

end Sys2Proof.Machine
end

section
/-! SUPPORT. Returning from a trap (R16, R147): what `y.resume` and `y.kill` do once their checks have passed, and where one has not. -/

namespace Sys2Proof.Machine

theorem lanesOf_oneLane {l : Nat} (h : l < 32) : lanesOf (oneLane l) = [l] := by
  have all : ∀ l < 32, lanesOf (oneLane l) = [l] := by decide +kernel
  exact all l h

/-! ### The lanes stopped under a handle -/

theorem resumeLanes_stopped {s : State} {ctx h : Nat} {w : Warp} (hw : stoppedWarp s ctx h = some w) (m : Mask) :
    resumeLanes s ctx h m = .ok (s.updWarp w.id (fun w =>
      joinWaits (w.mapLanes (stoppedLanes w h &&& m) (fun _ y => { y with cond := .ready, age := 0 })))) := by
  unfold resumeLanes
  rw [hw]

@[simp] theorem traceAlways_mem (s : State) (launch origin : Nat) : (traceAlways s launch origin).mem = s.mem := by
  unfold traceAlways updTrace
  simp

@[simp] theorem traceAlways_warps (s : State) (launch origin : Nat) : (traceAlways s launch origin).warps = s.warps := by
  unfold traceAlways updTrace
  simp

/-- Marking the traces of several lanes changes no memory and no warp. -/
theorem foldl_traceAlways (launch : Nat) (origin : Nat → Nat) (ls : List Nat) (s : State) :
    (ls.foldl (fun s l => traceAlways s launch (origin l)) s).mem = s.mem ∧
      (ls.foldl (fun s l => traceAlways s launch (origin l)) s).warps = s.warps := by
  induction ls generalizing s with
  | nil => exact ⟨rfl, rfl⟩
  | cons l ls ih =>
    obtain ⟨hmem, hwarps⟩ := ih (traceAlways s launch (origin l))
    exact ⟨hmem.trans (traceAlways_mem ..), hwarps.trans (traceAlways_warps ..)⟩

/-- A warp with no operation has no fault to report. -/
theorem logUnreported_of_noOps {s : State} {wid : Nat} {w : Warp} (hw : s.warp? wid = some w) (ho : w.ops = []) (n : Nat) :
    logUnreported s wid n = s := by
  cases n with
  | zero => rfl
  | succ n =>
    unfold logUnreported
    simp [hw, ho]

theorem exitLanes_lane (w : Warp) (m : Mask) {l : Nat} (h : l < 32) :
    (exitLanes w m).lane l = if inMask m l then { w.lane l with cond := .exited } else w.lane l :=
  lane_mapLanes w m _ h

/-- Where no spawn-tree count holds the warp and it has no operation, its lanes stopped under the handle end and memory stays. -/
theorem killLanes_stopped {s : State} {ctx h : Nat} {w : Warp} (hw : stoppedWarp s ctx h = some w) (hs : s.warp? w.id = some w)
    (hc : w.counts = false) (ho : w.ops = []) (m : Mask) :
    ∃ t, killLanes s ctx h m = .ok t ∧ t.mem = s.mem ∧ t.warp? w.id = some (exitLanes w (stoppedLanes w h &&& m)) := by
  set gone := stoppedLanes w h &&& m with hgone
  set s1 := (lanesOf gone).foldl (fun s l => traceAlways s w.launch (w.origin l)) s with hs1
  obtain ⟨hmem, hwarps⟩ := foldl_traceAlways w.launch w.origin (lanesOf gone) s
  have hw1 : s1.warp? w.id = some w := by rw [State.warp?, hwarps]; exact hs
  have hw2 : (s1.updWarp w.id (fun w => exitLanes w gone)).warp? w.id = some (exitLanes w gone) := warp?_updWarp hw1 (mapLanes_id ..)
  have hlog := logUnreported_of_noOps hw2 ((mapLanes_ops ..).trans ho) (w.ops.length + 1)
  refine ⟨s1.updWarp w.id (fun w => exitLanes w gone), ?_, (State.updWarp_mem ..).trans hmem, hw2⟩
  unfold killLanes countExits
  simp only [hw, hc, Bool.false_eq_true, if_false]
  rw [← hgone, ← hs1, hlog]

/-! ### The two words -/

section
variable {s : State} {x : Cx} {a b : Nat} {act : State → Nat → Nat → Mask → Except AccErr State}

/-- Lanes whose handle stops no lane trap, whatever the warp is (log 38). -/
theorem handleOp_invalid (h : Begins s (Info.plain 3) x) (hr : Ready x.w x.run [a, b] []) {who : Mask} {l : Nat}
    (hw : lanesWhere x.run (fun l => !handleInUse x.s x.w.ctx (x.w.val l a)) = some (who, l)) :
    handleOp s a b act = .next (trapNow s x.sel who 0x07 0 [x.w.val l a]) := by
  unfold handleOp
  rw [issue_of h, checkRegs_ok hr]
  simp only [hw]
  exact applyStop_trap h ..

/-- Where every lane's handle stops lanes, a warp that is no handler traps. -/
theorem handleOp_notHandler (h : Begins s (Info.plain 3) x) (hr : Ready x.w x.run [a, b] [])
    (hw : ∀ l, inMask x.run l = true → handleInUse x.s x.w.ctx (x.w.val l a) = true) (hk : ∀ r, x.w.kind ≠ .handler r) :
    handleOp s a b act = .next (trapNow s x.sel x.run 0x08 0 [x.word]) := by
  have hnone : lanesWhere x.run (fun l => !handleInUse x.s x.w.ctx (x.w.val l a)) = none :=
    lanesWhere_eq_none.2 (fun l hl => by rw [hw l hl]; rfl)
  unfold handleOp
  rw [issue_of h, checkRegs_ok hr]
  simp only [hnone]
  exact applyStop_trap h ..

/-- A handler's run of one lane acts on what is stopped under the handle of that lane, once the word is issued. -/
theorem handleOp_handler (h : Begins s (Info.plain 3) x) (hr : Ready x.w x.run [a, b] []) {r : Nat} (hk : x.w.kind = .handler r)
    (hone : x.run = oneLane x.lead) (hw : handleInUse x.s x.w.ctx (x.w.val x.lead a) = true) {t : State}
    (ht : act ((x.advance x.s x.wd (fun _ => x.next) false).updWarp x.w.id joinWaits) x.w.ctx (x.w.val x.lead a) (x.w.reg x.lead b) =
      .ok t) :
    handleOp s a b act = .next (stepTrap t x.w.id x.run x.sel.addr) := by
  have hlanes : lanesOf x.run = [x.lead] := (congrArg lanesOf hone).trans (lanesOf_oneLane (lead_lt x))
  have hnone : lanesWhere x.run (fun l => !handleInUse x.s x.w.ctx (x.w.val l a)) = none := by
    unfold lanesWhere
    simp [hlanes, hw]
  unfold handleOp
  rw [issue_of h, checkRegs_ok hr]
  simp only [hnone, hk, hlanes, actLanes, ht]

end

/-- Both words act on handles; only what becomes of the lanes differs. -/
theorem exec_returns {i : Nat → Nat → Instr} (hi : i ∈ [Instr.yResume, Instr.yKill]) (a b : Nat) :
    ∃ act, ∀ s, exec (i a b) s = handleOp s a b act := by
  simp only [List.mem_cons, List.not_mem_nil, or_false] at hi
  rcases hi with rfl | rfl
  · exact ⟨resumeLanes, exec_yResume⟩
  · exact ⟨killLanes, exec_yKill⟩

/-- A run of one lane whose handle stops no lane is the set of lanes that trap. -/
theorem lanesWhere_lead {x : Cx} (hone : x.run = oneLane x.lead) {p : Nat → Bool} (hp : p x.lead = true) :
    lanesWhere x.run p = some (x.run, x.lead) := by
  have hlanes : lanesOf x.run = [x.lead] := (congrArg lanesOf hone).trans (lanesOf_oneLane (lead_lt x))
  have hmask : maskOf (fun k => inMask x.run k && p k) = x.run := by
    refine mask_ext (fun l hl => ?_)
    rw [inMask_maskOf, hone, inMask_oneLane]
    cases hll : l == x.lead with
    | true => simp [eq_of_beq hll, hp]
    | false => simp
  unfold lanesWhere
  simp [hlanes, hp, hmask]

/-- Settles O31: each word acts as `resumeLanes` or `killLanes` on the lanes stopped under the handle, and its two traps come in the order of
log 38. -/
theorem handlerReturns : Obligations.HandlerReturns := by
  unfold Obligations.HandlerReturns
  intro a b s x hb
  have hs := begins_s hb
  subst hs
  refine ⟨fun r w hk hone hr hu hw => ⟨?resume, fun hs hc ho => ?kill⟩, fun i hi hr => ?traps⟩
  case resume =>
    exact handleOp_handler (hb) hr hk hone hu (resumeLanes_stopped hw _)
  case kill =>
    obtain ⟨t, ht, hmem, hwarp⟩ := killLanes_stopped hw hs hc ho (x.w.reg x.lead b)
    exact ⟨t, _, handleOp_handler hb hr hk hone hu ht, hmem, hwarp, fun l hl => exitLanes_lane w _ hl⟩
  case traps =>
    obtain ⟨act, he⟩ := exec_returns hi a b
    rw [he]
    exact ⟨fun hu hk => handleOp_notHandler hb hr hu hk,
      fun hone hu => handleOp_invalid hb hr (lanesWhere_lead hone (by simp [hu]))⟩

end Sys2Proof.Machine
end

section
/-! SUPPORT. Taking a trap (R146, R148): an equation for each way a trap goes, and the handler warp it starts. -/

namespace Sys2Proof.Machine

/-! ### The run that stops -/

/-- The warp with a run stopped under a handle, its group of hints gone. -/
def stopRun (w : Warp) (run : Mask) (pc : Pc) (h : Nat) : Warp :=
  { w.mapLanes run (fun _ x => { x with cond := .stopped h, pc := pc }) with group := [], groupRun := 0#32, groupReady := 0#32 }

@[simp] theorem stopRun_id (w : Warp) (run : Mask) (pc : Pc) (h : Nat) : (stopRun w run pc h).id = w.id := by rw [stopRun]; simp
@[simp] theorem stopRun_ctx (w : Warp) (run : Mask) (pc : Pc) (h : Nat) : (stopRun w run pc h).ctx = w.ctx := by rw [stopRun]; simp
@[simp] theorem stopRun_kind (w : Warp) (run : Mask) (pc : Pc) (h : Nat) : (stopRun w run pc h).kind = w.kind := by rw [stopRun]; simp
@[simp] theorem stopRun_place (w : Warp) (run : Mask) (pc : Pc) (h : Nat) : (stopRun w run pc h).place = w.place := by rw [stopRun]; simp
@[simp] theorem stopRun_regs (w : Warp) (run : Mask) (pc : Pc) (h : Nat) : (stopRun w run pc h).regs = w.regs := by rw [stopRun]; simp
@[simp] theorem stopRun_ops (w : Warp) (run : Mask) (pc : Pc) (h : Nat) : (stopRun w run pc h).ops = w.ops := by rw [stopRun]; simp

theorem stopRun_lanes (w : Warp) (run : Mask) (pc : Pc) (h : Nat) :
    (stopRun w run pc h).lanes = (w.mapLanes run (fun _ x => { x with cond := .stopped h, pc := pc })).lanes := by rw [stopRun]

theorem stopRun_lane (w : Warp) (run : Mask) (pc : Pc) (h : Nat) {l : Nat} (hl : l < 32) :
    (stopRun w run pc h).lane l = if inMask run l then { w.lane l with cond := .stopped h, pc := pc } else w.lane l := by
  rw [lane_congr (stopRun_lanes w run pc h), lane_mapLanes w run _ hl]

/-- The state with the run stopped and the handle given. -/
def stopUnder (s : State) (w : Warp) (run : Mask) (pc : Pc) (h : Nat) : State :=
  (s.setWarp (stopRun w run pc h)).updCtx w.ctx (fun c => { c with lastHandle := h })

/-! ### The ways a trap goes -/

section
variable {s : State} {wid : Nat} {w : Warp} {c : Ctx} {l : Launch}
variable (hw : s.warp? wid = some w) (hc : s.ctx? w.ctx = some c) (hl : s.launch? w.launch = some l)
variable (run : Mask) (pc : Pc) (lanes : Mask) (cause addr : Nat) (detail : List Nat)
include hw hc hl

/-- In a handler the context ends with NESTED_TRAP, its record logged (R148). -/
theorem takeTrap_nested {r : Nat} (hk : w.kind = .handler r) : takeTrap s wid run pc lanes cause addr detail =
    endContext (logEntry s w.ctx (recordWords cause 0 pc.toNat run lanes addr detail)) w.ctx
      (recordWords 0x0D 0 pc.toNat run lanes addr (cause :: detail)) := by
  unfold takeTrap
  simp only [hw, hc, hl, hk]

/-- With trap entry 0 the context ends with the record (R148). -/
theorem takeTrap_noEntry (hk : ∀ r, w.kind ≠ .handler r) (he : l.rec_.trapEntry = 0) : takeTrap s wid run pc lanes cause addr detail =
    endContext s w.ctx (recordWords cause 0 pc.toNat run lanes addr detail) := by
  unfold takeTrap
  simp only [hw, hc, hl, he, if_true]

/-- Else the run stops under the next handle and a handler starts with the record (R146). -/
theorem takeTrap_entry (hk : ∀ r, w.kind ≠ .handler r) (he : l.rec_.trapEntry ≠ 0) : ∃ die origin,
    takeTrap s wid run pc lanes cause addr detail =
      startHandler (stopUnder s w run pc (nextHandle s c)) (handlerWarp (stopUnder s w run pc (nextHandle s c)) l (nextHandle s c) die origin
        (recordWords cause (nextHandle s c) pc.toNat run lanes addr detail)) := by
  refine ⟨trapDie (stopUnder s w run pc (nextHandle s c)) (stopRun w run pc (nextHandle s c)),
    ((stopRun w run pc (nextHandle s c)).lane (leadOf run)).origin, ?_⟩
  unfold takeTrap stopUnder stopRun
  simp only [hw, hc, hl, he, if_false, mapLanes_ctx]

end


/-! ### The handler warp -/

theorem launch?_id {s : State} {i : Nat} {l : Launch} (h : s.launch? i = some l) : l.id = i := by
  have := List.find?_some h
  simpa using this

theorem recordWords_length (cause handle pc : Nat) (run lanes : Mask) (addr : Nat) (detail : List Nat) :
    (recordWords cause handle pc run lanes addr detail).length = 16 := by
  simp [recordWords]

/-- Changing the first element that a test finds keeps how many pass another test, where the change does. -/
theorem length_filter_updFirst {α : Type} {p q : α → Bool} {f : α → α} {l : List α} {x : α} (h : l.find? p = some x)
    (hq : q (f x) = q x) : ((updFirst p f l).filter q).length = (l.filter q).length := by
  induction l with
  | nil => cases h
  | cons y ys ih =>
    rw [List.find?_cons] at h
    unfold updFirst
    cases hy : p y with
    | true =>
      rw [hy] at h
      cases h
      simp [List.filter_cons, hq, apply_ite List.length]
    | false =>
      rw [hy] at h
      simp [List.filter_cons, apply_ite List.length, ih h]

/-- Stopping a run starts no handler and places none. -/
theorem waitingHandlers_stopUnder {s : State} {w : Warp} (hw : s.warp? w.id = some w) (run : Mask) (pc : Pc) (h ctx : Nat) :
    waitingHandlers (stopUnder s w run pc h) ctx = waitingHandlers s ctx := by
  unfold waitingHandlers stopUnder State.setWarp
  rw [State.updCtx_warps]
  refine length_filter_updFirst (x := w) ?_ ?_
  · simpa [State.warp?] using hw
  · simp

/-- A handler that is not the 1,024th to wait stands among the warps and nothing else happens (R149). -/
theorem startHandler_of_room {s : State} {v : Warp} (h : waitingHandlers s v.ctx < 1023) :
    startHandler s v = { s with warps := s.warps ++ [v], nextId := s.nextId + 1 } := by
  have hone : waitingHandlers { s with warps := s.warps ++ [v], nextId := s.nextId + 1 } v.ctx ≤ waitingHandlers s v.ctx + 1 := by
    unfold waitingHandlers
    rw [List.filter_append, List.length_append]
    exact Nat.add_le_add_left (List.length_filter_le _ [v]) _
  unfold startHandler
  rw [if_neg (by omega)]

section
variable (s : State) (l : Launch) (handle die : Nat) (origin : Option Nat) (words : List Nat)

@[simp] theorem handlerWarp_id : (handlerWarp s l handle die origin words).id = s.nextId := rfl
@[simp] theorem handlerWarp_ctx : (handlerWarp s l handle die origin words).ctx = l.ctx := rfl
@[simp] theorem handlerWarp_launch : (handlerWarp s l handle die origin words).launch = l.id := rfl
@[simp] theorem handlerWarp_kind : (handlerWarp s l handle die origin words).kind = .handler handle := rfl

/-- Lane 0 begins at the trap entry; no other lane exists (R15). -/
theorem handlerWarp_lane {k : Nat} (hk : k < 32) : (handlerWarp s l handle die origin words).lane k =
    if k = 0 then { Lane.start (BitVec.ofNat 56 l.rec_.trapEntry) 0 with origin := origin } else Lane.gone := by
  rw [lane_eq hk]
  simp [handlerWarp, freshWarp]

/-- The words of the record stand in lane 0, the first in v0. -/
theorem handlerWarp_reg {i : Nat} (hi : i < 16) (hn : i < words.length) :
    (handlerWarp s l handle die origin words).reg 0 i = BitVec.ofNat 32 (words.getD i 0) := by
  have halloc : i < max l.rec_.regs 16 := by omega
  simp [Warp.reg, handlerWarp, freshWarp, List.getD_eq_getElem?_getD, hi, hn, halloc, RegForm.get]

end

/-! ### The state after -/

section
variable {s : State} {w : Warp} {c : Ctx} (run : Mask) (pc : Pc) (h : Nat)

@[simp] theorem stopUnder_mem : (stopUnder s w run pc h).mem = s.mem := by rw [stopUnder]; simp
@[simp] theorem stopUnder_blocks : (stopUnder s w run pc h).blocks = s.blocks := by rw [stopUnder]; simp
@[simp] theorem stopUnder_launches : (stopUnder s w run pc h).launches = s.launches := by rw [stopUnder]; simp
@[simp] theorem stopUnder_mod : (stopUnder s w run pc h).mod = s.mod := by rw [stopUnder]; simp
@[simp] theorem stopUnder_nextId : (stopUnder s w run pc h).nextId = s.nextId := by rw [stopUnder]; simp

theorem stopUnder_ctx? (hc : s.ctx? w.ctx = some c) : (stopUnder s w run pc h).ctx? w.ctx = some { c with lastHandle := h } := by
  have hn : c.number = w.ctx := ctx?_number hc
  exact ctx?_updCtx (s := s.setWarp (stopRun w run pc h)) hc hn

theorem stopUnder_warp? (hw : s.warp? w.id = some w) : (stopUnder s w run pc h).warp? w.id = some (stopRun w run pc h) := by
  have hv : s.warp? (stopRun w run pc h).id = some w := by rw [stopRun_id, hw]
  have := warp?_setWarp hv
  rwa [stopRun_id] at this

/-- The next number is that of no warp where it lies above all. -/
theorem stopUnder_warp?_nextId (hid : w.id < s.nextId) (hids : ∀ v ∈ s.warps, v.id < s.nextId) :
    (stopUnder s w run pc h).warp? s.nextId = none := by
  unfold State.warp? stopUnder State.setWarp
  rw [State.updCtx_warps, List.find?_eq_none]
  intro v hv
  have hlt : v.id < s.nextId := by
    rcases mem_updFirst hv with hv | ⟨-, -, -, rfl⟩
    · exact hids v hv
    · rw [stopRun_id]; exact hid
  simpa using Nat.ne_of_lt hlt

end

/-- What R146 gives where a run of `w` traps, `t` being the state after: the run stands stopped under `h` and the handler `v`, of the
launch `l` and its context, holds the record. -/
structure TrapTaken (s t : State) (w : Warp) (l : Launch) (run : Mask) (pc : Pc) (lanes : Mask) (cause addr : Nat) (detail : List Nat)
    (h : Nat) (v : Warp) : Prop where
  handle : 0 < h ∧ h < 2 ^ 32
  unused : (∃ k, 0 < k ∧ k < 2 ^ 32 ∧ handleInUse s w.ctx k = false) → handleInUse s w.ctx h = false
  given : (t.ctx? w.ctx).map Ctx.lastHandle = some h
  mem : t.mem = s.mem
  blocks : t.blocks = s.blocks
  launches : t.launches = s.launches
  mod : t.mod = s.mod
  stopped : ∃ u, t.warp? w.id = some u ∧ u.regs = w.regs ∧ u.ops = w.ops ∧ ∀ k, k < 32 →
    u.lane k = if inMask run k then { w.lane k with cond := .stopped h, pc := pc } else w.lane k
  starts : t.warp? s.nextId = some v
  kind : v.kind = .handler h
  ctx : v.ctx = l.ctx
  launch : v.launch = w.launch
  ready : (v.lane 0).isReady = true
  entry : (v.lane 0).pc = BitVec.ofNat 56 l.rec_.trapEntry
  others : ∀ k, 0 < k → k < 32 → (v.lane k).isExited = true
  record : ∀ i, i < 16 → v.reg 0 i = BitVec.ofNat 32 ((recordWords cause h pc.toNat run lanes addr detail).getD i 0)

/-- Taking a trap with a trap entry, in every state with room for a handler of the launch's context. -/
theorem takeTrap_taken {s : State} {w : Warp} {c : Ctx} {l : Launch} (hw : s.warp? w.id = some w) (hc : s.ctx? w.ctx = some c)
    (hl : s.launch? w.launch = some l) (run : Mask) (pc : Pc) (lanes : Mask) (cause addr : Nat) (detail : List Nat)
    (hk : ∀ r, w.kind ≠ .handler r) (he : l.rec_.trapEntry ≠ 0) (hroom : waitingHandlers s l.ctx < 1023) (hid : w.id < s.nextId)
    (hids : ∀ v ∈ s.warps, v.id < s.nextId) :
    ∃ h v, TrapTaken s (takeTrap s w.id run pc lanes cause addr detail) w l run pc lanes cause addr detail h v := by
  obtain ⟨die, origin, ht⟩ := takeTrap_entry hw hc hl run pc lanes cause addr detail hk he
  set h := nextHandle s c
  set v := handlerWarp (stopUnder s w run pc h) l h die origin (recordWords cause h pc.toNat run lanes addr detail) with hv
  rw [startHandler_of_room (by rw [hv, handlerWarp_ctx, waitingHandlers_stopUnder hw]; exact hroom)] at ht
  have hfind : ∀ i, (takeTrap s w.id run pc lanes cause addr detail).warp? i =
      ((stopUnder s w run pc h).warp? i).or ([v].find? (fun x => x.id == i)) := fun i => by
    rw [ht]; exact List.find?_append
  have hctx : (takeTrap s w.id run pc lanes cause addr detail).ctx? w.ctx = some { c with lastHandle := h } := by
    rw [ht]; exact stopUnder_ctx? run pc h hc
  refine ⟨h, v, ?_⟩
  constructor
  case handle => exact nextHandle_range s c
  case unused => exact ctx?_number hc ▸ nextHandle_free
  case given => rw [hctx]; rfl
  case mem => rw [ht, stopUnder_mem]
  case blocks => rw [ht, stopUnder_blocks]
  case launches => rw [ht, stopUnder_launches]
  case mod => rw [ht, stopUnder_mod]
  case stopped =>
    refine ⟨stopRun w run pc h, ?_, stopRun_regs .., stopRun_ops .., fun k hk => stopRun_lane w run pc h hk⟩
    rw [hfind, stopUnder_warp? run pc h hw, Option.some_or]
  case starts =>
    rw [hfind, stopUnder_warp?_nextId run pc h hid hids]
    simp [hv]
  case kind => exact handlerWarp_kind ..
  case ctx => exact handlerWarp_ctx ..
  case launch => exact launch?_id hl
  case ready => rw [hv, handlerWarp_lane _ _ _ _ _ _ (by decide)]; rfl
  case entry => rw [hv, handlerWarp_lane _ _ _ _ _ _ (by decide)]; rfl
  case others =>
    intro k hk0 hk
    rw [hv, handlerWarp_lane _ _ _ _ _ _ hk, if_neg (Nat.ne_of_gt hk0)]
    rfl
  case record => exact fun i hi => handlerWarp_reg _ _ _ _ _ _ hi (by rwa [recordWords_length])

/-! ### A launch of another context -/

/-- The placed warp, of context 0, under a launch of context 1. Nothing that the statement assumes excludes it. -/
def strayLaunch : State := { placeWord State.reset 0 with launches := [{ placedLaunch with ctx := 1 }] }

/-- Refutes O33: a handler is of its launch's context, and no hypothesis says that it is the context of the warp that traps. Where
it is, `takeTrap_taken` is the first part of the statement, and `takeTrap_noEntry` and `takeTrap_nested` are the others. -/
theorem not_trapEntry : ¬ Obligations.TrapEntry := by
  unfold Obligations.TrapEntry
  intro hall
  have hw : strayLaunch.warp? 3 = some placedWarp := by decide +kernel
  have hc : strayLaunch.ctx? placedWarp.ctx = some placedCtx := by decide +kernel
  have hl : strayLaunch.launch? placedWarp.launch = some { placedLaunch with ctx := 1 } := by decide +kernel
  have hk : ∀ r, placedWarp.kind ≠ .handler r := nofun
  have he : placedLaunch.rec_.trapEntry ≠ 0 := by decide
  have hroom : waitingHandlers strayLaunch 0 < 1023 ∧ waitingHandlers strayLaunch 1 < 1023 := by decide +kernel
  have hids : ∀ v ∈ strayLaunch.warps, v.id < strayLaunch.nextId := by decide +kernel
  have hid : placedWarp.id < strayLaunch.nextId := hids _ (List.mem_of_find?_eq_some hw)
  obtain ⟨-, v, -, -, -, -, -, -, -, -, -, hv, -, hctx, -⟩ :=
    (hall strayLaunch 3 allLanes 0#56 allLanes 0 0 [] _ _ _ hw hc hl).1 hk he hroom.1 hid hids
  obtain ⟨_, v', htaken⟩ := takeTrap_taken hw hc hl allLanes 0#56 allLanes 0 0 [] hk he hroom.2 hid hids
  have hsame : v = v' := Option.some.inj (hv.symm.trans htaken.starts)
  have hone : v.ctx = 1 := hsame ▸ htaken.ctx
  exact absurd (hctx.symm.trans hone) (by decide)

end Sys2Proof.Machine
end

section
/-! SUPPORT. What a step runs (R19, R20, R42, R66): the turn taken, the run selected, the bytes fetched, and a word of the table placed
where the next step fetches. -/

namespace Sys2Proof.Machine

/-! ### Turns -/

theorem step_issue {s : State} {w : Nat} (h : nextTurn s = .issue w) :
    step s = runTurn (passClocks (popTurn s) 1) (turnWarp (passClocks (popTurn s) 1) w) := by
  unfold step
  rw [h]
  rfl

theorem step_event {s : State} {i : Instr} (h : nextTurn s = .event i) (he : encode i = none) :
    step s = exec i (passClocks (popTurn s) 1) := by
  unfold step
  rw [h]
  simp [isEvent, he, turnClocks]

theorem step_tick {s : State} {n : Nat} (h : nextTurn s = .tick n) : step s = .next (passClocks (popTurn s) n) := by
  unfold step
  rw [h]
  rfl

theorem runTurn_decoded {s t : State} {bytes : List Byte} {i : Instr} {rest : List Byte} (h : decodeBytes bytes = .ok (i, rest)) :
    runTurn s (.fetched t bytes) = exec i t := by
  unfold runTurn
  simp only [h]

theorem runTurn_undecoded {s t : State} {bytes : List Byte} {e : DecodeError} (h : decodeBytes bytes = .error e) :
    runTurn s (.fetched t bytes) = exec (.unallocatedWord (bytesToNat bytes)) t := by
  unfold runTurn
  simp only [h]

/-- Where no context is due to end, a passing clock changes the clock and what the hang detector counts, and nothing else. -/
theorem passClocks_kept {s : State} (n : Nat) (h : s.mod.doomed = []) :
    (passClocks s n).mod.clock = s.mod.clock + n ∧ (passClocks s n).warps = s.warps ∧ (passClocks s n).mem = s.mem ∧
      (passClocks s n).blocks = s.blocks := by
  unfold passClocks endDoomed markReady
  rw [h]
  exact ⟨rfl, rfl, rfl, rfl⟩

/-! ### The fetch -/

theorem turnWarp_fetched {s : State} {w : Warp} {run ready : Mask} {pc : Pc} {c : Ctx} {id : Nat} {bytes : List Byte} {t : State}
    (hw : s.warp? id = some w) (hm : mayIssue s w = true) (hr : selectRun w = some (run, ready, pc)) (hc : s.ctx? w.ctx = some c)
    (hf : fetchWord s c w (pc + BitVec.ofNat 56 (4 * w.group.length)).toNat = .ok (bytes, t)) :
    turnWarp s id = .fetched { t with cur := some {
      warp := id, run := run, ready := ready, first := pc, addr := pc + BitVec.ofNat 56 (4 * w.group.length)
      word := BitVec.ofNat 32 (bytesToNat bytes) } } bytes := by
  unfold turnWarp
  simp only [hw, hm, hr, hc, hf, if_true]

/-- What can be fetched can be read, at the same place. -/
theorem resolve_read_of_fetch {s : State} {c : Ctx} {blk : Option Nat} {kind va n : Nat} {p : Place}
    (h : resolve s c blk .fetch kind va n = .ok p) : resolve s c blk .read kind va n = .ok p := by
  unfold resolve at h ⊢
  split at h
  case isTrue => cases h
  case isFalse hva =>
  rw [if_neg hva]
  split at h
  case isTrue =>
    rw [if_pos (by rfl)] at h
    split at h <;> cases h
  case isFalse hwin =>
  rw [if_neg hwin]
  split at h
  case h_1 => cases h
  case h_2 => rw [if_pos (by rfl)] at h; cases h
  case h_3 l hl =>
  cases hx : l.x with
  | false => simp [hx] at h
  | true =>
    simpa [hx] using h

theorem ioTarget_ne_hbm (pa a : Nat) : ioTarget pa ≠ .hbm a := by
  unfold ioTarget
  extract_lets o
  split
  · nofun
  · split <;> nofun

/-- An access that leads to HBM under a leaf leads to where the page's frame has the byte. -/
theorem resolve_hbm {s : State} {c : Ctx} {blk : Option Nat} {acc : Access} {kind va n pa : Nat} {l : Leaf}
    (h : resolve s c blk acc kind va n = .ok ⟨.hbm pa, some l⟩) : framePlace c l va = pa := by
  unfold resolve at h
  dsimp only at h
  repeat' split at h
  all_goals simp only [Except.ok.injEq, Place.mk.injEq, Target.hbm.injEq, Option.some.injEq, reduceCtorEq, false_and, and_false] at h
  next => exact absurd h.1 (ioTarget_ne_hbm _ _)
  next =>
    obtain ⟨hp, rfl⟩ := h
    exact hp

/-- Reading bytes of a page that stands at its frame, with no update-only copy about, changes nothing. -/
theorem readChunk_hbm {s : State} {c : Ctx} {blk : Option Nat} {kind va n pa : Nat} {l : Leaf}
    (h : resolve s c blk .read kind va n = .ok ⟨.hbm pa, some l⟩) (hm : moveOf c l = none) (hl : s.lines = [])
    (hb : badAt s pa n = none) : readChunk s c blk kind va n = .ok (Memory.readN s.mem pa n, s) := by
  have hp : l.frame + (va - l.page) = pa := by simpa [framePlace, hm] using resolve_hbm h
  have hlines : ∀ line, mergeLine s line = s := fun line => by
    unfold mergeLine
    rw [hl]
    exact congrArg (fun ls => { s with lines := ls }) hl.symm
  unfold readChunk
  rw [h]
  simp [pullFails, pullLine, hm, hp, hlines, hb]

theorem natToBytes_readN (m : Memory) (a n : Nat) :
    natToBytes n (Memory.readN m a n) = (List.range n).map (fun i => Memory.read m (a + i)) := by
  induction n generalizing a with
  | zero => rfl
  | succ n ih =>
    have hlow : BitVec.ofNat 8 (Memory.readN m a (n + 1)) = Memory.read m a := by
      apply BitVec.eq_of_toNat_eq
      simp [Memory.readN, Nat.mod_eq_of_lt (Memory.read m a).isLt]
    have hhigh : Memory.readN m a (n + 1) / 256 = Memory.readN m (a + 1) n := by
      have := (Memory.read m a).isLt
      simp only [Memory.readN]
      omega
    rw [natToBytes, hlow, hhigh, ih, List.range_succ_eq_map]
    simp [Nat.add_assoc, Nat.add_comm 1]

/-- The word of a page of HBM that stands at its frame: its four bytes, and the state as it was (R42). -/
theorem fetchWord_hbm {s : State} {c : Ctx} {w : Warp} {va pa : Nat} {l : Leaf}
    (h : resolve s c w.block .fetch 0 va 4 = .ok ⟨.hbm pa, some l⟩) (hm : moveOf c l = none) (hl : s.lines = [])
    (hb : badAt s pa 4 = none) (hr : s.mod.reader = 0) (hbr : s.mod.brought = []) :
    fetchWord s c w va = .ok (natToBytes 4 (Memory.readN s.mem pa 4), s) := by
  have hread : readChunk (asReader s w.id) c w.block 0 va 4 = .ok (Memory.readN s.mem pa 4, asReader s w.id) :=
    readChunk_hbm (s := asReader s w.id) (resolve_read_of_fetch h) hm hl hb
  have hback : dropBrought (asReader s w.id) w.id = s := by
    unfold dropBrought asReader
    simp only [hbr, List.filter_nil]
    rw [← hr, ← hbr]
  unfold fetchWord
  rw [h]
  simp only [hread, hback]

/-! ### A word placed (log 14) -/

/-- The page tables of the placed context: those of `placedMem`, and no word. -/
def placedTables : Memory :=
  Memory.writeN (Memory.writeN (Memory.writeN (Memory.writeN (Memory.writeN [] 0x1000 8 0x2001) 0x2000 8 0x3001) 0x3000 8 0x4001)
    0x4000 8 0x5001) 0x5000 8 0x1003B

theorem placedTables_wf : Memory.wf placedTables = true := by decide +kernel

theorem placedMem_eq (w : Nat) : placedMem w = Memory.writeN placedTables 0x10000 4 w := by rw [placedMem, placedTables]

theorem readN_placedMem_word (w : Nat) : Memory.readN (placedMem w) 0x10000 4 = w % 2 ^ 32 := by
  rw [placedMem_eq, Memory.readN_writeN 4 placedTables_wf]
  norm_num

theorem readN_placedMem_table (w : Nat) {a n : Nat} (h : a + n ≤ 0x10000) :
    Memory.readN (placedMem w) a n = Memory.readN placedTables a n := by
  rw [placedMem_eq, Memory.readN_writeN_of_disjoint placedTables_wf 4 0x10000 w n a (.inl h)]

/-- The entry of the placed page. -/
def placedLeaf : Leaf where
  entryAddr := 0x5000
  page := 0
  size := 0x10000
  frame := 0x10000
  tgt := 0
  cache := 0
  rem := false
  sum := false
  trk := false
  cow := false
  x := true
  w := true
  p := true

theorem walk_placed (w : Nat) : walkFrom (placedMem w) 0 walkLevels 0x1000 = .leaf placedLeaf := by
  have same : walkFrom (placedMem w) 0 walkLevels 0x1000 = walkFrom placedTables 0 walkLevels 0x1000 := by
    have h1 := readN_placedMem_table w (a := 0x1000) (n := 8) (by decide)
    have h2 := readN_placedMem_table w (a := 0x2000) (n := 8) (by decide)
    have h3 := readN_placedMem_table w (a := 0x3000) (n := 8) (by decide)
    have h4 := readN_placedMem_table w (a := 0x4000) (n := 8) (by decide)
    have h5 := readN_placedMem_table w (a := 0x5000) (n := 8) (by decide)
    have e1 : Memory.readN placedTables 0x1000 8 = 0x2001 := by decide +kernel
    have e2 : Memory.readN placedTables 0x2000 8 = 0x3001 := by decide +kernel
    have e3 : Memory.readN placedTables 0x3000 8 = 0x4001 := by decide +kernel
    have e4 : Memory.readN placedTables 0x4000 8 = 0x5001 := by decide +kernel
    simp [walkFrom, walkLevels, bitsAt, bitAt, h1, h2, h3, h4, h5, e1, e2, e3, e4]
  exact same.trans (by decide +kernel)

/-- The state from which the placed word is fetched. -/
def placedTurn (w : Nat) : State := passClocks (popTurn (State.reset.withFetchWord 32 w)) 1

/-- The placed context once the first clock has passed. -/
def placedCtxNow : Ctx := { placedCtx with hangSince := 1 }

theorem placedTurn_mem (w : Nat) : (placedTurn w).mem = placedMem (w % 2 ^ 32) := rfl
theorem placedTurn_warp (w : Nat) : (placedTurn w).warp? 3 = some placedWarp := rfl
theorem placedTurn_ctx (w : Nat) : (placedTurn w).ctx? 0 = some placedCtxNow := rfl
theorem placedTurn_mayIssue (w : Nat) : mayIssue (placedTurn w) placedWarp = true := rfl

theorem selectRun_placed : selectRun placedWarp = some (allLanes, allLanes, 0#56) := by decide +kernel

theorem resolve_placed (w : Nat) :
    resolve (placedTurn w) placedCtxNow placedWarp.block .fetch 0 0 4 = .ok ⟨.hbm 0x10000, some placedLeaf⟩ := by
  have hw : walk (placedTurn w) placedCtxNow 0 = .leaf placedLeaf := walk_placed _
  unfold resolve
  rw [hw]
  rfl

theorem fetchWord_placed (w : Nat) :
    fetchWord (placedTurn w) placedCtxNow placedWarp 0 = .ok (natToBytes 4 (w % 2 ^ 32), placedTurn w) := by
  rw [fetchWord_hbm (resolve_placed w) rfl rfl rfl rfl rfl, placedTurn_mem, readN_placedMem_word, Nat.mod_mod]

/-- A word of the table, placed after reset, is what the next step runs. -/
theorem step_placed {w : Nat} {i : Instr} (h : decodeTableWord 32 w = some i) :
    ∃ t, step (State.reset.withFetchWord 32 w) = exec i t ∧ t.mem = placedMem (w % 2 ^ 32) ∧ t.cur.map Sel.run = some 0xFFFFFFFF#32 := by
  obtain ⟨rest, hd⟩ : ∃ rest, decodeBytes (natToBytes 4 (w % 2 ^ 32)) = .ok (i, rest) := by
    unfold decodeTableWord at h
    split at h
    case h_1 j rest hj => exact ⟨rest, by rw [hj, Option.some.inj h]⟩
    case h_2 => cases h
  have hturn := turnWarp_fetched (placedTurn_warp w) (placedTurn_mayIssue w) selectRun_placed (placedTurn_ctx w) (fetchWord_placed w)
  refine ⟨_, (step_issue (w := 3) rfl).trans ((congrArg (runTurn _) hturn).trans (runTurn_decoded hd)), placedTurn_mem w, rfl⟩

/-- Settles O59: a step is its turn, and the turn of a warp runs what its selected run fetches. -/
theorem stepRunsTheWord : Obligations.StepRunsTheWord := by
  unfold Obligations.StepRunsTheWord
  refine ⟨fun s w t bytes hn ht => ⟨fun i rest hd => ?decoded, fun e hd => ?undecoded⟩, fun s w t hn ht => ?unfetched,
    fun s w hn ht => ?idle, fun s i => step_event, fun s n => step_tick,
    fun s w run ready pc c id bytes t hw hm hr hc => turnWarp_fetched hw hm hr hc,
    fun s c w va pa l h hm hl hb hr hbr => ?fetch, fun s n => passClocks_kept n, fun w i => step_placed⟩
  case decoded => rw [step_issue hn, ht, runTurn_decoded hd]
  case undecoded => rw [step_issue hn, ht, runTurn_undecoded hd]
  case unfetched => rw [step_issue hn, ht, runTurn]
  case idle => rw [step_issue hn, ht, runTurn]
  case fetch => rw [fetchWord_hbm h hm hl hb hr hbr, natToBytes_readN]; rfl

end Sys2Proof.Machine
end

section
/-! SUPPORT. Counter waits (R33, R136 to R138): what a wait finds by its bounds, and the marks it clears. -/

namespace Sys2Proof.Machine

/-! ### What a wait finds (R137, R138) -/

section
variable {w : Warp} {below : List Nat}

theorem judgeWait_met (h : unretired w below = []) : judgeWait w below = .met := by
  unfold judgeWait
  simp [h]

theorem judgeWait_failed {o : Op} {f : OpFault} (h : (unretired w below).find? (fun o => o.state != .done) = some o)
    (hf : o.state = .failed f) : judgeWait w below = .failed o f := by
  unfold judgeWait
  simp only [h, hf]

/-- A wait goes on where an operation it names is left and the first that is not done is running. -/
theorem judgeWait_pending (h : unretired w below ≠ [])
    (hr : ∀ o, (unretired w below).find? (fun o => o.state != .done) = some o → o.state = .running) : judgeWait w below = .pending := by
  unfold judgeWait
  cases hf : (unretired w below).find? (fun o => o.state != .done) with
  | none => simp [h]
  | some o => simp only [hr o hf]

end

/-! ### The marks a wait clears (R33, log 15) -/

@[simp] theorem clearMarks_id (w : Warp) (below : List Nat) : (clearMarks w below).id = w.id := by rw [clearMarks]; simp
@[simp] theorem clearMarks_ctx (w : Warp) (below : List Nat) : (clearMarks w below).ctx = w.ctx := by rw [clearMarks]; simp
@[simp] theorem clearMarks_regs (w : Warp) (below : List Nat) : (clearMarks w below).regs = w.regs := by rw [clearMarks]; simp
@[simp] theorem clearMarks_marks (w : Warp) (below : List Nat) :
    (clearMarks w below).marks = w.marks.filter (fun m => decide (below.getD 0 0 ≤ m.seq)) := by rw [clearMarks]; simp

/-- A register stays pending where a load at or above the bound marks it. -/
theorem isPending_clearMarks (w : Warp) (below : List Nat) (k n : Nat) : (clearMarks w below).isPending k n =
    w.marks.any (fun q => q.reg == n && inMask q.lanes k && decide (below.getD 0 0 ≤ q.seq)) := by
  unfold Warp.isPending
  rw [clearMarks_marks, List.any_filter]
  exact congrArg w.marks.any (funext fun q => Bool.and_comm ..)

/-- An entry keeps its value; it stays pending where its load is at or above the bound. -/
theorem pred_clearMarks (w : Warp) (below : List Nat) {k : Nat} (hk : k < 32) (j : Nat) :
    ((clearMarks w below).lane k).pred j = { (w.lane k).pred j with pend := match ((w.lane k).pred j).pend with
      | some n => if n < below.getD 0 0 then none else some n
      | none => none } := by
  have hlane : ((clearMarks w below).lane k).pred j = (match ((w.lane k).pred j).pend with
      | some n => if n < below.getD 0 0 then { (w.lane k).pred j with pend := none } else (w.lane k).pred j
      | none => (w.lane k).pred j) := by
    unfold clearMarks
    rw [lane_mapLanes _ _ _ hk, inMask_allLanes hk, if_pos rfl]
    simp only [Lane.pred, Vector.getElem_map]
    rfl
  rw [hlane]
  cases hp : ((w.lane k).pred j).pend with
  | none => simp [← hp]
  | some n =>
    by_cases hn : n < below.getD 0 0
    · simp only [if_pos hn]
    · simp only [if_neg hn, ← hp]

/-! ### `c.wait` -/

section
variable {s : State} {x : Cx} {l st c m : Nat} (h : Begins s (Info.plain 3) x)
include h

theorem cWait_met (hw : judgeWait x.w (waitBounds x.w l st c m) = .met) :
    x.Completes (.cWait l st c m) x.s (clearMarks x.wd (waitBounds x.w l st c m)) := by
  refine completes_of h (by rw [clearMarks_id, wd_id h]) (by rw [clearMarks_ctx, wd_ctx h]) ((exec_cWait s).trans (issue_next h ?_))
  simp only [hw]

theorem cWait_failed {o : Op} {f : OpFault} (hw : judgeWait x.w (waitBounds x.w l st c m) = .failed o f) :
    exec (.cWait l st c m) x.s =
      .next (trapNow (retireFailed x.s x.w.id o) x.sel (faultLanes f x.run) f.cause f.addr f.detail) := by
  rw [exec_cWait, begins_s h]
  refine issue_next h ?_
  simp only [hw, begins_s h]

theorem cWait_pending (hw : judgeWait x.w (waitBounds x.w l st c m) = .pending) :
    exec (.cWait l st c m) x.s = .next (x.wait x.s x.wd (.counters (waitBounds x.w l st c m) [l, st, c, m])) := by
  rw [exec_cWait, begins_s h]
  refine issue_next h ?_
  simp only [hw, begins_s h]

end

/-- Settles O26: the wait is judged by the operations that its bounds name, and does what each judgement says. -/
theorem counterWaits : Obligations.CounterWaits := by
  unfold Obligations.CounterWaits
  intro l st c m s x h
  refine ⟨fun hn => ⟨_, cWait_met h (judgeWait_met hn), clearMarks_regs .., fun k _ n => isPending_clearMarks .., fun k hk j _ => ?_⟩,
    fun o f ho hf => cWait_failed h (judgeWait_failed ho hf), fun hn hr => cWait_pending h (judgeWait_pending hn hr)⟩
  rw [pred_clearMarks _ _ hk]
  exact ⟨rfl, rfl⟩

end Sys2Proof.Machine
end

section
/-! SUPPORT. `c.exit` (R142, R241): what it does once the spawn-tree count has followed, and a run of no lane, for which no count is read. -/

namespace Sys2Proof.Machine

/-- Where the context of the warp is not under step control nothing stops after an instruction (R150). -/
theorem stepTrap_still {s : State} {wid : Nat} (h : ∀ w c, s.warp? wid = some w → s.ctx? w.ctx = some c → c.stepping = false)
    (lanes : Mask) (addr : Pc) : stepTrap s wid lanes addr = s := by
  unfold stepTrap
  cases hw : s.warp? wid with
  | none => rfl
  | some w =>
    cases hc : s.ctx? w.ctx with
    | none => simp only [hc]
    | some c => simp [hc, h w c hw hc]

/-- Where no context is under step control, an issue leaves the update-only lines of the cores alone. -/
theorem finish_lines (x : Cx) {s : State} (h : ∀ c ∈ s.ctxs, c.stepping = false) (w : Warp) (pc : Nat → Pc) (yielded : Bool) :
    (x.finish s w pc yielded).lines = s.lines := by
  unfold Cx.finish
  rw [stepTrap_still (fun v c _ hc => h c ?_), State.updWarp_lines, advance_eq, State.setWarp]
  rw [State.ctx?, State.updWarp_ctxs, advance_eq] at hc
  simpa using List.mem_of_find?_eq_some hc

/-- `c.exit` where no failure is to be reported and the count has followed. -/
theorem cExit_counted {s u : State} {x : Cx} (h : Begins s (Info.plain 3) x) (hf : x.w.live &&& ~~~x.run ≠ 0#32 ∨ firstFault x.w = none)
    (hu : countExits x.s x.w x.run = .ok u) :
    exec .cExit x.s = .next (x.finish u (exitLanes (syncWaits u x.wd) x.run) (fun l => (x.w.lane l).pc) false) := by
  have hno : (if x.w.live &&& ~~~x.run = 0#32 then firstFault x.w else none) = none := by
    rcases hf with hl | hf
    · rw [if_neg hl]
    · rw [hf, ite_self]
  rw [exec_cExit, begins_s h]
  refine issue_next h ?_
  simp only [hno, hu]

/-- No lane exits: the count stays where it is, and where it is held is not looked at. -/
theorem countUpdate_zero {s : State} {lid : Nat} (up : Bool) : countUpdate s lid up 0 = .ok s := by
  unfold countUpdate
  cases s.launch? lid with
  | none => rfl
  | some l => simp

theorem countExits_none {s : State} {w : Warp} {m : Mask} (h : m &&& w.live = 0#32) : countExits s w m = .ok s := by
  unfold countExits
  rw [h, (lanesOf_eq_nil 0#32).2 rfl, List.length_nil, countUpdate_zero, ite_self]

/-! ### A run of no lane -/

/-- The placed warp as a SEED warp, whose launch counts in the word at 0x100. -/
def countedWarp : Warp := { placedWarp with kind := .seed, block := none }

def countedLaunch : Launch := { placedLaunch with kind := .seed, rec_ := { placedLaunch.rec_ with spawnCtr := 0x100 } }

/-- The selection of no lane. -/
def noLanes : Sel := { warp := 3, run := 0#32, ready := 0#32, first := 0#56, addr := 0#56, word := 0#32 }

/-- The counting warp, a core's update-only copy of the line that holds the count, and a run of no lane at issue. -/
def emptyRun : State :=
  { placeWord State.reset 0 with
    launches := [countedLaunch], warps := [countedWarp], lines := [{ core := 0, line := 0x10100 / 128, parts := [] }], cur := some noLanes }

def emptyRunCx : Cx where
  s := emptyRun
  w := countedWarp
  wd := countedWarp
  c := placedCtx
  l := countedLaunch
  sel := noLanes
  hints := Hints.none
  act := 0#32

theorem begins_emptyRun : Begins emptyRun (Info.plain 3) emptyRunCx := by
  unfold Begins
  decide +kernel

/-- The same with the copy brought home. -/
def mergedRun : State := { emptyRun with lines := [] }

/-- Reading the count brings the copy of its line home, and the count written back is what it was. -/
theorem count_emptyRun : readMem emptyRun 0 none 0 0x100 8 = .ok (List.replicate 8 0, mergedRun) ∧
    writeWord64 mergedRun 0 0x100 0 = .ok mergedRun := by
  decide +kernel

/-- Refutes O29: no hypothesis says that the run has a lane. A run of none takes nothing off the count, so the word at SPAWNCTR is neither read
nor written, and a copy of its line stays on its core; the statement has it brought home. -/
theorem not_otherControl : ¬ Obligations.OtherControl := by
  unfold Obligations.OtherControl
  intro hall
  obtain ⟨-, -, -, -, hcounts, -⟩ := hall emptyRun emptyRunCx begins_emptyRun
  obtain ⟨hread, hwrite⟩ := count_emptyRun
  have hown : ¬(countedLaunch.kind = .reseed ∨ (∃ g, countedLaunch.kind = .relaunch g) ∨ countedLaunch.rec_.spawnCtr = 0) := by
    rintro (h | ⟨g, h⟩ | h) <;> cases h
  obtain ⟨w', hexit, -⟩ := (hcounts (by decide) (.inl (by decide +kernel))).2 hown (by decide) _ _ _ hread (by decide +kernel) hwrite
  have hno : noLanes.run &&& countedWarp.live = 0#32 := BitVec.zero_and
  have hstays := cExit_counted begins_emptyRun (.inl (by decide +kernel)) (countExits_none hno)
  have hsame := congrArg State.lines (Host.Outcome.next.inj (hstays.symm.trans hexit))
  have hstill : ∀ c ∈ [placedCtx], c.stepping = false := by decide
  rw [finish_lines _ hstill, finish_lines _ hstill] at hsame
  exact absurd hsame (by decide)

end Sys2Proof.Machine
end

section
/-! SUPPORT. The tag map as a special register (R40, R363): it is read at the state of the issue. -/

namespace Sys2Proof.Machine

/-- SR.TAGS reads the map of the warp's core in the state of the issue, whatever state the other registers are read at. -/
theorem srValue_tags (s : State) (x : Cx) (l : Nat) : srValue s x 35 l = (tagMap x.c ((homeCore x.s x.w).getD 0)).toNat := by
  unfold srValue
  rfl

/-! ### A state that is not the state of the issue -/

/-- The placed block on core 1, and nothing else. -/
def blockElsewhere : State := { State.reset with blocks := [{ placedBlock with core := 1 }] }

/-- The placed warp with no place at an issue in a state that holds no block; tag 0 of its context is clear on core 1 alone. -/
def issueElsewhere : Cx where
  s := State.reset
  w := { placedWarp with place := none }
  wd := { placedWarp with place := none }
  c := { placedCtx with tagsClear := [(1, 1#64)] }
  l := placedLaunch
  sel := { warp := 3, run := allLanes, ready := allLanes, first := 0#56, addr := 0#56, word := 0#32 }
  hints := Hints.none
  act := allLanes

/-- Refutes O30: the clause on the tag map takes the warp's core from a state `s` that no hypothesis ties to the issue `x`, while the register
takes it from `x.s`. Where the two put the warp's block on different cores, they give different maps. -/
theorem not_specialRegisters : ¬ Obligations.SpecialRegisters := by
  unfold Obligations.SpecialRegisters
  rintro ⟨hall, -⟩
  obtain ⟨-, -, -, -, -, -, -, htags, -⟩ := hall blockElsewhere issueElsewhere 0
  rw [srValue_tags] at htags
  exact absurd htags (by decide +kernel)

end Sys2Proof.Machine
end

section
/-! SUPPORT. The waits of a warp that end (R18, R136 to R141, R171, R196, R197, R342): the run that goes on, and one lemma for each event. -/

namespace Sys2Proof.Machine

/-! ### The run that goes on -/

theorem wakeRun_lane (w : Warp) (run : Mask) (pc : Pc) {l : Nat} (h : l < 32) :
    (wakeRun w run pc).lane l = if inMask run l then { w.lane l with cond := .ready, pc := pc } else w.lane l :=
  lane_mapLanes w run _ h

theorem endWait_warp? {s : State} {wid : Nat} {w : Warp} (hw : s.warp? wid = some w) (run : Mask) (pc : Pc) :
    (endWait s wid run pc).warp? wid = some (joinWaits (wakeRun w run pc)) :=
  warp?_updWarp hw (by rw [joinWaits_id, wakeRun, mapLanes_id, warp?_id hw])

theorem endWait_warp?_other (s : State) {wid j : Nat} (run : Mask) (pc : Pc) (h : j ≠ wid) :
    (endWait s wid run pc).warp? j = s.warp? j :=
  warp?_updWarp_other s wid _ (fun w => by rw [joinWaits_id, wakeRun, mapLanes_id]) h

theorem endWait_rest (s : State) (wid : Nat) (run : Mask) (pc : Pc) : { endWait s wid run pc with warps := s.warps } = s := by
  rw [endWait, State.updWarp]

theorem joinWaits_wakeRun_rest (w : Warp) (run : Mask) (pc : Pc) : { joinWaits (wakeRun w run pc) with lanes := w.lanes } = w := by
  rw [joinWaits, wakeRun, Warp.mapLanes, Warp.mapLanes]

theorem joinWaits_pc (w : Warp) {l : Nat} (h : l < 32) : ((joinWaits w).lane l).pc = (w.lane l).pc := by
  have := congrArg Lane.pc (joinWaits_kept w h).1
  simpa only using this

theorem joinWaits_preds (w : Warp) {l : Nat} (h : l < 32) : ((joinWaits w).lane l).preds = (w.lane l).preds := by
  have := congrArg Lane.preds (joinWaits_kept w h).1
  simpa only using this

/-- A lane of the run is at `pc` and no stack changes; where none waits besides the run, its lanes are ready and no other lane's condition
changes. -/
theorem endWait_lane (w : Warp) (run : Mask) (pc : Pc) {k : Nat} (hk : k < 32) :
    ((joinWaits (wakeRun w run pc)).lane k).pc = (if inMask run k then pc else (w.lane k).pc) ∧
      ((joinWaits (wakeRun w run pc)).lane k).preds = (w.lane k).preds ∧
      ((∀ j, j < 32 → inMask run j = false → (w.lane j).isWaiting = false) →
        ((joinWaits (wakeRun w run pc)).lane k).cond = if inMask run k then .ready else (w.lane k).cond) := by
  refine ⟨?_, ?_, fun hno => ?_⟩
  · rw [joinWaits_pc _ hk, wakeRun_lane w run pc hk]
    split <;> rfl
  · rw [joinWaits_preds _ hk, wakeRun_lane w run pc hk]
    split <;> rfl
  · have hstill : ∀ j, j < 32 → ((wakeRun w run pc).lane j).isWaiting = false := by
      intro j hj
      rw [wakeRun_lane w run pc hj]
      split
      · rfl
      next hm => exact hno j hj (Bool.not_eq_true _ ▸ hm)
    rw [joinWaits_none hstill hk, wakeRun_lane w run pc hk]
    split <;> rfl

/-- Without step control a wait that completes its instruction ends as any other. -/
theorem completeWait_still {s : State} {wid : Nat} {w : Warp} {c : Ctx} (hw : s.warp? wid = some w) (hc : s.ctx? w.ctx = some c)
    (hs : c.stepping = false) (run : Mask) (pc : Pc) : completeWait s wid run pc = endWait s wid run pc := by
  refine stepTrap_still (fun v d hv hd => ?_) _ _
  obtain rfl := Option.some.inj ((endWait_warp? hw run pc).symm.trans hv)
  rw [joinWaits_ctx, wakeRun, mapLanes_ctx] at hd
  obtain rfl := Option.some.inj (hc.symm.trans hd)
  exact hs

theorem awakeWarp?_warp {s : State} {wid : Nat} {w : Warp} (h : s.awakeWarp? wid = some w) : s.warp? wid = some w :=
  (Option.filter_eq_some_iff.1 h).1

/-! ### The events -/

section
variable {s : State} {wid lane : Nat} {w : Warp} {next : Pc} {since : Nat}
variable (hw : s.awakeWarp? wid = some w)
include hw

theorem waitComplete_met {below l : List Nat} (hl : (w.lane lane).cond = .waiting (.counters below l) next since)
    (hj : judgeWait w below = .met) : exec (.waitComplete wid lane) s =
      .next (completeWait (s.updWarp wid (fun w => clearMarks w below)) wid (waitingRun w lane) next) := by
  rw [exec_waitComplete, execWaitComplete, hw]
  simp only [hl, hj]

theorem waitComplete_failed {below l : List Nat} {o : Op} {f : OpFault}
    (hl : (w.lane lane).cond = .waiting (.counters below l) next since) (hj : judgeWait w below = .failed o f) :
    exec (.waitComplete wid lane) s = .next (takeFault s wid (waitingRun w lane) (w.lane lane).pc o f) := by
  rw [exec_waitComplete, execWaitComplete, hw]
  simp only [hl, hj]

theorem waitComplete_barrier {sc id ph : Nat} {sync : Bool} {b : Bar}
    (hl : (w.lane lane).cond = .waiting (.barrier sc id ph sync) next since) (hb : barOf s w sc id = some b) (hph : ph < b.phase) :
    exec (.waitComplete wid lane) s = .next (completeWait
      (s.updWarp wid (fun v => v.mapLanes (waitingRun w lane) (fun _ y => y.dropArrival sc id))) wid (waitingRun w lane) next) := by
  rw [exec_waitComplete, execWaitComplete, hw]
  simp only [hl, hb, if_pos hph]

theorem waitComplete_full {k : Nat} (hl : (w.lane lane).cond = .waiting (.full k) next since) (hk : w.outstanding k < 63) :
    exec (.waitComplete wid lane) s = .next (endWait s wid (waitingRun w lane) (w.lane lane).pc) := by
  rw [exec_waitComplete, execWaitComplete, hw]
  simp only [hl, if_pos hk]

theorem waitComplete_relaunch (hl : (w.lane lane).cond = .waiting .relaunch next since)
    (hq : (queuedRelaunches s w.ctx).length < 16) (ho : orderAt s w s.nextId true true = true) :
    exec (.waitComplete wid lane) s = .next (endWait s wid (waitingRun w lane) (w.lane lane).pc) := by
  rw [exec_waitComplete, execWaitComplete, hw]
  simp [hl, hq, ho]

theorem monitorWake_hit {op addr n v : Nat} (hop : op ≠ 16) (hl : (w.lane lane).cond = .waiting (.monitor op addr n v true) next since) :
    exec (.monitorWake wid lane) s = .next (completeWait s wid (waitingRun w lane) next) := by
  rw [exec_monitorWake, execMonitorWake, hw]
  simp only [hl, if_neg hop]

variable {c : Ctx} (hc : s.ctx? w.ctx = some c)
include hc

theorem tagWaitComplete_met {all : Bool} {mask : DWord} (hl : (w.lane lane).cond = .waiting (.tags all mask) next since)
    (ht : tagsMet all mask (tagsOf s c w) = true) :
    exec (.tagWaitComplete wid lane) s = .next (completeWait s wid (waitingRun w lane) next) := by
  rw [exec_tagWaitComplete, execTagWaitComplete, hw]
  simp only [hc, hl, if_pos ht]

theorem monitorReread_holds {op addr n v slice : Nat} {hit : Bool} (hl : (w.lane lane).cond = .waiting (.monitor op addr n v hit) next since)
    (hs : monitorSlice s c w (w.lane lane) = some slice) (hmany : 128 < sliceMonitors s slice since)
    (hgood : ∀ k a d, readChunk s c w.block 0 addr n ≠ .error (.bad k a d))
    (hcond : hit = true ∨ op % 8 = 6 ∨ monitorHolds op n (wordNow s c w.block addr n) v = true) :
    exec (.monitorReread wid lane) s = .next (completeWait s wid (waitingRun w lane) next) := by
  have hb : (hit || op % 8 == 6 || monitorHolds op n (wordNow s c w.block addr n) v) = true := by
    simpa [Bool.or_eq_true, or_assoc] using hcond
  rw [exec_monitorReread, execMonitorReread, hw]
  simp only [hc, hl, hs, if_neg (Nat.not_le.2 hmany), if_pos hb]

theorem pageWaitRetry_ready {vas : List Nat} (hl : (w.lane lane).cond = .waiting (.pages vas) next since)
    (hp : pagesReady s c vas = true) :
    exec (.pageWaitRetry wid lane) s = .next (endWait s wid (waitingRun w lane) (w.lane lane).pc) := by
  rw [exec_pageWaitRetry, execPageWaitRetry, hw]
  simp only [hc, hl, if_pos hp]

end

/-- A tag wait's condition as R139 has it. -/
theorem tagsMet_iff {all : Bool} {mask tags : DWord} :
    tagsMet all mask tags = true ↔ if all then tags &&& mask = mask else mask = 0#64 ∨ tags &&& mask ≠ 0#64 := by
  unfold tagsMet
  cases all <;> simp

/-- Settles O42: each event does what its lemma says, and without step control the run goes on as `endWait` has it. -/
theorem waitsEnd : Obligations.WaitsEnd := by
  unfold Obligations.WaitsEnd
  refine ⟨fun s wid lane w c next since ha hc hs => ?_, fun s wid w run pc hw => ?frame⟩
  case frame =>
    exact ⟨endWait_rest s wid run pc, fun j hj => endWait_warp?_other s run pc hj, _, endWait_warp? hw run pc,
      joinWaits_wakeRun_rest w run pc, fun k hk => endWait_lane w run pc hk⟩
  have hw := awakeWarp?_warp ha
  have still : ∀ run pc, completeWait s wid run pc = endWait s wid run pc := completeWait_still hw hc hs
  have after : ∀ {f : Warp → Warp}, (∀ v, (f v).id = v.id) → (∀ v, (f v).ctx = v.ctx) → ∀ run pc,
      completeWait (s.updWarp wid f) wid run pc = endWait (s.updWarp wid f) wid run pc := fun hid hctx =>
    completeWait_still (warp?_updWarp hw ((hid w).trans (warp?_id hw))) ((congrArg s.ctx? (hctx w)).trans hc) hs
  refine ⟨fun below l hl => ⟨fun hn => ?met, fun o f ho hf => waitComplete_failed ha hl (judgeWait_failed ho hf)⟩,
    fun sc id ph sync b hl hb hph => ?barrier, fun k hl hk => waitComplete_full ha hl hk, fun hl hq ho => waitComplete_relaunch ha hl hq ho,
    fun all mask hl ht => ?tags, fun op addr n v hop hl => ?monitor, fun op addr n v hit slice hl hsl hm hg hh => ?reread,
    fun vas hl hp => pageWaitRetry_ready ha hc hl hp⟩
  case met => rw [waitComplete_met ha hl (judgeWait_met hn), after (fun v => clearMarks_id v below) (fun v => clearMarks_ctx v below)]
  case barrier => rw [waitComplete_barrier ha hl hb hph, after (fun v => mapLanes_id v _ _) (fun v => mapLanes_ctx v _ _)]
  case tags => rw [tagWaitComplete_met ha hc hl (tagsMet_iff.2 ht), still]
  case monitor => rw [monitorWake_hit ha hop hl, still]
  case reread => rw [monitorReread_holds ha hc hl hsl hm hg hh, still]

end Sys2Proof.Machine
end

section
/-! SUPPORT. The issue of an operation with one part a lane (R62, R136, R177), and the loads (R181 to R184). -/

namespace Sys2Proof.Machine

/-! ### The checks on the lanes' accesses (R177) -/

theorem worst_eq_none {errs : List (Nat × Nat × AccErr)} (h : worst errs = none) : errs = [] := by
  cases errs with
  | nil => rfl
  | cons x xs =>
    unfold worst at h
    split at h
    · cases h
    · split at h <;> cases h

theorem stopOfLanes_eq_none {errs : List (Nat × Nat × AccErr)} (h : stopOfLanes errs = none) : errs = [] := by
  unfold stopOfLanes at h
  split at h
  case h_1 hw => exact worst_eq_none hw
  case h_2 => split at h <;> cases h

/-- Where every lane's access is judged good there is one place for each lane, in order. -/
theorem judgeLanes_lanes {s : State} {c : Ctx} {blk : Option Nat} {f : Form} {op size : Nat} {addr : Nat → Nat} {m : Mask}
    {places : List (Nat × Place)} (h : judgeLanes s c blk f op size addr m = .ok places) : places.map Prod.fst = lanesOf m := by
  unfold judgeLanes at h
  extract_lets judged errs at h
  split at h
  case h_1 => cases h
  case h_2 hstop =>
  have hgood : ∀ l ∈ lanesOf m, ∃ p, judge s c blk f op (addr l) size = .ok p := by
    intro l hl
    cases hj : judge s c blk f op (addr l) size with
    | ok p => exact ⟨p, rfl⟩
    | error e =>
      have hmem : (l, errRank (addr l) e, e) ∈ errs := List.mem_filterMap.2 ⟨(l, .error e), List.mem_map.2 ⟨l, hl, by rw [hj]⟩, rfl⟩
      rw [stopOfLanes_eq_none hstop] at hmem
      cases hmem
  split at h
  case h_1 => cases h
  case h_2 =>
  obtain rfl := Except.ok.inj h
  clear h hstop
  rw [List.map_filterMap, List.filterMap_map, List.filterMap_congr (g := some) ?_, List.filterMap_some]
  intro l hl
  obtain ⟨p, hp⟩ := hgood l hl
  simp [hp]

/-! ### Issuing an operation (R136) -/

section
variable (x : Cx) (w : Warp) (k : Nat) (kind : OpKind) (scope : Nat) (dsts : List Nat) (lanes : Mask)

theorem issueOp_parts {parts : List Part} (h : parts ≠ []) : x.issueOp w k kind parts scope dsts lanes =
    x.done (numbered x.s) (issuedOp x w k kind parts scope none .running dsts lanes) := by
  unfold Cx.issueOp
  rw [if_neg (by simpa using h)]
  rfl

theorem issueOp_noParts : x.issueOp w k kind [] scope dsts lanes =
    retireAll (x.done (numbered x.s) (issuedOp x w k .none [] scope none .done [] 0#32)) w.id k := by
  unfold Cx.issueOp addOp numbered issuedOp
  simp

@[simp] theorem issuedOp_id (parts : List Part) (tag : Option Nat) (st : OpState) :
    (issuedOp x w k kind parts scope tag st dsts lanes).id = w.id := rfl
@[simp] theorem issuedOp_ctx (parts : List Part) (tag : Option Nat) (st : OpState) :
    (issuedOp x w k kind parts scope tag st dsts lanes).ctx = w.ctx := rfl

end

/-- A word whose meaning ends in an operation with a part for each lane of a set, which is empty where no lane is active. -/
theorem issuesOp_of {s : State} {i : Info} {x : Cx} {word : Instr} {w : Warp} {k : Nat} {kind : OpKind} {parts : List Part} {scope : Nat}
    {dsts : List Nat} {lanes : Mask} (h : Begins s i x) (hid : w.id = x.w.id) (hctx : w.ctx = x.w.ctx) (hp : parts = [] ↔ x.act = 0#32)
    (he : exec word s = .next (x.issueOp w k kind parts scope dsts lanes)) : x.IssuesOp word w k kind parts scope dsts lanes := by
  rw [← begins_s h] at he
  refine ⟨fun ha => ⟨?_, fun hs => ?_⟩, fun ha => ?_⟩
  · rw [he, issueOp_parts x w k kind scope dsts lanes (mt hp.1 ha)]
  · obtain ⟨v, hv⟩ := begins_warp h
    exact finish_issued (s := numbered x.s) (v := v) (c := x.c) _ false hv hid ((congrArg x.s.ctx? hctx).trans (begins_ctx h)) hs
  · rw [he, hp.2 ha, issueOp_noParts]

/-- One part for each lane: there is none where the set of lanes is empty. -/
theorem partsFor_eq_nil {s : State} {c : Ctx} {blk : Option Nat} {f : Form} {op size : Nat} {addr : Nat → Nat} {m : Mask}
    {places : List (Nat × Place)} (h : judgeLanes s c blk f op size addr m = .ok places) (n : Nat) (data expect : Nat → Nat) :
    partsFor places addr n data expect = [] ↔ m = 0#32 := by
  rw [partsFor, List.map_eq_nil_iff, ← List.map_eq_nil_iff (f := Prod.fst), judgeLanes_lanes h, lanesOf_eq_nil]

theorem holdFull_ok {w : Warp} {k : Nat} (h : w.outstanding k < 63) : holdFull w k = .ok () := by
  unfold holdFull
  rw [if_neg (Nat.not_le.2 h)]

/-! ### Loads -/

@[simp] theorem pushPending_id (w : Warp) (m : Mask) (seq : Nat) : (pushPending w m seq).id = w.id := by rw [pushPending]; simp
@[simp] theorem pushPending_ctx (w : Warp) (m : Mask) (seq : Nat) : (pushPending w m seq).ctx = w.ctx := by rw [pushPending]; simp

/-- The loads in each active lane (R181 to R183). -/
theorem loadOp_issues {s : State} {i : Info} {x : Cx} {word : Instr} {z d a o : Nat} {pr acq : Bool} {places : List (Nat × Place)}
    (h : Begins s i x) (he : exec word s = loadOp s i z d a o pr acq) (hr : Ready x.w x.act [a, a + 1] (sizeRegs d (sizeBytes z)))
    (hj : judgeLanes x.s x.c x.w.block .load 0 (sizeBytes z) (x.addr a (byteOffset x.hints o (sizeBytes z))) x.act = .ok places)
    (hf : x.w.outstanding 0 < 63) :
    x.IssuesOp word (if pr then pushPending x.wd x.act (x.w.issuedOn 0) else x.wd) 0
      (.load d (sizeBytes z) (decide (z ≥ 5)) false pr (if acq then some x.scope else none))
      (partsFor places (x.addr a (byteOffset x.hints o (sizeBytes z))) (sizeBytes z) (fun _ => 0) (fun _ => 0)) x.scope
      (sizeRegs d (sizeBytes z)) x.act := by
  have hid : (if pr then pushPending x.wd x.act (x.w.issuedOn 0) else x.wd).id = x.w.id := by
    rw [← wd_id h]; split <;> simp
  have hctx : (if pr then pushPending x.wd x.act (x.w.issuedOn 0) else x.wd).ctx = x.w.ctx := by
    rw [← wd_ctx h]; split <;> simp
  refine issuesOp_of h hid hctx (partsFor_eq_nil hj _ _ _) ?_
  rw [he]
  refine issue_next h ?_
  simp only [checkRegs_ok hr, hj, holdFull_ok hf]
  rfl

/-- The load for the whole warp, at the address of `lead` (R184). -/
theorem mLdu_issues {s : State} {x : Cx} {z d a o : Nat} {places : List (Nat × Place)}
    (h : Begins s (memInfo true false (memReserved false z d a)) x) (hs : Ready x.w (oneLane x.lead) [a, a + 1] [])
    (hd : Ready x.w x.w.live [] (sizeRegs d (sizeBytes z)))
    (hj : judgeLanes x.s x.c x.w.block .load 0 (sizeBytes z) (x.addr a (byteOffset x.hints o (sizeBytes z)))
      (if x.act = 0#32 then 0#32 else oneLane x.lead) = .ok places) (hf : x.w.outstanding 0 < 63) :
    x.IssuesOp (.mLdu z d a o) x.wd 0 (.load d (sizeBytes z) (decide (z ≥ 5)) true false none)
      (partsFor places (x.addr a (byteOffset x.hints o (sizeBytes z))) (sizeBytes z) (fun _ => 0) (fun _ => 0)) x.scope
      (sizeRegs d (sizeBytes z)) x.w.live := by
  have hlead : oneLane x.lead ≠ 0#32 := by
    rw [Ne, ← lanesOf_eq_nil, lanesOf_oneLane (lead_lt x)]
    exact List.cons_ne_nil _ _
  have hnone : (if x.act = 0#32 then 0#32 else oneLane x.lead) = 0#32 ↔ x.act = 0#32 := by
    split
    · simp [*]
    · simp [*]
  have hcheck : checkNamed x.w (if x.act = 0#32 then 0#32 else x.everyone) (fun l => if l = x.lead then [a, a + 1] else [])
      (fun _ => sizeRegs d (sizeBytes z)) (fun _ => []) = .ok () := by
    split
    · exact checkNamed_ok (fun l hl => absurd hl (by simp [inMask_zero])) (fun l hl => absurd hl (by simp [inMask_zero]))
        (fun l hl => absurd hl (by simp [inMask_zero]))
    · exact checkUniform_ok (lead_lt x) hs hd
  refine issuesOp_of h (wd_id h) (wd_ctx h) ((partsFor_eq_nil hj _ _ _).trans hnone) ?_
  rw [exec_mLdu]
  refine issue_next h ?_
  simp only [hcheck, hj, holdFull_ok hf]
  rfl

/-- Settles O18: three of the loads differ in what they push and acquire alone, and the fourth issues one part for the whole warp. -/
theorem loadsIssue : Obligations.LoadsIssue := by
  unfold Obligations.LoadsIssue
  refine ⟨fun p hp z d a o s x places h hr hj hf => ?_, fun z d a o s x places h hs hd hj hf => mLdu_issues h hs hd hj hf⟩
  simp only [List.mem_cons, List.not_mem_nil, or_false] at hp
  rcases hp with rfl | rfl | rfl
  · exact loadOp_issues h (exec_mLd s) hr hj hf
  · exact loadOp_issues h (exec_mLdPr s) hr hj hf
  · exact loadOp_issues h (exec_mLdAcq s) hr hj hf

end Sys2Proof.Machine
end

section
/-! SUPPORT. A context that has ended stays so while the device performs its writes: no operation on memory revives it or gives it a warp, a
block or a job (R233). -/

namespace Sys2Proof.Machine

/-- The context is there and dead, and holds no warp, block or job. -/
structure State.Ended (s : State) (n : Nat) : Prop where
  dead : (s.ctx? n).map Ctx.live = some false
  warps : ∀ w ∈ s.warps, w.ctx ≠ n
  blocks : ∀ b ∈ s.blocks, b.ctx ≠ n
  jobs : ∀ j ∈ s.jobs, j.ctx ≠ n

variable {n : Nat} {s t : State}

/-! ### What keeps it -/

/-- Only contexts, warps, blocks and jobs matter. -/
theorem State.Ended.congr (h : s.Ended n) (hc : t.ctxs = s.ctxs := by rfl) (hw : t.warps = s.warps := by rfl)
    (hb : t.blocks = s.blocks := by rfl) (hj : t.jobs = s.jobs := by rfl) : t.Ended n :=
  ⟨by rw [State.ctx?, hc]; exact h.dead, hw ▸ h.warps, hb ▸ h.blocks, hj ▸ h.jobs⟩

/-- Warps keep their contexts. -/
theorem State.Ended.mapWarps (h : s.Ended n) {f : Warp → Warp} (hf : ∀ w, (f w).ctx = w.ctx) : { s with warps := s.warps.map f }.Ended n := by
  refine ⟨h.dead, fun w hw => ?_, h.blocks, h.jobs⟩
  obtain ⟨v, hv, rfl⟩ := List.mem_map.1 hw
  exact hf v ▸ h.warps v hv

theorem State.Ended.updCtx (h : s.Ended n) (k : Nat) {f : Ctx → Ctx} (hn : ∀ c, (f c).number = c.number := by intro _; rfl)
    (hl : ∀ c, (f c).live = c.live := by intro _; rfl) : (s.updCtx k f).Ended n := by
  refine ⟨?_, h.warps, h.blocks, h.jobs⟩
  by_cases hk : n = k
  · subst hk
    obtain ⟨c, hc, hd⟩ := Option.map_eq_some_iff.1 h.dead
    rw [ctx?_updCtx hc ((hn c).trans (ctx?_number hc)), Option.map_some, hl, hd]
  · rw [ctx?_updCtx_other s k f hn hk]
    exact h.dead

theorem State.Ended.updBlock (h : s.Ended n) (k : Nat) {f : Block → Block} (hf : ∀ b, (f b).ctx = b.ctx := by intro _; rfl) :
    (s.updBlock k f).Ended n := by
  refine ⟨h.dead, h.warps, fun b hb => ?_, h.jobs⟩
  rcases mem_updFirst hb with hb | ⟨y, hy, -, rfl⟩
  · exact h.blocks b hb
  · exact hf y ▸ h.blocks y hy

theorem foldl_keeps_ended {α : Type} {f : State → α → State} (hf : ∀ s a, s.Ended n → (f s a).Ended n) :
    ∀ (l : List α) {s : State}, s.Ended n → (l.foldl f s).Ended n
  | [], _, h => h
  | a :: l, s, h => foldl_keeps_ended hf l (hf s a h)

/-! ### Monitors, requests and stamps -/

theorem ended_noteWriteOf (h : s.Ended n) (who : Warp → Bool) (p : Target → Nat → Bool) : (noteWriteOf s who p).Ended n := by
  refine h.mapWarps (fun w => ?_)
  split
  · split
    · exact mapLanes_ctx w _ _
    · rfl
  · rfl

theorem ended_noteWrite (h : s.Ended n) (p : Target → Nat → Bool) : (noteWrite s p).Ended n := ended_noteWriteOf h _ p

theorem ended_requestPage (h : s.Ended n) (k p : Nat) : (requestPage s k p).Ended n := by
  unfold requestPage
  split
  · exact h
  split
  · exact h
  split
  · exact ended_noteWriteOf (h.updCtx k) _ _
  · exact h

theorem ended_stampTile (h : s.Ended n) (k : Nat) (l : Leaf) (va : Nat) : (stampTile s k l va).Ended n := by
  unfold stampTile
  split
  · exact h.updCtx k
  · exact h

theorem ended_rawStore (h : s.Ended n) (k : Nat) (l : Leaf) (va pa b v : Nat) : (rawStore s k l va pa b v).Ended n := by
  unfold rawStore
  have stored : { s with mem := Memory.writeN s.mem pa b v }.Ended n := h.congr
  exact ended_noteWrite (ended_stampTile stored k l va).congr _

/-! ### Lines merged and moved -/

theorem ended_mergePartial (h : s.Ended n) (p : Partial) : (mergePartial s p).Ended n := by
  unfold mergePartial
  split
  · exact h
  · simp only
    split
    · exact h.congr
    · split
      · exact h.congr
      · exact ended_rawStore h _ _ _ _ _ _

theorem ended_mergeLine (h : s.Ended n) (line : Nat) : (mergeLine s line).Ended n :=
  foldl_keeps_ended (fun _ l k => foldl_keeps_ended (fun _ p k => ended_mergePartial k p) l.parts k) _
    (h.congr (t := { s with lines := s.lines.filter (fun l => l.line != line) }))

theorem ended_updParts (h : s.Ended n) (k : Nat) (f : Part → Part) : (updParts s k f).Ended n :=
  h.mapWarps (fun w => by split <;> rfl)

theorem ended_copyLine (h : s.Ended n) (k va a b : Nat) : (copyLine s k va a b).Ended n := by
  unfold copyLine followLine
  exact ended_updParts h.congr _ _

theorem ended_pullLine (h : s.Ended n) (c : Ctx) (l : Leaf) (va : Nat) : (pullLine s c l va).Ended n := by
  unfold pullLine
  split
  · exact h
  · simp only
    split
    · exact h
    · exact ended_noteWrite ((ended_copyLine (ended_mergeLine h _) _ _ _ _).updCtx _) _

theorem ended_pullAll (h : s.Ended n) (c : Ctx) (l : Leaf) : (pullAll s c l).Ended n := by
  unfold pullAll
  split
  · exact h
  · exact (foldl_keeps_ended (fun _ _ k => ended_pullLine k _ _ _) _ h).updCtx _

/-! ### Writes at their home -/

theorem ended_breakCow (h : s.Ended n) {c : Ctx} {l : Leaf} (e : breakCow s c l = some t) : t.Ended n := by
  unfold breakCow at e
  split at e
  · cases e
  next f _ =>
    cases e
    have moved : (followPage (pullAll s c l) c.number l f false).Ended n := ended_updParts (ended_pullAll h c l) _ _
    exact (moved.updCtx c.number (f := fun x => { x with
        moves := { page := l.page, size := l.size, oldFrame := l.frame, newFrame := f, pulled := [] }
          :: x.moves.filter (fun m => m.page != l.page) })).congr

theorem ended_prepareWrite (h : s.Ended n) {c : Ctx} {l : Leaf} {va : Nat} (e : prepareWrite s c l va = .ok t) : t.Ended n := by
  unfold prepareWrite at e
  split at e
  · cases e
  split at e
  · cases e
  split at e
  · split at e
    · cases e
    next hs =>
      split at e
      · cases e
      split at e
      · cases e
      · cases e
        exact ended_pullLine (ended_breakCow h hs) _ _ _
  · cases e
    exact ended_pullLine h _ _ _

theorem ended_storeVa (h : s.Ended n) {k va b v : Nat} (e : storeVa s k va b v = .ok t) : t.Ended n := by
  unfold storeVa at e
  split at e
  · cases e
  split at e
  · cases e
  split at e
  · cases e
  split at e
  · cases e
  split at e
  · cases e
  split at e
  · cases e
  next hp =>
    split at e
    · cases e
    · cases e
      exact ended_rawStore (ended_prepareWrite h hp) _ _ _ _ _ _

theorem ended_notePending (h : s.Ended n) (k va b raw : Nat) : (notePending s k va b raw).Ended n :=
  h.mapWarps (fun w => by split <;> rfl)

theorem ended_widenElem (h : s.Ended n) {k r ch raw : Nat} {x : Tensor} {f : Fmt} (e : widenElem s k x f r ch raw = .ok t) : t.Ended n := by
  unfold widenElem at e
  split at e
  · cases e; exact h
  simp only at e
  split at e
  · split at e
    · cases e
    next h1 =>
      split at e
      · cases e
      next h2 =>
        cases e
        exact ended_storeVa (ended_notePending (ended_storeVa h h1) _ _ _ _) h2
  · cases e
  · cases e

theorem ended_widenBytes {k : Nat} {x : Tensor} {f : Nat → Nat} : ∀ {os : List Nat} {s : State}, s.Ended n →
    widenBytes s k x f os = .ok t → t.Ended n
  | [], _, h, e => by cases e; exact h
  | _ :: _, _, h, e => by
    simp only [widenBytes] at e
    split at e
    · cases e; exact h
    split at e
    · split at e
      · exact ended_widenBytes h e
      split at e
      · cases e
      next h1 => exact ended_widenBytes (ended_widenElem h h1) e
    · exact ended_widenBytes h e

theorem ended_widenAll {k va b v : Nat} {rd : State → Nat → Nat} : ∀ {ts : List Tensor} {s : State}, s.Ended n →
    widenAll s k va b v rd ts = .ok t → t.Ended n
  | [], _, h, e => by cases e; exact h
  | _ :: _, _, h, e => by
    simp only [widenAll] at e
    split at e
    · split at e
      · cases e
      next h1 => exact ended_widenAll (ended_widenBytes h h1) e
    · exact ended_widenAll h e

theorem ended_writeHome (h : s.Ended n) {c : Ctx} {l : Leaf} {va b v : Nat} (e : writeHome s c l va b v = .ok t) : t.Ended n := by
  unfold writeHome at e
  simp only at e
  split at e
  · cases e
  next u hu =>
    have wide : u.Ended n := by
      split at hu
      · exact ended_widenAll (ended_mergeLine h _) hu
      · cases hu; exact ended_mergeLine h _
    split at e
    · cases e
    split at e
    · cases e
    next hp =>
      split at e
      · cases e
      · cases e
        exact ended_rawStore (ended_prepareWrite wide hp) _ _ _ _ _ _

theorem ended_writeChunk (h : s.Ended n) {c : Ctx} {blk : Option Nat} {kind va b v : Nat} (e : writeChunk s c blk kind va b v = .ok t) :
    t.Ended n := by
  unfold writeChunk at e
  split at e
  · cases e
  split at e
  · cases e
    exact ended_noteWrite (h.congr.updBlock _) _
  · cases e
    exact h.congr.updBlock _
  · cases e
  · cases e
  · cases e
  · cases e
  · cases e
  · split at e
    · cases e
    split at e
    · cases e
    · exact ended_writeHome h e

theorem ended_writeBytes {k : Nat} {blk : Option Nat} {kind : Nat} : ∀ {fuel va : Nat} {bytes : List Nat} {s : State}, s.Ended n →
    writeBytes s k blk kind fuel va bytes = .ok t → t.Ended n
  | 0, _, _, _, h, e => by cases e; exact h
  | _ + 1, _, [], _, h, e => by cases e; exact h
  | _ + 1, _, _ :: _, _, h, e => by
    simp only [writeBytes] at e
    split at e
    · cases e
    split at e
    · cases e
    next h1 => exact ended_writeBytes (ended_writeChunk h h1) e

/-! ### The device's own writes -/

theorem ended_deviceStore (h : s.Ended n) {k va : Nat} {bytes : List Nat} (e : deviceStore s k va bytes = .ok t) : t.Ended n := by
  unfold deviceStore at e
  split at e
  · cases e
    exact h.updCtx _
  · split at e
    · cases e
    · cases e
      exact h.updCtx _
  · exact ended_writeBytes h e

theorem ended_drainWrites {k : Nat} : ∀ (m : Nat) {s : State}, s.Ended n → (drainWrites s k m).Ended n
  | 0, _, h => h
  | m + 1, s, h => by
    have go {s : State} (h : s.Ended n) (rest : List (Nat × List Nat)) :
        (drainWrites (s.updCtx k (fun c => { c with pendingWrites := rest })) k m).Ended n :=
      ended_drainWrites m (h.updCtx k)
    have ends (live : Bool) (d : Nat × Nat × Nat × List Nat) :
        (if live = true then { s with mod := { s.mod with doomed := s.mod.doomed ++ [d] } } else s).Ended n := by
      split
      · exact h.congr
      · exact h
    simp only [drainWrites]
    split
    · exact h
    split
    · exact h
    split
    next hd => exact go (ended_deviceStore h hd) _
    · exact ended_requestPage h _ _
    · exact go (ends _ _) _
    · exact go (ends _ _) _
    · exact go h _

theorem ended_deviceWrites (h : s.Ended n) (k : Nat) (ws : List (Nat × List Nat)) : (deviceWrites s k ws).Ended n :=
  ended_drainWrites _ (h.updCtx k)

theorem ended_answerPreempt (h : s.Ended n) (c : Ctx) : (answerPreempt s c).Ended n := by
  unfold answerPreempt
  split
  · exact h.congr
  · exact h

/-- A live context ends: it keeps no warp, no block and no job (R233). -/
theorem endContext_ended {c : Ctx} (hc : s.ctx? n = some c) (hl : c.live = true) (words : List Nat) : (endContext s n words).Ended n := by
  simp only [endContext, hc, hl, if_true]
  refine ended_deviceWrites (ended_answerPreempt ⟨?_, fun w hw => ?_, fun b hb => ?_, fun j hj => ?_⟩ c) _ _
  · have dead := ctx?_updCtx (f := fun c => { c with live := false, queues := [], slots := [], spilled := [], traced := [] }) hc
      (show c.number = n from ctx?_number hc)
    exact congrArg (Option.map Ctx.live) dead
  · simpa using (List.mem_filter.1 hw).2
  · simpa using (List.mem_filter.1 hb).2
  · simpa using (List.mem_filter.1 hj).2

end Sys2Proof.Machine
end

section
/-! SUPPORT. Blocks and warps start, are placed, leave and return (R39, R162, R197, R239, R365), barrier phases complete (R141), contexts hang,
are saved or end (R233, R250, R251, R315): one lemma for each event. -/

namespace Sys2Proof.Machine

variable {s : State}

/-! ### Starting blocks (R14, R39, R239) -/

/-- The next block of a launch on its core starts, with the blocks that start together with it. -/
theorem blockStart_next {lid n core : Nat} {l : Launch} (hl : s.launch? lid = some l) (hcore : coreOf l.snapshot l.rec_ n = some core)
    (hrun : ctxRuns s l.ctx = true) (hup : coreUp s core = true) (hset : l.unset = false) (hmem : n ∈ l.members) (hnew : n ∉ l.started)
    (hfirst : ∀ k ∈ l.members, k < n → k ∈ l.started ∨ coreOf l.snapshot l.rec_ k ≠ some core)
    (hroom : blockRoom s core l (mates l n core).length = true) :
    exec (.blockStart lid n) s = .next (startBlocks lid core s (mates l n core)) := by
  have turn : ∀ k ∈ l.members, (n ≤ k ∨ k ∈ l.started) ∨ ¬ coreOf l.snapshot l.rec_ k = some core := by
    intro k hk
    rcases Nat.lt_or_ge k n with hkn | hkn
    · exact (hfirst k hk hkn).imp_left .inr
    · exact .inl (.inl hkn)
  rw [exec_blockStart, execBlockStart, hl]
  simp only [hcore]
  rw [if_pos]
  simpa [hrun, hup, hset, hmem, hnew, hroom] using turn

theorem mates_single {l : Launch} (n core : Nat) (h : l.rec_.widest = none) : mates l n core = [n] := by rw [mates, h]

theorem updFirst_append_last {α : Type} {p : α → Bool} {f : α → α} {xs : List α} {x : α} (h : ∀ y ∈ xs, p y = false) (hx : p x = true) :
    updFirst p f (xs ++ [x]) = xs ++ [f x] := by
  induction xs with
  | nil => simp [updFirst, hx]
  | cons y ys ih => simp [updFirst, h y (by simp), ih (fun z hz => h z (by simp [hz]))]

/-- Warp `k` of a block of a launch as it starts, in its place on the block's core. -/
def startedWarp (l : Launch) (b : Block) (k id place : Nat) : Warp :=
  { freshWarp id l.ctx l.id (some b.id) k .static l.snapshot (dieOf b.core) none l.rec_.regs (startRegs l.rec_) (startLanes l.rec_ b.number) with
    place := some (b.core, place) }

/-- The warps a block starts with: as many as asked for, in the order of their numbers, behind those there were. -/
theorem addWarps_warps (l : Launch) (b : Block) : ∀ (n : Nat) {s : State}, (∀ w ∈ s.warps, w.id < s.nextId) →
    ∃ ws, (addWarps l b n s).warps = s.warps ++ ws ∧ ws.length = n ∧ (∀ w ∈ (addWarps l b n s).warps, w.id < (addWarps l b n s).nextId) ∧
      ∀ k, k < n → ∃ id place, ws[k]? = some (startedWarp l b k id place)
  | 0, s, h => ⟨[], by simp [addWarps], rfl, h, fun _ hk => absurd hk (Nat.not_lt_zero _)⟩
  | n + 1, s, h => by
    obtain ⟨ws, hws, hlen, hid, hk⟩ := addWarps_warps l b n h
    have hadd : ∃ place, (addWarps l b (n + 1) s).warps =
        (addWarps l b n s).warps ++ [startedWarp l b n (addWarps l b n s).nextId place] :=
      ⟨_, updFirst_append_last (fun w hw => by simpa [freshWarp] using Nat.ne_of_lt (hid w hw)) (by simp [freshWarp])⟩
    obtain ⟨place, hadd⟩ := hadd
    refine ⟨ws ++ [startedWarp l b n (addWarps l b n s).nextId place], ?_, by simp [hlen], fun w hw => ?_, fun k hkn => ?_⟩
    · rw [hadd, hws, List.append_assoc]
    · rw [hadd] at hw
      change w.id < (addWarps l b n s).nextId + 1
      rcases List.mem_append.1 hw with hw | hw
      · exact Nat.lt_succ_of_lt (hid w hw)
      · rw [List.mem_singleton.1 hw]
        exact Nat.lt_succ_self _
    · by_cases hlt : k < n
      · obtain ⟨id, p, hp⟩ := hk k hlt
        exact ⟨id, p, by rw [List.getElem?_append_left (hlen ▸ hlt), hp]⟩
      · obtain rfl : k = n := by omega
        exact ⟨(addWarps l b k s).nextId, place, by simp [← hlen]⟩

theorem addWarps_blocks (l : Launch) (b : Block) : ∀ (n : Nat) (s : State), (addWarps l b n s).blocks = s.blocks
  | 0, _ => rfl
  | n + 1, s => addWarps_blocks l b n s

theorem addWarps_mem (l : Launch) (b : Block) : ∀ (n : Nat) (s : State), (addWarps l b n s).mem = s.mem
  | 0, _ => rfl
  | n + 1, s => addWarps_mem l b n s

theorem startedWarp_alloc (l : Launch) (b : Block) (k id place : Nat) (h : 2 ≤ l.rec_.regs) :
    (startedWarp l b k id place).alloc = l.rec_.regs := by
  simp [Warp.alloc, startedWarp, freshWarp, startRegs]
  omega

/-- v0 and v1 hold the address of the parameters (R14). -/
theorem startedWarp_params (l : Launch) (b : Block) (k id place j : Nat) (h : 2 ≤ l.rec_.regs) :
    (startedWarp l b k id place).reg j 0 = BitVec.ofNat 32 l.rec_.params ∧
      (startedWarp l b k id place).reg j 1 = BitVec.ofNat 32 (l.rec_.params / 2 ^ 32) := by
  have h0 : 0 < l.rec_.regs := by omega
  have h1 : 1 < l.rec_.regs := by omega
  simp [Warp.reg, startedWarp, freshWarp, startRegs, List.getD_eq_getElem?_getD, h0, h1, RegForm.get]

theorem startedWarp_lane (l : Launch) (b : Block) (k id place : Nat) {j : Nat} (h : j < 32) :
    (startedWarp l b k id place).lane j = if j < l.rec_.lanes then Lane.start (BitVec.ofNat 56 l.rec_.entry) b.number else Lane.gone := by
  rw [lane_eq h]
  exact Vector.getElem_ofFn h

/-- The lanes of the launch are ready at its entry, the others do not exist. -/
theorem startedWarp_ready (l : Launch) (b : Block) (k id place : Nat) {j : Nat} (h : j < 32) :
    ((startedWarp l b k id place).lane j).isReady = decide (j < l.rec_.lanes) ∧
      (j < l.rec_.lanes → ((startedWarp l b k id place).lane j).pc = BitVec.ofNat 56 l.rec_.entry) := by
  rw [startedWarp_lane l b k id place h]
  by_cases hj : j < l.rec_.lanes
  · simp [hj, Lane.start, Lane.isReady]
  · simp [hj, Lane.gone, Lane.isReady]

/-- The block that starts, under its number. -/
def startedBlock (s : State) (l : Launch) (lid n core : Nat) : Block where
  id := s.nextId
  ctx := l.ctx
  launch := lid
  number := n
  core := core
  state := .running
  scratch := []
  pages := l.rec_.pages
  unpinned := []
  tiles := []
  tileCount := l.rec_.accum

theorem startBlock_eq {lid : Nat} {l : Launch} (hl : s.launch? lid = some l) (n core : Nat) :
    startBlock s lid n core = addWarps l (startedBlock s l lid n core) l.rec_.warps
      (State.setLaunch { s with blocks := s.blocks ++ [startedBlock s l lid n core], nextId := s.nextId + 1 }
        { l with started := l.started ++ [n] }) := by
  rw [startBlock, hl]
  rfl

/-- What a block's start adds: the block, and its warps in the order of their numbers. -/
theorem startBlock_adds {lid : Nat} {l : Launch} (hl : s.launch? lid = some l) (hid : ∀ w ∈ s.warps, w.id < s.nextId) (n core : Nat) :
    ∃ ws, (startBlock s lid n core).blocks = s.blocks ++ [startedBlock s l lid n core] ∧ (startBlock s lid n core).warps = s.warps ++ ws ∧
      (startBlock s lid n core).mem = s.mem ∧ ws.length = l.rec_.warps ∧
      ∀ k, k < l.rec_.warps → ∃ id place, ws[k]? = some (startedWarp l (startedBlock s l lid n core) k id place) := by
  rw [startBlock_eq hl n core, addWarps_blocks, addWarps_mem]
  obtain ⟨ws, hws, hlen, -, hk⟩ := addWarps_warps l (startedBlock s l lid n core) l.rec_.warps
    (s := State.setLaunch { s with blocks := s.blocks ++ [startedBlock s l lid n core], nextId := s.nextId + 1 }
      { l with started := l.started ++ [n] }) (fun w hw => Nat.lt_succ_of_lt (hid w hw))
  exact ⟨ws, rfl, hws, rfl, hlen, hk⟩

/-! ### Places, and the end of a warp (R23, R142, R148, R365) -/

theorem warpPlace_next {id core : Nat} {w : Warp} {l : Launch} (hw : s.awakeWarp? id = some w) (hl : s.launch? w.launch = some l)
    (hplace : w.place = none) (hblock : w.block = none) (hmay : mayPlace s w = true) (hup : coreUp s core = true) (hcore : core < 256)
    (hsnap : w.snap.getLsbD core = true) (hdie : dieOf core = w.die) (hcluster : ∀ k, w.cluster = some k → k = clusterOf core)
    (hpart : partitionRoom s core l = true) (hroom : warpRoom s core l 1 (128 * w.alloc) = true) :
    exec (.warpPlace id core) s = .next (s.updWarp id (fun w => { w with place := some (core, freeIndex s core) })) := by
  have cluster : (w.cluster.map (fun k => k == clusterOf core)).getD true = true := by
    cases hk : w.cluster with
    | none => rfl
    | some k => simp [hcluster k hk]
  rw [exec_warpPlace, execWarpPlace, hw]
  simp [hl, hplace, hblock, hmay, hup, hcore, hsnap, hdie, cluster, hpart, warpBytes, hroom, seatWarp]

theorem warpEnd_next {id : Nat} {w : Warp} (hw : s.awakeWarp? id = some w) (hlive : w.live = 0#32) (hops : w.ops = [])
    (hkind : ∀ h, w.kind = .handler h → h = 0) : exec (.warpEnd id) s = .next (flushTraces (dropWarp s w) w.launch) := by
  rw [exec_warpEnd, execWarpEnd, hw]
  simp only [hlive, hops, List.isEmpty_nil, decide_true, Bool.and_true, if_true]
  cases hk : w.kind with
  | handler h => simp [hkind h hk]
  | _ => rfl

/-- The warp of a handler first ends what is stopped under its handle. -/
theorem warpEnd_handler {id h : Nat} {w : Warp} {t : State} (hw : s.awakeWarp? id = some w) (hlive : w.live = 0#32) (hops : w.ops = [])
    (hkind : w.kind = .handler h) (hh : h ≠ 0) (hkill : killLanes s w.ctx h allLanes = .ok t) :
    exec (.warpEnd id) s = .next (flushTraces (dropWarp t w) w.launch) := by
  rw [exec_warpEnd, execWarpEnd, hw]
  simp [hlive, hops, hkind, hh, hkill]

/-! ### A barrier phase (R18, R141) -/

theorem phaseComplete_next {k : Nat} {b : Bar} {ws : List Warp} (hb : s.bars.find? (fun b => b.key == k) = some b)
    (hws : barWarps s b = some ws) (hexp : b.expected = 0) (hsaved : ∀ w ∈ ws, s.saved w.ctx = false)
    (hall : ∀ w ∈ ws, warpArrived s w b.scope b.id b.phase = true)
    (hany : ∃ w ∈ ws, ∃ l, l < 32 ∧ ∃ a ∈ (w.lane l).arrivals, a.scope = b.scope ∧ a.id = b.id ∧ a.phase = b.phase) :
    exec (.barrierPhaseComplete k) s = .next (wakeBarrier b ((ws.filterMap (homeCore s)).foldl pushLines s)) := by
  have awake : ws.any (fun w => s.saved w.ctx) = false := by simpa using hsaved
  have arrived : ws.all (fun w => warpArrived s w b.scope b.id b.phase) = true := List.all_eq_true.2 hall
  have open_ : ws.any (fun w => (lanesOf allLanes).any (fun l => ((w.lane l).arrivals.any (fun a =>
      a.scope == b.scope && a.id == b.id && a.phase == b.phase)))) = true := by
    obtain ⟨w, hw, l, hl, a, ha, h1, h2, h3⟩ := hany
    exact List.any_eq_true.2 ⟨w, hw, List.any_eq_true.2 ⟨l, (mem_lanesOf _ _).2 (inMask_allLanes hl),
      List.any_eq_true.2 ⟨a, ha, by simp [h1, h2, h3]⟩⟩⟩
  rw [exec_barrierPhaseComplete, execBarrierPhaseComplete, hb]
  simp only [hws, awake, hexp, arrived, open_, Bool.not_false, Bool.and_self, decide_true, if_true]

theorem splitByPc_zero (w : Warp) (n : Nat) : splitByPc w n 0#32 = [] := by
  cases n with
  | zero => rfl
  | succ n => rw [splitByPc, (lanesOf_eq_nil _).2 rfl]

theorem barrierRuns_none (b : Bar) {w : Warp} (h : ∀ l, l < 32 → (w.lane l).isWaiting = false) : barrierRuns s b w = [] := by
  have none_waits : ∀ l, l < 32 → (w.lane l).waits = none := by
    intro l hl
    have still := h l hl
    rw [Lane.isWaiting] at still
    rw [Lane.waits]
    split at still
    · cases still
    · rfl
  unfold barrierRuns
  rw [show maskOf _ = 0#32 from mask_ext (fun l hl => by rw [inMask_maskOf, none_waits l hl, inMask_zero]; simp)]
  exact splitByPc_zero w 32

/-- Where no lane waits only the phase advances. -/
theorem wakeBarrier_none (b : Bar) (h : ∀ w ∈ s.warps, ∀ l, l < 32 → (w.lane l).isWaiting = false) :
    wakeBarrier b s = { s with bars := updFirst (fun k => k.key == b.key) (fun k => { k with phase := k.phase + 1 }) s.bars } := by
  have runs : s.warps.flatMap (fun w => (barrierRuns s b w).map (fun m => (w.id, m))) = [] :=
    List.flatMap_eq_nil_iff.2 (fun w hw => by rw [barrierRuns_none b (h w hw), List.map_nil])
  rw [wakeBarrier, runs, List.foldl_nil]

/-- The run that waits goes on; its arrivals are waited for. -/
theorem wakeBarrier_one (b : Bar) {w : Warp} {m : Mask} {what : Wait} {next : Pc} {since : Nat} (hs : s.warps = [w])
    (hm : barrierRuns s b w = [m]) (hl : (w.lane (leadOf m)).cond = .waiting what next since) :
    wakeBarrier b s = completeWait
      (State.updWarp { s with bars := updFirst (fun k => k.key == b.key) (fun k => { k with phase := k.phase + 1 }) s.bars } w.id
        (fun w => w.mapLanes m (fun _ y => y.dropArrival b.scope b.id))) w.id m next := by
  have found : ({ s with bars := updFirst (fun k => k.key == b.key) (fun k => { k with phase := k.phase + 1 }) s.bars } : State).warp? w.id
      = some w := by simp [State.warp?, hs]
  simp only [wakeBarrier, hs, List.flatMap_cons, List.flatMap_nil, hm, List.map_cons, List.map_nil, List.append_nil, List.foldl_cons,
    List.foldl_nil]
  rw [endBarrier, ← hs, found]
  simp only [hl]

/-! ### Blocks that leave and return (R162, R197) -/

theorem blockSwapOut_next {id : Nat} {b : Block} {c : Ctx} {w : Warp} {l op addr n v : Nat} {hit : Bool} {next : Pc} {since : Nat}
    (hb : s.block? id = some b) (hc : s.ctx? b.ctx = some c) (hstate : b.state = .running) (hrun : ctxRuns s b.ctx = true)
    (hgroup : ∀ w ∈ s.warps, w.block = some id → w.group = []) (hw : w ∈ s.warps) (hwb : w.block = some id) (hl : l < 32)
    (hcond : (w.lane l).cond = .waiting (.monitor op addr n v hit) next since) (hlong : since + 600 * c.swapUs ≤ s.mod.clock) (ok : Bool) :
    exec (.blockSwapOut id ok) s = .next (if ok then
        { s.updBlock id (fun b => { b with state := .swapped, unpinned := List.range b.pages }) with
          warps := s.warps.map (fun w => if w.block == some id then { w with place := none } else w) }
      else endWith { s with free := s.free + 1 } b.ctx 0x38 (Config.freeValue s.free % 2 ^ 64) []) := by
  have idle : (warpsOf s id).all (fun w => w.group.isEmpty) = true := by
    refine List.all_eq_true.2 (fun w hw => ?_)
    obtain ⟨hin, hblk⟩ := List.mem_filter.1 hw
    simp [hgroup w hin (by simpa using hblk)]
  have long : (warpsOf s id).any (fun w => (lanesOf allLanes).any (fun l => longWait s c (w.lane l))) = true :=
    List.any_eq_true.2 ⟨w, List.mem_filter.2 ⟨hw, by simp [hwb]⟩, List.any_eq_true.2 ⟨l, (mem_lanesOf _ _).2 (inMask_allLanes hl),
      by simp [longWait, hcond, hlong]⟩⟩
  rw [exec_blockSwapOut, execBlockSwapOut, hb]
  simp only [hc, hstate, hrun, idle, long, beq_self_eq_true, Bool.and_self, if_true]

theorem blockSwapIn_next {id : Nat} {b : Block} {l : Launch} (hb : s.block? id = some b) (hl : s.launch? b.launch = some l)
    (hstate : b.state = .swapped) (hrun : ctxRuns s b.ctx = true) (hroom : blockRoom s b.core l 1 = true) :
    exec (.blockSwapIn id) s = .next (restoreMonitors
      (seatWarps b.core (s.updBlock id (fun b => { b with state := .running })) ((s.warps.filter (fun w => w.block == some id)).map Warp.id))
      (fun w => w.block == some id)) := by
  rw [exec_blockSwapIn, execBlockSwapIn, hb]
  simp only [hl, hstate, hrun, hroom, beq_self_eq_true, Bool.and_self, if_true]
  rfl

theorem scratchRefill_next {id page : Nat} {b : Block} (hb : s.block? id = some b) (hstate : b.state = .running)
    (hawake : ctxAwake s b.ctx = true) (hpage : page ∈ b.unpinned) (ok : Bool) :
    exec (.scratchRefill id page ok) s = .next (if ok then
        { s.updBlock id (fun b => { b with unpinned := b.unpinned.erase page }) with
          warps := s.warps.map (fun w => if w.block == some id then refillLanes id page w else w) }
      else endWith s b.ctx 0x1E (scratchBase + 4096 * page) []) := by
  rw [exec_scratchRefill, execScratchRefill, hb]
  simp only [hstate, hawake, List.contains_iff_mem.2 hpage, beq_self_eq_true, Bool.and_self, if_true]

/-! ### Contexts that hang or are saved (R250, R251, R315) -/

/-- The wait-for records of a context, in their order, as many as the trap area holds. -/
def hangRecords (s : State) (n : Nat) : List WaitFor :=
  (((s.warps.filter (fun w => w.ctx == n && w.live != 0#32)).flatMap (warpWaits s)).foldl (fun l x => insertWait x l) []).take 2048

theorem hangDetected_next {n : Nat} {c : Ctx} (hc : s.ctx? n = some c) (hl : c.live = true) (hsome : ∃ w ∈ s.warps, w.ctx = n ∧ w.live ≠ 0#32)
    (hstuck : ∀ w ∈ s.warps, w.ctx = n → w.live ≠ 0#32 → w.place.isSome = true ∨ w.block.isSome = true → w.readyLanes = 0#32)
    (hlong : c.hangSince + 2 ^ c.hangExp ≤ s.mod.clock) :
    exec (.hangDetected n) s = .next (contextCause (deviceWrites (s.updCtx n (fun c => { c with hangSince := s.mod.clock })) n
      ((hangRecords s n).zipIdx.map (fun r => (c.trapBase + 0x8000 + 16 * r.2, r.1.bytes)) ++
        [(c.trapBase + 0x48, natLe 8 (hangRecords s n).length)])) n 0x30 [(hangRecords s n).length]) := by
  have some_live : (s.warps.filter (fun w => w.ctx == n && w.live != 0#32)).isEmpty = false := by
    obtain ⟨w, hw, hn, hlive⟩ := hsome
    exact List.isEmpty_eq_false_iff_exists_mem.2 ⟨w, List.mem_filter.2 ⟨hw, by simp [hn, hlive]⟩⟩
  have none_ready : (s.warps.filter (fun w => w.ctx == n && w.live != 0#32)).any
      (fun w => (w.place.isSome || w.block.isSome) && w.readyLanes != 0#32) = false := by
    refine List.any_eq_false.2 (fun w hw => ?_)
    obtain ⟨hin, hmine⟩ := List.mem_filter.1 hw
    simp only [Bool.and_eq_true, beq_iff_eq, bne_iff_ne, Bool.or_eq_true] at hmine ⊢
    exact fun ⟨hat, hready⟩ => hready (hstuck w hin hmine.1 hmine.2 hat)
  rw [exec_hangDetected, execHangDetected, hc]
  simp only [hl, some_live, none_ready, ge_iff_le, hlong, decide_true, Bool.not_false, Bool.and_self, if_true]
  rfl

section
variable {n since host seq : Nat} {c : Ctx} (hc : s.ctx? n = some c) (hn : n < 2 ^ 63) (hl : c.live = true)
variable (hp : c.preempt = .stopping since host seq) (hlong : since + 1200 ≤ s.mod.clock) (hhalt : haltedNow s n = true)
include hc hn hl hp hlong hhalt

theorem preemptDeadline_saves : exec (.pixelPreemptDeadline n) s = .next (saveContext s n host seq) := by
  rw [exec_pixelPreemptDeadline, execPixelPreemptDeadline, Nat.mod_eq_of_lt hn]
  simp only [hc, hp, hl, hhalt, ge_iff_le, hlong, decide_true, Bool.and_self, if_true]
  rw [if_neg (by omega)]

/-- The save area cannot be written. -/
theorem preemptDeadline_fails : exec (.pixelPreemptDeadline (n + 2 ^ 63)) s =
    .next (endWith { s with free := s.free + 1 } n 0x37 (Config.freeValue s.free % 2 ^ 64) []) := by
  rw [exec_pixelPreemptDeadline, execPixelPreemptDeadline, Nat.add_mod_right, Nat.mod_eq_of_lt hn]
  simp only [hc, hp, hl, hhalt, ge_iff_le, hlong, decide_true, Bool.and_self, if_true]
  rw [if_pos (by omega)]

end

theorem saveContext_preempt {n host seq : Nat} {c : Ctx} (hc : s.ctx? n = some c) :
    ((saveContext s n host seq).ctx? n).map Ctx.preempt = some .saved := by
  have saved := ctx?_updCtx (f := fun c => { c with preempt := .saved }) hc (show c.number = n from ctx?_number hc)
  exact congrArg (Option.map Ctx.preempt) saved

theorem saveContext_unpinned (n host seq : Nat) : ∀ b ∈ (saveContext s n host seq).blocks, b.ctx = n → b.unpinned = List.range b.pages := by
  intro b hb hn
  obtain ⟨a, -, rfl⟩ := List.mem_map.1 hb
  by_cases ha : a.ctx = n
  · simp [ha]
  · simp [ha] at hn

/-- Settles O50: one lemma for each event; what an ended context keeps follows from what the device's writes leave. -/
theorem warpsAndBlocks : Obligations.WarpsAndBlocks := by
  unfold Obligations.WarpsAndBlocks
  refine ⟨?start, ?begins, fun s id core w l => warpPlace_next, fun s id w => warpEnd_next, fun s id w h t => warpEnd_handler,
    fun s k b ws => phaseComplete_next, fun s b => ⟨wakeBarrier_none b, fun w m what next since => wakeBarrier_one b⟩,
    ?swapOut, fun s id b l => blockSwapIn_next, ?refill, fun s n c => hangDetected_next, ?deadline, fun s n => ⟨rfl, rfl⟩, ?ended⟩
  case start =>
    intro s lid n l core hl hcore hrun hup hset hmem hnew hfirst hroom
    exact ⟨blockStart_next hl hcore hrun hup hset hmem hnew hfirst hroom, mates_single n core⟩
  case begins =>
    intro s lid n core l hl hid hregs
    obtain ⟨ws, hblocks, hwarps, hmem, hlen, hk⟩ := startBlock_adds hl hid n core
    refine ⟨rfl, startedBlock s l lid n core, ws, hblocks, hwarps, hmem, rfl, rfl, rfl, rfl, rfl, rfl, hlen, fun k hlt => ?_⟩
    obtain ⟨id, place, hw⟩ := hk k hlt
    refine ⟨_, hw, rfl, rfl, rfl, startedWarp_alloc _ _ _ _ _ hregs, fun j hj => ?_⟩
    obtain ⟨h0, h1⟩ := startedWarp_params l (startedBlock s l lid n core) k id place j hregs
    exact ⟨h0, h1, startedWarp_ready _ _ _ _ _ hj⟩
  case swapOut =>
    intro s id b c w l op addr n v hit next since hb hc hstate hrun hgroup hw hwb hl hcond hlong
    have out := blockSwapOut_next hb hc hstate hrun hgroup hw hwb hl hcond hlong
    exact ⟨out true, out false⟩
  case refill =>
    intro s id b page hb hstate hawake hpage
    exact ⟨scratchRefill_next hb hstate hawake hpage true, scratchRefill_next hb hstate hawake hpage false⟩
  case deadline =>
    intro s n c since host seq hn hc hl hp hlong hhalt
    exact ⟨preemptDeadline_fails hc hn hl hp hlong hhalt, saveContext s n host seq, preemptDeadline_saves hc hn hl hp hlong hhalt, rfl, rfl,
      saveContext_preempt hc, saveContext_unpinned n host seq, rfl⟩
  case ended =>
    intro s n c cause addr detail hc hl
    obtain ⟨dead, warps, blocks, jobs⟩ := endContext_ended hc hl (recordWords cause 0 0 0#32 0#32 addr detail)
    exact ⟨dead, warps, blocks, jobs⟩

end Sys2Proof.Machine
end

section
/-! SUPPORT. Words that are refused before anything of them happens (R45, R58, R66, R168): a word with no hint before it whose code is
unallocated, or that holds a reserved value, and a word that cannot be fetched. -/

namespace Sys2Proof.Machine

/-! ### What a stop of the selected run does -/

section
variable {s : State} {sel : Sel} {w : Warp} {c : Ctx} {l : Launch}

theorem applyStop_trap_of_cur (hcur : s.cur = some sel) (lanes : Mask) (cause addr : Nat) (detail : List Nat) :
    applyStop s (.trap lanes cause addr detail) = .next (trapNow s sel lanes cause addr detail) := by
  unfold applyStop
  rw [hcur]

/-! ### The first checks of R66, with no hint before the word -/

theorem checkWords_illegal (w : Warp) (run : Mask) (word : Nat) {i : Info} (hi : i.illegal = true) :
    checkWords w run [] word i = .error (.trap run 0x00 0 [word]) := by
  unfold checkWords
  simp [hi]

theorem checkWords_reserved (w : Warp) (run : Mask) (word : Nat) {i : Info} (hi : i.illegal = false) (hr : i.reserved ≠ 0) :
    checkWords w run [] word i = .error (.trap run 0x01 0 [word, i.reserved]) := by
  unfold checkWords
  simp [hi, hr]

variable (hcur : s.cur = some sel) (hw : s.warp? sel.warp = some w) (hc : s.ctx? w.ctx = some c) (hl : s.launch? w.launch = some l)
  (hg : w.group = [])
include hcur hw hc hl hg

/-- A word that the first checks of R66 stop never comes to its meaning. -/
theorem issue_stopped {i : Info} {e : Stop} (body : Cx → Except Stop State)
    (hcheck : checkWords w sel.run [] sel.word.toNat i = .error e) : issue s i body = applyStop s e := by
  unfold issue beginIssue
  simp only [hcur, hw, hc, hl, hg, List.map_nil, hcheck]

theorem issue_illegal {i : Info} (body : Cx → Except Stop State) (hi : i.illegal = true) :
    issue s i body = .next (trapNow s sel sel.run 0x00 0 [sel.word.toNat]) := by
  rw [issue_stopped hcur hw hc hl hg body (checkWords_illegal w _ _ hi), applyStop_trap_of_cur hcur]

theorem issue_reserved {i : Info} {mask : Nat} (body : Cx → Except Stop State) (hi : i.illegal = false) (hr : i.reserved = mask)
    (h0 : mask ≠ 0) : issue s i body = .next (trapNow s sel sel.run 0x01 0 [sel.word.toNat, mask]) := by
  subst hr
  rw [issue_stopped hcur hw hc hl hg body (checkWords_reserved w _ _ hi h0), applyStop_trap_of_cur hcur]

end

/-! ### The reserved bits of the words -/

theorem brReserved_mode {m : Nat} (k : Nat) (hm : 6 ≤ m) : brReserved k m = 7 * 2 ^ 19 := if_pos hm

theorem brReserved_always (k : Nat) : brReserved k 0 = k * 2 ^ 22 := rfl

theorem cmpPair_iff (t : Nat) : cmpPair t = true ↔ t = 2 ∨ t = 3 := by simp [cmpPair]

theorem cmpReserved_int (t m a b : Nat) : cmpReserved 4 t m a b (cmpPair t) =
    (if 4 ≤ t then 7 * 2 ^ 18 else 0) + (if 4 ≤ m then 15 * 2 ^ 14 else 0) +
      if t = 2 ∨ t = 3 then a % 2 * 2 ^ 7 + b % 2 * 2 ^ 0 else 0 := by
  by_cases ht : t = 2 ∨ t = 3
  · simp [cmpReserved, oddPairs, misaligned, (cmpPair_iff t).2 ht, ht]
  · have hp : cmpPair t = false := Bool.eq_false_iff.2 (mt (cmpPair_iff t).1 ht)
    simp [cmpReserved, oddPairs, hp, ht]

theorem cmpReserved_fp (t m a b : Nat) : cmpReserved 3 t m a b false =
    (if 3 ≤ t then 7 * 2 ^ 18 else 0) + if 4 ≤ m then 15 * 2 ^ 14 else 0 := by
  simp [cmpReserved, oddPairs]

/-- Settles O35: each word is an issue whose first checks stop it, with the mask of its fields. -/
theorem wordTraps : Obligations.WordTraps := by
  unfold Obligations.WordTraps
  intro s sel w c l hcur hw hc hl hg illegal reserved
  have reserved_of {i : Instr} {info : Info} {mask : Nat} {body : Cx → Except Stop State} (he : exec i s = issue s info body)
      (hi : info.illegal = false) (hr : info.reserved = mask) (h0 : mask ≠ 0) : reserved i mask :=
    he.trans (issue_reserved hcur hw hc hl hg body hi hr h0)
  have illegal_of {i : Instr} {info : Info} {body : Cx → Except Stop State} (he : exec i s = issue s info body)
      (hi : info.illegal = true) : illegal i :=
    he.trans (issue_illegal hcur hw hc hl hg body hi)
  refine ⟨fun k m o => ⟨fun hm => ?mode, fun hk => ?depth⟩, fun k t m a b => ⟨fun hk => ?cmp, fun hk => ?fcmp, fun hk h0 => ?cmpMask,
    fun hk h0 => ?fcmpMask⟩, fun sc hsc => ?fences⟩
  case mode => exact reserved_of (exec_cBr s) rfl (brReserved_mode k hm) (by decide)
  case depth => exact reserved_of (exec_cBr s) rfl (brReserved_always k) (by omega)
  case cmp => exact ⟨illegal_of (exec_sCmp s) (decide_eq_true hk), illegal_of (exec_vCmp s) (decide_eq_true hk)⟩
  case fcmp => exact ⟨illegal_of (exec_sFcmp s) (decide_eq_true hk), illegal_of (exec_vFcmp s) (decide_eq_true hk)⟩
  case cmpMask =>
    have hi := decide_eq_false (Nat.not_le.2 hk)
    exact ⟨reserved_of (exec_sCmp s) hi (cmpReserved_int t m a b) h0, reserved_of (exec_vCmp s) hi (cmpReserved_int t m a b) h0⟩
  case fcmpMask =>
    have hi := decide_eq_false (Nat.not_le.2 hk)
    exact ⟨reserved_of (exec_sFcmp s) hi (cmpReserved_fp t m a b) h0, reserved_of (exec_vFcmp s) hi (cmpReserved_fp t m a b) h0⟩
  case fences =>
    have hmask : (if sc ≥ 6 then 7 * 2 ^ 22 else 0) = 7 * 2 ^ 22 := if_pos hsc
    simp only [List.forall_mem_cons, List.not_mem_nil, false_imp_iff, implies_true, and_true]
    exact ⟨reserved_of (exec_mFenceAcq s) rfl hmask (by decide), reserved_of (exec_mFenceRel s) rfl hmask (by decide),
      reserved_of (exec_mFenceFull s) rfl hmask (by decide)⟩

/-! ### Hints as words (R59, R63) -/

/-- What a hint word does: it joins the group of its run, and no run stays selected. -/
theorem appendHint_joins {s : State} {sel : Sel} (hcur : s.cur = some sel) : ∃ t, appendHint s = .next t ∧
    { t with warps := s.warps, cur := s.cur } = s ∧ t.cur = none ∧ (∀ j, j ≠ sel.warp → t.warp? j = s.warp? j) ∧
    ∀ w, s.warp? sel.warp = some w →
      t.warp? sel.warp = some { w with group := w.group ++ [sel.word], groupRun := sel.run, groupReady := sel.ready } := by
  unfold appendHint
  rw [hcur]
  refine ⟨_, rfl, ?_, rfl, fun j hj => ?_, fun w hw => ?_⟩
  · rw [State.updWarp, ← hcur]
  · exact (warp?_cur ..).trans (warp?_updWarp_other s _ _ (by exact fun _ => rfl) hj)
  · exact (warp?_cur ..).trans (warp?_updWarp hw (warp?_id (w := w) hw))

/-- Settles O32: every hint word is the same step, which adds the word to its group. -/
theorem hints : Obligations.Hints := by
  unfold Obligations.Hints
  intro s sel hcur i hi n
  have he : exec (i n) s = appendHint s := by fin_cases hi <;> rfl
  rw [he]
  exact appendHint_joins hcur

/-! ### A word that is no instruction, and a fetch that fails -/

/-- Bits set in a reserved field stop a word whose cell is allocated and whose operands are. -/
theorem wordInfo_reserved {n m : Nat} (hcell : wordCell n = some m) (hm : 0 < m) (ho : operandIllegal n = false) :
    wordInfo n = some { Info.plain 3 with reserved := m + operandReserved n } := by
  unfold wordInfo
  rw [hcell, ho]
  exact if_neg (Nat.pos_iff_ne_zero.1 hm)

theorem wordInfo_unallocated {n : Nat} (hcell : wordCell n = none) : wordInfo n = some { Info.plain 3 with illegal := true } := by
  unfold wordInfo
  rw [hcell]

theorem unallocatedWord_issue {n : Nat} {i : Info} (s : State) (hh : isHint n = false) (hi : wordInfo n = some i) :
    exec (.unallocatedWord n) s = issue s i (fun x => .ok (x.done x.s x.wd)) := by
  rw [exec_unallocatedWord, execUnallocatedWord, hh, hi]
  rfl

theorem unallocatedWord_hint {n : Nat} (s : State) (hh : isHint n = true) : exec (.unallocatedWord n) s = appendHint s := by
  rw [exec_unallocatedWord, execUnallocatedWord, if_pos hh]

/-- The causes for which the tables refuse a fetch: no canonical address, FETCH_FAULT, the carve-out (R158, R159, R168, R361). -/
theorem resolve_fetch_cause {s : State} {c : Ctx} {blk : Option Nat} {kind va size cause addr : Nat} {detail : List Nat}
    (h : resolve s c blk .fetch kind va size = .error (.trap cause addr detail)) : cause = 0x10 ∨ cause = 0x05 ∨ cause = 0x1C := by
  unfold resolve at h
  rcases Nat.lt_or_ge va windowBase with hlow | hhigh
  · cases hwalk : walk s c va with
    | malformed => grind
    | invalid => grind
    | leaf l => grind
  · grind

theorem reportAddr_fetch {cause : Nat} (va : Nat) (h : cause = 0x10 ∨ cause = 0x05 ∨ cause = 0x1C) : reportAddr cause va = va := by
  rcases h with rfl | rfl | rfl <;> rfl

theorem fetchWord_refused {s : State} {c : Ctx} {w : Warp} {va : Nat} {e : AccErr} (h : resolve s c w.block .fetch 0 va 4 = .error e) :
    fetchWord s c w va = .error e := by
  unfold fetchWord
  rw [h]

theorem fetchFault_trap {s : State} {sel : Sel} {w : Warp} {c : Ctx} {cause addr : Nat} {detail : List Nat} (hcur : s.cur = some sel)
    (hw : s.warp? sel.warp = some w) (hc : s.ctx? w.ctx = some c) (hf : fetchWord s c w sel.addr.toNat = .error (.trap cause addr detail)) :
    exec .fetchFault s = .next (trapNow s sel sel.run cause (reportAddr cause addr) detail) := by
  rw [exec_fetchFault, execFetchFault]
  simp only [hcur, hw, hc, hf, stopOf]
  exact applyStop_trap_of_cur hcur _ _ _ _

/-- Settles O36: the word's cell says how its issue stops, a hint word goes the way of every hint, and a fetch takes the cause that the
tables give. -/
theorem noInstruction : Obligations.NoInstruction := by
  unfold Obligations.NoInstruction
  intro s sel w c l hcur hw hc hl hg
  refine ⟨fun hcell hh => ?unallocated, fun m hcell hm hh ho => ?reserved, fun hh => ?hint, fun cause detail hr => ?fetch⟩
  case unallocated =>
    rw [unallocatedWord_issue s hh (wordInfo_unallocated hcell), issue_illegal hcur hw hc hl hg _ rfl]
  case reserved =>
    rw [unallocatedWord_issue s hh (wordInfo_reserved hcell hm ho), issue_reserved hcur hw hc hl hg _ rfl rfl (Nat.ne_of_gt (Nat.add_pos_left hm _))]
  case hint =>
    obtain ⟨t, ht, hrest, -, -, hown⟩ := appendHint_joins hcur
    exact ⟨t, _, (unallocatedWord_hint s hh).trans ht, hown w hw, by rw [hg]; rfl, by simpa using congrArg State.mem hrest⟩
  case fetch =>
    rw [fetchFault_trap hcur hw hc (fetchWord_refused hr), reportAddr_fetch _ (resolve_fetch_cause hr)]

/-- Settles O60, by evaluation of the decoder on each word. -/
theorem decodedWords : Obligations.DecodedWords := by
  unfold Obligations.DecodedWords
  decide +kernel

end Sys2Proof.Machine
end

section
/-! SUPPORT. The immediate of `movi` (R60, R111). -/

namespace Sys2Proof.Machine

/-- The 32 bits that `movi` writes: imm18 sign-extended, or the 25 bits of `h.imm` above imm18[6:0]. -/
def moviValue (h : Hints) (i : Nat) : Word :=
  match h.imm with
  | none => (BitVec.ofNat 18 i).signExtend 32
  | some u => BitVec.ofNat 25 u ++ BitVec.ofNat 7 i

theorem signed18 (i : Nat) : signed 18 i = (BitVec.ofNat 18 i).toInt := by
  unfold signed
  rw [BitVec.toInt_eq_toNat_cond, BitVec.toNat_ofNat]
  split <;> split <;> omega

theorem imm18_sext {h : Hints} (hi : h.imm = none) (i : Nat) : BitVec.ofNat 32 (imm18 h i) = (BitVec.ofNat 18 i).signExtend 32 := by
  unfold imm18
  rw [hi, ofNat_toNat32, signed18, BitVec.signExtend]

/-- Under `h.imm` the low 7 bits of imm18 are the low bits of the immediate, as imm7 is of an ALU word. -/
theorem imm18_eq_imm7 {h : Hints} {u : Nat} (hi : h.imm = some u) (i : Nat) : imm18 h i = imm7 h (i % 2 ^ 7) := by
  unfold imm18 imm7
  rw [hi]

theorem moviValue_eq (h : Hints) (i : Nat) : BitVec.ofNat 32 (imm18 h i) = moviValue h i := by
  unfold moviValue
  cases hi : h.imm with
  | none => exact imm18_sext hi i
  | some u =>
    have hlow : BitVec.ofNat 7 (i % 2 ^ 7) = BitVec.ofNat 7 i := BitVec.eq_of_toNat_eq (by simp)
    rw [imm18_eq_imm7 hi, imm7_eq h (Nat.mod_lt i (by decide)), ofNat_toNat32, immediate, hi]
    simp only [hlow]

/-- Settles O4: both twins are ALU words that read no register and whose value is the immediate. -/
theorem moveImmediate : Obligations.MoveImmediate := by
  unfold Obligations.MoveImmediate
  intro d i _ value
  refine ⟨fun s x h hd => ?_, fun s x h hd => ?_⟩
  · have he := uniformAlu_one (fl := 0#5) h (exec_sMovi s) rfl rfl rfl ⟨by simp, by simp⟩ hd (ready_last hd)
    rwa [moviValue_eq, flagsIn_zero] at he
  · have he := perLaneAlu_one (fl := fun _ => 0#5) h (exec_vMovi s) rfl rfl (fun _ => rfl) hd (ready_last hd)
    rwa [moviValue_eq, flagsIn_zero] at he

end Sys2Proof.Machine
end

section
/-! SUPPORT. Stores, atomics, compare-and-swaps and reductions as operations with one part a lane (R136, R185 to R191). -/

namespace Sys2Proof.Machine

/-- A word whose meaning ends in an operation with one part for each lane whose access was judged. -/
theorem laneOp_issues {s : State} {i : Info} {x : Cx} {word : Instr} {body : Cx → Except Stop State} {k n op size : Nat} {kind : OpKind}
    {addr data expect : Nat → Nat} {f : Form} {dsts : List Nat} {lanes : Mask} {places : List (Nat × Place)} (h : Begins s i x)
    (he : exec word s = issue s i body) (hj : judgeLanes x.s x.c x.w.block f op size addr x.act = .ok places)
    (hb : body x = .ok (x.issueOp x.wd k kind (partsFor places addr n data expect) x.scope dsts lanes)) :
    x.IssuesOp word x.wd k kind (partsFor places addr n data expect) x.scope dsts lanes :=
  issuesOp_of h (wd_id h) (wd_ctx h) (partsFor_eq_nil hj n data expect) (he.trans (issue_next h hb))

section
variable {s : State} {x : Cx} {word : Instr} {d a b : Nat} {places : List (Nat × Place)}

/-- A store, its data the low bytes of its registers (R185). -/
theorem storeOp_issues {i : Info} {z o : Nat} {rel : Bool} (h : Begins s i x) (he : exec word s = storeOp s i z d a o rel)
    (hr : Ready x.w x.act ([a, a + 1] ++ regsFrom d ((sizeBytes z + 3) / 4)) [])
    (hj : judgeLanes x.s x.c x.w.block .store 0 (sizeBytes z) (x.addr a (byteOffset x.hints o (sizeBytes z))) x.act = .ok places)
    (hf : x.w.outstanding 1 < 63) :
    x.IssuesOp word x.wd 1 (.store (if rel then some x.scope else none))
      (partsFor places (x.addr a (byteOffset x.hints o (sizeBytes z))) (sizeBytes z)
        (fun l => x.w.words l d ((sizeBytes z + 3) / 4) % 256 ^ sizeBytes z) (fun _ => 0)) x.scope [] 0#32 := by
  refine laneOp_issues h he hj ?_
  simp only [checkRegs_ok hr, hj, holdFull_ok hf]
  rfl

/-- A returning atomic (R186 to R188). -/
theorem atomOp_issues {fn : AtomFn} (h : Begins s (memInfo false true (maReserved fn.bytes d a b true)) x)
    (he : exec word s = atomOp s fn d a b)
    (hr : Ready x.w x.act ([a, a + 1] ++ regsFrom b (fn.bytes / 4)) (regsFrom d (fn.bytes / 4)))
    (hj : judgeLanes x.s x.c x.w.block (.atomic (fn == .add64 || fn == .exch64)) x.opField fn.bytes (x.addr a 0) x.act = .ok places)
    (hf : x.w.outstanding 0 < 63) :
    x.IssuesOp word x.wd 0 (.atomic fn d)
      (partsFor places (x.addr a 0) fn.bytes (fun l => x.w.words l b (fn.bytes / 4)) (fun _ => 0)) x.scope
      (regsFrom d (fn.bytes / 4)) x.act := by
  refine laneOp_issues h he hj ?_
  simp only [checkRegs_ok hr, hj, holdFull_ok hf]
  rfl

/-- A compare-and-swap: its parts carry the expected value beside the new one (R189). -/
theorem casOp_issues {n : Nat} (h : Begins s (memInfo false true (maReserved n d a b true)) x) (he : exec word s = casOp s n d a b)
    (hr : Ready x.w x.act ([a, a + 1] ++ regsFrom d (n / 4) ++ regsFrom b (n / 4)) [])
    (hj : judgeLanes x.s x.c x.w.block (.atomic (n == 8)) x.opField n (x.addr a 0) x.act = .ok places) (hf : x.w.outstanding 0 < 63) :
    x.IssuesOp word x.wd 0 (.cas d n)
      (partsFor places (x.addr a 0) n (fun l => x.w.words l b (n / 4)) (fun l => x.w.words l d (n / 4))) x.scope
      (regsFrom d (n / 4)) x.act := by
  refine laneOp_issues h he hj ?_
  simp only [checkRegs_ok hr, hj, holdFull_ok hf]
  rfl

/-- A reduction, which returns nothing (R191). -/
theorem redOp_issues {fn : AtomFn} (h : Begins s (memInfo false true (maReserved fn.bytes 0 a b false)) x)
    (he : exec word s = redOp s fn a b) (hr : Ready x.w x.act ([a, a + 1] ++ regsFrom b (fn.bytes / 4)) [])
    (hj : judgeLanes x.s x.c x.w.block (.reduce (fn == .add64)) x.opField fn.bytes (x.addr a 0) x.act = .ok places)
    (hf : x.w.outstanding 1 < 63) :
    x.IssuesOp word x.wd 1 (.reduce fn)
      (partsFor places (x.addr a 0) fn.bytes (fun l => x.w.words l b (fn.bytes / 4)) (fun _ => 0)) x.scope [] 0#32 := by
  refine laneOp_issues h he hj ?_
  simp only [checkRegs_ok hr, hj, holdFull_ok hf]
  rfl

end

/-- Settles O19: the two stores differ in the release alone. -/
theorem storesIssue : Obligations.StoresIssue := by
  unfold Obligations.StoresIssue
  intro p hp z d a o s x places n k addr h hr hj hf
  simp only [List.mem_cons, List.not_mem_nil, or_false] at hp
  rcases hp with rfl | rfl
  · exact storeOp_issues h (exec_mSt s) hr hj hf
  · exact storeOp_issues h (exec_mStRel s) hr hj hf

end Sys2Proof.Machine
end

section
/-! SUPPORT. What the functions of atomics store (R187, R188): the integer functions on words, the packed halves, and the extremes of f32 in
the order of R113. -/

namespace Sys2Proof.Machine

/-! ### Integers -/

/-- The nine integer functions of R187, of an old value and an operand. -/
def integerFns (n : Nat) : List (BitVec n → BitVec n → BitVec n) :=
  [(fun x y => x + y), (fun x y => x &&& y), (fun x y => x ||| y), (fun x y => x ^^^ y), (fun x y => if x.toInt ≤ y.toInt then x else y),
    (fun x y => if x.toInt ≥ y.toInt then x else y), (fun x y => if x.toNat ≤ y.toNat then x else y),
    (fun x y => if x.toNat ≥ y.toNat then x else y), (fun _ y => y)]

/-- The same as numbers below 2^n, as the model computes them. -/
def integerNats (n : Nat) : List (Nat → Nat → Nat) :=
  [(fun x y => (x + y) % 2 ^ n), (fun x y => x &&& y), (fun x y => x ||| y), (fun x y => x ^^^ y),
    (fun x y => if signed n y < signed n x then y else x), (fun x y => if signed n y > signed n x then y else x), min, max, (fun _ y => y)]

section
variable {n : Nat} (x y : BitVec n)

theorem signedMin_toNat (hs : ∀ v : BitVec n, signed n v.toNat = v.toInt) :
    (if signed n y.toNat < signed n x.toNat then y.toNat else x.toNat) = (if x.toInt ≤ y.toInt then x else y).toNat := by
  rw [hs, hs]
  split <;> split <;> omega

theorem signedMax_toNat (hs : ∀ v : BitVec n, signed n v.toNat = v.toInt) :
    (if signed n y.toNat > signed n x.toNat then y.toNat else x.toNat) = (if x.toInt ≥ y.toInt then x else y).toNat := by
  rw [hs, hs]
  split <;> split <;> omega

theorem unsignedMin_toNat : min x.toNat y.toNat = (if x.toNat ≤ y.toNat then x else y).toNat := by
  split <;> omega

theorem unsignedMax_toNat : max x.toNat y.toNat = (if x.toNat ≥ y.toNat then x else y).toNat := by
  split <;> omega

end

theorem integerNats_toNat {n : Nat} (hs : ∀ v : BitVec n, signed n v.toNat = v.toInt) :
    ∀ q ∈ (integerNats n).zip (integerFns n), ∀ x y : BitVec n, q.1 x.toNat y.toNat = (q.2 x y).toNat := by
  simp only [integerNats, integerFns, List.zip_cons_cons, List.zip_nil_right, List.forall_mem_cons, List.not_mem_nil, false_imp_iff,
    implies_true, and_true]
  exact ⟨fun x y => (BitVec.toNat_add x y).symm, fun x y => (BitVec.toNat_and x y).symm, fun x y => (BitVec.toNat_or x y).symm,
    fun x y => (BitVec.toNat_xor x y).symm, fun x y => signedMin_toNat x y hs, fun x y => signedMax_toNat x y hs, unsignedMin_toNat,
    unsignedMax_toNat⟩

/-- The nine functions of a width, in the order of `integerFns`. -/
theorem integers_apply {n k : Nat} {fns : List AtomFn} (hs : ∀ v : BitVec n, signed n v.toNat = v.toInt) (hb : ∀ f ∈ fns, f.bytes = k)
    (hf : fns.map AtomFn.apply = integerNats n) :
    ∀ q ∈ fns.zip (integerFns n), q.1.bytes = k ∧ ∀ x y : BitVec n, q.1.apply x.toNat y.toNat = (q.2 x y).toNat := by
  intro q hq
  have hmem : (q.1.apply, q.2) ∈ (integerNats n).zip (integerFns n) := by
    rw [← hf, List.zip_map_left]
    exact List.mem_map_of_mem (f := Prod.map AtomFn.apply id) hq
  exact ⟨hb _ (List.of_mem_zip hq).1, integerNats_toNat hs _ hmem⟩

/-! ### Packed halves (R120) -/

theorem packed_halves (op : Nat → Nat → Nat × Flags) {lo hi x y : Nat} (hlo : lo < 2 ^ 16) (hhi : hi < 2 ^ 16) (hx : x < 2 ^ 16)
    (hy : y < 2 ^ 16) : (packed op (lo + 2 ^ 16 * hi) (x + 2 ^ 16 * y)).1 = (op lo x).1 + 2 ^ 16 * (op hi y).1 := by
  have low {p q : Nat} (hp : p < 2 ^ 16) : (p + 2 ^ 16 * q) % 2 ^ 16 = p := by omega
  have high {p q : Nat} (hp : p < 2 ^ 16) (hq : q < 2 ^ 16) : (p + 2 ^ 16 * q) / 2 ^ 16 % 2 ^ 16 = q := by omega
  unfold packed
  simp only [low hlo, low hx, high hlo hhi, high hx hy]

/-! ### The order of R113 -/

/-- A number as an integer times a power of 2 below its own. -/
theorem rat_scaled (n : Bool) (m : Nat) {e k : Int} (h : k ≤ e) :
    (FVal.fin n m e).rat = ((if n then -((m * 2 ^ (e - k).toNat : Nat) : Int) else ((m * 2 ^ (e - k).toNat : Nat) : Int) : Int) : ℚ) * 2 ^ k := by
  have he : (2 : ℚ) ^ e = 2 ^ (e - k).toNat * 2 ^ k := by
    rw [← zpow_natCast, ← zpow_add₀ two_ne_zero, Int.toNat_of_nonneg (by omega)]
    congr 1
    omega
  simp only [FVal.rat, he]
  cases n <;> push_cast <;> simp <;> ring

/-- `ltVal` on numbers is their order. -/
theorem ltVal_fin (a b : Bool) (p q : Nat) (i j : Int) :
    ltVal (.fin a p i) (.fin b q j) = decide ((FVal.fin a p i).rat < (FVal.fin b q j).rat) := by
  rw [rat_scaled a p (min_le_left i j), rat_scaled b q (min_le_right i j)]
  unfold ltVal
  rw [Bool.eq_iff_iff, decide_eq_true_iff, decide_eq_true_iff, mul_lt_mul_iff_left₀ (zpow_pos two_pos _), Int.cast_lt]
  push_cast
  rfl

theorem rat_eq_zero {n : Bool} {m : Nat} {e : Int} : (FVal.fin n m e).rat = 0 ↔ m = 0 := by
  have h2 : (2 : ℚ) ^ e ≠ 0 := zpow_ne_zero _ two_ne_zero
  cases n <;> simp [FVal.rat, h2]

theorem rat_neg_iff {n : Bool} {m : Nat} {e : Int} (hm : m ≠ 0) : (FVal.fin n m e).rat < 0 ↔ n = true := by
  have hpos : (0 : ℚ) < m * 2 ^ e := mul_pos (by positivity) (zpow_pos two_pos _)
  cases n
  · simp only [FVal.rat, Bool.false_eq_true, if_false, one_mul, iff_false]
    exact not_lt.2 hpos.le
  · simp only [FVal.rat, if_true, iff_true, neg_mul]
    linarith

/-- Numbers that are equal and not zero have one sign. -/
theorem sign_of_rat_eq {a b : Bool} {p q : Nat} {i j : Int} (h : (FVal.fin a p i).rat = (FVal.fin b q j).rat) (hp : p ≠ 0) : a = b := by
  have hq : q ≠ 0 := fun h0 => hp (rat_eq_zero.1 (h.trans (rat_eq_zero.2 h0)))
  have hneg : a = true ↔ b = true := by rw [← rat_neg_iff hp, h, rat_neg_iff hq]
  exact Bool.eq_iff_iff.2 hneg

theorem atMost_refl {x : FVal} (hx : x.isNan = false) : x.atMost x := by
  cases x with
  | nan s => cases hx
  | inf n => cases n <;> simp [FVal.atMost]
  | fin n m e => cases n <;> simp [FVal.atMost, FVal.isFinite, FVal.isNeg]

/-- What comes before in the order of R113 is at most the other. -/
theorem atMost_of_ltTotal {x y : FVal} (hx : x.isNan = false) (hy : y.isNan = false) (h : ltTotal x y = true) : x.atMost y := by
  unfold FVal.atMost
  match x, y, hx, hy with
  | .inf true, _, _, _ => exact .inl rfl
  | _, .inf false, _, _ => exact .inr (.inl rfl)
  | .inf false, .inf true, _, _ => simp [ltTotal, ltVal, FVal.isZero] at h
  | .inf false, .fin .., _, _ => simp [ltTotal, ltVal, FVal.isZero] at h
  | .fin .., .inf true, _, _ => simp [ltTotal, ltVal, FVal.isZero] at h
  | .fin a p i, .fin b q j, _, _ =>
    refine .inr (.inr ⟨rfl, rfl, ?_⟩)
    simp only [ltTotal, ltVal_fin, FVal.isZero, FVal.isNeg, Bool.or_eq_true, Bool.and_eq_true, decide_eq_true_eq, beq_iff_eq,
      Bool.not_eq_true'] at h
    rcases h with hlt | ⟨⟨⟨hp, hq⟩, ha⟩, -⟩
    · exact .inl hlt
    · exact .inr ⟨(rat_eq_zero.2 hp).trans (rat_eq_zero.2 hq).symm, .inl ha⟩

/-- The order is total: what does not come after is at most the other. -/
theorem atMost_of_not_ltTotal {x y : FVal} (hx : x.isNan = false) (hy : y.isNan = false) (h : ltTotal y x = false) : x.atMost y := by
  unfold FVal.atMost
  match x, y, hx, hy with
  | .inf true, _, _, _ => exact .inl rfl
  | _, .inf false, _, _ => exact .inr (.inl rfl)
  | .inf false, .inf true, _, _ => simp [ltTotal, ltVal] at h
  | .inf false, .fin .., _, _ => simp [ltTotal, ltVal] at h
  | .fin .., .inf true, _, _ => simp [ltTotal, ltVal] at h
  | .fin a p i, .fin b q j, _, _ =>
    refine .inr (.inr ⟨rfl, rfl, ?_⟩)
    simp only [ltTotal, ltVal_fin, FVal.isZero, FVal.isNeg, Bool.or_eq_false_iff, Bool.and_eq_false_iff, decide_eq_false_iff_not,
      not_lt, beq_eq_false_iff_ne, Bool.not_eq_false'] at h
    obtain ⟨hle, hz⟩ := h
    refine hle.lt_or_eq.imp_right (fun heq => ⟨heq, ?_⟩)
    by_cases hp : p = 0
    · have hq : q = 0 := rat_eq_zero.1 (heq.symm.trans (rat_eq_zero.2 hp))
      simp only [hp, hq, ne_eq, not_true_eq_false, false_or] at hz
      exact hz.symm
    · have hs := sign_of_rat_eq heq hp
      cases a
      · exact .inr hs.symm
      · exact .inl rfl

/-! ### `min.f32` and `max.f32` (R113, R188) -/

section
variable {a b : Nat}

theorem fpMin_nan (ha : (Fmt.f32.decode a).isNan = true) :
    (fpMin .f32 a b).1 = if (Fmt.f32.decode b).isNan then 0x7FC00000 else b := by
  cases hb : (Fmt.f32.decode b).isNan <;> simp [fpMin, ha, hb, Fmt.canonical]

theorem fpMax_nan (ha : (Fmt.f32.decode a).isNan = true) :
    (fpMax .f32 a b).1 = if (Fmt.f32.decode b).isNan then 0x7FC00000 else b := by
  cases hb : (Fmt.f32.decode b).isNan <;> simp [fpMax, ha, hb, Fmt.canonical]

variable (ha : (Fmt.f32.decode a).isNan = false)
include ha

theorem fpMin_number_nan (hb : (Fmt.f32.decode b).isNan = true) : (fpMin .f32 a b).1 = a := by simp [fpMin, ha, hb]

theorem fpMax_number_nan (hb : (Fmt.f32.decode b).isNan = true) : (fpMax .f32 a b).1 = a := by simp [fpMax, ha, hb]

variable (hb : (Fmt.f32.decode b).isNan = false)
include hb

theorem fpMin_least : IsExtreme false [a, b] (fpMin .f32 a b).1 := by
  have hmin : (fpMin .f32 a b).1 = if ltTotal (Fmt.f32.decode b) (Fmt.f32.decode a) then b else a := by simp [fpMin, ha, hb]
  rw [hmin]
  cases h : ltTotal (Fmt.f32.decode b) (Fmt.f32.decode a) with
  | true => simpa [IsExtreme, ha, hb] using ⟨atMost_of_ltTotal hb ha h, atMost_refl hb⟩
  | false => simpa [IsExtreme, ha, hb] using ⟨atMost_refl ha, atMost_of_not_ltTotal ha hb h⟩

theorem fpMax_greatest : IsExtreme true [a, b] (fpMax .f32 a b).1 := by
  have hmax : (fpMax .f32 a b).1 = if ltTotal (Fmt.f32.decode a) (Fmt.f32.decode b) then b else a := by simp [fpMax, ha, hb]
  rw [hmax]
  cases h : ltTotal (Fmt.f32.decode a) (Fmt.f32.decode b) with
  | true => simpa [IsExtreme, ha, hb] using ⟨atMost_of_ltTotal ha hb h, atMost_refl hb⟩
  | false => simpa [IsExtreme, ha, hb] using ⟨atMost_refl ha, atMost_of_not_ltTotal hb ha h⟩

end

/-! ### The words -/

/-- Settles O20: every atomic, compare-and-swap and reduction is one of three operations, and each function is one of the integer functions,
a sum rounded once, or an extreme. -/
theorem atomicsIssue : Obligations.AtomicsIssue := by
  unfold Obligations.AtomicsIssue
  intro integers
  refine ⟨integers_apply signed32 (by decide) rfl, integers_apply signed64 (by decide) rfl, fun _ _ => rfl, ?halves,
    ?extremes, ?atomics, ?swaps, ?reductions⟩
  case halves =>
    simp only [List.forall_mem_cons, List.not_mem_nil, false_imp_iff, implies_true, and_true]
    exact ⟨⟨rfl, fun _ _ _ _ => packed_halves _⟩, rfl, fun _ _ _ _ => packed_halves _⟩
  case extremes =>
    simp only [List.forall_mem_cons, List.not_mem_nil, false_imp_iff, implies_true, and_true]
    exact ⟨⟨rfl, fun _ _ _ _ => ⟨fpMin_nan, fpMin_number_nan, fpMin_least⟩⟩, rfl,
      fun _ _ _ _ => ⟨fpMax_nan, fpMax_number_nan, fpMax_greatest⟩⟩
  case atomics =>
    intro p hp d a b s
    have he : exec (p.1 d a b) s = atomOp s p.2 d a b := by fin_cases hp <;> rfl
    exact fun x places h hr hj hf => atomOp_issues h he hr hj hf
  case swaps =>
    intro p hp d a b s
    have he : exec (p.1 d a b) s = casOp s p.2 d a b := by fin_cases hp <;> rfl
    exact fun x places h hr hj hf => casOp_issues h he hr hj hf
  case reductions =>
    intro p hp a b s
    have he : exec (p.1 a b) s = redOp s p.2 a b := by fin_cases hp <;> rfl
    exact fun x places h hr hj hf => redOp_issues h he hr hj hf

end Sys2Proof.Machine
end

section
/-! SUPPORT. Square roots of fractions (R117): the fraction that the model rounds lies on the same side of each multiple of 2^-t as the root. -/

namespace Sys2Proof.Machine

/-- A fraction on the same side as the root of a number, of every multiple of 2^-t. -/
structure OnRootSide (S r : ℚ) (t : Nat) : Prop where
  below : ∀ G : Nat, (G : ℚ) / 2 ^ t < r ↔ ((G : ℚ) / 2 ^ t) ^ 2 < S
  above : ∀ G : Nat, r < (G : ℚ) / 2 ^ t ↔ S < ((G : ℚ) / 2 ^ t) ^ 2

/-! ### The root of an integer, and of a fraction -/

theorem isqrt_spec (n k r : Nat) (hlo : r * r ≤ n) (hhi : n < (r + 2 ^ k) * (r + 2 ^ k)) :
    isqrt n k r * isqrt n k r ≤ n ∧ n < (isqrt n k r + 1) * (isqrt n k r + 1) := by
  induction k generalizing r with
  | zero => exact ⟨hlo, hhi⟩
  | succ k ih =>
    rw [isqrt]
    split
    · next h => exact ih _ h (by rwa [Nat.add_assoc, ← Nat.two_mul, ← Nat.pow_succ'])
    · next h => exact ih _ hlo (Nat.lt_of_not_le h)

theorem isqrt_log2 (n : Nat) : isqrt n (Nat.log2 n / 2 + 1) 0 * isqrt n (Nat.log2 n / 2 + 1) 0 ≤ n ∧
    n < (isqrt n (Nat.log2 n / 2 + 1) 0 + 1) * (isqrt n (Nat.log2 n / 2 + 1) 0 + 1) := by
  refine isqrt_spec n _ 0 (Nat.zero_le _) ?_
  rw [Nat.zero_add, ← Nat.pow_add]
  exact Nat.lt_log2_self.trans_le (Nat.pow_le_pow_right two_pos (by omega))

section
variable {num den : Nat} (hd : 0 < den) (t G : Nat)
include hd

theorem grid_sq_lt : ((G : ℚ) / 2 ^ t) ^ 2 < num / den ↔ G * G * den < num * 2 ^ (2 * t) := by
  rw [div_pow, div_lt_div_iff₀ (by positivity) (Nat.cast_pos.2 hd), ← pow_mul, Nat.mul_comm t 2, pow_two]
  exact_mod_cast Iff.rfl

theorem lt_grid_sq : (num : ℚ) / den < ((G : ℚ) / 2 ^ t) ^ 2 ↔ num * 2 ^ (2 * t) < G * G * den := by
  rw [div_pow, div_lt_div_iff₀ (Nat.cast_pos.2 hd) (by positivity), ← pow_mul, Nat.mul_comm t 2, pow_two]
  exact_mod_cast Iff.rfl

end

theorem rootFrac_spec {num den : Nat} (hn : 0 < num) (hd : 0 < den) (t : Nat) :
    0 < (rootFrac num den t).1 ∧ 0 < (rootFrac num den t).2 ∧
      OnRootSide (num / den) ((rootFrac num den t).1 / (rootFrac num den t).2) t := by
  obtain ⟨hlo, hhi⟩ := isqrt_log2 (num * 2 ^ (2 * t) / den)
  have hN : 0 < num * 2 ^ (2 * t) := Nat.mul_pos hn (Nat.two_pow_pos _)
  unfold rootFrac
  simp only
  generalize isqrt (num * 2 ^ (2 * t) / den) ((num * 2 ^ (2 * t) / den).log2 / 2 + 1) 0 = R at *
  rw [Nat.le_div_iff_mul_le hd] at hlo
  rw [Nat.div_lt_iff_lt_mul hd] at hhi
  have hpow : (0 : ℚ) < 2 ^ t := by positivity
  by_cases hexact : R * R * den = num * 2 ^ (2 * t)
  · rw [if_pos hexact]
    have hR : 0 < R := Nat.pos_of_ne_zero (by rintro rfl; simp at hexact; omega)
    refine ⟨hR, Nat.two_pow_pos t, fun G => ?_, fun G => ?_⟩
    · rw [grid_sq_lt hd, ← hexact, Nat.mul_lt_mul_right hd, Nat.cast_pow, Nat.cast_ofNat, div_lt_div_iff_of_pos_right hpow, Nat.cast_lt,
        Nat.mul_self_lt_mul_self_iff]
    · rw [lt_grid_sq hd, ← hexact, Nat.mul_lt_mul_right hd, Nat.cast_pow, Nat.cast_ofNat, div_lt_div_iff_of_pos_right hpow, Nat.cast_lt,
        Nat.mul_self_lt_mul_self_iff]
  · rw [if_neg hexact]
    have hhalf : ((2 * R + 1 : Nat) : ℚ) / (2 ^ (t + 1) : Nat) = (R + 1 / 2) / 2 ^ t := by
      push_cast
      rw [pow_succ]
      field_simp
    refine ⟨Nat.succ_pos _, Nat.two_pow_pos _, fun G => ?_, fun G => ?_⟩
    · have hside : (G : ℚ) < R + 1 / 2 ↔ G ≤ R := by
        refine ⟨fun h => ?_, fun h => ?_⟩
        · have : (G : ℚ) < (R + 1 : Nat) := by push_cast; linarith
          exact Nat.lt_succ_iff.1 (by exact_mod_cast this)
        · have : (G : ℚ) ≤ R := by exact_mod_cast h
          linarith
      rw [hhalf, grid_sq_lt hd, div_lt_div_iff_of_pos_right hpow, hside]
      refine ⟨fun h => lt_of_le_of_lt (Nat.mul_le_mul_right _ (Nat.mul_self_le_mul_self h)) (lt_of_le_of_ne hlo hexact), fun h => ?_⟩
      exact Nat.lt_succ_iff.1 (Nat.mul_self_lt_mul_self_iff.1 (Nat.lt_of_mul_lt_mul_right (h.trans hhi)))
    · have hside : (R : ℚ) + 1 / 2 < G ↔ R + 1 ≤ G := by
        refine ⟨fun h => ?_, fun h => ?_⟩
        · have : (R : ℚ) < G := by linarith
          exact_mod_cast this
        · have : ((R + 1 : Nat) : ℚ) ≤ G := by exact_mod_cast h
          push_cast at this
          linarith
      rw [hhalf, lt_grid_sq hd, div_lt_div_iff_of_pos_right hpow, hside]
      refine ⟨fun h => hhi.trans_le (Nat.mul_le_mul_right _ (Nat.mul_self_le_mul_self h)), fun h => ?_⟩
      exact Nat.mul_self_lt_mul_self_iff.1 (Nat.lt_of_mul_lt_mul_right (hlo.trans_lt h))

/-! ### Codes and midpoints on the grid -/

theorem exists_grid (n : Nat) {k : ℤ} {t : Nat} (h : -(t : ℤ) ≤ k) : ∃ G : Nat, (n : ℚ) * 2 ^ k = G / 2 ^ t := by
  obtain ⟨j, rfl⟩ : ∃ j : Nat, k = j - t := ⟨(k + t).toNat, by omega⟩
  refine ⟨n * 2 ^ j, ?_⟩
  rw [zpow_sub₀ two_ne_zero, zpow_natCast, zpow_natCast]
  push_cast
  ring

section
variable {S r : ℚ} {t : Nat} (hside : OnRootSide S r t) (ht : 128 ≤ t)
include hside ht

/-- The same of a dyadic number with no more bits after the point. -/
theorem OnRootSide.dyadic (n : Nat) {k : ℤ} (hk : -128 ≤ k) :
    ((n : ℚ) * 2 ^ k < r ↔ ((n : ℚ) * 2 ^ k) ^ 2 < S) ∧ (r < (n : ℚ) * 2 ^ k ↔ S < ((n : ℚ) * 2 ^ k) ^ 2) := by
  obtain ⟨G, hG⟩ := exists_grid n (k := k) (t := t) (by omega)
  rw [hG]
  exact ⟨hside.below G, hside.above G⟩

end

end Sys2Proof.Machine
end

section
/-! SUPPORT. The integer words of majors 0x00 to 0x04 (R102, R103, R106 to R110) and the sign words (R114): each is one of the ways to
execute an ALU word, and its function is the word that the table gives. -/

namespace Sys2Proof.Machine

/-! ### A function in its four forms (R101, R102) -/

/-- A function of two words in its four forms: the `s.` and the `v.` twin, of two registers and of a register and the immediate. -/
def FourForms (p : (Nat → Nat → Nat → Instr) × (Nat → Nat → Nat → Instr) × (Nat → Nat → Nat → Instr) × (Nat → Nat → Nat → Instr) ×
    (Word → Word → Word)) : Prop :=
  ∀ d a b, b < 2 ^ 7 →
    UniformEffect (Info.of 0 false false false) (p.1 d a b) (fun _ => [a, b]) d (fun _ r => (p.2.2.2.2 (r a) (r b), 0#5)) ∧
    UniformEffect (Info.of 0 true false false) (p.2.1 d a b) (fun _ => [a]) d (fun h r => (p.2.2.2.2 (r a) (immediate h b), 0#5)) ∧
    LaneEffect (Info.of 1 false false false) (p.2.2.1 d a b) (fun _ => [a, b]) d (fun _ r => (p.2.2.2.2 (r a) (r b), 0#5)) ∧
    LaneEffect (Info.of 1 true false false) (p.2.2.2.1 d a b) (fun _ => [a]) d (fun h r => (p.2.2.2.2 (r a) (immediate h b), 0#5))

section
variable {s si v vi : Nat → Nat → Nat → Instr} {g : Nat → Nat → Nat} {f : Word → Word → Word}
variable (hs : ∀ {d a b : Nat} (t : State), exec (s d a b) t = uniformAlu t (Info.of 0 false false false) (alu2 d a b g))
variable (hsi : ∀ {d a b : Nat} (t : State), exec (si d a b) t = uniformAlu t (Info.of 0 true false false) (alu2i d a b g))
variable (hf : ∀ x y : Word, BitVec.ofNat 32 (g x.toNat y.toNat) = f x y)
include hs hsi hf

/-- The forms of a function whose `v.` twin keeps a storage form by the rule `k` (R28). -/
theorem fourForms_keep {k : RegForm → RegForm → Option RegForm}
    (hv : ∀ {d a b : Nat} (t : State), exec (v d a b) t = laneAlu t (Info.of 1 false false false) (alu2 d a b g) (keepRR k a b))
    (hvi : ∀ {d a b : Nat} (t : State), exec (vi d a b) t = laneAlu t (Info.of 1 true false false) (alu2i d a b g) (keepRI k a b))
    (hk : ∀ x y q, k x y = some q → ∀ l, q.get l = f (x.get l) (y.get l)) : FourForms (s, si, v, vi, f) :=
  fun _ _ _ hb => ⟨uniform_two hs hf, uniform_imm hb hsi hf, lane_two hv (keepRR_value hk) hf, lane_imm hb hvi (keepRI_value hb hk) hf⟩

/-- The forms of a function whose result is always per-lane in the `v.` twin. -/
theorem fourForms_perLane
    (hv : ∀ {d a b : Nat} (t : State), exec (v d a b) t = perLaneAlu t (Info.of 1 false false false) (alu2 d a b g))
    (hvi : ∀ {d a b : Nat} (t : State), exec (vi d a b) t = perLaneAlu t (Info.of 1 true false false) (alu2i d a b g)) :
    FourForms (s, si, v, vi, f) :=
  fun _ _ _ hb => ⟨uniform_two hs hf, uniform_imm hb hsi hf, perLane_two hv hf, perLane_imm hb hvi hf⟩

end

/-! ### Majors 0x00 and 0x01 (R106) -/

/-- A function code of a match on the codes 0 to 13 that lies above them. -/
theorem illegal_above13 {w : Nat} (hM : fld w 25 7 ∈ [0, 1, 32, 33]) (hf : 14 ≤ fld w 21 4) : decodeWord w = .error .illegalOpcode := by
  have hlt : fld w 21 4 < 16 := Nat.mod_lt _ (by decide)
  simp only [List.mem_cons, List.not_mem_nil, or_false] at hM
  obtain h14 | h15 : fld w 21 4 = 14 ∨ fld w 21 4 = 15 := by omega
  · rcases hM with h | h | h | h <;> simp only [decodeWord, h, decode00, decode01, decode20, decode21, h14]
  · rcases hM with h | h | h | h <;> simp only [decodeWord, h, decode00, decode01, decode20, decode21, h15]

/-- Settles O1: every function but `mad` is a function of two words in its four forms, and `mad` adds the third source. -/
theorem integerArithmetic : Obligations.IntegerArithmetic := by
  unfold Obligations.IntegerArithmetic
  refine ⟨fun w => illegal_above13, ?forms, fun d a b hb => ?mad⟩
  case forms =>
    change ∀ p ∈ _, FourForms p
    simp only [List.forall_mem_cons, List.not_mem_nil, false_imp_iff, implies_true, and_true]
    exact ⟨fourForms_keep exec_sAdd exec_sAddImm val_add exec_vAdd exec_vAddImm (fun _ _ _ h _ => keepAdd_value h),
      fourForms_keep exec_sSub exec_sSubImm val_sub exec_vSub exec_vSubImm (fun _ _ _ h _ => keepSub_value h),
      fourForms_keep exec_sMullo exec_sMulloImm val_mullo exec_vMullo exec_vMulloImm (fun _ _ _ h _ => keepMul_value h),
      fourForms_perLane exec_sMulhiS exec_sMulhiSImm val_mulhiS exec_vMulhiS exec_vMulhiSImm,
      fourForms_perLane exec_sMulhiZ exec_sMulhiZImm val_mulhiZ exec_vMulhiZ exec_vMulhiZImm,
      fourForms_perLane exec_sMinS exec_sMinSImm val_minS exec_vMinS exec_vMinSImm,
      fourForms_perLane exec_sMaxS exec_sMaxSImm val_maxS exec_vMaxS exec_vMaxSImm,
      fourForms_perLane exec_sMinZ exec_sMinZImm val_minZ exec_vMinZ exec_vMinZImm,
      fourForms_perLane exec_sMaxZ exec_sMaxZImm val_maxZ exec_vMaxZ exec_vMaxZImm,
      fourForms_perLane exec_sAbsdiff exec_sAbsdiffImm val_absdiff exec_vAbsdiff exec_vAbsdiffImm,
      fourForms_perLane exec_sAddsatS exec_sAddsatSImm val_addsat exec_vAddsatS exec_vAddsatSImm,
      fourForms_perLane exec_sSubsatS exec_sSubsatSImm val_subsat exec_vSubsatS exec_vSubsatSImm,
      fourForms_perLane exec_sAvgZ exec_sAvgZImm val_avg exec_vAvgZ exec_vAvgZImm⟩
  case mad =>
    exact ⟨uniformEffect_of exec_sMad (fun _ => rfl) (fun _ => rfl) (fun _ _ => ⟨_, rfl, val_mad _ _ _⟩),
      uniformEffect_of exec_sMadImm (fun _ => rfl) (fun _ => rfl) (fun h _ => ⟨_, rfl, by rw [imm7_eq h hb, val_mad, source3, third]⟩),
      perLaneEffect_of exec_vMad (fun _ => rfl) (fun _ => rfl) (fun _ _ => ⟨_, rfl, val_mad _ _ _⟩),
      perLaneEffect_of exec_vMadImm (fun _ => rfl) (fun _ => rfl) (fun h _ => ⟨_, rfl, by rw [imm7_eq h hb, val_mad, source3, third]⟩)⟩

/-! ### Majors 0x02 and 0x03 (R108) -/

/-- A function of one word in both twins. -/
def OneForms (p : (Nat → Nat → Instr) × (Nat → Nat → Instr) × (Word → Word)) : Prop :=
  ∀ d a,
    UniformEffect (Info.of 0 false false false) (p.1 d a) (fun _ => [a]) d (fun _ r => (p.2.2 (r a), 0#5)) ∧
    LaneEffect (Info.of 1 false false false) (p.2.1 d a) (fun _ => [a]) d (fun _ r => (p.2.2 (r a), 0#5))

theorem oneForms_perLane {s v : Nat → Nat → Instr} {g : Nat → Nat} {f : Word → Word}
    (hs : ∀ {d a : Nat} (t : State), exec (s d a) t = uniformAlu t (Info.of 0 false false false) (alu1 d a g))
    (hv : ∀ {d a : Nat} (t : State), exec (v d a) t = perLaneAlu t (Info.of 1 false false false) (alu1 d a g))
    (hf : ∀ x : Word, BitVec.ofNat 32 (g x.toNat) = f x) : OneForms (s, v, f) :=
  fun _ _ => ⟨uniform_one hs hf, perLane_one hv hf⟩

/-- `mov` keeps the form of its source (R28). -/
theorem oneForms_mov : OneForms (Instr.sMov, Instr.vMov, fun a => a) :=
  fun _ _ => ⟨uniform_one exec_sMov ofNat_toNat32, lane_one exec_vMov (fun _ _ _ h _ _ => keepMov_value h) ofNat_toNat32⟩

/-- Settles O2: functions of two words in four forms, of one word in both twins, and the immediate moved. -/
theorem logicAndShifts : Obligations.LogicAndShifts := by
  unfold Obligations.LogicAndShifts
  refine ⟨?forms, ?one, fun d b hb => ?movImm⟩
  case forms =>
    change ∀ p ∈ _, FourForms p
    simp only [List.forall_mem_cons, List.not_mem_nil, false_imp_iff, implies_true, and_true]
    exact ⟨fourForms_perLane exec_sAnd exec_sAndImm val_and exec_vAnd exec_vAndImm,
      fourForms_perLane exec_sOr exec_sOrImm val_or exec_vOr exec_vOrImm,
      fourForms_perLane exec_sXor exec_sXorImm val_xor exec_vXor exec_vXorImm,
      fourForms_perLane exec_sAndn exec_sAndnImm val_andn exec_vAndn exec_vAndnImm,
      fourForms_perLane exec_sOrn exec_sOrnImm val_orn exec_vOrn exec_vOrnImm,
      fourForms_perLane exec_sXnor exec_sXnorImm val_xnor exec_vXnor exec_vXnorImm,
      fourForms_keep exec_sShl exec_sShlImm val_shl exec_vShl exec_vShlImm (fun _ _ _ h _ => keepShl_value h),
      fourForms_perLane exec_sShr exec_sShrImm val_shr exec_vShr exec_vShrImm,
      fourForms_perLane exec_sSar exec_sSarImm val_sar exec_vSar exec_vSarImm,
      fourForms_perLane exec_sRotl exec_sRotlImm val_rotl exec_vRotl exec_vRotlImm,
      fourForms_perLane exec_sRotr exec_sRotrImm val_rotr exec_vRotr exec_vRotrImm⟩
  case one =>
    change ∀ p ∈ _, OneForms p
    simp only [List.forall_mem_cons, List.not_mem_nil, false_imp_iff, implies_true, and_true]
    exact ⟨oneForms_perLane exec_sClz exec_vClz val_clz, oneForms_perLane exec_sPopc exec_vPopc val_popc,
      oneForms_perLane exec_sBrev exec_vBrev val_brev, oneForms_mov, oneForms_perLane exec_sNot exec_vNot val_not⟩
  case movImm =>
    exact ⟨uniformEffect_of exec_sMovImm (fun _ => rfl) (fun _ => rfl) (fun h _ => ⟨_, rfl, by rw [imm7_eq h hb, ofNat_toNat32]⟩),
      perLaneEffect_of exec_vMovImm (fun _ => rfl) (fun _ => rfl) (fun h _ => ⟨_, rfl, by rw [imm7_eq h hb, ofNat_toNat32]⟩)⟩

/-! ### Major 0x04 (R109, R110) -/

/-- A function of two words in both twins. -/
def TwoForms (p : (Nat → Nat → Nat → Instr) × (Nat → Nat → Nat → Instr) × (Word → Word → Word)) : Prop :=
  ∀ d a b,
    UniformEffect (Info.of 0 false false false) (p.1 d a b) (fun _ => [a, b]) d (fun _ r => (p.2.2 (r a) (r b), 0#5)) ∧
    LaneEffect (Info.of 1 false false false) (p.2.1 d a b) (fun _ => [a, b]) d (fun _ r => (p.2.2 (r a) (r b), 0#5))

theorem twoForms_perLane {s v : Nat → Nat → Nat → Instr} {g : Nat → Nat → Nat} {f : Word → Word → Word}
    (hs : ∀ {d a b : Nat} (t : State), exec (s d a b) t = uniformAlu t (Info.of 0 false false false) (alu2 d a b g))
    (hv : ∀ {d a b : Nat} (t : State), exec (v d a b) t = perLaneAlu t (Info.of 1 false false false) (alu2 d a b g))
    (hf : ∀ x y : Word, BitVec.ofNat 32 (g x.toNat y.toNat) = f x y) : TwoForms (s, v, f) :=
  fun _ _ _ => ⟨uniform_two hs hf, perLane_two hv hf⟩

/-- A function of two words and the third source in both twins (R103). -/
def ThreeForms (p : (Nat → Nat → Nat → Instr) × (Nat → Nat → Nat → Instr) × (Word → Word → Word → Word)) : Prop :=
  ∀ d a b,
    UniformEffect (Info.of 0 false true false) (p.1 d a b) (fun h => [a, b, source3 h d]) d
      (fun h r => (p.2.2 (r a) (r b) (r (source3 h d)), 0#5)) ∧
    LaneEffect (Info.of 1 false true false) (p.2.1 d a b) (fun h => [a, b, source3 h d]) d
      (fun h r => (p.2.2 (r a) (r b) (r (source3 h d)), 0#5))

theorem threeForms_perLane {s v : Nat → Nat → Nat → Instr} {g : Nat → Nat → Nat → Nat} {f : Word → Word → Word → Word}
    (hs : ∀ {d a b : Nat} (t : State), exec (s d a b) t = uniformAlu t (Info.of 0 false true false) (alu3 d a b g))
    (hv : ∀ {d a b : Nat} (t : State), exec (v d a b) t = perLaneAlu t (Info.of 1 false true false) (alu3 d a b g))
    (hf : ∀ x y z : Word, BitVec.ofNat 32 (g x.toNat y.toNat z.toNat) = f x y z) : ThreeForms (s, v, f) :=
  fun _ _ _ => ⟨uniformEffect_of hs (fun _ => rfl) (fun _ => rfl) (fun _ _ => ⟨_, rfl, hf _ _ _⟩),
    perLaneEffect_of hv (fun _ => rfl) (fun _ => rfl) (fun _ _ => ⟨_, rfl, hf _ _ _⟩)⟩

/-- A function of two pairs in both twins. -/
def PairForms (p : (Nat → Nat → Nat → Instr) × (Nat → Nat → Nat → Instr) × (DWord → DWord → DWord)) : Prop :=
  ∀ d a b, d % 2 = 0 → a % 2 = 0 → b % 2 = 0 →
    UniformPairEffect (Info.of 0 false false false) (p.1 d a b) (fun _ => [a, a + 1, b, b + 1]) d
      (fun _ r => (p.2.2 (pairAt r a) (pairAt r b), 0#5)) ∧
    LanePairEffect (Info.of 1 false false false) (p.2.1 d a b) (fun _ => [a, a + 1, b, b + 1]) d
      (fun _ r => (p.2.2 (pairAt r a) (pairAt r b), 0#5))

/-- The checks of a word on its pair fields, all of them even (R45). -/
theorem info_evenPairs {c d a b : Nat} {pb : Bool} (hd : d % 2 = 0) (ha : a % 2 = 0) (hb : pb = true → b % 2 = 0) :
    (Info.of c false false false).bad (oddPairs d a b true true pb) = Info.of c false false false := by
  rw [oddPairs_even hd ha hb]
  rfl

theorem pairOf_toNat (r : Nat → Word) (n : Nat) : pairOf (fun k => (r k).toNat) n = (pairAt r n).toNat := (pairAt_toNat r n).symm

theorem pairForms_perLane {s v : Nat → Nat → Nat → Instr} {g : Nat → Nat → Nat} {f : DWord → DWord → DWord}
    (hs : ∀ {d a b : Nat} (t : State),
      exec (s d a b) t = uniformAlu t ((Info.of 0 false false false).bad (oddPairs d a b true true true)) (alu64 d a b g))
    (hv : ∀ {d a b : Nat} (t : State),
      exec (v d a b) t = perLaneAlu t ((Info.of 1 false false false).bad (oddPairs d a b true true true)) (alu64 d a b g))
    (hf : ∀ x y : DWord, BitVec.ofNat 64 (g x.toNat y.toNat) = f x y) : PairForms (s, v, f) := by
  intro d a b hd ha hb
  have hfn (r : Nat → Word) : BitVec.ofNat 64 (g (pairOf (fun n => (r n).toNat) a) (pairOf (fun n => (r n).toNat) b)) =
      f (pairAt r a) (pairAt r b) := by rw [pairOf_toNat, pairOf_toNat, hf]
  refine ⟨uniformPairEffect_of (op := alu64 d a b g) (fun t => ?_) (fun _ => rfl) (fun _ => rfl) (fun _ r => ⟨_, rfl, hfn r⟩),
    lanePairEffect_of (op := alu64 d a b g) (fun t => ?_) (fun _ => rfl) (fun _ => rfl) (fun _ r => ⟨_, rfl, hfn r⟩)⟩
  · rw [hs, info_evenPairs hd ha fun _ => hb]
  · rw [hv, info_evenPairs hd ha fun _ => hb]

/-- A function of a pair and a word in both twins. -/
def PairByForms (p : (Nat → Nat → Nat → Instr) × (Nat → Nat → Nat → Instr) × (DWord → Word → DWord)) : Prop :=
  ∀ d a b, d % 2 = 0 → a % 2 = 0 →
    UniformPairEffect (Info.of 0 false false false) (p.1 d a b) (fun _ => [a, a + 1, b]) d
      (fun _ r => (p.2.2 (pairAt r a) (r b), 0#5)) ∧
    LanePairEffect (Info.of 1 false false false) (p.2.1 d a b) (fun _ => [a, a + 1, b]) d
      (fun _ r => (p.2.2 (pairAt r a) (r b), 0#5))

theorem pairByForms_perLane {s v : Nat → Nat → Nat → Instr} {g : Nat → Nat → Nat} {f : DWord → Word → DWord}
    (hs : ∀ {d a b : Nat} (t : State),
      exec (s d a b) t = uniformAlu t ((Info.of 0 false false false).bad (oddPairs d a b true true false)) (alu64by d a b g))
    (hv : ∀ {d a b : Nat} (t : State),
      exec (v d a b) t = perLaneAlu t ((Info.of 1 false false false).bad (oddPairs d a b true true false)) (alu64by d a b g))
    (hf : ∀ (x : DWord) (y : Word), BitVec.ofNat 64 (g x.toNat y.toNat) = f x y) : PairByForms (s, v, f) := by
  intro d a b hd ha
  have hfn (r : Nat → Word) : BitVec.ofNat 64 (g (pairOf (fun n => (r n).toNat) a) (r b).toNat) = f (pairAt r a) (r b) := by
    rw [pairOf_toNat, hf]
  refine ⟨uniformPairEffect_of (op := alu64by d a b g) (fun t => ?_) (fun _ => rfl) (fun _ => rfl) (fun _ r => ⟨_, rfl, hfn r⟩),
    lanePairEffect_of (op := alu64by d a b g) (fun t => ?_) (fun _ => rfl) (fun _ => rfl) (fun _ r => ⟨_, rfl, hfn r⟩)⟩
  · rw [hs, info_evenPairs (pb := false) hd ha nofun]
  · rw [hv, info_evenPairs (pb := false) hd ha nofun]

/-- Settles O3: fields of two or three words, and pairs of two pairs or of a pair and a count. -/
theorem fieldsAndPairs : Obligations.FieldsAndPairs := by
  unfold Obligations.FieldsAndPairs
  refine ⟨?two, ?three, ?pairs, ?pairBy⟩
  case two =>
    change ∀ p ∈ _, TwoForms p
    simp only [List.forall_mem_cons, List.not_mem_nil, false_imp_iff, implies_true, and_true]
    exact ⟨twoForms_perLane exec_sBfeZ exec_vBfeZ val_bfeZ, twoForms_perLane exec_sBfeS exec_vBfeS val_bfeS⟩
  case three =>
    change ∀ p ∈ _, ThreeForms p
    simp only [List.forall_mem_cons, List.not_mem_nil, false_imp_iff, implies_true, and_true]
    exact ⟨threeForms_perLane exec_sBfi exec_vBfi val_bfi, threeForms_perLane exec_sPrmt exec_vPrmt val_prmt⟩
  case pairs =>
    change ∀ p ∈ _, PairForms p
    simp only [List.forall_mem_cons, List.not_mem_nil, false_imp_iff, implies_true, and_true]
    exact ⟨pairForms_perLane exec_sAdd64 exec_vAdd64 val_add64, pairForms_perLane exec_sSub64 exec_vSub64 val_sub64,
      pairForms_perLane exec_sMul64lo exec_vMul64lo val_mul64⟩
  case pairBy =>
    change ∀ p ∈ _, PairByForms p
    simp only [List.forall_mem_cons, List.not_mem_nil, false_imp_iff, implies_true, and_true]
    exact ⟨pairByForms_perLane exec_sShl64 exec_vShl64 val_shl64, pairByForms_perLane exec_sShr64 exec_vShr64 val_shr64,
      pairByForms_perLane exec_sSar64 exec_vSar64 val_sar64⟩

/-! ### Sign bits (R114) -/

/-- The bits of a word below bit 31. -/
theorem low31_and (a : Word) : a.toNat % 2 ^ 31 = (a &&& 0x7FFFFFFF#32).toNat := by
  rw [BitVec.toNat_and]
  exact (Nat.and_two_pow_sub_one_eq_mod _ 31).symm

theorem val_fabs (a : Word) : BitVec.ofNat 32 (a.toNat % 2 ^ 31) = a &&& 0x7FFFFFFF#32 := by rw [low31_and, ofNat_toNat32]

theorem val_fneg (a : Word) : BitVec.ofNat 32 (a.toNat ^^^ 2 ^ 31) = a ^^^ 0x80000000#32 :=
  (congrArg (BitVec.ofNat 32) (BitVec.toNat_xor a 0x80000000#32).symm).trans (ofNat_toNat32 _)

theorem val_fcopysign (a b : Word) :
    BitVec.ofNat 32 (a.toNat % 2 ^ 31 + b.toNat / 2 ^ 31 * 2 ^ 31) = (a &&& 0x7FFFFFFF#32) ||| (b &&& 0x80000000#32) := by
  apply BitVec.eq_of_getLsbD_eq
  intro i hi
  have hadd : a.toNat % 2 ^ 31 + b.toNat / 2 ^ 31 * 2 ^ 31 = 2 ^ 31 * (b.toNat / 2 ^ 31) + a.toNat % 2 ^ 31 := by omega
  rw [hadd, BitVec.getLsbD_ofNat, Nat.testBit_two_pow_mul_add _ (Nat.mod_lt _ (by decide))]
  simp only [hi, decide_true, Bool.true_and, Nat.testBit_mod_two_pow, Nat.testBit_div_two_pow, BitVec.getLsbD_or, BitVec.getLsbD_and]
  by_cases h : i < 31
  · have h1 : (0x7FFFFFFF#32).getLsbD i = true := by interval_cases i <;> rfl
    have h2 : (0x80000000#32).getLsbD i = false := by interval_cases i <;> rfl
    rw [h1, h2, BitVec.getLsbD, BitVec.getLsbD]
    simp [h]
  · obtain rfl : i = 31 := by omega
    rw [show (0x7FFFFFFF#32).getLsbD 31 = false from rfl, show (0x80000000#32).getLsbD 31 = true from rfl, BitVec.getLsbD, BitVec.getLsbD]
    simp

/-- Settles O6: the words take, flip and copy bit 31. -/
theorem signBits : Obligations.SignBits := by
  unfold Obligations.SignBits
  refine ⟨?one, fun d a b => ⟨uniform_two exec_sFcopysign val_fcopysign, perLane_two exec_vFcopysign val_fcopysign⟩⟩
  change ∀ p ∈ _, OneForms p
  simp only [List.forall_mem_cons, List.not_mem_nil, false_imp_iff, implies_true, and_true]
  exact ⟨oneForms_perLane exec_sFabs exec_vFabs val_fabs, oneForms_perLane exec_sFneg exec_vFneg val_fneg⟩

end Sys2Proof.Machine
end

section
/-! SUPPORT. Floating-point compares (R121, R122), selects and predicate reads (R123), and the functions of the predicate stack (R124, R125). -/

namespace Sys2Proof.Machine

/-! ### `fcmp` (R122) -/

/-- Bits of a code above the format's width are ignored (R254). -/
theorem decode_half {f : Fmt} (hf : f.bits = 16) (c : Nat) : f.decode (c % 2 ^ 16) = f.decode c := by
  have fields (m : Nat) (hm : m ≤ 15) : c % 2 ^ 16 / 2 ^ m % 2 ^ (15 - m) = c / 2 ^ m % 2 ^ (15 - m) ∧ c % 2 ^ 16 % 2 ^ m = c % 2 ^ m := by
    refine ⟨?_, Nat.mod_mod_of_dvd _ (pow_dvd_pow 2 (by omega))⟩
    rw [show (2 : Nat) ^ 16 = 2 ^ m * 2 ^ (16 - m) by rw [← Nat.pow_add]; congr 1; omega, Nat.mod_mul_right_div_self,
      Nat.mod_mod_of_dvd _ (pow_dvd_pow 2 (by omega))]
  have hsign : c % 2 ^ 16 / 2 ^ 15 % 2 = c / 2 ^ 15 % 2 := by omega
  have hm : f.mant ≤ 15 := by cases f <;> simp_all [Fmt.bits, Fmt.mant]
  unfold Fmt.decode
  simp only [hf, show 16 - 1 = 15 from rfl, hsign, (fields f.mant hm).1, (fields f.mant hm).2]

/-- The value that `fcmp` compares is the register read as the type. -/
theorem fcmpFmt_decode {t : Nat × (Word → FVal)} (ht : t ∈ fpTypes) (v : Word) : (fcmpFmt t.1).decode v.toNat = t.2 v := by
  simp only [fpTypes, List.mem_cons, List.not_mem_nil, or_false] at ht
  rcases ht with rfl | rfl | rfl
  · rfl
  · exact (decode_half rfl _).symm
  · exact (decode_half rfl _).symm

section
variable {c : Nat × (FVal → FVal → Bool)} (hc : c ∈ fpRelations) (x y : FVal)
include hc

theorem fpCompare_ordered : fpCompare c.1 x y =
    some (!(x.isNan || y.isNan) && c.2 x y, if c.1 ≥ 2 then x.isNan || y.isNan else x.isSignalling || y.isSignalling) := by
  simp only [fpRelations, List.mem_cons, List.not_mem_nil, or_false] at hc
  rcases hc with rfl | rfl | rfl | rfl | rfl | rfl <;> rfl

theorem fpCompare_unordered : fpCompare (c.1 + 8) x y =
    some ((x.isNan || y.isNan) || c.2 x y, x.isSignalling || y.isSignalling) := by
  simp only [fpRelations, List.mem_cons, List.not_mem_nil, or_false] at hc
  rcases hc with rfl | rfl | rfl | rfl | rfl | rfl <;> rfl

end

/-- The bit of a condition and its flag, from what the condition gives of the two operands. -/
theorem fcmpLane_of {t : Nat × (Word → FVal)} (ht : t ∈ fpTypes) {k a b : Nat} {w : Warp} {l : Nat} {r nv : Bool}
    (h : fpCompare k (t.2 (w.reg l a)) (t.2 (w.reg l b)) = some (r, nv)) : fcmpLane k t.1 a b w l = (r, if nv then flagNV else 0#5) := by
  unfold fcmpLane fcmpBit
  rw [fcmpFmt_decode ht, fcmpFmt_decode ht, h]
  rfl

/-- Settles O11: a compare of either twin takes the bit of its condition onto the stacks, in every push mode. -/
theorem floatCompares : Obligations.FloatCompares := by
  unfold Obligations.FloatCompares
  intro t ht m a b _ nan signalling both
  have both_of {k : Nat} {f : Warp → Nat → Bool × Flags} (hf : ∀ w l, fcmpLane k t.1 a b w l = f w l) : both k f :=
    ⟨uniformCompare_of exec_sFcmp hf, laneCompare_of exec_vFcmp hf⟩
  exact ⟨fun c hc => ⟨both_of (fun _ _ => fcmpLane_of ht (fpCompare_ordered hc _ _)),
      both_of (fun _ _ => fcmpLane_of ht (fpCompare_unordered hc _ _))⟩,
    both_of (fun _ _ => fcmpLane_of ht rfl), both_of (fun _ _ => fcmpLane_of ht rfl)⟩

/-! ### The checks of words that read predicate entries (R66, R182) -/

section
variable {x : Cx} {srcs dsts ks : List Nat}

/-- The sources of an `s.` twin are read in `lead`. -/
theorem ready_lead (h : Ready x.w (oneLane x.lead) srcs []) {l n : Nat} (hn : n ∈ if l = x.lead then srcs else []) :
    n < x.w.alloc ∧ x.w.isPending l n = false ∧ x.w.isBad l n = false := by
  split at hn
  · rename_i hl
    subst hl
    exact h.reads (by simp [inMask_oneLane, lead_lt]) hn
  · cases hn

theorem checkNamed_uniform (h1 : Ready x.w (oneLane x.lead) srcs []) (h2 : Ready x.w x.w.live [] dsts)
    (hp : PredsReady x.w (oneLane x.lead) ks) :
    checkNamed x.w x.everyone (fun l => if l = x.lead then srcs else []) (fun _ => dsts) (fun l => if l = x.lead then ks else []) = .ok () := by
  refine checkNamed_ok (fun l hl n hn => ?_) (fun l _ k hk => ?_) (fun l _ n hn => (ready_lead h1 hn).2.2)
  · rcases List.mem_append.1 hn with hs | hd
    · exact ⟨(ready_lead h1 hs).1, (ready_lead h1 hs).2.1⟩
    · exact h2.writes hl hd
  · split at hk
    · rename_i hl
      exact hp k hk l (by simp [hl, inMask_oneLane, lead_lt])
    · cases hk

theorem checkNamed_lanes (h : Ready x.w x.act srcs dsts) (hp : PredsReady x.w x.act ks) :
    checkNamed x.w x.act (fun _ => srcs) (fun _ => dsts) (fun _ => ks) = .ok () :=
  checkNamed_ok (fun _ hl _ hn => h.names hl hn) (fun l hl k hk => hp k hk l hl) (fun _ hl _ hn => (h.reads hl hn).2.2)

end

/-! ### Values written once and in each active lane -/

section
variable {s : State} {i : Info} {x : Cx} (h : Begins s i x) {d : Nat}
include h

/-- A word written in uniform form (R22). -/
theorem writes_uniform (hd : Ready x.w x.w.live [] [d]) (v : Word) :
    Writes x.wd (x.writeUniform x.wd [d] [v.toNat]) (oneReg x.w.live d (fun _ => v)) noFlags := by
  have hw := writeUniform_one (x := x) (w := x.wd) (v := v.toNat) (by rw [(wd_kept h).1]; exact ready_last hd) (fun l hl => wd_exited h hl)
  rwa [ofNat_toNat32] at hw

/-- A value of its own in each active lane, where there is one. -/
theorem writes_active {srcs : List Nat} (hd : Ready x.w x.act srcs [d]) {u : Nat → Nat} {v : Nat → Word}
    (hv : ∀ l, BitVec.ofNat 32 (u l) = v l) :
    Writes x.wd (if x.act = 0#32 then x.wd else x.writeLanes x.wd (fun l => [u l]) 0 [d]) (oneReg x.act d v) noFlags := by
  split
  · rename_i ha
    exact writes_congr (writes_refl _) (fun l _ _ n => by simp [noReg, oneReg, ha, inMask_zero]) (fun _ _ => rfl)
  · have hw := writeLanes_one (x := x) (w := x.wd) (k := 0) (v := fun l => [u l]) (by rw [(wd_kept h).1]; exact ready_last hd)
    simpa only [List.getD_cons_zero, hv] using hw

/-- The same of a pair. -/
theorem writes_active_pair {srcs : List Nat} (hd : Ready x.w x.act srcs [d, d + 1]) (u : Nat → Nat) :
    Writes x.wd (if x.act = 0#32 then x.wd else x.writeLanes x.wd (fun l => twoWords (u l)) 0 [d, d + 1])
      (onePair x.act d (fun l => BitVec.ofNat 64 (u l))) noFlags := by
  split
  · rename_i ha
    exact writes_congr (writes_refl _) (fun l _ _ n => by simp [noReg, onePair, ha, inMask_zero]) (fun _ _ => rfl)
  · exact writeLanes_pair (by rw [(wd_kept h).1]; exact (hd.2 (d + 1) (by simp)).1)

end

/-! ### `sel` and `pget` (R123) -/

theorem predBits_eq (y : Lane) : BitVec.ofNat 32 y.predBits = maskOf (fun k => decide (k < 8) && (y.pred k).val) := by
  apply BitVec.eq_of_getLsbD_eq
  intro i hi
  rw [BitVec.getLsbD_ofNat, Lane.predBits, fold_bits_testBit, show ∀ m : Mask, m.getLsbD i = inMask m i from fun _ => rfl, inMask_maskOf]

/-- Settles O12: the value chosen or gathered is written as an ALU word writes its own. -/
theorem selects_hold : Obligations.Selects := by
  unfold Obligations.Selects
  intro k d a b _
  refine ⟨fun s x h h1 h2 hp => ?sSel, fun s x h h1 hp => ?vSel, fun s x h h2 hp => ?sPget, fun s x h h1 hp => ?vPget⟩
  case sSel =>
    refine completes_writes h (exec_sSel s) ?_ (writes_uniform h h2 _)
    rw [checkNamed_uniform h1 h2 hp]
  case vSel =>
    refine completes_writes h (exec_vSel s) ?_ (writes_active h h1 (fun l => ofNat_toNat32 _))
    rw [checkNamed_lanes h1 hp]
  case sPget =>
    have hw := writes_uniform h h2 (BitVec.ofNat 32 (x.w.lane x.lead).predBits)
    have hlt : (x.w.lane x.lead).predBits < 2 ^ 32 := Nat.lt_trans (fold_bits_lt _ 8) (by decide)
    rw [BitVec.toNat_ofNat, Nat.mod_eq_of_lt hlt, predBits_eq] at hw
    refine completes_writes h (exec_sPget s) ?_ hw
    have hc := checkNamed_uniform (srcs := []) ⟨by simp, by simp⟩ h2 hp
    simp only [ite_self] at hc
    rw [hc]
  case vPget =>
    refine completes_writes h (exec_vPget s) ?_ (writes_active h h1 (fun l => predBits_eq _))
    rw [checkNamed_lanes h1 hp]

/-! ### Major 0x0D (R124, R125) -/

/-- Class 00 has no major 0x0D, and class 01 has the codes 0 to 8 of it. -/
theorem illegal_stackCode {w : Nat} (h : fld w 25 7 = 0x0D ∨ (fld w 25 7 = 0x2D ∧ 9 ≤ fld w 21 4)) :
    decodeWord w = .error .illegalOpcode := by
  rcases h with h | ⟨h, hf⟩
  · simp only [decodeWord, h]
  · obtain ⟨n, hn⟩ := Nat.exists_eq_add_of_le' hf
    simp only [decodeWord, h, decode2D, hn]

theorem reserved_stackWord {w : Nat} (h : fld w 25 7 = 0x2D) (hf : fld w 21 4 ≤ 8)
    (h0 : (if fld w 21 4 ≤ 6 then held w 0 18 else held w 7 14) ≠ 0) :
    decodeWord w = .error (.reservedField (if fld w 21 4 ≤ 6 then held w 0 18 else held w 7 14)) := by
  simp only [decodeWord, h]
  unfold decode2D
  have hcases : fld w 21 4 ∈ List.range 9 := List.mem_range.2 (by omega)
  generalize fld w 21 4 = f at hcases h0
  fin_cases hcases <;> exact if_neg h0

/-- The stack after `pset`: all eight entries are written. -/
theorem pred_ofFn (y : Lane) (p : Nat → Pred) {k : Nat} (hk : k < 8) :
    ({ y with preds := Vector.ofFn (fun i : Fin 8 => p i.val) } : Lane).pred k = p k := by
  simp [Lane.pred, Nat.mod_eq_of_lt hk]

theorem pred_replace (y : Lane) {n : Nat} (b : Bool) (hn : n < 8) {k : Nat} (hk : k < 8) :
    (y.setPred n (Pred.of b)).pred k = replaced n b y.pred k := pred_setPred y _ hn hk

/-- Settles O13: each function is one change of a lane's stack, and the decoder keeps its bits as R44 has them. -/
theorem predicateStack : Obligations.PredicateStack := by
  unfold Obligations.PredicateStack
  refine ⟨fun w => illegal_stackCode, fun w h hf h0 => reserved_stackWord h hf h0, fun n b hn => ?_⟩
  have replace_effect {k : Instr} {preds : List Nat} {m : Nat} (hm : m < 8) {bit : (Nat → Pred) → Bool}
      (he : ∀ s, exec k s = stackOp s [] preds (fun _ _ y => y.setPred m (Pred.of (bit y.pred)))) :
      StackEffect k [] preds (fun _ p => replaced m (bit p) p) :=
    stackEffect_of he (fun _ _ y => ⟨onlyStack_setPred _ _ _, fun _ hk _ => pred_replace y _ hm hk⟩)
  refine ⟨?ppop, ?pdup, replace_effect (by decide) exec_vPand, replace_effect (by decide) exec_vPor, replace_effect (by decide) exec_vPxor,
    replace_effect hn exec_vPnot, ?pswap, ?ppush, ?pset⟩
  case ppop => exact stackEffect_of exec_vPpop (fun _ _ y => ⟨onlyStack_popN _ _, fun _ hk _ => pred_popN _ y hk⟩)
  case pdup => exact stackEffect_of exec_vPdup (fun _ _ y => ⟨onlyStack_push _ _, fun _ hk _ => pred_push y _ hk⟩)
  case pswap =>
    refine stackEffect_of exec_vPswap (fun _ _ y => ⟨onlyStack_trans (onlyStack_setPred _ _ _) (onlyStack_setPred _ _ _), fun k hk _ => ?_⟩)
    rw [pred_replace _ _ hn hk]
    unfold replaced
    rw [pred_replace _ _ (by decide) hk, replaced]
    by_cases h0 : k = 0
    · subst h0
      by_cases h : n = 0
      · simp [h]
      · simp [Ne.symm h]
    · simp [h0]
  case ppush => exact stackEffect_of exec_vPpush (fun _ _ y => ⟨onlyStack_push _ _, fun _ hk _ => pred_push y _ hk⟩)
  case pset =>
    exact stackEffect_of exec_vPset (fun w l y => ⟨by cases y; rfl, fun _ hk _ => pred_ofFn y (fun k => Pred.of ((w.reg l b).getLsbD k)) hk⟩)

end Sys2Proof.Machine
end

section
/-! SUPPORT. The cross-lane moves (R126) and the intersection of two lists (R128). -/

namespace Sys2Proof.Machine

/-! ### Moves (R126) -/

theorem fromLane_some (w : Warp) (act : List Nat) (a l j : Nat) : BitVec.ofNat 32 (fromLane w act a l (some j)) = taken w act a l j := by
  unfold fromLane taken
  by_cases h : j ∈ act <;> simp only [h, List.contains_iff_mem, if_true, if_false, reg_val, ofNat_toNat32]

theorem fromLane_none (w : Warp) (act : List Nat) (a l : Nat) : BitVec.ofNat 32 (fromLane w act a l none) = w.reg l a := ofNat_toNat32 _

/-- A value taken from a lane, where there is one to take it from. -/
theorem fromLane_ite (w : Warp) (act : List Nat) (a l j : Nat) {p q : Prop} [Decidable p] [Decidable q] (h : ¬ p ↔ q) :
    BitVec.ofNat 32 (fromLane w act a l (if p then some j else none)) = if q then w.reg l a else taken w act a l j := by
  by_cases hp : p
  · rw [if_pos hp, if_neg (fun hq => h.2 hq hp), fromLane_some]
  · rw [if_neg hp, if_pos (h.1 hp), fromLane_none]

theorem maskWhere_eq (m : Mask) (p : Nat → Bool) : BitVec.ofNat 32 (maskWhere (lanesOf m) p) = lanesThat (lanesOf m) p := by
  have hfold : maskWhere (lanesOf m) p = (List.range 32).foldl (fun n l => if inMask m l && p l then n + 2 ^ l else n) 0 := by
    unfold maskWhere lanesOf
    rw [List.foldl_filter]
    congr 1
    funext n l
    cases inMask m l <;> rfl
  have hmem : (fun k => (lanesOf m).contains k && p k) = fun k => inMask m k && p k := by
    funext k
    rw [Bool.eq_iff_iff]
    simp only [Bool.and_eq_true, List.contains_iff_mem, mem_lanesOf]
  rw [hfold, lanesThat, hmem, maskOf]

/-- Two words are equal where their numbers are. -/
theorem val_beq (u v : Word) : (u.toNat == v.toNat) = (u == v) := by
  rw [Bool.eq_iff_iff, beq_iff_eq, beq_iff_eq, BitVec.toNat_inj]

/-- Settles O14: each function reads the lanes that the table names. -/
theorem crossLaneMoves : Obligations.CrossLaneMoves := by
  unfold Obligations.CrossLaneMoves
  intro d a b
  refine ⟨?idx, ?up, ?down, ?xor, ?bcast, ?ballot, ?sameValue⟩
  case idx => exact crossEffect_of exec_vShflIdx (fun w m l _ => ⟨_, rfl, fromLane_some ..⟩)
  case up => exact crossEffect_of exec_vShflUp (fun w m l _ => ⟨_, rfl, fromLane_ite _ _ _ _ _ (by rw [reg_val]; omega)⟩)
  case down => exact crossEffect_of exec_vShflDown (fun w m l _ => ⟨_, rfl, fromLane_ite _ _ _ _ _ (by rw [reg_val]; omega)⟩)
  case xor => exact crossEffect_of exec_vShflXor (fun w m l _ => ⟨_, rfl, fromLane_some ..⟩)
  case bcast => exact crossEffect_of exec_vBcast (fun w m l _ => ⟨_, rfl, fromLane_some ..⟩)
  case ballot =>
    refine crossEffect_of exec_vVoteBallot (fun w m l _ => ⟨_, rfl, ?_⟩)
    rw [maskWhere_eq]
    simp only [reg_val, bne, ← val_beq]
    rfl
  case sameValue =>
    refine crossEffect_of exec_vMatch (fun w m l _ => ⟨_, rfl, ?_⟩)
    rw [maskWhere_eq]
    simp only [reg_val, val_beq]

/-! ### Intersection (R128) -/

/-- A cross-lane function that writes a pair and raises no flag. -/
theorem crossOp_pair {s : State} {i : Info} {x : Cx} {k : Instr} {srcs : List Nat} {d : Nat} {g : Warp → List Nat → Nat → List Nat × Flags}
    {u : Nat → Nat} (h : Begins s i x) (he : exec k s = crossOp s i srcs [d, d + 1] g) (hr : Ready x.w x.act srcs [d, d + 1])
    (hg : ∀ l, g x.w (lanesOf x.act) l = (twoWords (u l), 0#5)) :
    ∃ w', x.Completes k x.s w' ∧ Writes x.wd w' (onePair x.act d (fun l => BitVec.ofNat 64 (u l))) noFlags := by
  have hw := writes_trans (writes_active_pair h hr u) (orFlags_writes _ x.act (fun _ => 0#5)) (fun _ => .inr (fun _ => rfl))
  refine completes_writes h he ?_ (writes_congr hw (fun _ _ _ _ => rfl) (fun l _ => by simp [noFlags]))
  simp only [hg]
  rw [checkRegs_ok hr]

/-- Two words as the numbers of a pair. -/
theorem twoWords_append {hi : Nat} (lo : Word) (hhi : hi < 2 ^ 32) :
    twoWords (hi * 2 ^ 32 + lo.toNat) = [lo.toNat, hi] ∧ BitVec.ofNat 64 (hi * 2 ^ 32 + lo.toNat) = BitVec.ofNat 32 hi ++ lo := by
  have hlo := lo.isLt
  refine ⟨?_, BitVec.eq_of_toNat_eq ?_⟩
  · unfold twoWords
    rw [show (hi * 2 ^ 32 + lo.toNat) % 2 ^ 32 = lo.toNat by omega, show (hi * 2 ^ 32 + lo.toNat) / 2 ^ 32 % 2 ^ 32 = hi by omega]
  · rw [BitVec.toNat_append, BitVec.toNat_ofNat, BitVec.toNat_ofNat, Nat.mod_eq_of_lt hhi, Nat.shiftLeft_eq, Nat.mul_comm hi,
      ← Nat.two_pow_add_eq_or_of_lt hlo]
    omega

/-- The mark of an element found, above its place. -/
theorem mark_toNat {j : Nat} (hj : j < 2 ^ 31) : (0x80000000#32 ||| BitVec.ofNat 32 j).toNat = 0x80000000 + j := by
  rw [BitVec.toNat_or, BitVec.toNat_ofNat, BitVec.toNat_ofNat, Nat.mod_eq_of_lt (by omega : j < 2 ^ 32)]
  exact (Nat.two_pow_add_eq_or_of_lt hj 1).symm

/-- The place of an element in a list of lanes' words, marked: its first index, if it stands in the list. -/
def markedPlace (lb : List Word) (v : Word) : Word :=
  match lb.idxOf? v with
  | none => 0#32
  | some j => 0x80000000#32 ||| BitVec.ofNat 32 j

theorem markedPlace_toNat {lb : List Word} (hlen : lb.length ≤ 32) (v : Word) :
    (markedPlace lb v).toNat = if (lb.map BitVec.toNat).findIdx (fun u => u == v.toNat) < (lb.map BitVec.toNat).length then
      0x80000000 + (lb.map BitVec.toNat).findIdx (fun u => u == v.toNat) else 0 := by
  have hidx : (lb.map BitVec.toNat).findIdx (fun u => u == v.toNat) = lb.findIdx (fun u => u == v) := by
    rw [List.findIdx_map]
    simp only [Function.comp_def, val_beq]
  rw [hidx, List.length_map, markedPlace, List.idxOf?, List.findIdx?_eq_guard_findIdx_lt]
  by_cases hlt : lb.findIdx (fun u => u == v) < lb.length
  · rw [if_pos hlt, Option.guard, if_pos (by simpa using hlt)]
    exact mark_toNat (by omega)
  · rw [if_neg hlt, Option.guard, if_neg (by simpa using hlt)]
    rfl

/-- How many words of a list lie at or below the last of another. -/
def advance (xs ys : List Word) : Nat := (xs.filter (fun v => decide (v ≤ ys.getLast?.getD 0#32))).length

theorem advance_toNat (xs ys : List Word) :
    ((xs.map BitVec.toNat).filter (fun v => decide (v ≤ ((ys.map BitVec.toNat).getLast?).getD 0))).length = advance xs ys := by
  have hlast : ((ys.map BitVec.toNat).getLast?).getD 0 = (ys.getLast?.getD 0#32).toNat := by
    rw [List.getLast?_map]
    cases ys.getLast? <;> rfl
  rw [hlast, List.filter_map, List.length_map]
  rfl

theorem advance_le (xs ys : List Word) : advance xs ys ≤ xs.length := List.length_filter_le _ _

/-- The words of a register in the active lanes. -/
def activeWords (x : Cx) (a : Nat) : List Word := (lanesOf x.act).map (fun k => x.w.reg k a)

theorem activeWords_toNat (x : Cx) (a : Nat) : (lanesOf x.act).map (fun k => x.w.val k a) = (activeWords x a).map BitVec.toNat := by
  rw [activeWords, List.map_map]
  rfl

theorem activeWords_length (x : Cx) (a : Nat) : (activeWords x a).length ≤ 32 := by
  rw [activeWords, List.length_map]
  exact (List.length_filter_le _ _).trans (by simp)

/-- Settles O16: the pair is the marked place of the lane's element and the two advances. -/
theorem intersection : Obligations.Intersection := by
  unfold Obligations.Intersection
  intro d a b hd s x h hr
  change ∃ w', x.Completes (.vIsect d a b) x.s w' ∧ Writes x.wd w' (onePair x.act d (fun l =>
    BitVec.ofNat 32 (advance (activeWords x b) (activeWords x a) * 2 ^ 16 + advance (activeWords x a) (activeWords x b)) ++
      markedPlace (activeWords x b) (x.w.reg l a))) noFlags
  have hadv : advance (activeWords x b) (activeWords x a) * 2 ^ 16 + advance (activeWords x a) (activeWords x b) < 2 ^ 32 := by
    have hA := (advance_le (activeWords x a) (activeWords x b)).trans (activeWords_length x a)
    have hB := (advance_le (activeWords x b) (activeWords x a)).trans (activeWords_length x b)
    omega
  have hi : ({ Info.plain 1 with reserved := misaligned d 14 1 } : Info) = Info.plain 1 := by
    rw [misaligned, pow_one, hd]
    rfl
  have he := exec_vIsect (d := d) (a := a) (b := b) s
  rw [execVIsect, hi] at he
  simp only [← (twoWords_append _ hadv).2]
  refine crossOp_pair h he hr (fun l => ?_)
  rw [(twoWords_append _ hadv).1, markedPlace_toNat (activeWords_length x b)]
  simp only [activeWords_toNat, advance_toNat]
  rfl

end Sys2Proof.Machine
end

section
/-! SUPPORT. Relative register access (R129, R130): `v.movxw` writes lane by lane, so that two lanes that write both halves of a word of the
register file never write it whole. -/

namespace Sys2Proof.Machine

/-- What a begun word leaves in the register file is settled by the state it ends in: two warps it could complete with hold the same
uncorrectable words. -/
theorem completes_bad {s : State} {i : Info} {x : Cx} {k : Instr} {v w : Warp} (h : Begins s i x) (hstep : x.c.stepping = false)
    (hv : x.Completes k x.s v) (hw : exec k s = .next (x.done x.s w)) (hid : w.id = x.w.id) (hctx : w.ctx = x.w.ctx) : v.bad = w.bad := by
  obtain ⟨hev, hiv⟩ := hv
  obtain ⟨hew, hiw⟩ := completes_of h hid hctx hw
  have hsame : x.done x.s v = x.done x.s w := Host.Outcome.next.inj (hev.symm.trans hew)
  obtain ⟨a, ha, -, hva, -⟩ := (hiv hstep).warp
  obtain ⟨b, hb, -, hwb, -⟩ := (hiw hstep).warp
  have hab : a = b := Option.some.inj (ha.symm.trans ((congrArg (State.warp? · x.w.id) hsame).trans hb))
  rw [← hva, ← hwb, hab]

/-! ### Two lanes that name one register -/

/-- The placed warp, whose word of lanes 0 and 1 of register 5 holds uncorrectable data. -/
def badWordWarp : Warp := { placedWarp with bad := [(5, 0)] }

/-- The selection of all lanes. -/
def everyLane : Sel := { warp := 3, run := allLanes, ready := allLanes, first := 0#56, addr := 0#56, word := 0#32 }

/-- That warp at issue. -/
def badWord : State := { placeWord State.reset 0 with warps := [badWordWarp], cur := some everyLane }

def badWordCx : Cx where
  s := badWord
  w := badWordWarp
  wd := badWordWarp
  c := placedCtx
  l := placedLaunch
  sel := everyLane
  hints := Hints.none
  act := allLanes

theorem begins_badWord : Begins badWord (Info.plain 1) badWordCx := by
  unfold Begins
  decide +kernel

/-- Register 2 holds 0 in every lane, so with the constant 5 every lane names register 5. -/
theorem index_badWord (l : Nat) (hl : inMask allLanes l = true) : (badWordWarp.reg l 2).toNat + 5 = 5 := by
  have hall : ∀ k, k < 32 → (badWordWarp.reg k 2).toNat + 5 = 5 := by decide +kernel
  exact hall l (inMask_lt hl)

theorem alloc_badWord : badWordWarp.alloc = 128 := by decide +kernel

theorem isPending_badWord (l n : Nat) : badWordWarp.isPending l n = false := rfl

theorem isBad_badWord {n : Nat} (l : Nat) (hn : n ≠ 5) : badWordWarp.isBad l n = false := by simp [Warp.isBad, badWordWarp, hn]

/-- The warp after `v.movxw` of register 4. -/
def badWordMoved : Warp := badWordCx.scatter 4 2 5 badWordWarp (lanesOf allLanes)

theorem exec_badWord : exec (.vMovxw 4 2 5) badWord = .next (badWordCx.done badWord badWordMoved) := by
  rw [exec_vMovxw]
  refine issue_next begins_badWord ?_
  have hrange : relRange badWordCx.w badWordCx.act 2 4 5 = .ok () := by decide +kernel
  have hrel : checkRel badWordCx.w badWordCx.act (fun _ => [2, 4]) (fun l => relReg badWordCx.w 2 5 l) = .ok () := by decide +kernel
  rw [hrange]
  simp only
  rw [hrel]
  rfl

/-- Refutes O17: lanes 0 and 1 write both halves of a word of register 5 that holds uncorrectable data, each by its own index. The statement
has the word written whole, and so good; the model writes it lane by lane, each time in half, and the word stays as it was. -/
theorem not_relativeRegisters : ¬ Obligations.RelativeRegisters := by
  unfold Obligations.RelativeRegisters
  intro hall
  obtain ⟨-, -, -, hmovxw⟩ := hall 4 2 5
  have hsrcs : Ready badWordWarp allLanes [2, 4] [] := by
    refine ⟨fun n hn => ⟨?_, fun l _ => ⟨isPending_badWord l n, isBad_badWord l ?_⟩⟩, by simp⟩ <;>
      simp only [List.mem_cons, List.not_mem_nil, or_false] at hn
    · rw [alloc_badWord]
      omega
    · omega
  have hdst (l : Nat) (hl : inMask allLanes l = true) : Ready badWordWarp (oneLane l) [] [(badWordWarp.reg l 2).toNat + 5] := by
    rw [index_badWord l hl]
    refine ⟨by simp, fun n hn => ⟨?_, fun k _ => isPending_badWord k n⟩⟩
    rw [List.mem_singleton.1 hn, alloc_badWord]
    decide
  obtain ⟨w', hcompletes, hwrites⟩ := hmovxw badWord badWordCx begins_badWord hsrcs hdst
  have hbad : w'.bad = badWordMoved.bad :=
    completes_bad begins_badWord rfl hcompletes exec_badWord (by decide +kernel) (by decide +kernel)
  have hstays : (5, 0) ∈ badWordMoved.bad := by decide +kernel
  obtain ⟨-, hwhole⟩ := (hwrites.bad (5, 0)).1 (hbad ▸ hstays)
  exact absurd hwhole (by decide +kernel)

end Sys2Proof.Machine
end

section
/-! SUPPORT. Rounding (R12, R254 to R256): the numbers that codes hold are in the order of the codes, and Round gives one of the two codes
around a number as the mode says. -/

namespace Sys2Proof.Machine

/-! ### Fractions scaled by powers of two -/

theorem scaleUp_cast (x : Nat) (k : Int) : (scaleUp x k : ℚ) = x * 2 ^ max k 0 := by
  unfold scaleUp
  split
  · rename_i h
    obtain ⟨n, rfl⟩ := Int.eq_ofNat_of_zero_le h
    simp
  · rename_i h
    rw [max_eq_right (by omega), zpow_zero, mul_one]

theorem two_zpow_pos (k : Int) : (0 : ℚ) < 2 ^ k := zpow_pos two_pos k

theorem two_zpow_max (k : Int) : (2 : ℚ) ^ max k 0 = 2 ^ max (-k) 0 * 2 ^ k := by
  rw [← zpow_add₀ two_ne_zero]
  congr 1
  omega

theorem scaleUp_ratio (x y : Nat) (k : Int) : (scaleUp x (-k) : ℚ) / scaleUp y k = x / y / 2 ^ k := by
  have h1 := (two_zpow_pos k).ne'
  have h2 := (two_zpow_pos (max (-k) 0)).ne'
  rw [scaleUp_cast, scaleUp_cast, two_zpow_max k]
  by_cases hy : (y : ℚ) = 0
  · simp [hy]
  · field_simp

theorem scaleUp_lt (x y : Nat) (k : Int) : scaleUp x (-k) < scaleUp y k ↔ (x : ℚ) < y * 2 ^ k := by
  rw [← Nat.cast_lt (α := ℚ), scaleUp_cast, scaleUp_cast, two_zpow_max k, mul_left_comm, mul_comm (x : ℚ),
    mul_lt_mul_iff_right₀ (two_zpow_pos _)]

theorem scaleUp_pos {x : Nat} (k : Int) (hx : 0 < x) : 0 < scaleUp x k := by
  unfold scaleUp
  split
  · exact Nat.mul_pos hx (Nat.two_pow_pos _)
  · exact hx

/-- The leading bit of a fraction. -/
theorem leading_spec {num den : Nat} (hn : 0 < num) (hd : 0 < den) :
    (2 : ℚ) ^ leading num den ≤ num / den ∧ (num : ℚ) / den < 2 ^ (leading num den + 1) := by
  have hden : (0 : ℚ) < den := Nat.cast_pos.2 hd
  have hn1 : (2 : ℚ) ^ (Nat.log2 num : ℤ) ≤ num := by exact_mod_cast Nat.log2_self_le hn.ne'
  have hn2 : (num : ℚ) < 2 ^ ((Nat.log2 num : ℤ) + 1) := by exact_mod_cast Nat.lt_log2_self
  have hd1 : (2 : ℚ) ^ (Nat.log2 den : ℤ) ≤ den := by exact_mod_cast Nat.log2_self_le hd.ne'
  have hd2 : (den : ℚ) < 2 ^ ((Nat.log2 den : ℤ) + 1) := by exact_mod_cast Nat.lt_log2_self
  have hlow : (2 : ℚ) ^ ((Nat.log2 num : ℤ) - Nat.log2 den - 1) ≤ num / den := by
    rw [le_div_iff₀ hden]
    calc (2 : ℚ) ^ ((Nat.log2 num : ℤ) - Nat.log2 den - 1) * den
        ≤ 2 ^ ((Nat.log2 num : ℤ) - Nat.log2 den - 1) * 2 ^ ((Nat.log2 den : ℤ) + 1) := by gcongr
      _ = 2 ^ (Nat.log2 num : ℤ) := by rw [← zpow_add₀ two_ne_zero]; congr 1; omega
      _ ≤ num := hn1
  have hhigh : (num : ℚ) / den < 2 ^ ((Nat.log2 num : ℤ) - Nat.log2 den + 1) := by
    rw [div_lt_iff₀ hden]
    calc (num : ℚ) < 2 ^ ((Nat.log2 num : ℤ) + 1) := hn2
      _ = 2 ^ ((Nat.log2 num : ℤ) - Nat.log2 den + 1) * 2 ^ (Nat.log2 den : ℤ) := by rw [← zpow_add₀ two_ne_zero]; congr 1; omega
      _ ≤ 2 ^ ((Nat.log2 num : ℤ) - Nat.log2 den + 1) * den := by gcongr
  unfold leading
  simp only [scaleUp_lt]
  split
  · rename_i h
    refine ⟨hlow, ?_⟩
    rw [sub_add_cancel, div_lt_iff₀ hden, mul_comm]
    exact h
  · rename_i h
    refine ⟨?_, hhigh⟩
    rw [le_div_iff₀ hden, mul_comm]
    exact not_lt.1 h

/-! ### Rounding to an integer -/

/-- `n` is the integer at or below `a`, or the next one where `a` is not an integer and the mode goes up (R12). -/
def nearInt (m : Rm) (neg : Bool) (a : ℚ) (n : Nat) : Nat :=
  if a = n then n else if roundsUp m neg (n % 2 == 1) n a (n + 1) then n + 1 else n

theorem roundsUp_scale (m : Rm) (neg odd : Bool) (lo a hi : ℚ) {t : ℚ} (ht : 0 < t) :
    roundsUp m neg odd (lo * t) (a * t) (hi * t) = roundsUp m neg odd lo a hi := by
  have hlt : (lo * t + hi * t < 2 * (a * t)) ↔ (lo + hi < 2 * a) := by
    rw [← add_mul, ← mul_assoc, mul_lt_mul_iff_left₀ ht]
  have heq : (lo * t + hi * t = 2 * (a * t)) ↔ (lo + hi = 2 * a) := by
    rw [← add_mul, ← mul_assoc, mul_left_inj' ht.ne']
  cases m <;> simp only [roundsUp, hlt, heq]

theorem roundNat_spec (m : Rm) (neg : Bool) (num : Nat) {den : Nat} (hd : 0 < den) :
    ((num / den : Nat) : ℚ) ≤ num / den ∧ (num : ℚ) / den < (num / den : Nat) + 1 ∧
    roundNat m neg num den = (nearInt m neg (num / den) (num / den), decide ((num : ℚ) / den = (num / den : Nat))) := by
  have hden : (0 : ℚ) < den := Nat.cast_pos.2 hd
  have hr : num % den < den := Nat.mod_lt _ hd
  have hsplit : (num : ℚ) = den * (num / den : Nat) + (num % den : Nat) := by exact_mod_cast (Nat.div_add_mod num den).symm
  generalize hq : num / den = q at *
  generalize hrr : num % den = r at *
  have hdiv : (num : ℚ) / den = q + r / den := by rw [hsplit]; field_simp
  have hzero : (q : ℚ) + r / den = q ↔ r = 0 := by simp [hden.ne']
  have hhalf : (q : ℚ) + (q + 1) < 2 * (q + r / den) ↔ 2 * r > den := by
    rw [show (q : ℚ) + (q + 1) < 2 * (q + r / den) ↔ (den : ℚ) < 2 * r by
      rw [← mul_lt_mul_iff_left₀ hden, mul_assoc 2, add_mul (q : ℚ) (r / den), div_mul_cancel₀ _ hden.ne']
      constructor <;> intro h <;> linarith]
    exact_mod_cast Iff.rfl
  have htie : (q : ℚ) + (q + 1) = 2 * (q + r / den) ↔ 2 * r = den := by
    rw [show (q : ℚ) + (q + 1) = 2 * (q + r / den) ↔ (2 * r : ℚ) = den by
      rw [← mul_left_inj' hden.ne', mul_assoc 2, add_mul (q : ℚ) (r / den), div_mul_cancel₀ _ hden.ne']
      constructor <;> intro h <;> linarith]
    exact_mod_cast Iff.rfl
  rw [hdiv]
  refine ⟨le_add_of_nonneg_right (by positivity), ?_, ?_⟩
  · rw [add_lt_add_iff_left, div_lt_one hden]
    exact_mod_cast hr
  · unfold roundNat nearInt
    simp only [hq, hrr, hzero]
    by_cases h0 : r = 0
    · subst h0
      cases m <;> simp [hd.ne]
    · rw [if_neg h0]
      cases m <;> cases neg <;> simp [roundsUp, hhalf, htie, h0]

/-- The same in multiples of a quantum `t`. -/
def nearMultiple (m : Rm) (neg : Bool) (a t : ℚ) (n : Nat) : Nat :=
  if a = n * t then n else if roundsUp m neg (n % 2 == 1) (n * t) a ((n + 1) * t) then n + 1 else n

theorem nearMultiple_bounds (m : Rm) (neg : Bool) (a t : ℚ) (n : Nat) : n ≤ nearMultiple m neg a t n ∧ nearMultiple m neg a t n ≤ n + 1 := by
  unfold nearMultiple
  split
  · omega
  · split <;> omega

theorem nearMultiple_scale (m : Rm) (neg : Bool) (a : ℚ) {t : ℚ} (ht : 0 < t) (n : Nat) :
    nearInt m neg (a / t) n = nearMultiple m neg a t n := by
  have hs := roundsUp_scale m neg (n % 2 == 1) n (a / t) (n + 1) ht
  rw [div_mul_cancel₀ _ ht.ne'] at hs
  rw [nearInt, nearMultiple, hs]
  simp only [div_eq_iff ht.ne']

/-- Rounding at the quantum 2^k: `n` counts the quanta at or below the number. -/
theorem roundAt_spec (m : Rm) (neg : Bool) (num : Nat) {den : Nat} (hd : 0 < den) (k : Int) :
    ∃ n : Nat, n * 2 ^ k ≤ (num : ℚ) / den ∧ (num : ℚ) / den < (n + 1) * 2 ^ k ∧
      roundAt m neg num den k = (nearMultiple m neg (num / den) (2 ^ k) n, decide ((num : ℚ) / den = n * 2 ^ k)) := by
  have hk := two_zpow_pos k
  obtain ⟨hlo, hhi, heq⟩ := roundNat_spec m neg (scaleUp num (-k)) (scaleUp_pos k hd)
  generalize scaleUp num (-k) / scaleUp den k = n at *
  rw [scaleUp_ratio] at *
  refine ⟨n, (le_div_iff₀ hk).1 hlo, (div_lt_iff₀ hk).1 hhi, ?_⟩
  rw [roundAt, heq, nearMultiple_scale m neg _ hk]
  simp only [div_eq_iff hk.ne']

/-! ### The number that a code holds (R254) -/

section
variable (f : Fmt)

/-- The exponent code of a code, 1 for the codes below the smallest normal number, which share its exponent. -/
def Fmt.expo (c : Nat) : Nat := max (c / 2 ^ f.mant) 1

/-- The significand of a code. -/
def Fmt.signif (c : Nat) : Nat := c - (f.expo c - 1) * 2 ^ f.mant

/-- The number that a code holds where every exponent code is that of numbers. -/
def Fmt.value (c : Nat) : ℚ := f.signif c * 2 ^ ((f.expo c : ℤ) - f.bias - f.mant)

variable {f}

theorem mant_pos : 0 < f.mant := by cases f <;> decide

/-- Significand and exponent code of a code: each code is made of them. -/
theorem code_parts (c : Nat) : 1 ≤ f.expo c ∧ (f.expo c - 1) * 2 ^ f.mant + f.signif c = c ∧ f.signif c < 2 ^ (f.mant + 1) ∧
    (f.expo c = 1 ∨ 2 ^ f.mant ≤ f.signif c) := by
  have hdiv := Nat.div_add_mod' c (2 ^ f.mant)
  have hmod := Nat.mod_lt c (Nat.two_pow_pos f.mant)
  have hpow : 2 ^ (f.mant + 1) = 2 * 2 ^ f.mant := by ring
  unfold Fmt.signif Fmt.expo
  rcases Nat.eq_zero_or_pos (c / 2 ^ f.mant) with h | h
  · rw [h] at hdiv ⊢
    simp only [zero_le, sup_of_le_right, le_refl, Nat.sub_self, Nat.zero_mul, Nat.sub_zero, true_or, and_true, true_and, Nat.zero_add]
    omega
  · obtain ⟨e, he⟩ : ∃ e, c / 2 ^ f.mant = e + 1 := ⟨c / 2 ^ f.mant - 1, by omega⟩
    rw [he] at hdiv ⊢
    rw [max_eq_left (by omega), Nat.add_sub_cancel]
    rw [Nat.succ_mul] at hdiv
    omega

/-- The number of a code that is made of an exponent code and a significand, a full one included. -/
theorem value_code {e n : Nat} (he : 1 ≤ e) (hn : n ≤ 2 ^ (f.mant + 1)) (hlow : e = 1 ∨ 2 ^ f.mant ≤ n) :
    f.value ((e - 1) * 2 ^ f.mant + n) = n * 2 ^ ((e : ℤ) - f.bias - f.mant) := by
  have hpow : 2 ^ (f.mant + 1) = 2 * 2 ^ f.mant := by ring
  have hp := Nat.two_pow_pos f.mant
  rcases Nat.lt_or_eq_of_le hn with hlt | rfl
  · have hexpo : f.expo ((e - 1) * 2 ^ f.mant + n) = e := by
      unfold Fmt.expo
      rw [Nat.add_comm, Nat.add_mul_div_right _ _ hp]
      rcases Nat.lt_or_ge n (2 ^ f.mant) with h | h
      · rw [Nat.div_eq_of_lt h]
        omega
      · rw [show n / 2 ^ f.mant = 1 from Nat.div_eq_of_lt_le (by omega) (by omega)]
        omega
    rw [Fmt.value, Fmt.signif, hexpo, Nat.add_sub_cancel_left]
  · have hexpo : f.expo ((e - 1) * 2 ^ f.mant + 2 ^ (f.mant + 1)) = e + 1 := by
      unfold Fmt.expo
      rw [hpow, ← Nat.add_mul, Nat.mul_div_cancel _ hp]
      omega
    have hsig : f.signif ((e - 1) * 2 ^ f.mant + 2 ^ (f.mant + 1)) = 2 ^ f.mant := by
      obtain ⟨k, rfl⟩ : ∃ k, e = k + 1 := ⟨e - 1, by omega⟩
      rw [Fmt.signif, hexpo, hpow, Nat.add_sub_cancel, Nat.add_sub_cancel, Nat.succ_mul k]
      omega
    rw [Fmt.value, hexpo, hsig, hpow, show ((e + 1 : Nat) : ℤ) - f.bias - f.mant = (e - f.bias - f.mant) + 1 by push_cast; ring,
      zpow_add_one₀ two_ne_zero]
    push_cast
    ring

/-- A code and the next one are one quantum apart. -/
theorem value_succ (c : Nat) : f.value (c + 1) = (f.signif c + 1) * 2 ^ ((f.expo c : ℤ) - f.bias - f.mant) := by
  obtain ⟨he, hc, hlt, hlow⟩ := code_parts (f := f) c
  have h := value_code (f := f) (n := f.signif c + 1) he hlt (hlow.imp_right (fun h => by omega))
  rw [← Nat.add_assoc, hc] at h
  rw [h]
  push_cast
  rfl

theorem value_strictMono : StrictMono f.value := by
  refine strictMono_nat_of_lt_succ (fun c => ?_)
  rw [value_succ, Fmt.value]
  exact mul_lt_mul_of_pos_right (lt_add_one _) (two_zpow_pos _)

theorem value_zero : f.value 0 = 0 := by simp [Fmt.value, Fmt.signif]

theorem value_nonneg (c : Nat) : 0 ≤ f.value c := mul_nonneg (Nat.cast_nonneg _) (two_zpow_pos _).le

/-- A number lies between one code and the next only. -/
theorem code_unique {a : ℚ} {c d : Nat} (hc : f.value c ≤ a) (hc' : a < f.value (c + 1)) (hd : f.value d ≤ a) (hd' : a < f.value (d + 1)) :
    c = d := by
  have h1 := value_strictMono.lt_iff_lt.1 (hc.trans_lt hd')
  have h2 := value_strictMono.lt_iff_lt.1 (hd.trans_lt hc')
  omega

/-- A small multiple of a power of two that is not below the least quantum is the number of a code. -/
theorem exists_value {n : Nat} {e : Int} (hn : n ≤ 2 ^ (f.mant + 1)) (he : 1 - (f.bias : ℤ) - f.mant ≤ e) :
    ∃ c, f.value c = n * 2 ^ e := by
  obtain ⟨k, rfl⟩ : ∃ k : Nat, e = 1 - (f.bias : ℤ) - f.mant + k := ⟨(e - (1 - f.bias - f.mant)).toNat, by omega⟩
  induction k generalizing n with
  | zero => exact ⟨_, by rw [value_code (f := f) le_rfl hn (.inl rfl)]; push_cast; ring_nf⟩
  | succ k ih =>
    rcases Nat.lt_or_ge n (2 ^ f.mant) with h | h
    · obtain ⟨c, hc⟩ := ih (n := 2 * n) (by rw [Nat.pow_succ]; omega) (by omega)
      refine ⟨c, ?_⟩
      rw [hc, show (1 : ℤ) - f.bias - f.mant + (k + 1 : Nat) = (1 - f.bias - f.mant + k) + 1 by push_cast; ring, zpow_add_one₀ two_ne_zero]
      push_cast
      ring
    · refine ⟨_, (value_code (f := f) (e := k + 2) (by omega) hn (.inr h)).trans ?_⟩
      congr 2
      push_cast
      ring

end

end Sys2Proof.Machine
end

section
/-! SUPPORT. Round (R256): which code it gives, what it gives past the largest, and what is tiny. -/

namespace Sys2Proof.Machine

/-! ### Codes as numbers, and numbers as codes (R254, R255) -/

section
variable {f : Fmt}

/-- The fields of a code with a sign. -/
theorem sign_fields (neg : Bool) {c : Nat} (hc : c < 2 ^ (f.bits - 1)) :
    ((f.sign neg + c) / 2 ^ (f.bits - 1) % 2 == 1) = neg ∧ (f.sign neg + c) / 2 ^ f.mant % 2 ^ (f.bits - 1 - f.mant) = c / 2 ^ f.mant ∧
      (f.sign neg + c) % 2 ^ f.mant = c % 2 ^ f.mant := by
  cases f <;> cases neg <;> simp only [Fmt.bits, Fmt.mant, Fmt.sign, Bool.false_eq_true, if_false, if_true, beq_iff_eq,
    beq_eq_false_iff_ne] at hc ⊢ <;> omega

theorem largest_lt : f.largest < 2 ^ (f.bits - 1) := by cases f <;> decide

/-- A code up to the largest holds a number: its significand at the quantum of its exponent. -/
theorem decode_code (neg : Bool) {c : Nat} (hc : c ≤ f.largest) :
    f.decode (f.sign neg + c) = .fin neg (f.signif c) ((f.expo c : ℤ) - f.bias - f.mant) := by
  obtain ⟨hs, he, hm⟩ := sign_fields (f := f) neg (hc.trans_lt largest_lt)
  have hdiv := Nat.div_add_mod' c (2 ^ f.mant)
  have htop : ¬(f.ieee && c / 2 ^ f.mant == 2 ^ (f.bits - 1 - f.mant) - 1) = true := by
    cases f <;> simp [Fmt.ieee, Fmt.mant, Fmt.bits, Fmt.largest] at hc ⊢ <;> omega
  have hnan : ¬(f == .e4m3 && c / 2 ^ f.mant == 2 ^ (f.bits - 1 - f.mant) - 1 && c % 2 ^ f.mant == 7) = true := by
    cases f <;> simp [Fmt.mant, Fmt.bits, Fmt.largest] at hc ⊢
    omega
  unfold Fmt.decode
  simp only [hs, he, hm, if_neg htop, if_neg hnan, beq_iff_eq]
  rw [Fmt.signif, Fmt.expo]
  rcases Nat.eq_zero_or_pos (c / 2 ^ f.mant) with h | h
  · rw [if_pos h, h]
    rw [h, Nat.zero_mul, Nat.zero_add] at hdiv
    simp [hdiv]
  · rw [if_neg h.ne', max_eq_left (by omega)]
    congr 1
    obtain ⟨e, hE⟩ : ∃ e, c / 2 ^ f.mant = e + 1 := ⟨c / 2 ^ f.mant - 1, by omega⟩
    rw [hE, Nat.succ_mul] at hdiv
    rw [hE, Nat.add_sub_cancel]
    omega

theorem rat_fin (neg : Bool) (n : Nat) (e : Int) : (FVal.fin neg n e).rat = (if neg then -1 else 1) * (n * 2 ^ e) := by
  rw [FVal.rat, mul_assoc]

theorem abs_rat_fin (neg : Bool) (n : Nat) (e : Int) : |(FVal.fin neg n e).rat| = n * 2 ^ e := by
  have h : (0 : ℚ) ≤ n * 2 ^ e := mul_nonneg (Nat.cast_nonneg _) (two_zpow_pos _).le
  rw [rat_fin]
  cases neg <;> simp [abs_of_nonneg h]

theorem rat_code (neg : Bool) {c : Nat} (hc : c ≤ f.largest) :
    (f.decode (f.sign neg + c)).rat = (if neg then -1 else 1) * f.value c := by
  rw [decode_code neg hc, rat_fin, Fmt.value]

theorem mag_eq_value {c : Nat} (hc : c ≤ f.largest) : f.mag c = f.value c := by
  have h := decode_code (f := f) false hc
  rw [Fmt.sign, if_neg Bool.false_ne_true, Nat.zero_add] at h
  rw [Fmt.mag, h, abs_rat_fin, Fmt.value]

end

/-! ### The code that a number rounds to -/

/-- The code that a magnitude from `c` on, below the next code, rounds to. -/
def Fmt.nearCode (f : Fmt) (m : Rm) (neg : Bool) (a : ℚ) (c : Nat) : Nat :=
  if a = f.value c then c else if roundsUp m neg (c % 2 == 1) (f.value c) a (f.value (c + 1)) then c + 1 else c

/-- What a magnitude that goes above the largest code gives. -/
def Fmt.overflowed (f : Fmt) (m : Rm) (sat neg : Bool) : Nat × Flags :=
  if overflowsOut m neg && !sat && f.ieee then (f.sign neg + f.infinity, flagOF ||| flagNX)
  else if overflowsOut m neg && !sat && f == .e4m3 then (f.canonical, flagOF ||| flagNX)
  else (f.sign neg + f.largest, if sat then flagNX else flagOF ||| flagNX)

/-- A magnitude that, rounded with an unbounded exponent, lies below the smallest normal number. -/
abbrev Fmt.Tiny (f : Fmt) (m : Rm) (neg : Bool) (a : ℚ) : Prop :=
  a ≤ f.value (2 ^ f.mant) - 2 ^ (-(f.bias : ℤ) - f.mant) ∨
    (a < f.value (2 ^ f.mant) ∧ roundsUp m neg true (f.value (2 ^ f.mant) - 2 ^ (-(f.bias : ℤ) - f.mant)) a (f.value (2 ^ f.mant)) = false)

section
variable {f : Fmt}

theorem value_least : f.value (2 ^ f.mant) = 2 ^ (1 - (f.bias : ℤ)) := by
  have h := value_code (f := f) (e := 1) (n := 2 ^ f.mant) le_rfl (Nat.pow_le_pow_right two_pos (Nat.le_succ _)) (.inl rfl)
  rw [Nat.sub_self, Nat.zero_mul, Nat.zero_add] at h
  rw [h]
  push_cast
  rw [← zpow_natCast, ← zpow_add₀ two_ne_zero]
  congr 1
  omega

/-- The number below the smallest normal one that a mantissa of the format can hold. -/
theorem value_below : f.value (2 ^ f.mant) - 2 ^ (-(f.bias : ℤ) - f.mant) =
    ((2 : ℚ) ^ (f.mant + 1) - 1) * 2 ^ (-(f.bias : ℤ) - f.mant) := by
  rw [value_least, sub_mul, one_mul, ← zpow_natCast, ← zpow_add₀ two_ne_zero]
  congr 2
  push_cast
  ring

/-- The parity of a code is that of its significand. -/
theorem code_parity (e n : Nat) : ((e - 1) * 2 ^ f.mant + n) % 2 = n % 2 := by
  obtain ⟨k, hk⟩ : ∃ k, f.mant = k + 1 := ⟨f.mant - 1, by have := mant_pos (f := f); omega⟩
  rw [hk, Nat.pow_succ, ← Nat.mul_assoc, Nat.mul_add_mod_self_right]

theorem value_largest : f.value f.largest = (2 ^ f.mant + f.largest % 2 ^ f.mant : Nat) *
    2 ^ (((f.largest / 2 ^ f.mant : Nat) : ℤ) - f.bias - f.mant) := by
  have h : f.expo f.largest = f.largest / 2 ^ f.mant ∧ f.signif f.largest = 2 ^ f.mant + f.largest % 2 ^ f.mant := by cases f <;> decide
  rw [Fmt.value, h.1, h.2]

/-! ### The model's own tests -/

/-- The code that the model makes of `r` quanta of an octave. -/
theorem code_of_quanta {e r : Nat} (he : 1 ≤ e) (hlow : e = 1 ∨ 2 ^ f.mant ≤ r) :
    (if r < 2 ^ f.mant then r else ((e : ℤ) - f.bias - f.mant + f.mant + f.bias).toNat * 2 ^ f.mant + (r - 2 ^ f.mant)) =
      (e - 1) * 2 ^ f.mant + r := by
  split
  · obtain rfl : e = 1 := by omega
    omega
  · obtain ⟨k, rfl⟩ : ∃ k, e = k + 1 := ⟨e - 1, by omega⟩
    rw [show ((k + 1 : Nat) : ℤ) - f.bias - f.mant + f.mant + f.bias = (k + 1 : Nat) by ring, Int.toNat_natCast, Nat.add_sub_cancel,
      Nat.succ_mul]
    omega

/-- The model's test for a number above the largest code, on `r` quanta of an octave. -/
theorem overflow_test {e r : Nat} (he : 1 ≤ e) (hr : r ≤ 2 ^ (f.mant + 1)) (hlow : e = 1 ∨ 2 ^ f.mant ≤ r) :
    scaleUp r ((e : ℤ) - f.bias - f.mant - (((f.largest / 2 ^ f.mant : Nat) : ℤ) - f.bias - f.mant)) >
      scaleUp (2 ^ f.mant + f.largest % 2 ^ f.mant) (((f.largest / 2 ^ f.mant : Nat) : ℤ) - f.bias - f.mant - ((e : ℤ) - f.bias - f.mant)) ↔
    f.largest < (e - 1) * 2 ^ f.mant + r := by
  rw [← (value_strictMono (f := f)).lt_iff_lt, value_code he hr hlow, value_largest]
  generalize (e : ℤ) - f.bias - f.mant = q
  generalize ((f.largest / 2 ^ f.mant : Nat) : ℤ) - f.bias - f.mant = p
  rw [gt_iff_lt, ← neg_sub q p, scaleUp_lt, zpow_sub₀ two_ne_zero q p, ← mul_div_assoc, lt_div_iff₀ (two_zpow_pos p)]

/-! ### What is tiny (R256) -/

section
variable {m : Rm} {neg : Bool} {k : Int} {a : ℚ} {n : Nat} (hk : (2 : ℚ) ^ k ≤ a) (hk' : a < 2 ^ (k + 1))
variable (hlo : n * (2 : ℚ) ^ (k - f.mant) ≤ a) (hhi : a < (n + 1) * 2 ^ (k - f.mant))

theorem zpow_octave (k : Int) : (2 : ℚ) ^ k = (2 ^ f.mant : Nat) * 2 ^ (k - f.mant) ∧
    (2 : ℚ) ^ (k + 1) = (2 ^ (f.mant + 1) : Nat) * 2 ^ (k - f.mant) := by
  have h := zpow_add₀ (two_ne_zero (α := ℚ)) f.mant (k - f.mant)
  rw [add_sub_cancel, zpow_natCast] at h
  push_cast
  rw [zpow_add_one₀ two_ne_zero, h]
  exact ⟨rfl, by ring⟩

include hk hhi in
/-- A number of the octave of 2^k holds the hidden bit at the quantum of the octave. -/
theorem octave_low : 2 ^ f.mant ≤ n := by
  have h := hk.trans_lt hhi
  rw [(zpow_octave (f := f) k).1, mul_lt_mul_iff_left₀ (two_zpow_pos _)] at h
  exact Nat.lt_succ_iff.1 (by exact_mod_cast h)

include hk' hlo in
theorem octave_high : n < 2 ^ (f.mant + 1) := by
  have h := hlo.trans_lt hk'
  rw [(zpow_octave (f := f) k).2, mul_lt_mul_iff_left₀ (two_zpow_pos _)] at h
  exact_mod_cast h

include hk' hlo in
/-- Below the last octave that is not normal, a number stays below half of the smallest normal one. -/
theorem tiny_of_lower (h : k < -(f.bias : ℤ)) :
    nearMultiple m neg a (2 ^ (k - f.mant)) n * (2 : ℚ) ^ (k - f.mant) < 2 ^ (1 - (f.bias : ℤ)) ∧ f.Tiny m neg a := by
  have hup : (2 : ℚ) ^ (k + 1) ≤ 2 ^ (-(f.bias : ℤ)) := zpow_le_zpow_right₀ one_le_two (by omega)
  have hbelow : (2 : ℚ) ^ (-(f.bias : ℤ)) ≤ f.value (2 ^ f.mant) - 2 ^ (-(f.bias : ℤ) - f.mant) := by
    have h1 : (1 : ℚ) ≤ 2 ^ f.mant := one_le_pow₀ one_le_two
    rw [value_below, (zpow_octave (f := f) (-(f.bias : ℤ))).1, pow_succ]
    push_cast
    exact mul_le_mul_of_nonneg_right (by linarith) (two_zpow_pos _).le
  refine ⟨?_, .inl ((hk'.le.trans hup).trans hbelow)⟩
  have hn := (nearMultiple_bounds m neg a (2 ^ (k - f.mant)) n).2.trans (octave_high hk' hlo)
  calc nearMultiple m neg a (2 ^ (k - f.mant)) n * (2 : ℚ) ^ (k - f.mant)
      ≤ (2 ^ (f.mant + 1) : Nat) * 2 ^ (k - f.mant) := mul_le_mul_of_nonneg_right (Nat.cast_le.2 hn) (two_zpow_pos _).le
    _ = 2 ^ (k + 1) := (zpow_octave k).2.symm
    _ ≤ 2 ^ (-(f.bias : ℤ)) := hup
    _ < 2 ^ (1 - (f.bias : ℤ)) := zpow_lt_zpow_right₀ one_lt_two (by omega)

include hk' hlo hhi in
/-- In the last octave, a number reaches the smallest normal one where it lies above the last significand and rounds up. -/
theorem tiny_iff_last (h : k = -(f.bias : ℤ)) :
    nearMultiple m neg a (2 ^ (k - f.mant)) n * (2 : ℚ) ^ (k - f.mant) < 2 ^ (1 - (f.bias : ℤ)) ↔ f.Tiny m neg a := by
  subst h
  have ht := two_zpow_pos (-(f.bias : ℤ) - f.mant)
  have hhigh := octave_high hk' hlo
  have hleast : (2 : ℚ) ^ (1 - (f.bias : ℤ)) = (2 ^ (f.mant + 1) : Nat) * 2 ^ (-(f.bias : ℤ) - f.mant) := by
    rw [← (zpow_octave (-(f.bias : ℤ))).2]
    congr 1
    ring
  rw [hleast, mul_lt_mul_iff_left₀ ht, Nat.cast_lt, Fmt.Tiny, value_below, value_least, hleast]
  rcases Nat.lt_or_ge (n + 1) (2 ^ (f.mant + 1)) with hlast | hlast
  · refine iff_of_true ((nearMultiple_bounds ..).2.trans_lt hlast) (.inl (hhi.le.trans (mul_le_mul_of_nonneg_right ?_ ht.le)))
    have h1 : ((n + 1 + 1 : Nat) : ℚ) ≤ 2 ^ (f.mant + 1) := by exact_mod_cast hlast
    push_cast at h1
    linarith
  · have hnum : n + 1 = 2 ^ (f.mant + 1) := by omega
    have hcast : (n : ℚ) + 1 = 2 ^ (f.mant + 1) := by exact_mod_cast hnum
    have hodd : (n % 2 == 1) = true := by rw [Nat.pow_succ] at hnum; simp; omega
    rw [← hnum, Nat.cast_succ, ← hcast, add_sub_cancel_right, nearMultiple, hodd]
    by_cases hex : a = n * 2 ^ (-(f.bias : ℤ) - f.mant)
    · rw [if_pos hex]
      exact iff_of_true (Nat.lt_succ_self n) (.inl hex.le)
    · rw [if_neg hex]
      have hnot : ¬ a ≤ n * 2 ^ (-(f.bias : ℤ) - f.mant) := fun h => hex (le_antisymm h hlo)
      cases roundsUp m neg true (n * 2 ^ (-(f.bias : ℤ) - f.mant)) a ((n + 1) * 2 ^ (-(f.bias : ℤ) - f.mant)) <;> simp [hnot, hhi]

include hk hhi in
/-- From the smallest normal number on nothing is tiny. -/
theorem not_tiny_of_normal (h : -(f.bias : ℤ) < k) :
    ¬ nearMultiple m neg a (2 ^ (k - f.mant)) n * (2 : ℚ) ^ (k - f.mant) < 2 ^ (1 - (f.bias : ℤ)) ∧ ¬ f.Tiny m neg a := by
  have hup : (2 : ℚ) ^ (1 - (f.bias : ℤ)) ≤ 2 ^ k := zpow_le_zpow_right₀ one_le_two (by omega)
  refine ⟨not_lt.2 (hup.trans ?_), ?_⟩
  · rw [(zpow_octave (f := f) k).1]
    exact mul_le_mul_of_nonneg_right (Nat.cast_le.2 ((octave_low hk hhi).trans (nearMultiple_bounds ..).1)) (two_zpow_pos _).le
  · have ht := two_zpow_pos (-(f.bias : ℤ) - f.mant)
    rw [Fmt.Tiny, value_least]
    rintro (h1 | ⟨h1, -⟩) <;> linarith

end

section
variable {num den : Nat} (hn : 0 < num) (hd : 0 < den)
include hn hd

/-- The model's test for a tiny number, on what the number rounds to at the quantum of its own octave. -/
theorem tiny_test (m : Rm) (neg : Bool) :
    scaleUp (roundAt m neg num den (leading num den - f.mant)).1 (leading num den - f.mant - (1 - f.bias)) <
      scaleUp 1 (1 - f.bias - (leading num den - f.mant)) ↔ f.Tiny m neg (num / den) := by
  obtain ⟨hk, hk'⟩ := leading_spec hn hd
  obtain ⟨n, hlo, hhi, hround⟩ := roundAt_spec m neg num hd (leading num den - f.mant)
  generalize leading num den = k at *
  rw [hround, show k - f.mant - (1 - f.bias) = -(1 - (f.bias : ℤ) - (k - f.mant)) by ring, scaleUp_lt,
    zpow_sub₀ two_ne_zero (1 - (f.bias : ℤ)) (k - f.mant), Nat.cast_one, one_mul, lt_div_iff₀ (two_zpow_pos _)]
  rcases lt_trichotomy k (-(f.bias : ℤ)) with h | h | h
  · exact iff_of_true (tiny_of_lower hk' hlo h).1 (tiny_of_lower hk' hlo h).2
  · exact tiny_iff_last hk' hlo hhi h
  · exact iff_of_false (not_tiny_of_normal hk hhi h).1 (not_tiny_of_normal hk hhi h).2

/-! ### Round gives the code -/

/-- The octave in which a number is rounded: that of its leading bit, and for smaller numbers that of the smallest normal one. A code and
the next one enclose the number, `n` quanta of the octave and one more. -/
theorem enclosing_code (m : Rm) (neg : Bool) :
    ∃ e n : Nat, 1 ≤ e ∧ n < 2 ^ (f.mant + 1) ∧ (e = 1 ∨ 2 ^ f.mant ≤ n) ∧
      max (leading num den) (1 - f.bias) - f.mant = (e : ℤ) - f.bias - f.mant ∧
      n * (2 : ℚ) ^ ((e : ℤ) - f.bias - f.mant) ≤ num / den ∧ (num : ℚ) / den < (n + 1) * 2 ^ ((e : ℤ) - f.bias - f.mant) ∧
      roundAt m neg num den ((e : ℤ) - f.bias - f.mant) =
        (nearMultiple m neg (num / den) (2 ^ ((e : ℤ) - f.bias - f.mant)) n, decide ((num : ℚ) / den = n * 2 ^ ((e : ℤ) - f.bias - f.mant))) := by
  obtain ⟨hk, hk'⟩ := leading_spec hn hd
  obtain ⟨e, he⟩ : ∃ e : Nat, (e : ℤ) = max (leading num den) (1 - f.bias) + f.bias := ⟨(max (leading num den) (1 - f.bias) + f.bias).toNat, by omega⟩
  obtain ⟨n, hlo, hhi, hround⟩ := roundAt_spec m neg num hd ((e : ℤ) - f.bias - f.mant)
  refine ⟨e, n, by omega, ?_, ?_, by omega, hlo, hhi, hround⟩
  · exact octave_high (f := f) (hk'.trans_le (zpow_le_zpow_right₀ one_le_two (by omega))) hlo
  · rcases le_or_gt (leading num den) (1 - f.bias) with h | h
    · exact .inl (by omega)
    · refine .inr (octave_low (f := f) (k := (e : ℤ) - f.bias) ?_ hhi)
      rwa [show (e : ℤ) - f.bias = leading num den by omega]

/-- Round of a fraction: the code below it or the next, or what lies past the largest code; its flags. -/
theorem roundFrac_spec (m : Rm) (sat neg : Bool) :
    ∃ c, f.value c ≤ num / den ∧ (num : ℚ) / den < f.value (c + 1) ∧ roundFrac f m sat neg num den =
      if f.largest < f.nearCode m neg (num / den) c ∨ (f = .e4m3 ∧ m ≠ .rne ∧ (448 : ℚ) < num / den) then f.overflowed m sat neg
      else (f.sign neg + f.nearCode m neg (num / den) c,
        if (num : ℚ) / den = f.value c then 0#5 else if f.Tiny m neg (num / den) then flagUF ||| flagNX else flagNX) := by
  obtain ⟨e, n, he, hn', hlow, hq, hlo, hhi, hround⟩ := enclosing_code (f := f) hn hd m neg
  have hval : f.value ((e - 1) * 2 ^ f.mant + n) = n * 2 ^ ((e : ℤ) - f.bias - f.mant) := value_code he hn'.le hlow
  have hval' : f.value ((e - 1) * 2 ^ f.mant + n + 1) = (n + 1) * 2 ^ ((e : ℤ) - f.bias - f.mant) := by
    have h := value_code (f := f) (n := n + 1) he hn' (hlow.imp_right (fun h => by omega))
    rw [← Nat.add_assoc] at h
    exact_mod_cast h
  have hcode : f.nearCode m neg (num / den) ((e - 1) * 2 ^ f.mant + n) =
      (e - 1) * 2 ^ f.mant + nearMultiple m neg (num / den) (2 ^ ((e : ℤ) - f.bias - f.mant)) n := by
    rw [Fmt.nearCode, nearMultiple, hval, hval', code_parity]
    split
    · rfl
    · split <;> rfl
  have hb := nearMultiple_bounds m neg (num / den) (2 ^ ((e : ℤ) - f.bias - f.mant)) n
  have hrlow := hlow.imp_right (fun h => h.trans hb.1)
  have hover := overflow_test he (hb.2.trans hn') hrlow
  refine ⟨_, hval.trans_le hlo, hhi.trans_eq hval'.symm, ?_⟩
  have he4 : (f == .e4m3 && m != .rne && decide (num > 448 * den)) = true ↔ f = .e4m3 ∧ m ≠ .rne ∧ (448 : ℚ) < num / den := by
    rw [lt_div_iff₀ (Nat.cast_pos.2 hd)]
    simp only [Bool.and_eq_true, beq_iff_eq, bne_iff_ne, decide_eq_true_eq, gt_iff_lt, and_assoc]
    norm_cast
  have htiny := tiny_test (f := f) hn hd m neg
  unfold roundFrac
  simp only [if_neg hn.ne', hq, hround, code_of_quanta he hrlow, hcode, hval]
  by_cases hcase : f.largest < (e - 1) * 2 ^ f.mant + nearMultiple m neg (num / den) (2 ^ ((e : ℤ) - f.bias - f.mant)) n ∨
      (f = .e4m3 ∧ m ≠ .rne ∧ (448 : ℚ) < num / den)
  · rw [if_pos hcase, if_pos]
    · rfl
    · simp only [hover, he4, Bool.or_eq_true, decide_eq_true_eq, hcase]
  · rw [if_neg hcase, if_neg]
    · simp only [decide_eq_true_eq, htiny]
      rfl
    · simp only [hover, he4, Bool.or_eq_true, decide_eq_true_eq, hcase, not_false_eq_true]

end

end

end Sys2Proof.Machine
end

section
/-! SUPPORT. Round is the rounding of R256: what it gives of a fraction, of a decoded value and of a computed one. -/

namespace Sys2Proof.Machine

section
variable {f : Fmt}

theorem value_step (c : Nat) : f.value (c + 1) = f.value c + 2 ^ ((f.expo c : ℤ) - f.bias - f.mant) := by
  rw [value_succ, Fmt.value]
  ring

/-- The number one quantum above the largest code. -/
theorem value_past_largest : f.mag f.largest + (f.mag f.largest - f.mag (f.largest - 1)) = f.value (f.largest + 1) := by
  have hexpo : f.expo (f.largest - 1) = f.expo f.largest ∧ f.largest - 1 + 1 = f.largest := by cases f <;> decide
  have hstep := value_step (f := f) (f.largest - 1)
  rw [hexpo.2, hexpo.1] at hstep
  rw [mag_eq_value le_rfl, mag_eq_value (Nat.sub_le _ _), value_step f.largest]
  linarith

theorem value_largest_e4m3 : Fmt.e4m3.value Fmt.e4m3.largest = 448 := by
  rw [value_largest]
  norm_num [Fmt.largest, Fmt.mant, Fmt.bias]

theorem least_le_largest : 2 ^ f.mant ≤ f.largest := by cases f <;> decide

theorem nearCode_bounds (m : Rm) (neg : Bool) (a : ℚ) (c : Nat) : c ≤ f.nearCode m neg a c ∧ f.nearCode m neg a c ≤ c + 1 := by
  unfold Fmt.nearCode
  split
  · omega
  · split <;> omega

theorem overflowed_eq (m : Rm) (sat neg : Bool) : f.overflowed m sat neg =
    if sat then (f.sign neg + f.largest, flagNX)
    else if overflowsOut m neg && f.ieee then (f.sign neg + f.infinity, flagOF ||| flagNX)
    else if overflowsOut m neg && f == .e4m3 then (0x7F, flagOF ||| flagNX)
    else (f.sign neg + f.largest, flagOF ||| flagNX) := by
  unfold Fmt.overflowed
  cases sat
  · have hcan : (overflowsOut m neg && f == .e4m3) = true → f.canonical = 0x7F := by
      intro h
      rw [Bool.and_eq_true, beq_iff_eq] at h
      rw [h.2]
      rfl
    simp only [Bool.not_false, Bool.and_true, Bool.false_eq_true, if_false]
    split
    · rfl
    · split
      · rename_i h
        rw [hcan h]
      · rfl
  · simp

theorem eq_overflowed {m : Rm} {sat neg : Bool} {q : Nat × Flags} (h : q = f.overflowed m sat neg) :
    if sat then q = (f.sign neg + f.largest, flagNX)
    else if overflowsOut m neg && f.ieee then q = (f.sign neg + f.infinity, flagOF ||| flagNX)
    else if overflowsOut m neg && f == .e4m3 then q = (0x7F, flagOF ||| flagNX)
    else q = (f.sign neg + f.largest, flagOF ||| flagNX) := by
  rw [h, overflowed_eq]
  split_ifs <;> rfl

section
variable {num den : Nat} (hn : 0 < num) (hd : 0 < den)
include hn hd

/-- A magnitude below the largest code, or at it, does not overflow. -/
theorem roundFrac_within (m : Rm) (sat neg : Bool) {c : Nat} (hc : f.value c ≤ num / den) (hc' : (num : ℚ) / den < f.value (c + 1))
    (hle : f.nearCode m neg (num / den) c ≤ f.largest) (he4 : ¬(f = .e4m3 ∧ m ≠ .rne ∧ (448 : ℚ) < num / den)) :
    roundFrac f m sat neg num den = (f.sign neg + f.nearCode m neg (num / den) c,
      if (num : ℚ) / den = f.value c then 0#5 else if f.Tiny m neg (num / den) then flagUF ||| flagNX else flagNX) := by
  obtain ⟨d, hd1, hd2, hround⟩ := roundFrac_spec (f := f) hn hd m sat neg
  obtain rfl := code_unique hc hc' hd1 hd2
  rw [hround, if_neg]
  rintro (h | h)
  · omega
  · exact he4 h

/-- Round of a fraction is R256's rounding of it. -/
theorem roundFrac_rounded (m : Rm) (sat neg : Bool) : Rounded f m sat neg (num / den) (roundFrac f m sat neg num den) := by
  have below_e4m3 {a : ℚ} (h : a ≤ f.value f.largest) : ¬(f = .e4m3 ∧ m ≠ .rne ∧ (448 : ℚ) < a) := by
    rintro ⟨rfl, -, h448⟩
    rw [value_largest_e4m3] at h
    exact absurd h (not_le.2 h448)
  refine ⟨fun c hc ha => ?_, fun c hc hlo hhi => ?_, fun habove => ?_⟩
  · -- a number that a code holds
    rw [mag_eq_value hc] at ha
    have hnear : f.nearCode m neg (num / den) c = c := if_pos ha
    have hlt := (value_strictMono (f := f)) (Nat.lt_succ_self c)
    rw [roundFrac_within hn hd m sat neg ha.ge (ha.trans_lt hlt) (by rwa [hnear])
      (below_e4m3 (ha.trans_le ((value_strictMono (f := f)).monotone hc))), hnear, if_pos ha]
  · -- between two codes
    rw [mag_eq_value hc.le] at hlo
    rw [mag_eq_value hc] at hhi
    rw [mag_eq_value hc.le, mag_eq_value hc, mag_eq_value least_le_largest]
    rw [roundFrac_within hn hd m sat neg hlo.le hhi ((nearCode_bounds ..).2.trans hc)
      (below_e4m3 (hhi.le.trans ((value_strictMono (f := f)).monotone hc))), Fmt.nearCode, if_neg hlo.ne', if_neg hlo.ne']
  · -- above the largest code
    rw [mag_eq_value le_rfl] at habove
    simp only [value_past_largest]
    rw [mag_eq_value le_rfl]
    obtain ⟨d, hd1, hd2, hround⟩ := roundFrac_spec (f := f) hn hd m sat neg
    have hdl : f.largest ≤ d := by
      have := (value_strictMono (f := f)).lt_iff_lt.1 (habove.trans hd2)
      omega
    split
    · rename_i h
      obtain ⟨he4, hnext, hstay⟩ := h
      have hnear : f.nearCode m neg (num / den) f.largest = f.largest := by
        rw [Fmt.nearCode, if_neg habove.ne', hstay, if_neg Bool.false_ne_true]
      have hleast : f.value (2 ^ f.mant) < num / den := ((value_strictMono (f := f)).monotone least_le_largest).trans_lt habove
      have hpos := two_zpow_pos (-(f.bias : ℤ) - f.mant)
      rw [roundFrac_within hn hd m sat neg habove.le hnext hnear.le (fun h => he4.elim (fun hne => hne h.1) (fun hm => h.2.1 hm)), hnear,
        if_neg habove.ne', if_neg]
      rintro (h | ⟨h, -⟩) <;> linarith
    · rename_i h
      refine eq_overflowed (hround.trans (if_pos ?_))
      by_cases he4 : f ≠ .e4m3 ∨ m = .rne
      · left
        by_cases hnext : (num : ℚ) / den < f.value (f.largest + 1)
        · obtain rfl := code_unique habove.le hnext hd1 hd2
          have hup : roundsUp m neg (f.largest % 2 == 1) (f.value f.largest) (num / den) (f.value (f.largest + 1)) = true := by
            by_contra hno
            exact h ⟨he4, hnext, by simpa using hno⟩
          rw [Fmt.nearCode, if_neg habove.ne', if_pos hup]
          exact Nat.lt_succ_self _
        · have := (value_strictMono (f := f)).lt_iff_lt.1 ((not_lt.1 hnext).trans_lt hd2)
          exact Nat.lt_of_lt_of_le (by omega) (nearCode_bounds m neg _ d).1
      · rw [not_or, not_not] at he4
        obtain ⟨rfl, hm⟩ := he4
        rw [value_largest_e4m3] at habove
        exact .inr ⟨rfl, hm, habove⟩

end

/-! ### Round of a value (R256), and of a computed one (R112) -/

/-- A number rounds as its magnitude does, and a zero keeps its sign. -/
theorem roundVal_exactly (m : Rm) (sat neg : Bool) (n : Nat) (e : Int) :
    Exactly f m sat (FVal.fin neg n e).rat neg (roundVal f m sat (.fin neg n e)) := by
  unfold Exactly roundVal
  rcases Nat.eq_zero_or_pos n with rfl | hn
  · have h0 : scaleUp 0 e = 0 := by unfold scaleUp; split <;> simp
    rw [if_pos (rat_eq_zero.2 rfl)]
    simp only [h0, roundFrac, if_true]
    rfl
  · have hratio : ((scaleUp n e : Nat) : ℚ) / (scaleUp 1 (-e) : Nat) = n * 2 ^ e := by
      have h := scaleUp_ratio n 1 (-e)
      rw [neg_neg, Nat.cast_one, div_one, zpow_neg, div_inv_eq_mul] at h
      exact h
    rw [if_neg (fun h => hn.ne' (rat_eq_zero.1 h)), abs_rat_fin, ← hratio,
      show decide ((FVal.fin neg n e).rat < 0) = neg from Bool.eq_iff_iff.2 (by rw [decide_eq_true_iff, rat_neg_iff hn.ne'])]
    exact roundFrac_rounded (scaleUp_pos e hn) (scaleUp_pos (-e) Nat.one_pos) m sat neg

theorem exactly_zeroNeg {m : Rm} {sat : Bool} {x : ℚ} {a b : Bool} {q : Nat × Flags} (h : Exactly f m sat x a q) (hz : x = 0 → a = b) :
    Exactly f m sat x b q := by
  unfold Exactly at *
  split
  · rename_i hx
    rw [if_pos hx, hz hx] at h
    exact h
  · rename_i hx
    rwa [if_neg hx] at h

/-- A computed number, rounded once (R112): a zero has the sign the computation gave it. -/
theorem finish_exactly (m : Rm) {v : FVal × Bool} {neg : Bool} {n : Nat} {e : Int} (hv : v = (.fin neg n e, false)) :
    Exactly f m false (FVal.fin neg n e).rat neg (finish f m v) := by
  subst hv
  have h : finish f m (.fin neg n e, false) = roundVal f m false (.fin neg n e) := by
    unfold finish nvIf
    simp
  rw [h]
  exact roundVal_exactly m false neg n e

end

end Sys2Proof.Machine
end

section
/-! SUPPORT. Floating-point sums, products and fused products (R112), least and greatest (R113), and their words (R120). -/

namespace Sys2Proof.Machine

/-! ### Codes of a format with infinities (R254, R255) -/

section
variable {f : Fmt}

/-- The sign and the rest of a code are all that its value depends on. -/
theorem decode_congr {a b : Nat} (hs : a / 2 ^ (f.bits - 1) % 2 = b / 2 ^ (f.bits - 1) % 2)
    (hc : a % 2 ^ (f.bits - 1) = b % 2 ^ (f.bits - 1)) : f.decode a = f.decode b := by
  have hm : f.mant ≤ f.bits - 1 := by cases f <;> decide
  have split (c : Nat) : c / 2 ^ f.mant % 2 ^ (f.bits - 1 - f.mant) = c % 2 ^ (f.bits - 1) / 2 ^ f.mant ∧
      c % 2 ^ f.mant = c % 2 ^ (f.bits - 1) % 2 ^ f.mant := by
    rw [Nat.mod_mod_of_dvd _ (pow_dvd_pow 2 hm), ← Nat.mod_mul_right_div_self, ← Nat.pow_add, Nat.add_sub_cancel' hm]
    exact ⟨rfl, rfl⟩
  unfold Fmt.decode
  simp only [hs, (split a).1, (split a).2, (split b).1, (split b).2, hc]

/-- The sign bit of a code. -/
def Fmt.signBit (f : Fmt) (a : Nat) : Bool := a / 2 ^ (f.bits - 1) % 2 == 1

/-- A code without its sign. -/
def Fmt.low (f : Fmt) (a : Nat) : Nat := a % 2 ^ (f.bits - 1)

theorem low_lt (a : Nat) : f.low a < 2 ^ (f.bits - 1) := Nat.mod_lt _ (Nat.two_pow_pos _)

theorem sign_low_mod (a : Nat) : f.sign (f.signBit a) + f.low a = a % 2 ^ f.bits := by
  have hbits : 2 ^ f.bits = 2 ^ (f.bits - 1) * 2 := by cases f <;> rfl
  rw [hbits, Nat.mod_mul, Fmt.sign, Fmt.signBit, Fmt.low]
  rcases Nat.mod_two_eq_zero_or_one (a / 2 ^ (f.bits - 1)) with h | h <;> simp [h]
  omega

theorem sign_low {a : Nat} (ha : a < 2 ^ f.bits) : a = f.sign (f.signBit a) + f.low a := by
  rw [sign_low_mod, Nat.mod_eq_of_lt ha]

theorem decode_sign_low (a : Nat) : f.decode a = f.decode (f.sign (f.signBit a) + f.low a) := by
  have hbits : 2 ^ f.bits = 2 ^ (f.bits - 1) * 2 := by cases f <;> rfl
  have hpos := Nat.two_pow_pos (f.bits - 1)
  rw [sign_low_mod]
  refine decode_congr ?_ ?_
  · rw [hbits, Nat.mod_mul_right_div_self, Nat.mod_mod]
  · rw [hbits, Nat.mod_mul_right_mod]

/-- The value of a code with the other sign. -/
theorem decode_not_sign (neg : Bool) {c : Nat} (hc : c < 2 ^ (f.bits - 1)) :
    f.decode (f.sign (!neg) + c) = (f.decode (f.sign neg + c)).neg := by
  obtain ⟨h1, h2, h3⟩ := sign_fields (f := f) neg hc
  obtain ⟨g1, g2, g3⟩ := sign_fields (f := f) (!neg) hc
  unfold Fmt.decode
  simp only [h1, h2, h3, g1, g2, g3]
  split
  · split <;> rfl
  · split
    · rfl
    · split <;> rfl

/-- A subtrahend's sign bit flipped. -/
theorem decode_xor_sign (b : Nat) : f.decode (b ^^^ 2 ^ (f.bits - 1)) = (f.decode b).neg := by
  have hlow : f.low (b ^^^ 2 ^ (f.bits - 1)) = f.low b := by
    apply Nat.eq_of_testBit_eq
    intro i
    simp only [Fmt.low, Nat.testBit_mod_two_pow, Nat.testBit_xor, Nat.testBit_two_pow]
    by_cases h : i < f.bits - 1
    · simp [h, Nat.ne_of_gt h]
    · simp [h]
  have hsign : f.signBit (b ^^^ 2 ^ (f.bits - 1)) = !f.signBit b := by
    have hbit (a : Nat) : f.signBit a = a.testBit (f.bits - 1) := by
      rw [Nat.testBit_eq_decide_div_mod_eq]
      rfl
    rw [hbit, hbit, Nat.testBit_xor, Nat.testBit_two_pow_self, Bool.xor_true]
  rw [decode_sign_low (b ^^^ 2 ^ (f.bits - 1)), hlow, hsign, decode_not_sign _ (low_lt b), ← decode_sign_low]

variable (hf : f.ieee = true)
include hf

/-- Past the largest code stand the infinity and the NaNs. -/
theorem infinity_eq : f.infinity = f.largest + 1 := by
  cases f
  case e4m3 => cases hf
  case e2m1 => cases hf
  all_goals decide

theorem decode_infinity (neg : Bool) : f.decode (f.sign neg + f.infinity) = .inf neg := by
  cases f
  case e4m3 => cases hf
  case e2m1 => cases hf
  all_goals cases neg <;> decide

theorem decode_nan (neg : Bool) {c : Nat} (hc : f.infinity < c) (hlt : c < 2 ^ (f.bits - 1)) :
    ∃ s, f.decode (f.sign neg + c) = .nan s := by
  obtain ⟨h1, h2, h3⟩ := sign_fields (f := f) neg hlt
  have htop : c / 2 ^ f.mant = 2 ^ (f.bits - 1 - f.mant) - 1 ∧ c % 2 ^ f.mant ≠ 0 := by
    cases f
    case e4m3 => cases hf
    case e2m1 => cases hf
    all_goals
      simp only [Fmt.infinity, Fmt.bits, Fmt.mant] at hc hlt ⊢
      omega
  unfold Fmt.decode
  simp only [h1, h2, h3, htop.1, hf, beq_self_eq_true, Bool.and_self, if_true, beq_iff_eq, if_neg htop.2]
  exact ⟨_, rfl⟩

/-- A code of a format with infinities holds a number, an infinity or a NaN, by its place among the codes. -/
theorem decode_cases (a : Nat) :
    (f.low a ≤ f.largest ∧ f.decode a = .fin (f.signBit a) (f.signif (f.low a)) ((f.expo (f.low a) : ℤ) - f.bias - f.mant)) ∨
    (f.low a = f.infinity ∧ f.decode a = .inf (f.signBit a)) ∨ (f.infinity < f.low a ∧ ∃ s, f.decode a = .nan s) := by
  rw [decode_sign_low a]
  rcases Nat.lt_trichotomy (f.low a) f.infinity with h | h | h
  · have hle : f.low a ≤ f.largest := by rw [infinity_eq hf] at h; omega
    exact .inl ⟨hle, decode_code _ hle⟩
  · exact .inr (.inl ⟨h, by rw [h, decode_infinity hf]⟩)
  · exact .inr (.inr ⟨h, decode_nan hf _ h (low_lt a)⟩)

theorem decode_fin {a n : Nat} {neg : Bool} {e : Int} (h : f.decode a = .fin neg n e) :
    f.low a ≤ f.largest ∧ f.signBit a = neg ∧ f.signif (f.low a) = n ∧ (f.expo (f.low a) : ℤ) - f.bias - f.mant = e := by
  rcases decode_cases hf a with ⟨hle, hd⟩ | ⟨-, hd⟩ | ⟨-, s, hd⟩
  · rw [hd, FVal.fin.injEq] at h
    exact ⟨hle, h⟩
  · rw [hd] at h
    cases h
  · rw [hd] at h
    cases h

theorem decode_inf {a : Nat} {neg : Bool} (h : f.decode a = .inf neg) : f.low a = f.infinity ∧ f.signBit a = neg := by
  rcases decode_cases hf a with ⟨-, hd⟩ | ⟨hi, hd⟩ | ⟨-, s, hd⟩
  · rw [hd] at h
    cases h
  · rw [hd, FVal.inf.injEq] at h
    exact ⟨hi, h⟩
  · rw [hd] at h
    cases h

/-- The number of a finite code is its value with its sign. -/
theorem rat_decode {a : Nat} (h : (f.decode a).isFinite = true) :
    (f.decode a).rat = (if f.signBit a then -1 else 1) * f.value (f.low a) ∧ (f.decode a).isNeg = f.signBit a ∧ f.low a ≤ f.largest := by
  rcases decode_cases hf a with ⟨hle, hd⟩ | ⟨-, hd⟩ | ⟨-, s, hd⟩
  · rw [hd]
    exact ⟨rat_fin _ _ _, rfl, hle⟩
  · rw [hd] at h
    cases h
  · rw [hd] at h
    cases h

/-- Two codes of numbers that are equal and have one sign are one code. -/
theorem code_of_rat {a b : Nat} (ha : a < 2 ^ f.bits) (hb : b < 2 ^ f.bits) (hfa : (f.decode a).isFinite = true)
    (hfb : (f.decode b).isFinite = true) (hrat : (f.decode a).rat = (f.decode b).rat) (hneg : (f.decode a).isNeg = (f.decode b).isNeg) :
    a = b := by
  obtain ⟨ra, na, -⟩ := rat_decode hf hfa
  obtain ⟨rb, nb, -⟩ := rat_decode hf hfb
  rw [na, nb] at hneg
  rw [ra, rb, hneg] at hrat
  have hval : f.value (f.low a) = f.value (f.low b) := by
    refine mul_left_cancel₀ ?_ hrat
    split <;> norm_num
  rw [sign_low ha, sign_low hb, hneg, (value_strictMono (f := f)).injective hval]

theorem code_of_inf {a b : Nat} {n : Bool} (ha : a < 2 ^ f.bits) (hb : b < 2 ^ f.bits) (hia : f.decode a = .inf n)
    (hib : f.decode b = .inf n) : a = b := by
  obtain ⟨la, na⟩ := decode_inf hf hia
  obtain ⟨lb, nb⟩ := decode_inf hf hib
  rw [sign_low ha, sign_low hb, na, nb, la, lb]

end

/-! ### Exact sums and products (R112) -/

section
variable (m : Rm) (x y z : FVal)

theorem addVal_comm : addVal m x y = addVal m y x := by
  match x, y with
  | .nan s, .nan t => simp [addVal, Bool.or_comm]
  | .nan _, .inf _ => rfl
  | .nan _, .fin .. => rfl
  | .inf _, .nan _ => rfl
  | .fin .., .nan _ => rfl
  | .inf a, .inf b => cases a <;> cases b <;> rfl
  | .inf _, .fin .. => rfl
  | .fin .., .inf _ => rfl
  | .fin a p i, .fin b q j =>
    simp only [addVal, min_comm i j]
    generalize p * 2 ^ (i - min j i).toNat = u
    generalize q * 2 ^ (j - min j i).toNat = v
    rcases Nat.lt_trichotomy u v with h | h | h
    · cases a <;> cases b <;> simp [Nat.add_comm, h.ne, h.ne', h, h.le]
    · subst h
      cases a <;> cases b <;> simp
    · cases a <;> cases b <;> simp [Nat.add_comm, h.ne, h.ne', h, h.le]

theorem mulVal_comm : mulVal x y = mulVal y x := by
  have hxor (a b : Bool) : (a != b) = (b != a) := by cases a <;> cases b <;> rfl
  match x, y with
  | .nan s, .nan t => simp [mulVal, Bool.or_comm]
  | .nan _, .inf _ => rfl
  | .nan _, .fin .. => rfl
  | .inf _, .nan _ => rfl
  | .fin .., .nan _ => rfl
  | .inf a, .inf b => simp only [mulVal, hxor a b]
  | .inf a, .fin b _ _ => simp only [mulVal, hxor a b]
  | .fin a _ _, .inf b => simp only [mulVal, hxor a b]
  | .fin a _ _, .fin b _ _ => simp only [mulVal, hxor a b, Nat.mul_comm, add_comm]

/-- The exact sum of two numbers; a zero has the sign of R112. -/
theorem addVal_fin (a b : Bool) (p q : Nat) (i j : Int) :
    ∃ c r e, addVal m (.fin a p i) (.fin b q j) = (.fin c r e, false) ∧
      (FVal.fin c r e).rat = (FVal.fin a p i).rat + (FVal.fin b q j).rat ∧
      ((FVal.fin a p i).rat + (FVal.fin b q j).rat = 0 → c = zeroSum m a b) := by
  rw [rat_scaled a p (min_le_left i j), rat_scaled b q (min_le_right i j)]
  unfold addVal
  simp only
  generalize p * 2 ^ (i - min i j).toNat = u
  generalize q * 2 ^ (j - min i j).toNat = v
  generalize min i j = e
  have ht := two_zpow_pos e
  rw [← add_mul]
  simp only [mul_eq_zero, ht.ne', or_false]
  norm_cast
  by_cases hab : a = b
  · subst hab
    refine ⟨a, u + v, e, by simp, ?_, fun _ => ?_⟩
    · rw [rat_fin]
      cases a <;> simp only [Bool.false_eq_true, if_true, if_false] <;> push_cast <;> ring
    · cases a <;> simp [zeroSum]
  · have hb : b = !a := by cases a <;> cases b <;> simp_all
    subst hb
    rcases Nat.lt_trichotomy u v with h | h | h
    · refine ⟨!a, v - u, e, by simp [h.ne, h.le], ?_, fun h0 => ?_⟩
      · rw [rat_fin, Nat.cast_sub h.le]
        cases a <;> simp only [Bool.not_true, Bool.not_false, Bool.false_eq_true, if_true, if_false] <;> push_cast <;> ring
      · cases a <;> simp at h0 <;> omega
    · subst h
      refine ⟨m == .rdn, 0, e, by simp, ?_, fun _ => ?_⟩
      · cases a <;> simp [FVal.rat]
      · cases a <;> simp [zeroSum]
    · refine ⟨a, u - v, e, by simp [h.ne', h], ?_, fun h0 => ?_⟩
      · rw [rat_fin, Nat.cast_sub h.le]
        cases a <;> simp only [Bool.not_true, Bool.not_false, Bool.false_eq_true, if_true, if_false] <;> push_cast <;> ring
      · cases a <;> simp at h0 <;> omega

/-- The exact product of two numbers. -/
theorem mulVal_rat (a b : Bool) (p q : Nat) (i j : Int) :
    (FVal.fin (a != b) (p * q) (i + j)).rat = (FVal.fin a p i).rat * (FVal.fin b q j).rat := by
  rw [rat_fin, rat_fin, rat_fin, zpow_add₀ two_ne_zero]
  cases a <;> cases b <;> push_cast <;> simp <;> ring

variable {m x y z}

theorem addVal_nan (h : x.isNan = true ∨ y.isNan = true) : addVal m x y = (.nan false, x.isSignalling || y.isSignalling) := by
  match x, y with
  | .nan _, .nan _ => rfl
  | .nan s, .inf _ => simp [addVal, FVal.isSignalling]
  | .nan s, .fin .. => simp [addVal, FVal.isSignalling]
  | .inf _, .nan t => simp [addVal, FVal.isSignalling]
  | .fin .., .nan t => simp [addVal, FVal.isSignalling]
  | .inf _, .inf _ => simp [FVal.isNan] at h
  | .inf _, .fin .. => simp [FVal.isNan] at h
  | .fin .., .inf _ => simp [FVal.isNan] at h
  | .fin .., .fin .. => simp [FVal.isNan] at h

theorem mulVal_nan (h : x.isNan = true ∨ y.isNan = true) : mulVal x y = (.nan false, x.isSignalling || y.isSignalling) := by
  match x, y with
  | .nan _, .nan _ => rfl
  | .nan s, .inf _ => simp [mulVal, FVal.isSignalling]
  | .nan s, .fin .. => simp [mulVal, FVal.isSignalling]
  | .inf _, .nan t => simp [mulVal, FVal.isSignalling]
  | .fin .., .nan t => simp [mulVal, FVal.isSignalling]
  | .inf _, .inf _ => simp [FVal.isNan] at h
  | .inf _, .fin .. => simp [FVal.isNan] at h
  | .fin .., .inf _ => simp [FVal.isNan] at h
  | .fin .., .fin .. => simp [FVal.isNan] at h

theorem addVal_opposite (n : Bool) : addVal m (.inf n) (.inf (!n)) = (.nan false, true) := by cases n <;> rfl

theorem addVal_inf {n : Bool} (hy : y.isNan = false) (hne : y ≠ .inf (!n)) : addVal m (.inf n) y = (.inf n, false) := by
  match y with
  | .nan _ => cases hy
  | .fin .. => rfl
  | .inf b =>
    obtain rfl : n = b := by cases n <;> cases b <;> simp_all
    simp [addVal]

theorem mulVal_inf_zero (n : Bool) (hy : y.isZero = true) : mulVal (.inf n) y = (.nan false, true) := by
  match y with
  | .fin _ q _ => exact if_pos (beq_iff_eq.1 hy)

theorem mulVal_inf (n : Bool) (hy : y.isNan = false) (h0 : y.isZero = false) : mulVal (.inf n) y = (.inf (n != y.isNeg), false) := by
  match y with
  | .nan _ => cases hy
  | .inf _ => rfl
  | .fin _ q _ => exact if_neg (beq_eq_false_iff_ne.1 h0)

theorem not_signalling {v : FVal} (hv : v.isNan = false) : v.isSignalling = false := by
  cases v with
  | nan s => cases hv
  | inf n => rfl
  | fin n p e => rfl

/-- A product of no NaN and not of an infinity and a zero is no NaN, and valid. -/
theorem mulVal_valid (hx : x.isNan = false) (hy : y.isNan = false) (hxy : ∀ n, x = .inf n → y.isZero = false)
    (hyx : ∀ n, y = .inf n → x.isZero = false) : (mulVal x y).1.isNan = false ∧ (mulVal x y).2 = false := by
  match x, hx, hxy with
  | .inf n, _, hxy =>
    rw [mulVal_inf n hy (hxy n rfl)]
    exact ⟨rfl, rfl⟩
  | .fin a p i, hx, hxy =>
    match y, hy with
    | .inf n, _ =>
      rw [mulVal_comm, mulVal_inf n hx (hyx n rfl)]
      exact ⟨rfl, rfl⟩
    | .fin b q j, _ => exact ⟨rfl, rfl⟩

end

/-! ### Results (R112) -/

section
variable {f : Fmt} {m : Rm} {a b c : Nat}

theorem finish_inf (hf : f.ieee = true) (hw : f.narrow = false) (n : Bool) : finish f m (.inf n, false) = (f.sign n + f.infinity, 0#5) := by
  unfold finish roundVal nvIf
  simp only [hf, hw, Bool.false_and, Bool.not_false, Bool.and_true, if_true, Bool.false_eq_true, if_false]
  rfl

theorem fpAdd_exact (hx : (f.decode a).isFinite = true) (hy : (f.decode b).isFinite = true) :
    Exactly f m false ((f.decode a).rat + (f.decode b).rat) (zeroSum m (f.decode a).isNeg (f.decode b).isNeg) (fpAdd f m a b) := by
  unfold fpAdd
  match f.decode a, f.decode b, hx, hy with
  | .fin n p i, .fin k q j, _, _ =>
    obtain ⟨s, r, e, hadd, hrat, hzero⟩ := addVal_fin m n k p q i j
    have h := finish_exactly (f := f) m hadd
    rw [hrat] at h
    exact exactly_zeroNeg h hzero

theorem fpMul_exact (hx : (f.decode a).isFinite = true) (hy : (f.decode b).isFinite = true) :
    Exactly f m false ((f.decode a).rat * (f.decode b).rat) ((f.decode a).isNeg != (f.decode b).isNeg) (fpMul f m a b) := by
  unfold fpMul
  match f.decode a, f.decode b, hx, hy with
  | .fin n p i, .fin k q j, _, _ =>
    rw [← mulVal_rat]
    exact finish_exactly m rfl

theorem fpFma_eq (f : Fmt) (m : Rm) (a b c : Nat) : fpFma f m a b c =
    finish f m ((addVal m (mulVal (f.decode a) (f.decode b)).1 (f.decode c)).1,
      (mulVal (f.decode a) (f.decode b)).2 || (addVal m (mulVal (f.decode a) (f.decode b)).1 (f.decode c)).2) := rfl

theorem fpFma_exact (hx : (f.decode a).isFinite = true) (hy : (f.decode b).isFinite = true) (hz : (f.decode c).isFinite = true) :
    Exactly f m false ((f.decode a).rat * (f.decode b).rat + (f.decode c).rat)
      (zeroSum m ((f.decode a).isNeg != (f.decode b).isNeg) (f.decode c).isNeg) (fpFma f m a b c) := by
  rw [fpFma_eq]
  match f.decode a, f.decode b, f.decode c, hx, hy, hz with
  | .fin n p i, .fin k q j, .fin l r t, _, _, _ =>
    obtain ⟨s, u, e, hadd, hrat, hzero⟩ := addVal_fin m (n != k) l (p * q) r (i + j) t
    have h := finish_exactly (f := f) m hadd
    rw [hrat, mulVal_rat] at h
    rw [mulVal_rat] at hzero
    rw [hadd] at h
    simp only [mulVal, hadd, Bool.or_self]
    exact exactly_zeroNeg h hzero

theorem fpFma_of_product {p : FVal} (h : mulVal (f.decode a) (f.decode b) = (p, false)) : fpFma f m a b c = finish f m (addVal m p (f.decode c)) := by
  rw [fpFma_eq, h]
  simp only [Bool.false_or]

/-- An invalid product, whatever is added to it. -/
theorem fpFma_invalid (h : mulVal (f.decode a) (f.decode b) = (.nan false, true)) : fpFma f m a b c = (f.canonical, flagNV) := by
  rw [fpFma_eq, h, addVal_nan (.inl rfl)]
  simp only [Bool.true_or]
  rfl

theorem fpFma_nan (h : (f.decode a).isNan = true ∨ (f.decode b).isNan = true ∨ ((f.decode c).isNan = true ∧
    (∀ n, f.decode a = .inf n → (f.decode b).isZero = false) ∧ ∀ n, f.decode b = .inf n → (f.decode a).isZero = false)) :
    fpFma f m a b c = (f.canonical, if ((f.decode a).isSignalling || (f.decode b).isSignalling) || (f.decode c).isSignalling
      then flagNV else 0#5) := by
  rw [← or_assoc] at h
  by_cases hab : (f.decode a).isNan = true ∨ (f.decode b).isNan = true
  · rw [fpFma_eq, mulVal_nan hab, addVal_nan (.inl rfl)]
    rfl
  · obtain ⟨hc, hxy, hyx⟩ := h.resolve_left hab
    rw [not_or, Bool.not_eq_true, Bool.not_eq_true] at hab
    obtain ⟨hp, hv⟩ := mulVal_valid hab.1 hab.2 hxy hyx
    rw [fpFma_eq, addVal_nan (.inr hc), not_signalling hp, hv, not_signalling hab.1, not_signalling hab.2]
    rfl

end

/-! ### Least and greatest (R113) -/

theorem exists_fin {v : FVal} (h : v.isFinite = true) : ∃ n p e, v = .fin n p e := by
  cases v with
  | fin n p e => exact ⟨n, p, e, rfl⟩
  | inf n => cases h
  | nan s => cases h

theorem not_ltTotal_of_atMost {x y : FVal} (h : x.atMost y) : ltTotal y x = false := by
  match x, y, h with
  | .inf true, .nan _, _ => rfl
  | .inf true, .inf b, _ => cases b <;> rfl
  | .inf true, .fin .., _ => simp [ltTotal, ltVal, FVal.isZero]
  | .nan _, .inf false, _ => rfl
  | .inf false, .inf false, _ => rfl
  | .fin .., .inf false, _ => simp [ltTotal, ltVal, FVal.isZero]
  | .fin a p i, .fin b q j, h =>
    simp only [FVal.atMost, reduceCtorEq, FVal.isFinite, FVal.isNeg, true_and, false_or] at h
    simp only [ltTotal, ltVal_fin, FVal.isZero, FVal.isNeg, Bool.or_eq_false_iff, decide_eq_false_iff_not, not_lt]
    rcases h with hlt | ⟨heq, hsign⟩
    · refine ⟨hlt.le, Bool.eq_false_iff.2 (fun hz => hlt.ne ?_)⟩
      simp only [Bool.and_eq_true, beq_iff_eq] at hz
      rw [rat_eq_zero.2 hz.1.1.1, rat_eq_zero.2 hz.1.1.2]
    · refine ⟨heq.le, ?_⟩
      rcases hsign with rfl | rfl <;> simp

section
variable {f : Fmt} (hf : f.ieee = true) {a b : Nat} (ha : a < 2 ^ f.bits) (hb : b < 2 ^ f.bits)
include hf ha hb

/-- Two codes each at most the other are one code. -/
theorem code_of_atMost (hab : (f.decode a).atMost (f.decode b)) (hba : (f.decode b).atMost (f.decode a)) : a = b := by
  match hx : f.decode a, hy : f.decode b, hab, hba with
  | .inf true, .inf true, _, _ => exact code_of_inf hf ha hb hx hy
  | .inf false, .inf false, _, _ => exact code_of_inf hf ha hb hx hy
  | .inf true, .inf false, _, h => simp [FVal.atMost, FVal.isFinite] at h
  | .inf false, .inf true, h, _ => simp [FVal.atMost, FVal.isFinite] at h
  | .inf true, .nan _, _, h => simp [FVal.atMost, FVal.isFinite] at h
  | .inf true, .fin .., _, h => simp [FVal.atMost, FVal.isFinite] at h
  | .inf false, .nan _, h, _ => simp [FVal.atMost, FVal.isFinite] at h
  | .inf false, .fin .., h, _ => simp [FVal.atMost, FVal.isFinite] at h
  | .nan _, .inf true, h, _ => simp [FVal.atMost, FVal.isFinite] at h
  | .nan _, .inf false, _, h => simp [FVal.atMost, FVal.isFinite] at h
  | .fin .., .inf true, h, _ => simp [FVal.atMost, FVal.isFinite] at h
  | .fin .., .inf false, _, h => simp [FVal.atMost, FVal.isFinite] at h
  | .nan _, .nan _, h, _ => simp [FVal.atMost, FVal.isFinite] at h
  | .nan _, .fin .., h, _ => simp [FVal.atMost, FVal.isFinite] at h
  | .fin .., .nan _, h, _ => simp [FVal.atMost, FVal.isFinite] at h
  | .fin n p i, .fin k q j, h, h' =>
    simp only [FVal.atMost, reduceCtorEq, FVal.isFinite, FVal.isNeg, true_and, false_or] at h h'
    have heq : (FVal.fin n p i).rat = (FVal.fin k q j).rat := by
      rcases h with h | h
      · rcases h' with h' | h'
        · exact absurd (h.trans h') (lt_irrefl _)
        · exact h'.1.symm
      · exact h.1
    simp only [heq, lt_irrefl, true_and, false_or] at h h'
    refine code_of_rat hf ha hb (by rw [hx]; rfl) (by rw [hy]; rfl) (by rw [hx, hy, heq]) ?_
    rw [hx, hy]
    show n = k
    cases n <;> cases k <;> simp_all

/-- The lesser and the greater of two numbers in the order of R113. -/
theorem fpMin_fpMax_of_atMost (hx : (f.decode a).isNan = false) (hy : (f.decode b).isNan = false) (h : (f.decode a).atMost (f.decode b)) :
    fpMin f a b = (a, 0#5) ∧ fpMax f a b = (b, 0#5) ∧ fpMin f b a = (a, 0#5) ∧ fpMax f b a = (b, 0#5) := by
  have hno := not_ltTotal_of_atMost h
  have hsame : ltTotal (f.decode a) (f.decode b) = false → a = b := fun hlt => code_of_atMost hf ha hb h (atMost_of_not_ltTotal hy hx hlt)
  unfold fpMin fpMax
  simp only [hx, hy, hno, not_signalling hx, not_signalling hy]
  cases hlt : ltTotal (f.decode a) (f.decode b)
  · obtain rfl := hsame hlt
    exact ⟨rfl, rfl, rfl, rfl⟩
  · exact ⟨rfl, rfl, rfl, rfl⟩

end

section
variable {f : Fmt} {a b : Nat}

theorem fpMin_fpMax_nan_nan (hx : (f.decode a).isNan = true) (hy : (f.decode b).isNan = true) :
    fpMin f a b = (f.canonical, if (f.decode a).isSignalling || (f.decode b).isSignalling then flagNV else 0#5) ∧
    fpMax f a b = (f.canonical, if (f.decode a).isSignalling || (f.decode b).isSignalling then flagNV else 0#5) := by
  unfold fpMin fpMax
  simp only [hx, hy]
  exact ⟨rfl, rfl⟩

theorem fpMin_fpMax_nan_number (hx : (f.decode a).isNan = true) (hy : (f.decode b).isNan = false) :
    fpMin f a b = (b, if (f.decode a).isSignalling || (f.decode b).isSignalling then flagNV else 0#5) ∧
    fpMax f a b = (b, if (f.decode a).isSignalling || (f.decode b).isSignalling then flagNV else 0#5) := by
  unfold fpMin fpMax
  simp only [hx, hy]
  exact ⟨rfl, rfl⟩

theorem fpMin_fpMax_number_nan (hx : (f.decode a).isNan = false) (hy : (f.decode b).isNan = true) :
    fpMin f a b = (a, if (f.decode a).isSignalling || (f.decode b).isSignalling then flagNV else 0#5) ∧
    fpMax f a b = (a, if (f.decode a).isSignalling || (f.decode b).isSignalling then flagNV else 0#5) := by
  unfold fpMin fpMax
  simp only [hx, hy]
  exact ⟨rfl, rfl⟩

end

/-! ### The words (R112, R113, R120) -/

/-- A function of two codes in the mode of the hints, in both twins. -/
def FpTwo (t : (Nat → Nat → Nat → Instr) × (Nat → Nat → Nat → Instr) × (Rm → Nat → Nat → Nat × Flags)) : Prop :=
  ∀ d a b,
    UniformEffect (Info.of 0 false false true) (t.1 d a b) (fun _ => [a, b]) d
      (fun h r => asWord (t.2.2 h.mode (r a).toNat (r b).toNat)) ∧
    LaneEffect (Info.of 1 false false true) (t.2.1 d a b) (fun _ => [a, b]) d
      (fun h r => asWord (t.2.2 h.mode (r a).toNat (r b).toNat))

theorem fpTwo_of {s v : Nat → Nat → Nat → Instr} {g : Rm → Nat → Nat → Nat × Flags}
    (hs : ∀ {d a b : Nat} (t : State), exec (s d a b) t = uniformAlu t (Info.of 0 false false true) (fp2 d a b g))
    (hv : ∀ {d a b : Nat} (t : State), exec (v d a b) t = perLaneAlu t (Info.of 1 false false true) (fp2 d a b g)) :
    FpTwo (s, v, g) :=
  fun _ _ _ => ⟨uniformEffect_of hs (fun _ => rfl) (fun _ => rfl) (fun _ _ => ⟨_, rfl, rfl⟩),
    perLaneEffect_of hv (fun _ => rfl) (fun _ => rfl) (fun _ _ => ⟨_, rfl, rfl⟩)⟩

/-- The same where the mode plays no part. -/
def FpChoose (t : (Nat → Nat → Nat → Instr) × (Nat → Nat → Nat → Instr) × (Nat → Nat → Nat × Flags)) : Prop :=
  ∀ d a b,
    UniformEffect (Info.of 0 false false false) (t.1 d a b) (fun _ => [a, b]) d (fun _ r => asWord (t.2.2 (r a).toNat (r b).toNat)) ∧
    LaneEffect (Info.of 1 false false false) (t.2.1 d a b) (fun _ => [a, b]) d (fun _ r => asWord (t.2.2 (r a).toNat (r b).toNat))

theorem fpChoose_of {s v : Nat → Nat → Nat → Instr} {g : Nat → Nat → Nat × Flags}
    (hs : ∀ {d a b : Nat} (t : State), exec (s d a b) t = uniformAlu t (Info.of 0 false false false) (fp2 d a b (fun _ => g)))
    (hv : ∀ {d a b : Nat} (t : State), exec (v d a b) t = perLaneAlu t (Info.of 1 false false false) (fp2 d a b (fun _ => g))) :
    FpChoose (s, v, g) :=
  fun _ _ _ => ⟨uniformEffect_of hs (fun _ => rfl) (fun _ => rfl) (fun _ _ => ⟨_, rfl, rfl⟩),
    perLaneEffect_of hv (fun _ => rfl) (fun _ => rfl) (fun _ _ => ⟨_, rfl, rfl⟩)⟩

/-- The same with the third source (R103). -/
def FpThree (t : (Nat → Nat → Nat → Instr) × (Nat → Nat → Nat → Instr) × (Rm → Nat → Nat → Nat → Nat × Flags)) : Prop :=
  ∀ d a b,
    UniformEffect (Info.of 0 false true true) (t.1 d a b) (fun h => [a, b, source3 h d]) d
      (fun h r => asWord (t.2.2 h.mode (r a).toNat (r b).toNat (r (source3 h d)).toNat)) ∧
    LaneEffect (Info.of 1 false true true) (t.2.1 d a b) (fun h => [a, b, source3 h d]) d
      (fun h r => asWord (t.2.2 h.mode (r a).toNat (r b).toNat (r (source3 h d)).toNat))

theorem fpThree_of {s v : Nat → Nat → Nat → Instr} {g : Rm → Nat → Nat → Nat → Nat × Flags}
    (hs : ∀ {d a b : Nat} (t : State), exec (s d a b) t = uniformAlu t (Info.of 0 false true true) (fp3 d a b g))
    (hv : ∀ {d a b : Nat} (t : State), exec (v d a b) t = perLaneAlu t (Info.of 1 false true true) (fp3 d a b g)) :
    FpThree (s, v, g) :=
  fun _ _ _ => ⟨uniformEffect_of hs (fun _ => rfl) (fun _ => rfl) (fun _ _ => ⟨_, rfl, rfl⟩),
    perLaneEffect_of hv (fun _ => rfl) (fun _ => rfl) (fun _ _ => ⟨_, rfl, rfl⟩)⟩

/-- The formats of R112 hold infinities, and none of them is narrow. -/
theorem arithmetic_format {f : Fmt} (h : f ∈ [Fmt.f32, Fmt.f16, Fmt.bf16]) : f.ieee = true ∧ f.narrow = false := by
  fin_cases h <;> exact ⟨rfl, rfl⟩

/-- Settles O5: sums and products are rounded once, the special operands are those of the exact operations, and every word is an ALU word. -/
theorem floatArithmetic : Obligations.FloatArithmetic := by
  unfold Obligations.FloatArithmetic
  refine ⟨fun f hfmt m a b c => ?values, fun f hfmt a b ha hb => ?extremes, ?two, ?three, ?choose⟩
  case values =>
    obtain ⟨hf, hw⟩ := arithmetic_format hfmt
    intro x y z inf nan signalling
    have hinf (n : Bool) : finish f m (.inf n, false) = inf n := finish_inf hf hw n
    refine ⟨congrArg (finish f m) (addVal_comm m x y), congrArg (finish f m) (mulVal_comm x y), ?fmaComm, ?sub, fun hx hy => ?finite,
      fun h => ?nan, fun n hx => ?infinite, fpFma_nan⟩
    case fmaComm => rw [fpFma_eq, fpFma_eq, mulVal_comm]
    case sub => rw [fpSub, fpAdd, decode_xor_sign]
    case finite =>
      refine ⟨fpAdd_exact hx hy, fpMul_exact hx hy, fpFma_exact hx hy, fun n hz => ?_⟩
      obtain ⟨l, p, i, hxv⟩ := exists_fin (v := f.decode a) hx
      obtain ⟨k, q, j, hyv⟩ := exists_fin (v := f.decode b) hy
      rw [fpFma_of_product (p := .fin (l != k) (p * q) (i + j)) (by rw [hxv, hyv]; rfl), show f.decode c = .inf n from hz]
      exact hinf n
    case nan => exact ⟨congrArg (finish f m) (addVal_nan h), congrArg (finish f m) (mulVal_nan h)⟩
    case infinite =>
      have hxv : f.decode a = .inf n := hx
      refine ⟨fun hy => ?_, fun hy hne => ?_, fun h0 => ?_, fun hy h0 => ?_⟩
      · rw [fpAdd, hxv, show f.decode b = .inf (!n) from hy, addVal_opposite]
        rfl
      · rw [fpAdd, hxv, addVal_inf hy hne, hinf]
      · have hp : mulVal (f.decode a) (f.decode b) = (.nan false, true) := by rw [hxv, mulVal_inf_zero n h0]
        exact ⟨congrArg (finish f m) hp, fpFma_invalid hp⟩
      · have hp : mulVal (f.decode a) (f.decode b) = (.inf (n != y.isNeg), false) := by rw [hxv, mulVal_inf n hy h0]
        refine ⟨(congrArg (finish f m) hp).trans (hinf _), fun hz => ?_⟩
        rw [fpFma_of_product hp]
        have hflip : (n == y.isNeg) = !(n != y.isNeg) := by cases n <;> cases y.isNeg <;> rfl
        by_cases hzv : z = .inf (n == y.isNeg)
        · rw [if_pos hzv, show f.decode c = .inf (n == y.isNeg) from hzv, hflip, addVal_opposite]
          rfl
        · rw [if_neg hzv, addVal_inf hz (by rw [← hflip]; exact hzv), hinf]
  case extremes =>
    obtain ⟨hf, -⟩ := arithmetic_format hfmt
    intro x y nv
    refine ⟨fpMin_fpMax_nan_nan, fpMin_fpMax_nan_number, fpMin_fpMax_number_nan, fun hx hy => ⟨fun h => ?_, fun h => ?_⟩⟩
    · obtain ⟨hmin, hmax, -, -⟩ := fpMin_fpMax_of_atMost hf ha hb hx hy h
      exact ⟨hmin, hmax⟩
    · have hat : y.atMost x := h.imp_right (Or.imp_right (fun ⟨h1, h2, h3⟩ => ⟨h2, h1, h3.imp_right (And.imp_left Eq.symm)⟩))
      obtain ⟨-, -, hmin, hmax⟩ := fpMin_fpMax_of_atMost hf hb ha hy hx hat
      exact ⟨hmin, hmax⟩
  case two =>
    change ∀ t ∈ _, FpTwo t
    simp only [List.forall_mem_cons, List.not_mem_nil, false_imp_iff, implies_true, and_true]
    exact ⟨fpTwo_of exec_sFadd exec_vFadd, fpTwo_of exec_sFsub exec_vFsub, fpTwo_of exec_sFmul exec_vFmul,
      fpTwo_of exec_sFaddF16x2 exec_vFaddF16x2, fpTwo_of exec_sFsubF16x2 exec_vFsubF16x2, fpTwo_of exec_sFmulF16x2 exec_vFmulF16x2,
      fpTwo_of exec_sFaddBf16x2 exec_vFaddBf16x2, fpTwo_of exec_sFsubBf16x2 exec_vFsubBf16x2, fpTwo_of exec_sFmulBf16x2 exec_vFmulBf16x2⟩
  case three =>
    change ∀ t ∈ _, FpThree t
    simp only [List.forall_mem_cons, List.not_mem_nil, false_imp_iff, implies_true, and_true]
    exact ⟨fpThree_of exec_sFfma exec_vFfma, fpThree_of exec_sFfmaF16x2 exec_vFfmaF16x2, fpThree_of exec_sFfmaBf16x2 exec_vFfmaBf16x2⟩
  case choose =>
    change ∀ t ∈ _, FpChoose t
    simp only [List.forall_mem_cons, List.not_mem_nil, false_imp_iff, implies_true, and_true]
    exact ⟨fpChoose_of exec_sFmin exec_vFmin, fpChoose_of exec_sFmax exec_vFmax, fpChoose_of exec_sFminF16x2 exec_vFminF16x2,
      fpChoose_of exec_sFmaxF16x2 exec_vFmaxF16x2, fpChoose_of exec_sFminBf16x2 exec_vFminBf16x2, fpChoose_of exec_sFmaxBf16x2 exec_vFmaxBf16x2⟩

end Sys2Proof.Machine
end

section
/-! SUPPORT. Reductions and scans over the active lanes (R127). -/
namespace Sys2Proof.Machine

/-! ### The tree of f32 sums -/

/-- The sum of an adjacent pair of leaves. -/
def pairSum (leaf : Nat → Nat) (i : Nat) : Nat × Flags := fpAdd .f32 .rne (leaf (2 * i)) (leaf (2 * i + 1))

/-- The leaves of the level above. -/
def levelAbove (leaf : Nat → Nat) (i : Nat) : Nat := (pairSum leaf i).1

/-- The flags of a level's sums. -/
def levelFlags (leaf : Nat → Nat) (is : List Nat) : Flags := is.foldr (fun i fl => (pairSum leaf i).2 ||| fl) 0#5

theorem levelFlags_append (leaf : Nat → Nat) (is js : List Nat) :
    levelFlags leaf (is ++ js) = levelFlags leaf is ||| levelFlags leaf js := by
  induction is with
  | nil => exact (BitVec.zero_or ..).symm
  | cons i is ih => exact (congrArg ((pairSum leaf i).2 ||| ·) ih).trans (BitVec.or_assoc ..).symm

theorem addPairs_range (leaf : Nat → Nat) (n s : Nat) : addPairs ((List.range' (2 * s) (2 * n)).map leaf) =
    ((List.range' s n).map (levelAbove leaf), levelFlags leaf (List.range' s n)) := by
  induction n generalizing s with
  | zero => rfl
  | succ n ih =>
    have ih := ih (s + 1)
    rw [show 2 * (n + 1) = 2 * n + 1 + 1 by omega, List.range'_succ, List.range'_succ, List.range'_succ, List.map_cons, List.map_cons,
      addPairs, show 2 * s + 1 + 1 = 2 * (s + 1) by omega, ih]
    rfl

/-- A tree is the tree over the sums of its lowest level. -/
theorem sumNode_succ_leaf (leaf : Nat → Nat) (k i : Nat) : sumNode leaf (k + 1) i =
    ((sumNode (levelAbove leaf) k i).1, levelFlags leaf (List.range' (i * 2 ^ k) (2 ^ k)) ||| (sumNode (levelAbove leaf) k i).2) := by
  induction k generalizing i with
  | zero =>
    rw [Nat.pow_zero, Nat.mul_one]
    refine Prod.ext rfl ?_
    show 0#5 ||| 0#5 ||| (pairSum leaf i).2 = (pairSum leaf i).2 ||| 0#5 ||| 0#5
    rw [BitVec.or_zero, BitVec.or_zero, BitVec.or_zero, BitVec.zero_or]
  | succ k ih =>
    have hrange : List.range' (i * 2 ^ (k + 1)) (2 ^ (k + 1)) =
        List.range' (2 * i * 2 ^ k) (2 ^ k) ++ List.range' ((2 * i + 1) * 2 ^ k) (2 ^ k) := by
      rw [show (2 * i + 1) * 2 ^ k = 2 * i * 2 ^ k + 2 ^ k by ring, List.range'_append_1]
      congr 1 <;> ring
    rw [hrange, levelFlags_append, sumNode, ih, ih]
    refine Prod.ext rfl ?_
    simp only [sumNode]
    ac_rfl

theorem reduceTree_eq (leaf : Nat → Nat) (k i : Nat) :
    reduceTree k ((List.range' (i * 2 ^ k) (2 ^ k)).map leaf) = sumNode leaf k i := by
  induction k generalizing leaf with
  | zero => simp [reduceTree, sumNode]
  | succ k ih =>
    have hlevel := addPairs_range leaf (2 ^ k) (i * 2 ^ k)
    rw [show i * 2 ^ (k + 1) = 2 * (i * 2 ^ k) by ring, show 2 ^ (k + 1) = 2 * 2 ^ k by ring, reduceTree, hlevel]
    simp only [ih, sumNode_succ_leaf]

theorem reduxAdd_f32 (w : Warp) (act : List Nat) (a : Nat) :
    reduxAdd w act a 2 = sumNode (fun k => if k ∈ act then (w.reg k a).toNat else 0x80000000) 5 0 := by
  rw [← reduceTree_eq, reduxAdd, if_pos rfl, List.range_eq_range']
  simp only [List.contains_iff_mem, reg_val, Nat.zero_mul, Nat.reducePow]

/-! ### Running sums -/

theorem foldl_runningSum (u : Nat → Nat) (ls : List Nat) (x : Nat) (xs : List Nat) :
    ls.foldl (fun r k => let q := fpAdd .f32 .rne r.1 (u k); (q.1, r.2 ||| q.2)) (runningSum (x :: xs)) =
    runningSum (ls.reverse.map u ++ x :: xs) := by
  induction ls generalizing x xs with
  | nil => rfl
  | cons k ls ih =>
    rw [List.reverse_cons, List.map_append, List.append_assoc]
    exact ih (u k) (x :: xs)

theorem scanIncl_f32 (w : Warp) (lanes : List Nat) (a : Nat) :
    scanIncl w lanes a 2 = runningSum (lanes.reverse.map (fun k => (w.reg k a).toNat)) := by
  cases lanes with
  | nil => rfl
  | cons l ls =>
    rw [List.reverse_cons, List.map_append]
    exact foldl_runningSum (fun k => w.val k a) ls (w.val l a) []

/-! ### Integer forms -/

/-- The sum of a register over lanes. -/
theorem foldl_sum (u : Nat → Nat) (ls : List Nat) : ls.foldl (fun n k => n + u k) 0 = (ls.map u).sum := by
  rw [List.sum_eq_foldl, List.foldl_map]

theorem ofNat_mod (n : Nat) : BitVec.ofNat 32 (n % 2 ^ 32) = BitVec.ofNat 32 n :=
  BitVec.eq_of_toNat_eq (by simp)

theorem reduxAdd_int (w : Warp) (act : List Nat) (a : Nat) {t : Nat} (ht : t < 2) :
    reduxAdd w act a t = (((act.map (fun k => (w.reg k a).toNat)).sum) % 2 ^ 32, 0#5) := by
  rw [reduxAdd, if_neg (by omega), foldl_sum]
  rfl

theorem scanIncl_int (w : Warp) (lanes : List Nat) (a : Nat) {t : Nat} (ht : t < 2) :
    scanIncl w lanes a t = (((lanes.map (fun k => (w.reg k a).toNat)).sum) % 2 ^ 32, 0#5) := by
  unfold scanIncl
  rw [if_neg (by omega), foldl_sum]
  rfl

/-- The integer a type code reads in a word: signed under code 0. -/
def typedValue (t : Nat) : Word → Int := if t = 0 then BitVec.toInt else fun v => v.toNat

theorem ofInt_typedValue (t : Nat) (v : Word) : BitVec.ofInt 32 (typedValue t v) = v := by
  unfold typedValue
  split
  · exact BitVec.ofInt_toInt
  · rw [BitVec.ofInt_natCast, ofNat_toNat32]

/-- The same of a number below 2^32. -/
def typedNat (t n : Nat) : Int := if t = 0 then signed 32 n else n

theorem typedNat_toNat (t : Nat) (v : Word) : typedNat t v.toNat = typedValue t v := by
  unfold typedNat typedValue
  split
  · exact signed32 v
  · rfl

/-- Folding an order's choice over words is folding it over their values. -/
theorem foldl_choice {v : Nat → Int} {value : Word → Int} (hv : ∀ u : Word, v u.toNat = value u) {better : Int → Int → Prop} [DecidableRel better]
    {pick : Int → Int → Int} (hpick : ∀ x y, pick x y = if better y x then y else x) (w : Warp) (a : Nat) (ls : List Nat) (u : Word) :
    ∃ u' : Word, ls.foldl (fun r k => let q : Nat × Flags := (if better (v (w.val k a)) (v r.1) then w.val k a else r.1, 0); (q.1, r.2 ||| q.2))
        (u.toNat, 0) = (u'.toNat, 0) ∧ value u' = (ls.map (fun k => value (w.reg k a))).foldl pick (value u) := by
  induction ls generalizing u with
  | nil => exact ⟨u, rfl, rfl⟩
  | cons k ls ih =>
    obtain ⟨u', hfold, hval⟩ := ih (if better (value (w.reg k a)) (value u) then w.reg k a else u)
    refine ⟨u', ?_, ?_⟩
    · rw [← hfold, List.foldl_cons, apply_ite BitVec.toNat]
      simp only [reg_val, hv, BitVec.or_self]
    · rw [hval, List.map_cons, List.foldl_cons, hpick]
      split <;> rfl

/-- The integer extreme of the active lanes under a type code. -/
theorem reduxExtreme_int (w : Warp) {act : List Nat} (a : Nat) {t : Nat} (ht : t < 2) {l : Nat} (hl : l ∈ act) (lo : Bool) :
    ∃ u : Word, reduxExtreme lo w act a t = (u.toNat, 0#5) ∧
      (if lo then (act.map (fun k => typedValue t (w.reg k a))).min? else (act.map (fun k => typedValue t (w.reg k a))).max?) =
        some (typedValue t u) := by
  obtain ⟨k, ls, rfl⟩ := List.exists_cons_of_ne_nil (List.ne_nil_of_mem hl)
  unfold reduxExtreme
  rw [if_neg (by omega)]
  obtain ⟨u, hfold, hval⟩ := foldl_choice (typedNat_toNat t) (better := fun y x => if lo then y < x else y > x)
    (pick := if lo then min else max) (fun x y => by cases lo <;> simp only [Bool.false_eq_true, if_true, if_false] <;> omega) w a ls (w.reg k a)
  refine ⟨u, hfold, ?_⟩
  rw [List.map_cons, hval]
  cases lo
  · exact List.max?_cons'
  · exact List.min?_cons'

/-! ### The f32 extremes (R113) -/

theorem atMost_trans {x y z : FVal} (hxy : x.atMost y) (hyz : y.atMost z) : x.atMost z := by
  rcases hxy with hx | hy | ⟨hx, hy, hxy⟩
  · exact .inl hx
  · rcases hyz with hy' | hz | ⟨hy', -, -⟩
    · exact absurd (hy.symm.trans hy') (by simp)
    · exact .inr (.inl hz)
    · rw [hy] at hy'
      cases hy'
  · rcases hyz with hy' | hz | ⟨-, hz, hyz⟩
    · rw [hy'] at hy
      cases hy
    · exact .inr (.inl hz)
    · refine .inr (.inr ⟨hx, hz, ?_⟩)
      rcases hxy with hxy | ⟨hxy, hsxy⟩
      · rcases hyz with hyz | ⟨hyz, -⟩
        · exact .inl (hxy.trans hyz)
        · exact .inl (hyz ▸ hxy)
      · rcases hyz with hyz | ⟨hyz, hsyz⟩
        · exact .inl (hxy ▸ hyz)
        · refine .inr ⟨hxy.trans hyz, ?_⟩
          rcases hsxy with h | h
          · exact .inl h
          · exact .inr (hsyz.resolve_left (by simp [h]))

/-- The lesser or the greater of two f32 codes. -/
def extremeOf (most : Bool) : Nat → Nat → Nat × Flags := if most then fpMax .f32 else fpMin .f32

section
variable {a b : Nat} (most : Bool)

theorem extremeOf_nan_nan (ha : (Fmt.f32.decode a).isNan = true) (hb : (Fmt.f32.decode b).isNan = true) :
    (extremeOf most a b).1 = Fmt.f32.canonical := by
  obtain ⟨hmin, hmax⟩ := fpMin_fpMax_nan_nan ha hb
  cases most
  · exact congrArg Prod.fst hmin
  · exact congrArg Prod.fst hmax

theorem extremeOf_nan_number (ha : (Fmt.f32.decode a).isNan = true) (hb : (Fmt.f32.decode b).isNan = false) :
    (extremeOf most a b).1 = b := by
  obtain ⟨hmin, hmax⟩ := fpMin_fpMax_nan_number ha hb
  cases most
  · exact congrArg Prod.fst hmin
  · exact congrArg Prod.fst hmax

theorem extremeOf_number_nan (ha : (Fmt.f32.decode a).isNan = false) (hb : (Fmt.f32.decode b).isNan = true) :
    (extremeOf most a b).1 = a := by
  cases most
  · exact fpMin_number_nan ha hb
  · exact fpMax_number_nan ha hb

theorem extremeOf_isExtreme (ha : (Fmt.f32.decode a).isNan = false) (hb : (Fmt.f32.decode b).isNan = false) :
    IsExtreme most [a, b] (extremeOf most a b).1 := by
  cases most
  · exact fpMin_least ha hb
  · exact fpMax_greatest ha hb

theorem extremeOf_mem : (extremeOf most a b).1 = a ∨ (extremeOf most a b).1 = b ∨ (extremeOf most a b).1 = Fmt.f32.canonical := by
  cases ha : (Fmt.f32.decode a).isNan <;> cases hb : (Fmt.f32.decode b).isNan
  · rcases List.mem_pair.1 (extremeOf_isExtreme most ha hb).1 with h | h
    · exact .inl h
    · exact .inr (.inl h)
  · exact .inl (extremeOf_number_nan most ha hb)
  · exact .inr (.inl (extremeOf_nan_number most ha hb))
  · exact .inr (.inr (extremeOf_nan_nan most ha hb))

theorem extremeOf_flags : (extremeOf most a b).2 = nvIf ((Fmt.f32.decode a).isSignalling || (Fmt.f32.decode b).isSignalling) := by
  unfold extremeOf fpMin fpMax
  cases most <;> simp only [Bool.false_eq_true, if_false, if_true, apply_ite Prod.snd, ite_self]

end

/-- What a fold of an extreme has chosen: the extreme of the codes so far, or a NaN where they hold no number. -/
def ChosenOf (most : Bool) (vs : List Nat) (c : Nat) : Prop :=
  (c ∈ vs ∨ c = Fmt.f32.canonical) ∧
  ((Fmt.f32.decode c).isNan = false → IsExtreme most vs c) ∧
  ((Fmt.f32.decode c).isNan = true → ∀ v ∈ vs, (Fmt.f32.decode v).isNan = true)

theorem chosenOf_singleton (most : Bool) (a : Nat) : ChosenOf most [a] a := by
  refine ⟨.inl (List.mem_singleton_self a), fun h => ⟨List.mem_singleton_self a, h, fun v hv _ => ?_⟩, fun h v hv => ?_⟩
  · obtain rfl := List.mem_singleton.1 hv
    cases most <;> exact atMost_refl h
  · obtain rfl := List.mem_singleton.1 hv
    exact h

/-- One comparison more, by whether the two codes are numbers. -/
theorem chosenOf_append {most : Bool} {vs : List Nat} {c : Nat} (h : ChosenOf most vs c) (v : Nat) :
    ChosenOf most (vs ++ [v]) (extremeOf most c v).1 := by
  obtain ⟨hmem, hnum, hnan⟩ := h
  cases hc : (Fmt.f32.decode c).isNan <;> cases hv : (Fmt.f32.decode v).isNan
  · obtain ⟨hcv, -, hext⟩ := hnum hc
    obtain ⟨hr, hrn, hbest⟩ := extremeOf_isExtreme most hc hv
    have hrv : (extremeOf most c v).1 ∈ vs ++ [v] := by
      rcases List.mem_pair.1 hr with h | h <;> rw [h]
      · exact List.mem_append_left _ hcv
      · exact List.mem_append_right _ (List.mem_singleton_self v)
    refine ⟨.inl hrv, fun _ => ⟨hrv, hrn, fun u hu hun => ?_⟩, fun h => absurd (hrn.symm.trans h) Bool.false_ne_true⟩
    have hc' := hbest c (List.mem_cons_self ..) hc
    rcases List.mem_append.1 hu with hu | hu
    · have hu' := hext u hu hun
      cases most
      · exact atMost_trans hc' hu'
      · exact atMost_trans hu' hc'
    · exact hbest u (List.mem_cons_of_mem _ hu) hun
  · rw [extremeOf_number_nan most hc hv]
    obtain ⟨hcv, -, hext⟩ := hnum hc
    refine ⟨.inl (List.mem_append_left _ hcv), fun _ => ⟨List.mem_append_left _ hcv, hc, fun u hu hun => ?_⟩,
      fun h => absurd (hc.symm.trans h) Bool.false_ne_true⟩
    rcases List.mem_append.1 hu with hu | hu
    · exact hext u hu hun
    · obtain rfl := List.mem_singleton.1 hu
      exact absurd (hun.symm.trans hv) Bool.false_ne_true
  · rw [extremeOf_nan_number most hc hv]
    have hlast : v ∈ vs ++ [v] := List.mem_append_right _ (List.mem_singleton_self v)
    refine ⟨.inl hlast, fun _ => ⟨hlast, hv, fun u hu hun => ?_⟩, fun h => absurd (hv.symm.trans h) Bool.false_ne_true⟩
    rcases List.mem_append.1 hu with hu | hu
    · exact absurd (hun.symm.trans (hnan hc u hu)) Bool.false_ne_true
    · obtain rfl := List.mem_singleton.1 hu
      cases most <;> exact atMost_refl hv
  · rw [extremeOf_nan_nan most hc hv]
    refine ⟨.inr rfl, fun h => absurd h (by decide), fun _ u hu => ?_⟩
    rcases List.mem_append.1 hu with hu | hu
    · exact hnan hc u hu
    · obtain rfl := List.mem_singleton.1 hu
      exact hv

/-- The fold of `foldActive` from a first value. -/
def foldFrom (f : Nat → Nat → Nat × Flags) (u : Nat → Nat) (r : Nat × Flags) (ls : List Nat) : Nat × Flags :=
  ls.foldl (fun r k => let q := f r.1 (u k); (q.1, r.2 ||| q.2)) r

theorem chosenOf_foldFrom {most : Bool} (u : Nat → Nat) (ls : List Nat) {vs : List Nat} {r : Nat × Flags} (h : ChosenOf most vs r.1) :
    ChosenOf most (vs ++ ls.map u) (foldFrom (extremeOf most) u r ls).1 := by
  induction ls generalizing vs r with
  | nil => rwa [List.map_nil, List.append_nil]
  | cons k ls ih =>
    rw [List.map_cons, ← List.singleton_append, ← List.append_assoc]
    exact ih (chosenOf_append h (u k))

theorem nvIf_or (s t : Bool) : nvIf s ||| nvIf t = nvIf (s || t) := by cases s <;> cases t <;> rfl

/-- The choice and its flags carry no more than the NV that `s` announces. -/
def QuietUpTo (s : Bool) (r : Nat × Flags) : Prop := ((Fmt.f32.decode r.1).isSignalling = true → s = true) ∧ r.2 ||| nvIf s = nvIf s

theorem quietUpTo_foldFrom {most : Bool} {u : Nat → Nat} {s : Bool} {ls : List Nat}
    (hs : ∀ k ∈ ls, (Fmt.f32.decode (u k)).isSignalling = true → s = true) {r : Nat × Flags} (h : QuietUpTo s r) :
    QuietUpTo s (foldFrom (extremeOf most) u r ls) := by
  induction ls generalizing r with
  | nil => exact h
  | cons k ls ih =>
    refine ih (fun j hj => hs j (List.mem_cons_of_mem _ hj)) ?_
    obtain ⟨hsig, hfl⟩ := h
    have hk := hs k (List.mem_cons_self ..)
    refine ⟨fun h => ?_, ?_⟩
    · rcases extremeOf_mem (a := r.1) (b := u k) most with hr | hr | hr
      · exact hsig (hr ▸ h)
      · exact hk (hr ▸ h)
      · rw [hr] at h
        exact absurd h (by decide)
    · show r.2 ||| (extremeOf most r.1 (u k)).2 ||| nvIf s = nvIf s
      rw [extremeOf_flags, BitVec.or_assoc, nvIf_or, Bool.or_eq_right_iff_imp.2 (fun h => (Bool.or_eq_true_iff.1 h).elim hsig hk)]
      exact hfl

section
variable (w : Warp) (act : List Nat) (a : Nat) (most : Bool)

theorem fpExtreme_flags : (fpExtreme (extremeOf most) w act a).2 =
    if act.any (fun k => (Fmt.f32.decode (w.reg k a).toNat).isSignalling) then flagNV else 0#5 := by
  cases act with
  | nil => exact BitVec.or_self
  | cons l ls =>
    have hs : ∀ k ∈ l :: ls, (Fmt.f32.decode (w.val k a)).isSignalling = true →
        (l :: ls).any (fun k => (Fmt.f32.decode (w.val k a)).isSignalling) = true := fun k hk h => List.any_eq_true.2 ⟨k, hk, h⟩
    exact (quietUpTo_foldFrom (most := most) (u := fun k => w.val k a) (r := (w.val l a, 0)) (fun k hk => hs k (List.mem_cons_of_mem _ hk))
      ⟨hs l (List.mem_cons_self ..), BitVec.zero_or ..⟩).2

theorem fpExtreme_chosen (hact : act ≠ []) :
    ∃ c, ChosenOf most (act.map (fun k => w.val k a)) c ∧
      (fpExtreme (extremeOf most) w act a).1 = if (Fmt.f32.decode c).isNan then Fmt.f32.canonical else c := by
  obtain ⟨l, ls, rfl⟩ := List.exists_cons_of_ne_nil hact
  exact ⟨_, chosenOf_foldFrom (fun k => w.val k a) ls (r := (w.val l a, 0)) (chosenOf_singleton most (w.val l a)), rfl⟩

theorem fpExtreme_isExtreme (h : act.all (fun k => (Fmt.f32.decode (w.reg k a).toNat).isNan) = false) :
    IsExtreme most (act.map (fun k => (w.reg k a).toNat)) (fpExtreme (extremeOf most) w act a).1 := by
  obtain ⟨k, hk, hnum⟩ := List.all_eq_false.1 h
  obtain ⟨c, ⟨-, hext, hnan⟩, hc⟩ := fpExtreme_chosen w act a most (List.ne_nil_of_mem hk)
  have hcn : (Fmt.f32.decode c).isNan = false := Bool.eq_false_iff.2 (fun hc => hnum (hnan hc _ (List.mem_map_of_mem hk)))
  rw [hc, hcn]
  exact hext hcn

theorem fpExtreme_nan (hact : act ≠ []) (h : act.all (fun k => (Fmt.f32.decode (w.reg k a).toNat).isNan) = true) :
    (fpExtreme (extremeOf most) w act a).1 = 0x7FC00000 := by
  obtain ⟨c, ⟨hmem, -, -⟩, hc⟩ := fpExtreme_chosen w act a most hact
  have hcn : (Fmt.f32.decode c).isNan = true := by
    rcases hmem with hmem | rfl
    · obtain ⟨k, hk, rfl⟩ := List.mem_map.1 hmem
      exact List.all_eq_true.1 h k hk
    · decide
  rw [hc, hcn]
  rfl

end

/-! ### The words -/

/-- Settles O15: the words are cross-lane functions; the sums are the tree and the running sum, and the extremes are a fold of R113's choice. -/
theorem reductionsAndScans : Obligations.ReductionsAndScans := by
  unfold Obligations.ReductionsAndScans
  intro d a
  refine ⟨fun t ht => ?integers, ?floats⟩
  case integers =>
    intro least value sum
    refine ⟨?add, ?least, ?greatest, ?incl, ?excl⟩
    case add => exact crossEffect_of exec_vReduxAdd (fun w m l _ => ⟨_, by rw [reduxAdd_int _ _ _ ht], ofNat_mod _⟩)
    case incl => exact crossEffect_of exec_vScanIncl (fun w m l _ => ⟨_, by rw [scanIncl_int _ _ _ ht], ofNat_mod _⟩)
    case excl => exact crossEffect_of exec_vScanExcl (fun w m l _ => ⟨_, by rw [scanIncl_int _ _ _ ht], ofNat_mod _⟩)
    case least =>
      refine crossEffect_of exec_vReduxMin (fun w m l hl => ?_)
      obtain ⟨u, hu, hmin⟩ := reduxExtreme_int w a ht ((mem_lanesOf m l).2 hl) true
      refine ⟨u.toNat, by rw [hu], ?_⟩
      rw [ofNat_toNat32]
      exact ((congrArg (fun o => BitVec.ofInt 32 (o.getD 0)) hmin).trans (ofInt_typedValue t u)).symm
    case greatest =>
      refine crossEffect_of exec_vReduxMax (fun w m l hl => ?_)
      obtain ⟨u, hu, hmax⟩ := reduxExtreme_int w a ht ((mem_lanesOf m l).2 hl) false
      refine ⟨u.toNat, by rw [hu], ?_⟩
      rw [ofNat_toNat32]
      exact ((congrArg (fun o => BitVec.ofInt 32 (o.getD 0)) hmax).trans (ofInt_typedValue t u)).symm
  case floats =>
    intro v scanned
    refine ⟨?add, ?incl, ?excl, ?extremes⟩
    case add => exact crossEffect_of exec_vReduxAdd (fun w m l _ => ⟨_, by rw [reduxAdd_f32]; rfl, rfl⟩)
    case incl => exact crossEffect_of exec_vScanIncl (fun w m l _ => ⟨_, by rw [scanIncl_f32]; rfl, rfl⟩)
    case excl => exact crossEffect_of exec_vScanExcl (fun w m l _ => ⟨_, by rw [scanIncl_f32]; rfl, rfl⟩)
    case extremes =>
      simp only [List.forall_mem_cons, List.not_mem_nil, false_imp_iff, implies_true, and_true]
      refine ⟨⟨fun w act => (fpExtreme (extremeOf false) w act a).1, ?_, fun w act => ⟨fpExtreme_isExtreme w act a false, fpExtreme_nan w act a false⟩⟩,
        ⟨fun w act => (fpExtreme (extremeOf true) w act a).1, ?_, fun w act => ⟨fpExtreme_isExtreme w act a true, fpExtreme_nan w act a true⟩⟩⟩
      · exact crossEffect_of exec_vReduxMin (fun w m l _ => ⟨_, congrArg (Prod.mk _) (fpExtreme_flags w (lanesOf m) a false), rfl⟩)
      · exact crossEffect_of exec_vReduxMax (fun w m l _ => ⟨_, congrArg (Prod.mk _) (fpExtreme_flags w (lanesOf m) a true), rfl⟩)

end Sys2Proof.Machine
end

section
/-! SUPPORT. The special functions (R115 to R119) at special operands, and where the result is an exact number. -/

namespace Sys2Proof.Machine

/-! ### Special operands (R117 to R119) -/

section
variable {a : Nat}

theorem fpRsq_fin {n : Bool} {x : Nat} {e : Int} (h : Fmt.f32.decode a = .fin n x e) : fpRsq a =
    if x = 0 then (if n then 0xFF800000 else 0x7F800000, flagDZ) else if n then (Fmt.f32.canonical, flagNV)
    else ((roundFrac .f32 .rne false false (rootFrac (scaleUp 1 (-e)) (scaleUp x e) 192).1
      (rootFrac (scaleUp 1 (-e)) (scaleUp x e) 192).2).1, 0) := by
  unfold fpRsq
  split
  case h_1 hs => exact absurd (h.symm.trans hs) (by simp)
  case h_2 hs => exact absurd (h.symm.trans hs) (by simp)
  case h_3 hs =>
    obtain ⟨rfl, rfl, rfl⟩ := FVal.fin.inj (h.symm.trans hs)
    rcases rootFrac (scaleUp 1 (-e)) (scaleUp x e) 192 with ⟨p, q⟩
    rfl

theorem fpSqrt_fin (m : Rm) {n : Bool} {x : Nat} {e : Int} (h : Fmt.f32.decode a = .fin n x e) : fpSqrt m a =
    if x = 0 then (a, 0) else if n then (Fmt.f32.canonical, flagNV)
    else roundFrac .f32 m false false (rootFrac (scaleUp x e) (scaleUp 1 (-e)) 128).1 (rootFrac (scaleUp x e) (scaleUp 1 (-e)) 128).2 := by
  unfold fpSqrt
  split
  case h_1 hs => exact absurd (h.symm.trans hs) (by simp)
  case h_2 hs => exact absurd (h.symm.trans hs) (by simp)
  case h_3 hs =>
    obtain ⟨rfl, rfl, rfl⟩ := FVal.fin.inj (h.symm.trans hs)
    rcases rootFrac (scaleUp x e) (scaleUp 1 (-e)) 128 with ⟨p, q⟩
    rfl

theorem special_nan (m : Rm) {s : Bool} (h : Fmt.f32.decode a = .nan s) :
    ∀ g ∈ [fpRcp, fpRsq, fpSqrt m, fpExp2, fpLog2, fpSinpi, fpCospi, fpTanh, fpRint m], g a = (0x7FC00000, if s then flagNV else 0#5) := by
  simp only [List.forall_mem_cons, List.not_mem_nil, false_imp_iff, implies_true, and_true, fpRcp, fpRsq, fpSqrt, fpExp2, fpLog2, fpSinpi,
    fpCospi, fpTanh, fpRint, h]
  exact ⟨rfl, rfl, rfl, rfl, rfl, rfl, rfl, rfl, rfl⟩

/-- Values at an infinity that do not depend on its sign but for their own. -/
theorem special_inf (m : Rm) {n : Bool} (h : Fmt.f32.decode a = .inf n) :
    fpRcp a = (Fmt.f32.sign n, 0#5) ∧ fpTanh a = (Fmt.f32.sign n + 0x3F800000, 0#5) ∧ fpRint m a = (a, 0#5) ∧
      fpSinpi a = (0x7FC00000, flagNV) ∧ fpCospi a = (0x7FC00000, flagNV) := by
  simp only [fpRcp, fpTanh, fpRint, fpSinpi, fpCospi, h]
  cases n <;> exact ⟨rfl, rfl, rfl, rfl, rfl⟩

theorem special_neg_inf (m : Rm) (h : Fmt.f32.decode a = .inf true) :
    fpRsq a = (0x7FC00000, flagNV) ∧ fpSqrt m a = (0x7FC00000, flagNV) ∧ fpLog2 a = (0x7FC00000, flagNV) ∧ fpExp2 a = (0, 0#5) := by
  simp only [fpRsq, fpSqrt, fpLog2, fpExp2, h]
  exact ⟨rfl, rfl, rfl, rfl⟩

theorem special_pos_inf (m : Rm) (ha : a < 2 ^ 32) (h : Fmt.f32.decode a = .inf false) :
    fpRsq a = (0, 0#5) ∧ fpSqrt m a = (a, 0#5) ∧ fpLog2 a = (a, 0#5) ∧ fpExp2 a = (a, 0#5) := by
  have hcode : a = 0x7F800000 := code_of_inf (f := .f32) rfl ha (by decide) h (by decide)
  simp only [fpRsq, fpSqrt, fpLog2, fpExp2, h]
  rw [hcode]
  exact ⟨rfl, rfl, rfl, rfl⟩

theorem special_zero (m : Rm) {n : Bool} {e : Int} (h : Fmt.f32.decode a = .fin n 0 e) :
    fpRcp a = (Fmt.f32.sign n + 0x7F800000, flagDZ) ∧ fpRsq a = (Fmt.f32.sign n + 0x7F800000, flagDZ) ∧ fpSqrt m a = (a, 0#5) ∧
      fpExp2 a = (0x3F800000, 0#5) ∧ fpLog2 a = (0xFF800000, flagDZ) ∧ fpCospi a = (0x3F800000, 0#5) ∧ fpTanh a = (a, 0#5) := by
  have hnum : scaleUp 0 e = 0 := by unfold scaleUp; split <;> simp
  rw [fpRsq_fin h, fpSqrt_fin m h, if_pos rfl, if_pos rfl]
  simp only [fpRcp, fpExp2, fpLog2, fpCospi, fpTanh, h, hnum, Nat.zero_mod, if_true]
  cases n <;> simp [Fmt.sign, Fmt.bits]

/-- Below zero there is no root and no logarithm. -/
theorem special_negative (m : Rm) {x : Nat} {e : Int} (h : Fmt.f32.decode a = .fin true x e) (hx : x ≠ 0) :
    fpRsq a = (0x7FC00000, flagNV) ∧ fpSqrt m a = (0x7FC00000, flagNV) ∧ fpLog2 a = (0x7FC00000, flagNV) := by
  rw [fpRsq_fin h, fpSqrt_fin m h, if_neg hx, if_pos rfl, if_neg hx, if_pos rfl]
  simp only [fpLog2, h, if_neg hx, if_true]
  exact ⟨rfl, rfl, rfl⟩

/-- No flag at a number that is not zero (R118). -/
theorem special_flags {n : Bool} {x : Nat} {e : Int} (h : Fmt.f32.decode a = .fin n x e) :
    (fpExp2 a).2 = 0#5 ∧ (fpSinpi a).2 = 0#5 ∧ (fpCospi a).2 = 0#5 ∧ (fpTanh a).2 = 0#5 := by
  simp only [fpExp2, fpSinpi, fpCospi, fpTanh, h, apply_ite Prod.snd, ite_self]
  exact ⟨rfl, rfl, rfl, rfl⟩

theorem fpLog2_flags {x : Nat} {e : Int} (h : Fmt.f32.decode a = .fin false x e) (hx : x ≠ 0) : (fpLog2 a).2 = 0#5 := by
  simp only [fpLog2, h, if_neg hx, apply_ite Prod.snd, ite_self]
  rfl

/-- `fclass` by the fields (R115). -/
theorem fpClass_fields (ha : a < 2 ^ 32) : fpClass a =
    if a / 2 ^ 23 % 2 ^ 8 = 255 then
      (if a % 2 ^ 23 = 0 then (if a / 2 ^ 31 = 1 then 2 ^ 0 else 2 ^ 7) else if a % 2 ^ 23 < 2 ^ 22 then 2 ^ 8 else 2 ^ 9)
    else if a / 2 ^ 23 % 2 ^ 8 = 0 then (if a % 2 ^ 23 = 0 then (if a / 2 ^ 31 = 1 then 2 ^ 3 else 2 ^ 4) else if a / 2 ^ 31 = 1 then 2 ^ 2 else 2 ^ 5)
    else if a / 2 ^ 31 = 1 then 2 ^ 1 else 2 ^ 6 := by
  have hsign : (a / 2 ^ 31 % 2 == 1) = decide (a / 2 ^ 31 = 1) := by rw [Nat.mod_eq_of_lt (by omega), beq_eq_decide]
  have hquiet : (a % 2 ^ 23 / 2 ^ 22 % 2 == 0) = decide (a % 2 ^ 23 < 2 ^ 22) := by
    rw [beq_eq_decide, decide_eq_decide]
    omega
  have hlow : a % 2 ^ 23 < 8388608 := Nat.mod_lt a (Nat.two_pow_pos 23)
  unfold fpClass Fmt.decode
  simp only [Fmt.bits, Fmt.mant, Fmt.ieee, Nat.reduceSub, hsign, Bool.true_and, hquiet, beq_iff_eq]
  generalize a / 2 ^ 23 % 2 ^ 8 = e
  generalize a % 2 ^ 23 = t at hlow
  by_cases htop : e = 255
  · by_cases hfrac : t = 0 <;> simp [htop, hfrac]
  · by_cases hsub : e = 0
    · by_cases hfrac : t = 0
      · simp [hsub, hfrac]
      · simp [hsub, hfrac, hlow]
    · simp [htop, hsub]

end

end Sys2Proof.Machine
end

section
/-! SUPPORT. The special functions where the result is an exact number, a reciprocal or an integral value (R117 to R119). -/

namespace Sys2Proof.Machine

/-! ### A number as the fraction the model computes with -/

section
variable (x : Nat) (e : Int)

theorem num_div_den : (scaleUp x e : ℚ) / scaleUp 1 (-e) = x * 2 ^ e := by
  have h := scaleUp_ratio x 1 (-e)
  rw [neg_neg] at h
  rw [h, zpow_neg, Nat.cast_one, div_one, div_inv_eq_mul]

theorem den_pos : 0 < scaleUp 1 (-e) := scaleUp_pos _ one_pos

theorem num_eq : (scaleUp x e : ℚ) = x * 2 ^ e * scaleUp 1 (-e) := by
  rw [← num_div_den, div_mul_cancel₀ _ (Nat.cast_pos.2 (den_pos e)).ne']

/-- A comparison of multiples of a number's fraction is one of the number. -/
theorem den_le_num (j k : Nat) : k * scaleUp 1 (-e) ≤ j * scaleUp x e ↔ (k : ℚ) ≤ j * (x * 2 ^ e) := by
  rw [← Nat.cast_le (α := ℚ), Nat.cast_mul, Nat.cast_mul, num_eq x e, ← mul_assoc, mul_le_mul_iff_left₀ (Nat.cast_pos.2 (den_pos e))]

theorem den_lt_num (j k : Nat) : k * scaleUp 1 (-e) < j * scaleUp x e ↔ (k : ℚ) < j * (x * 2 ^ e) := by
  rw [← Nat.cast_lt (α := ℚ), Nat.cast_mul, Nat.cast_mul, num_eq x e, ← mul_assoc, mul_lt_mul_iff_left₀ (Nat.cast_pos.2 (den_pos e))]

variable {x e} in
/-- A multiple of a number that is an integer. -/
theorem num_eq_mul_den {j k : Nat} (h : (j : ℚ) * (x * 2 ^ e) = k) : j * scaleUp x e = k * scaleUp 1 (-e) := by
  rw [← Nat.cast_inj (R := ℚ), Nat.cast_mul, Nat.cast_mul, num_eq x e, ← mul_assoc, h]

end

/-! ### Codes of f32 -/

/-- The fields of a finite f32 code. -/
theorem f32_fin {a x : Nat} {n : Bool} {e : Int} (h : Fmt.f32.decode a = .fin n x e) :
    Fmt.f32.low a ≤ Fmt.f32.largest ∧ Fmt.f32.signBit a = n ∧ Fmt.f32.value (Fmt.f32.low a) = x * 2 ^ e ∧ x < 2 ^ 24 ∧ -149 ≤ e := by
  obtain ⟨hle, hs, hx, he⟩ := decode_fin rfl h
  obtain ⟨he1, -, hlt, -⟩ := code_parts (f := .f32) (Fmt.f32.low a)
  refine ⟨hle, hs, by rw [Fmt.value, hx, he], hx ▸ hlt, ?_⟩
  rw [← he]
  show (-149 : ℤ) ≤ _ - 127 - 23
  omega

theorem value_infinity : Fmt.f32.value (Fmt.f32.largest + 1) = 2 ^ (128 : ℤ) := by
  have h := value_code (f := .f32) (e := 255) (n := 2 ^ 23) (by decide) (by decide) (.inr (by decide))
  rw [show Fmt.f32.largest + 1 = (255 - 1) * 2 ^ Fmt.f32.mant + 2 ^ 23 by decide, h]
  norm_num [Fmt.bias, Fmt.mant]

/-- A number of 24 bits in the range of f32 is exact in it, in every mode. -/
theorem roundFrac_exact {num den n : Nat} {e : Int} (hd : 0 < den) (hratio : (num : ℚ) / den = n * 2 ^ e) (hn : n ≤ 2 ^ 24) (he : -149 ≤ e)
    (hlt : (n : ℚ) * 2 ^ e < 2 ^ (128 : ℤ)) :
    ∃ c, c ≤ Fmt.f32.largest ∧ Fmt.f32.value c = n * 2 ^ e ∧ ∀ m neg, roundFrac .f32 m false neg num den = (Fmt.f32.sign neg + c, 0#5) := by
  obtain ⟨c, hc⟩ := exists_value (f := .f32) hn (show (1 : ℤ) - 127 - 23 ≤ e by omega)
  have hle : c ≤ Fmt.f32.largest := by
    rw [← hc, ← value_infinity, value_strictMono.lt_iff_lt] at hlt
    omega
  refine ⟨c, hle, hc, fun m neg => ?_⟩
  rcases Nat.eq_zero_or_pos num with rfl | hnum
  · have hzero : Fmt.f32.value c = Fmt.f32.value 0 := by rw [hc, ← hratio, value_zero, Nat.cast_zero, zero_div]
    rw [value_strictMono.injective hzero]
    rfl
  · exact (roundFrac_rounded hnum hd m false neg).exact c hle (by rw [mag_eq_value hle, hc, hratio])

theorem roundFrac_integer {k : Nat} (hk : k ≤ 2 ^ 24) :
    ∃ c, c ≤ Fmt.f32.largest ∧ Fmt.f32.value c = k ∧ ∀ m neg, roundFrac .f32 m false neg k 1 = (Fmt.f32.sign neg + c, 0#5) := by
  have hk' : (k : ℚ) * 2 ^ (0 : ℤ) = k := by rw [zpow_zero, mul_one]
  have hlt : (k : ℚ) < 2 ^ (128 : ℤ) := by exact_mod_cast hk.trans_lt (by decide)
  obtain ⟨c, hc, hcv, hexact⟩ := roundFrac_exact (num := k) (n := k) (e := 0) one_pos (by rw [hk', Nat.cast_one, div_one]) hk (by decide)
    (hk'.trans_lt hlt)
  exact ⟨c, hc, hcv.trans hk', hexact⟩

/-! ### Integral values (R119) -/

/-- A number as a sign and a magnitude. -/
theorem sign_mul_abs (n : Bool) {v : ℚ} (hv : 0 ≤ v) : |(if n then -1 else 1) * v| = v := by
  cases n <;> simp [abs_of_nonneg hv]

/-- Rounding to an integer acts on the magnitude. -/
theorem roundedInt_sign (m : Rm) (n : Bool) {v : ℚ} {k : Nat} (hk : k ≤ v) (hk' : v < k + 1) :
    roundedInt m ((if n then -1 else 1) * v) = (if n then -1 else 1) * (nearInt m n v k : ℤ) := by
  have hv : 0 ≤ v := (Nat.cast_nonneg k).trans hk
  have hfloor : ⌊v⌋ = (k : ℤ) := Int.floor_eq_iff.2 ⟨by exact_mod_cast hk, by exact_mod_cast hk'⟩
  have hodd : ((k : ℤ) % 2 == 1) = (k % 2 == 1) := by
    rw [beq_eq_decide, beq_eq_decide, decide_eq_decide]
    omega
  unfold roundedInt nearInt
  rw [sign_mul_abs n hv, hfloor]
  simp only [Int.cast_natCast, hodd]
  rcases hv.eq_or_lt with rfl | hpos
  · have hk0 : k = 0 := Nat.le_zero.1 (by exact_mod_cast hk)
    simp [hk0]
  · have hneg : (if n then -1 else 1) * v < 0 ↔ n = true := by cases n <;> simp [hpos, hpos.le]
    simp only [hneg, Bool.decide_eq_true]
    by_cases heq : v = k
    · cases n <;> simp [heq]
    · rw [if_neg (Ne.symm heq), if_neg heq]
      cases n <;> cases roundsUp m _ (k % 2 == 1) k v (k + 1) <;> simp

theorem nearInt_self (m : Rm) (n : Bool) (k : Nat) : nearInt m n k k = k := if_pos rfl

theorem nearInt_le (m : Rm) (n : Bool) (v : ℚ) (k : Nat) : nearInt m n v k ≤ k + 1 := by
  unfold nearInt
  split
  · omega
  · split <;> omega

section
variable {a x : Nat} {n : Bool} {e : Int} (ha : a < 2 ^ 32) (h : Fmt.f32.decode a = .fin n x e) (m : Rm)
include ha h

/-- `frint` gives the code of the integer that the magnitude rounds to. -/
theorem fpRint_code : ∃ c k : Nat, c ≤ Fmt.f32.largest ∧ k ≤ (x : ℚ) * 2 ^ e ∧ (x : ℚ) * 2 ^ e < k + 1 ∧
    Fmt.f32.value c = nearInt m n (x * 2 ^ e) k ∧ fpRint m a = (Fmt.f32.sign n + c, 0#5) := by
  obtain ⟨hle, hs, hval, hx, -⟩ := f32_fin h
  rcases le_or_gt 0 e with he | he
  · obtain ⟨j, rfl⟩ := Int.eq_ofNat_of_zero_le he
    have hint : (x : ℚ) * 2 ^ (j : ℤ) = (x * 2 ^ j : Nat) := by push_cast; rfl
    refine ⟨Fmt.f32.low a, x * 2 ^ j, hle, hint.ge, by rw [hint]; exact lt_add_one _, by rw [hval, hint, nearInt_self], ?_⟩
    have hrint : fpRint m a = (a, 0) := by simp only [fpRint, h, ge_iff_le, he, if_true]
    rw [hrint, ← hs, ← sign_low ha]
    rfl
  · obtain ⟨j, rfl⟩ : ∃ j : Nat, e = -(j + 1) := ⟨(-e - 1).toNat, by omega⟩
    have hratio : (x : ℚ) / (2 ^ (j + 1) : Nat) = x * 2 ^ (-((j : ℤ) + 1)) := by
      rw [zpow_neg, div_eq_mul_inv]
      push_cast
      rfl
    obtain ⟨hlo, hhi, hround⟩ := roundNat_spec m n x (Nat.two_pow_pos (j + 1))
    rw [hratio] at hlo hhi hround
    have hsmall : x / 2 ^ (j + 1) < 2 ^ 23 := by
      rw [Nat.div_lt_iff_lt_mul (Nat.two_pow_pos _)]
      have := Nat.one_le_two_pow (n := j)
      rw [Nat.pow_succ]
      omega
    have hnear := nearInt_le m n (x * 2 ^ (-((j : ℤ) + 1))) (x / 2 ^ (j + 1))
    obtain ⟨c, hc, hcv, hexact⟩ := roundFrac_integer (hnear.trans (by omega))
    refine ⟨c, x / 2 ^ (j + 1), hc, hlo, hhi, hcv, ?_⟩
    have hrint : fpRint m a = ((roundFrac .f32 .rne false n (roundNat m n x (2 ^ (j + 1))).1 1).1, 0) := by
      simp only [fpRint, h, ge_iff_le, not_le.2 he, if_false, neg_neg]
      rfl
    rw [hrint, hround, hexact]
    rfl

/-- The number that `frint` gives. -/
theorem fpRint_value : (Fmt.f32.decode (fpRint m a).1).rat = roundedInt m (Fmt.f32.decode a).rat ∧
    (Fmt.f32.decode (fpRint m a).1).isNeg = n ∧ (fpRint m a).2 = 0#5 := by
  obtain ⟨c, k, hc, hlo, hhi, hcv, hrint⟩ := fpRint_code ha h m
  rw [hrint, h, rat_fin, roundedInt_sign m n hlo hhi, rat_code n hc, hcv, decode_code n hc]
  refine ⟨?_, rfl, rfl⟩
  cases n <;> simp

/-- An integer stays as it is. -/
theorem fpRint_integer {j : Nat} (hj : (x : ℚ) * 2 ^ e = j) : fpRint m a = (a, 0#5) := by
  obtain ⟨-, hs, hval, -, -⟩ := f32_fin h
  obtain ⟨c, k, -, hlo, hhi, hcv, hrint⟩ := fpRint_code ha h m
  have hk : k = j := by
    rw [hj] at hlo hhi
    have h1 : k ≤ j := by exact_mod_cast hlo
    have h2 : j < k + 1 := by exact_mod_cast hhi
    omega
  rw [hj, hk, nearInt_self, ← hj, ← hval] at hcv
  rw [hrint, value_strictMono.injective hcv, ← hs, ← sign_low ha]

end

/-! ### Integers and halves -/

section
variable (n : Bool) {v : ℚ} (hv : 0 ≤ v) {i : ℤ}
include hv

theorem integer_parts (hi : (if n then -1 else 1) * v = i) : ∃ j : Nat, v = j ∧ i = (if n then -1 else 1) * (j : ℤ) := by
  refine ⟨i.natAbs, ?_, ?_⟩
  · rw [Nat.cast_natAbs, Int.cast_abs, ← hi, sign_mul_abs n hv]
  · cases n
    · rw [if_neg Bool.false_ne_true, one_mul] at hi
      have : (0 : ℤ) ≤ i := by exact_mod_cast hi ▸ hv
      simp only [Bool.false_eq_true, if_false]
      omega
    · rw [if_pos rfl, neg_one_mul] at hi
      have : i ≤ 0 := by exact_mod_cast hi ▸ neg_nonpos.2 hv
      simp only [if_true]
      omega

theorem half_parts (hi : (if n then -1 else 1) * v = i + 1 / 2) : ∃ j : Nat, v = j + 1 / 2 ∧ i = if n then -((j : ℤ) + 1) else (j : ℤ) := by
  cases n
  · rw [if_neg Bool.false_ne_true, one_mul] at hi
    have h0 : -1 < i := by exact_mod_cast (by linarith : (-1 : ℚ) < i)
    obtain ⟨j, rfl⟩ := Int.eq_ofNat_of_zero_le (by omega : 0 ≤ i)
    exact ⟨j, hi, rfl⟩
  · rw [if_pos rfl, neg_one_mul] at hi
    have h0 : i < 0 := by exact_mod_cast (by linarith : (i : ℚ) < 0)
    obtain ⟨j, hj⟩ := Int.eq_ofNat_of_zero_le (by omega : 0 ≤ -i - 1)
    obtain rfl : i = -(j + 1) := by omega
    refine ⟨j, ?_, rfl⟩
    push_cast at hi
    linarith

end

section
variable {a x : Nat} {n : Bool} {e : Int} (h : Fmt.f32.decode a = .fin n x e)
include h

/-! ### `fsinpi` and `fcospi` at integers and halves -/

theorem sinpi_cospi_integer {j : Nat} (hj : (x : ℚ) * 2 ^ e = j) :
    fpSinpi a = (Fmt.f32.sign n, 0#5) ∧ fpCospi a = (if j % 2 = 0 then 0x3F800000 else 0xBF800000, 0#5) := by
  have hden := den_pos e
  have hnum : scaleUp x e = j * scaleUp 1 (-e) := by simpa using num_eq_mul_den (j := 1) (by rw [Nat.cast_one, one_mul, hj])
  have hturn : j * scaleUp 1 (-e) % (2 * scaleUp 1 (-e)) = 0 ↔ j % 2 = 0 := by
    rw [Nat.mul_mod_mul_right, Nat.mul_eq_zero, or_iff_left hden.ne']
  simp only [fpSinpi, fpCospi, h, hnum, Nat.mul_mod_left, if_true, hturn]
  exact ⟨rfl, rfl⟩

theorem sinpi_cospi_half {j : Nat} (hj : (x : ℚ) * 2 ^ e = j + 1 / 2) :
    fpSinpi a = (if n != decide (j % 2 = 1) then 0xBF800000 else 0x3F800000, 0#5) ∧ fpCospi a = (0, 0#5) := by
  have hden := den_pos e
  have hnum : 2 * scaleUp x e = (2 * j + 1) * scaleUp 1 (-e) := num_eq_mul_den (by rw [hj]; push_cast; ring)
  have hwhole : scaleUp x e % scaleUp 1 (-e) ≠ 0 := by
    intro h0
    obtain ⟨q, hq⟩ := Nat.dvd_of_mod_eq_zero h0
    rw [hq, Nat.mul_comm (scaleUp 1 (-e)), ← Nat.mul_assoc] at hnum
    have := Nat.eq_of_mul_eq_mul_right hden hnum
    omega
  have hturn : scaleUp x e % (2 * scaleUp 1 (-e)) > scaleUp 1 (-e) ↔ j % 2 = 1 := by
    have hdouble := Nat.mul_mod_mul_left 2 (scaleUp x e) (2 * scaleUp 1 (-e))
    rw [hnum, ← Nat.mul_assoc, Nat.mul_mod_mul_right] at hdouble
    rw [gt_iff_lt, ← Nat.mul_lt_mul_left (a := 2) two_pos, ← hdouble, Nat.mul_lt_mul_right hden]
    omega
  simp only [fpSinpi, fpCospi, h, hnum, Nat.mul_mod_left, if_neg hwhole, if_true, hturn]
  exact ⟨rfl, rfl⟩

/-! ### `ftanh` and `fexp2` out of range, `fexp2` at integers -/

theorem fpTanh_large (hv : 19 / 2 ≤ (x : ℚ) * 2 ^ e) : fpTanh a = (Fmt.f32.sign n + 0x3F800000, 0#5) := by
  have hx : x ≠ 0 := by
    rintro rfl
    norm_num at hv
  have hge : 2 * scaleUp x e ≥ 19 * scaleUp 1 (-e) := (den_le_num x e 2 19).2 (by push_cast; linarith)
  simp only [fpTanh, h, if_neg hx, if_pos hge]
  cases n <;> rfl

theorem fpExp2_large (hn : n = false) (hv : 128 ≤ (x : ℚ) * 2 ^ e) : fpExp2 a = (0x7F800000, 0#5) := by
  have hx : x ≠ 0 := by
    rintro rfl
    norm_num at hv
  have hge : scaleUp x e ≥ 128 * scaleUp 1 (-e) := by simpa using (den_le_num x e 1 128).2 (by push_cast; linarith)
  simp only [fpExp2, h, if_neg hx, hge, hn]
  rfl

theorem fpExp2_small (hn : n = true) (hv : 150 < (x : ℚ) * 2 ^ e) : fpExp2 a = (0, 0#5) := by
  have hx : x ≠ 0 := by
    rintro rfl
    norm_num at hv
  have hgt : scaleUp x e > 150 * scaleUp 1 (-e) := by simpa using (den_lt_num x e 1 150).2 (by push_cast; linarith)
  simp only [fpExp2, h, if_neg hx, hgt, hn]
  rfl

/-- At an integer in range `fexp2` rounds the power, which is exact. -/
theorem fpExp2_integer (hx : x ≠ 0) {j : Nat} (hj : (x : ℚ) * 2 ^ e = j) (hrange : if n then j ≤ 149 else j ≤ 127) :
    ∃ num den : Nat, 0 < den ∧ (num : ℚ) / den = 2 ^ ((if n then -1 else 1) * (j : ℤ)) ∧
      fpExp2 a = ((roundFrac .f32 .rne false false num den).1, 0#5) := by
  have hden := den_pos e
  have hnum : scaleUp x e = j * scaleUp 1 (-e) := by simpa using num_eq_mul_den (j := 1) (by rw [Nat.cast_one, one_mul, hj])
  refine ⟨scaleUp 1 ((if n then -1 else 1) * (j : ℤ)), scaleUp 1 (-((if n then -1 else 1) * (j : ℤ))), den_pos _,
    by rw [num_div_den, Nat.cast_one, one_mul], ?_⟩
  cases n
  · have hlt : ¬ j * scaleUp 1 (-e) ≥ 128 * scaleUp 1 (-e) := by
      rw [ge_iff_le, Nat.mul_le_mul_right_iff hden]
      simp only [Bool.false_eq_true, if_false] at hrange
      omega
    simp only [fpExp2, h, if_neg hx, hnum, hlt, decide_false, Nat.mul_mod_left, Nat.mul_div_cancel _ hden, Bool.not_false, Bool.and_false, Bool.false_and,
      Bool.false_eq_true, if_false, if_true, one_mul]
    rfl
  · have hle : ¬ j * scaleUp 1 (-e) > 150 * scaleUp 1 (-e) := by
      rw [gt_iff_lt, Nat.mul_lt_mul_right hden]
      simp only [if_true] at hrange
      omega
    have hup : (j * scaleUp 1 (-e) + scaleUp 1 (-e) - 1) / scaleUp 1 (-e) = j := by
      rw [Nat.add_sub_assoc hden, Nat.mul_comm, Nat.mul_add_div hden, Nat.div_eq_of_lt (by omega), Nat.add_zero]
    simp only [fpExp2, h, if_neg hx, hnum, hle, hup, decide_false, Nat.sub_self, Bool.not_true, Bool.and_false, Bool.false_and,
      Bool.false_eq_true, if_false, if_true, neg_one_mul]
    rfl

end

theorem value_one : Fmt.f32.value 0x3F800000 = 1 := by
  have h := value_code (f := .f32) (e := 127) (n := 2 ^ 23) (by decide) (by decide) (.inr (by decide))
  rw [show (0x3F800000 : Nat) = (127 - 1) * 2 ^ Fmt.f32.mant + 2 ^ 23 by decide, h]
  norm_num [Fmt.bias, Fmt.mant]

theorem fpExp2_power {a x : Nat} {n : Bool} {e : Int} (h : Fmt.f32.decode a = .fin n x e) {i : ℤ} (hlo : -149 ≤ i) (hhi : i ≤ 127)
    (hi : (if n then -1 else 1) * ((x : ℚ) * 2 ^ e) = i) : ∃ c, c < 0x7F800000 ∧ Fmt.f32.mag c = 2 ^ i ∧ fpExp2 a = (c, 0#5) := by
  obtain ⟨j, hj, hij⟩ := integer_parts n (mul_nonneg (Nat.cast_nonneg x) (two_zpow_pos e).le) hi
  rcases eq_or_ne x 0 with rfl | hx
  · have hi0 : i = 0 := by
      rw [Nat.cast_zero, zero_mul, mul_zero] at hi
      exact_mod_cast hi.symm
    obtain ⟨-, -, -, hexp, -, -, -⟩ := special_zero .rne h
    exact ⟨0x3F800000, by decide, by rw [mag_eq_value (by decide), value_one, hi0, zpow_zero], hexp⟩
  · obtain ⟨num, den, hden, hratio, hexp⟩ := fpExp2_integer h hx hj (by cases n <;> simp_all)
    rw [← hij] at hratio
    obtain ⟨c, hc, hcv, hexact⟩ := roundFrac_exact (n := 1) (e := i) hden (by rw [hratio, Nat.cast_one, one_mul]) (by decide) hlo
      (by rw [Nat.cast_one, one_mul]; exact zpow_lt_zpow_right₀ one_lt_two (by omega))
    refine ⟨c, Nat.lt_succ_of_le hc, by rw [mag_eq_value hc, hcv, Nat.cast_one, one_mul], ?_⟩
    rw [hexp, hexact, Fmt.sign, if_neg Bool.false_ne_true, Nat.zero_add]

/-! ### `flog2` at powers of two -/

/-- A significand that is a power of two. -/
theorem power_parts {x : Nat} (hx : x ≠ 0) {e i : ℤ} (h : (x : ℚ) * 2 ^ e = 2 ^ i) : x = 2 ^ Nat.log2 x ∧ (Nat.log2 x : ℤ) + e = i := by
  have hpow : (x : ℚ) = 2 ^ (i - e) := by rw [zpow_sub₀ two_ne_zero, ← h, mul_div_cancel_right₀ _ (two_zpow_pos e).ne']
  have hnonneg : 0 ≤ i - e := by
    by_contra hneg
    have hlt : (x : ℚ) < 1 := hpow ▸ zpow_lt_one_of_neg₀ one_lt_two (by omega)
    exact hx (Nat.lt_one_iff.1 (by exact_mod_cast hlt))
  obtain ⟨b, hb⟩ := Int.eq_ofNat_of_zero_le hnonneg
  rw [hb] at hpow
  obtain rfl : x = 2 ^ b := by exact_mod_cast hpow
  rw [Nat.log2_two_pow]
  exact ⟨rfl, by omega⟩

theorem fpLog2_power {a x : Nat} {e : Int} (h : Fmt.f32.decode a = .fin false x e) (hx : x ≠ 0) {i : ℤ} (hi : (x : ℚ) * 2 ^ e = 2 ^ i) :
    (Fmt.f32.decode (fpLog2 a).1).rat = i ∧ (fpLog2 a).2 = 0#5 ∧ (i = 0 → (fpLog2 a).1 = 0) := by
  obtain ⟨hle, -, hval, hx24, he⟩ := f32_fin h
  obtain ⟨hx2, hlog⟩ := power_parts hx hi
  have hhigh : i < 128 := by
    have hlt := value_strictMono (f := .f32) (Nat.lt_succ_of_le hle)
    rw [Nat.succ_eq_add_one, value_infinity, hval, hi] at hlt
    exact (zpow_lt_zpow_iff_right₀ one_lt_two).1 hlt
  have habs : i.natAbs ≤ 2 ^ 24 := by omega
  obtain ⟨c, hc, hcv, hexact⟩ := roundFrac_integer habs
  have hround : fpLog2 a = (Fmt.f32.sign (decide (i < 0)) + c, 0#5) := by
    simp only [fpLog2, h, if_neg hx, ← hx2, hlog, if_true, Bool.false_eq_true, if_false, ofInt, roundVal]
    rw [show scaleUp i.natAbs 0 = i.natAbs by simp [scaleUp], show scaleUp 1 (-0) = 1 from rfl, hexact]
    rfl
  rw [hround]
  refine ⟨?_, rfl, fun h0 => ?_⟩
  · rw [rat_code _ hc, hcv, Nat.cast_natAbs, Int.cast_abs]
    rcases lt_or_ge i 0 with hneg | hpos
    · rw [if_pos (decide_eq_true hneg), abs_of_neg (by exact_mod_cast hneg), neg_one_mul, neg_neg]
    · rw [if_neg (by simpa using hpos), abs_of_nonneg (by exact_mod_cast hpos), one_mul]
  · subst h0
    have hc0 : c = 0 := value_strictMono.injective (hcv.trans value_zero.symm)
    rw [hc0]
    rfl

/-! ### `frcp` -/

/-- The model's test for a reciprocal past the largest number. -/
theorem fpRcp_test (x : Nat) (e : Int) : scaleUp x (e + 128) < scaleUp 1 (-(e + 128)) ↔ (x : ℚ) * 2 ^ e < 2 ^ (-128 : ℤ) := by
  have hcmp := scaleUp_lt x 1 (-(e + 128))
  rw [neg_neg] at hcmp
  rw [hcmp, Nat.cast_one, one_mul, neg_add, zpow_add₀ two_ne_zero, zpow_neg 2 e, mul_comm _ ((2 : ℚ) ^ (-128 : ℤ)), ← div_eq_mul_inv,
    lt_div_iff₀ (two_zpow_pos e)]

section
variable {a x : Nat} {n : Bool} {e : Int} (h : Fmt.f32.decode a = .fin n x e) (hx : x ≠ 0)
include h hx

theorem fpRcp_small (hv : (x : ℚ) * 2 ^ e < 2 ^ (-128 : ℤ)) : fpRcp a = (Fmt.f32.sign n + 0x7F800000, 0#5) := by
  have htest := (fpRcp_test x e).2 hv
  simp only [fpRcp, h, if_neg hx, if_pos htest]
  cases n <;> rfl

theorem fpRcp_rounded (hv : 2 ^ (-128 : ℤ) ≤ (x : ℚ) * 2 ^ e) :
    ∃ fl, Rounded .f32 .rne false n (1 / ((x : ℚ) * 2 ^ e)) ((fpRcp a).1, fl) ∧ (fpRcp a).2 = 0#5 := by
  have htest := (fpRcp_test x e).not.2 (not_lt.2 hv)
  have hround := roundFrac_rounded (f := .f32) (den_pos e) (scaleUp_pos e (Nat.pos_of_ne_zero hx)) .rne false n
  rw [← one_div_div, num_div_den] at hround
  simp only [fpRcp, h, if_neg hx, if_neg htest]
  exact ⟨_, hround, rfl⟩

end

end Sys2Proof.Machine
end

section
/-! SUPPORT. Square roots (R117): the fraction that the model rounds lies on the same side of each code, and of each midpoint of two codes,
as the root does. -/

namespace Sys2Proof.Machine

/-! ### Codes and midpoints on the grid -/

/-- A code of a number from 2^-75 on, and the next: two significands at the quantum of an octave. -/
theorem quantum_of_code {c : Nat} (he : 52 ≤ Fmt.f32.expo c) : ∃ s : Nat, ∃ k : ℤ, 2 ^ 23 ≤ s ∧ -98 ≤ k ∧
    Fmt.f32.value c = s * 2 ^ k ∧ Fmt.f32.value (c + 1) = (s + 1 : Nat) * 2 ^ k := by
  obtain ⟨-, -, -, hlow⟩ := code_parts (f := .f32) c
  refine ⟨Fmt.f32.signif c, (Fmt.f32.expo c : ℤ) - 127 - 23, hlow.resolve_left (by omega), by omega, rfl, ?_⟩
  rw [value_succ, Nat.cast_add_one]
  rfl

section
variable {S r : ℚ} {t c : Nat} (hside : OnRootSide S r t) (ht : 128 ≤ t) (he : 52 ≤ Fmt.f32.expo c)
include hside ht he

theorem OnRootSide.code : (Fmt.f32.value c < r ↔ Fmt.f32.value c ^ 2 < S) ∧ (r < Fmt.f32.value c ↔ S < Fmt.f32.value c ^ 2) ∧
    (r < Fmt.f32.value (c + 1) ↔ S < Fmt.f32.value (c + 1) ^ 2) := by
  obtain ⟨s, k, -, hk, hc, hc'⟩ := quantum_of_code he
  rw [hc, hc']
  exact ⟨(hside.dyadic ht s (by omega)).1, (hside.dyadic ht s (by omega)).2, (hside.dyadic ht (s + 1) (by omega)).2⟩

theorem OnRootSide.midpoint : (Fmt.f32.value c + Fmt.f32.value (c + 1) < 2 * r ↔ (Fmt.f32.value c + Fmt.f32.value (c + 1)) ^ 2 < 4 * S) ∧
    (2 * r < Fmt.f32.value c + Fmt.f32.value (c + 1) ↔ 4 * S < (Fmt.f32.value c + Fmt.f32.value (c + 1)) ^ 2) := by
  obtain ⟨s, k, -, hk, hc, hc'⟩ := quantum_of_code he
  obtain ⟨hlt, hgt⟩ := hside.dyadic ht (2 * s + 1) (k := k - 1) (by omega)
  have hmid : Fmt.f32.value c + Fmt.f32.value (c + 1) = 2 * ((2 * s + 1 : Nat) * 2 ^ (k - 1)) := by
    rw [hc, hc', zpow_sub_one₀ two_ne_zero]
    push_cast
    ring
  rw [hmid, mul_lt_mul_iff_right₀ two_pos, mul_lt_mul_iff_right₀ two_pos, mul_pow, show (2 : ℚ) ^ 2 = 4 by norm_num,
    mul_lt_mul_iff_right₀ (by norm_num), mul_lt_mul_iff_right₀ (by norm_num)]
  exact ⟨hlt, hgt⟩

end

/-! ### Rounding the fraction of a root -/

section
variable {num den t c : Nat} (hn : 0 < num) (hd : 0 < den) (ht : 128 ≤ t) (hc : c < Fmt.f32.largest) (he : 52 ≤ Fmt.f32.expo c) (m : Rm)
include hn hd ht hc he

/-- A root that a code holds is exact. -/
theorem roundFrac_root_exact (h : Fmt.f32.value c ^ 2 = num / den) :
    roundFrac .f32 m false false (rootFrac num den t).1 (rootFrac num den t).2 = (c, 0#5) := by
  obtain ⟨hp, hq, hside⟩ := rootFrac_spec hn hd t
  obtain ⟨hlo, hhi, -⟩ := hside.code ht he
  have heq : ((rootFrac num den t).1 : ℚ) / (rootFrac num den t).2 = Fmt.f32.mag c := by
    rw [mag_eq_value hc.le]
    exact le_antisymm (not_lt.1 (hlo.not.2 h.not_lt)) (not_lt.1 (hhi.not.2 h.not_gt))
  rw [(roundFrac_rounded hp hq m false false).exact c hc.le heq, Fmt.sign, if_neg Bool.false_ne_true, Nat.zero_add]

/-- A root between two codes goes to the one that the mode names; it never lies at their midpoint. -/
theorem roundFrac_root_between (hlo : Fmt.f32.value c ^ 2 < num / den) (hhi : (num : ℚ) / den < Fmt.f32.value (c + 1) ^ 2)
    (hmid : (Fmt.f32.value c + Fmt.f32.value (c + 1)) ^ 2 ≠ 4 * (num / den)) :
    roundFrac .f32 m false false (rootFrac num den t).1 (rootFrac num den t).2 =
      (if (m = .rne ∧ (Fmt.f32.value c + Fmt.f32.value (c + 1)) ^ 2 < 4 * (num / den)) ∨ m = .rup then c + 1 else c, flagNX) := by
  obtain ⟨hp, hq, hside⟩ := rootFrac_spec hn hd t
  obtain ⟨hlo', -, hhi'⟩ := hside.code ht he
  obtain ⟨hbelow, habove⟩ := hside.midpoint ht he
  have hround := (roundFrac_rounded (f := .f32) hp hq m false false).between c hc
  rw [mag_eq_value hc.le, mag_eq_value hc] at hround
  have hround := hround (hlo'.2 hlo) (hhi'.2 hhi)
  generalize ((rootFrac num den t).1 : ℚ) / (rootFrac num den t).2 = r at *
  have hnotmid : Fmt.f32.value c + Fmt.f32.value (c + 1) ≠ 2 * r := fun h =>
    hmid (le_antisymm (not_lt.1 (habove.not.1 h.not_gt)) (not_lt.1 (hbelow.not.1 h.not_lt)))
  have hup : roundsUp m false (c % 2 == 1) (Fmt.f32.value c) r (Fmt.f32.value (c + 1)) = true ↔
      (m = .rne ∧ (Fmt.f32.value c + Fmt.f32.value (c + 1)) ^ 2 < 4 * (num / den)) ∨ m = .rup := by
    cases m <;> simp [roundsUp, hnotmid, hbelow]
  have hnormal : Fmt.f32.mag (2 ^ Fmt.f32.mant) ≤ Fmt.f32.value c := by
    rw [mag_eq_value least_le_largest, value_strictMono.le_iff_le]
    unfold Fmt.expo at he
    exact ((Nat.le_div_iff_mul_le (Nat.two_pow_pos _)).1 (by omega : 1 ≤ c / 2 ^ Fmt.f32.mant)).trans' (by simp)
  have hnottiny : ¬(r ≤ Fmt.f32.mag (2 ^ Fmt.f32.mant) - 2 ^ (-(Fmt.f32.bias : ℤ) - Fmt.f32.mant) ∨ r < Fmt.f32.mag (2 ^ Fmt.f32.mant) ∧
      roundsUp m false true (Fmt.f32.mag (2 ^ Fmt.f32.mant) - 2 ^ (-(Fmt.f32.bias : ℤ) - Fmt.f32.mant)) r (Fmt.f32.mag (2 ^ Fmt.f32.mant)) = false) := by
    have hr := hnormal.trans_lt (hlo'.2 hlo)
    have hquantum := two_zpow_pos (-(Fmt.f32.bias : ℤ) - Fmt.f32.mant)
    rintro (h | ⟨h, -⟩) <;> linarith
  simp only [hup, if_neg hnottiny] at hround
  rw [hround, Fmt.sign, if_neg Bool.false_ne_true, Nat.zero_add]

end

/-! ### Where a root lies -/

/-- The code below a root of a number from the smallest one on is that of a number from 2^-75 on. -/
theorem expo_of_root {c : Nat} {S : ℚ} (hS : 2 ^ (-149 : ℤ) ≤ S) (h : S < Fmt.f32.value (c + 1) ^ 2) : 52 ≤ Fmt.f32.expo c := by
  obtain ⟨-, -, hlt, -⟩ := code_parts (f := .f32) c
  by_contra he
  have hsig : ((Fmt.f32.signif c : ℚ) + 1) ≤ 2 ^ (24 : ℤ) := by exact_mod_cast hlt
  have hquantum : (2 : ℚ) ^ ((Fmt.f32.expo c : ℤ) - 127 - 23) ≤ 2 ^ (-99 : ℤ) := zpow_le_zpow_right₀ one_le_two (by omega)
  have hval : Fmt.f32.value (c + 1) ≤ 2 ^ (-75 : ℤ) := by
    rw [value_succ, show (-75 : ℤ) = 24 + -99 by norm_num, zpow_add₀ two_ne_zero]
    exact mul_le_mul hsig hquantum (two_zpow_pos _).le (two_zpow_pos _).le
  have hsq : Fmt.f32.value (c + 1) ^ 2 ≤ (2 ^ (-75 : ℤ)) ^ 2 := pow_le_pow_left₀ (value_nonneg _) hval 2
  have : ((2 : ℚ) ^ (-75 : ℤ)) ^ 2 < 2 ^ (-149 : ℤ) := by norm_num
  linarith

/-- Twice a midpoint of two codes from 2^-75 on is an odd multiple of a power of two. -/
theorem sum_of_codes {c : Nat} (he : 52 ≤ Fmt.f32.expo c) :
    ∃ s : Nat, ∃ k : ℤ, 2 ^ 23 ≤ s ∧ (Fmt.f32.value c + Fmt.f32.value (c + 1)) ^ 2 = ((2 * s + 1) ^ 2 : Nat) * 2 ^ (2 * k) := by
  obtain ⟨s, k, hs, -, hc, hc'⟩ := quantum_of_code he
  refine ⟨s, k, hs, ?_⟩
  rw [hc, hc', two_mul k, zpow_add₀ two_ne_zero]
  push_cast
  ring

/-- The square of an odd number above 2^12 is no significand at a power of two. -/
theorem odd_sq_ne {s x : Nat} (hs : 2 ^ 23 ≤ s) (hx : x < 2 ^ 24) (k e : ℤ) : (((2 * s + 1) ^ 2 : Nat) : ℚ) * 2 ^ k ≠ x * 2 ^ e := by
  intro h
  have hodd : (2 * s + 1) ^ 2 % 2 = 1 := by rw [Nat.pow_mod, Nat.mul_add_mod]
  rcases le_or_gt e k with hek | hke
  · obtain ⟨j, hj⟩ := Int.eq_ofNat_of_zero_le (sub_nonneg.2 hek)
    have hx' : (x : ℚ) = ((2 * s + 1) ^ 2 * 2 ^ j : Nat) := by
      refine mul_right_cancel₀ (two_zpow_pos e).ne' (h.symm.trans ?_)
      rw [show k = j + e by omega, zpow_add₀ two_ne_zero, zpow_natCast]
      push_cast
      ring
    have hx' : x = (2 * s + 1) ^ 2 * 2 ^ j := by exact_mod_cast hx'
    have h1 := Nat.le_mul_of_pos_right ((2 * s + 1) ^ 2) (Nat.two_pow_pos j)
    have h2 : 2 * s + 1 ≤ (2 * s + 1) ^ 2 := Nat.le_self_pow two_ne_zero _
    omega
  · obtain ⟨j, hj⟩ : ∃ j : Nat, e - k = j + 1 := ⟨(e - k - 1).toNat, by omega⟩
    have hsq : (((2 * s + 1) ^ 2 : Nat) : ℚ) = (x * 2 ^ (j + 1) : Nat) := by
      refine mul_right_cancel₀ (two_zpow_pos k).ne' (h.trans ?_)
      rw [show e = (j + 1 : Nat) + k by omega, zpow_add₀ two_ne_zero, zpow_natCast]
      push_cast
      ring
    have hsq : (2 * s + 1) ^ 2 = x * 2 ^ (j + 1) := by exact_mod_cast hsq
    rw [hsq, Nat.pow_succ, ← Nat.mul_assoc, Nat.mul_mod_left] at hodd
    omega

/-- Nor does it divide a power of two. -/
theorem odd_sq_mul_ne {s : Nat} (hs : 2 ^ 23 ≤ s) (x : Nat) (i : ℤ) : (((2 * s + 1) ^ 2 * x : Nat) : ℚ) ≠ 2 ^ i := by
  intro h
  have hx : 0 < (2 * s + 1) ^ 2 * x := by
    rw [Nat.pos_iff_ne_zero]
    intro h0
    rw [h0, Nat.cast_zero] at h
    exact (two_zpow_pos i).ne h
  have hi : 0 ≤ i := by
    by_contra hneg
    have hlt : (((2 * s + 1) ^ 2 * x : Nat) : ℚ) < 1 := h ▸ zpow_lt_one_of_neg₀ one_lt_two (by omega)
    exact hx.ne' (Nat.lt_one_iff.1 (by exact_mod_cast hlt))
  obtain ⟨j, rfl⟩ := Int.eq_ofNat_of_zero_le hi
  have hpow : (2 * s + 1) ^ 2 * x = 2 ^ j := by exact_mod_cast h
  have hcoprime : Nat.Coprime ((2 * s + 1) ^ 2) (2 ^ j) := Nat.Coprime.pow 2 j (by simp)
  have hone := hcoprime.eq_one_of_dvd (Dvd.intro x hpow)
  have h2 : 2 * s + 1 ≤ (2 * s + 1) ^ 2 := Nat.le_self_pow two_ne_zero _
  omega

/-! ### `fsqrt` and `frsq` -/

section
variable {a x : Nat} {e : ℤ} (h : Fmt.f32.decode a = .fin false x e) (hx : x ≠ 0) {c : Nat} (hc : c < Fmt.f32.largest)
include h hx

theorem least_of_fin : 2 ^ (-149 : ℤ) ≤ (x : ℚ) * 2 ^ e := by
  obtain ⟨-, -, -, -, he⟩ := f32_fin h
  have hx1 : (1 : ℚ) ≤ x := by exact_mod_cast Nat.one_le_iff_ne_zero.2 hx
  calc (2 : ℚ) ^ (-149 : ℤ) ≤ 2 ^ e := zpow_le_zpow_right₀ one_le_two he
    _ ≤ x * 2 ^ e := le_mul_of_one_le_left (two_zpow_pos e).le hx1

theorem largest_of_fin : (2 : ℚ) ^ (-149 : ℤ) ≤ 1 / ((x : ℚ) * 2 ^ e) := by
  obtain ⟨hle, -, hval, -, -⟩ := f32_fin h
  have hlt := value_strictMono (f := .f32) (Nat.lt_succ_of_le hle)
  rw [Nat.succ_eq_add_one, value_infinity, hval] at hlt
  have hpos := (two_zpow_pos (-149)).trans_le (least_of_fin h hx)
  rw [le_div_iff₀ hpos]
  calc (2 : ℚ) ^ (-149 : ℤ) * (x * 2 ^ e) ≤ 2 ^ (-149 : ℤ) * 2 ^ (128 : ℤ) := mul_le_mul_of_nonneg_left hlt.le (two_zpow_pos _).le
    _ ≤ 1 := by norm_num

include hc

theorem fpSqrt_root (m : Rm) : (Fmt.f32.value c ^ 2 = x * 2 ^ e → fpSqrt m a = (c, 0#5)) ∧
    (Fmt.f32.value c ^ 2 < x * 2 ^ e → (x : ℚ) * 2 ^ e < Fmt.f32.value (c + 1) ^ 2 → fpSqrt m a =
      (if (m = .rne ∧ (Fmt.f32.value c + Fmt.f32.value (c + 1)) ^ 2 < 4 * (x * 2 ^ e)) ∨ m = .rup then c + 1 else c, flagNX)) := by
  obtain ⟨-, -, -, hx24, -⟩ := f32_fin h
  have hleast := least_of_fin h hx
  have hnum : 0 < scaleUp x e := scaleUp_pos e (Nat.pos_of_ne_zero hx)
  rw [fpSqrt_fin m h, if_neg hx, if_neg Bool.false_ne_true]
  refine ⟨fun heq => ?_, fun hlo hhi => ?_⟩
  · have hsucc : Fmt.f32.value c ^ 2 < Fmt.f32.value (c + 1) ^ 2 := pow_lt_pow_left₀ (value_strictMono (Nat.lt_succ_self c)) (value_nonneg c) two_ne_zero
    exact roundFrac_root_exact hnum (den_pos e) le_rfl hc (expo_of_root (hleast.trans heq.ge) hsucc) m (by rw [num_div_den, heq])
  · have he := expo_of_root hleast hhi
    obtain ⟨s, k, hs, hsum⟩ := sum_of_codes he
    have hmid : (Fmt.f32.value c + Fmt.f32.value (c + 1)) ^ 2 ≠ 4 * (x * 2 ^ e) := by
      rw [hsum, show (4 : ℚ) * (x * 2 ^ e) = x * 2 ^ (e + 2) by rw [zpow_add₀ two_ne_zero]; ring]
      exact odd_sq_ne hs hx24 _ _
    have hround := roundFrac_root_between hnum (den_pos e) le_rfl hc he m
    rw [num_div_den] at hround
    exact hround hlo hhi hmid

theorem fpRsq_root : (Fmt.f32.value c ^ 2 * (x * 2 ^ e) = 1 → fpRsq a = (c, 0#5)) ∧
    (Fmt.f32.value c ^ 2 * (x * 2 ^ e) < 1 → 1 < Fmt.f32.value (c + 1) ^ 2 * (x * 2 ^ e) → fpRsq a =
      (if (Fmt.f32.value c + Fmt.f32.value (c + 1)) ^ 2 * (x * 2 ^ e) < 4 then c + 1 else c, 0#5)) := by
  have hleast := largest_of_fin h hx
  have hpos := (two_zpow_pos (-149)).trans_le (least_of_fin h hx)
  have hden : 0 < scaleUp x e := scaleUp_pos e (Nat.pos_of_ne_zero hx)
  have hratio : ((scaleUp 1 (-e) : Nat) : ℚ) / scaleUp x e = 1 / (x * 2 ^ e) := by rw [← one_div_div, num_div_den]
  rw [fpRsq_fin h, if_neg hx, if_neg Bool.false_ne_true]
  refine ⟨fun heq => ?_, fun hlo hhi => ?_⟩
  · have heq : Fmt.f32.value c ^ 2 = 1 / (x * 2 ^ e) := (eq_div_iff hpos.ne').2 heq
    have hsucc : Fmt.f32.value c ^ 2 < Fmt.f32.value (c + 1) ^ 2 := pow_lt_pow_left₀ (value_strictMono (Nat.lt_succ_self c)) (value_nonneg c) two_ne_zero
    rw [roundFrac_root_exact (den_pos e) hden (by decide) hc (expo_of_root (hleast.trans heq.ge) hsucc) .rne (by rw [hratio, heq])]
    rfl
  · rw [← lt_div_iff₀ hpos] at hlo
    rw [← div_lt_iff₀ hpos] at hhi
    have he := expo_of_root hleast hhi
    obtain ⟨s, k, hs, hsum⟩ := sum_of_codes he
    have hmid : (Fmt.f32.value c + Fmt.f32.value (c + 1)) ^ 2 ≠ 4 * (1 / (x * 2 ^ e)) := by
      rw [hsum, ← mul_div_assoc, mul_one, ne_eq, eq_div_iff hpos.ne']
      intro h4
      refine odd_sq_mul_ne hs x (2 - 2 * k - e) ?_
      rw [zpow_sub₀ two_ne_zero, zpow_sub₀ two_ne_zero, eq_div_iff (two_zpow_pos e).ne', eq_div_iff (two_zpow_pos _).ne',
        show (2 : ℚ) ^ (2 : ℤ) = 4 by norm_num, ← h4, Nat.cast_mul]
      ring
    have hround := roundFrac_root_between (t := 192) (den_pos e) hden (by decide) hc he .rne
    rw [hratio] at hround
    have htest : (Fmt.f32.value c + Fmt.f32.value (c + 1)) ^ 2 * (x * 2 ^ e) < 4 ↔
        (Fmt.f32.value c + Fmt.f32.value (c + 1)) ^ 2 < 4 * (1 / (x * 2 ^ e)) := by
      rw [← mul_div_assoc, mul_one, lt_div_iff₀ hpos]
    rw [hround hlo hhi hmid]
    simp [htest]

end

end Sys2Proof.Machine
end

section
/-! SUPPORT. The special functions and their words (R115 to R120). -/

namespace Sys2Proof.Machine

/-- A function of one code in the mode of the hints, in both twins. -/
def FpOne (rnd : Bool) (t : (Nat → Nat → Instr) × (Nat → Nat → Instr) × (Rm → Nat → Nat × Flags)) : Prop :=
  ∀ d a, UniformEffect (Info.of 0 false false rnd) (t.1 d a) (fun _ => [a]) d (fun h r => asWord (t.2.2 h.mode (r a).toNat)) ∧
    LaneEffect (Info.of 1 false false rnd) (t.2.1 d a) (fun _ => [a]) d (fun h r => asWord (t.2.2 h.mode (r a).toNat))

theorem fpOne_of {rnd : Bool} {s v : Nat → Nat → Instr} {g : Rm → Nat → Nat × Flags}
    (hs : ∀ {d a : Nat} (t : State), exec (s d a) t = uniformAlu t (Info.of 0 false false rnd) (fp1 d a g))
    (hv : ∀ {d a : Nat} (t : State), exec (v d a) t = perLaneAlu t (Info.of 1 false false rnd) (fp1 d a g)) : FpOne rnd (s, v, g) :=
  fun _ _ => ⟨uniformEffect_of hs (fun _ => rfl) (fun _ => rfl) (fun _ _ => ⟨_, rfl, rfl⟩),
    perLaneEffect_of hv (fun _ => rfl) (fun _ => rfl) (fun _ _ => ⟨_, rfl, rfl⟩)⟩

/-- A function of one code where the mode plays no part. -/
def FpPlain (t : (Nat → Nat → Instr) × (Nat → Nat → Instr) × (Nat → Nat × Flags)) : Prop := FpOne false (t.1, t.2.1, fun _ => t.2.2)

theorem fpPlain_of {s v : Nat → Nat → Instr} {g : Nat → Nat × Flags}
    (hs : ∀ {d a : Nat} (t : State), exec (s d a) t = uniformAlu t (Info.of 0 false false false) (fp1 d a (fun _ => g)))
    (hv : ∀ {d a : Nat} (t : State), exec (v d a) t = perLaneAlu t (Info.of 1 false false false) (fp1 d a (fun _ => g))) : FpPlain (s, v, g) :=
  fpOne_of hs hv

/-- Settles O7: special operands by the branches, exact numbers by the uniqueness of their codes, roots by the side of each code they lie on. -/
theorem specialFunctions : Obligations.SpecialFunctions := by
  unfold Obligations.SpecialFunctions
  refine ⟨fun m a ha => ?values, ?words, fun d a => fpOne_of exec_sFsqrt exec_vFsqrt d a⟩
  case values =>
    intro f x fns invalid
    refine ⟨fun s h => special_nan m h, fun n h => ?infinite, fun hz => ?zero, fun hfin => ?finite, fpClass_fields ha⟩
    case infinite =>
      obtain ⟨hrcp, htanh, hrint, hsin, hcos⟩ := special_inf m h
      exact ⟨hrcp, htanh, hrint, hsin, hcos, fun hn => special_neg_inf m (hn ▸ h), fun hn => special_pos_inf m ha (hn ▸ h)⟩
    case zero =>
      obtain ⟨n, e, hd⟩ : ∃ n e, Fmt.f32.decode a = .fin n 0 e := by
        match hd : Fmt.f32.decode a, (show (Fmt.f32.decode a).isZero = true from hz) with
        | .fin n 0 e, _ => exact ⟨n, e, rfl⟩
      rw [show x.isNeg = n from congrArg FVal.isNeg hd]
      exact special_zero m hd
    case finite =>
      obtain ⟨n, k, e, hd⟩ := exists_fin (v := Fmt.f32.decode a) hfin
      have hv : (0 : ℚ) ≤ k * 2 ^ e := mul_nonneg (Nat.cast_nonneg k) (two_zpow_pos e).le
      have hrat : x.rat = (if n then -1 else 1) * (k * 2 ^ e) := (congrArg FVal.rat hd).trans (rat_fin n k e)
      have habs : |x.rat| = k * 2 ^ e := by rw [hrat, sign_mul_abs n hv]
      have hneg : x.isNeg = n := congrArg FVal.isNeg hd
      obtain ⟨hrint, hrintNeg, hrintFlags⟩ := fpRint_value ha hd m
      rw [habs, hneg]
      refine ⟨fpTanh_large hd, fun h => ?expLarge, fun h => ?expSmall, fun i hlo hhi hi => fpExp2_power hd hlo hhi (hrat ▸ hi), fun i hi => ?log,
        fun i hi => ?integer, fun i hi => ?half, hrint, hrintNeg, hrintFlags, fun hnz => ?nonzero⟩
      case expLarge =>
        rw [hrat] at h
        cases n
        · exact fpExp2_large hd rfl (by simpa using h)
        · rw [if_pos rfl] at h
          linarith
      case expSmall =>
        rw [hrat] at h
        cases n
        · rw [if_neg Bool.false_ne_true] at h
          linarith
        · rw [if_pos rfl] at h
          exact fpExp2_small hd rfl (by linarith)
      case log =>
        have hpos := two_zpow_pos i
        rw [hrat] at hi
        cases n
        · rw [if_neg Bool.false_ne_true, one_mul] at hi
          refine fpLog2_power hd ?_ hi
          rintro rfl
          rw [Nat.cast_zero, zero_mul] at hi
          exact hpos.ne hi
        · rw [if_pos rfl] at hi
          linarith
      case integer =>
        rw [hrat] at hi
        obtain ⟨j, hj, hij⟩ := integer_parts n hv hi
        obtain ⟨hsin, hcos⟩ := sinpi_cospi_integer hd hj
        refine ⟨hsin, fpRint_integer ha hd m hj, hcos.trans ?_⟩
        have heven : i % 2 = 0 ↔ j % 2 = 0 := by cases n <;> simp only [Bool.false_eq_true, if_false, if_true] at hij <;> omega
        simp only [heven]
      case half =>
        rw [hrat] at hi
        obtain ⟨j, hj, hij⟩ := half_parts n hv hi
        obtain ⟨hsin, hcos⟩ := sinpi_cospi_half hd hj
        refine ⟨hsin.trans ?_, hcos⟩
        have heven : i % 2 = 0 ↔ (n != decide (j % 2 = 1)) = false := by
          cases n <;> simp only [Bool.false_eq_true, if_false, if_true] at hij <;> simp <;> omega
        simp only [heven]
        cases n != decide (j % 2 = 1) <;> rfl
      case nonzero =>
        have hk : k ≠ 0 := by
          rintro rfl
          exact absurd ((congrArg FVal.isZero hd).symm.trans hnz) (by simp [FVal.isZero])
        obtain ⟨hexp, hsin, hcos, htanh⟩ := special_flags hd
        refine ⟨hexp, hsin, hcos, htanh, fpRcp_small hd hk, fpRcp_rounded hd hk, fun hn => special_negative m (hn ▸ hd) hk, fun hn => ?positive⟩
        subst hn
        refine ⟨fpLog2_flags hd hk, fun c hc => ?_⟩
        obtain ⟨hsqrt, hsqrt'⟩ := fpSqrt_root hd hk hc m
        obtain ⟨hrsq, hrsq'⟩ := fpRsq_root hd hk hc
        intro lo hi
        rw [if_neg Bool.false_ne_true, one_mul] at hrat
        rw [hrat, show lo = Fmt.f32.value c from mag_eq_value hc.le, show hi = Fmt.f32.value (c + 1) from mag_eq_value hc]
        exact ⟨hsqrt, hsqrt', hrsq, hrsq'⟩
  case words =>
    change ∀ t ∈ _, FpPlain t
    simp only [List.forall_mem_cons, List.not_mem_nil, false_imp_iff, implies_true, and_true]
    exact ⟨fpPlain_of exec_sFclass exec_vFclass, fpPlain_of exec_sFrcp exec_vFrcp, fpPlain_of exec_sFrsq exec_vFrsq,
      fpPlain_of exec_sFexp2 exec_vFexp2, fpPlain_of exec_sFlog2 exec_vFlog2, fpPlain_of exec_sFsinpi exec_vFsinpi,
      fpPlain_of exec_sFcospi exec_vFcospi, fpPlain_of exec_sFtanh exec_vFtanh, fpPlain_of exec_sFrintNe exec_vFrintNe,
      fpPlain_of exec_sFrintZ exec_vFrintZ, fpPlain_of exec_sFrintDn exec_vFrintDn, fpPlain_of exec_sFrintUp exec_vFrintUp⟩

end Sys2Proof.Machine
end

section
/-! SUPPORT. Words of class 11: where a run goes on (R133 to R135), what they write in the lanes of the run (R30), and words whose effect is
on the machine besides their warp. -/

namespace Sys2Proof.Machine

/-! ### Sets of lanes -/

theorem inMask_and_not (a b : Mask) {l : Nat} (h : l < 32) : inMask (a &&& ~~~b) l = (inMask a l && !inMask b l) := by
  simp [inMask, h]

theorem maskOf_eq_zero {m : Mask} {p : Nat → Bool} : maskOf (fun l => inMask m l && p l) = 0#32 ↔ (lanesOf m).any p = false := by
  rw [List.any_eq_false]
  constructor
  · intro h l hl
    have hmem := (mem_lanesOf m l).1 hl
    have hl0 := congrArg (fun k => inMask k l) h
    simpa [inMask_maskOf, inMask_zero, inMask_lt hmem, hmem] using hl0
  · intro h
    refine mask_ext (fun l hl => ?_)
    rw [inMask_maskOf, inMask_zero]
    cases hm : inMask m l with
    | false => simp
    | true => simpa [hl] using h l ((mem_lanesOf m l).2 hm)

theorem maskOf_eq_self {m : Mask} {p : Nat → Bool} : maskOf (fun l => inMask m l && p l) = m ↔ (lanesOf m).all p = true := by
  rw [List.all_eq_true]
  constructor
  · intro h l hl
    have hmem := (mem_lanesOf m l).1 hl
    rw [← h, inMask_maskOf] at hmem
    simp only [Bool.and_eq_true] at hmem
    exact hmem.2.2
  · intro h
    refine mask_ext (fun l hl => ?_)
    rw [inMask_maskOf]
    cases hm : inMask m l with
    | false => simp
    | true => simp [hl, h l ((mem_lanesOf m l).2 hm)]

/-- Where a lane of a set satisfies `p`, the lanes that do are named. -/
theorem lanesWhere_some {m : Mask} {p : Nat → Bool} (h : ∃ l, inMask m l = true ∧ p l = true) :
    ∃ l, lanesWhere m p = some (maskOf (fun l => inMask m l && p l), l) := by
  obtain ⟨l, hl, hp⟩ := h
  unfold lanesWhere
  cases hf : (lanesOf m).filter p with
  | nil => exact absurd hp (List.filter_eq_nil_iff.1 hf l ((mem_lanesOf m l).2 hl))
  | cons k ks => exact ⟨k, rfl⟩

/-! ### Where a run goes on -/

theorem mapLanes_congr (w : Warp) {m : Mask} {f g : Nat → Lane → Lane} (h : ∀ l, inMask m l = true → f l = g l) :
    w.mapLanes m f = w.mapLanes m g := by
  have hl : ∀ i : Fin 32, (if inMask m i then f i (w.lane i) else w.lane i) = if inMask m i then g i (w.lane i) else w.lane i := by
    intro i
    split
    · rename_i hi
      rw [h i hi]
    · rfl
  unfold Warp.mapLanes
  simp only [hl]

/-- Only the lanes of the run go on elsewhere. -/
theorem finish_congr (x : Cx) (s : State) (w : Warp) {p q : Nat → Pc} (yielded : Bool) (h : ∀ l, inMask x.run l = true → p l = q l) :
    x.finish s w p yielded = x.finish s w q yielded := by
  have hwarp : x.issuedWarp w p yielded = x.issuedWarp w q yielded := by
    unfold Cx.issuedWarp
    rw [mapLanes_congr w (fun l hl => by rw [h l hl])]
  unfold Cx.finish
  rw [advance_eq, advance_eq, hwarp]

/-- An even pair field breaks no rule on fields (R45). -/
theorem misaligned_even {a : Nat} (lo : Nat) (ha : a % 2 = 0) : misaligned a lo 1 = 0 := by
  rw [misaligned, pow_one, ha, Nat.zero_mul]

/-- A word whose effect on the machine leaves its warp in place and its context's step control alone. -/
theorem completes_in {s t : State} {i : Info} {x : Cx} {k : Instr} {w : Warp} {c : Ctx} (h : Begins s i x)
    (hwarp : t.warp? x.w.id = x.s.warp? x.w.id) (hc : t.ctx? x.w.ctx = some c) (hstep : c.stepping = x.c.stepping) (hid : w.id = x.w.id)
    (hctx : w.ctx = x.w.ctx) (he : exec k x.s = .next (x.done t w)) : x.Completes k t w := by
  obtain ⟨v, hv⟩ := begins_warp h
  exact ⟨he, fun hs => finish_issued _ _ (hwarp.trans hv) hid (hctx ▸ hc) (hstep.trans hs)⟩

/-! ### What is written -/

/-- An issue for a run of no lane, its active lanes those of the run: no lane remembers what it writes. -/
def Cx.unremembered (x : Cx) : Cx := { x with sel := { x.sel with run := 0#32 }, act := x.run }

/-- A word of class 11 writes as one of classes 00 and 01 does, but that no lane remembers the value replaced (R30). -/
theorem put_eq_write (x : Cx) (w : Warp) (m : Mask) (n : Nat) (f : RegForm) : w.put m n f = x.unremembered.write w m n f := by
  have hno : ∀ l, inMask x.unremembered.run l = false := inMask_zero
  unfold Warp.put Cx.write
  simp only [hno, Bool.false_eq_true, if_false]

theorem putUniform_eq_write (x : Cx) (w : Warp) (ns vs : List Nat) : x.putUniform w ns vs = x.unremembered.writeUniform w ns vs := by
  induction ns generalizing w vs with
  | nil => rfl
  | cons n ns ih =>
    cases vs with
    | nil => rfl
    | cons v vs =>
      rw [Cx.putUniform, Cx.writeUniform, put_eq_write x, ih]
      rfl

/-- A register written in uniform form to every lane that has not exited (R22). -/
theorem writes_putUniform {s : State} {i : Info} {x : Cx} {d : Nat} (h : Begins s i x) (hd : Ready x.w x.w.live [] [d]) (v : Nat) :
    Writes x.wd (x.putUniform x.wd [d] [v]) (oneReg x.w.live d (fun _ => BitVec.ofNat 32 v)) noFlags := by
  rw [putUniform_eq_write]
  exact writeUniform_one (x := x.unremembered) (by rw [(wd_kept h).1]; exact ready_last hd) (fun l hl => wd_exited h hl)

end Sys2Proof.Machine
end

section
/-! SUPPORT. Branches, calls, jumps and returns (R133 to R135). -/

namespace Sys2Proof.Machine

/-! ### Branches (R133) -/

/-- Whether a lane of a run takes a branch of a mode, by the entries that the lanes hold. -/
def takesBranch (bit : Nat → Bool) (run : Mask) (m l : Nat) : Bool :=
  match m with
  | 0 => true
  | 1 => bit l
  | 2 => !bit l
  | 3 => (lanesOf run).any bit
  | 4 => (lanesOf run).all bit
  | _ => !(lanesOf run).any bit

theorem inMask_takenLanes (w : Warp) (k m : Nat) {run : Mask} {l : Nat} (hl : inMask run l = true) :
    inMask (takenLanes w run k m) l = takesBranch (fun l => ((w.lane l).pred k).val) run m l := by
  have h32 := inMask_lt hl
  unfold takenLanes takesBranch
  match m with
  | 0 => exact hl
  | 1 => simp [inMask_maskOf, h32, hl]
  | 2 => simp [inMask_and_not, inMask_maskOf, h32, hl]
  | 3 =>
    simp only [bne_iff_ne, ne_eq, maskOf_eq_zero]
    cases (lanesOf run).any (fun l => ((w.lane l).pred k).val) <;> simp [hl, inMask_zero]
  | 4 =>
    simp only [maskOf_eq_self]
    cases (lanesOf run).all (fun l => ((w.lane l).pred k).val) <;> simp [hl, inMask_zero]
  | _ + 5 =>
    simp only [maskOf_eq_zero]
    cases (lanesOf run).any (fun l => ((w.lane l).pred k).val) <;> simp [hl, inMask_zero]

section
variable {s : State} {x : Cx}

theorem cBr_goes {k m o : Nat} (h : Begins s { Info.plain 3 with reserved := brReserved k m } x) (hp : PredsReady x.w x.run [k]) :
    x.Goes (.cBr k m o) x.wd
      (fun l => if takesBranch (fun l => ((x.w.lane l).pred k).val) x.run m l then x.target o else x.next) false := by
  refine goes_of h (wd_id h) (wd_ctx h) ((exec_cBr s).trans (issue_next h ?_))
  have hchk : checkPending x.w x.run (fun _ => []) (fun _ => [k]) = .ok () :=
    checkPending_ok (fun _ _ _ hn => absurd hn List.not_mem_nil) (fun l hl j hj => hp j hj l hl)
  rw [hchk]
  exact congrArg Except.ok (finish_congr _ _ _ _ (fun l hl => by rw [inMask_takenLanes x.w k m hl]))

/-! ### Link pairs (R134) -/

theorem ofNat_next (x : Cx) : BitVec.ofNat 64 x.next.toNat = x.next.setWidth 64 := BitVec.ofNat_toNat ..

/-- The link pair takes the address of the next word in each lane of the run, as a pair of values written in each active lane does. -/
theorem link_writes (x : Cx) {w : Warp} {d : Nat} (hd : d + 1 < w.regs.length) :
    Writes w (x.link w d) (onePair x.run d (fun _ => x.next.setWidth 64)) noFlags := by
  have hlink : x.link w d = x.unremembered.writeLanes w (fun _ => twoWords x.next.toNat) 0 [d, d + 1] := by
    have hhigh : x.next.toNat / 2 ^ 32 % 2 ^ 32 = x.next.toNat / 2 ^ 32 := Nat.mod_eq_of_lt (by have := x.next.isLt; omega)
    simp only [Cx.link, put_eq_write x, Cx.writeLanes, twoWords, hhigh]
    rfl
  rw [hlink, ← ofNat_next]
  exact writeLanes_pair hd

/-- A word that leaves a return address goes on as any other that writes registers. -/
theorem goes_link {k : Instr} {i : Info} {d : Nat} {pc : Nat → Pc} {srcs : List Nat} (h : Begins s i x)
    (hr : Ready x.w x.run srcs [d, d + 1]) (he : exec k s = .next (x.finish x.s (x.link x.wd d) pc false)) :
    ∃ w', x.Goes k w' pc false ∧ Writes x.wd w' (onePair x.run d (fun _ => x.next.setWidth 64)) noFlags := by
  have hw := link_writes x (w := x.wd) (d := d) (by rw [(wd_kept h).1]; exact (hr.2 (d + 1) (by simp)).1)
  exact ⟨_, goes_of h (by rw [writes_id hw, wd_id h]) (by rw [writes_ctx hw, wd_ctx h]) he, hw⟩

theorem cCall_goes {j o : Nat} (h : Begins s (Info.plain 3) x) (hr : Ready x.w x.run [] [2 * j, 2 * j + 1]) :
    ∃ w', x.Goes (.cCall j o) w' (fun _ => x.target o) false ∧
      Writes x.wd w' (onePair x.run (2 * j) (fun _ => x.next.setWidth 64)) noFlags := by
  refine goes_link h hr ((exec_cCall s).trans (issue_next h ?_))
  rw [checkRegs_ok hr]

/-! ### Jumps (R135) -/

theorem clear_low_bits (v : DWord) : v &&& ~~~3#64 = (v >>> 2) <<< 2 := by
  have hmask : ~~~3#64 = BitVec.allOnes 64 <<< 2 := by decide
  refine BitVec.eq_of_getLsbD_eq fun i hi => ?_
  rw [hmask]
  by_cases hlow : i < 2
  · simp only [BitVec.getLsbD_and, BitVec.getLsbD_shiftLeft, hlow, decide_true, Bool.not_true, Bool.and_false, Bool.false_and]
  · simp only [BitVec.getLsbD_and, BitVec.getLsbD_shiftLeft, BitVec.getLsbD_ushiftRight, BitVec.getLsbD_allOnes, hi, hlow, decide_true,
      decide_false, Bool.not_false, Bool.and_true, Bool.true_and, show i - 2 < 64 by omega, show 2 + (i - 2) = i by omega]

/-- The address that a pair names: its word, with the two low bits cleared. -/
theorem target_pair (w : Warp) (l a : Nat) : BitVec.ofNat 56 (w.pair l a / 4 * 4) = (w.dword l a &&& ~~~3#64).setWidth 56 := by
  rw [clear_low_bits, ← dword_toNat]
  generalize w.dword l a = v
  apply BitVec.eq_of_toNat_eq
  rw [BitVec.toNat_ofNat, BitVec.toNat_setWidth, BitVec.toNat_shiftLeft, BitVec.toNat_ushiftRight, Nat.shiftLeft_eq, Nat.shiftRight_eq_div_pow]
  omega

/-- The checks of a jump on its pairs and its targets pass. -/
theorem jumpTo_next {a : Nat} (link : Option Nat) (h : Begins s (Info.plain 3) x)
    (hr : Ready x.w x.run [a, a + 1] (match link with | some d => [d, d + 1] | none => []))
    (ht : ∀ l, inMask x.run l = true → (x.w.dword l a).toNat < 2 ^ 56) :
    jumpTo s (Info.plain 3) a link = .next (x.finish x.s (match link with | some d => x.link x.wd d | none => x.wd)
      (fun l => (x.w.dword l a &&& ~~~3#64).setWidth 56) false) := by
  have hnone : lanesWhere x.run (fun l => decide (x.w.pair l a ≥ 2 ^ 56)) = none :=
    lanesWhere_eq_none.2 (fun l hl => by simpa [← dword_toNat] using ht l hl)
  refine issue_next h ?_
  cases link <;> simp only [checkRegs_ok hr, hnone, target_pair]

theorem jump_goes {i : Nat → Instr} (hi : i ∈ [Instr.cJmp, Instr.cRet]) {a : Nat} (ha : a % 2 = 0) (h : Begins s (Info.plain 3) x)
    (hr : Ready x.w x.run [a, a + 1] []) (ht : ∀ l, inMask x.run l = true → (x.w.dword l a).toNat < 2 ^ 56) :
    x.Goes (i a) x.wd (fun l => (x.w.dword l a &&& ~~~3#64).setWidth 56) false := by
  have he : exec (i a) s = jumpTo s { Info.plain 3 with reserved := misaligned a 7 1 } a none := by
    simp only [List.mem_cons, List.not_mem_nil, or_false] at hi
    rcases hi with rfl | rfl
    · exact exec_cJmp s
    · exact exec_cRet s
  rw [misaligned_even 7 ha] at he
  exact goes_of h (wd_id h) (wd_ctx h) (he.trans (jumpTo_next none h hr ht))

theorem cCallx_goes {d a : Nat} (ha : a % 2 = 0) (hd : d % 2 = 0) (h : Begins s (Info.plain 3) x)
    (hr : Ready x.w x.run [a, a + 1] [d, d + 1]) (ht : ∀ l, inMask x.run l = true → (x.w.dword l a).toNat < 2 ^ 56) :
    ∃ w', x.Goes (.cCallx d a) w' (fun l => (x.w.dword l a &&& ~~~3#64).setWidth 56) false ∧
      Writes x.wd w' (onePair x.run d (fun _ => x.next.setWidth 64)) noFlags := by
  have he := exec_cCallx (d := d) (a := a) s
  rw [execCCallx, misaligned_even 7 ha, misaligned_even 14 hd] at he
  exact goes_link h hr (he.trans (jumpTo_next (some d) h hr ht))

end

/-- Settles O25: each lane of the run takes the branch or not by its mode, and a call leaves the address of the next word. -/
theorem transfers : Obligations.Transfers := by
  unfold Obligations.Transfers
  exact ⟨fun k m o s x _ _ h hp => cBr_goes h hp, fun j o s x h hr => cCall_goes h hr,
    fun i hi a s x ha h hr ht => jump_goes hi ha h hr ht, fun d a s x ha hd h hr ht => cCallx_goes ha hd h hr ht⟩

end Sys2Proof.Machine
end

section
/-! SUPPORT. The tag instructions (R139, R363): the tag map of a context with tags cleared on a core, and what each word does with it. -/

namespace Sys2Proof.Machine

/-! ### Tag maps -/

/-- Tags that become clear on a core are those that are set there no more. -/
theorem tagMap_updTags (c : Ctx) (core : Nat) (m : DWord) :
    tagMap (updTags c core (fun t => t ||| m)) core = tagMap c core &&& ~~~m := by
  unfold tagMap updTags
  simp [BitVec.not_or]

theorem tagMap_updTags_other (c : Ctx) {core k : Nat} (h : k ≠ core) (f : DWord → DWord) : tagMap (updTags c core f) k = tagMap c k := by
  have hfind : (c.tagsClear.filter (fun t => t.1 != core)).find? (fun t => t.1 == k) = c.tagsClear.find? (fun t => t.1 == k) := by
    rw [List.find?_filter]
    refine congrArg (fun p => c.tagsClear.find? p) (funext fun t => ?_)
    by_cases ht : t.1 = k
    · simp [ht, h]
    · simp [ht]
  unfold tagMap updTags
  rw [List.find?_cons, show (core == k) = false by simpa using h.symm, hfind]

theorem ofNat_pair (w : Warp) (l n : Nat) : BitVec.ofNat 64 (w.pair l n) = w.dword l n := by
  rw [← dword_toNat, ofNat_toNat64]

/-! ### The words -/

section
variable {s : State} {x : Cx} {a : Nat} (h : Begins s (Info.plain 3) x) (ha : a % 2 = 0) (hr : Ready x.w (oneLane x.lead) [a, a + 1] [])
include h ha hr

/-- A tag wait goes on at once where its condition is met, else its run waits. -/
theorem tagWait_eq (all : Bool) : tagWait s a all = .next (
    if tagsMet all (x.w.dword x.lead a) (tagsOf x.s x.c x.w) then x.done x.s x.wd
    else x.wait x.s x.wd (.tags all (x.w.dword x.lead a))) := by
  unfold tagWait
  rw [misaligned_even 7 ha]
  refine issue_next h ?_
  rw [checkRegs_ok hr]
  simp only [ofNat_pair]
  exact (apply_ite Except.ok ..).symm

/-- Both tag waits, each under its own condition. -/
theorem tagWait_cases {k : Instr} {all : Bool} (he : ∀ t, exec k t = tagWait t a all) {p : Prop} [Decidable p]
    (hp : tagsMet all (x.w.dword x.lead a) (tagsOf x.s x.c x.w) = true ↔ p) :
    if p then x.Completes k x.s x.wd else exec k x.s = .next (x.wait x.s x.wd (.tags all (x.w.dword x.lead a))) := by
  have heq := (he s).trans (tagWait_eq h ha hr all)
  split
  · rename_i hmet
    exact completes_of h (wd_id h) (wd_ctx h) (heq.trans (congrArg _ (if_pos (hp.2 hmet))))
  · rename_i hmet
    rw [begins_s h] at heq ⊢
    exact heq.trans (congrArg _ (if_neg (fun hc => hmet (hp.1 (begins_s h ▸ hc)))))

theorem cTclr_completes : ∃ f : Ctx → Ctx, x.Completes (.cTclr a) (x.s.updCtx x.w.ctx f) x.wd ∧
    tagMap (f x.c) ((homeCore x.s x.w).getD 0) = tagsOf x.s x.c x.w &&& ~~~(x.w.dword x.lead a) ∧
    (∀ k, k ≠ (homeCore x.s x.w).getD 0 → tagMap (f x.c) k = tagMap x.c k) ∧ { f x.c with tagsClear := x.c.tagsClear } = x.c := by
  refine ⟨fun c => updTags c ((homeCore x.s x.w).getD 0) (fun t => t ||| x.w.dword x.lead a), ?_, tagMap_updTags .., fun k hk =>
    tagMap_updTags_other _ hk _, rfl⟩
  refine completes_in h rfl (ctx?_updCtx (begins_ctx h) (ctx?_number (c := x.c) (begins_ctx h))) rfl (wd_id h) (wd_ctx h) ?_
  rw [exec_cTclr, execCTclr, misaligned_even 7 ha, begins_s h]
  refine issue_next h ?_
  rw [checkRegs_ok hr]
  simp only [ofNat_pair, begins_s h]

theorem cTffs_completes {d : Nat} (hd : Ready x.w x.w.live [] [d]) : ∃ w', x.Completes (.cTffs d a) x.s w' ∧
    Writes x.wd w' (oneReg x.w.live d (fun _ => BitVec.ofNat 32 (lowestBit (tagsOf x.s x.c x.w &&& x.w.dword x.lead a)))) noFlags := by
  have he := exec_cTffs (d := d) (a := a) s
  rw [execCTffs, misaligned_even 7 ha] at he
  refine completes_writes h he ?_ (writes_putUniform h hd _)
  rw [checkUniform_ok (lead_lt x) hr hd]
  simp only [ofNat_pair]

end

/-- Settles O27: the words read `lead`'s mask and the tag map of the context on the warp's core. -/
theorem tagInstructions : Obligations.TagInstructions := by
  unfold Obligations.TagInstructions
  intro d a s x ha h
  refine ⟨fun hr => ⟨tagWait_cases h ha hr exec_cTwaitAny ?any, tagWait_cases h ha hr exec_cTwaitAll ?all, cTclr_completes h ha hr⟩,
    fun hr hd => cTffs_completes h ha hr hd⟩
  case any => simp [tagsMet, tagsOf]
  case all => simp [tagsMet, tagsOf]

end Sys2Proof.Machine
end

section
/-! SUPPORT. The barrier instructions (R140, R141): a lane's arrival and the phase a run waits for, and how each word ends. -/

namespace Sys2Proof.Machine

/-! ### Barriers and arrivals -/

@[simp] theorem State.needBar_warp? (s : State) (sc id owner group i : Nat) :
    (s.needBar sc id owner group).2.warp? i = s.warp? i := by
  unfold State.needBar
  split <;> rfl

@[simp] theorem State.needBar_ctx? (s : State) (sc id owner group i : Nat) :
    (s.needBar sc id owner group).2.ctx? i = s.ctx? i := by
  unfold State.needBar
  split <;> rfl

/-- A lane that arrives has the arrival of that phase. -/
theorem arrivalAt_arriveLanes (w : Warp) (run : Mask) (sc id phase : Nat) {l : Nat} (hl : inMask run l = true) :
    (((arriveLanes w run sc id phase).lane l).arrivalAt sc id).map Arrival.phase = some phase := by
  unfold arriveLanes Lane.arrivalAt
  rw [lane_mapLanes _ _ _ (inMask_lt hl), if_pos hl]
  simp

theorem foldl_max_const {f : Nat → Nat} {n : Nat} (ls : List Nat) (h : ∀ l ∈ ls, f l = n) (k : Nat) (hk : k ≤ n) :
    ls.foldl (fun m l => max m (f l)) k = if ls = [] then k else n := by
  induction ls generalizing k with
  | nil => rfl
  | cons l ls ih =>
    rw [List.foldl_cons, h l (by simp), Nat.max_eq_right hk, ih (fun j hj => h j (by simp [hj])) n le_rfl]
    simp

/-- The lanes of a run that have just arrived wait for the phase they arrived in. -/
theorem waitPhase_arriveLanes (w : Warp) {run : Mask} (sc id phase : Nat) (hrun : run ≠ 0#32) :
    waitPhase (arriveLanes w run sc id phase) run sc id = phase := by
  have hall : ∀ l ∈ lanesOf run, ((((arriveLanes w run sc id phase).lane l).arrivalAt sc id).map Arrival.phase).getD 0 = phase :=
    fun l hl => by rw [arrivalAt_arriveLanes w run sc id phase ((mem_lanesOf run l).1 hl)]; rfl
  rw [waitPhase, foldl_max_const _ hall 0 (Nat.zero_le _), if_neg (fun h => hrun ((lanesOf_eq_nil run).1 h))]

/-! ### How a barrier instruction ends -/

section
variable {s : State} {x : Cx} {sc id : Nat} {arr wt : Bool} (hsc : sc < 6) (h : Begins s (Info.plain 3) x)
include hsc h

/-- A scope with no owner traps (R140). -/
theorem barrierOp_noOwner (ho : barOwner x.s x.w x.l sc = none) :
    barrierOp x.s sc id arr wt = .next (trapNow x.s x.sel x.run 0x09 0 [sc, id]) := by
  unfold barrierOp
  rw [if_neg (Nat.not_le.2 hsc), begins_s h]
  refine (issue_of (i := Info.plain 3) h).trans ?_
  simp only [ho]
  exact applyStop_trap h ..

variable {o g : Nat} (ho : barOwner x.s x.w x.l sc = some (o, g))
include ho

/-- Lanes whose arrival is not as the word needs it trap, and are the ones named (R141). -/
theorem barrierOp_mismatch (hm : ∃ l, inMask x.run l = true ∧ (((x.w.lane l).arrivalAt sc id).isSome == arr) = true) :
    barrierOp x.s sc id arr wt = .next (trapNow x.s x.sel
      (maskOf (fun l => inMask x.run l && (((x.w.lane l).arrivalAt sc id).isSome == arr))) 0x0A 0 [id, if arr then 0 else 1]) := by
  obtain ⟨l, hl⟩ := lanesWhere_some hm
  unfold barrierOp
  rw [if_neg (Nat.not_le.2 hsc), begins_s h]
  refine (issue_of (i := Info.plain 3) h).trans ?_
  simp only [ho, hl]
  exact applyStop_trap h ..

section
variable (hm : ∀ l, inMask x.run l = true → (((x.w.lane l).arrivalAt sc id).isSome == arr) = false) {w : Warp}
  (hw : w = if arr then arriveLanes x.wd x.run sc id (x.s.needBar sc id o g).1.phase else x.wd)
include hm hw

/-- Where every lane's arrival is as the word needs it, a word that does not wait goes on, its lanes arrived where it arrives. -/
theorem barrierOp_goesOn : barrierOp x.s sc id arr false = .next (x.done (x.s.needBar sc id o g).2 w) := by
  subst hw
  refine (congrArg (barrierOp · sc id arr false) (begins_s h)).trans ?_
  unfold barrierOp
  rw [if_neg (Nat.not_le.2 hsc)]
  refine issue_next h ?_
  simp only [ho, lanesWhere_eq_none.2 hm]
  rfl

/-- One that waits goes on where the phase that its lanes wait for is over. -/
theorem barrierOp_waits : barrierOp x.s sc id arr true = .next (
    if waitPhase w x.run sc id < (x.s.needBar sc id o g).1.phase then
      x.done (x.s.needBar sc id o g).2 (w.mapLanes x.run (fun _ y => y.dropArrival sc id))
    else x.wait (x.s.needBar sc id o g).2 w (.barrier sc id (waitPhase w x.run sc id) arr)) := by
  subst hw
  refine (congrArg (barrierOp · sc id arr true) (begins_s h)).trans ?_
  unfold barrierOp
  rw [if_neg (Nat.not_le.2 hsc)]
  refine issue_next h ?_
  simp only [ho, lanesWhere_eq_none.2 hm, if_true, apply_ite Except.ok]

end

end

/-- A barrier instruction that completes leaves the state that holds its barrier. -/
theorem completes_needBar {s : State} {i : Info} {x : Cx} {k : Instr} {w : Warp} (h : Begins s i x) (sc id o g : Nat)
    (hid : w.id = x.wd.id) (hctx : w.ctx = x.wd.ctx) (he : exec k x.s = .next (x.done (x.s.needBar sc id o g).2 w)) :
    x.Completes k (x.s.needBar sc id o g).2 w :=
  completes_in h (State.needBar_warp? ..) ((State.needBar_ctx? ..).trans (begins_ctx h)) rfl (hid.trans (wd_id h)) (hctx.trans (wd_ctx h)) he

/-- Each barrier instruction arrives, waits, or does both. -/
theorem exec_barrier {i : Nat → Nat → Instr} (hi : i ∈ [Instr.cBarArrive, Instr.cBarWait, Instr.cBarSync]) (sc id : Nat) :
    ∃ arr wt, ∀ s, exec (i sc id) s = barrierOp s sc id arr wt := by
  simp only [List.mem_cons, List.not_mem_nil, or_false] at hi
  rcases hi with rfl | rfl | rfl
  · exact ⟨true, false, exec_cBarArrive⟩
  · exact ⟨false, true, exec_cBarWait⟩
  · exact ⟨true, true, exec_cBarSync⟩

theorem exec_arrives {i : Nat → Nat → Instr} (hi : i ∈ [Instr.cBarArrive, Instr.cBarSync]) (sc id : Nat) :
    ∃ wt, ∀ s, exec (i sc id) s = barrierOp s sc id true wt := by
  simp only [List.mem_cons, List.not_mem_nil, or_false] at hi
  rcases hi with rfl | rfl
  · exact ⟨false, exec_cBarArrive⟩
  · exact ⟨true, exec_cBarSync⟩

/-- Settles O28: the owner of the scope, the arrivals of the lanes and the phase of the barrier say how each word ends. -/
theorem barrierInstructions : Obligations.BarrierInstructions := by
  unfold Obligations.BarrierInstructions
  intro sc id s x hsc h
  refine ⟨fun hnone i hi => ?noOwner, fun o g ho => ⟨fun hm => ⟨?arrive, fun hrun => ?sync⟩, fun hm => ?wait, fun hm i hi => ?standing,
    fun hm => ?missing⟩⟩
  case noOwner =>
    obtain ⟨arr, wt, he⟩ := exec_barrier hi sc id
    rw [he, barrierOp_noOwner hsc h hnone]
  case arrive =>
    have hnext := barrierOp_goesOn (arr := true) hsc h ho (fun l hl => by rw [hm l hl]; rfl) rfl
    exact completes_needBar h sc id o g (mapLanes_id ..) (mapLanes_ctx ..) ((exec_cBarArrive _).trans hnext)
  case sync =>
    have hnext := barrierOp_waits (arr := true) hsc h ho (fun l hl => by rw [hm l hl]; rfl) rfl
    rw [if_pos rfl, waitPhase_arriveLanes _ _ _ _ hrun, if_neg (lt_irrefl _)] at hnext
    exact (exec_cBarSync _).trans hnext
  case wait =>
    have hnext := (exec_cBarWait x.s).trans (barrierOp_waits (arr := false) hsc h ho (fun l hl => by rw [hm l hl]; rfl) rfl)
    intro ph
    split
    · rename_i hover
      exact completes_needBar h sc id o g (mapLanes_id ..) (mapLanes_ctx ..) (hnext.trans (congrArg _ (if_pos hover)))
    · rename_i hopen
      exact hnext.trans (congrArg _ (if_neg hopen))
  case standing =>
    obtain ⟨wt, he⟩ := exec_arrives hi sc id
    rw [he, barrierOp_mismatch hsc h ho (hm.imp fun l hl => ⟨hl.1, by rw [hl.2]; rfl⟩)]
    simp only [beq_true, if_true]
  case missing =>
    rw [exec_cBarWait, execCBarWait, barrierOp_mismatch hsc h ho (hm.imp fun l hl => ⟨hl.1, by rw [hl.2]; rfl⟩)]
    simp only [beq_false, Option.not_isSome, Bool.false_eq_true, if_false]

end Sys2Proof.Machine
end

section
/-! SUPPORT. Queues and packets (R152 to R156, R230 to R234): when a packet may start, how one is taken, what a job's end leaves. -/

namespace Sys2Proof.Machine

/-! ### Which packets may start (R231, R234, R248) -/

theorem queueOf_number {s : State} {ctx n : Nat} {q : Queue} (h : queueOf s ctx n = some q) : q.number = n := by
  obtain ⟨c, -, hq⟩ := Option.bind_eq_some_iff.1 h
  simpa using List.find?_some hq

/-- A node waits for no lower one where each that became ready with it has started or is a WAIT_VALUE. -/
theorem nodeBehind_eq_false {s : State} {j : Job}
    (h : ∀ slot n, j.source = .node slot n → ∀ g r, slotOf s j.ctx slot = some g → g.running = some r →
      ∀ k ∈ s.jobs, k.ctx = j.ctx → ∀ m, k.source = .node slot m → m < n → readyAt r m = readyAt r n →
        k.state ≠ .held ∨ k.bytes.getD 0 0 = 6) : nodeBehind s j = false := by
  unfold nodeBehind
  split
  case h_2 => rfl
  case h_1 slot n hsource =>
    split
    case h_1 => rfl
    case h_2 r hrun =>
      obtain ⟨g, hg, hr⟩ := Option.bind_eq_some_iff.1 hrun
      rw [lowerHeld, List.any_eq_false]
      intro k hk hheld
      simp only [Bool.and_eq_true, beq_iff_eq, bne_iff_ne] at hheld
      obtain ⟨⟨⟨hctx, hstate⟩, htype⟩, hlower⟩ := hheld
      split at hlower
      case h_2 => cases hlower
      case h_1 slot' m hk' =>
        simp only [Bool.and_eq_true, beq_iff_eq, decide_eq_true_eq] at hlower
        obtain ⟨⟨rfl, hlt⟩, hready⟩ := hlower
        exact (h slot' n hsource g r hg hr k hk hctx m hk' hlt hready).elim (· hstate) htype

/-- The statements' condition for a start is what the model judges. -/
theorem startable_of {s : State} {job type : Nat} {j : Job} (h : Startable s job type j) : startable s job type = some j := by
  obtain ⟨hjob, htype, hruns, hheld, hearlier, hnode⟩ := h
  unfold startable
  rw [hjob]
  refine if_pos ⟨htype, hruns, .inl ⟨hheld, ?_, nodeBehind_eq_false hnode⟩⟩
  rw [Bool.and_eq_false_imp]
  intro hbar
  have hasks : packetBar j.bytes = true ∨ type = 8 := by simpa using hbar
  split
  case h_2 => rfl
  case h_1 q i hsource =>
    rw [List.any_eq_false]
    intro k hk hbefore
    simp only [Bool.and_eq_true, beq_iff_eq] at hbefore
    obtain ⟨⟨hctx, hkey⟩, hless⟩ := hbefore
    split at hless
    case h_2 => cases hless
    case h_1 r n hk' =>
      exact absurd (of_decide_eq_true hless) (Nat.not_lt.2 (hearlier hasks q i hsource k hk hctx hkey r n hk'))

theorem contextJob_of {s : State} {job op : Nat} {j : Job} (h : Startable s job 8 j) (hop : fieldAt j.bytes 8 2 = op) :
    contextJob s job op = some j := by
  unfold contextJob
  rw [startable_of h]
  exact if_pos hop

/-- The job of a queue's packet leaves nothing but its place among the jobs. -/
theorem finishJob_packet {s : State} {j : Job} {q i : Nat} (h : j.source = .packet q i) :
    finishJob s j = { s with jobs := s.jobs.filter (fun k => k.id != j.id) } := by
  unfold finishJob
  rw [h]

/-! ### Kicks (R155) -/

theorem execKickWrite_live {s : State} {ctx : Nat} {c : Ctx} (hc : s.ctx? ctx = some c) (hl : c.live = true) (q v : Nat) :
    execKickWrite ctx q v s = .next (kickQueue s ctx q (v % 2 ^ 64)) := by
  unfold execKickWrite
  rw [hc, Option.map_some, hl]
  rfl

/-! ### The taking of a packet (R152, R155, R156) -/

/-- The state in which the packet of bytes `b` at the read index of queue `q` is taken: a held job, the read index one higher. -/
def tookPacket (s : State) (ctx : Nat) (q : Queue) (b : List Nat) : State :=
  updQueue { s with
    jobs := s.jobs ++ [{ id := s.nextId, ctx := ctx, source := .packet q.number q.read, bytes := b, state := .held,
                         snapshot := s.mod.snapshot, order := s.nextId, key := q.key, slot := slotAddr q q.read, place := q.read % q.size }]
    nextId := s.nextId + 1 } ctx q.number (fun q => { q with read := q.read + 1, taking := none })

theorem finishTake_stored {s v : State} {ctx : Nat} {q : Queue} {b : List Nat}
    (hw : devWrite s ctx q.rAddr (natLe 8 (q.read + 1)) = .ok v) (hok : packetOk b = true) :
    finishTake s ctx q b = tookPacket v ctx q b := by
  unfold finishTake
  rw [hw]
  exact if_pos hok

theorem finishTake_waits {s : State} {ctx a page : Nat} {q : Queue} {b : List Nat}
    (hw : devWrite s ctx q.rAddr (natLe 8 (q.read + 1)) = .error (.wait a page)) :
    finishTake s ctx q b = requestPage s ctx page := by
  unfold finishTake
  rw [hw]
  rfl

section
variable {s : State} {ctx n : Nat} {q : Queue} (hq : queueOf s ctx n = some q) (hruns : ctxRuns s ctx = true)
  (hfree : ∀ j ∈ s.jobs, j.ctx = ctx → j.key = q.key → j.state = .held → ∀ m i, j.source ≠ .packet m i)

include hfree in
theorem takenHeld_eq_false : takenHeld s q ctx = false := by
  rw [takenHeld, List.any_eq_false]
  intro j hj hheld
  simp only [Bool.and_eq_true, beq_iff_eq] at hheld
  obtain ⟨⟨⟨hctx, hkey⟩, hstate⟩, hsource⟩ := hheld
  split at hsource
  case h_2 => cases hsource
  case h_1 m i hm => exact hfree j hj hctx hkey hstate m i hm

include hq hruns hfree

/-- A packet whose slot has been cleared goes on with the store of the read index. -/
theorem execPacketTake_taking {b : List Nat} (ht : q.taking = some b) : execPacketTake ctx n s = .next (finishTake s ctx q b) := by
  simp only [execPacketTake, hq, hruns, takenHeld_eq_false hfree, ht]
  rfl

section
variable (ht : q.taking = none) (hst : q.stalled = false) (hlt : q.read < q.tail) {b : List Nat} {t : State}
  (hr : devRead s ctx (slotAddr q q.read) 64 = .ok (b, t))
include ht hst hlt hr

theorem execPacketTake_empty (hb : b.getD 0 0 = 0) :
    execPacketTake ctx n s = .next (updQueue t ctx n (fun q => { q with stalled := true })) := by
  simp only [execPacketTake, hq, hruns, takenHeld_eq_false hfree, ht, hst, Nat.not_le.2 hlt, hr, hb]
  rfl

theorem execPacketTake_cleared (hb : b.getD 0 0 ≠ 0) {u : State} (hw : devWrite t ctx (slotAddr q q.read) (List.replicate 64 0) = .ok u) :
    execPacketTake ctx n s = .next (finishTake (updQueue u ctx n (fun q => { q with taking := some b })) ctx q b) := by
  simp only [execPacketTake, hq, hruns, takenHeld_eq_false hfree, ht, hst, Nat.not_le.2 hlt, hr, hb, hw]
  rfl

end

end

theorem execPacketHeaderWake_written {s : State} {ctx n : Nat} {q : Queue} {c : Ctx} (hq : queueOf s ctx n = some q)
    (hc : s.ctx? ctx = some c) (hst : q.stalled = true) (hword : wordNow s c none (slotAddr q q.read) 4 % 256 ≠ 0) :
    execPacketHeaderWake ctx n s = .next (updQueue s ctx n (fun q => { q with stalled := false })) := by
  unfold execPacketHeaderWake
  rw [hq, hc]
  exact congrArg _ (if_pos (by simp [hst, hword]))

/-! ### The packets that are over when they start (R231, R234) -/

theorem execSignal_stored {s u : State} {job : Nat} {j : Job} (h : Startable s job 5 j)
    (hw : devWrite s j.ctx (fieldAt j.bytes 8 8) (natLe 8 (fieldAt j.bytes 16 8)) = .ok u) : execSignal job s = .next (finishJob u j) := by
  simp only [execSignal, startable_of h, hw]

/-- COND is one of four relations between the masked word and the value (R230). -/
theorem waitMet_iff (b : List Nat) (v : Nat) : waitMet b v = true ↔
    match b.getD 32 0 with
    | 0 => v &&& fieldAt b 24 8 = fieldAt b 16 8
    | 1 => v &&& fieldAt b 24 8 ≠ fieldAt b 16 8
    | 2 => v &&& fieldAt b 24 8 ≥ fieldAt b 16 8
    | _ => v &&& fieldAt b 24 8 < fieldAt b 16 8 := by
  unfold waitMet
  generalize b.getD 32 0 = c
  match c with
  | 0 | 1 | 2 | _ + 3 => simp

theorem testWait_read {s u : State} {job : Nat} {j : Job} {b : List Nat} (h : Startable s job 6 j)
    (hr : devRead s j.ctx (fieldAt j.bytes 8 8) 8 = .ok (b, u)) :
    testWait s job = if waitMet j.bytes (leNat b) then finishJob u j else u := by
  simp only [testWait, startable_of h, hr]

theorem exec_testWait {i : Nat → Instr} (hi : i ∈ [Instr.waitValue, Instr.waitValueRecheck]) (job : Nat) (s : State) :
    exec (i job) s = .next (testWait s job) := by
  simp only [List.mem_cons, List.not_mem_nil, or_false] at hi
  rcases hi with rfl | rfl
  · exact exec_waitValue s
  · exact exec_waitValueRecheck s

theorem execBarrierOnly_starts {s : State} {job : Nat} {j : Job} (h : Startable s job 7 j) :
    execBarrierOnly job s = .next (finishJob s j) := by
  simp only [execBarrierOnly, startable_of h]

section
variable {s : State} {job : Nat} {j : Job} (h : Startable s job 8 j)
include h

theorem execQueueCreate_new {u : State} (hop : fieldAt j.bytes 8 2 = 1) (hnew : queueOf s j.ctx (j.bytes.getD 10 0) = none)
    (hw : devWrite s j.ctx (fieldAt j.bytes 32 8) (natLe 8 0) = .ok u) :
    execQueueCreate job s = .next (finishJob (({ u with nextId := u.nextId + 1 } : State).updCtx j.ctx (fun c => { c with
      queues := c.queues ++ [{
        number := j.bytes.getD 10 0, ring := fieldAt j.bytes 16 8, size := fieldAt j.bytes 12 4, wAddr := fieldAt j.bytes 24 8
        rAddr := fieldAt j.bytes 32 8, read := 0, tail := 0, stalled := false, taking := none, key := u.nextId }] })) j) := by
  simp only [execQueueCreate, contextJob_of h hop, hnew, hw]
  rfl

/-- A queue goes where no packet of it is half taken and the packet that destroys it is not its own. -/
theorem execQueueDestroy_other {q : Queue} (hop : fieldAt j.bytes 8 2 = 2) (hq : queueOf s j.ctx (j.bytes.getD 10 0) = some q)
    (ht : q.taking = none) (hown : ∀ m i, j.source = .packet m i → q.key ≠ j.key) :
    execQueueDestroy job s = .next (finishJob (s.updCtx j.ctx (fun c =>
      { c with queues := c.queues.filter (fun q => q.number != j.bytes.getD 10 0) })) j) := by
  cases hsource : j.source with
  | packet m i =>
    simp only [execQueueDestroy, contextJob_of h hop, hq, ht, hsource, beq_false_of_ne (hown m i hsource)]
    rfl
  | node | relaunch =>
    simp only [execQueueDestroy, contextJob_of h hop, hq, ht, hsource]
    rfl

theorem execSettings_keeps (hop : fieldAt j.bytes 8 2 = 3) :
    execSettings job s = .next (finishJob (s.updCtx j.ctx (fun c => { c with
      spawnTimer := if fieldAt j.bytes 12 4 = 0 then c.spawnTimer else fieldAt j.bytes 12 4
      hangExp := if fieldAt j.bytes 16 4 = 0 then c.hangExp else fieldAt j.bytes 16 4
      swapUs := if fieldAt j.bytes 20 4 = 0 then c.swapUs else fieldAt j.bytes 20 4 })) j) := by
  simp only [execSettings, contextJob_of h hop]

end

/-- Settles O48: a packet is taken in the order read, clear, store; a packet that may start does its one effect and its job is gone. -/
theorem queuePackets : Obligations.QueuePackets := by
  unfold Obligations.QueuePackets
  refine ⟨?kick, ?take, ?wake, ?signal, ?wait, ?barrier, ?context, ?finish⟩
  case kick => exact fun s ctx q v c hc hl => (exec_kickWrite s).trans (execKickWrite_live hc hl q v)
  case take =>
    intro s ctx n q hq hruns hfree
    obtain rfl := queueOf_number hq
    refine ⟨fun b t ht hst hlt hr => ⟨fun hb => ?empty, fun u hb hw => ⟨fun v hv hok => ?taken, fun a page hv => ?waits⟩⟩,
      fun b v ht hv hok => ?resumed⟩
    case empty => exact (exec_packetTake s).trans (execPacketTake_empty hq hruns hfree ht hst hlt hr hb)
    case taken =>
      exact (exec_packetTake s).trans ((execPacketTake_cleared hq hruns hfree ht hst hlt hr hb hw).trans
        (congrArg _ (finishTake_stored hv hok)))
    case waits =>
      exact (exec_packetTake s).trans ((execPacketTake_cleared hq hruns hfree ht hst hlt hr hb hw).trans
        (congrArg _ (finishTake_waits hv)))
    case resumed =>
      exact (exec_packetTake s).trans ((execPacketTake_taking hq hruns hfree ht).trans (congrArg _ (finishTake_stored hv hok)))
  case wake => exact fun s ctx n q c hq hc hst hw => (exec_packetHeaderWake s).trans (execPacketHeaderWake_written hq hc hst hw)
  case signal => exact fun s job j u h hw => (exec_signal s).trans (execSignal_stored h hw)
  case wait =>
    intro i hi s job j b u h hr word value met
    have hmet : waitMet j.bytes (leNat b) = true ↔ met := waitMet_iff j.bytes (leNat b)
    rw [exec_testWait hi, testWait_read h hr]
    exact ⟨fun hm => congrArg _ (if_pos (hmet.2 hm)), fun hm => congrArg _ (if_neg (mt hmet.1 hm))⟩
  case barrier => exact fun s job j h => (exec_barrierOnly s).trans (execBarrierOnly_starts h)
  case context =>
    exact fun s job j h => ⟨fun u hop hnew hw => (exec_queueCreate s).trans (execQueueCreate_new h hop hnew hw),
      fun q hop hq ht hown => (exec_queueDestroy s).trans (execQueueDestroy_other h hop hq ht hown),
      fun hop => (exec_settings s).trans (execSettings_keeps h hop)⟩
  case finish => exact fun s j q i h => finishJob_packet h

end Sys2Proof.Machine
end

section
/-! SUPPORT. Records that have been sent (R242 to R245, R294, R303, R304): a spawn that retires, bins and rings, the nodes, builds,
and the steps of an enqueue. -/

namespace Sys2Proof.Machine

/-! ### Traces change no memory (R338) -/

@[simp] theorem updTrace_mem (s : State) (launch origin : Nat) (f : TraceSet → TraceSet) : (updTrace s launch origin f).mem = s.mem := by
  rw [updTrace, State.updLaunch_mem]

@[simp] theorem traceTile_mem (ctx launch origin : Nat) (f : Nat → TraceSet → TraceSet) (other : Bool) (s : State) (tile : Nat) :
    (traceTile ctx launch origin f other s tile).mem = s.mem := by
  unfold traceTile
  split
  · split
    · rw [updTrace_mem]
    · split
      · rw [traceAlways_mem]
      · rfl
  · rfl

theorem foldl_traceTile_mem (ctx launch origin : Nat) (f : Nat → TraceSet → TraceSet) (other : Bool) (ts : List Nat) (s : State) :
    (ts.foldl (traceTile ctx launch origin f other) s).mem = s.mem := by
  induction ts generalizing s with
  | nil => rfl
  | cons t ts ih => rw [List.foldl_cons, ih, traceTile_mem]

@[simp] theorem traceRead_mem (s : State) (ctx launch origin va n : Nat) : (traceRead s ctx launch origin va n).mem = s.mem := by
  unfold traceRead
  split
  · rfl
  · rw [foldl_traceTile_mem]

@[simp] theorem traceWrite_mem (s : State) (ctx launch origin va n : Nat) : (traceWrite s ctx launch origin va n).mem = s.mem := by
  unfold traceWrite
  split
  · rfl
  · rw [foldl_traceTile_mem]

/-! ### A spawn that retires (R242) -/

theorem spawnFault_eq_none {parts : List Part} (h : ∀ p ∈ parts, p.refused = none) : spawnFault parts = none := by
  have hfind : parts.find? (fun p => p.refused.isSome) = none := by
    rw [List.find?_eq_none]
    intro p hp
    rw [h p hp]
    exact Bool.false_ne_true
  unfold spawnFault
  rw [hfind]

theorem execSpawnRetire_placed {s : State} {oid : Nat} {w : Warp} {o : Op} (hoid : oid < 2 ^ 63)
    (ho : (spawnGo s oid false).awakeOp? oid = some (w, o)) (hk : o.kind = .spawn) (hst : o.state = .running)
    (hp : ∀ p ∈ o.parts, p.done = true ∧ p.refused = none) :
    execSpawnRetire oid s = .next (closeOp (spawnGo s oid false) o .done) := by
  have hall : o.parts.all (fun p => p.done || p.refused.isSome) = true := by
    rw [List.all_eq_true]
    intro p hmem
    rw [(hp p hmem).1, Bool.true_or]
  have hnone : spawnFault o.parts = none := spawnFault_eq_none (fun p hmem => (hp p hmem).2)
  simp only [execSpawnRetire, Nat.mod_eq_of_lt hoid, decide_eq_false (Nat.not_le.2 hoid), ho, hk, hst, hall, hnone]
  rfl

/-! ### Bins and rings (R243, R244) -/

/-- The warp that records form (R244). -/
def formedWarp (s : State) (l : Launch) (entry die : Nat) (records : List Record) : Warp :=
  freshWarp s.nextId l.ctx l.id none 0 .formed s.mod.snapshot (dieUnder s.mod.snapshot die) none (recordAlloc l)
    (recordRegs (records.map Record.words))
    (Vector.ofFn (fun i : Fin 32 =>
      match records[i.val]? with
      | some r => Lane.start (BitVec.ofNat 56 entry) r.origin
      | none => Lane.gone))

section
variable (s : State) (l : Launch) (entry die : Nat) (records : List Record)

theorem formWarp_eq : formWarp s l entry die records =
    { s with warps := s.warps ++ [formedWarp s l entry die records], nextId := s.nextId + 1 } := rfl

@[simp] theorem formedWarp_kind : (formedWarp s l entry die records).kind = .formed := rfl
@[simp] theorem formedWarp_launch : (formedWarp s l entry die records).launch = l.id := rfl

theorem formedWarp_alloc : (formedWarp s l entry die records).alloc = max l.rec_.regs 16 := by
  simp [Warp.alloc, formedWarp, freshWarp, recordAlloc, recordRegs]

/-- The lane of a record starts at the bin's entry; a lane without one does not exist. -/
theorem formedWarp_lane {k : Nat} (hk : k < 32) : (formedWarp s l entry die records).lane k =
    match records[k]? with
    | some r => Lane.start (BitVec.ofNat 56 entry) r.origin
    | none => Lane.gone := by
  rw [lane_eq hk]
  simp only [formedWarp, freshWarp, Vector.getElem_ofFn]

theorem formedWarp_ready {k : Nat} (hk : k < 32) :
    ((formedWarp s l entry die records).lane k).isReady = decide (k < records.length) := by
  rw [formedWarp_lane s l entry die records hk]
  by_cases hlt : k < records.length
  · simp [hlt, Lane.start, Lane.isReady]
  · simp [hlt, Lane.gone, Lane.isReady]

variable {s l entry die records} {k : Nat} {r : Record}

theorem formedWarp_pc (hk : k < 32) (hr : records[k]? = some r) :
    ((formedWarp s l entry die records).lane k).pc = BitVec.ofNat 56 entry := by
  rw [formedWarp_lane s l entry die records hk, hr]
  rfl

/-- The words of a record stand in its lane, the first in v0. -/
theorem formedWarp_reg (hk : k < 32) (hr : records[k]? = some r) {n : Nat} (hn : n < 16) :
    (formedWarp s l entry die records).reg k n = r.words.getD n 0#32 := by
  have halloc : n < max l.rec_.regs 16 := by omega
  simp [Warp.reg, formedWarp, freshWarp, recordAlloc, recordRegs, List.getD_eq_getElem?_getD, hn, halloc, RegForm.get,
    Nat.mod_eq_of_lt hk, hr]

end

theorem Bin.is_iff (b : Bin) (die launch entry : Nat) :
    b.is die launch entry = true ↔ b.die = die ∧ b.launch = launch ∧ b.entry = entry := by
  simp [Bin.is, and_assoc]

theorem execBinTimerExpiry_over {s : State} {die i : Nat} {b : Bin} {c : Ctx} {l : Launch}
    (hb : (s.bins.filter (fun b => b.die == die))[i]? = some b) (hc : s.ctx? b.ctx = some c) (hl : s.launch? b.launch = some l)
    (hlive : c.live = true) (hrun : c.preempt = .running) (htime : b.since + c.spawnTimer ≤ s.mod.clock) :
    execBinTimerExpiry die i s = .next { formWarp s l b.entry die b.records with
      bins := s.bins.filter (fun x => !x.is b.die b.launch b.entry) } := by
  simp only [execBinTimerExpiry, hb, hc, hl, hlive, hrun, ge_iff_le, htime]
  rfl

theorem execSpillRingMove_binned {s t : State} {ctx die : Nat} {c : Ctx} {x : Spilled} {rest : List Spilled} (hc : s.ctx? ctx = some c)
    (hlive : c.live = true) (hrun : c.preempt = .running) (hring : onRing c die = x :: rest)
    (hbin : toBin s die x.launch x.entry ctx x.record = some t) :
    execSpillRingMove ctx die s =
      .next (t.updCtx ctx (fun c => { c with spilled := dropFirst (fun y => y.die == die) c.spilled })) := by
  simp only [execSpillRingMove, hc, hring, hlive, hrun, hbin]
  rfl

/-! ### The fixed-function nodes (R303, R304) -/

theorem execBinnerAccept_open {s : State} {oid lane : Nat} {w : Warp} {p : Part} {q : Pass}
    (hn : nodePart (spawnGo s oid false) oid lane .binner = some (w, p))
    (hq : slotPass (spawnGo s oid false) w.ctx (p.field 56 1) = some q) (hslot : p.field 56 1 < 8) (hrate : p.field 57 1 ≤ 2)
    (hres : p.field 58 6 = 0) (hopen : q.open_ = true) :
    execBinnerAccept oid lane s = .next (putPart ((spawnGo s oid false).updPass q.id (fun q => { q with tris := q.tris ++ [{
      verts := (List.range 9).map (fun i => p.field (8 + 4 * i) 4), seq := p.field 44 4, attr := p.field 48 8, rate := p.field 57 1
      op := oid, lane := lane }] })) oid { p with done := true }) := by
  simp only [execBinnerAccept, hn, hq, decide_eq_true hslot, decide_eq_true hrate, hres, hopen]
  rfl

/-- The build that the builder begins for a record whose set's header it has read; its number is the state's next. -/
def recordBuild (s : State) (w : Warp) (lane : Nat) (p : Part) (h : List Nat) : Build where
  id := s.nextId
  ctx := w.ctx
  launch := w.launch
  origin := w.origin lane
  setAddr := p.field 8 8
  header := h
  op := none
  block := none
  done := p.field 16 8
  doneVal := p.field 24 8
  fault := none

/-- The state whose trace holds the builder's read of a set's header and its write of STATUS (R338). -/
def recordTraced (s : State) (w : Warp) (lane set : Nat) : State :=
  traceWrite (traceRead s w.ctx w.launch (w.origin lane) set 256) w.ctx w.launch (w.origin lane) (set + 29) 1

@[simp] theorem recordTraced_mem (s : State) (w : Warp) (lane set : Nat) : (recordTraced s w lane set).mem = s.mem := by
  rw [recordTraced, traceWrite_mem, traceRead_mem]

theorem execBuildRecord_begins {s t u : State} {oid lane : Nat} {w : Warp} {p : Part} {h : List Nat}
    (hn : nodePart (spawnGo s oid false) oid lane .builder = some (w, p)) (hres : p.field 32 32 = 0) (hval : p.field 24 8 < 2 ^ 63)
    (hset : p.field 8 8 % 64 = 0) (hdone : p.field 16 8 % 8 = 0)
    (hr : devRead (spawnGo s oid false) w.ctx (p.field 8 8) 256 = .ok (h, t)) (hb : buildable t w.ctx (p.field 8 8) h = true)
    (hw : devWrite t w.ctx (p.field 8 8 + 29) [1] = .ok u) :
    let v := recordTraced u w lane (p.field 8 8)
    execBuildRecord oid lane s = .next (putPart
      { v with builds := v.builds ++ [recordBuild v w lane p h], nextId := v.nextId + 1 } oid { p with done := true }) := by
  simp only [execBuildRecord, hn, hres, ge_iff_le, decide_eq_false (Nat.not_le.2 hval), hset, hdone, hr, hb, hw]
  rfl

/-! ### The end of a build (R294) -/

theorem buildStatus_written {s u : State} {b : Build} (hw : buildWrite s b (b.setAddr + 29) [2] = .ok u) :
    buildStatus s b = buildEnd u b none := by
  unfold buildStatus
  rw [hw]

theorem execBuildComplete_runs {s t : State} {id : Nat} {b : Build} (hid : s.build? id = some b) (hruns : buildRuns s b = true)
    (hlen : 2 ≤ b.header.length) (haway : writesAway s b.user = false) (hf : b.fault = none)
    (hrun : runBuild (asReader s b.user) b = (t, none)) (haway' : writesAway (dropBrought t b.user) b.user = false) :
    execBuildComplete id s = .next (buildStatus (dropBrought t b.user) b) := by
  match hh : b.header, hlen with
  | x :: y :: rest, _ =>
    simp only [execBuildComplete, hid, hruns, haway, hh, hf, hrun, haway']
    rfl

/-! ### The steps of an enqueue (R245, R154) -/

/-- A queue's counter that lies in HBM: the index is what the word held, and the word rises by one. -/
theorem enqReserve_hbm {s t u : State} {w : Warp} {o : Op} {q : Queue} {c : Ctx} {pa : Nat} {l : Option Leaf} {b : List Nat}
    (hc : s.ctx? w.ctx = some c) (hp : resolve s c none .atomic 2 q.wAddr 8 = .ok ⟨.hbm pa, l⟩)
    (hr : readMem s w.ctx none 2 q.wAddr 8 = .ok (b, t)) (hw : writeWord64 t w.ctx q.wAddr ((leNat b + 1) % 2 ^ 64) = .ok u) :
    enqReserve s w o q = .ok (leNat b, u) := by
  simp only [enqReserve, hc, hp, hr, hw]

theorem enqRead_here {s t : State} {w : Warp} {o : Op} {q : Queue} {b : List Nat}
    (hr : readMem (asReader s o.id) w.ctx none 0 q.rAddr 8 = .ok (b, t)) : enqRead s w o q = .ok (leNat b, dropBrought t o.id) := by
  unfold enqRead
  rw [hr]

theorem enqStore_here {s u : State} {w : Warp} {o : Op} {va : Nat} {bytes : List Nat} (hw : writeMem s w.ctx none 1 va bytes = .ok u) :
    enqStore s w o va bytes = .ok u := by
  unfold enqStore
  rw [hw]

theorem enqHeader_here {s u : State} {w : Warp} {o : Op} {qn k slot : Nat} {image : List Nat}
    (hw : writeMem s w.ctx none 1 slot (image.take 8) = .ok u) :
    enqHeader s w o qn k slot image = u.setOp { o with kind := .enq qn (image.take 8) (some k) true } := by
  unfold enqHeader
  rw [enqStore_here hw]

section
variable {s : State} {oid : Nat} {w : Warp} {o : Op} {q : Queue} {image : List Nat} (ho : s.awakeOp? oid = some (w, o))
  (hst : o.state = .running) (hruns : engineRuns s w = true) (hord : orderOk s w o = true) (haway : writesAway s oid = false)
  (hq : (s.ctx? w.ctx).bind (fun c => c.queues.find? (fun k => k.number == q.number)) = some q)
include ho hst hruns hord haway hq

theorem execEnqRetire_reserves {k : Nat} {u : State} (hk : o.kind = .enq q.number image none false)
    (hres : enqReserve s w o q = .ok (k, u)) :
    execEnqRetire oid s = .next (u.setOp { o with kind := .enq q.number image (some k) false }) := by
  simp only [execEnqRetire, ho, hk, hst, hruns, hord, haway, hq, hres]
  rfl

/-- There is room for the packet: its body is written, and where that is answered its header. -/
theorem execEnqRetire_writes {k r : Nat} {t u : State} (hk : o.kind = .enq q.number image (some k) false) (hlen : 8 < image.length)
    (hread : enqRead s w o q = .ok (r, t)) (hroom : k < r + q.size)
    (hbody : enqStore t w o (slotAddr q k + 8) (image.drop 8) = .ok u) (haway' : writesAway u oid = false) :
    execEnqRetire oid s = .next (enqHeader u w o q.number k (slotAddr q k) image) := by
  simp only [execEnqRetire, ho, hk, hst, hruns, hord, haway, hq, Nat.not_le.2 hlen, hread, hroom, hbody, haway']
  rfl

theorem execEnqRetire_kicks {k : Nat} (hk : o.kind = .enq q.number image (some k) true) :
    execEnqRetire oid s = .next (closeOp (kickQueue s w.ctx q.number ((k + 1) % 2 ^ 64)) o .done) := by
  simp only [execEnqRetire, ho, hk, hst, hruns, hord, haway, hq]
  rfl

end

/-- Settles O46: each event does the next step of its records, and in reach no access keeps it waiting. -/
theorem recordsArrive : Obligations.RecordsArrive := by
  unfold Obligations.RecordsArrive
  refine ⟨?spawn, ?bin, ?ring, ?binner, ?builder, ?build, ?enqueue⟩
  case spawn => exact fun s oid w o hoid ho hk hst hp => (exec_spawnRetire s).trans (execSpawnRetire_placed hoid ho hk hst hp)
  case bin =>
    intro s die i b c l hb hc hl hlive hrun htime
    refine ⟨_, formedWarp s l b.entry die b.records,
      (exec_binTimerExpiry s).trans (execBinTimerExpiry_over hb hc hl hlive hrun htime), rfl, rfl, rfl, rfl, formedWarp_alloc .., ?freed,
      fun k hk => ⟨formedWarp_ready _ _ _ _ _ hk, fun r hr => ⟨formedWarp_pc hk hr, fun n hn => formedWarp_reg hk hr hn⟩⟩⟩
    intro k hk hkey
    have hdie : b.die = die := by simpa using (List.mem_filter.1 (List.mem_of_getElem? hb)).2
    have hnot := (List.mem_filter.1 hk).2
    rw [hdie, (Bin.is_iff ..).2 hkey] at hnot
    exact Bool.false_ne_true hnot
  case ring =>
    exact fun s ctx die c x rest t hc hlive hrun hring hbin =>
      (exec_spillRingMove s).trans (execSpillRingMove_binned hc hlive hrun hring hbin)
  case binner =>
    exact fun s oid lane w p q hn hq hslot hrate hres hopen =>
      (exec_binnerAccept s).trans (execBinnerAccept_open hn hq hslot hrate hres hopen)
  case builder =>
    intro s oid lane w p h t u hn hres hval hset hdone hr hb hw
    exact ⟨recordTraced u w lane (p.field 8 8), recordBuild (recordTraced u w lane (p.field 8 8)) w lane p h,
      (exec_buildRecord s).trans (execBuildRecord_begins hn hres hval hset hdone hr hb hw), recordTraced_mem .., rfl, rfl, rfl, rfl, rfl, rfl⟩
  case build =>
    intro s id b t u hid hruns hlen haway hf hrun haway' hw
    rw [exec_buildComplete, execBuildComplete_runs hid hruns hlen haway hf hrun haway', buildStatus_written hw]
  case enqueue =>
    intro s oid w o q image ho hst hruns hord haway hq
    refine ⟨?reserve, ?write, fun k hk => (exec_enqRetire s).trans (execEnqRetire_kicks ho hst hruns hord haway hq hk)⟩
    case reserve =>
      exact fun c pa l b t u hk hc hp hr hw =>
        (exec_enqRetire s).trans (execEnqRetire_reserves ho hst hruns hord haway hq hk (enqReserve_hbm hc hp hr hw))
    case write =>
      intro k b t u v hk hlen hr hroom hbody haway' hhead
      rw [exec_enqRetire, execEnqRetire_writes ho hst hruns hord haway hq hk (by omega) (enqRead_here hr) hroom (enqStore_here hbody) haway']
      exact congrArg _ (enqHeader_here hhead)

end Sys2Proof.Machine
end

section
/-! SUPPORT. O57: every function of the model that answers a state keeps memory canonical. Here: what that says of each kind of result, and
the shared operations of issue, traps and retirement. -/

namespace Sys2Proof.Machine

set_option Elab.async false

/-! ### What a result must leave for memory to stay canonical -/

/-- Every block's scratchpad and accumulator tiles are in their one form. -/
def BlocksWf (bs : List Block) : Prop := ∀ b ∈ bs, Memory.wf b.scratch = true ∧ Memory.wf b.tiles = true

/-- The two parts of the state that the canonical form speaks of. -/
theorem canonical_iff {s : State} : s.Canonical ↔ Memory.wf s.mem = true ∧ BlocksWf s.blocks := Iff.rfl

/-- A value that holds no state asks for nothing. -/
abbrev NoState {α : Type} (_ : α) : Prop := True

/-- The state is in the first place of a pair. -/
abbrev AtFst {α β : Type} (p : α → Prop) (x : α × β) : Prop := p x.1

/-- The state is in the second place of a pair. -/
abbrev AtSnd {α β : Type} (p : β → Prop) (x : α × β) : Prop := p x.2

/-- What a result holds satisfies `p` where it is an error, `q` where it is a value. -/
def Leaves {ε α : Type} (p : ε → Prop) (q : α → Prop) : Except ε α → Prop
  | .ok a => q a
  | .error e => p e

theorem Leaves.ok {ε α : Type} {p : ε → Prop} {q : α → Prop} {r : Except ε α} (h : Leaves p q r) {a : α} (e : r = .ok a) : q a := by
  rw [e] at h
  exact h

theorem Leaves.error {ε α : Type} {p : ε → Prop} {q : α → Prop} {r : Except ε α} (h : Leaves p q r) {x : ε} (e : r = .error x) : p x := by
  rw [e] at h
  exact h

theorem Leaves.value {ε α : Type} {p : ε → Prop} {q : α → Prop} {r : Except ε α} (h : Leaves p q r) : Leaves NoState q r := by
  cases r with
  | error _ => trivial
  | ok _ => exact h

theorem leaves_error {ε α : Type} {q : α → Prop} (e : ε) : Leaves NoState q (.error e) := True.intro

/-- A refusal before the rest of a meaning holds no state. -/
theorem leaves_unless {ε α : Type} {q : α → Prop} {b : Prop} [Decidable b] {e : ε} {r : Except ε α} (h : Leaves NoState q r) :
    Leaves NoState q (if b then .error e else r) := by
  split
  · exact leaves_error e
  · exact h

/-- The next state, where there is one, is canonical. -/
def Leads : Host.Outcome State Fault Refusal → Prop
  | .next t => t.Canonical
  | .fault _ => True
  | .refused _ => True

/-- The state in which a part was performed, held or ended is canonical. -/
def Performed.Canonical : Performed → Prop
  | .yes s _ => s.Canonical
  | .held s => s.Canonical
  | .ended s => s.Canonical

/-! ### The shared operations of issue, traps and retirement -/

/-- The architect's lemma of a result, said of the whole result. -/
theorem leaves_of {ε α : Type} {q : α → Prop} {r : Except ε α} (h : ∀ a, r = .ok a → q a) : Leaves NoState q r := by
  cases r with
  | error _ => trivial
  | ok a => exact h a rfl

theorem leaves_prepareWrite {s : State} (h : s.Canonical) (c : Ctx) (l : Leaf) (va : Nat) :
    Leaves NoState State.Canonical (prepareWrite s c l va) := leaves_of fun _ => canonical_prepareWrite h

theorem leaves_storeVa {s : State} (h : s.Canonical) (ctx va n v : Nat) : Leaves NoState State.Canonical (storeVa s ctx va n v) :=
  leaves_of fun _ => canonical_storeVa h

theorem leaves_widenAll {s : State} (h : s.Canonical) (ctx va n v : Nat) (rd : State → Nat → Nat) (ts : List Tensor) :
    Leaves NoState State.Canonical (widenAll s ctx va n v rd ts) := leaves_of fun _ => canonical_widenAll h

theorem leaves_readChunk {s : State} (h : s.Canonical) (c : Ctx) (blk : Option Nat) (kind va n : Nat) :
    Leaves NoState (AtSnd State.Canonical) (readChunk s c blk kind va n) := leaves_of fun _ => canonical_readChunk h

theorem leaves_writeChunk {s : State} (h : s.Canonical) (c : Ctx) (blk : Option Nat) (kind va n v : Nat) :
    Leaves NoState State.Canonical (writeChunk s c blk kind va n v) := leaves_of fun _ => canonical_writeChunk h

theorem leaves_readMem {s : State} (h : s.Canonical) (ctx : Nat) (blk : Option Nat) (kind va n : Nat) :
    Leaves NoState (AtSnd State.Canonical) (readMem s ctx blk kind va n) := leaves_of fun _ => canonical_readMem h

theorem leaves_writeMem {s : State} (h : s.Canonical) (ctx : Nat) (blk : Option Nat) (kind va : Nat) (bytes : List Nat) :
    Leaves NoState State.Canonical (writeMem s ctx blk kind va bytes) := leaves_of fun _ => canonical_writeMem h

theorem canonical_writeWord64 {s : State} (h : s.Canonical) (ctx va v : Nat) :
    Leaves NoState State.Canonical (writeWord64 s ctx va v) := leaves_writeMem h ..

theorem canonical_updTrace {s : State} (h : s.Canonical) (launch origin : Nat) (f : TraceSet → TraceSet) :
    (updTrace s launch origin f).Canonical := by
  unfold updTrace
  grind [canonical_iff, canonical_updLaunch]

theorem canonical_traceAlways {s : State} (h : s.Canonical) (launch origin : Nat) : (traceAlways s launch origin).Canonical := by
  unfold traceAlways
  grind [canonical_iff, canonical_updTrace]

theorem canonical_traceTile {s : State} (h : s.Canonical) (ctx launch origin : Nat) (f : Nat → TraceSet → TraceSet) (other : Bool)
    (tile : Nat) :
    (traceTile ctx launch origin f other s tile).Canonical := by
  unfold traceTile
  grind [canonical_updTrace, canonical_traceAlways]

theorem canonical_traceRead {s : State} (h : s.Canonical) (ctx launch origin va n : Nat) :
    (traceRead s ctx launch origin va n).Canonical := by
  unfold traceRead
  split
  · exact h
  · exact foldl_keeps (fun _ _ k => canonical_traceTile k ..) _ _ h

theorem canonical_traceWrite {s : State} (h : s.Canonical) (ctx launch origin va n : Nat) :
    (traceWrite s ctx launch origin va n).Canonical := by
  unfold traceWrite
  split
  · exact h
  · exact foldl_keeps (fun _ _ k => canonical_traceTile k ..) _ _ h

theorem canonical_keepReads {s : State} (h : s.Canonical) (t : State) : (keepReads s t).Canonical := by
  unfold keepReads
  grind [canonical_iff]

theorem leaves_deviceStore {s : State} (h : s.Canonical) (ctx va : Nat) (bytes : List Nat) :
    Leaves NoState State.Canonical (deviceStore s ctx va bytes) := leaves_of fun _ => canonical_deviceStore h

theorem canonical_endDoomed {s : State} (h : s.Canonical) : (endDoomed s).Canonical :=
  foldl_keeps (fun _ _ k => canonical_endWith k _ _ _ _) _ _ (h.congr rfl rfl)

theorem canonical_countUpdate {s : State} (h : s.Canonical) (lid : Nat) (up : Bool) (n : Nat) :
    Leaves NoState State.Canonical (countUpdate s lid up n) := by
  unfold countUpdate
  split
  · exact h
  · extract_lets next own at_ hard
    clear_value next own at_ hard
    grind [Leaves, canonical_setLaunch, leaves_readMem, canonical_writeWord64]

theorem canonical_countExits {s : State} (h : s.Canonical) (w : Warp) (m : Mask) : Leaves NoState State.Canonical (countExits s w m) := by
  unfold countExits
  grind [Leaves, canonical_countUpdate]

theorem canonical_startHandler {s : State} (h : s.Canonical) (w : Warp) : (startHandler s w).Canonical := by
  unfold startHandler
  grind [canonical_iff, canonical_endWith]

theorem canonical_takeTrap {s : State} (h : s.Canonical) (wid : Nat) (run : Mask) (pc : Pc) (lanes : Mask) (cause addr : Nat)
    (detail : List Nat) :
    (takeTrap s wid run pc lanes cause addr detail).Canonical := by
  unfold takeTrap
  grind [canonical_iff, canonical_logEntry, canonical_endContext, canonical_setWarp, canonical_updCtx, canonical_startHandler]

theorem canonical_stepTrap {s : State} (h : s.Canonical) (wid : Nat) (lanes : Mask) (addr : Pc) :
    (stepTrap s wid lanes addr).Canonical := by
  unfold stepTrap
  split
  · exact h
  · split
    · exact h
    · split
      · exact foldl_keeps (fun _ _ k => canonical_takeTrap k _ _ _ _ _ _ _) _ _ h
      · exact h

theorem canonical_cxAdvance {s : State} (h : s.Canonical) (x : Cx) (w : Warp) (pc : Nat → Pc) (yielded : Bool) :
    (Cx.advance x s w pc yielded).Canonical := by
  unfold Cx.advance
  grind [canonical_iff, canonical_setWarp]

theorem canonical_cxFinish {s : State} (h : s.Canonical) (x : Cx) (w : Warp) (pc : Nat → Pc) (yielded : Bool) :
    (Cx.finish x s w pc yielded).Canonical := by
  unfold Cx.finish
  grind [canonical_cxAdvance, canonical_updWarp, canonical_stepTrap]

theorem canonical_cxDone {s : State} (h : s.Canonical) (x : Cx) (w : Warp) : (Cx.done x s w).Canonical := by
  unfold Cx.done
  grind [canonical_cxFinish]

theorem canonical_trapNow {s : State} (h : s.Canonical) (sel : Sel) (lanes : Mask) (cause addr : Nat) (detail : List Nat) :
    (trapNow s sel lanes cause addr detail).Canonical := by
  unfold trapNow
  grind [canonical_iff, canonical_updWarp, canonical_takeTrap]

theorem canonical_applyStop {s : State} (h : s.Canonical) (e : Stop) : Leads (applyStop s e) := by
  unfold applyStop
  grind [Leads, canonical_iff, canonical_trapNow, canonical_endContext, canonical_requestPages, canonical_setWarp]

/-- A word's issue keeps what its body keeps. -/
theorem canonical_issue {s : State} (h : s.Canonical) {i : Info} {body : Cx → Except Stop State}
    (hb : ∀ x : Cx, x.s.Canonical → Leaves NoState State.Canonical (body x)) : Leads (issue s i body) := by
  unfold issue
  split
  · trivial
  · exact canonical_applyStop h _
  · rename_i x hx
    have hs : x.s.Canonical := begins_s hx ▸ h
    have := hb x hs
    grind [Leaves, Leads, canonical_applyStop]

theorem canonical_addOp {s : State} (h : s.Canonical) (w : Warp) (k : Nat) (kind : OpKind) (parts : List Part) (scope : Nat)
    (tag : Option Nat) (state : OpState) :
    AtFst State.Canonical (addOp s w k kind parts scope tag state) := by
  unfold addOp
  grind [canonical_iff]

theorem canonical_setTag {s : State} (h : s.Canonical) (w : Warp) (o : Op) : (setTag s w o).Canonical := by
  unfold setTag
  grind [canonical_updCtx]

theorem canonical_retireReady {wid k : Nat} : ∀ (n : Nat) {s : State}, s.Canonical → (retireReady s wid k n).Canonical
  | 0, _, h => h
  | n + 1, s, h => by
    unfold retireReady
    split
    · exact h
    · split
      · exact h
      · split
        · exact canonical_retireReady n (canonical_setWarp (canonical_setTag h _ _) _)
        · exact h

theorem canonical_retireAll {s : State} (h : s.Canonical) (wid k : Nat) : (retireAll s wid k).Canonical := canonical_retireReady _ h

theorem canonical_retireFailed {s : State} (h : s.Canonical) (wid : Nat) (o : Op) : (retireFailed s wid o).Canonical := by
  unfold retireFailed
  grind [canonical_iff, canonical_setTag, canonical_setWarp]

theorem canonical_retireOp {s : State} (h : s.Canonical) (oid : Nat) : (retireOp s oid).Canonical := by
  unfold retireOp
  grind [canonical_retireAll]

theorem canonical_logUnreported {wid : Nat} : ∀ (n : Nat) {s : State}, s.Canonical → (logUnreported s wid n).Canonical
  | 0, _, h => h
  | n + 1, s, h => by
    unfold logUnreported
    split
    · exact h
    · split
      · exact h
      · split
        · exact h
        · exact canonical_logUnreported n (canonical_retireAll (canonical_retireFailed (canonical_logFault h _ _ _ _) _ _) _ _)

theorem canonical_setOp {s : State} (h : s.Canonical) (o : Op) : (s.setOp o).Canonical := h.congr rfl rfl

theorem canonical_closeOp {s : State} (h : s.Canonical) (o : Op) (st : OpState) : (closeOp s o st).Canonical := by
  unfold closeOp
  grind [canonical_iff, canonical_logUnreported, canonical_retireAll, canonical_setOp]

end Sys2Proof.Machine
end

section
/-! SUPPORT. O57: memory accesses and control flow keep memory canonical. -/

namespace Sys2Proof.Machine

set_option Elab.async false

/-! ### Access to memory -/

theorem canonical_kickSlotStore {s : State} (h : s.Canonical) (ctx slot table va : Nat) :
    (kickSlotStore s ctx slot table va).Canonical := by
  unfold kickSlotStore
  grind [canonical_endWith, canonical_addKick]

theorem canonical_countPort {s : State} (h : s.Canonical) (ctx port : Nat) : (countPort s ctx port).Canonical := by
  unfold countPort
  grind [canonical_iff]

theorem canonical_transmit {s : State} (h : s.Canonical) (c : Ctx) (r : RemoteReq) : (transmit s c r).Canonical := by
  unfold transmit
  grind [canonical_sendMessage, canonical_countPort]

theorem canonical_submit {s : State} (h : s.Canonical) (c : Ctx) (r : RemoteReq) :
    Leaves NoState (AtFst State.Canonical) (submit s c r) := by
  unfold submit
  grind [Leaves, canonical_iff, canonical_transmit]

theorem canonical_sendPart {s : State} (h : s.Canonical) (c : Ctx) (w : Warp) (o : Op) (p : Part) (peer addr : Nat) :
    AtFst State.Canonical (sendPart s c w o p peer addr) := by
  unfold sendPart
  grind [Leaves, canonical_iff, canonical_submit]

theorem canonical_askRemote {s : State} (h : s.Canonical) (c : Ctx) (wid user lane va peer addr n : Nat) :
    Leaves NoState State.Canonical (askRemote s c wid user lane va peer addr n) := by
  unfold askRemote
  grind [Leaves, canonical_submit]

theorem canonical_writeRemote {s : State} (h : s.Canonical) (c : Ctx) (wid user lane va peer addr : Nat) (bytes : List Nat) :
    Leaves NoState State.Canonical (writeRemote s c wid user lane va peer addr bytes) := by
  unfold writeRemote
  grind [Leaves, canonical_submit]

theorem canonical_asReader {s : State} (h : s.Canonical) (user : Nat) : (asReader s user).Canonical := by
  unfold asReader
  grind [canonical_iff]

theorem canonical_dropBrought {s : State} (h : s.Canonical) (user : Nat) : (dropBrought s user).Canonical := by
  unfold dropBrought
  grind [canonical_iff]

theorem canonical_fetchWord {s : State} (h : s.Canonical) (c : Ctx) (w : Warp) (va : Nat) :
    Leaves NoState (AtSnd State.Canonical) (fetchWord s c w va) := by
  unfold fetchWord
  grind [Leaves, leaves_readChunk, canonical_asReader, canonical_dropBrought]

theorem canonical_oldRead {s : State} (h : s.Canonical) (t : Target) (va n : Nat) :
    Leaves NoState (AtSnd State.Canonical) (oldRead s t va n) := by
  unfold oldRead
  grind [Leaves, canonical_mergeLine]

theorem canonical_oldHome {s : State} (h : s.Canonical) (c : Ctx) (l : Leaf) (pa va : Nat) :
    Leaves NoState (AtFst State.Canonical) (oldHome s c l pa va) := by
  unfold oldHome
  grind [Leaves, canonical_iff, canonical_copyLine, canonical_pullLine, canonical_takeFrame, canonical_followPage]

theorem canonical_storeScratch {s : State} (h : s.Canonical) (b o n v : Nat) :
    (s.updBlock b (fun k => { k with scratch := Memory.writeN k.scratch o n v })).Canonical :=
  h.updBlock _ _ fun _ h1 h2 => ⟨Memory.wf_writeN n _ v h1, h2⟩

theorem canonical_storeTile {s : State} (h : s.Canonical) (b o n v : Nat) :
    (s.updBlock b (fun k => { k with tiles := Memory.writeN k.tiles o n v })).Canonical :=
  h.updBlock _ _ fun _ h1 h2 => ⟨h1, Memory.wf_writeN n _ v h2⟩

theorem canonical_oldWrite {s : State} (h : s.Canonical) (c : Ctx) (leaf : Option Leaf) (t : Target) (va n v : Nat) :
    Leaves NoState State.Canonical (oldWrite s c leaf t va n v) := by
  unfold oldWrite
  split
  · grind [Leaves, canonical_mergeLine, leaves_widenAll, canonical_oldHome, canonical_rawStore]
  · exact canonical_storeScratch h ..
  · exact canonical_storeTile h ..
  · exact h

theorem canonical_refusal {s : State} (h : s.Canonical) (w : Warp) (p : Part) (e : AccErr) : (refusal s w p e).Canonical := by
  unfold refusal
  grind [canonical_iff, Performed.Canonical, canonical_requestPage, canonical_endWith]

theorem canonical_tracePart {s : State} (h : s.Canonical) (w : Warp) (p : Part) (leaf : Option Leaf) (rd wr always : Bool) :
    (tracePart s w p leaf rd wr always).Canonical := by
  unfold tracePart
  grind [canonical_iff, canonical_updTrace, canonical_traceAlways]

theorem canonical_performLoad {s : State} (h : s.Canonical) (w : Warp) (o : Op) (p : Part) : (performLoad s w o p).Canonical := by
  unfold performLoad
  split
  · exact h
  · extract_lets got
    split
    · exact canonical_refusal h ..
    · extract_lets t absent traced
      have habsent : absent.Canonical := State.Canonical.congr (canonical_tracePart h w p _ true false true) rfl rfl
      have htraced : traced.Canonical := canonical_tracePart h ..
      clear_value absent traced
      split <;> grind [Leaves, Performed.Canonical, canonical_iff, canonical_refusal, canonical_sendPart, canonical_oldRead,
        leaves_readChunk]

theorem canonical_writePlace {s : State} (h : s.Canonical) (c : Ctx) (w : Warp) (kind : Nat) (p : Part) (pl : Place) (old : Bool)
    (v : Nat) :
    Leaves NoState State.Canonical (writePlace s c w kind p pl old v) := by
  unfold writePlace
  grind [Leaves, canonical_oldWrite, leaves_writeChunk]

theorem canonical_performStore {s : State} (h : s.Canonical) (w : Warp) (o : Op) (p : Part) : (performStore s w o p).Canonical := by
  unfold performStore
  split
  · exact h
  · split
    · exact canonical_refusal h ..
    · extract_lets done
      have hdone {s : State} (h : s.Canonical) : (done s).Canonical := canonical_tracePart h ..
      clear_value done
      have hplace := canonical_writePlace h
      split
      · split
        · exact canonical_refusal h ..
        · split <;> grind [Leaves, Performed.Canonical, canonical_refusal, canonical_sendPart, canonical_kickQueue, canonical_kickSlotStore]
      · grind [Leaves, canonical_refusal]

theorem canonical_performRmw {s : State} (h : s.Canonical) (w : Warp) (p : Part) (pl : Place) (old : Bool) (f : Nat → Option Nat) :
    (performRmw s w p pl old f).Canonical := by
  unfold performRmw
  split
  · exact h
  · rename_i c hc
    have hread : Leaves NoState (AtSnd State.Canonical)
        (if old then oldRead s pl.tgt p.va p.size else readChunk s c w.block 2 p.va p.size) := by
      split
      · exact canonical_oldRead h ..
      · exact leaves_readChunk h ..
    split
    · exact canonical_refusal h ..
    · rename_i x t hx
      have ht : t.Canonical := hread.ok hx
      grind [Leaves, Performed.Canonical, canonical_refusal, canonical_writePlace]

theorem canonical_performAtomic {s : State} (h : s.Canonical) (w : Warp) (o : Op) (p : Part) : (performAtomic s w o p).Canonical := by
  unfold performAtomic
  grind [Performed.Canonical, canonical_refusal, canonical_sendPart, canonical_tracePart, canonical_performRmw]

theorem canonical_setPart {s : State} (h : s.Canonical) (oid : Nat) (p : Part) : (setPart s oid p).Canonical := by
  unfold setPart
  grind [canonical_setOp, canonical_closeOp]

/-- The parts of an operation keep what performing one of them keeps. -/
theorem canonical_performParts {f : State → Warp → Op → Part → Performed} (hf : ∀ s w o p, s.Canonical →
  (f s w o p).Canonical) {oid : Nat} :
    ∀ (ls : List Nat) {s : State}, s.Canonical → (performParts f oid s ls).Canonical
  | [], _, h => h
  | l :: ls, s, h => by
    have ih : ∀ {s : State}, s.Canonical → (performParts f oid s ls).Canonical := canonical_performParts hf ls
    unfold performParts
    grind [Performed.Canonical, canonical_setPart]

theorem canonical_performOp {f : State → Warp → Op → Part → Performed} (hf : ∀ s w o p, s.Canonical → (f s w o p).Canonical) {s : State}
    (h : s.Canonical) (oid : Nat) (lanes : List Nat) : (performOp f oid s lanes).Canonical :=
  canonical_retireOp (canonical_performParts hf lanes h) _

/-! ### Control flow, traps and barriers -/

theorem canonical_appendHint {s : State} (h : s.Canonical) : Leads (appendHint s) := by
  unfold appendHint
  grind [Leads, canonical_iff, canonical_updWarp]

theorem canonical_execFetchFault {s : State} (h : s.Canonical) : Leads (execFetchFault s) := by
  unfold execFetchFault
  split
  · trivial
  · split
    · trivial
    · split
      · trivial
      · grind [Leaves, Leads, canonical_iff, canonical_askRemote, canonical_applyStop]

theorem canonical_execCBr {s : State} (h : s.Canonical) (k m o : Nat) : Leads (execCBr k m o s) := by
  unfold execCBr
  refine canonical_issue h fun x hx => ?_
  grind [Leaves, Leads, canonical_iff, canonical_cxFinish]

theorem canonical_execCCall {s : State} (h : s.Canonical) (j o : Nat) : Leads (execCCall j o s) := by
  unfold execCCall
  refine canonical_issue h fun x hx => ?_
  grind [Leaves, Leads, canonical_cxFinish]

theorem canonical_jumpTo {s : State} (h : s.Canonical) (i : Info) (a : Nat) (link : Option Nat) : Leads (jumpTo s i a link) := by
  unfold jumpTo
  refine canonical_issue h fun x hx => ?_
  grind [Leaves, Leads, canonical_cxFinish]

theorem canonical_cxWait {s : State} (h : s.Canonical) (x : Cx) (w : Warp) (what : Wait) : (Cx.wait x s w what).Canonical := by
  unfold Cx.wait
  grind [canonical_iff, canonical_cxFinish]

theorem canonical_endWait {s : State} (h : s.Canonical) (wid : Nat) (run : Mask) (pc : Pc) : (endWait s wid run pc).Canonical := by
  unfold endWait
  grind [canonical_updWarp]

theorem canonical_completeWait {s : State} (h : s.Canonical) (wid : Nat) (run : Mask) (pc : Pc) :
    (completeWait s wid run pc).Canonical := by
  unfold completeWait
  grind [canonical_stepTrap, canonical_endWait]

theorem canonical_takeFault {s : State} (h : s.Canonical) (wid : Nat) (run : Mask) (pc : Pc) (o : Op) (f : OpFault) :
    (takeFault s wid run pc o f).Canonical := by
  unfold takeFault
  grind [canonical_takeTrap, canonical_retireFailed]

theorem canonical_execCWait {s : State} (h : s.Canonical) (l st c x : Nat) : Leads (execCWait l st c x s) := by
  unfold execCWait
  refine canonical_issue h fun x hx => ?_
  grind [Leaves, Leads, canonical_cxDone, canonical_trapNow, canonical_retireFailed, canonical_cxWait]

theorem canonical_tagWait {s : State} (h : s.Canonical) (a : Nat) (all : Bool) : Leads (tagWait s a all) := by
  unfold tagWait
  refine canonical_issue h fun x hx => ?_
  grind [Leaves, Leads, canonical_iff, canonical_cxDone, canonical_cxWait]

theorem canonical_execCTffs {s : State} (h : s.Canonical) (d a : Nat) : Leads (execCTffs d a s) := by
  unfold execCTffs
  refine canonical_issue h fun x hx => ?_
  grind [Leaves, Leads, canonical_iff, canonical_cxDone]

theorem canonical_execCTclr {s : State} (h : s.Canonical) (a : Nat) : Leads (execCTclr a s) := by
  unfold execCTclr
  refine canonical_issue h fun x hx => ?_
  grind [Leaves, Leads, canonical_iff, canonical_cxDone, canonical_updCtx]

theorem canonical_needBar {s : State} (h : s.Canonical) (sc id owner group : Nat) :
    AtSnd State.Canonical (State.needBar s sc id owner group) := by
  unfold State.needBar
  grind [canonical_iff]

theorem canonical_barrierOp {s : State} (h : s.Canonical) (sc id : Nat) (arr wt : Bool) : Leads (barrierOp s sc id arr wt) := by
  unfold barrierOp
  refine canonical_issue h fun x hx => ?_
  grind [Leaves, Leads, canonical_iff, canonical_needBar, canonical_cxDone, canonical_cxWait]

theorem canonical_endBarrier {s : State} (h : s.Canonical) (sc id : Nat) (x : Nat × Mask) : (endBarrier sc id s x).Canonical := by
  unfold endBarrier
  grind [canonical_completeWait, canonical_updWarp]

theorem canonical_wakeBarrier {s : State} (h : s.Canonical) (b : Bar) : (wakeBarrier b s).Canonical :=
  foldl_keeps (fun _ _ k => canonical_endBarrier k _ _ _) _ _ (h.congr rfl rfl)

theorem canonical_execBarrierPhaseComplete {s : State} (h : s.Canonical) (bar : Nat) : Leads (execBarrierPhaseComplete bar s) := by
  unfold execBarrierPhaseComplete
  split
  · exact h
  · split
    · exact h
    · split
      · exact canonical_wakeBarrier (foldl_keeps (fun _ _ k => canonical_pushLines k _) _ _ h) _
      · exact h

theorem canonical_execWaitComplete {s : State} (h : s.Canonical) (warp lane : Nat) : Leads (execWaitComplete warp lane s) := by
  unfold execWaitComplete
  split
  · exact h
  · split
    · split <;> grind [Leads, canonical_updWarp, canonical_completeWait, canonical_takeFault, canonical_endWait]
    · exact h

theorem canonical_execTagWaitComplete {s : State} (h : s.Canonical) (warp lane : Nat) : Leads (execTagWaitComplete warp lane s) := by
  unfold execTagWaitComplete
  grind [Leads, canonical_completeWait]

theorem canonical_execCNop {s : State} (h : s.Canonical) : Leads (execCNop s) := by
  unfold execCNop
  refine canonical_issue h fun x hx => ?_
  grind [Leaves, Leads, canonical_cxDone]

theorem canonical_execCYield {s : State} (h : s.Canonical) : Leads (execCYield s) := by
  unfold execCYield
  refine canonical_issue h fun x hx => ?_
  grind [Leaves, Leads, canonical_cxFinish]

theorem canonical_execCExit {s : State} (h : s.Canonical) : Leads (execCExit s) := by
  unfold execCExit
  refine canonical_issue h fun x hx => ?_
  grind [Leaves, Leads, canonical_trapNow, canonical_retireFailed, canonical_countExits, canonical_cxFinish]

theorem canonical_stopAfter {s : State} (h : s.Canonical) (i : Info) (cause code : Nat) : Leads (stopAfter s i cause code) := by
  unfold stopAfter
  refine canonical_issue h fun x hx => ?_
  grind [Leaves, Leads, canonical_cxAdvance, canonical_takeTrap]

/-! ### Memory operations and their events -/

theorem canonical_cxIssueOp {x : Cx} (h : x.s.Canonical) (w : Warp) (k : Nat) (kind : OpKind) (parts : List Part) (scope : Nat)
    (dsts : List Nat) (lanes : Mask) : (x.issueOp w k kind parts scope dsts lanes).Canonical := by
  unfold Cx.issueOp
  split
  · exact canonical_retireAll (canonical_cxDone (canonical_addOp h ..) ..) _ _
  · exact canonical_cxDone (canonical_addOp h ..) ..

theorem canonical_loadOp {s : State} (h : s.Canonical) (i : Info) (z d a o : Nat) (pr acq : Bool) : Leads (loadOp s i z d a o pr acq) := by
  unfold loadOp
  refine canonical_issue h fun x hx => ?_
  grind [Leaves, Leads, canonical_cxIssueOp]

theorem canonical_execMLdu {s : State} (h : s.Canonical) (z d a o : Nat) : Leads (execMLdu z d a o s) := by
  unfold execMLdu
  refine canonical_issue h fun x hx => ?_
  grind [Leaves, Leads, canonical_cxIssueOp]

theorem canonical_storeOp {s : State} (h : s.Canonical) (i : Info) (z d a o : Nat) (rel : Bool) : Leads (storeOp s i z d a o rel) := by
  unfold storeOp
  refine canonical_issue h fun x hx => ?_
  grind [Leaves, Leads, canonical_cxIssueOp]

theorem canonical_atomOp {s : State} (h : s.Canonical) (fn : AtomFn) (d a b : Nat) : Leads (atomOp s fn d a b) := by
  unfold atomOp
  refine canonical_issue h fun x hx => ?_
  grind [Leaves, Leads, canonical_cxIssueOp]

theorem canonical_casOp {s : State} (h : s.Canonical) (n d a b : Nat) : Leads (casOp s n d a b) := by
  unfold casOp
  refine canonical_issue h fun x hx => ?_
  grind [Leaves, Leads, canonical_cxIssueOp]

theorem canonical_redOp {s : State} (h : s.Canonical) (fn : AtomFn) (a b : Nat) : Leads (redOp s fn a b) := by
  unfold redOp
  refine canonical_issue h fun x hx => ?_
  grind [Leaves, Leads, canonical_cxIssueOp]

theorem canonical_fenceOp {s : State} (h : s.Canonical) (sc kind : Nat) : Leads (fenceOp s sc kind) := by
  unfold fenceOp
  refine canonical_issue h fun x hx => ?_
  grind [Leaves, Leads, canonical_iff, canonical_cxDone, canonical_updWarp, canonical_trapNow, canonical_pushLines]

theorem canonical_monitorWord {s : State} (h : s.Canonical) (c : Ctx) (w : Warp) (va n : Nat) :
    Leaves NoState (AtSnd State.Canonical) (monitorWord s c w va n) := by
  unfold monitorWord
  grind [Leaves, leaves_readChunk]

theorem canonical_execMMwait {s : State} (h : s.Canonical) (o a b : Nat) : Leads (execMMwait o a b s) := by
  unfold execMMwait
  refine canonical_issue h fun x hx => ?_
  grind [Leaves, Leads, canonical_iff, canonical_cxDone, canonical_monitorWord, canonical_traceRead, canonical_cxWait]

theorem canonical_monitorEnd {s : State} (h : s.Canonical) (w : Warp) (cause addr : Nat) : (monitorEnd s w cause addr).Canonical := by
  unfold monitorEnd
  grind [canonical_endWith]

theorem canonical_execMonitorWake {s : State} (h : s.Canonical) (warp lane : Nat) : Leads (execMonitorWake warp lane s) := by
  unfold execMonitorWake
  grind [Leads, canonical_monitorEnd, canonical_completeWait]

theorem canonical_execMonitorReread {s : State} (h : s.Canonical) (warp lane : Nat) : Leads (execMonitorReread warp lane s) := by
  unfold execMonitorReread
  split
  · exact h
  · split
    · split <;> grind [Leads, canonical_endWith, canonical_completeWait]
    · exact h

theorem canonical_execMPgreq {s : State} (h : s.Canonical) (a : Nat) : Leads (execMPgreq a s) := by
  unfold execMPgreq
  refine canonical_issue h fun x hx => ?_
  grind [Leaves, Leads, canonical_requestPages, canonical_cxDone]

theorem canonical_execMPgprobe {s : State} (h : s.Canonical) (d a : Nat) : Leads (execMPgprobe d a s) := by
  unfold execMPgprobe
  refine canonical_issue h fun x hx => ?_
  grind [Leaves, Leads, canonical_cxIssueOp]

theorem canonical_execMPref {s : State} (h : s.Canonical) (a : Nat) : Leads (execMPref a s) := by
  unfold execMPref
  refine canonical_issue h fun x hx => ?_
  grind [Leaves, Leads, canonical_cxDone]

theorem canonical_performProbe {s : State} (h : s.Canonical) (w : Warp) (o : Op) (p : Part) : (performProbe s w o p).Canonical := by
  unfold performProbe
  split <;> exact h

theorem canonical_execLoadRetire {s : State} (h : s.Canonical) (op lanes : Nat) : Leads (execLoadRetire op lanes s) := by
  unfold execLoadRetire
  grind [Leads, canonical_performOp, canonical_performLoad, canonical_performProbe]

theorem canonical_execStorePerform {s : State} (h : s.Canonical) (op lanes : Nat) : Leads (execStorePerform op lanes s) := by
  unfold execStorePerform
  grind [Leads, canonical_pushLines, canonical_performOp, canonical_performStore]

theorem canonical_execAtomicPerform {s : State} (h : s.Canonical) (op lanes : Nat) : Leads (execAtomicPerform op lanes s) := by
  unfold execAtomicPerform
  grind [Leads, canonical_performOp, canonical_performAtomic]

theorem canonical_applyPartial {s : State} (h : s.Canonical) (core : Nat) (p : Partial) : (applyPartial s core p).Canonical := by
  unfold applyPartial
  grind [canonical_iff, canonical_mergeLine]

theorem canonical_placeLocal {s : State} (h : s.Canonical) (w : Warp) (o : Op) (fn : AtomFn) (l : Leaf) (c : Ctx) (p : Part) :
    (placeLocal s w o fn l c p).Canonical := by
  unfold placeLocal
  extract_lets mine v finish
  have hfinish (s : State) (h : s.Canonical) : (finish s).Canonical :=
    foldl_keeps (fun _ _ k => canonical_setPart (canonical_traceWrite k ..) ..) _ _ h
  clear_value finish v
  have hprep := leaves_prepareWrite h c l p.va
  split
  · have hr (e : AccErr) := canonical_refusal h w p e
    grind [Performed.Canonical, canonical_setPart]
  · rename_i t ht
    have kt : t.Canonical := hprep.ok ht
    split
    · exact h
    · rename_i pa _
      have hr := canonical_performRmw kt w p ⟨.hbm pa, some l⟩ false (fun old => some (fn.apply old v))
      extract_lets direct
      split
      · exact hfinish _ (canonical_applyPartial kt ..)
      · split <;> grind [Performed.Canonical, canonical_setPart]

theorem canonical_placeParts {oid : Nat} {fn : AtomFn} : ∀ (ls : List Nat) {s : State}, s.Canonical → (placeParts oid fn s ls).Canonical
  | [], _, h => h
  | l :: ls, s, h => by
    have ih : ∀ {s : State}, s.Canonical → (placeParts oid fn s ls).Canonical := canonical_placeParts ls
    have hsingle := canonical_performParts (fun s w o p k => canonical_performAtomic (s := s) k w o p) (oid := oid) [l] h
    unfold placeParts
    split
    · exact h
    · split
      · apply ih
        grind [canonical_placeLocal]
      · exact ih h

theorem canonical_execReductionPlace {s : State} (h : s.Canonical) (op lanes : Nat) : Leads (execReductionPlace op lanes s) := by
  unfold execReductionPlace
  grind [Leads, canonical_retireOp, canonical_placeParts]

theorem canonical_execUpdateLineMerge {s : State} (h : s.Canonical) (core line : Nat) : Leads (execUpdateLineMerge core line s) := by
  unfold execUpdateLineMerge
  exact canonical_mergeParts (s := { s with lines := s.lines.filter (fun l => !(l.core == core && l.line == line)) }) (h.congr rfl rfl) _

theorem canonical_execPageWaitRetry {s : State} (h : s.Canonical) (warp lane : Nat) : Leads (execPageWaitRetry warp lane s) := by
  unfold execPageWaitRetry
  grind [Leads, canonical_endWait, canonical_requestPages]

end Sys2Proof.Machine
end

section
/-! SUPPORT. O57: the engines keep memory canonical. -/

namespace Sys2Proof.Machine

set_option Elab.async false

/-! ### Engine commands -/

theorem canonical_readParam {s : State} (h : s.Canonical) (w : Warp) (l va n align : Nat) :
    Leaves NoState (AtSnd State.Canonical) (readParam s w l va n align) := by
  unfold readParam
  grind [Leaves, leaves_readMem, canonical_traceRead]

theorem canonical_electedAfter {s : State} (h : s.Canonical) {i : Info} {p n align : Nat} {idle : Cx → Except Stop State}
    {first : Cx → Nat → Except Stop Unit} {body : Cx → Nat → Nat → List Nat → Except Stop State}
    (hidle : ∀ x : Cx, x.s.Canonical → Leaves NoState State.Canonical (idle x))
    (hbody : ∀ (x : Cx) l va bytes, x.s.Canonical → Leaves NoState State.Canonical (body x l va bytes)) :
    Leads (electedAfter s i p n align idle first body) := by
  unfold electedAfter
  refine canonical_issue h fun x hx => ?_
  split
  · exact hidle x hx
  · grind [Leaves, canonical_readParam, canonical_trapNow]

theorem canonical_elected {s : State} (h : s.Canonical) {i : Info} {p n align : Nat} {idle : Cx → Except Stop State}
    {body : Cx → Nat → Nat → List Nat → Except Stop State} (hidle : ∀ x : Cx, x.s.Canonical → Leaves NoState State.Canonical (idle x))
    (hbody : ∀ (x : Cx) l va bytes, x.s.Canonical → Leaves NoState State.Canonical (body x l va bytes)) :
    Leads (elected s i p n align idle body) := canonical_electedAfter h hidle hbody

theorem canonical_clearTag {s : State} (h : s.Canonical) (w : Warp) (tag : Option Nat) : (clearTag s w tag).Canonical := by
  unfold clearTag
  grind [canonical_updCtx]

theorem canonical_cxIssueCommand {x : Cx} (h : x.s.Canonical) (k : Nat) (tag : Option Nat) (c : Command) :
    Leaves NoState State.Canonical (x.issueCommand k tag c) := by
  unfold Cx.issueCommand
  split
  · trivial
  · exact canonical_cxDone (canonical_clearTag (canonical_addOp h ..) ..) ..

theorem canonical_cxIdleCommand {x : Cx} (h : x.s.Canonical) (k : Nat) (tag : Option Nat) :
    Leaves NoState State.Canonical (x.idleCommand k tag) := by
  unfold Cx.idleCommand
  split
  · trivial
  · exact canonical_retireAll (canonical_cxDone (canonical_clearTag (canonical_addOp h ..) ..) ..) _ _

theorem canonical_expectSignal {s : State} (h : s.Canonical) (w : Warp) (bytes : List Nat) :
    AtFst State.Canonical (expectSignal s w bytes) := by
  unfold expectSignal
  grind [canonical_iff, canonical_needBar]

theorem canonical_makeSignal {s : State} (h : s.Canonical) (signal : Option Nat) : (makeSignal s signal).Canonical := by
  unfold makeSignal
  grind [canonical_iff]

/-- The state that an engine's refused access holds is canonical. -/
def EngErr.Canonical : EngErr → Prop
  | .acc s _ => s.Canonical
  | .fault s _ _ => s.Canonical

theorem canonical_engPiece {s : State} (h : s.Canonical) (w : Warp) (va n : Nat) :
    Leaves EngErr.Canonical (AtSnd State.Canonical) (engPiece s w va n) := by
  unfold engPiece
  grind [Leaves, EngErr.Canonical, canonical_iff, leaves_readMem]

theorem canonical_engPieces {w : Warp} {c : Command} : ∀ (ls : List (Nat × Nat)) {s : State}, s.Canonical →
    Leaves EngErr.Canonical (AtSnd State.Canonical) (engPieces w c s ls)
  | [], _, h => h
  | x :: ls, s, h => by
    have ih {s : State} (h : s.Canonical) := canonical_engPieces (w := w) (c := c) ls h
    unfold engPieces
    grind [Leaves, canonical_engPiece, canonical_traceRead]

theorem canonical_engRead {s : State} (h : s.Canonical) (w : Warp) (c : Command) (va n : Nat) :
    Leaves EngErr.Canonical (AtSnd State.Canonical) (engRead s w c va n) := by
  unfold engRead
  split
  · exact h
  · exact canonical_engPieces _ h

theorem canonical_engNat {s : State} (h : s.Canonical) (w : Warp) (c : Command) (va n : Nat) :
    Leaves EngErr.Canonical (AtSnd State.Canonical) (engNat s w c va n) := by
  unfold engNat
  grind [Leaves, canonical_engRead]

theorem canonical_engPut {s : State} (h : s.Canonical) (w : Warp) (oid : Nat) (c : Command) (va : Nat) (bytes : List Nat) :
    Leaves NoState State.Canonical (engPut s w oid c va bytes) := by
  unfold engPut
  grind [Leaves, leaves_writeMem, canonical_writeRemote]

theorem canonical_engPuts {w : Warp} {oid : Nat} {c : Command} :
    ∀ (ls : List (Nat × Nat)) (v1 : List Nat) {s : State}, s.Canonical → Leaves NoState State.Canonical (engPuts w oid c s v1 ls)
  | [], _, _, h => h
  | x :: ls, v1, s, h => by
    have ih : ∀ (v1 : List Nat) {s : State}, s.Canonical → Leaves NoState State.Canonical (engPuts w oid c s v1 ls) := canonical_engPuts ls
    unfold engPuts
    grind [Leaves, canonical_engPut]

theorem canonical_engWrite {s : State} (h : s.Canonical) (w : Warp) (oid : Nat) (c : Command) (va : Nat) (bytes : List Nat) :
    Leaves NoState State.Canonical (engWrite s w oid c va bytes) := by
  unfold engWrite
  grind [Leaves, canonical_engPuts, canonical_traceWrite]

theorem canonical_engReads {w : Warp} {c : Command} {n : Nat} :
    ∀ (ls : List Nat) {s : State}, s.Canonical → Leaves NoState (AtSnd State.Canonical) (engReads w c n s ls)
  | [], _, h => h
  | x :: ls, s, h => by
    have ih : ∀ {s : State}, s.Canonical → Leaves NoState (AtSnd State.Canonical) (engReads w c n s ls) := canonical_engReads ls
    unfold engReads
    grind [Leaves, canonical_engNat]

theorem canonical_writeRuns {w : Warp} {oid : Nat} {c : Command} :
    ∀ (ls : List Elem) {s : State}, s.Canonical → Leaves NoState State.Canonical (writeRuns w oid c s ls)
  | [], _, h => h
  | x :: ls, s, h => by
    have ih : ∀ {s : State}, s.Canonical → Leaves NoState State.Canonical (writeRuns w oid c s ls) := canonical_writeRuns ls
    unfold writeRuns
    grind [Leaves, canonical_engWrite]

theorem canonical_writeSectors {w : Warp} {oid : Nat} {c : Command} {es : List Elem} :
    ∀ (ls : List Nat) {s : State}, s.Canonical → Leaves NoState State.Canonical (writeSectors w oid c es s ls)
  | [], _, h => h
  | x :: ls, s, h => by
    have ih : ∀ {s : State}, s.Canonical → Leaves NoState State.Canonical (writeSectors w oid c es s ls) := canonical_writeSectors ls
    unfold writeSectors
    grind [Leaves, canonical_writeRuns]

theorem canonical_writeTile {s : State} (h : s.Canonical) (w : Warp) (oid : Nat) (c : Command) (es : List Elem) :
    Leaves NoState State.Canonical (writeTile s w oid c es) := by
  unfold writeTile
  grind [Leaves, canonical_writeSectors]

theorem canonical_copyElems {s : State} (h : s.Canonical) (w : Warp) (oid : Nat) (c : Command) (n : Nat) (from_ to_ : List Nat) :
    Leaves NoState State.Canonical (copyElems s w oid c n from_ to_) := by
  unfold copyElems
  grind [Leaves, canonical_engReads, canonical_writeTile]

/-- A change of a block that leaves its scratchpad and its tiles. -/
theorem canonical_updBlock {s : State} (h : s.Canonical) (id : Nat) {f : Block → Block} (hs : ∀ b, (f b).scratch = b.scratch)
    (ht : ∀ b, (f b).tiles = b.tiles) : (s.updBlock id f).Canonical :=
  h.updBlock _ _ fun b h1 h2 => ⟨hs b ▸ h1, ht b ▸ h2⟩

theorem canonical_asPinned {s : State} (h : s.Canonical) (w : Warp) : (asPinned s w).Canonical := by
  unfold asPinned
  split
  · exact h
  · exact canonical_updBlock h _ (fun _ => rfl) fun _ => rfl

theorem canonical_pinsOf {s : State} (h : s.Canonical) (s0 : State) (w : Warp) : (pinsOf s0 s w).Canonical := by
  unfold pinsOf
  split
  · exact h
  · exact canonical_updBlock h _ (fun _ => rfl) fun _ => rfl

theorem canonical_whilePinned {s : State} (h : s.Canonical) (w : Warp) {f : State → State} (hf : ∀ s, s.Canonical → (f s).Canonical) :
    (whilePinned s w f).Canonical := canonical_pinsOf (hf _ (canonical_asPinned h w)) _ _

theorem canonical_payRestart {s : State} (h : s.Canonical) (w : Warp) (oid : Nat) (c : Command) :
    AtFst State.Canonical (payRestart s w oid c) := by
  unfold payRestart
  grind [Leaves, canonical_iff, leaves_writeMem, canonical_asPinned, canonical_pinsOf, canonical_requestPage, canonical_writeRemote,
    canonical_endWith]

theorem canonical_putRestart {s : State} (h : s.Canonical) (w : Warp) (oid : Nat) (c : Command) (v : Nat) :
    AtFst State.Canonical (putRestart s w oid c v) := by
  unfold putRestart
  grind [canonical_iff, canonical_payRestart]

theorem canonical_attempt {α : Type} {s : State} (h : s.Canonical) (oid : Nat) {f : State → Except EngErr (State × α)}
    (hf : ∀ s, s.Canonical → Leaves NoState (AtFst State.Canonical) (f s)) :
    Leaves NoState (AtFst State.Canonical) (attempt s oid f) := by
  have := hf _ (canonical_asReader h oid)
  unfold attempt
  grind [Leaves, canonical_dropBrought]

theorem canonical_setCommand {s : State} (h : s.Canonical) (o : Op) (c : Command) : (setCommand s o c).Canonical := by
  unfold setCommand
  grind [canonical_iff, canonical_setOp]

/-! ### Copies -/

theorem canonical_execETdset {s : State} (h : s.Canonical) (p : Nat) : Leads (execETdset p s) := by
  unfold execETdset
  refine canonical_elected h (fun x hx => ?_) fun x l va bytes hx => ?_
  · grind [Leaves, Leads, canonical_iff, canonical_cxDone, canonical_updCtx]
  · grind [Leaves, Leads, canonical_iff, canonical_cxDone, canonical_updCtx]

theorem canonical_execECpy {s : State} (h : s.Canonical) (p t sw : Nat) : Leads (execECpy p t sw s) := by
  unfold execECpy
  refine canonical_elected h (fun x hx => canonical_cxIdleCommand hx ..) fun x l va bytes hx => ?_
  extract_lets rows cols
  split
  · exact leaves_error _
  · split
    · exact leaves_error _
    · refine leaves_unless ?_
      split
      · exact leaves_error _
      · refine leaves_unless ?_
        extract_lets c from_ to_ total
        split
        · exact leaves_error _
        · refine leaves_unless (leaves_unless ?_)
          split
          · exact leaves_error _
          · split
            · exact leaves_error _
            · exact canonical_cxIssueCommand (x := { x with s := _ }) (canonical_expectSignal hx ..) ..

theorem canonical_cpyPrepare {s : State} (h : s.Canonical) (w : Warp) (c : Command) :
    Leaves NoState (AtFst State.Canonical) (cpyPrepare s w c) := by
  unfold cpyPrepare
  grind [Leaves, canonical_iff, canonical_engReads]

theorem canonical_cpyUnit {s : State} (h : s.Canonical) (w : Warp) (oid : Nat) (c : Command) :
    Leaves NoState (AtFst State.Canonical) (cpyUnit s w oid c) := by
  unfold cpyUnit
  grind [Leaves, canonical_iff, canonical_writeSectors]

theorem canonical_execEGath {s : State} (h : s.Canonical) (p t : Nat) : Leads (execEGath p t s) := by
  unfold execEGath
  refine canonical_elected h (fun x hx => ?_) fun x l va bytes hx => ?_
  · grind [Leaves, Leads, canonical_iff, canonical_cxIdleCommand, canonical_expectSignal, canonical_cxIssueCommand]
  · grind [Leaves, Leads, canonical_iff, canonical_cxIdleCommand, canonical_expectSignal, canonical_cxIssueCommand]

theorem canonical_readBatch {s : State} (h : s.Canonical) (w : Warp) (c : Command) :
    Leaves NoState (AtSnd State.Canonical) (readBatch s w c) := canonical_engReads _ h

theorem canonical_statusOk {s : State} (h : s.Canonical) (w : Warp) (oid : Nat) (c : Command) (batch v : Nat) :
    Leaves NoState NoState (statusOk s w oid c batch v) := by
  have := canonical_engWrite h w oid c (fieldAt c.params 48 8 + batch) [v]
  unfold statusOk
  grind [Leaves]

theorem canonical_putStatus {s : State} (h : s.Canonical) (w : Warp) (oid : Nat) (c : Command) :
    Leaves NoState State.Canonical (putStatus s w oid c) := by
  unfold putStatus
  grind [Leaves, canonical_engWrite]

theorem canonical_gathRows {w : Warp} {c : Command} {tbl : Tensor} {dst : Tensor} :
    ∀ (ls : List (Nat × Nat)) {s : State}, s.Canonical → Leaves NoState (AtSnd State.Canonical) (gathRows w c tbl dst s ls)
  | [], _, h => h
  | x :: ls, s, h => by
    have ih : ∀ {s : State}, s.Canonical → Leaves NoState (AtSnd State.Canonical) (gathRows w c tbl dst s ls) := canonical_gathRows ls
    unfold gathRows
    grind [Leaves, canonical_engReads]

theorem canonical_gathBatches {w : Warp} {oid : Nat} {c : Command} {tbl dst : Tensor} : ∀ (ls : List Nat) {s : State}, s.Canonical →
    Leaves NoState (AtSnd (AtSnd State.Canonical)) (gathBatches w oid c tbl dst s ls)
  | [], _, h => h
  | b :: ls, s, h => by
    have ih {s : State} (h : s.Canonical) := canonical_gathBatches (w := w) (oid := oid) (c := c) (tbl := tbl) (dst := dst) ls h
    have hb := canonical_readBatch h w { c with progress := b }
    unfold gathBatches
    split
    · grind [Leaves]
    · rename_i t ht
      have kt : t.Canonical := hb.ok ht
      grind [Leaves, canonical_statusOk, canonical_gathRows]

theorem canonical_gathUnit {s : State} (h : s.Canonical) (w : Warp) (oid : Nat) (c : Command) :
    Leaves NoState (AtFst State.Canonical) (gathUnit s w oid c) := by
  unfold gathUnit
  grind [Leaves, canonical_iff, canonical_gathBatches, canonical_writeTile]

theorem canonical_execEScat {s : State} (h : s.Canonical) (o p t : Nat) : Leads (execEScat o p t s) := by
  unfold execEScat
  refine canonical_elected h (fun x hx => canonical_cxIdleCommand hx ..) fun x l va bytes hx => ?_
  extract_lets fn count cols even
  clear_value even fn
  split
  · exact leaves_error _
  · split
    · exact leaves_error _
    · refine leaves_unless ?_
      split
      · exact leaves_error _
      · exact leaves_unless (leaves_unless (leaves_unless (canonical_cxIssueCommand hx ..)))

theorem canonical_reduceHere {s : State} (h : s.Canonical) (w : Warp) (fn : AtomFn) (x : Item) :
    Leaves NoState State.Canonical (reduceHere s w fn x) := by
  unfold reduceHere
  split
  · exact h
  · rename_i c _
    have hr := leaves_readChunk h c w.block 3 x.1 x.2.1
    split
    · exact leaves_error _
    · rename_i t ht
      have kt : t.Canonical := hr.ok ht
      grind [Leaves, leaves_writeChunk]

theorem canonical_reduceItem {s : State} (h : s.Canonical) (w : Warp) (oid : Nat) (cmd : Command) (fn : AtomFn) (x : Item) :
    Leaves NoState State.Canonical (reduceItem s w oid cmd fn x) := by
  unfold reduceItem
  split
  · exact h
  · split
    · exact leaves_error _
    · split
      · exact leaves_error _
      · rename_i l _ _ _
        have hp := leaves_prepareWrite h ‹Ctx› l x.1
        split
        · exact leaves_error _
        · rename_i t ht
          have kt : t.Canonical := hp.ok ht
          split
          · split
            · exact canonical_reduceHere kt ..
            · exact canonical_applyPartial kt ..
          · exact canonical_reduceHere kt ..
    · exact leaves_error _
    · grind [Leaves, canonical_submit]
    · exact leaves_error _
    · exact leaves_error _
    · exact canonical_reduceHere h ..

theorem canonical_reduceItems {w : Warp} {c : Command} {oid : Nat} {fn : AtomFn} :
    ∀ (ls : List Item) {s : State}, s.Canonical → Leaves NoState State.Canonical (reduceItems w c oid fn s ls)
  | [], _, h => h
  | x :: ls, s, h => by
    have ih : ∀ {s : State}, s.Canonical → Leaves NoState State.Canonical (reduceItems w c oid fn s ls) := canonical_reduceItems ls
    unfold reduceItems
    grind [Leaves, canonical_reduceItem, canonical_traceWrite]

theorem canonical_scatItems {w : Warp} {oid : Nat} {c : Command} {fn : AtomFn} : ∀ (ls : List Item) (done : List Item) {s : State},
    s.Canonical → Leaves NoState (AtFst State.Canonical) (scatItems w oid c fn s done ls)
  | [], _, _, h => h
  | x :: xs, done, s, h => by
    have ih (done : List Item) {s : State} (h : s.Canonical) := canonical_scatItems (w := w) (oid := oid) (c := c) (fn := fn) xs done h
    have hr := canonical_reduceItems (w := w) (c := c) (oid := oid) (fn := fn) [x] h
    unfold scatItems
    grind [Leaves]

theorem canonical_scatUnit {s : State} (h : s.Canonical) (w : Warp) (oid : Nat) (c : Command) :
    Leaves NoState (AtFst State.Canonical) (scatUnit s w oid c) := by
  unfold scatUnit
  split
  · have hb := canonical_readBatch h w c
    split
    · grind [Leaves]
    · rename_i t ht
      have kt : t.Canonical := hb.ok ht
      grind [Leaves, canonical_statusOk, canonical_engReads, canonical_scatItems]
  · exact h

theorem canonical_scatFinish {s : State} (h : s.Canonical) (w : Warp) (oid : Nat) (c : Command) :
    Leaves NoState State.Canonical (scatFinish s w oid c) := by
  unfold scatFinish
  grind [Leaves, canonical_reduceItems, canonical_putStatus]

/-! ### Matrix engine -/

theorem canonical_blockFormat {s : State} (h : s.Canonical) (w : Warp) (c : Command) (t : Tensor) (n : Nat) :
    Leaves NoState (AtSnd State.Canonical) (blockFormat s w c t n) := by
  unfold blockFormat
  grind [Leaves, canonical_engNat]

theorem canonical_blockScale {s : State} (h : s.Canonical) (w : Warp) (c : Command) (t : Tensor) (n : Nat) :
    Leaves NoState (AtSnd State.Canonical) (blockScale s w c t n) := by
  unfold blockScale
  split
  · exact h
  · exact (canonical_engNat h ..).value

theorem canonical_readLine {s : State} (h : s.Canonical) (w : Warp) (c : Command) (t : Tensor) (r k n : Nat) :
    Leaves NoState (AtSnd State.Canonical) (readLine s w c t r k n) := by
  unfold readLine
  grind [Leaves, canonical_blockFormat, canonical_blockScale, canonical_engReads]

theorem canonical_readPlain {s : State} (h : s.Canonical) (w : Warp) (c : Command) (t : Tensor) (addrs : List Nat) :
    Leaves NoState (AtSnd State.Canonical) (readPlain s w c t addrs) := by
  unfold readPlain
  grind [Leaves, canonical_engReads]

theorem canonical_execEMma {s : State} (h : s.Canonical) (p : Nat) : Leads (execEMma p s) := by
  unfold execEMma
  refine canonical_elected h (fun x hx => ?_) fun x l va bytes hx => ?_
  · grind [Leaves, Leads, canonical_cxIdleCommand, canonical_cxIssueCommand]
  · grind [Leaves, Leads, canonical_cxIdleCommand, canonical_cxIssueCommand]

theorem canonical_readLines {f : State → Nat × Nat → Except EngErr (Line × State)}
    (hf : ∀ s b, s.Canonical → Leaves NoState (AtSnd State.Canonical) (f s b)) : ∀ (ls : List (Nat × Nat)) {s : State},
    s.Canonical → Leaves NoState (AtSnd State.Canonical) (readLines f s ls)
  | [], _, h => h
  | b :: ls, s, h => by
    have ih {s : State} (h : s.Canonical) := canonical_readLines hf ls h
    have hb := hf s b h
    unfold readLines
    grind [Leaves]

theorem canonical_mmaRow {s : State} (h : s.Canonical) (w : Warp) (c : Command) (t : Tensor) (i : Nat) :
    Leaves NoState (AtSnd State.Canonical) (mmaRow s w c t i) := by
  refine canonical_readLines (fun s b h => ?_) _ h
  split
  · exact canonical_readLine h ..
  · exact canonical_readPlain h ..

theorem canonical_mmaKept {s : State} (h : s.Canonical) (w : Warp) (c : Command) (j : Nat) (b : Nat × Nat) :
    Leaves NoState (AtSnd State.Canonical) (mmaKept s w c j b) := by
  unfold mmaKept
  grind [Leaves, canonical_engReads]

theorem canonical_mmaColumn {s : State} (h : s.Canonical) (w : Warp) (c : Command) (t : Tensor) (j : Nat) :
    Leaves NoState (AtSnd State.Canonical) (mmaColumn s w c t j) := by
  refine canonical_readLines (fun s b h => ?_) _ h
  have hline := canonical_readLine h w c t
  have hplain := canonical_readPlain h w c
  grind [Leaves, canonical_mmaKept]

theorem canonical_mmaOutput {w : Warp} {c : Command} {narrow : Bool} {t : Tensor} {a : List Line} :
    ∀ (ls : List (Nat × Nat)) {s : State}, s.Canonical → Leaves NoState (AtSnd State.Canonical) (mmaOutput w c narrow t a s ls)
  | [], _, h => h
  | x :: ls, s, h => by
    have ih : ∀ {s : State}, s.Canonical → Leaves NoState (AtSnd State.Canonical) (mmaOutput w c narrow t a s ls) := canonical_mmaOutput ls
    unfold mmaOutput
    grind [Leaves, canonical_mmaColumn]

theorem canonical_mmaUnit {s : State} (h : s.Canonical) (w : Warp) (oid : Nat) (c : Command) :
    Leaves NoState (AtFst State.Canonical) (mmaUnit s w oid c) := by
  unfold mmaUnit
  split
  · rename_i ta _ _ _
    extract_lets n at_
    have ha := canonical_mmaRow h w c ta c.progress
    split
    · exact ha.error ‹_›
    · rename_i a t ht
      have kt : t.Canonical := ha.ok ht
      have hp : Leaves NoState (AtSnd State.Canonical) (if mmaFlag c.params 0 then .ok (List.replicate n 0, t)
          else engReads w c 4 t ((List.range n).map (fun j => at_ + 4 * j))) := by
        split
        · exact kt
        · exact canonical_engReads _ kt
      split
      · exact hp.error ‹_›
      · have ku := hp.ok ‹_›
        grind [Leaves, canonical_mmaOutput, canonical_engWrite]
  · exact h

theorem canonical_storedBytes {rd : State → Nat → Nat → Except EngErr (List Nat × State)}
    (hrd : ∀ s a n, s.Canonical → Leaves NoState (AtSnd State.Canonical) (rd s a n)) : ∀ (ls : List Nat) {s : State},
    s.Canonical → Leaves NoState (AtSnd State.Canonical) (storedBytes rd s ls)
  | [], _, h => h
  | a :: ls, s, h => by
    have ih {s : State} (h : s.Canonical) := canonical_storedBytes hrd ls h
    have hb := hrd s a 1 h
    unfold storedBytes
    grind [Leaves]

theorem canonical_crcBlock {s : State} (h : s.Canonical) {rd : State → Nat → Nat → Except EngErr (List Nat × State)}
    (hrd : ∀ s a n, s.Canonical → Leaves NoState (AtSnd State.Canonical) (rd s a n)) (place : Nat → Nat) (t : Tensor)
    (r k : Nat) : Leaves NoState (AtSnd State.Canonical) (crcBlock rd place t s r k) := by
  unfold crcBlock
  extract_lets n
  have hb := hrd s (t.scaleb + 4 * n) 4 h
  split
  · exact hb.error ‹_›
  · have kt := hb.ok ‹_›
    have hs := @canonical_storedBytes _ hrd
    grind [Leaves]

theorem canonical_crcBlocks {rd : State → Nat → Nat → Except EngErr (List Nat × State)}
    (hrd : ∀ s a n, s.Canonical → Leaves NoState (AtSnd State.Canonical) (rd s a n)) {place : Nat → Nat} {t : Tensor} {k : Nat} :
    ∀ (ls : List Nat) {s : State}, s.Canonical → Leaves NoState (AtSnd State.Canonical) (crcBlocks rd place t k s ls)
  | [], _, h => h
  | r :: ls, s, h => by
    have ih {s : State} (h : s.Canonical) := canonical_crcBlocks hrd (place := place) (t := t) (k := k) ls h
    have hb := canonical_crcBlock h hrd place t r k
    unfold crcBlocks
    grind [Leaves]

theorem canonical_trailerOk {s : State} (h : s.Canonical) (w : Warp) (c : Command) (t : Tensor) :
    Leaves NoState (AtSnd State.Canonical) (trailerOk s w c t) := by
  have hcrc := @canonical_crcBlocks (fun s a n => engRead s w c a n) (fun _ _ _ k => (canonical_engRead k ..).value)
  unfold trailerOk
  grind [Leaves, canonical_engRead]

theorem canonical_mmaPrepare {s : State} (h : s.Canonical) (w : Warp) (c : Command) :
    Leaves NoState (AtFst State.Canonical) (mmaPrepare s w c) := by
  unfold mmaPrepare
  grind [Leaves, canonical_iff, canonical_trailerOk]

theorem canonical_execEMsrch {s : State} (h : s.Canonical) (p : Nat) : Leads (execEMsrch p s) := by
  unfold execEMsrch
  refine canonical_elected h (fun x hx => canonical_cxIdleCommand hx ..) fun x l va bytes hx => ?_
  extract_lets k n
  split
  · exact leaves_error _
  · split
    · exact leaves_error _
    · refine leaves_unless ?_
      split
      · exact leaves_error _
      · refine leaves_unless ?_
        split
        · exact leaves_error _
        · exact leaves_unless (leaves_unless (leaves_unless (leaves_unless (canonical_cxIssueCommand hx ..))))

theorem canonical_msrchUnit {s : State} (h : s.Canonical) (w : Warp) (oid : Nat) (c : Command) :
    Leaves NoState (AtFst State.Canonical) (msrchUnit s w oid c) := by
  unfold msrchUnit
  grind [Leaves, canonical_iff, canonical_engReads, canonical_writeTile]

theorem canonical_execEQuant {s : State} (h : s.Canonical) (p : Nat) : Leads (execEQuant p s) := by
  unfold execEQuant
  refine canonical_elected h (fun x hx => canonical_cxIdleCommand hx ..) fun x l va bytes hx => ?_
  extract_lets m n
  split
  · exact leaves_error _
  · split
    · exact leaves_error _
    · refine leaves_unless ?_
      split
      · exact leaves_error _
      · refine leaves_unless ?_
        split
        · exact leaves_error _
        · exact canonical_cxIssueCommand hx ..

theorem canonical_quantRow {s : State} (h : s.Canonical) (w : Warp) (c : Command) (i : Nat) :
    Leaves NoState (AtSnd State.Canonical) (quantRow s w c i) := canonical_engReads _ h

theorem canonical_putTag {s : State} (h : s.Canonical) (w : Warp) (oid : Nat) (c : Command) (t : Tensor) (n tag : Nat) :
    Leaves NoState State.Canonical (putTag s w oid c t n tag) := by
  unfold putTag
  grind [Leaves, canonical_engNat, canonical_engWrite]

theorem canonical_quantBlocks {w : Warp} {oid : Nat} {c : Command} {t : Tensor} {f : Fmt} : ∀ (ls : List Nat) {s : State}, s.Canonical →
    Leaves NoState (AtSnd State.Canonical) (quantBlocks w oid c t f s ls)
  | [], _, h => h
  | i :: ls, s, h => by
    have ih {s : State} (h : s.Canonical) := canonical_quantBlocks (w := w) (oid := oid) (c := c) (t := t) (f := f) ls h
    unfold quantBlocks
    split
    · exact (canonical_quantRow h ..).error ‹_›
    · have kt := (canonical_quantRow h ..).ok ‹_›
      extract_lets n scale
      clear_value n scale
      grind [Leaves, canonical_engWrite, canonical_putTag]

theorem canonical_quantUnit {s : State} (h : s.Canonical) (w : Warp) (oid : Nat) (c : Command) :
    Leaves NoState (AtFst State.Canonical) (quantUnit s w oid c) := by
  unfold quantUnit
  grind [Leaves, canonical_iff, canonical_quantBlocks, canonical_writeTile]

theorem canonical_quantRows {w : Warp} {c : Command} :
    ∀ (ls : List Nat) {s : State}, s.Canonical → Leaves NoState (AtSnd State.Canonical) (quantRows w c s ls)
  | [], _, h => h
  | x :: ls, s, h => by
    have ih : ∀ {s : State}, s.Canonical → Leaves NoState (AtSnd State.Canonical) (quantRows w c s ls) := canonical_quantRows ls
    unfold quantRows
    grind [Leaves, canonical_quantRow]

theorem canonical_putTrailer {s : State} (h : s.Canonical) (w : Warp) (oid : Nat) (c : Command) :
    Leaves NoState State.Canonical (putTrailer s w oid c) := by
  have hcrc := @canonical_crcBlocks (fun s a n => engRead s w c a n) (fun _ _ _ k => (canonical_engRead k ..).value)
  unfold putTrailer
  grind [Leaves, canonical_quantRows, canonical_engWrite]

/-! ### Percolator -/

theorem canonical_kselIssue {s : State} (h : s.Canonical) (topk : Bool) (p t : Nat) : Leads (kselIssue s topk p t) := by
  unfold kselIssue
  refine canonical_elected h (fun x hx => ?_) fun x l va bytes hx => ?_
  · grind [Leaves, Leads, canonical_cxIdleCommand, canonical_cxIssueCommand]
  · grind [Leaves, Leads, canonical_cxIdleCommand, canonical_cxIssueCommand]

theorem canonical_pageBound {s : State} (h : s.Canonical) (w : Warp) (c : Command) (t : Tensor) (query : List Nat) (g : Nat) :
    Leaves NoState (AtSnd State.Canonical) (pageBound s w c t query g) := by
  unfold pageBound
  grind [Leaves, canonical_engRead]

theorem canonical_pageBounds {w : Warp} {c : Command} {t : Tensor} {query : List Nat} :
    ∀ (ls : List Nat) {s : State}, s.Canonical → Leaves NoState (AtSnd State.Canonical) (pageBounds w c t query s ls)
  | [], _, h => h
  | x :: ls, s, h => by
    have ih : ∀ {s : State}, s.Canonical → Leaves NoState (AtSnd State.Canonical) (pageBounds w c t query s ls) := canonical_pageBounds ls
    unfold pageBounds
    grind [Leaves, canonical_pageBound]

theorem canonical_kselQuery {s : State} (h : s.Canonical) (w : Warp) (c : Command) (t : Tensor) :
    Leaves NoState (AtSnd State.Canonical) (kselQuery s w c t) := by
  unfold kselQuery
  grind [Leaves, canonical_engReads]

theorem canonical_kselList {s : State} (h : s.Canonical) (w : Warp) (c : Command) (t : Tensor) (query : List Nat) :
    Leaves NoState (AtSnd State.Canonical) (kselList s w c t query) := by
  unfold kselList
  extract_lets list
  split
  · exact leaves_error _
  · rename_i n _ _
    have hl := canonical_engReads (w := w) (c := c) (n := 4) ((List.range (min n (fieldAt c.params 36 4))).map (fun i => list + 4 + 4 * i))
      ((canonical_engNat h w c list 4).ok ‹_›)
    split
    · exact leaves_error _
    · have ku := hl.ok ‹_›
      grind [Leaves, canonical_pageBounds]

theorem canonical_kselPrepare {s : State} (h : s.Canonical) (w : Warp) (c : Command) :
    Leaves NoState (AtFst State.Canonical) (kselPrepare s w c) := by
  unfold kselPrepare
  grind [Leaves, canonical_iff, canonical_kselQuery, canonical_kselList]

theorem canonical_kselUnit {s : State} (h : s.Canonical) (w : Warp) (c : Command) :
    Leaves NoState (AtFst State.Canonical) (kselUnit s w c) := by
  unfold kselUnit
  grind [Leaves, canonical_iff, canonical_pageBound]

theorem canonical_putList {s : State} (h : s.Canonical) (w : Warp) (oid : Nat) (c : Command) (n : Nat) (gs : List Nat) :
    Leaves NoState State.Canonical (putList s w oid c n gs) := by
  unfold putList
  grind [Leaves, canonical_engWrite]

theorem canonical_kselStop {s : State} (h : s.Canonical) (w : Warp) (oid : Nat) (c : Command) : (kselStop s w oid c).Canonical := by
  unfold kselStop
  grind [Leaves, canonical_putList]

theorem canonical_kselFinish {s : State} (h : s.Canonical) (w : Warp) (oid : Nat) (c : Command) :
    Leaves NoState (AtFst State.Canonical) (kselFinish s w oid c) := by
  unfold kselFinish
  grind [Leaves, canonical_putList]

theorem canonical_execEKgat {s : State} (h : s.Canonical) (p t : Nat) : Leads (execEKgat p t s) := by
  unfold execEKgat
  refine canonical_elected h (fun x hx => canonical_cxIdleCommand hx ..) fun x l va bytes hx => ?_
  split
  · exact leaves_error _
  · split
    · exact leaves_error _
    · refine leaves_unless ?_
      split
      · exact leaves_error _
      · refine leaves_unless ?_
        split
        · exact leaves_error _
        · split
          · exact leaves_error _
          · split
            · exact leaves_error _
            · exact canonical_cxIssueCommand (x := { x with s := _ }) (canonical_expectSignal hx ..) ..

theorem canonical_readEntries {w : Warp} {c : Command} : ∀ (ls : List Nat) {s : State}, s.Canonical →
    Leaves NoState (AtSnd State.Canonical) (readEntries w c s ls)
  | [], _, h => h
  | a :: ls, s, h => by
    have ih {s : State} (h : s.Canonical) := canonical_readEntries (w := w) (c := c) ls h
    have hn := canonical_engNat h w c a 4
    unfold readEntries
    split
    · exact hn.error ‹_›
    · exact leaves_error _
    · have kt := hn.ok ‹_›
      grind [Leaves]

theorem canonical_kgatPrepare {s : State} (h : s.Canonical) (w : Warp) (c : Command) :
    Leaves NoState (AtFst State.Canonical) (kgatPrepare s w c) := by
  unfold kgatPrepare
  grind [Leaves, canonical_iff, canonical_engNat, canonical_readEntries]

theorem canonical_kgatCopy {s : State} (h : s.Canonical) (w : Warp) (oid : Nat) (c : Command) (k src dst : Tensor) (entries : List Nat) :
    Leaves NoState State.Canonical (kgatCopy s w oid c k src dst entries) := by
  unfold kgatCopy
  grind [Leaves, canonical_copyElems]

theorem canonical_kgatBoth {s : State} (h : s.Canonical) (w : Warp) (oid : Nat) (c : Command) (k v kd vd : Tensor)
    (keys values : List Nat) :
    Leaves NoState State.Canonical (kgatBoth s w oid c k v kd vd keys values) := by
  unfold kgatBoth
  grind [Leaves, canonical_kgatCopy]

theorem canonical_kgatUnit {s : State} (h : s.Canonical) (w : Warp) (oid : Nat) (c : Command) :
    Leaves NoState (AtFst State.Canonical) (kgatUnit s w oid c) := by
  unfold kgatUnit
  grind [Leaves, canonical_iff, canonical_kgatBoth]

theorem canonical_execEKsum {s : State} (h : s.Canonical) (p t : Nat) : Leads (execEKsum p t s) := by
  unfold execEKsum
  refine canonical_elected h (fun x hx => ?_) fun x l va bytes hx => ?_
  · grind [Leaves, Leads, canonical_cxIdleCommand, canonical_cxIssueCommand]
  · grind [Leaves, Leads, canonical_cxIdleCommand, canonical_cxIssueCommand]

theorem canonical_ksumPrepare {s : State} (h : s.Canonical) (w : Warp) (c : Command) :
    Leaves NoState (AtFst State.Canonical) (ksumPrepare s w c) := by
  unfold ksumPrepare
  grind [Leaves, canonical_iff, canonical_engReads]

theorem canonical_ksumUnit {s : State} (h : s.Canonical) (w : Warp) (oid : Nat) (c : Command) :
    Leaves NoState (AtFst State.Canonical) (ksumUnit s w oid c) := by
  unfold ksumUnit
  grind [Leaves, canonical_iff, canonical_engWrite]

/-! ### Events of the engines -/

theorem canonical_prepare {s : State} (h : s.Canonical) (w : Warp) (c : Command) :
    Leaves NoState (AtFst State.Canonical) (prepare s w c) := by
  unfold prepare
  grind [Leaves, canonical_cpyPrepare, canonical_mmaPrepare, canonical_kselPrepare, canonical_kgatPrepare, canonical_ksumPrepare]

theorem canonical_doUnit {s : State} (h : s.Canonical) (w : Warp) (oid : Nat) (c : Command) :
    Leaves NoState (AtFst State.Canonical) (doUnit s w oid c) := by
  unfold doUnit
  grind [Leaves, canonical_cpyUnit, canonical_gathUnit, canonical_scatUnit, canonical_mmaUnit, canonical_msrchUnit, canonical_quantUnit,
    canonical_kselUnit, canonical_kgatUnit, canonical_ksumUnit]

theorem canonical_doFinish {s : State} (h : s.Canonical) (w : Warp) (oid : Nat) (c : Command) :
    Leaves NoState (AtFst State.Canonical) (doFinish s w oid c) := by
  unfold doFinish
  grind [Leaves, canonical_putStatus, canonical_scatFinish, canonical_putTrailer, canonical_kselFinish]

theorem canonical_lastPart {s : State} (h : s.Canonical) (w : Warp) (oid : Nat) (c : Command) :
    Leaves NoState (AtFst State.Canonical) (lastPart s w oid c) := by
  unfold lastPart
  grind [Leaves, canonical_doUnit, canonical_doFinish]

theorem canonical_stopWrites {s : State} (h : s.Canonical) (w : Warp) (oid : Nat) (c : Command) : (stopWrites s w oid c).Canonical := by
  have hstop := canonical_whilePinned h w (f := fun s => kselStop s w oid c) fun _ k => canonical_kselStop k ..
  unfold stopWrites
  split
  · exact hstop
  · exact hstop
  · exact h

theorem canonical_stopCommand {s : State} (h : s.Canonical) (w : Warp) (oid : Nat) (c : Command) :
    AtFst State.Canonical (stopCommand s w oid c) := by
  unfold stopCommand
  grind [canonical_putRestart, canonical_stopWrites]

theorem canonical_failCommand {r : State × Command} (h : r.1.Canonical) (o : Op) (f : OpFault) : (failCommand r o f).Canonical := by
  unfold failCommand
  split
  · exact canonical_setCommand h ..
  · exact canonical_closeOp h ..

theorem canonical_settleCommand {s : State} (h : s.Canonical) (w : Warp) (oid : Nat) (c : Command) :
    AtFst State.Canonical (settleCommand s w oid c) := by
  unfold settleCommand
  grind [Leaves, canonical_iff, canonical_putStatus, canonical_asPinned, canonical_pinsOf, canonical_scatFinish]

theorem canonical_failedReads {s : State} (h : s.Canonical) (e : EngErr) : (failedReads s e).Canonical := by
  unfold failedReads
  grind [canonical_keepReads]

theorem canonical_holdCommand {s : State} (h : s.Canonical) (w : Warp) (o : Op) (c : Command) (e : EngErr) :
    (holdCommand s w o c e).Canonical := by
  unfold holdCommand
  grind [Leaves, canonical_iff, canonical_stopCommand, canonical_requestPage, canonical_setCommand, canonical_askRemote,
    canonical_settleCommand, canonical_failedReads, canonical_failCommand, canonical_endWith]

theorem canonical_atBoundary {s : State} (h : s.Canonical) (op : Nat) (w : Warp) (oid : Nat) (c : Command) :
    AtFst State.Canonical (atBoundary op s w oid c) := by
  unfold atBoundary
  grind [canonical_putRestart]

theorem canonical_execEngineUnitWrite {s : State} (h : s.Canonical) (op : Nat) : Leads (execEngineUnitWrite op s) := by
  unfold execEngineUnitWrite
  grind [Leaves, Leads, canonical_atBoundary, canonical_setCommand, canonical_attempt, canonical_prepare, canonical_holdCommand,
    canonical_doUnit]

theorem canonical_execEngineStallResume {s : State} (h : s.Canonical) (op : Nat) : Leads (execEngineStallResume op s) := by
  unfold execEngineStallResume
  grind [Leads, canonical_iff, canonical_payRestart, canonical_setCommand]

theorem canonical_leaveCommand {s : State} (h : s.Canonical) (w : Warp) (o : Op) (c : Command) (fault : Option OpFault) :
    (leaveCommand s w o c fault).Canonical := by
  unfold leaveCommand
  grind [canonical_iff, canonical_payRestart, canonical_setCommand, canonical_closeOp, canonical_makeSignal]

theorem canonical_closeCommand {s : State} (h : s.Canonical) (w : Warp) (o : Op) (c : Command) (fault : Option OpFault) :
    (closeCommand s w o c fault).Canonical := by
  unfold closeCommand
  grind [canonical_iff, canonical_leaveCommand]

theorem canonical_completeCommand {s : State} (h : s.Canonical) (is : EngineOp → Bool) (op : Nat) :
    (completeCommand is op s).Canonical := by
  unfold completeCommand
  grind [Leaves, canonical_iff, canonical_retireOp, canonical_leaveCommand, canonical_closeCommand, canonical_attempt,
    canonical_lastPart, canonical_setCommand, canonical_holdCommand]

theorem canonical_execCpyComplete {s : State} (h : s.Canonical) (op : Nat) : Leads (execCpyComplete op s) := by
  unfold execCpyComplete
  grind [Leads, canonical_completeCommand]

theorem canonical_execGathComplete {s : State} (h : s.Canonical) (op : Nat) : Leads (execGathComplete op s) := by
  unfold execGathComplete
  grind [Leads, canonical_completeCommand]

theorem canonical_execScatComplete {s : State} (h : s.Canonical) (op : Nat) : Leads (execScatComplete op s) := by
  unfold execScatComplete
  grind [Leads, canonical_completeCommand]

theorem canonical_execMmaComplete {s : State} (h : s.Canonical) (op : Nat) : Leads (execMmaComplete op s) := by
  unfold execMmaComplete
  grind [Leads, canonical_completeCommand]

theorem canonical_execMsrchComplete {s : State} (h : s.Canonical) (op : Nat) : Leads (execMsrchComplete op s) := by
  unfold execMsrchComplete
  grind [Leads, canonical_completeCommand]

theorem canonical_execQuantComplete {s : State} (h : s.Canonical) (op : Nat) : Leads (execQuantComplete op s) := by
  unfold execQuantComplete
  grind [Leads, canonical_completeCommand]

theorem canonical_execKselComplete {s : State} (h : s.Canonical) (op : Nat) : Leads (execKselComplete op s) := by
  unfold execKselComplete
  grind [Leads, canonical_completeCommand]

theorem canonical_execKgatComplete {s : State} (h : s.Canonical) (op : Nat) : Leads (execKgatComplete op s) := by
  unfold execKgatComplete
  grind [Leads, canonical_completeCommand]

theorem canonical_execKsumInstall {s : State} (h : s.Canonical) (op : Nat) : Leads (execKsumInstall op s) := by
  unfold execKsumInstall
  grind [Leaves, Leads, canonical_attempt, canonical_ksumUnit, canonical_atBoundary, canonical_setCommand, canonical_holdCommand]

theorem canonical_execKsumComplete {s : State} (h : s.Canonical) (op : Nat) : Leads (execKsumComplete op s) := by
  unfold execKsumComplete
  grind [Leads, canonical_completeCommand]

theorem canonical_execTagSet {s : State} (h : s.Canonical) (op : Nat) : Leads (execTagSet op s) := by
  unfold execTagSet
  grind [Leads, canonical_completeCommand]

theorem canonical_execEngineFaultStop {s : State} (h : s.Canonical) (op : Nat) : Leads (execEngineFaultStop op s) := by
  unfold execEngineFaultStop
  grind [Leads, canonical_settleCommand, canonical_stopWrites, canonical_failCommand, canonical_putRestart, canonical_keepReads]

end Sys2Proof.Machine
end

section
/-! SUPPORT. O57: records, traces, builds and passes keep memory canonical. -/

namespace Sys2Proof.Machine

set_option Elab.async false

/-! ### Instructions that only compute -/

theorem canonical_uniformAlu {s : State} (h : s.Canonical) (i : Info) (op : Hints → Alu) : Leads (uniformAlu s i op) := by
  unfold uniformAlu
  refine canonical_issue h fun x hx => ?_
  grind [Leaves, Leads, canonical_cxDone]

theorem canonical_laneAlu {s : State} (h : s.Canonical) (i : Info) (op : Hints → Alu) (keep : Hints → Warp → Option RegForm) :
    Leads (laneAlu s i op keep) := by
  unfold laneAlu
  refine canonical_issue h fun x hx => ?_
  grind [Leaves, Leads, canonical_cxDone]

theorem canonical_perLaneAlu {s : State} (h : s.Canonical) (i : Info) (op : Hints → Alu) : Leads (perLaneAlu s i op) := by
  unfold perLaneAlu
  grind [Leads, canonical_laneAlu]

/-! ### Records and bins -/

theorem canonical_formWarp {s : State} (h : s.Canonical) (l : Launch) (entry die : Nat) (records : List Record) :
    (formWarp s l entry die records).Canonical := by
  unfold formWarp
  grind [canonical_iff]

theorem canonical_fillBin {s : State} (h : s.Canonical) (die launch entry : Nat) : (fillBin s die launch entry).Canonical := by
  unfold fillBin
  grind [canonical_iff, canonical_formWarp]

theorem canonical_toBin {s : State} (h : s.Canonical) (die launch entry ctx : Nat) (r : Record) :
    ∀ t, toBin s die launch entry ctx r = some t → State.Canonical t := by
  unfold toBin
  grind [canonical_iff, canonical_fillBin]

theorem canonical_placeRecord {s : State} (h : s.Canonical) (ctx launch entry die : Nat) (r : Record) :
    ∀ t, placeRecord s ctx launch entry die r = some t → State.Canonical t := by
  unfold placeRecord
  grind [canonical_iff, canonical_toBin, canonical_updCtx]

theorem canonical_execBinTimerExpiry {s : State} (h : s.Canonical) (die bin : Nat) : Leads (execBinTimerExpiry die bin s) := by
  unfold execBinTimerExpiry
  grind [Leads, canonical_iff, canonical_formWarp]

theorem canonical_execSpillRingMove {s : State} (h : s.Canonical) (ctx die : Nat) : Leads (execSpillRingMove ctx die s) := by
  unfold execSpillRingMove
  grind [Leads, canonical_iff, canonical_toBin, canonical_updCtx]

theorem canonical_putPart {s : State} (h : s.Canonical) (oid : Nat) (p : Part) : (putPart s oid p).Canonical := by
  unfold putPart
  grind [canonical_iff, canonical_setOp]

theorem canonical_readQuarter {s : State} (h : s.Canonical) (w : Warp) (o : Op) (p : Part) : (readQuarter s w o p).Canonical := by
  unfold readQuarter
  grind [Leaves, Performed.Canonical, canonical_traceRead, canonical_refusal, canonical_oldRead, canonical_asReader, leaves_readChunk,
    canonical_dropBrought, canonical_askRemote]

theorem canonical_readQuarters {w : Warp} {o : Op} : ∀ (n : Nat) {s : State} (p : Part), s.Canonical → (readQuarters w o n s p).Canonical
  | 0, _, _, h => h
  | n + 1, s, p, h => by
    have ih {s : State} (p : Part) (h : s.Canonical) := canonical_readQuarters (w := w) (o := o) n p h
    have hq := canonical_readQuarter h w o p
    unfold readQuarters
    grind [Performed.Canonical]

theorem canonical_placePart {s : State} (h : s.Canonical) (w : Warp) (oid : Nat) (p : Part) :
    AtFst State.Canonical (placePart s w oid p) := by
  unfold placePart
  split
  · exact h
  · split
    · exact canonical_endWith h ..
    · exact canonical_putPart h ..
    · exact h
    · exact h
    · extract_lets r
      have hc := canonical_countUpdate h w.launch true 1
      split
      · exact canonical_putPart h ..
      · grind [Leaves, canonical_endWith, canonical_putPart, canonical_placeRecord, canonical_requestPage]

theorem canonical_spawnLanes {oid : Nat} {one : Bool} : ∀ (ls : List Nat) {s : State}, s.Canonical → (spawnLanes oid one s ls).Canonical
  | [], _, h => h
  | l :: ls, s, h => by
    have ih {s : State} (h : s.Canonical) := canonical_spawnLanes (oid := oid) (one := one) ls h
    unfold spawnLanes
    split
    · exact h
    · rename_i w o _
      split
      · exact ih h
      · rename_i p _
        extract_lets place
        have hplace {s : State} (h : s.Canonical) (p : Part) (stop : Bool) : (place s p stop).Canonical := by
          have := canonical_placePart h w oid p
          grind
        clear_value place
        have hq := canonical_readQuarters (w := w) (o := o) (if one then 1 else 4 - p.got) p h
        grind [Performed.Canonical, canonical_putPart]

theorem canonical_spawnGo {s : State} (h : s.Canonical) (oid : Nat) (one : Bool) : (spawnGo s oid one).Canonical := by
  unfold spawnGo
  grind [canonical_pushLines, canonical_spawnLanes]

theorem canonical_spawnIssue {s : State} (h : s.Canonical) (i : Info) (p : Nat) (die : Option Nat) : Leads (spawnIssue s i p die) := by
  unfold spawnIssue
  refine canonical_issue h fun x hx => ?_
  extract_lets addr to_ dead
  clear_value addr to_ dead
  split
  · exact leaves_error _
  · split
    · exact leaves_error _
    · split
      · exact leaves_error _
      · grind [Leaves, canonical_cxIssueOp]

theorem canonical_logRefusals {ctx cause : Nat} : ∀ (ps : List Part) {s : State}, s.Canonical → (logRefusals s ctx cause ps).Canonical
  | [], _, h => h
  | p :: ps, s, h => by
    have ih {s : State} (h : s.Canonical) := canonical_logRefusals (ctx := ctx) (cause := cause) ps h
    unfold logRefusals
    grind [canonical_logEntry]

theorem canonical_execSpawnRetire {s : State} (h : s.Canonical) (op : Nat) : Leads (execSpawnRetire op s) := by
  unfold execSpawnRetire
  grind [Leads, canonical_spawnGo, canonical_closeOp, canonical_logRefusals, canonical_retireOp]

theorem canonical_execEEnq {s : State} (h : s.Canonical) (p q : Nat) : Leads (execEEnq p q s) := by
  unfold execEEnq
  refine canonical_electedAfter h (fun x hx => ?_) fun x l va bytes hx => ?_
  · grind [Leaves, Leads, canonical_cxIdleCommand, canonical_addOp, canonical_cxDone]
  · grind [Leaves, Leads, canonical_cxIdleCommand, canonical_addOp, canonical_cxDone]

theorem canonical_enqRefused {s : State} (h : s.Canonical) (w : Warp) (o : Op) (e : AccErr) : (enqRefused s w o e).Canonical := by
  unfold enqRefused
  grind [canonical_requestPage, canonical_endWith, canonical_closeOp]

theorem canonical_enqLost {s : State} (h : s.Canonical) (o : Op) (va : Nat) (r : Nat × List Nat) : (enqLost s o va r).Canonical := by
  unfold enqLost
  grind [canonical_closeOp]

theorem canonical_enqReserve {s : State} (h : s.Canonical) (w : Warp) (o : Op) (q : Queue) :
    Leaves State.Canonical (AtSnd State.Canonical) (enqReserve s w o q) := by
  unfold enqReserve
  grind [Leaves, canonical_asReader, canonical_dropBrought, canonical_submit, canonical_enqLost, leaves_readMem, canonical_enqRefused,
    canonical_writeWord64]

theorem canonical_enqRead {s : State} (h : s.Canonical) (w : Warp) (o : Op) (q : Queue) :
    Leaves State.Canonical (AtSnd State.Canonical) (enqRead s w o q) := by
  unfold enqRead
  grind [Leaves, canonical_iff, leaves_readMem, canonical_asReader, canonical_dropBrought, canonical_askRemote, canonical_enqLost,
    canonical_enqRefused]

theorem canonical_enqStore {s : State} (h : s.Canonical) (w : Warp) (o : Op) (va : Nat) (bytes : List Nat) :
    Leaves State.Canonical State.Canonical (enqStore s w o va bytes) := by
  unfold enqStore
  grind [Leaves, leaves_writeMem, canonical_writeRemote, canonical_enqLost, canonical_enqRefused]

theorem canonical_enqHeader {s : State} (h : s.Canonical) (w : Warp) (o : Op) (qn k slot : Nat) (image : List Nat) :
    (enqHeader s w o qn k slot image).Canonical := by
  unfold enqHeader
  grind [Leaves, canonical_iff, canonical_enqStore, canonical_setOp]

theorem canonical_execEnqRetire {s : State} (h : s.Canonical) (op : Nat) : Leads (execEnqRetire op s) := by
  unfold execEnqRetire
  rw [Leads]
  split
  · exact h
  · split
    · split
      · exact canonical_retireOp h ..
      · split
        · exact h
        · split
          · exact canonical_closeOp h ..
          · split
            · grind [Leaves, canonical_enqReserve, canonical_setOp]
            · split
              · exact canonical_closeOp (canonical_kickQueue h ..) ..
              · split
                · exact canonical_enqHeader h ..
                · grind [Leaves, canonical_enqRead, canonical_enqStore, canonical_enqHeader, canonical_setOp]
    · exact h

/-! ### Accesses of the device -/

theorem canonical_devRead {s : State} (h : s.Canonical) (ctx va n : Nat) : Leaves NoState (AtSnd State.Canonical) (devRead s ctx va n) := by
  unfold devRead
  grind [Leaves, leaves_readMem]

theorem canonical_devWrite {s : State} (h : s.Canonical) (ctx va : Nat) (bytes : List Nat) :
    Leaves NoState State.Canonical (devWrite s ctx va bytes) := by
  unfold devWrite
  grind [Leaves, leaves_deviceStore]

theorem canonical_onDevice {s : State} (h : s.Canonical) (ctx : Nat) (e : AccErr) {fail : Nat → Nat → State}
    (hf : ∀ c a, (fail c a).Canonical) : (onDevice s ctx e fail).Canonical := by
  unfold onDevice
  grind [canonical_requestPage, canonical_endWith]

theorem canonical_storeDone {s : State} (h : s.Canonical) (ctx va v : Nat) :
    Leaves State.Canonical State.Canonical (storeDone s ctx va v) := by
  have hw := canonical_devWrite h ctx va (natLe 8 v)
  unfold storeDone
  split
  · exact h
  · split
    · exact hw.ok ‹_›
    · exact canonical_onDevice h _ _ fun _ _ => canonical_endWith h ..

/-! ### Trace records -/

theorem canonical_writeRecord {s : State} (h : s.Canonical) (l : Launch) (b : Nat) : (writeRecord s l b).Canonical := by
  unfold writeRecord
  extract_lets va fail t tracked
  have hfail {s : State} (h : s.Canonical) : (fail s).Canonical := canonical_endWith h ..
  have hw := canonical_devWrite h l.ctx va (traceBytes l.generation t)
  split
  · exact hfail h
  · split
    · exact canonical_onDevice h _ _ fun _ _ => hfail h
    · exact canonical_updLaunch (hw.ok ‹_›) ..

theorem canonical_writeRecords {lid : Nat} : ∀ (bs : List Nat) {s : State}, s.Canonical → (writeRecords lid s bs).Canonical
  | [], _, h => h
  | b :: bs, s, h => by
    have ih {s : State} (h : s.Canonical) := canonical_writeRecords (lid := lid) bs h
    unfold writeRecords
    grind [canonical_writeRecord]

theorem canonical_flushTraces {s : State} (h : s.Canonical) (lid : Nat) : (flushTraces s lid).Canonical := by
  unfold flushTraces
  grind [canonical_writeRecords]

/-! ### Builds -/

theorem canonical_buildRead {s : State} (h : s.Canonical) (b : Build) (va n : Nat) :
    Leaves NoState (AtSnd State.Canonical) (buildRead s b va n) := by
  unfold buildRead
  grind [Leaves, canonical_iff, leaves_readMem, canonical_traceRead]

theorem canonical_buildWrite {s : State} (h : s.Canonical) (b : Build) (va : Nat) (bytes : List Nat) :
    Leaves NoState State.Canonical (buildWrite s b va bytes) := by
  unfold buildWrite
  refine leaves_unless ?_
  extract_lets traced
  have htraced {s : State} (h : s.Canonical) : (traced s).Canonical := canonical_traceWrite h ..
  clear_value traced
  have hw := leaves_writeMem h b.ctx b.block 3 va bytes
  grind [Leaves, canonical_writeRemote]

theorem canonical_readSamples {b : Build} {g : Geom} : ∀ (ls : List Nat) {s : State}, s.Canonical →
    Leaves (AtFst State.Canonical) (AtSnd State.Canonical) (readSamples b g s ls)
  | [], _, h => h
  | i :: ls, s, h => by
    have ih {s : State} (h : s.Canonical) := canonical_readSamples (b := b) (g := g) ls h
    have hr := canonical_buildRead h b (b.setAddr + 256 + 16 * i) 8
    unfold readSamples
    split
    · exact h
    · have ht := ih (hr.ok ‹_›)
      grind [Leaves]

theorem canonical_writeUpTo {b : Build} :
    ∀ (ls : List Elem) {s : State}, s.Canonical → (AtFst State.Canonical) (writeUpTo b s ls)
  | [], _, h => h
  | x :: ls, s, h => by
    have ih : ∀ {s : State}, s.Canonical → (AtFst State.Canonical) (writeUpTo b s ls) := canonical_writeUpTo ls
    unfold writeUpTo
    grind [Leaves, canonical_buildWrite]

theorem canonical_runBuild {s : State} (h : s.Canonical) (b : Build) : AtFst State.Canonical (runBuild s b) := by
  unfold runBuild
  grind [Leaves, canonical_readSamples, canonical_keepReads, canonical_writeUpTo]

theorem canonical_dropBuild {s : State} (h : s.Canonical) (b : Build) : (dropBuild s b).Canonical := by
  unfold dropBuild
  grind [canonical_iff, canonical_flushTraces]

theorem canonical_keepBuild {s : State} (h : s.Canonical) (b : Build) (left : List Nat) (f : Option OpFault) (v : Nat) :
    (keepBuild s b left f v).Canonical := by
  unfold keepBuild
  grind [canonical_iff]

theorem canonical_closeRecord {s : State} (h : s.Canonical) (b : Build) (v : Nat) : (closeRecord s b v).Canonical := by
  unfold closeRecord
  grind [Leaves, canonical_storeDone, canonical_dropBuild, canonical_keepBuild]

theorem canonical_buildEnd {s : State} (h : s.Canonical) (b : Build) (f : Option OpFault) : (buildEnd s b f).Canonical := by
  unfold buildEnd
  grind [canonical_keepBuild, canonical_closeOp, canonical_dropBuild, canonical_closeRecord, canonical_logFault]

theorem canonical_buildFailed {s : State} (h : s.Canonical) (b : Build) (f : OpFault) : (buildFailed s b f).Canonical := by
  have hw := canonical_buildWrite h b (b.setAddr + 29) [3]
  unfold buildFailed
  split
  · exact canonical_buildEnd (hw.ok ‹_›) ..
  · exact canonical_requestPage (canonical_keepBuild h ..) ..
  · exact canonical_keepBuild h ..
  · exact canonical_onDevice h _ _ fun _ _ => canonical_buildEnd h ..

theorem canonical_buildLost {s : State} (h : s.Canonical) (b : Build) (f : OpFault) : (buildLost s b f).Canonical := by
  unfold buildLost
  grind [canonical_buildFailed]

theorem canonical_buildHeld {s0 s1 : State} (h : s0.Canonical) (h1 : s1.Canonical) (b : Build) (e : AccErr) :
    (buildHeld s0 s1 b e).Canonical := by
  unfold buildHeld
  split
  · exact canonical_requestPage h ..
  · exact h
  · split
    · exact h
    · rename_i va peer addr n _ c _
      have hask := canonical_askRemote h c (b.warp s0) b.user 0 va peer addr n
      split
      · exact hask.ok ‹_›
      · exact canonical_buildFailed h1 ..
  · exact canonical_buildFailed h1 ..
  · exact canonical_buildFailed h1 ..
  · exact canonical_onDevice h1 _ _ fun _ _ => h1

theorem canonical_buildStatus {s : State} (h : s.Canonical) (b : Build) : (buildStatus s b).Canonical := by
  unfold buildStatus
  grind [Leaves, canonical_buildWrite, canonical_buildEnd, canonical_buildHeld, canonical_keepBuild]

theorem canonical_execBuildComplete {s : State} (h : s.Canonical) (build : Nat) : Leads (execBuildComplete build s) := by
  unfold execBuildComplete
  grind [Leads, canonical_buildEnd, canonical_buildFailed, canonical_buildStatus, canonical_runBuild, canonical_asReader,
    canonical_dropBrought, canonical_keepBuild, canonical_buildHeld]

theorem canonical_execESsbld {s : State} (h : s.Canonical) (p t : Nat) : Leads (execESsbld p t s) := by
  unfold execESsbld
  refine canonical_elected h (fun x hx => ?_) fun x l va bytes hx => ?_
  · grind [Leaves, Leads, canonical_iff, canonical_cxIdleCommand, leaves_writeMem, canonical_traceWrite, canonical_addOp, canonical_cxDone,
    canonical_clearTag]
  · grind [Leaves, Leads, canonical_iff, canonical_cxIdleCommand, leaves_writeMem, canonical_traceWrite, canonical_addOp, canonical_cxDone,
    canonical_clearTag]

theorem canonical_execBuildRecord {s : State} (h : s.Canonical) (op lane : Nat) : Leads (execBuildRecord op lane s) := by
  unfold execBuildRecord
  grind [Leaves, Leads, canonical_iff, canonical_spawnGo, canonical_putPart, canonical_devRead, canonical_onDevice, canonical_devWrite,
    canonical_traceWrite, canonical_traceRead]

/-! ### Cross-lane functions -/

theorem canonical_crossOp {s : State} (h : s.Canonical) (i : Info) (srcs dsts : List Nat) (f : Warp → List Nat → Nat → List Nat × Flags) :
    Leads (crossOp s i srcs dsts f) := by
  unfold crossOp
  refine canonical_issue h fun x hx => ?_
  grind [Leaves, Leads, canonical_cxDone]

theorem canonical_execSMovx {s : State} (h : s.Canonical) (d i k : Nat) : Leads (execSMovx d i k s) := by
  unfold execSMovx
  refine canonical_issue h fun x hx => ?_
  grind [Leaves, Leads, canonical_cxDone]

theorem canonical_execVMovx {s : State} (h : s.Canonical) (d i k : Nat) : Leads (execVMovx d i k s) := by
  unfold execVMovx
  refine canonical_issue h fun x hx => ?_
  grind [Leaves, Leads, canonical_cxDone]

theorem canonical_execSMovxw {s : State} (h : s.Canonical) (src i k : Nat) : Leads (execSMovxw src i k s) := by
  unfold execSMovxw
  refine canonical_issue h fun x hx => ?_
  grind [Leaves, Leads, canonical_cxDone]

theorem canonical_execVMovxw {s : State} (h : s.Canonical) (src i k : Nat) : Leads (execVMovxw src i k s) := by
  unfold execVMovxw
  refine canonical_issue h fun x hx => ?_
  grind [Leaves, Leads, canonical_cxDone]

/-! ### Passes -/

theorem canonical_failPass {s : State} (h : s.Canonical) (pid kind cause addr : Nat) : (failPass s pid kind cause addr).Canonical := by
  unfold failPass
  grind [canonical_iff, canonical_logFault, canonical_updPass]

theorem canonical_copyHeader {s : State} (h : s.Canonical) (pid : Nat) : (copyHeader s pid).Canonical := by
  unfold copyHeader
  grind [Leaves, canonical_iff, canonical_failPass, canonical_updPass, canonical_devRead, canonical_onDevice]

theorem canonical_closePass {s : State} (h : s.Canonical) (pid : Nat) : (closePass s pid).Canonical := by
  unfold closePass
  grind [canonical_iff, canonical_copyHeader, canonical_updPass]

theorem canonical_closedPass {s : State} (h : s.Canonical) (pid : Nat) : Leaves State.Canonical NoState (closedPass s pid) := by
  unfold closedPass
  grind [Leaves, canonical_copyHeader]

theorem canonical_readHeader {s : State} (h : s.Canonical) (w : Warp) (l set : Nat) :
    Leaves NoState (AtSnd State.Canonical) (readHeader s w l set) := by
  unfold readHeader
  grind [Leaves, leaves_readMem, canonical_traceRead]

theorem canonical_execEBind {s : State} (h : s.Canonical) (p k : Nat) : Leads (execEBind p k s) := by
  unfold execEBind
  refine canonical_elected h (fun x hx => ?_) fun x l va bytes hx => ?_
  · grind [Leaves, Leads, canonical_iff, canonical_cxDone, canonical_closePass, canonical_readHeader, canonical_trapNow]
  · grind [Leaves, Leads, canonical_iff, canonical_cxDone, canonical_closePass, canonical_readHeader, canonical_trapNow]

theorem canonical_execBinnerAccept {s : State} (h : s.Canonical) (op lane : Nat) : Leads (execBinnerAccept op lane s) := by
  unfold execBinnerAccept
  grind [Leads, canonical_iff, canonical_spawnGo, canonical_putPart, canonical_updPass]

theorem canonical_readPoints {ctx : Nat} {set : Nat} {g : Geom} {box : Nat → Nat → Bool} :
    ∀ (ls : List Nat) {s : State}, s.Canonical → Leaves NoState (AtSnd State.Canonical) (readPoints ctx set g box s ls)
  | [], _, h => h
  | x :: ls, s, h => by
    have ih : ∀ {s : State}, s.Canonical → Leaves NoState (AtSnd State.Canonical) (readPoints ctx set g box s ls) := canonical_readPoints ls
    unfold readPoints
    grind [Leaves, canonical_devRead]

theorem canonical_readLeafData {s : State} (h : s.Canonical) (p : Pass) (k : SetCopy) (g : Geom) (leaf : Nat) :
    Leaves NoState (AtSnd State.Canonical) (readLeafData s p k g leaf) := by
  unfold readLeafData
  grind [Leaves, canonical_devRead, canonical_readPoints]

theorem canonical_formPixel {s : State} (h : s.Canonical) (p : Pass) (l : Launch) (cluster leaf prim : Nat) (q : Prim) (cells : List
    (List (Nat × Nat × Nat))) :
    (formPixel s p l cluster leaf prim q cells).Canonical := by
  unfold formPixel
  grind [canonical_iff, canonical_updPass]

theorem canonical_formPixels {p : Pass} {l : Launch} {cluster leaf prim : Nat} {q : Prim} :
    ∀ (n : Nat) {s : State} (cells : List (List (Nat × Nat × Nat))), s.Canonical →
      (formPixels p l cluster leaf prim q n s cells).Canonical
  | 0, _, _, h => h
  | n + 1, s, cells, h => by
    have ih {s : State} (cells : List (List (Nat × Nat × Nat))) (h : s.Canonical) :=
      canonical_formPixels (p := p) (l := l) (cluster := cluster) (leaf := leaf) (prim := prim) (q := q) n cells h
    unfold formPixels
    grind [canonical_formPixel]

theorem canonical_rasterPrims {g : Geom} {l : Launch} {pid cluster leaf : Nat} {d : LeafData} :
    ∀ (n i : Nat) {s : State} (ts : List Triangle), s.Canonical → (rasterPrims g l pid cluster leaf d n i s ts).Canonical
  | 0, _, _, _, h => h
  | _ + 1, _, _, [], h => h
  | n + 1, i, s, t :: ts, h => by
    have ih {s : State} (i : Nat) (h : s.Canonical) :=
      canonical_rasterPrims (g := g) (l := l) (pid := pid) (cluster := cluster) (leaf := leaf) (d := d) n i ts h
    unfold rasterPrims
    grind [canonical_formPixels]

theorem canonical_updUnit {s : State} (h : s.Canonical) (pid cluster : Nat) (f : RasterUnit → RasterUnit) :
    (updUnit s pid cluster f).Canonical := by
  unfold updUnit
  grind [canonical_iff, canonical_updPass]

theorem canonical_freeUnit {s : State} (h : s.Canonical) (pid cluster : Nat) : (freeUnit s pid cluster).Canonical := by
  unfold freeUnit
  grind [canonical_iff, canonical_updPass]

theorem canonical_takeLeaf {s : State} (h : s.Canonical) (p : Pass) (k : SetCopy) (leaf cluster : Nat) :
    (takeLeaf s p k leaf cluster).Canonical := by
  unfold takeLeaf
  grind [canonical_iff, canonical_updPass]

theorem canonical_readUnit {s : State} (h : s.Canonical) (p : Pass) (k : SetCopy) (g : Geom) (u : RasterUnit) :
    (readUnit s p k g u).Canonical := by
  unfold readUnit
  grind [Leaves, canonical_iff, canonical_freeUnit, canonical_readLeafData, canonical_onDevice, canonical_failPass, canonical_updUnit,
    canonical_updPass]

theorem canonical_runUnit {s : State} (h : s.Canonical) (p : Pass) (g : Geom) (l : Launch) (u : RasterUnit) (n : Nat) :
    (runUnit s p g l u n).Canonical := by
  unfold runUnit
  grind [canonical_iff, canonical_rasterPrims, canonical_freeUnit, canonical_updUnit]

theorem canonical_execRasterLeaf {s : State} (h : s.Canonical) (pass leaf cluster : Nat) : Leads (execRasterLeaf pass leaf cluster s) := by
  have hc := canonical_closedPass h pass
  unfold execRasterLeaf
  rw [Leads]
  split
  · exact hc.error ‹_›
  · split
    · split
      · exact h
      · grind [canonical_takeLeaf, canonical_readUnit, canonical_runUnit]
    · exact h

theorem canonical_execEEmit {s : State} (h : s.Canonical) (p : Nat) : Leads (execEEmit p s) := by
  unfold execEEmit
  refine canonical_issue h fun x hx => ?_
  grind [Leaves, Leads, canonical_iff, canonical_cxIssueOp]

theorem canonical_acceptValue {s : State} (h : s.Canonical) (w : Warp) (lane v : Nat) : (acceptValue s w lane v).Canonical := by
  unfold acceptValue
  grind [canonical_iff, canonical_updPass]

theorem canonical_performEmit {s : State} (h : s.Canonical) (w : Warp) (o : Op) (p : Part) : (performEmit s w o p).Canonical := by
  unfold performEmit
  grind [Performed.Canonical, canonical_performLoad, canonical_acceptValue]

theorem canonical_execEmitAccept {s : State} (h : s.Canonical) (op lanes : Nat) : Leads (execEmitAccept op lanes s) := by
  unfold execEmitAccept
  grind [Leads, canonical_performOp, canonical_performEmit]

theorem canonical_settleFrags {s : State} (h : s.Canonical) (pid : Nat) : (settleFrags s pid).Canonical := by
  unfold settleFrags
  grind [canonical_iff, canonical_updPass]

theorem canonical_applyElement {s : State} (h : s.Canonical) (p : Pass) (va v : Nat) :
    Leaves NoState State.Canonical (applyElement s p va v) := by
  unfold applyElement
  split
  · exact leaves_error _
  · split
    · exact leaves_error _
    · split
      · exact leaves_error _
      · exact leaves_error _
      · grind [Leaves, leaves_readChunk, leaves_writeMem, canonical_traceWrite]
      · exact leaves_error _
      · exact leaves_error _
      · exact leaves_error _

theorem canonical_settleAt {s : State} (h : s.Canonical) (pid i : Nat) : (settleAt s pid i).Canonical := by
  unfold settleAt
  grind [canonical_iff, canonical_updPass]

theorem canonical_applyFirst {p : Pass} {k : SetCopy} :
    ∀ (ls : List Nat) {s : State}, s.Canonical → (applyFirst p k s ls).Canonical
  | [], _, h => h
  | x :: ls, s, h => by
    have ih : ∀ {s : State}, s.Canonical → (applyFirst p k s ls).Canonical := canonical_applyFirst ls
    unfold applyFirst
    grind [Leaves, canonical_applyElement, canonical_settleAt, canonical_requestPage, canonical_onDevice, canonical_failPass]

theorem canonical_execBlenderApply {s : State} (h : s.Canonical) (pass : Nat) : Leads (execBlenderApply pass s) := by
  unfold execBlenderApply
  grind [Leaves, Leads, canonical_settleFrags, canonical_closedPass, canonical_applyFirst]

theorem canonical_execPassEnd {s : State} (h : s.Canonical) (pass : Nat) : Leads (execPassEnd pass s) := by
  unfold execPassEnd
  grind [Leaves, Leads, canonical_iff, canonical_settleFrags, canonical_closedPass, canonical_storeDone, canonical_flushTraces]

theorem canonical_execPassAutoClose {s : State} (h : s.Canonical) (pass : Nat) : Leads (execPassAutoClose pass s) := by
  unfold execPassAutoClose
  grind [Leads, canonical_closePass]

end Sys2Proof.Machine
end

section
/-! SUPPORT. O57: launches and queues keep memory canonical. -/

namespace Sys2Proof.Machine

set_option Elab.async false

/-! ### System instructions -/

theorem canonical_traceAlwaysAll {s : State} (h : s.Canonical) (launch : Nat) (origin : Nat → Nat) (ls : List Nat) :
    (ls.foldl (fun s l => traceAlways s launch (origin l)) s).Canonical :=
  foldl_keeps (fun _ _ k => canonical_traceAlways k ..) _ _ h

theorem canonical_execYGsr {s : State} (h : s.Canonical) (d r : Nat) : Leads (execYGsr d r s) := by
  unfold execYGsr
  refine canonical_issue h fun x hx => ?_
  have ht := canonical_traceAlwaysAll hx x.l.id (fun l => x.w.origin l) (lanesOf x.run)
  grind [Leaves, canonical_cxDone]

theorem canonical_execYSsr {s : State} (h : s.Canonical) (r b : Nat) : Leads (execYSsr r b s) := by
  unfold execYSsr
  refine canonical_issue h fun x hx => ?_
  grind [Leaves, Leads, canonical_iff, canonical_cxDone]

theorem canonical_execYCtxinfo {s : State} (h : s.Canonical) (d n : Nat) : Leads (execYCtxinfo d n s) := by
  unfold execYCtxinfo
  refine canonical_issue h fun x hx => ?_
  have ht := canonical_traceAlwaysAll hx x.l.id (fun l => x.w.origin l) (lanesOf x.run)
  extract_lets dsts
  split
  · exact leaves_error _
  · exact canonical_cxDone ht ..

theorem canonical_resumeLanes {s : State} (h : s.Canonical) (ctx n : Nat) (m : Mask) :
    Leaves NoState State.Canonical (resumeLanes s ctx n m) := by
  unfold resumeLanes
  split
  · exact h
  · exact canonical_updWarp h ..

theorem canonical_killLanes {s : State} (h : s.Canonical) (ctx n : Nat) (m : Mask) :
    Leaves NoState State.Canonical (killLanes s ctx n m) := by
  unfold killLanes
  split
  · exact h
  · rename_i w _
    have hc := canonical_countExits h w (stoppedLanes w n &&& m)
    extract_lets gone
    split
    · exact leaves_error _
    · exact canonical_logUnreported _ (canonical_updWarp (canonical_traceAlwaysAll (hc.ok ‹_›) _ (fun l => w.origin l) _) ..)

theorem canonical_actLanes {act : State → Nat → Nat → Mask → Except AccErr State} {x : Cx} {a b : Nat}
    (hact : ∀ {s : State}, s.Canonical → ∀ ctx n m, Leaves NoState State.Canonical (act s ctx n m)) :
    ∀ (ls : List Nat) {s : State}, s.Canonical → Leaves NoState State.Canonical (actLanes act x a b s ls)
  | [], _, h => h
  | l :: ls, s, h => by
    have hl := hact h x.w.ctx (x.w.val l a) (x.w.reg l b)
    unfold actLanes
    split
    · exact leaves_error _
    · exact canonical_actLanes hact ls (hl.ok ‹_›)

theorem canonical_handleOp {s : State} (h : s.Canonical) (a b : Nat) {act : State → Nat → Nat → Mask → Except AccErr State}
    (hact : ∀ {s : State}, s.Canonical → ∀ ctx n m, Leaves NoState State.Canonical (act s ctx n m)) :
    Leads (handleOp s a b act) := by
  unfold handleOp
  refine canonical_issue h fun x hx => ?_
  split
  · exact leaves_error _
  · split
    · exact leaves_error _
    · split
      · have hl := canonical_actLanes (x := x) (a := a) (b := b) hact (lanesOf x.run)
          (canonical_updWarp (canonical_cxAdvance hx x x.wd (fun _ => x.next) false) x.w.id joinWaits)
        extract_lets t
        split
        · exact leaves_error _
        · exact canonical_stepTrap (hl.ok ‹_›) ..
      · exact leaves_error _

theorem canonical_execYResume {s : State} (h : s.Canonical) (a b : Nat) : Leads (execYResume a b s) :=
  canonical_handleOp h a b fun k _ _ _ => canonical_resumeLanes k ..

theorem canonical_execYKill {s : State} (h : s.Canonical) (a b : Nat) : Leads (execYKill a b s) :=
  canonical_handleOp h a b fun k _ _ _ => canonical_killLanes k ..

/-! ### Launches, blocks and warps -/

theorem canonical_seatWarp {s : State} (h : s.Canonical) (wid core : Nat) : (seatWarp s wid core).Canonical := by
  unfold seatWarp
  grind [canonical_iff, canonical_updWarp]

theorem canonical_seatWarps {core : Nat} :
    ∀ (ls : List Nat) {s : State}, s.Canonical → (seatWarps core s ls).Canonical
  | [], _, h => h
  | x :: ls, s, h => by
    have ih : ∀ {s : State}, s.Canonical → (seatWarps core s ls).Canonical := canonical_seatWarps ls
    unfold seatWarps
    grind [canonical_seatWarp]

theorem canonical_addWarps {l : Launch} {b : Block} : ∀ (n : Nat) {s : State}, s.Canonical → (addWarps l b n s).Canonical
  | 0, _, h => h
  | n + 1, s, h => by
    have ih := canonical_addWarps (l := l) (b := b) n h
    unfold addWarps
    grind [canonical_iff, canonical_seatWarp]

/-- A block that begins with an empty scratchpad and no written tile keeps the form. -/
theorem canonical_addBlock {s t : State} {b : Block} (h : s.Canonical) (hm : t.mem = s.mem) (hb : t.blocks = s.blocks ++ [b])
    (hs : b.scratch = []) (ht : b.tiles = []) : t.Canonical := by
  obtain ⟨hmem, hblocks⟩ := canonical_iff.mp h
  refine canonical_iff.mpr ⟨hm ▸ hmem, fun k hk => ?_⟩
  rcases List.mem_append.mp (hb ▸ hk) with hold | hnew
  · exact hblocks k hold
  · rw [List.mem_singleton.mp hnew, hs, ht]
    exact ⟨rfl, rfl⟩

theorem canonical_startBlock {s : State} (h : s.Canonical) (lid number core : Nat) : (startBlock s lid number core).Canonical := by
  unfold startBlock
  split
  · exact h
  · extract_lets b t
    have ht : t.Canonical := canonical_addBlock (b := b) h rfl rfl rfl rfl
    exact canonical_addWarps _ (canonical_setLaunch ht _)

theorem canonical_startBlocks {lid : Nat} {core : Nat} :
    ∀ (ls : List Nat) {s : State}, s.Canonical → (startBlocks lid core s ls).Canonical
  | [], _, h => h
  | x :: ls, s, h => by
    have ih : ∀ {s : State}, s.Canonical → (startBlocks lid core s ls).Canonical := canonical_startBlocks ls
    unfold startBlocks
    grind [canonical_startBlock]

theorem canonical_execBlockStart {s : State} (h : s.Canonical) (launch block : Nat) : Leads (execBlockStart launch block s) := by
  unfold execBlockStart
  grind [Leads, canonical_startBlocks]

theorem canonical_execWarpPlace {s : State} (h : s.Canonical) (warp core : Nat) : Leads (execWarpPlace warp core s) := by
  unfold execWarpPlace
  grind [Leads, canonical_seatWarp]

theorem canonical_dropBlocks {s t : State} {p : Block → Bool} (h : s.Canonical) (hm : t.mem = s.mem)
    (hb : t.blocks = s.blocks.filter p) : t.Canonical := by
  obtain ⟨hmem, hblocks⟩ := canonical_iff.mp h
  exact canonical_iff.mpr ⟨hm ▸ hmem, fun k hk => hblocks k (List.mem_of_mem_filter (hb ▸ hk))⟩

theorem canonical_dropWarp {s : State} (h : s.Canonical) (w : Warp) : (dropWarp s w).Canonical := by
  unfold dropWarp
  extract_lets t
  have ht : t.Canonical := h.congr rfl rfl
  split
  · exact ht
  · split
    · exact ht
    · refine canonical_updLaunch ?_ ..
      exact canonical_dropBlocks ht rfl rfl

theorem canonical_execWarpEnd {s : State} (h : s.Canonical) (warp : Nat) : Leads (execWarpEnd warp s) := by
  unfold execWarpEnd
  grind [Leaves, Leads, canonical_killLanes, canonical_onDevice, canonical_endWith, canonical_flushTraces, canonical_dropWarp]

/-! ### Queues, graphs and relaunches -/

theorem canonical_updQueue {s : State} (h : s.Canonical) (ctx q : Nat) (f : Queue → Queue) : (updQueue s ctx q f).Canonical := by
  unfold updQueue
  grind [canonical_iff, canonical_updCtx]

theorem canonical_execKickWrite {s : State} (h : s.Canonical) (ctx queue value : Nat) : Leads (execKickWrite ctx queue value s) := by
  unfold execKickWrite
  grind [Leads, canonical_kickQueue]

theorem canonical_finishTake {s : State} (h : s.Canonical) (ctx : Nat) (q : Queue) (b : List Nat) : (finishTake s ctx q b).Canonical := by
  unfold finishTake
  grind [Leaves, canonical_iff, canonical_devWrite, canonical_onDevice, canonical_endWith, canonical_updQueue]

theorem canonical_execPacketTake {s : State} (h : s.Canonical) (ctx queue : Nat) : Leads (execPacketTake ctx queue s) := by
  unfold execPacketTake
  rw [Leads]
  split
  · exact h
  · split
    · exact h
    · split
      · exact canonical_finishTake h ..
      · split
        · exact h
        · extract_lets slot bad
          have hbad {s : State} (h : s.Canonical) : (bad s).Canonical := canonical_endWith h ..
          have hr := canonical_devRead h ctx slot 64
          split
          · exact canonical_onDevice h _ _ fun _ _ => hbad h
          · rename_i b t _
            have ht : t.Canonical := hr.ok ‹_›
            have hw := canonical_devWrite ht ctx slot (List.replicate 64 0)
            split
            · exact canonical_updQueue ht ..
            · split
              · exact canonical_onDevice ht _ _ fun _ _ => hbad ht
              · exact canonical_finishTake (canonical_updQueue (hw.ok ‹_›) ..) ..

theorem canonical_execPacketHeaderWake {s : State} (h : s.Canonical) (ctx queue : Nat) : Leads (execPacketHeaderWake ctx queue s) := by
  unfold execPacketHeaderWake
  grind [Leads, canonical_iff, canonical_updQueue]

theorem canonical_runJob {s : State} (h : s.Canonical) (j : Job) : (runJob s j).Canonical := by
  unfold runJob
  grind [canonical_iff, canonical_setJob]

theorem canonical_updSlot {s : State} (h : s.Canonical) (ctx n : Nat) (f : GraphSlot → GraphSlot) : (updSlot s ctx n f).Canonical := by
  unfold updSlot
  grind [canonical_iff, canonical_updCtx]

theorem canonical_nodeDone {s : State} (h : s.Canonical) (ctx slot node : Nat) : (nodeDone s ctx slot node).Canonical := by
  unfold nodeDone
  grind [canonical_iff, canonical_updSlot]

theorem canonical_finishJob {s : State} (h : s.Canonical) (j : Job) : (finishJob s j).Canonical := by
  unfold finishJob
  grind [canonical_iff, canonical_nodeDone]

theorem canonical_execSignal {s : State} (h : s.Canonical) (job : Nat) : Leads (execSignal job s) := by
  unfold execSignal
  grind [Leaves, Leads, canonical_devWrite, canonical_onDevice, canonical_runJob, canonical_endWith, canonical_finishJob]

theorem canonical_testWait {s : State} (h : s.Canonical) (job : Nat) : (testWait s job).Canonical := by
  unfold testWait
  grind [Leaves, canonical_devRead, canonical_onDevice, canonical_endWith, canonical_finishJob]

theorem canonical_execWaitValue {s : State} (h : s.Canonical) (job : Nat) : Leads (execWaitValue job s) := by
  unfold execWaitValue
  grind [Leads, canonical_testWait]

theorem canonical_execWaitValueRecheck {s : State} (h : s.Canonical) (job : Nat) : Leads (execWaitValueRecheck job s) := by
  unfold execWaitValueRecheck
  grind [Leads, canonical_testWait]

theorem canonical_execBarrierOnly {s : State} (h : s.Canonical) (job : Nat) : Leads (execBarrierOnly job s) := by
  unfold execBarrierOnly
  grind [Leads, canonical_finishJob]

theorem canonical_packetInvalid {s : State} (h : s.Canonical) (j : Job) : (packetInvalid s j).Canonical := by
  unfold packetInvalid
  grind [canonical_endWith]

theorem canonical_execQueueCreate {s : State} (h : s.Canonical) (job : Nat) : Leads (execQueueCreate job s) := by
  unfold execQueueCreate
  grind [Leaves, Leads, canonical_iff, canonical_packetInvalid, canonical_devWrite, canonical_onDevice, canonical_endWith,
    canonical_finishJob, canonical_updCtx]

theorem canonical_execQueueDestroy {s : State} (h : s.Canonical) (job : Nat) : Leads (execQueueDestroy job s) := by
  unfold execQueueDestroy
  grind [Leads, canonical_iff, canonical_packetInvalid, canonical_finishJob, canonical_updCtx]

theorem canonical_execSettings {s : State} (h : s.Canonical) (job : Nat) : Leads (execSettings job s) := by
  unfold execSettings
  grind [Leads, canonical_iff, canonical_finishJob, canonical_updCtx]

theorem canonical_readGraph {s : State} (h : s.Canonical) (ctx va : Nat) : Leaves NoState (AtSnd State.Canonical) (readGraph s ctx va) := by
  unfold readGraph
  grind [Leaves, canonical_devRead]

theorem canonical_execGraphBind {s : State} (h : s.Canonical) (job : Nat) : Leads (execGraphBind job s) := by
  unfold execGraphBind
  grind [Leaves, Leads, canonical_iff, canonical_finishJob, canonical_updSlot, canonical_readGraph, canonical_onDevice, canonical_endWith]

theorem canonical_readPatch {s : State} (h : s.Canonical) (ctx va : Nat) (nodes : List (List Nat)) :
    Leaves NoState (AtSnd State.Canonical) (readPatch s ctx va nodes) := by
  unfold readPatch
  grind [Leaves, canonical_devRead]

theorem canonical_beginReplay {s : State} (h : s.Canonical) (ctx slot patch : Nat) (job : Option Nat) {after : State → State}
    (ha : ∀ {t : State}, t.Canonical → (after t).Canonical) : (beginReplay s ctx slot patch job after).Canonical := by
  unfold beginReplay
  split
  · exact canonical_endWith h ..
  · rename_i g _
    have hp := canonical_readPatch h ctx patch g.nodes
    split
    · exact canonical_onDevice h _ _ fun _ _ => canonical_endWith h ..
    · exact canonical_endWith (hp.ok ‹_›) ..
    · exact ha (canonical_updSlot (hp.ok ‹_›) ..)

theorem canonical_execGraphReplay {s : State} (h : s.Canonical) (job : Nat) : Leads (execGraphReplay job s) := by
  unfold execGraphReplay
  rw [Leads]
  split
  · exact h
  · extract_lets slot
    split
    · exact canonical_beginReplay h _ _ _ _ fun k => canonical_runJob k ..
    · exact h

theorem canonical_execGraphKick {s : State} (h : s.Canonical) (ctx slot table : Nat) : Leads (execGraphKick ctx slot table s) := by
  unfold execGraphKick
  grind [Leads, canonical_kickSlotStore]

theorem canonical_startNode {s : State} (h : s.Canonical) (ctx slot node : Nat) (r : Replay) : (startNode s ctx slot node r).Canonical := by
  unfold startNode
  grind [canonical_iff, canonical_updSlot, canonical_nodeDone, canonical_endWith]

theorem canonical_execGraphNodeStart {s : State} (h : s.Canonical) (ctx slot node : Nat) : Leads (execGraphNodeStart ctx slot node s) := by
  unfold execGraphNodeStart
  extract_lets go
  have hgo {s : State} (h : s.Canonical) : (go s).Canonical := by
    have := @canonical_startNode s h ctx slot node
    grind
  rw [Leads]
  split
  · exact h
  · split
    · exact h
    · split
      · exact canonical_beginReplay h _ _ _ _ fun k => hgo (canonical_updSlot k ..)
      · exact hgo h

theorem canonical_tracedStart {s : State} (h : s.Canonical) (ctx : Nat) : (tracedStart s ctx).Canonical := by
  unfold tracedStart
  grind [canonical_iff, canonical_updCtx]

theorem canonical_tracedEnd {s : State} (h : s.Canonical) (ctx : Nat) : (tracedEnd s ctx).Canonical := by
  unfold tracedEnd
  grind [canonical_iff, canonical_updCtx]

theorem canonical_addSeed {s : State} (h : s.Canonical) (l : Launch) : (addSeed s l).Canonical := by
  unfold addSeed
  grind [canonical_iff]

theorem canonical_beginLaunch {s : State} (h : s.Canonical) (j : Job) (r : LaunchRec) (seed : Bool) :
    (beginLaunch s j r seed).Canonical := by
  unfold beginLaunch
  grind [canonical_iff, canonical_tracedStart, canonical_runJob, canonical_updCtx, canonical_addSeed]

theorem canonical_setSpawnCtr {s : State} (h : s.Canonical) (j : Job) : (setSpawnCtr s j).Canonical := by
  unfold setSpawnCtr
  grind [Leaves, canonical_iff, canonical_devWrite, canonical_onDevice, canonical_endWith, canonical_setLaunch, canonical_addSeed]

theorem canonical_startRecord {s : State} (h : s.Canonical) (j : Job) (seed : Bool) :
    Leaves State.Canonical (AtSnd State.Canonical) (startRecord s j seed) := by
  unfold startRecord
  grind [Leaves, canonical_endWith, canonical_devRead, canonical_onDevice]

theorem canonical_startLaunch {s : State} (h : s.Canonical) (j : Job) (seed : Bool) : (startLaunch s j seed).Canonical := by
  unfold startLaunch
  grind [Leaves, canonical_setSpawnCtr, canonical_startRecord, canonical_endWith, canonical_beginLaunch]

theorem canonical_execLaunch {s : State} (h : s.Canonical) (job : Nat) : Leads (execLaunch job s) := by
  unfold execLaunch
  grind [Leads, canonical_startLaunch]

theorem canonical_execSeed {s : State} (h : s.Canonical) (job : Nat) : Leads (execSeed job s) := by
  unfold execSeed
  grind [Leads, canonical_startLaunch]

theorem canonical_selectBlocks {ctx trace : Nat} : ∀ (bs : List Nat) {s : State}, s.Canonical →
    Leaves NoState (AtSnd State.Canonical) (selectBlocks ctx trace s bs)
  | [], _, h => h
  | b :: bs, s, h => by
    have ih {s : State} (h : s.Canonical) := canonical_selectBlocks (ctx := ctx) (trace := trace) bs h
    have hr := canonical_devRead h ctx (trace + 256 * b) 256
    unfold selectBlocks
    split
    · exact leaves_error _
    · have ht := ih (hr.ok ‹_›)
      grind [Leaves]

theorem canonical_execERelaunch {s : State} (h : s.Canonical) (p : Nat) : Leads (execERelaunch p s) := by
  unfold execERelaunch
  refine canonical_elected h (fun x hx => ?_) fun x l va bytes hx => ?_
  · grind [Leaves, Leads, canonical_iff, canonical_cxDone, canonical_pushLines]
  · grind [Leaves, Leads, canonical_iff, canonical_cxDone, canonical_pushLines]

theorem canonical_spawnCount {s : State} (h : s.Canonical) (l : Launch) : Leaves NoState (AtSnd State.Canonical) (spawnCount s l) := by
  unfold spawnCount
  grind [Leaves, canonical_devRead]

theorem canonical_mergeLines {α : Type} {f : α → Nat} {s : State} (h : s.Canonical) (ls : List α) :
    (ls.foldl (fun s k => mergeLine s (f k)) s).Canonical :=
  foldl_keeps (fun _ _ k => canonical_mergeLine k _) _ _ h

theorem canonical_endLaunch {s : State} (h : s.Canonical) (j : Job) (l : Launch) : (endLaunch s j l).Canonical := by
  unfold endLaunch
  extract_lets t
  have ht : t.Canonical := canonical_mergeLines h s.lines
  clear_value t
  have hd := canonical_storeDone ht j.ctx (compAddr j.bytes) (fieldAt j.bytes 32 8)
  split
  · exact hd.error ‹_›
  · have hu := hd.ok ‹_›
    grind [canonical_iff, canonical_finishJob, canonical_tracedEnd]

theorem canonical_completeLaunch {s : State} (h : s.Canonical) (j : Job) : (completeLaunch s j).Canonical := by
  unfold completeLaunch
  grind [Leaves, canonical_flushTraces, canonical_spawnCount, canonical_onDevice, canonical_endWith, canonical_endLaunch]

theorem canonical_execPacketComplete {s : State} (h : s.Canonical) (job : Nat) : Leads (execPacketComplete job s) := by
  unfold execPacketComplete
  grind [Leaves, Leads, canonical_storeDone, canonical_finishJob, canonical_completeLaunch]

theorem canonical_execRelaunch {s : State} (h : s.Canonical) (job : Nat) : Leads (execRelaunch job s) := by
  unfold execRelaunch
  rw [Leads]
  split
  · exact h
  · rename_i j _
    split
    · exact canonical_packetInvalid h ..
    · rename_i t _
      split
      · exact h
      · extract_lets m
        have hm : m.Canonical := canonical_mergeLines h s.lines
        have hsel := canonical_selectBlocks (ctx := j.ctx) (trace := t.rec_.trace) (List.range t.rec_.blocks) hm
        split
        · exact canonical_onDevice hm _ _ fun _ _ => canonical_endWith hm ..
        · have hu := hsel.ok ‹_›
          split
          · exact canonical_endWith hu ..
          · grind [canonical_iff, canonical_tracedStart, canonical_runJob, canonical_addSeed, canonical_completeLaunch]

end Sys2Proof.Machine
end

section
/-! SUPPORT. O57: what happens to pages, contexts, ports and the module keep memory canonical. -/

namespace Sys2Proof.Machine

set_option Elab.async false

/-! ### Pages and blocks -/

theorem canonical_noteChange {s t : State} (h : t.Canonical) (ctx : Nat) : (noteChange s t ctx).Canonical := by
  unfold noteChange
  grind [canonical_iff]

theorem canonical_pagesChanged {s t : State} (h : t.Canonical) (ctx : Nat) : (pagesChanged s t ctx).Canonical := by
  unfold pagesChanged
  grind [canonical_noteChange, canonical_drainWrites]

theorem canonical_mergeFrame {s : State} (h : s.Canonical) (frame size : Nat) : (mergeFrame s frame size).Canonical :=
  canonical_mergeLines h _

theorem canonical_execPteChange {s : State} (h : s.Canonical) (ctx level va value : Nat) (frames : List Nat) :
    Leads (execPteChange ctx level va value frames s) := by
  unfold execPteChange
  rw [Leads]
  split
  · exact h
  · split
    · exact h
    · split
      · extract_lets m _ t u lo v
        have hm : m.Canonical := canonical_mergeLines h s.lines
        have ht : t.Canonical := hm.writeHbm _ _ _ rfl rfl
        exact canonical_pagesChanged (canonical_updCtx (canonical_noteWrite ht _) _ _) _
      · exact h

theorem canonical_writeEntry {s : State} (h : s.Canonical) (l : Leaf) (f : Nat → Nat) : (writeEntry s l f).Canonical :=
  h.writeHbm _ _ _ rfl rfl

theorem canonical_execResidencyPresent {s : State} (h : s.Canonical) (ctx va : Nat) : Leads (execResidencyPresent ctx va s) := by
  unfold execResidencyPresent
  grind [Leads, canonical_iff, canonical_writeEntry, canonical_pagesChanged, canonical_updCtx]

theorem canonical_execResidencyRefuse {s : State} (h : s.Canonical) (ctx va : Nat) : Leads (execResidencyRefuse ctx va s) := by
  unfold execResidencyRefuse
  grind [Leads, canonical_iff, canonical_pagesChanged, canonical_updCtx]

theorem canonical_execResidencyEvict {s : State} (h : s.Canonical) (ctx va : Nat) : Leads (execResidencyEvict ctx va s) := by
  unfold execResidencyEvict
  grind [Leads, canonical_iff, canonical_mergeFrame, canonical_pullAll, canonical_pagesChanged, canonical_writeEntry, canonical_updCtx]

theorem canonical_movePage {s : State} (h : s.Canonical) (ctx va frame : Nat) : (movePage s ctx va frame).Canonical := by
  unfold movePage
  grind [canonical_iff, canonical_mergeFrame, canonical_pullAll, canonical_writeEntry, canonical_followPage, canonical_updCtx]

theorem canonical_execMigration {s : State} (h : s.Canonical) (ctx va frame : Nat) : Leads (execMigration ctx va frame s) := by
  unfold execMigration
  grind [Leads, canonical_movePage]

theorem canonical_moveToHost {s : State} (h : s.Canonical) (ctx va addr : Nat) : (moveToHost s ctx va addr).Canonical := by
  unfold moveToHost
  grind [canonical_mergeFrame, canonical_pullAll, canonical_sendMessage, canonical_writeEntry, canonical_updCtx, canonical_pagesChanged]

theorem canonical_moveFromHost {s : State} (h : s.Canonical) (c : Ctx) (l : Leaf) (frame : Nat) : (moveFromHost s c l frame).Canonical := by
  unfold moveFromHost
  split
  · extract_lets m t
    have hm : { s with mem := m, free := s.free + 1 }.Canonical := h.writeHbm _ _ _ rfl rfl
    have ht : t.Canonical := canonical_clearBad hm ..
    exact canonical_pagesChanged (canonical_updCtx (canonical_writeEntry ht ..) ..) _
  · exact h

theorem canonical_grantRequest {s : State} (h : s.Canonical) (c : Ctx) (l : Leaf) (agent va frame : Nat) :
    (grantRequest s c l agent va frame).Canonical := by
  unfold grantRequest
  grind [canonical_iff, canonical_updCtx, canonical_moveToHost, canonical_moveFromHost, canonical_movePage]

theorem canonical_answerRequest {s : State} (h : s.Canonical) (c : Ctx) (l : Leaf) (agent : Nat) :
    (answerRequest s c l agent).Canonical := by
  unfold answerRequest
  grind [canonical_iff, canonical_sendMessage, canonical_updCtx]

theorem canonical_execMigrationRequest {s : State} (h : s.Canonical) (ctx va agent frame : Nat) :
    Leads (execMigrationRequest ctx va agent frame s) := by
  unfold execMigrationRequest
  grind [Leads, canonical_iff, canonical_answerRequest, canonical_grantRequest, canonical_updCtx]

theorem canonical_execBlockSwapOut {s : State} (h : s.Canonical) (block : Nat) (ok : Bool) : Leads (execBlockSwapOut block ok s) := by
  unfold execBlockSwapOut
  rw [Leads]
  split
  · exact h
  · rename_i b _
    have hout := canonical_updBlock (f := fun b => { b with state := .swapped, unpinned := List.range b.pages }) h block
      (fun _ => rfl) fun _ => rfl
    grind [canonical_iff, canonical_endWith]

theorem canonical_restoreMonitors {s : State} (h : s.Canonical) (p : Warp → Bool) : (restoreMonitors s p).Canonical := by
  unfold restoreMonitors
  grind [canonical_iff]

theorem canonical_execBlockSwapIn {s : State} (h : s.Canonical) (block : Nat) : Leads (execBlockSwapIn block s) := by
  unfold execBlockSwapIn
  have hin := canonical_updBlock (f := fun b => { b with state := .running }) h block (fun _ => rfl) fun _ => rfl
  grind [Leads, canonical_seatWarps, canonical_restoreMonitors]

theorem canonical_execScratchRefill {s : State} (h : s.Canonical) (block page : Nat) (ok : Bool) :
    Leads (execScratchRefill block page ok s) := by
  unfold execScratchRefill
  have hin := canonical_updBlock (f := fun b => { b with unpinned := b.unpinned.erase page }) h block (fun _ => rfl) fun _ => rfl
  grind [Leads, canonical_iff, canonical_endWith]

/-! ### Contexts as a whole -/

theorem canonical_startHandlers {die : Nat} {words : List Nat} : ∀ (ls : List Launch) {s : State}, s.Canonical →
    (startHandlers s die words ls).Canonical
  | [], _, h => h
  | l :: ls, s, h => by
    have ih {s : State} (h : s.Canonical) := canonical_startHandlers (die := die) (words := words) ls h
    unfold startHandlers
    grind [canonical_startHandler]

theorem canonical_contextCause {s : State} (h : s.Canonical) (ctx cause : Nat) (detail : List Nat) :
    (contextCause s ctx cause detail).Canonical := by
  unfold contextCause
  grind [canonical_logEntry, canonical_endContext, canonical_startHandlers]

theorem canonical_execHangDetected {s : State} (h : s.Canonical) (ctx : Nat) : Leads (execHangDetected ctx s) := by
  unfold execHangDetected
  grind [Leads, canonical_iff, canonical_updCtx, canonical_deviceWrites, canonical_contextCause]

theorem canonical_stopEngines {s : State} (h : s.Canonical) (ctx : Nat) : (stopEngines s ctx).Canonical := by
  unfold stopEngines
  exact foldl_keeps (fun _ _ k => canonical_setCommand (canonical_stopCommand k ..) ..) _ _ h

theorem canonical_saveContext {s : State} (h : s.Canonical) (ctx host seq : Nat) : (saveContext s ctx host seq).Canonical := by
  obtain ⟨hmem, hblocks⟩ := canonical_iff.mp h
  unfold saveContext
  extract_lets t u
  have hu : u.Canonical := canonical_iff.mpr ⟨hmem, fun b hb => by
    obtain ⟨k, hk, rfl⟩ := List.mem_map.mp hb
    have := hblocks k hk
    grind⟩
  exact canonical_sendMessage hu _

theorem canonical_execPixelPreemptDeadline {s : State} (h : s.Canonical) (ctx : Nat) : Leads (execPixelPreemptDeadline ctx s) := by
  unfold execPixelPreemptDeadline
  grind [Leads, canonical_iff, canonical_endWith, canonical_saveContext]

theorem canonical_resumeContext {s : State} (h : s.Canonical) (ctx : Nat) : (resumeContext s ctx).Canonical := by
  unfold resumeContext
  grind [canonical_iff, canonical_updCtx, canonical_restoreMonitors]

theorem canonical_execContextTimeout {s : State} (h : s.Canonical) (ctx : Nat) : Leads (execContextTimeout ctx s) := by
  unfold execContextTimeout
  grind [Leads, canonical_endWith]

theorem canonical_execContextWipe {s : State} (h : s.Canonical) (ctx : Nat) : Leads (execContextWipe ctx s) := by
  unfold execContextWipe
  grind [Leads, canonical_endWith]

/-! ### Remote accesses and exposed regions -/

theorem canonical_dropRemote {s : State} (h : s.Canonical) (req : Nat) : (dropRemote s req).Canonical := by
  unfold dropRemote
  grind [canonical_iff]

theorem canonical_fetchFails {s : State} (h : s.Canonical) (w : Warp) (r : RemoteReq) (cause : Nat) (detail : List Nat) :
    (fetchFails s w r cause detail).Canonical := by
  unfold fetchFails
  grind [canonical_takeTrap]

theorem canonical_userFails {s : State} (h : s.Canonical) (r : RemoteReq) (cause : Nat) (detail : List Nat) :
    (userFails s r cause detail).Canonical := by
  unfold userFails
  grind [canonical_iff, canonical_buildLost, canonical_fetchFails, canonical_settleCommand, canonical_failCommand, canonical_stopCommand,
    canonical_enqLost, canonical_putPart, canonical_setPart]

theorem canonical_updRegion {s : State} (h : s.Canonical) (i : Nat) (f : Region → Region) : (updRegion s i f).Canonical := by
  unfold updRegion
  grind [canonical_iff]

theorem canonical_answer {s : State} (h : s.Canonical) (host status : Nat) (results : List Nat) :
    (answer s host status results).Canonical := by
  unfold answer
  grind [canonical_sendMessage]

theorem canonical_countRate {s : State} (h : s.Canonical) (i : Nat) : (countRate s i).Canonical := by
  unfold countRate
  grind [canonical_iff, canonical_updRegion]

theorem canonical_inboundLeaves {s : State} (h : s.Canonical) (i n : Nat) : (inboundLeaves s i n).Canonical := by
  unfold inboundLeaves
  grind [canonical_iff, canonical_updRegion]

theorem canonical_refuseRemote {s : State} (h : s.Canonical) (r : RemoteReq) (cause : Nat) (detail : List Nat) :
    (refuseRemote s r cause detail).Canonical := by
  unfold refuseRemote
  grind [canonical_iff, canonical_countRate, canonical_answer, canonical_inboundLeaves, canonical_setPart, canonical_userFails]

theorem canonical_bringBytes {s : State} (h : s.Canonical) (r : RemoteReq) (data : List Nat) : (bringBytes s r data).Canonical := by
  unfold bringBytes
  grind [canonical_iff, canonical_setWarp]

theorem canonical_deliverRemote {s : State} (h : s.Canonical) (r : RemoteReq) (data : List Nat) : (deliverRemote s r data).Canonical := by
  unfold deliverRemote
  grind [canonical_iff, canonical_acceptValue, canonical_setPart, canonical_bringBytes]

theorem canonical_lateFailure {s : State} (h : s.Canonical) (r : RemoteReq) (cause : Nat) (detail : List Nat) :
    (lateFailure s r cause detail).Canonical := by
  unfold lateFailure
  grind [canonical_iff, canonical_logFault, canonical_dropRemote, canonical_updWarp]

theorem canonical_writeFails {s : State} (h : s.Canonical) (r : RemoteReq) (late cause : Nat × List Nat) :
    (writeFails s r late cause).Canonical := by
  unfold writeFails
  grind [canonical_lateFailure, canonical_refuseRemote, canonical_dropRemote]

theorem canonical_execRemoteCompletion {s : State} (h : s.Canonical) (req status : Nat) (data : List Nat) :
    Leads (execRemoteCompletion req status data s) := by
  unfold execRemoteCompletion
  grind [Leads, canonical_dropRemote, canonical_writeFails, canonical_deliverRemote, canonical_refuseRemote]

theorem canonical_execRemoteTimeout {s : State} (h : s.Canonical) (req : Nat) : Leads (execRemoteTimeout req s) := by
  unfold execRemoteTimeout
  grind [Leads, canonical_writeFails, canonical_refuseRemote, canonical_dropRemote]

theorem canonical_execRemoteStoreFailure {s : State} (h : s.Canonical) (req status : Nat) :
    Leads (execRemoteStoreFailure req status s) := by
  unfold execRemoteStoreFailure
  grind [Leads, canonical_writeFails]

theorem canonical_resetOne {s : State} (h : s.Canonical) (r : RemoteReq) : (resetOne s r).Canonical := by
  unfold resetOne
  grind [canonical_writeFails, canonical_refuseRemote, canonical_dropRemote]

theorem canonical_execPeerReset {s : State} (h : s.Canonical) (peer : Nat) : Leads (execPeerReset peer s) :=
  foldl_keeps (fun _ _ k => canonical_resetOne k _) _ _ h

theorem canonical_sendHeld {s : State} (h : s.Canonical) (c : Ctx) (r : RemoteReq) (port : Nat) : (sendHeld s c r port).Canonical := by
  unfold sendHeld
  grind [canonical_iff, canonical_transmit, canonical_setPart]

theorem canonical_execEgressRateRelease {s : State} (h : s.Canonical) (req : Nat) : Leads (execEgressRateRelease req s) := by
  unfold execEgressRateRelease
  grind [Leads, canonical_refuseRemote, canonical_dropRemote, canonical_sendHeld]

theorem canonical_execLinkDown {s : State} (h : s.Canonical) (port : Nat) : Leads (execLinkDown port s) := by
  unfold execLinkDown
  grind [Leads, canonical_iff]

theorem canonical_execLinkUp {s : State} (h : s.Canonical) (port : Nat) : Leads (execLinkUp port s) := by
  unfold execLinkUp
  grind [Leads, canonical_iff]

theorem canonical_execConnectionSetup {s : State} (h : s.Canonical) (peer kind : Nat) : Leads (execConnectionSetup peer kind s) := by
  unfold execConnectionSetup
  grind [Leads, canonical_iff]

theorem canonical_inboundAtomic {s : State} (h : s.Canonical) (ctx va : Nat) (f : Nat → Option Nat) :
    Leaves NoState (AtSnd State.Canonical) (inboundAtomic s ctx va f) := by
  unfold inboundAtomic
  split
  · exact leaves_error _
  · split
    · exact leaves_error _
    · exact leaves_error _
    · grind [Leaves, leaves_readChunk, leaves_writeMem]

theorem canonical_inboundAccess {s : State} (h : s.Canonical) (ctx va : Nat) (q : Inbound) :
    Leaves NoState (AtSnd State.Canonical) (inboundAccess s ctx va q) := by
  unfold inboundAccess
  grind [Leaves, canonical_iff, leaves_deviceStore, leaves_readMem, canonical_inboundAtomic]

theorem canonical_inboundRefused {s : State} (h : s.Canonical) (ctx : Nat) (e : AccErr) :
    AtSnd State.Canonical (inboundRefused s ctx e) := by
  unfold inboundRefused
  grind [canonical_endWith]

theorem canonical_farPuts {c : Ctx} {q : Inbound} {base : Nat} {far : List (Nat × Nat × Nat × Nat)} :
    ∀ (ls : List (Nat × Nat)) {s : State}, s.Canonical → Leaves (AtFst State.Canonical) State.Canonical (farPuts c q base far s ls)
  | [], _, h => h
  | x :: ls, s, h => by
    have ih : ∀ {s : State}, s.Canonical → Leaves (AtFst State.Canonical) State.Canonical (farPuts c q base far s ls) :=
      canonical_farPuts ls
    unfold farPuts
    grind [Leaves, canonical_submit, leaves_deviceStore, canonical_inboundRefused]

theorem canonical_serveFar {s : State} (h : s.Canonical) (c : Ctx) (va : Nat) (q : Inbound) :
    Leaves (AtFst State.Canonical) State.Canonical (serveFar s c va q) := by
  unfold serveFar
  grind [Leaves, canonical_iff, leaves_readMem, canonical_asReader, canonical_answer, canonical_dropBrought, canonical_requestPage,
    canonical_askRemote, canonical_inboundRefused, canonical_farPuts]

theorem canonical_serveInbound {s : State} (h : s.Canonical) (i : Nat) (q : Inbound) :
    Leaves (AtFst State.Canonical) State.Canonical (serveInbound s i q) := by
  unfold serveInbound
  split
  · exact canonical_answer h ..
  · exact canonical_answer h ..
  · split
    · exact canonical_answer h ..
    · extract_lets va refused
      have hrefused (e : AccErr) : Leaves (AtFst State.Canonical) State.Canonical (refused e) := by
        grind [Leaves, canonical_requestPage, canonical_answer, canonical_inboundRefused]
      clear_value refused
      split
      · exact canonical_serveFar h ..
      · split
        · exact hrefused _
        · grind [Leaves, canonical_serveFar, canonical_inboundAccess, canonical_answer]

theorem canonical_dropInbound {s : State} (h : s.Canonical) (ctx : Nat) : (dropInbound s ctx).Canonical := by
  unfold dropInbound
  grind [canonical_iff, canonical_contextCause, canonical_updCtx]

theorem canonical_enqueueInbound {s : State} (h : s.Canonical) (i : Nat) (q : Inbound) : (enqueueInbound s i q).Canonical := by
  unfold enqueueInbound
  grind [canonical_iff, canonical_updRegion]

theorem canonical_queueInbound {s : State} (h : s.Canonical) (r : Region) (q : Inbound) : (queueInbound s r q).Canonical := by
  unfold queueInbound
  grind [canonical_dropInbound, canonical_enqueueInbound]

theorem canonical_arriveInbound {s : State} (h : s.Canonical) (host kind key addr : Nat) (values : List Nat) :
    (arriveInbound s host kind key addr values).Canonical := by
  unfold arriveInbound
  grind [Leaves, canonical_iff, canonical_enqueueInbound, canonical_serveInbound, canonical_countRate, canonical_queueInbound,
    canonical_answer]

theorem canonical_execInboundRmaWrite {s : State} (h : s.Canonical) (host key addr : Nat) (data : List Nat) :
    Leads (execInboundRmaWrite host key addr data s) := by
  unfold execInboundRmaWrite
  grind [Leads, canonical_arriveInbound]

theorem canonical_execInboundRmaRead {s : State} (h : s.Canonical) (host key addr len : Nat) :
    Leads (execInboundRmaRead host key addr len s) := by
  unfold execInboundRmaRead
  grind [Leads, canonical_arriveInbound]

theorem canonical_execInboundFetchAdd {s : State} (h : s.Canonical) (host key addr value : Nat) :
    Leads (execInboundFetchAdd host key addr value s) := by
  unfold execInboundFetchAdd
  grind [Leads, canonical_arriveInbound]

theorem canonical_execInboundSwap {s : State} (h : s.Canonical) (host key addr value : Nat) :
    Leads (execInboundSwap host key addr value s) := by
  unfold execInboundSwap
  grind [Leads, canonical_arriveInbound]

theorem canonical_execInboundCas {s : State} (h : s.Canonical) (host key addr expect value : Nat) :
    Leads (execInboundCas host key addr expect value s) := by
  unfold execInboundCas
  grind [Leads, canonical_arriveInbound]

theorem canonical_execInboundRateRelease {s : State} (h : s.Canonical) (region place : Nat) :
    Leads (execInboundRateRelease region place s) := by
  unfold execInboundRateRelease
  grind [Leaves, Leads, canonical_iff, canonical_serveInbound, canonical_countRate, canonical_updRegion]

/-! ### The management endpoint -/

theorem canonical_reply {s : State} (h : s.Canonical) (q : Request) (status : Nat) (results : List Nat) :
    (reply s q status results).Canonical := by
  unfold reply
  grind [canonical_sendMessage]

theorem canonical_serve {s : State} (h : s.Canonical) (host : Nat) (msg : List Nat) (op : Nat) (named : Option Bool)
    (ok : Request → Bool) {body : Request → State} (hb : ∀ q, (body q).Canonical) : (serve s host msg op named ok body).Canonical := by
  unfold serve
  grind [canonical_reply]

theorem canonical_noteHost {s : State} (h : s.Canonical) (host : Nat) : (noteHost s host).Canonical := by
  unfold noteHost
  grind [canonical_iff]

theorem canonical_execContextCreate {s : State} (h : s.Canonical) (host : Nat) (msg : List Nat) : Leads (execContextCreate host msg s) := by
  unfold execContextCreate
  refine canonical_serve h _ _ _ _ _ fun q => ?_
  grind [canonical_iff, canonical_reply, canonical_noteHost, canonical_deviceWrites]

theorem canonical_execContextDestroy {s : State} (h : s.Canonical) (host : Nat) (msg : List Nat) :
    Leads (execContextDestroy host msg s) := by
  unfold execContextDestroy
  refine canonical_serve h _ _ _ _ _ fun q => ?_
  grind [canonical_reply, canonical_endWith]

theorem canonical_execPreempt {s : State} (h : s.Canonical) (host : Nat) (msg : List Nat) : Leads (execPreempt host msg s) := by
  unfold execPreempt
  refine canonical_serve h _ _ _ _ _ fun q => ?_
  grind [canonical_stopEngines, canonical_updCtx, canonical_reply]

theorem canonical_execResume {s : State} (h : s.Canonical) (host : Nat) (msg : List Nat) : Leads (execResume host msg s) := by
  unfold execResume
  refine canonical_serve h _ _ _ _ _ fun q => ?_
  grind [canonical_reply, canonical_resumeContext]

theorem canonical_execRegionSet {s : State} (h : s.Canonical) (host : Nat) (msg : List Nat) : Leads (execRegionSet host msg s) := by
  unfold execRegionSet
  refine canonical_serve h _ _ _ _ _ fun q => ?_
  grind [canonical_iff, canonical_reply]

theorem canonical_execRegionClear {s : State} (h : s.Canonical) (host : Nat) (msg : List Nat) : Leads (execRegionClear host msg s) := by
  unfold execRegionClear
  refine canonical_serve h _ _ _ _ _ fun q => canonical_reply (foldl_keeps (fun _ _ k => canonical_answer k ..) _ _ ?_) ..
  exact h.congr rfl rfl

theorem canonical_execStampRead {s : State} (h : s.Canonical) (host : Nat) (msg : List Nat) : Leads (execStampRead host msg s) := by
  unfold execStampRead
  refine canonical_serve h _ _ _ _ _ fun q => ?_
  grind [canonical_reply]

theorem canonical_newSnapshot {s : State} (h : s.Canonical) (cores : List Nat) (on : Bool) : (newSnapshot s cores on).Canonical := by
  unfold newSnapshot
  grind [canonical_iff]

theorem canonical_retireRow {s : State} (h : s.Canonical) (stack row : Nat) : (retireRow s stack row).Canonical := by
  unfold retireRow
  grind [canonical_iff]

theorem canonical_execFencePart {s : State} (h : s.Canonical) (host : Nat) (msg : List Nat) : Leads (execFencePart host msg s) := by
  unfold execFencePart
  refine canonical_serve h _ _ _ _ _ fun q => ?_
  grind [canonical_iff, canonical_reply, canonical_retireRow, canonical_newSnapshot]

theorem canonical_execReturnPart {s : State} (h : s.Canonical) (host : Nat) (msg : List Nat) : Leads (execReturnPart host msg s) := by
  unfold execReturnPart
  refine canonical_serve h _ _ _ _ _ fun q => ?_
  grind [canonical_iff, canonical_reply, canonical_newSnapshot]

theorem canonical_execPartLeaveService {s : State} (h : s.Canonical) (core : Nat) : Leads (execPartLeaveService core s) := by
  unfold execPartLeaveService
  rw [Leads]
  split
  · exact foldl_keeps (fun _ _ k => canonical_reply k ..) _ _ (h.congr rfl rfl)
  · exact h

theorem canonical_acceptImage {s : State} (h : s.Canonical) (q : Request) : (acceptImage s q).Canonical := by
  unfold acceptImage
  grind [canonical_iff, canonical_reply]

theorem canonical_execFirmwarePush {s : State} (h : s.Canonical) (host : Nat) (msg : List Nat) : Leads (execFirmwarePush host msg s) := by
  unfold execFirmwarePush
  refine canonical_serve h _ _ _ _ _ fun q => ?_
  split
  · exact canonical_reply h ..
  · extract_lets n o _ t
    have ht : t.Canonical := h.writeHbm _ _ _ rfl rfl
    split
    · exact canonical_acceptImage ht q
    · exact canonical_reply ht ..

theorem canonical_execAttest {s : State} (h : s.Canonical) (host : Nat) (msg : List Nat) : Leads (execAttest host msg s) := by
  unfold execAttest
  refine canonical_serve h _ _ _ _ _ fun q => ?_
  grind [canonical_reply]

theorem canonical_execSchedulerHeartbeat {s : State} (h : s.Canonical) (core : Nat) : Leads (execSchedulerHeartbeat core s) := by
  unfold execSchedulerHeartbeat
  grind [Leads, canonical_iff]

theorem canonical_endWhere {s : State} (h : s.Canonical) (p : Ctx → Bool) (cause : Nat) (detail : List Nat) :
    (endWhere s p cause detail).Canonical :=
  foldl_keeps (fun _ _ k => canonical_endWith k ..) _ _ h

theorem canonical_execHeartbeatTimeout {s : State} (h : s.Canonical) (core : Nat) : Leads (execHeartbeatTimeout core s) := by
  unfold execHeartbeatTimeout
  grind [Leads, canonical_iff, canonical_endWhere]

theorem canonical_execModuleReset {s : State} : Leads (execModuleReset s) := reset_canonical

theorem canonical_execPowerCap {s : State} (h : s.Canonical) (host : Nat) (msg : List Nat) : Leads (execPowerCap host msg s) := by
  unfold execPowerCap
  refine canonical_serve h _ _ _ _ _ fun q => ?_
  grind [canonical_iff, canonical_reply]

theorem canonical_debug {s : State} (h : s.Canonical) (host : Nat) (msg : List Nat) (mine : Nat → Bool) {body : Request → State}
    (hb : ∀ q, (body q).Canonical) : (debug s host msg mine body).Canonical := by
  unfold debug
  grind [canonical_serve]

theorem canonical_execDebugStepOff {s : State} (h : s.Canonical) (host : Nat) (msg : List Nat) : Leads (execDebugStepOff host msg s) :=
  canonical_debug h _ _ _ fun _ => canonical_reply (canonical_updCtx h ..) ..

theorem canonical_execDebugStepOn {s : State} (h : s.Canonical) (host : Nat) (msg : List Nat) : Leads (execDebugStepOn host msg s) :=
  canonical_debug h _ _ _ fun _ => canonical_reply (canonical_updCtx h ..) ..

theorem canonical_execDebugWatchSet {s : State} (h : s.Canonical) (host : Nat) (msg : List Nat) : Leads (execDebugWatchSet host msg s) :=
  canonical_debug h _ _ _ fun _ => canonical_reply (canonical_updCtx h ..) ..

theorem canonical_execDebugWatchClear {s : State} (h : s.Canonical) (host : Nat) (msg : List Nat) :
    Leads (execDebugWatchClear host msg s) :=
  canonical_debug h _ _ _ fun _ => canonical_reply (canonical_updCtx h ..) ..

theorem canonical_haltWarp {s : State} (h : s.Canonical) (wid : Nat) : (haltWarp s wid).Canonical := by
  unfold haltWarp
  split
  · exact h
  · exact foldl_keeps (fun _ _ k => canonical_takeTrap k ..) _ _ (canonical_setWarp h _)

theorem canonical_execDebugHalt {s : State} (h : s.Canonical) (host : Nat) (msg : List Nat) : Leads (execDebugHalt host msg s) :=
  canonical_debug h _ _ _ fun _ => canonical_reply (foldl_keeps (fun _ _ k => canonical_haltWarp k _) _ _ h) ..

theorem canonical_execUnknownOp {s : State} (h : s.Canonical) (host : Nat) (msg : List Nat) : Leads (execUnknownOp host msg s) := by
  unfold execUnknownOp
  grind [Leads, canonical_reply]

theorem canonical_execKeepalive {s : State} (h : s.Canonical) (host : Nat) (msg : List Nat) : Leads (execKeepalive host msg s) := by
  unfold execKeepalive
  refine canonical_serve h _ _ _ _ _ fun q => ?_
  grind [canonical_reply, canonical_noteHost]

theorem canonical_execHostDetach {s : State} (h : s.Canonical) (host : Nat) : Leads (execHostDetach host s) := by
  unfold execHostDetach
  rw [Leads]
  split
  · exact h
  · split
    · refine canonical_endWhere ?_ ..
      exact h.congr rfl rfl
    · exact h

end Sys2Proof.Machine
end

section
/-! SUPPORT. O57: the other instructions and events, and the passing of time keep memory canonical. -/

namespace Sys2Proof.Machine

set_option Elab.async false

/-! ### Predicates -/

theorem canonical_uniformCompare {s : State} (h : s.Canonical) (i : Info) (srcs : List Nat) (m : Nat) (bit : Warp → Nat → Bool × Flags) :
    Leads (uniformCompare s i srcs m bit) := by
  unfold uniformCompare
  refine canonical_issue h fun x hx => ?_
  grind [Leaves, Leads, canonical_cxDone]

theorem canonical_laneCompare {s : State} (h : s.Canonical) (i : Info) (srcs : List Nat) (m : Nat) (bit : Warp → Nat → Bool × Flags) :
    Leads (laneCompare s i srcs m bit) := by
  unfold laneCompare
  refine canonical_issue h fun x hx => ?_
  grind [Leaves, Leads, canonical_cxDone]

theorem canonical_execSSel {s : State} (h : s.Canonical) (k d a b : Nat) : Leads (execSSel k d a b s) := by
  unfold execSSel
  refine canonical_issue h fun x hx => ?_
  grind [Leaves, Leads, canonical_cxDone]

theorem canonical_execVSel {s : State} (h : s.Canonical) (k d a b : Nat) : Leads (execVSel k d a b s) := by
  unfold execVSel
  refine canonical_issue h fun x hx => ?_
  grind [Leaves, Leads, canonical_cxDone]

theorem canonical_execSPget {s : State} (h : s.Canonical) (d : Nat) : Leads (execSPget d s) := by
  unfold execSPget
  refine canonical_issue h fun x hx => ?_
  grind [Leaves, Leads, canonical_cxDone]

theorem canonical_execVPget {s : State} (h : s.Canonical) (d : Nat) : Leads (execVPget d s) := by
  unfold execVPget
  refine canonical_issue h fun x hx => ?_
  grind [Leaves, Leads, canonical_cxDone]

theorem canonical_stackOp {s : State} (h : s.Canonical) (regs preds : List Nat) (f : Warp → Nat → Lane → Lane) :
    Leads (stackOp s regs preds f) := by
  unfold stackOp
  refine canonical_issue h fun x hx => ?_
  grind [Leaves, Leads, canonical_cxDone]

/-! ### Errors and heat -/

theorem canonical_execEccError {s : State} (h : s.Canonical) (place loc : Nat) (corrected : Bool) :
    Leads (execEccError place loc corrected s) := by
  unfold execEccError
  grind [Leads, canonical_iff, canonical_updWarp]

theorem canonical_execHbmRowRetire {s : State} (h : s.Canonical) (stack row : Nat) : Leads (execHbmRowRetire stack row s) := by
  unfold execHbmRowRetire
  rw [Leads]
  split
  · extract_lets _ t
    have ht : t.Canonical := h.congr rfl rfl
    split
    · exact canonical_retireRow ht ..
    · exact foldl_keeps (fun _ _ k => canonical_sendMessage k _) _ _ ht
  · exact h

theorem canonical_execCoreFailure {s : State} (h : s.Canonical) (core : Nat) : Leads (execCoreFailure core s) := by
  unfold execCoreFailure
  grind [Leads, canonical_endWhere]

theorem canonical_execThermalThrottle {s : State} (h : s.Canonical) (die : Nat) : Leads (execThermalThrottle die s) := by
  unfold execThermalThrottle
  grind [Leads, canonical_iff]

theorem canonical_execThermalThrottleEnd {s : State} (h : s.Canonical) (die : Nat) : Leads (execThermalThrottleEnd die s) := by
  unfold execThermalThrottleEnd
  grind [Leads, canonical_iff]

theorem canonical_execThermalShutdown {s : State} (h : s.Canonical) (die : Nat) : Leads (execThermalShutdown die s) := by
  unfold execThermalShutdown
  grind [Leads, canonical_iff, canonical_endWhere]

/-! ### Textures -/

theorem canonical_oldPieces {p : Part} :
    ∀ (ls : List (Nat × Nat)) {s : State}, s.Canonical → Leaves NoState (AtSnd State.Canonical) (oldPieces p s ls)
  | [], _, h => h
  | x :: ls, s, h => by
    have ih : ∀ {s : State}, s.Canonical → Leaves NoState (AtSnd State.Canonical) (oldPieces p s ls) := canonical_oldPieces ls
    unfold oldPieces
    grind [Leaves, canonical_oldRead]

theorem canonical_texRead {s : State} (h : s.Canonical) (w : Warp) (p : Part) (va n : Nat) :
    Leaves NoState (AtSnd State.Canonical) (texRead s w p va n) := by
  unfold texRead
  grind [Leaves, canonical_iff, leaves_readMem, canonical_oldPieces]

theorem canonical_texReads {w : Warp} {oid : Nat} {p : Part} :
    ∀ (ls : List (Nat × Nat)) {s : State}, s.Canonical → Leaves (AtSnd State.Canonical) (AtSnd State.Canonical) (texReads w oid p s ls)
  | [], _, h => h
  | x :: ls, s, h => by
    have ih : ∀ {s : State}, s.Canonical → Leaves (AtSnd State.Canonical) (AtSnd State.Canonical) (texReads w oid p s ls) :=
      canonical_texReads ls
    unfold texReads
    grind [Leaves, canonical_texRead, canonical_traceRead]

theorem canonical_texLane {s : State} (h : s.Canonical) (query : Bool) (fn : Nat) (w : Warp) (o : Op) (p : Part) :
    Leaves (AtSnd State.Canonical) (AtSnd State.Canonical) (texLane query fn s w o p) := by
  unfold texLane
  grind [Leaves, canonical_iff, canonical_texReads]

theorem canonical_performTex {s : State} (h : s.Canonical) (query : Bool) (fn : Nat) (w : Warp) (o : Op) (p : Part) :
    (performTex query fn s w o p).Canonical := by
  unfold performTex
  grind [Leaves, canonical_iff, Performed.Canonical, canonical_texLane, canonical_asReader, canonical_traceAlways, canonical_updWarp,
    canonical_askRemote, canonical_keepReads, canonical_refusal]

theorem canonical_texOp {s : State} (h : s.Canonical) (reserved : Nat) (query : Bool) (fn d a : Nat) (coords dsts : List Nat)
    (args : Cx → Nat → List Nat) :
    Leads (texOp s reserved query fn d a coords dsts args) := by
  unfold texOp
  refine canonical_issue h fun x hx => ?_
  extract_lets addr
  clear_value addr
  split
  · exact leaves_error _
  · split
    · exact leaves_error _
    · split
      · exact leaves_error _
      · split
        · exact leaves_error _
        · split
          · exact leaves_error _
          · split
            · exact leaves_error _
            · exact canonical_cxIssueOp hx ..

theorem canonical_execTexRetire {s : State} (h : s.Canonical) (op : Nat) : Leads (execTexRetire op s) := by
  unfold execTexRetire
  grind [Leads, canonical_performOp, canonical_performTex]

/-! ### Words that are no instruction -/

theorem canonical_execUnallocatedWord {s : State} (h : s.Canonical) (w : Nat) : Leads (execUnallocatedWord w s) := by
  unfold execUnallocatedWord
  split
  · exact canonical_appendHint h
  · split
    · exact h
    · exact canonical_issue h fun x hx => canonical_cxDone hx ..

/-! ### Turns -/

theorem canonical_markReady {s : State} (h : s.Canonical) (n : Nat) : (markReady s n).Canonical := by
  unfold markReady
  grind [canonical_iff]

theorem canonical_passClocks {s : State} (h : s.Canonical) (n : Nat) : (passClocks s n).Canonical := by
  unfold passClocks
  grind [canonical_iff, canonical_endDoomed, canonical_markReady]

theorem canonical_popTurn {s : State} (h : s.Canonical) : (popTurn s).Canonical := by
  unfold popTurn
  grind [canonical_iff]

end Sys2Proof.Machine
end

section
/-! PROOF. O57: every instruction and event, and every step, keeps memory canonical. -/

namespace Sys2Proof.Machine

set_option Elab.async false

theorem canonical_exec {s : State} (h : s.Canonical) (i : Instr) : Leads (exec i s) := by
  cases i with dsimp only [exec]
  | sAdd | sAddImm | sSub | sSubImm | sMullo | sMulloImm | sMulhiS | sMulhiSImm | sMulhiZ | sMulhiZImm | sMad | sMadImm | sMinS
    | sMinSImm | sMaxS | sMaxSImm | sMinZ | sMinZImm | sMaxZ | sMaxZImm | sAbsdiff | sAbsdiffImm | sAddsatS | sAddsatSImm | sSubsatS
    | sSubsatSImm | sAvgZ | sAvgZImm | sAnd | sAndImm | sOr | sOrImm | sXor | sXorImm | sAndn | sAndnImm | sOrn | sOrnImm | sXnor
    | sXnorImm | sShl | sShlImm | sShr | sShrImm | sSar | sSarImm | sRotl | sRotlImm | sRotr | sRotrImm | sClz | sPopc | sBrev | sMov
    | sMovImm | sNot | sBfeS | sBfeZ | sBfi | sPrmt | sAdd64 | sSub64 | sShl64 | sShr64 | sSar64 | sMul64lo | sMovi | sFadd | sFsub
    | sFmul | sFfma | sFmin | sFmax | sFabs | sFneg | sFcopysign | sFclass | sFrcp | sFrsq | sFsqrt | sFexp2 | sFlog2 | sFsinpi | sFcospi
    | sFtanh | sFrintNe | sFrintZ | sFrintDn | sFrintUp | sFaddF16x2 | sFsubF16x2 | sFmulF16x2 | sFfmaF16x2 | sFminF16x2 | sFmaxF16x2
    | sFaddBf16x2 | sFsubBf16x2 | sFmulBf16x2 | sFfmaBf16x2 | sFminBf16x2 | sFmaxBf16x2 | sCvt => exact canonical_uniformAlu h ..
  | vAdd | vAddImm | vSub | vSubImm | vMullo | vMulloImm | vShl | vShlImm | vMov => exact canonical_laneAlu h ..
  | vMulhiS | vMulhiSImm | vMulhiZ | vMulhiZImm | vMad | vMadImm | vMinS | vMinSImm | vMaxS | vMaxSImm | vMinZ | vMinZImm | vMaxZ
    | vMaxZImm | vAbsdiff | vAbsdiffImm | vAddsatS | vAddsatSImm | vSubsatS | vSubsatSImm | vAvgZ | vAvgZImm | vAnd | vAndImm | vOr
    | vOrImm | vXor | vXorImm | vAndn | vAndnImm | vOrn | vOrnImm | vXnor | vXnorImm | vShr | vShrImm | vSar | vSarImm | vRotl | vRotlImm
    | vRotr | vRotrImm | vClz | vPopc | vBrev | vMovImm | vNot | vBfeS | vBfeZ | vBfi | vPrmt | vAdd64 | vSub64 | vShl64 | vShr64
    | vSar64 | vMul64lo | vMovi | vFadd | vFsub | vFmul | vFfma | vFmin | vFmax | vFabs | vFneg | vFcopysign | vFclass | vFrcp | vFrsq
    | vFsqrt | vFexp2 | vFlog2 | vFsinpi | vFcospi | vFtanh | vFrintNe | vFrintZ | vFrintDn | vFrintUp | vFaddF16x2 | vFsubF16x2
    | vFmulF16x2 | vFfmaF16x2 | vFminF16x2 | vFmaxF16x2 | vFaddBf16x2 | vFsubBf16x2 | vFmulBf16x2 | vFfmaBf16x2 | vFminBf16x2
    | vFmaxBf16x2 | vCvt => exact canonical_perLaneAlu h ..
  | sCmp | sFcmp => exact canonical_uniformCompare h ..
  | vCmp | vFcmp => exact canonical_laneCompare h ..
  | sSel => exact canonical_execSSel h ..
  | vSel => exact canonical_execVSel h ..
  | sPget => exact canonical_execSPget h ..
  | vPget => exact canonical_execVPget h ..
  | vPpop | vPdup | vPand | vPor | vPxor | vPnot | vPswap | vPpush | vPset => exact canonical_stackOp h ..
  | vShflIdx | vShflUp | vShflDown | vShflXor | vBcast | vVoteBallot | vReduxAdd | vReduxMin | vReduxMax | vScanIncl | vScanExcl | vMatch
    | vIsect => exact canonical_crossOp h ..
  | sMovx => exact canonical_execSMovx h ..
  | vMovx => exact canonical_execVMovx h ..
  | sMovxw => exact canonical_execSMovxw h ..
  | vMovxw => exact canonical_execVMovxw h ..
  | mLd | mLdPr | mLdAcq => exact canonical_loadOp h ..
  | mLdu => exact canonical_execMLdu h ..
  | mSt | mStRel => exact canonical_storeOp h ..
  | mAtomAddS32 | mAtomAndB32 | mAtomOrB32 | mAtomXorB32 | mAtomMinS32 | mAtomMaxS32 | mAtomMinZ32 | mAtomMaxZ32 | mAtomExchB32
    | mAtomAddS64 | mAtomAndB64 | mAtomOrB64 | mAtomXorB64 | mAtomMinS64 | mAtomMaxS64 | mAtomMinZ64 | mAtomMaxZ64 | mAtomExchB64
    | mAtomAddF32 | mAtomMinF32 | mAtomMaxF32 | mAtomAddF16x2 | mAtomAddBf16x2 => exact canonical_atomOp h ..
  | mRedAddS32 | mRedAddS64 | mRedAddF32 | mRedMinS32 | mRedMaxS32 | mRedMinZ32 | mRedMaxZ32 | mRedAndB32 | mRedOrB32 | mRedXorB32
    | mRedMinF32 | mRedMaxF32 | mRedAddF16x2 | mRedAddBf16x2 => exact canonical_redOp h ..
  | mCasB32 | mCasB64 => exact canonical_casOp h ..
  | mFenceAcq | mFenceRel | mFenceFull => exact canonical_fenceOp h ..
  | mMwait => exact canonical_execMMwait h ..
  | mPgreq => exact canonical_execMPgreq h ..
  | mPgprobe => exact canonical_execMPgprobe h ..
  | mPref => exact canonical_execMPref h ..
  | mTexSample | mTexSampleLod | mTexSampleGrad | mTexFetch | mTexGath4 | mTexqSize | mTexqLevels | mTexqFormat =>
    exact canonical_texOp h ..
  | eCpy => exact canonical_execECpy h ..
  | eGath => exact canonical_execEGath h ..
  | eScat => exact canonical_execEScat h ..
  | eMma => exact canonical_execEMma h ..
  | eMsrch => exact canonical_execEMsrch h ..
  | eQuant => exact canonical_execEQuant h ..
  | eKselThr | eKselTopk => exact canonical_kselIssue h ..
  | eKgat => exact canonical_execEKgat h ..
  | eKsum => exact canonical_execEKsum h ..
  | eSpawn | eSpawnDie => exact canonical_spawnIssue h ..
  | eEnq => exact canonical_execEEnq h ..
  | eSsbld => exact canonical_execESsbld h ..
  | eBind => exact canonical_execEBind h ..
  | eEmit => exact canonical_execEEmit h ..
  | eRelaunch => exact canonical_execERelaunch h ..
  | eTdset => exact canonical_execETdset h ..
  | cBr => exact canonical_execCBr h ..
  | cCall => exact canonical_execCCall h ..
  | cJmp | cCallx | cRet => exact canonical_jumpTo h ..
  | cWait => exact canonical_execCWait h ..
  | cTwaitAny | cTwaitAll => exact canonical_tagWait h ..
  | cTffs => exact canonical_execCTffs h ..
  | cTclr => exact canonical_execCTclr h ..
  | cBarArrive | cBarWait | cBarSync => exact canonical_barrierOp h ..
  | cNop => exact canonical_execCNop h ..
  | cYield => exact canonical_execCYield h ..
  | cExit => exact canonical_execCExit h ..
  | cBrk | cTrap => exact canonical_stopAfter h ..
  | yGsr => exact canonical_execYGsr h ..
  | ySsr => exact canonical_execYSsr h ..
  | yResume => exact canonical_execYResume h ..
  | yKill => exact canonical_execYKill h ..
  | yCtxinfo => exact canonical_execYCtxinfo h ..
  | hImm | hGuard | hGuardNot | hSrc3 | hReuse | hLast | hRnd | hScope | hSched | hCache => exact canonical_appendHint h ..
  | loadRetire => exact canonical_execLoadRetire h ..
  | storePerform => exact canonical_execStorePerform h ..
  | atomicPerform => exact canonical_execAtomicPerform h ..
  | reductionPlace => exact canonical_execReductionPlace h ..
  | updateLineMerge => exact canonical_execUpdateLineMerge h ..
  | texRetire => exact canonical_execTexRetire h ..
  | waitComplete => exact canonical_execWaitComplete h ..
  | tagSet => exact canonical_execTagSet h ..
  | tagWaitComplete => exact canonical_execTagWaitComplete h ..
  | barrierPhaseComplete => exact canonical_execBarrierPhaseComplete h ..
  | monitorWake => exact canonical_execMonitorWake h ..
  | monitorReread => exact canonical_execMonitorReread h ..
  | blockSwapOut => exact canonical_execBlockSwapOut h ..
  | blockSwapIn => exact canonical_execBlockSwapIn h ..
  | scratchRefill => exact canonical_execScratchRefill h ..
  | pageWaitRetry => exact canonical_execPageWaitRetry h ..
  | pteChange => exact canonical_execPteChange h ..
  | residencyPresent => exact canonical_execResidencyPresent h ..
  | residencyRefuse => exact canonical_execResidencyRefuse h ..
  | residencyEvict => exact canonical_execResidencyEvict h ..
  | migration => exact canonical_execMigration h ..
  | migrationRequest => exact canonical_execMigrationRequest h ..
  | kickWrite => exact canonical_execKickWrite h ..
  | packetTake => exact canonical_execPacketTake h ..
  | packetHeaderWake => exact canonical_execPacketHeaderWake h ..
  | launch => exact canonical_execLaunch h ..
  | seed => exact canonical_execSeed h ..
  | graphReplay => exact canonical_execGraphReplay h ..
  | relaunch => exact canonical_execRelaunch h ..
  | signal => exact canonical_execSignal h ..
  | waitValue => exact canonical_execWaitValue h ..
  | waitValueRecheck => exact canonical_execWaitValueRecheck h ..
  | barrierOnly => exact canonical_execBarrierOnly h ..
  | queueCreate => exact canonical_execQueueCreate h ..
  | queueDestroy => exact canonical_execQueueDestroy h ..
  | settings => exact canonical_execSettings h ..
  | graphBind => exact canonical_execGraphBind h ..
  | packetComplete => exact canonical_execPacketComplete h ..
  | graphKick => exact canonical_execGraphKick h ..
  | graphNodeStart => exact canonical_execGraphNodeStart h ..
  | blockStart => exact canonical_execBlockStart h ..
  | warpPlace => exact canonical_execWarpPlace h ..
  | warpEnd => exact canonical_execWarpEnd h ..
  | spawnRetire => exact canonical_execSpawnRetire h ..
  | binTimerExpiry => exact canonical_execBinTimerExpiry h ..
  | spillRingMove => exact canonical_execSpillRingMove h ..
  | hangDetected => exact canonical_execHangDetected h ..
  | cpyComplete => exact canonical_execCpyComplete h ..
  | gathComplete => exact canonical_execGathComplete h ..
  | scatComplete => exact canonical_execScatComplete h ..
  | mmaComplete => exact canonical_execMmaComplete h ..
  | msrchComplete => exact canonical_execMsrchComplete h ..
  | quantComplete => exact canonical_execQuantComplete h ..
  | kselComplete => exact canonical_execKselComplete h ..
  | kgatComplete => exact canonical_execKgatComplete h ..
  | ksumInstall => exact canonical_execKsumInstall h ..
  | ksumComplete => exact canonical_execKsumComplete h ..
  | engineStallResume => exact canonical_execEngineStallResume h ..
  | engineFaultStop => exact canonical_execEngineFaultStop h ..
  | enqRetire => exact canonical_execEnqRetire h ..
  | emitAccept => exact canonical_execEmitAccept h ..
  | binnerAccept => exact canonical_execBinnerAccept h ..
  | buildComplete => exact canonical_execBuildComplete h ..
  | buildRecord => exact canonical_execBuildRecord h ..
  | rasterLeaf => exact canonical_execRasterLeaf h ..
  | blenderApply => exact canonical_execBlenderApply h ..
  | passEnd => exact canonical_execPassEnd h ..
  | passAutoClose => exact canonical_execPassAutoClose h ..
  | pixelPreemptDeadline => exact canonical_execPixelPreemptDeadline h ..
  | inboundRmaWrite => exact canonical_execInboundRmaWrite h ..
  | inboundRmaRead => exact canonical_execInboundRmaRead h ..
  | inboundFetchAdd => exact canonical_execInboundFetchAdd h ..
  | inboundSwap => exact canonical_execInboundSwap h ..
  | inboundCas => exact canonical_execInboundCas h ..
  | inboundRateRelease => exact canonical_execInboundRateRelease h ..
  | remoteCompletion => exact canonical_execRemoteCompletion h ..
  | remoteTimeout => exact canonical_execRemoteTimeout h ..
  | remoteStoreFailure => exact canonical_execRemoteStoreFailure h ..
  | peerReset => exact canonical_execPeerReset h ..
  | hostDetach => exact canonical_execHostDetach h ..
  | contextCreate => exact canonical_execContextCreate h ..
  | contextDestroy => exact canonical_execContextDestroy h ..
  | preempt => exact canonical_execPreempt h ..
  | resume => exact canonical_execResume h ..
  | regionSet => exact canonical_execRegionSet h ..
  | regionClear => exact canonical_execRegionClear h ..
  | stampRead => exact canonical_execStampRead h ..
  | fencePart => exact canonical_execFencePart h ..
  | returnPart => exact canonical_execReturnPart h ..
  | partLeaveService => exact canonical_execPartLeaveService h ..
  | firmwarePush => exact canonical_execFirmwarePush h ..
  | attest => exact canonical_execAttest h ..
  | powerCap => exact canonical_execPowerCap h ..
  | debugStepOn => exact canonical_execDebugStepOn h ..
  | debugStepOff => exact canonical_execDebugStepOff h ..
  | debugWatchSet => exact canonical_execDebugWatchSet h ..
  | debugWatchClear => exact canonical_execDebugWatchClear h ..
  | debugHalt => exact canonical_execDebugHalt h ..
  | keepalive => exact canonical_execKeepalive h ..
  | moduleReset => exact canonical_execModuleReset
  | schedulerHeartbeat => exact canonical_execSchedulerHeartbeat h ..
  | heartbeatTimeout => exact canonical_execHeartbeatTimeout h ..
  | hbmRowRetire => exact canonical_execHbmRowRetire h ..
  | coreFailure => exact canonical_execCoreFailure h ..
  | thermalThrottle => exact canonical_execThermalThrottle h ..
  | thermalShutdown => exact canonical_execThermalShutdown h ..
  | unallocatedWord => exact canonical_execUnallocatedWord h ..
  | fetchFault => exact canonical_execFetchFault h ..
  | engineUnitWrite => exact canonical_execEngineUnitWrite h ..
  | contextTimeout => exact canonical_execContextTimeout h ..
  | contextWipe => exact canonical_execContextWipe h ..
  | linkDown => exact canonical_execLinkDown h ..
  | linkUp => exact canonical_execLinkUp h ..
  | egressRateRelease => exact canonical_execEgressRateRelease h ..
  | connectionSetup => exact canonical_execConnectionSetup h ..
  | unknownOp => exact canonical_execUnknownOp h ..
  | eccError => exact canonical_execEccError h ..
  | thermalThrottleEnd => exact canonical_execThermalThrottleEnd h ..
/-! ### A step -/

/-- The state of a turn that selects a run. -/
def Turned.Canonical : Turned → Prop
  | .idle => True
  | .unfetched s => s.Canonical
  | .fetched s _ => s.Canonical

theorem canonical_turnWarp {s : State} (h : s.Canonical) (wid : Nat) : (turnWarp s wid).Canonical := by
  unfold turnWarp
  split
  · trivial
  · rename_i w _
    split
    · split
      · rename_i c _ _
        have hf := @canonical_fetchWord s h c w
        grind [Leaves, Turned.Canonical, canonical_iff]
      · trivial
    · trivial

theorem canonical_runTurn {s : State} {t : Turned} (h : s.Canonical) (ht : t.Canonical) : Leads (runTurn s t) := by
  unfold runTurn
  split
  · exact h
  · exact canonical_exec ht _
  · split
    · exact canonical_exec ht _
    · exact canonical_exec ht _

theorem canonical_step {s : State} (h : s.Canonical) : Leads (step s) := by
  unfold step
  extract_lets t u
  have hu : u.Canonical := canonical_passClocks (canonical_popTurn h) _
  clear_value u t
  split
  · exact hu
  · exact canonical_runTurn hu (canonical_turnWarp hu _)
  · split
    · exact canonical_exec hu _
    · exact hu

/-- Settles O57: each function of the model that answers a state keeps the form (`canonical_exec` and the lemmas before it), as every
write of bytes goes through `Memory.writeN` and a new block begins with nothing written. -/
theorem stepKeepsCanonical : Obligations.StepKeepsCanonical := by
  unfold Obligations.StepKeepsCanonical
  intro s t h e
  have hs := canonical_step h
  rw [e] at hs
  exact hs

end Sys2Proof.Machine
end

section
/-! PROOF. O51: page-table entries change, pages become present, refused or absent, and pages move. -/

namespace Sys2Proof.Machine

set_option Elab.async false

/-! ### A state with no copy of a line, a page with no line at an old frame -/

theorem mergeLines_of_none {s : State} (h : s.lines = []) : s.lines.foldl (fun s l => mergeLine s l.line) s = s := by
  rw [h]
  rfl

theorem mergeFrame_of_no_lines {s : State} (h : s.lines = []) (frame size : Nat) : mergeFrame s frame size = s := by
  rw [mergeFrame, h]
  rfl

theorem mergeLine_of_no_lines {s : State} (h : s.lines = []) (line : Nat) : mergeLine s line = s := by
  cases s
  cases h
  rfl

theorem pagePullFails_of_still {s : State} {c : Ctx} {l : Leaf} (h : moveOf c l = none) : pagePullFails s c l = false := by
  rw [pagePullFails, h]

theorem pullAll_of_still {s : State} {c : Ctx} {l : Leaf} (h : moveOf c l = none) : pullAll s c l = s := by
  rw [pullAll, h]

/-! ### The local leaf of an address -/

theorem localLeaf_iff {s : State} {n va : Nat} {c : Ctx} {l : Leaf} :
    localLeaf s n va = some (c, l) ↔ s.ctx? n = some c ∧ leafOf s c va = some l ∧ l.rem = false := by
  simp only [localLeaf, Option.bind_eq_some_iff]
  grind

/-- The walk reads the tables and the context's root alone. -/
theorem leafOf_congr {s t : State} {c d : Ctx} (hm : t.mem = s.mem) (hr : d.root = c.root) (va : Nat) : leafOf t d va = leafOf s c va := by
  simp [leafOf, walk, hm, hr]

/-! ### A page moves to a frame -/

/-- The state in which a page has its new frame, every line still at the old one, and the accesses that have issued follow it. -/
def movedPage (s : State) (n : Nat) (l : Leaf) (frame : Nat) : State :=
  (writeEntry (followPage s n l frame l.cow) l (fun e => e - l.frame + frame)).updCtx n (fun c => { c with
    moves := { page := l.page, size := l.size, oldFrame := l.frame, newFrame := frame, pulled := [] } ::
      c.moves.filter (fun m => m.page != l.page) })

/-- A leaf that an access holds, once the page has its new frame. -/
def follows (l : Leaf) (frame : Nat) (k : Leaf) : Leaf :=
  if k.page = l.page ∧ k.frame = l.frame ∧ k.rem = false then { k with frame := frame, cow := l.cow } else k

/-- A warp, once the accesses that it has issued follow the page. -/
def followed (n : Nat) (l : Leaf) (frame : Nat) (w : Warp) : Warp :=
  if w.ctx = n then { w with ops := w.ops.map (fun o =>
    { o with parts := o.parts.map (fun p => { p with leaf := p.leaf.map (follows l frame) }) }) } else w

theorem movedPage_eq (s : State) (n : Nat) (l : Leaf) (frame : Nat) : movedPage s n l frame = { s with
    warps := s.warps.map (followed n l frame)
    mem := Memory.writeN s.mem l.entryAddr 8 (Memory.readN s.mem l.entryAddr 8 - l.frame + frame) }.updCtx n (fun c => { c with
      moves := { page := l.page, size := l.size, oldFrame := l.frame, newFrame := frame, pulled := [] } ::
        c.moves.filter (fun m => m.page != l.page) }) := by
  simp only [movedPage, writeEntry, followPage, updParts, beq_iff_eq]
  rfl

/-- A page of the module that may leave its frame, and the frame that it may take. -/
structure MayMove (l : Leaf) (frame : Nat) : Prop where
  present : l.p = true
  home : inHbm l.frame = true
  aligned : frame % l.size = 0
  room : inHbm (frame + l.size - 1) = true
  free : inCarve (frame + l.size - 1) = false
  other : frame ≠ l.frame

theorem frameFits_of {l : Leaf} {frame : Nat} (ha : frame % l.size = 0) (hr : inHbm (frame + l.size - 1) = true)
    (hc : inCarve (frame + l.size - 1) = false) : frameFits l frame = true := by
  simp [frameFits, ha, hr, hc]

theorem MayMove.fits {l : Leaf} {frame : Nat} (h : MayMove l frame) : frameFits l frame = true := frameFits_of h.aligned h.room h.free

theorem MayMove.leaves {s : State} {c : Ctx} {l : Leaf} {frame : Nat} (h : MayMove l frame) (hstill : moveOf c l = none) :
    leavesFrame s c l = true := by
  simp [leavesFrame, h.present, h.home, pagePullFails_of_still hstill]

theorem movePage_moves {s : State} {n va frame : Nat} {c : Ctx} {l : Leaf} (hl : localLeaf s n va = some (c, l)) (h : MayMove l frame)
    (hlines : s.lines = []) (hstill : moveOf c l = none) : movePage s n va frame = movedPage s n l frame := by
  simp only [movePage, hl, h.leaves hstill, h.fits, mergeFrame_of_no_lines hlines, pullAll_of_still hstill]
  simp [h.other, movedPage]

/-! ### What the device does for a request -/

/-- The state in which a request holds the page, and its agent has no remote mapping of it any more. -/
def granted (s : State) (c : Ctx) (l : Leaf) (agent : Nat) : State :=
  (s.updCtx c.number (fun c => { c with holds := setAssoc c.holds l.page (s.mod.clock + 38400) })).updCtx c.number
    (fun c => { c with farMaps := c.farMaps.filter (fun m => m != (l.page, agent)) })

/-- The context then. -/
def grantedCtx (s : State) (c : Ctx) (l : Leaf) (agent : Nat) : Ctx :=
  { c with holds := setAssoc c.holds l.page (s.mod.clock + 38400), farMaps := c.farMaps.filter (fun m => m != (l.page, agent)) }

theorem granted_ctx {s : State} {n : Nat} {c : Ctx} (hc : s.ctx? n = some c) (l : Leaf) (agent : Nat) :
    (granted s c l agent).ctx? n = some (grantedCtx s c l agent) := by
  obtain rfl := ctx?_number hc
  exact ctx?_updCtx (ctx?_updCtx hc rfl) rfl

/-- A request of a die, 0 to 3, that reaches a page which no other one holds. -/
theorem execMigrationRequest_moves {s : State} {n va agent frame : Nat} {c : Ctx} {l : Leaf} (hc : s.ctx? n = some c)
    (hl : leafOf s c va = some l) (ha : agent < 4) (hrem : l.rem = true → l.tgt = 0) (hp : l.rem = false → l.p = true)
    (hhold : (assoc c.holds l.page).getD 0 ≤ s.mod.clock) (hmoves : requestMoves s c l agent frame = true) :
    execMigrationRequest n va agent frame s = .next (if l.rem then moveFromHost (granted s c l agent) c l frame
      else movePage (granted s c l agent) c.number va frame) := by
  have hn := ctx?_number hc
  subst hn
  have h4 : agent ≠ 4 := by omega
  have hseen : (decide (agent > 4) || (l.rem && l.tgt != 0) || (!l.rem && !l.p)) = false := by
    cases hr : l.rem <;> simp_all <;> omega
  rw [execMigrationRequest]
  simp [hc, hl, hseen, hhold, hmoves, grantRequest, h4, granted]

theorem execMigrationRequest_held {s : State} {n va agent frame : Nat} {c : Ctx} {l : Leaf} (hc : s.ctx? n = some c)
    (hl : leafOf s c va = some l) (ha : agent ≤ 4) (hrem : l.rem = true → l.tgt = 0) (hp : l.rem = false → l.p = true)
    (hhold : s.mod.clock < (assoc c.holds l.page).getD 0) :
    execMigrationRequest n va agent frame s = .next (answerRequest s c l agent) := by
  have hseen : (decide (agent > 4) || (l.rem && l.tgt != 0) || (!l.rem && !l.p)) = false := by
    cases hr : l.rem <;> simp_all
  rw [execMigrationRequest]
  simp [hc, hl, hseen, hhold]

/-! ### A page that a die reaches through a remote mapping -/

/-- An atomic that a remote target does not serve, on a page which the die of the warp that issues reaches remotely. -/
theorem judge_far {s : State} {c : Ctx} {blk : Option Nat} {op va size : Nat} {p : Place} {l : Leaf} (hva : va < 2 ^ 56)
    (hal : va % size = 0) (hres : resolve s c blk .atomic 2 va size = .ok p) (hleaf : p.leaf = some l)
    (hfar : farFrom c l ((s.cur.bind (fun i => s.warp? i.warp)).bind Warp.core?) = true) :
    judge s c blk (.atomic false) op va size = .error (.trap 0x15 va [op]) := by
  have htgt : judgedTarget s c p = .remote 0 0 := by simp [judgedTarget, hleaf, hfar]
  rw [judge, if_neg (by omega), if_neg (by simp [hal])]
  simp [Form.access, Form.kind, hres, htgt, notServed]

/-! ### A line that is pulled -/

theorem noteWrite_mem (s : State) (touched : Target → Nat → Bool) : (noteWrite s touched).mem = s.mem := rfl

theorem copyLine_mem (s : State) (ctx va from_ to_ : Nat) :
    (copyLine s ctx va from_ to_).mem = Memory.writeN s.mem to_ 128 (Memory.readN s.mem from_ 128) := by
  rw [copyLine, followLine, updParts]

theorem pullLine_mem {s : State} {c : Ctx} {l : Leaf} {va : Nat} {m : Move} (hm : moveOf c l = some m)
    (hk : (va - l.page) / 128 ∉ m.pulled) (hlines : s.lines = []) :
    (pullLine s c l va).mem = Memory.writeN s.mem (l.frame + 128 * ((va - l.page) / 128)) 128
      (Memory.readN s.mem (m.oldFrame + 128 * ((va - l.page) / 128)) 128) := by
  have hk' : m.pulled.contains ((va - l.page) / 128) = false := by simpa using hk
  simp only [pullLine, hm, hk', mergeLine_of_no_lines hlines, Bool.false_eq_true, if_false, noteWrite_mem, State.updCtx_mem, copyLine_mem]

/-! ### The obligation -/

/-- Settles O51: each event by what it does to the entry, the context's record and the accesses that follow (`movePage_moves`,
`execMigrationRequest_moves`, `execMigrationRequest_held`), the pulled line by the bytes it copies (`pullLine_mem`). -/
theorem pagesChange : Obligations.PagesChange := by
  unfold Obligations.PagesChange
  refine ⟨?entry, ?local_, ?held, ?back, ?far, ?pulled⟩
  case entry =>
    intro s n level va value frames c a low hc ha hin hlines
    rw [exec_pteChange, execPteChange]
    simp only [hc, ha, hin, mergeLines_of_none hlines]
    rfl
  case local_ =>
    intro s n va c l hl
    obtain ⟨hc, hleaf, hrem⟩ := localLeaf_iff.1 hl
    refine ⟨?present, ?refuse, ?clear, ?evict, ?move⟩
    case present =>
      intro hp
      rw [exec_residencyPresent, execResidencyPresent]
      simp [hl, hp, writeEntry]
    case refuse =>
      intro h
      rw [exec_residencyRefuse, execResidencyRefuse]
      simp [hl, h]
    case clear =>
      intro h
      rw [exec_residencyEvict, execResidencyEvict]
      simp [hl, h]
    case evict =>
      intro h hlines hstill
      rw [exec_residencyEvict, execResidencyEvict]
      simp [hl, h, pagePullFails_of_still hstill, mergeFrame_of_no_lines hlines, pullAll_of_still hstill, writeEntry]
    case move =>
      intro frame hp hin ha hr hfree hne hlines hstill
      have hmay : MayMove l frame := ⟨hp, hin, ha, hr, hfree, hne⟩
      refine ⟨?now, fun die hdie hframe hhold => ?asked⟩
      case now =>
        rw [exec_migration, execMigration, movePage_moves hl hmay hlines hstill, movedPage_eq]
        rfl
      case asked =>
        have hmoves : requestMoves s c l die frame = true := by
          rw [requestMoves, if_neg (by omega), beq_iff_eq.2 hframe, hmay.fits, hmay.leaves hstill]
          simp [hne]
        have hlocal : localLeaf (granted s c l die) n va = some (grantedCtx s c l die, l) :=
          localLeaf_iff.2 ⟨granted_ctx hc .., (leafOf_congr rfl rfl va).trans hleaf, hrem⟩
        obtain rfl := ctx?_number hc
        rw [exec_migrationRequest, execMigrationRequest_moves hc hleaf hdie (by simp [hrem]) (fun _ => hp) hhold hmoves, hrem]
        rw [if_neg Bool.false_ne_true, movePage_moves hlocal hmay hlines hstill, movedPage_eq]
        rfl
  case held =>
    intro s n va frame c l agent hc hl hrem hp hhold
    obtain rfl := ctx?_number hc
    have held (ha : agent ≤ 4) := execMigrationRequest_held (frame := frame) hc hl ha hrem hp hhold
    refine ⟨fun ha => ?die, fun ha => ?host⟩
    case die =>
      rw [exec_migrationRequest, held (by omega), answerRequest, if_neg (by omega)]
    case host =>
      rw [exec_migrationRequest, held (by omega), answerRequest, if_pos ha]
      rfl
  case back =>
    intro s n va frame c l agent hc hl hrem htgt ha hframe hhold hal hr hfree
    obtain rfl := ctx?_number hc
    have hfits := frameFits_of hal hr hfree
    have hmoves : requestMoves s c l agent frame = true := by
      rw [requestMoves, if_neg (by omega), beq_iff_eq.2 hframe, hfits, hrem]
      rfl
    rw [exec_migrationRequest, execMigrationRequest_moves hc hl ha (fun _ => htgt) (by simp [hrem]) hhold hmoves, if_pos hrem,
      moveFromHost, if_pos hfits]
    rfl
  case far =>
    intro s c blk op va size p l x w core hx hw hcore hfar hva hal hres hleaf
    exact judge_far hva hal hres hleaf (by simpa [farFrom, hx, hw, hcore] using hfar)
  case pulled =>
    intro s c l va m hm hk hlines hwf
    refine ⟨fun a hlo hhi => ?line, fun a hout => ?other⟩
    case line =>
      rw [State.byte, pullLine_mem hm hk hlines, Memory.read_writeN 128 hwf, if_pos ⟨hlo, hhi⟩, Memory.byte_of_readN _ _ _ _ (by omega)]
      rfl
    case other =>
      rw [State.byte, pullLine_mem hm hk hlines, Memory.read_writeN 128 hwf, if_neg (by omega)]
      rfl

end Sys2Proof.Machine
end

section
/-! PROOF. O43, what the retirement of an operation writes: registers, the predicates marked for it, NV. -/

namespace Sys2Proof.Machine

set_option Elab.async false

/-! ### A warp that differs in registers and lanes alone -/

/-- Registers, lanes, and which words of the register file hold good data are all that differs. -/
structure SameRest (w v : Warp) : Prop where
  eq : { v with regs := w.regs, lanes := w.lanes, bad := w.bad } = w

theorem SameRest.refl (w : Warp) : SameRest w w := ⟨rfl⟩

theorem SameRest.trans {u v w : Warp} (h1 : SameRest u v) (h2 : SameRest v w) : SameRest u w := by
  obtain ⟨h1⟩ := h1
  obtain ⟨h2⟩ := h2
  rw [← h2] at h1
  exact ⟨h1⟩

theorem SameRest.foldl {α : Type} {f : Warp → α → Warp} (h : ∀ w a, SameRest w (f w a)) (as : List α) (w : Warp) :
    SameRest w (as.foldl f w) := by
  induction as generalizing w with
  | nil => exact SameRest.refl w
  | cons a as ih => exact (h w a).trans (ih _)

section
variable {w v : Warp} (h : SameRest w v)
include h

theorem SameRest.id : v.id = w.id := by rw [← congrArg Warp.id h.eq]
theorem SameRest.ops : v.ops = w.ops := by rw [← congrArg Warp.ops h.eq]
theorem SameRest.marks : v.marks = w.marks := by rw [← congrArg Warp.marks h.eq]
theorem SameRest.absent : v.absent = w.absent := by rw [← congrArg Warp.absent h.eq]

end

theorem sameRest_mapLanes (w : Warp) (m : Mask) (f : Nat → Lane → Lane) : SameRest w (w.mapLanes m f) := by
  constructor
  unfold Warp.mapLanes
  rfl

theorem sameRest_setForm (w : Warp) (n : Nat) (f : RegForm) : SameRest w (w.setForm n f) := by
  constructor
  unfold Warp.setForm
  rfl

theorem sameRest_wrote (w : Warp) (m : Mask) (n : Nat) : SameRest w (w.wrote m n) := by
  constructor
  unfold Warp.wrote
  rfl

/-! ### A register written at retirement -/

/-- A register takes a form, in the lanes of a set. -/
def Warp.takeForm (w : Warp) (n : Nat) (m : Mask) (f : RegForm) : Warp :=
  ((w.setForm n f).mapLanes m (fun _ y => y.forget n)).wrote m n

/-- A register takes a value in each of the lanes of a set that have not exited. -/
def Warp.take (m : Mask) (w : Warp) (n : Nat) (x : Nat → Nat) : Warp :=
  w.takeForm n (m &&& w.live) (.perLane (Vector.ofFn (fun i => if inMask (m &&& w.live) i then BitVec.ofNat 32 (x i) else w.reg i n)))

/-- Registers from `d` on take the words of the lanes' values, the lowest first. -/
def Warp.takeWords (m : Mask) (w : Warp) (d k : Nat) (x : Nat → Nat) : Warp :=
  (List.range k).foldl (fun w i => w.take m (d + i) (fun l => x l / 2 ^ (32 * i))) w

/-- Registers from `d` on take the words of one value in uniform form. -/
def Warp.takeUniform (w : Warp) (d k x : Nat) : Warp :=
  (List.range k).foldl (fun w i => w.takeForm (d + i) w.live (.uniform (BitVec.ofNat 32 (x / 2 ^ (32 * i))))) w

theorem takeWords_one (m : Mask) (w : Warp) (d : Nat) (x : Nat → Nat) : w.takeWords m d 1 x = w.take m d x := by
  simp [Warp.takeWords]

theorem takeWords_two (m : Mask) (w : Warp) (d : Nat) (x : Nat → Nat) :
    w.takeWords m d 2 x = (w.take m d x).take m (d + 1) (fun l => x l / 2 ^ 32) := by
  simp [Warp.takeWords, List.range_succ]

theorem sameRest_takeForm (w : Warp) (n : Nat) (m : Mask) (f : RegForm) : SameRest w (w.takeForm n m f) :=
  ((sameRest_setForm ..).trans (sameRest_mapLanes ..)).trans (sameRest_wrote ..)

theorem sameRest_take (m : Mask) (w : Warp) (n : Nat) (x : Nat → Nat) : SameRest w (w.take m n x) := sameRest_takeForm ..

theorem sameRest_takeWords (m : Mask) (w : Warp) (d k : Nat) (x : Nat → Nat) : SameRest w (w.takeWords m d k x) := by
  unfold Warp.takeWords
  apply SameRest.foldl
  intro v i
  exact sameRest_take ..

theorem sameRest_takeUniform (w : Warp) (d k x : Nat) : SameRest w (w.takeUniform d k x) := by
  unfold Warp.takeUniform
  apply SameRest.foldl
  intro v i
  exact sameRest_takeForm ..

/-- `v` is `w` but for registers, which read `new` where there is a value, and what `h.last` may still discard. -/
structure Takes (w v : Warp) (new : Nat → Nat → Option Word) : Prop where
  regs : ∀ l, l < 32 → ∀ n, v.reg l n = (new l n).getD (w.reg l n)
  count : v.regs.length = w.regs.length
  lanes : ∀ l, l < 32 → { v.lane l with recent := (w.lane l).recent } = w.lane l
  rest : SameRest w v

theorem Takes.refl (w : Warp) : Takes w w (fun _ _ => none) := ⟨fun _ _ _ => rfl, rfl, fun _ _ => rfl, SameRest.refl w⟩

theorem Takes.trans {u v w : Warp} {f g : Nat → Nat → Option Word} (h1 : Takes u v f) (h2 : Takes v w g) :
    Takes u w (fun l n => (g l n).or (f l n)) where
  regs l hl n := by
    rw [h2.regs l hl, h1.regs l hl]
    cases g l n <;> rfl
  count := h2.count.trans h1.count
  lanes l hl := by
    have h2l := h2.lanes l hl
    have h1l := h1.lanes l hl
    rw [← h2l] at h1l
    exact h1l
  rest := h1.rest.trans h2.rest

theorem Takes.congr {w v : Warp} {f g : Nat → Nat → Option Word} (h : Takes w v f) (hf : ∀ l, l < 32 → ∀ n, f l n = g l n) :
    Takes w v g :=
  ⟨fun l hl n => by rw [h.regs l hl n, hf l hl n], h.count, h.lanes, h.rest⟩

section
variable {w v : Warp} {new : Nat → Nat → Option Word} (h : Takes w v new)
include h

theorem Takes.cond {l : Nat} (hl : l < 32) : (v.lane l).cond = (w.lane l).cond := by
  rw [← congrArg Lane.cond (h.lanes l hl)]
theorem Takes.preds {l : Nat} (hl : l < 32) : (v.lane l).preds = (w.lane l).preds := by
  rw [← congrArg Lane.preds (h.lanes l hl)]
theorem Takes.fpflags {l : Nat} (hl : l < 32) : (v.lane l).fpflags = (w.lane l).fpflags := by
  rw [← congrArg Lane.fpflags (h.lanes l hl)]

theorem Takes.live : v.live = w.live := by
  refine mask_ext (fun l hl => ?_)
  rw [inMask_live _ hl, inMask_live _ hl, isExited_congr (h.cond hl)]

end

theorem takes_takeForm {w : Warp} {n : Nat} (m : Mask) (f : RegForm) (hn : n < w.regs.length) :
    Takes w (w.takeForm n m f) (fun l k => if k = n then some (f.get l) else none) where
  regs l hl k := by
    rw [Warp.takeForm, wrote_reg, reg_mapLanes, reg_setForm w f hn]
    split <;> rfl
  count := by simp [Warp.takeForm, Warp.setForm]
  lanes l hl := by
    rw [Warp.takeForm, wrote_lane, lane_mapLanes _ _ _ hl, setForm_lane]
    split <;> rfl
  rest := sameRest_takeForm ..

/-- One register written, where every lane of the set has not exited. -/
theorem takes_take {w : Warp} {n : Nat} {m : Mask} (x : Nat → Nat) (hn : n < w.regs.length)
    (hm : ∀ l, inMask m l = true → inMask w.live l = true) :
    Takes w (w.take m n x) (fun l k => if inMask m l = true ∧ k = n then some (BitVec.ofNat 32 (x l)) else none) := by
  have hand : ∀ l, inMask (m &&& w.live) l = inMask m l := by
    intro l
    rw [inMask, BitVec.getLsbD_and]
    cases hl : inMask m l with
    | false => rw [show m.getLsbD l = false from hl, Bool.false_and]
    | true => rw [show m.getLsbD l = true from hl, show w.live.getLsbD l = true from hm l hl, Bool.and_self]
  have h := takes_takeForm (w := w) (n := n) (m &&& w.live)
    (.perLane (Vector.ofFn (fun i => if inMask (m &&& w.live) i then BitVec.ofNat 32 (x i) else w.reg i n))) hn
  refine ⟨fun l hl k => ?_, h.count, h.lanes, h.rest⟩
  rw [Warp.take, h.regs l hl, get_perLane _ hl, hand]
  by_cases hk : k = n
  · subst hk
    by_cases hml : inMask m l = true <;> simp [hml]
  · simp [hk]

/-- `k` registers from `d` on take the words of the lanes' values. -/
theorem takes_words {w : Warp} {d : Nat} {m : Mask} (x : Nat → Nat) (hm : ∀ l, inMask m l = true → inMask w.live l = true) (k : Nat)
    (hd : d + k ≤ w.regs.length) :
    Takes w (w.takeWords m d k x)
      (fun l n => if inMask m l = true ∧ d ≤ n ∧ n < d + k then some (BitVec.ofNat 32 (x l / 2 ^ (32 * (n - d)))) else none) := by
  induction k with
  | zero => exact (Takes.refl w).congr (fun l _ n => by rw [if_neg (by omega)])
  | succ k ih =>
    have ih := ih (by omega)
    rw [Warp.takeWords, List.range_succ, List.foldl_append]
    refine (ih.trans (takes_take (n := d + k) (fun l => x l / 2 ^ (32 * k)) (by rw [ih.count]; omega)
      (by rw [ih.live]; exact hm))).congr (fun l _ n => ?_)
    by_cases hml : inMask m l = true
    · by_cases hn : n = d + k
      · subst hn
        simp [hml]
      · have : (d ≤ n ∧ n < d + k) = (d ≤ n ∧ n < d + (k + 1)) := by
          simp only [eq_iff_iff]
          omega
        simp [hml, hn, this]
    · simp [hml]

/-! ### A retirement, kind by kind -/

/-- The lanes that have a part. -/
def partLanes (ps : List Part) : Mask := maskOf (fun l => ps.any (fun p => p.lane == l))

/-- What the part of a lane read. -/
def gotOf (ps : List Part) (l : Nat) : Nat := ((ps.find? (fun p => p.lane == l)).map Part.got).getD 0

/-- A value as a load extends it to a register. -/
def extend (sgn : Bool) (n v : Nat) : Nat := if sgn then (BitVec.ofInt 32 (signed (8 * n) v)).toNat else v

theorem extend_zero (sgn : Bool) (n : Nat) : extend sgn n 0 = 0 := by
  cases sgn <;> simp [extend, signed]

/-- The predicates marked for a load take the flag of its lane. -/
def markPreds (ps : List Part) (seq : Nat) (w : Warp) : Warp :=
  w.mapLanes allLanes (fun l y => { y with preds := y.preds.map (fun p =>
    if p.pend == some seq then { p with val := ((ps.find? (fun p => p.lane == l)).map Part.present).getD false } else p) })

/-- NV of a least or greatest of f32 that read or was given a signalling NaN. -/
def markNv (ps : List Part) (w : Warp) : Warp :=
  w.mapLanes (partLanes ps) (fun l y => { y with fpflags := y.fpflags ||| nvIf (((ps.find? (fun p => p.lane == l)).map
    (fun p => (Fmt.f32.decode p.got).isSignalling || (Fmt.f32.decode p.data).isSignalling)).getD false) })

theorem sameRest_markPreds (ps : List Part) (seq : Nat) (w : Warp) : SameRest w (markPreds ps seq w) := sameRest_mapLanes ..

theorem sameRest_markNv (ps : List Part) (w : Warp) : SameRest w (markNv ps w) := sameRest_mapLanes ..

section
variable (w : Warp) (o : Op)

theorem retireWrites_load {d n : Nat} {sgn pr : Bool} {acq : Option Nat} (hk : o.kind = .load d n sgn false pr acq) :
    retireWrites w o = if pr then
      markPreds o.parts o.seq (w.takeWords (partLanes o.parts) d ((n + 3) / 4) (fun l => extend sgn n (gotOf o.parts l)))
      else w.takeWords (partLanes o.parts) d ((n + 3) / 4) (fun l => extend sgn n (gotOf o.parts l)) := by
  rw [retireWrites, hk]
  cases pr <;> rfl

theorem retireWrites_ldu {d n : Nat} {sgn pr : Bool} {acq : Option Nat} (hk : o.kind = .load d n sgn true pr acq) :
    retireWrites w o = w.takeUniform d ((n + 3) / 4) (extend sgn n ((o.parts.head?.map Part.got).getD 0)) := by
  rw [retireWrites, hk]
  rfl

theorem retireWrites_atomic {fn : AtomFn} {d : Nat} (hk : o.kind = .atomic fn d) :
    retireWrites w o = if fn = .minF32 ∨ fn = .maxF32 then
      markNv o.parts (w.takeWords (partLanes o.parts) d (if fn.bytes = 8 then 2 else 1) (gotOf o.parts))
      else w.takeWords (partLanes o.parts) d (if fn.bytes = 8 then 2 else 1) (gotOf o.parts) := by
  rw [retireWrites, hk]
  by_cases h : fn.bytes = 8
  · rw [if_pos h, takeWords_two]
    cases fn <;> simp [AtomFn.bytes] at h <;> rfl
  · rw [if_neg h, takeWords_one]
    cases fn <;> simp [AtomFn.bytes] at h <;> rfl

theorem retireWrites_cas {d n : Nat} (hk : o.kind = .cas d n) :
    retireWrites w o = w.takeWords (partLanes o.parts) d (if n = 8 then 2 else 1) (gotOf o.parts) := by
  rw [retireWrites, hk]
  by_cases h : n = 8
  · rw [if_pos h, takeWords_two]
    simp only [h, if_true]
    rfl
  · rw [if_neg h, takeWords_one]
    simp only [h, if_false]
    rfl

theorem retireWrites_texq {fn d : Nat} (hk : o.kind = .texq fn d) :
    retireWrites w o = w.takeWords (partLanes o.parts) d (if fn = 0 then 2 else 1) (gotOf o.parts) := by
  rw [retireWrites, hk]
  by_cases h : fn = 0
  · rw [if_pos h, takeWords_two]
    simp only [h, if_true]
    rfl
  · rw [if_neg h, takeWords_one]
    simp only [h, if_false]
    rfl

theorem retireWrites_tex {fn d : Nat} (hk : o.kind = .tex fn d) :
    retireWrites w o = w.takeWords (partLanes o.parts) d 4 (gotOf o.parts) := by
  rw [retireWrites, hk]
  rfl

/-- A store and a reduction write no register. -/
theorem retireWrites_store {rel : Option Nat} (hk : o.kind = .store rel) : retireWrites w o = w := by
  rw [retireWrites, hk]

theorem retireWrites_reduce {fn : AtomFn} (hk : o.kind = .reduce fn) : retireWrites w o = w := by
  rw [retireWrites, hk]

end

theorem takes_ldu {w : Warp} {d : Nat} (x k : Nat) (hd : d + k ≤ w.regs.length) :
    Takes w (w.takeUniform d k x)
      (fun _ n => if d ≤ n ∧ n < d + k then some (BitVec.ofNat 32 (x / 2 ^ (32 * (n - d)))) else none) := by
  induction k with
  | zero => exact (Takes.refl w).congr (fun l _ n => by rw [if_neg (by omega)])
  | succ k ih =>
    have ih := ih (by omega)
    rw [Warp.takeUniform, List.range_succ, List.foldl_append]
    refine (ih.trans (takes_takeForm (n := d + k) _ _ (by rw [ih.count]; omega))).congr (fun l _ n => ?_)
    by_cases hn : n = d + k
    · subst hn
      simp [RegForm.get]
    · have : (d ≤ n ∧ n < d + k) = (d ≤ n ∧ n < d + (k + 1)) := by
        simp only [eq_iff_iff]
        omega
      simp [hn, this]

/-- Whatever the operation, registers, lanes and good words are all that its retirement changes. -/
theorem retireWrites_rest (w : Warp) (o : Op) : SameRest w (retireWrites w o) := by
  cases hk : o.kind with
  | load d n sgn uniform pr acq =>
    cases uniform with
    | true => rw [retireWrites_ldu w o hk]; exact sameRest_takeUniform ..
    | false =>
      rw [retireWrites_load w o hk]
      split
      · exact (sameRest_takeWords ..).trans (sameRest_markPreds ..)
      · exact sameRest_takeWords ..
  | atomic fn d =>
    rw [retireWrites_atomic w o hk]
    split
    · exact (sameRest_takeWords ..).trans (sameRest_markNv ..)
    · exact sameRest_takeWords ..
  | cas d n => rw [retireWrites_cas w o hk]; exact sameRest_takeWords ..
  | texq fn d => rw [retireWrites_texq w o hk]; exact sameRest_takeWords ..
  | tex fn d => rw [retireWrites_tex w o hk]; exact sameRest_takeWords ..
  | probe d => rw [retireWrites, hk]; exact sameRest_take (partLanes o.parts) w d (gotOf o.parts)
  | _ => rw [retireWrites, hk]; exact SameRest.refl w

end Sys2Proof.Machine
end

section
/-! PROOF. O43, the operation: a warp's only operation is found, its parts are performed, and it retires. -/

namespace Sys2Proof.Machine

set_option Elab.async false

/-! ### The warp that has the operation -/

/-- The warp found under its number has operation `o` alone, which is `oid`, and no warp of another number has one of that number. -/
structure Sole (s : State) (oid : Nat) (w : Warp) (o : Op) : Prop where
  warp : s.warp? w.id = some w
  ops : w.ops = [o]
  id : o.id = oid
  others : ∀ v ∈ s.warps, v.id ≠ w.id → ∀ q ∈ v.ops, q.id ≠ oid

theorem findSome_ops {ws : List Warp} {i oid : Nat} {w : Warp} {o : Op} (hw : ws.find? (fun v => v.id == i) = some w)
    (ho : w.ops.find? (fun q => q.id == oid) = some o) (hothers : ∀ v ∈ ws, v.id ≠ i → ∀ q ∈ v.ops, q.id ≠ oid) :
    ws.findSome? (fun v => (v.ops.find? (fun q => q.id == oid)).map (fun q => (v, q))) = some (w, o) := by
  induction ws with
  | nil => cases hw
  | cons v vs ih =>
    rw [List.find?_cons] at hw
    rw [List.findSome?_cons]
    split at hw
    case h_1 =>
      cases hw
      rw [ho]
      rfl
    case h_2 hv =>
      have hnone : v.ops.find? (fun q => q.id == oid) = none := by
        rw [List.find?_eq_none]
        intro q hq
        simpa using hothers v (by simp) (by simpa using hv) q hq
      rw [hnone]
      exact ih hw (fun x hx => hothers x (List.mem_cons_of_mem _ hx))

theorem Sole.op? {s : State} {oid : Nat} {w : Warp} {o : Op} (h : Sole s oid w o) : s.op? oid = some (w, o) :=
  findSome_ops h.warp (by rw [h.ops, List.find?_cons, h.id, beq_self_eq_true]) h.others

theorem mem_of_op? {s : State} {oid : Nat} {w : Warp} {o : Op} (h : s.op? oid = some (w, o)) : w ∈ s.warps ∧
    w.ops.find? (fun q => q.id == oid) = some o := by
  obtain ⟨v, hv, hf⟩ := List.exists_of_findSome?_eq_some h
  obtain ⟨q, hq, he⟩ := Option.map_eq_some_iff.1 hf
  cases he
  exact ⟨hv, hq⟩

theorem Sole.congr {s t : State} {oid : Nat} {w : Warp} {o : Op} (h : Sole s oid w o) (hw : t.warps = s.warps) : Sole t oid w o := by
  obtain ⟨warp, ops, id, others⟩ := h
  exact ⟨by rw [State.warp?, hw]; exact warp, ops, id, by rw [hw]; exact others⟩

theorem warp?_map {s t : State} {g : Warp → Warp} (hid : ∀ v, (g v).id = v.id) (ht : t.warps = s.warps.map g) {i : Nat} {w : Warp}
    (h : s.warp? i = some w) : t.warp? i = some (g w) := by
  have hkey : ((fun v : Warp => v.id == i) ∘ g) = (fun v => v.id == i) := by
    funext v
    simp [hid]
  rw [State.warp?, ht, List.find?_map, hkey]
  exact congrArg (Option.map g) h

/-- Every warp changed in what is neither its number nor its operations. -/
theorem Sole.map {s t : State} {oid : Nat} {w : Warp} {o : Op} (h : Sole s oid w o) {g : Warp → Warp} (hid : ∀ v, (g v).id = v.id)
    (hops : ∀ v, (g v).ops = v.ops) (ht : t.warps = s.warps.map g) : Sole t oid (g w) o where
  warp := by rw [hid]; exact warp?_map hid ht h.warp
  ops := (hops w).trans h.ops
  id := h.id
  others := by
    rw [ht, hid]
    intro v hv hne
    obtain ⟨u, hu, rfl⟩ := List.mem_map.1 hv
    rw [hops]
    exact h.others u hu (by rwa [hid] at hne)

/-- The warp itself changed so. -/
theorem Sole.updWarp {s : State} {oid : Nat} {w : Warp} {o : Op} (h : Sole s oid w o) {f : Warp → Warp} (hid : (f w).id = w.id)
    (hops : (f w).ops = w.ops) (hf : ∀ v, (f v).id = v.id) : Sole (s.updWarp w.id f) oid (f w) o where
  warp := by rw [hid]; exact warp?_updWarp h.warp hid
  ops := hops.trans h.ops
  id := h.id
  others := by
    intro v hv hne
    rcases mem_updFirst hv with hv | ⟨u, hu, hp, rfl⟩
    · exact h.others v hv (by rwa [hid] at hne)
    · exact absurd ((hf u).trans (by simpa using hp)) (by rwa [hid] at hne)

/-! ### A part is put back -/

/-- The warp with one operation alone. -/
def Warp.only (w : Warp) (o : Op) : Warp := { w with ops := [o] }

/-- The warp with one of its operations replaced, where it has it. -/
def putOp (o : Op) (v : Warp) : Warp := if v.ops.any (fun x => x.id == o.id) then v.setOp o else v

theorem putOp_id (o : Op) (v : Warp) : (putOp o v).id = v.id := by
  unfold putOp
  split <;> rfl

theorem putOp_of_sole {w : Warp} {o q : Op} (hops : w.ops = [o]) (hid : q.id = o.id) : putOp q w = w.only q := by
  simp [putOp, hops, hid, Warp.setOp, Warp.only, updFirst]

theorem putOp_of_none {v : Warp} {q : Op} (h : ∀ x ∈ v.ops, x.id ≠ q.id) : putOp q v = v := by
  have hany : v.ops.any (fun x => x.id == q.id) = false := by simpa using h
  rw [putOp, hany, if_neg Bool.false_ne_true]

/-- The operation replaced. -/
theorem Sole.setOp {s : State} {oid : Nat} {w : Warp} {o q : Op} (h : Sole s oid w o) (hq : q.id = oid) :
    Sole (s.setOp q) oid (w.only q) q where
  warp := by
    rw [← putOp_of_sole h.ops (hq.trans h.id.symm), putOp_id]
    exact warp?_map (putOp_id q) rfl h.warp
  ops := rfl
  id := hq
  others := by
    intro v hv hne
    obtain ⟨u, hu, rfl⟩ := List.mem_map.1 (show v ∈ s.warps.map (putOp q) from hv)
    rw [putOp_id] at hne
    have hu' := h.others u hu hne
    rw [putOp_of_none (by rwa [hq])]
    exact hu'

/-- The warp `v` has no operation left, and one that still bears the number stands in a warp of the same number and is performed. -/
structure Closed (t : State) (oid : Nat) (v : Warp) : Prop where
  warp : t.warp? v.id = some v
  ops : v.ops = []
  left : ∀ x ∈ t.warps, ∀ q, x.ops.find? (fun y => y.id == oid) = some q → x.id = v.id ∧ ∀ p ∈ q.parts, p.done = true

theorem retireAll_of_no_ops {t : State} {v : Warp} (hw : t.warp? v.id = some v) (ho : v.ops = []) (k : Nat) : retireAll t v.id k = t := by
  rw [retireAll, hw]
  simp [ho, retireReady]

theorem Closed.retireOp {t : State} {oid : Nat} {v : Warp} (h : Closed t oid v) : retireOp t oid = t := by
  unfold Machine.retireOp
  split
  case h_1 => rfl
  case h_2 x q hop =>
    obtain ⟨hx, hq⟩ := mem_of_op? hop
    rw [(h.left x hx q hq).1, retireAll_of_no_ops h.warp h.ops, ite_self]

theorem Closed.performParts {t : State} {oid : Nat} {v : Warp} (h : Closed t oid v) (f : State → Warp → Op → Part → Performed)
    (ls : List Nat) : performParts f oid t ls = t := by
  induction ls with
  | nil => rfl
  | cons l ls ih =>
    unfold Machine.performParts
    split
    case h_1 => rfl
    case h_2 x q hop =>
      obtain ⟨hx, hq⟩ := mem_of_op? hop
      have hdone := (h.left x hx q hq).2
      have hnone : q.parts.find? (fun p => p.lane == l && !p.done && p.refused.isNone) = none := by
        rw [List.find?_eq_none]
        intro p hp
        simp [hdone p hp]
      rw [hnone]
      exact ih

/-- The operation with its parts performed. -/
def Op.ended (o : Op) (ps : List Part) : Op := { o with parts := ps, state := .done }

/-- The warp once its only operation has retired. -/
def retired (w : Warp) (o : Op) (ps : List Part) : Warp :=
  { retireWrites (w.only (o.ended ps)) (o.ended ps) with ops := [] }

/-- Parts that are performed and none refused. -/
def Performs (ps : List Part) : Prop := ∀ p ∈ ps, p.done = true ∧ p.refused = none

theorem partsState_done {ps : List Part} (h : Performs ps) : partsState ps = .done := by
  have hall : ps.all (fun p => p.done || p.refused.isSome) = true := by
    rw [List.all_eq_true]
    intro p hp
    simp [(h p hp).1]
  have hfault : partsFault ps = none := by
    unfold partsFault
    rw [List.find?_eq_none.2]
    intro p hp
    simp [(h p hp).2]
  rw [partsState, if_pos hall, hfault]

theorem setTag_none {s : State} {w : Warp} {o : Op} (h : o.tag = none) : setTag s w o = s := by
  rw [setTag, h]

/-- The only operation of the warp, done, retires. -/
theorem Sole.retireAll {s : State} {oid : Nat} {w : Warp} {o : Op} (h : Sole s oid w o) (hd : o.state = .done) (ht : o.tag = none) :
    retireAll s w.id o.counter = s.setWarp { retireWrites w o with ops := [] } := by
  have hgone : (retireWrites w o).ops.filter (fun p => p.id != o.id) = [] := by simp [(retireWrites_rest w o).ops, h.ops]
  rw [Machine.retireAll, h.warp]
  simp only [Option.map_some, Option.getD_some, h.ops, List.length_singleton, retireReady, h.warp, List.find?_cons,
    beq_self_eq_true, hd, if_true, setTag_none ht, hgone]

theorem retired_id (w : Warp) (o : Op) (ps : List Part) : (retired w o ps).id = w.id := (retireWrites_rest _ _).id

theorem retired_absent (w : Warp) (o : Op) (ps : List Part) : (retired w o ps).absent = w.absent := (retireWrites_rest _ _).absent

/-- What remote reads brought for an operation is used up. -/
def usedUp (s : State) (oid : Nat) : State :=
  { s with mod := { s.mod with brought := s.mod.brought.filter (fun b => b.user != oid) } }

section
variable {s : State} {oid : Nat} {w : Warp} {o : Op} (h : Sole s oid w o) {ps : List Part}
include h

theorem Sole.ended : Sole ((usedUp s oid).setOp (o.ended ps)) oid (w.only (o.ended ps)) (o.ended ps) :=
  (h.congr (t := usedUp s oid) rfl).setOp h.id

/-- The warp after its only operation has retired. -/
theorem Sole.warp?_retired :
    (((usedUp s oid).setOp (o.ended ps)).setWarp (retired w o ps)).warp? (retired w o ps).id = some (retired w o ps) :=
  warp?_setWarp (v := w.only (o.ended ps)) (by rw [retired_id]; exact h.ended.warp)

/-- The last part is put back: the operation retires. -/
theorem Sole.setPart_eq (ht : o.tag = none) {p : Part} (hps : updFirst (fun q => q.lane == p.lane) (fun _ => p) o.parts = ps)
    (hdone : Performs ps) : setPart s oid p = ((usedUp s oid).setOp (o.ended ps)).setWarp (retired w o ps) := by
  have hret := (h.ended (ps := ps)).retireAll rfl ht
  have hlog := logUnreported_of_noOps (h.warp?_retired (ps := ps)) rfl (w.ops.length + 1)
  rw [retired_id] at hlog
  have hop : s.op? o.id = some (w, o) := by rw [h.id]; exact h.op?
  rw [← h.id] at hret hlog ⊢
  simp only [setPart, hop, hps, partsState_done hdone, closeOp]
  exact (congrArg (fun t => logUnreported t w.id (w.ops.length + 1)) hret).trans hlog

theorem Sole.setPart_closed (ht : o.tag = none) {p : Part} (hps : updFirst (fun q => q.lane == p.lane) (fun _ => p) o.parts = ps)
    (hdone : Performs ps) : Closed (setPart s oid p) oid (retired w o ps) := by
  rw [h.setPart_eq ht hps hdone]
  refine ⟨h.warp?_retired, rfl, fun x hx q hq => ?_⟩
  rw [retired_id]
  rcases mem_updFirst hx with hx | ⟨y, -, -, rfl⟩
  case inr => cases hq
  obtain ⟨v, hv, rfl⟩ := List.mem_map.1 (show x ∈ s.warps.map (putOp (o.ended ps)) from hx)
  have hend : (o.ended ps).id = oid := h.id
  by_cases hany : ∀ y ∈ v.ops, y.id ≠ oid
  · rw [putOp_of_none (by rwa [hend])] at hq
    exact absurd (by simpa using List.find?_some hq) (hany q (List.mem_of_find?_eq_some hq))
  · have hvid : v.id = w.id := by
      by_contra hne
      exact hany (h.others v hv hne)
    refine ⟨(putOp_id _ v).trans hvid, ?_⟩
    push Not at hany
    obtain ⟨y, hy, hyid⟩ := hany
    rw [putOp, if_pos (List.any_eq_true.2 ⟨y, hy, by simp [hend, hyid]⟩), Warp.setOp] at hq
    obtain ⟨z, hz⟩ := Option.isSome_iff_exists.1 ((List.find?_isSome (p := fun x => x.id == oid)).2 ⟨y, hy, by simp [hyid]⟩)
    have hfind := find_updFirst_same (f := fun _ => o.ended ps) (by simp [hend]) hz
    rw [hend] at hq
    obtain rfl := Option.some.inj (hfind.symm.trans hq)
    exact fun p hp => (hdone p hp).1

end

/-! ### The lanes of an event -/

section
variable {f : State → Warp → Op → Part → Performed} {oid l : Nat} {ls : List Nat}

/-- The part of the next lane is performed. -/
theorem performParts_yes {s u : State} {w : Warp} {o : Op} {p q : Part} (hop : s.op? oid = some (w, o))
    (hfind : o.parts.find? (fun p => p.lane == l && !p.done && p.refused.isNone) = some p)
    (hgo : (o.state == .running && orderOk s w o && partOk w o p) = true) (hf : f s w o p = .yes u q) :
    performParts f oid s (l :: ls) = performParts f oid (setPart u oid q) ls := by
  rw [performParts, hop]
  simp only [hfind, hgo, if_true, hf]

/-- A lane with no part to perform. -/
theorem performParts_skip {s : State} {w : Warp} {o : Op} (hop : s.op? oid = some (w, o))
    (hfind : o.parts.find? (fun p => p.lane == l && !p.done && p.refused.isNone) = none) :
    performParts f oid s (l :: ls) = performParts f oid s ls := by
  rw [performParts, hop]
  simp only [hfind]

end

/-- Nothing orders the warp's only operation, with no fence and no remote request. -/
theorem orderAt_sole {s : State} {w : Warp} {o : Op} (hops : w.ops = [o]) (hf : w.fences = []) (hr : s.mod.remotes = [])
    (release writes : Bool) : orderAt s w o.id release writes = true := by
  simp [orderAt, hops, hf, remoteWrites, hr]

theorem orderOk_sole {s : State} {w : Warp} {o : Op} (hops : w.ops = [o]) (hf : w.fences = []) (hr : s.mod.remotes = []) :
    orderOk s w o = true := orderAt_sole hops hf hr ..

theorem laneOk_sole {w : Warp} {o : Op} (hops : w.ops = [o]) (p : Part) : laneOk w o p = true := by
  simp [laneOk, hops]

/-- The lowest lane left waits for no other. -/
theorem partOk_sole {w : Warp} {o : Op} {p : Part} (hops : w.ops = [o]) (h : ∀ r ∈ o.parts, r.done = true ∨ p.lane ≤ r.lane) :
    partOk w o p = true := by
  rw [partOk, laneOk_sole hops, Bool.true_and, List.all_eq_true]
  intro r hr
  rcases h r hr with h | h <;> simp [h]

end Sys2Proof.Machine
end

section
/-! PROOF. O43, an operation with one lane's access: performed, it retires, and its warp reads what the retirement writes. -/

namespace Sys2Proof.Machine

set_option Elab.async false

/-! ### A warp that reads alike -/

/-- `v` has the number, launch, registers, marks and fences of `w`, the same live lanes, and their predicates and flags. -/
structure Alike (w v : Warp) : Prop where
  id : v.id = w.id
  ctx : v.ctx = w.ctx
  launch : v.launch = w.launch
  block : v.block = w.block
  fences : v.fences = w.fences
  regs : v.regs = w.regs
  marks : v.marks = w.marks
  live : v.live = w.live
  preds : ∀ l, l < 32 → (v.lane l).preds = (w.lane l).preds
  fpflags : ∀ l, l < 32 → (v.lane l).fpflags = (w.lane l).fpflags

theorem Alike.refl (w : Warp) : Alike w w := ⟨rfl, rfl, rfl, rfl, rfl, rfl, rfl, rfl, fun _ _ => rfl, fun _ _ => rfl⟩

theorem Alike.trans {u v w : Warp} (h1 : Alike u v) (h2 : Alike v w) : Alike u w :=
  ⟨h2.id.trans h1.id, h2.ctx.trans h1.ctx, h2.launch.trans h1.launch, h2.block.trans h1.block, h2.fences.trans h1.fences,
    h2.regs.trans h1.regs, h2.marks.trans h1.marks, h2.live.trans h1.live,
    fun l hl => (h2.preds l hl).trans (h1.preds l hl), fun l hl => (h2.fpflags l hl).trans (h1.fpflags l hl)⟩

theorem Alike.reg {w v : Warp} (h : Alike w v) (l n : Nat) : v.reg l n = w.reg l n := by
  rw [Warp.reg, Warp.reg, h.regs]

theorem alike_absent (w : Warp) (m : Word) : Alike w { w with absent := m } :=
  ⟨rfl, rfl, rfl, rfl, rfl, rfl, rfl, rfl, fun _ _ => rfl, fun _ _ => rfl⟩

theorem alike_only (w : Warp) (o : Op) : Alike w (w.only o) :=
  ⟨rfl, rfl, rfl, rfl, rfl, rfl, rfl, rfl, fun _ _ => rfl, fun _ _ => rfl⟩

/-- Lanes changed in what they wait for. -/
theorem alike_mapLanes (w : Warp) (m : Mask) {f : Nat → Lane → Lane} (hx : ∀ l y, (f l y).isExited = y.isExited)
    (hp : ∀ l y, (f l y).preds = y.preds) (hf : ∀ l y, (f l y).fpflags = y.fpflags) : Alike w (w.mapLanes m f) where
  id := mapLanes_id ..
  ctx := mapLanes_ctx ..
  launch := mapLanes_launch ..
  block := mapLanes_block ..
  fences := mapLanes_fences ..
  regs := mapLanes_regs ..
  marks := mapLanes_marks ..
  live := by
    refine mask_ext (fun l hl => ?_)
    rw [inMask_live _ hl, inMask_live _ hl, lane_mapLanes _ _ _ hl]
    split
    · rw [hx]
    · rfl
  preds l hl := by
    rw [lane_mapLanes _ _ _ hl]
    split
    · rw [hp]
    · rfl
  fpflags l hl := by
    rw [lane_mapLanes _ _ _ hl]
    split
    · rw [hf]
    · rfl

/-! ### Monitors see a write -/

section
variable (s : State) (c : Ctx) (w : Warp) (touched : Target → Nat → Bool) (y : Lane)

theorem noteLane_isExited : (noteLane s c w touched y).isExited = y.isExited := by
  unfold noteLane
  repeat' split
  all_goals simp_all [Lane.isExited]

theorem noteLane_preds : (noteLane s c w touched y).preds = y.preds := by
  unfold noteLane
  repeat' split
  all_goals rfl

theorem noteLane_fpflags : (noteLane s c w touched y).fpflags = y.fpflags := by
  unfold noteLane
  repeat' split
  all_goals rfl

end

/-- A warp after a write that its monitors may see. -/
def noted (s : State) (touched : Target → Nat → Bool) (w : Warp) : Warp :=
  if (lanesOf allLanes).any (fun l => match (w.lane l).waits with | some (.monitor _ _ _ _ _) => true | _ => false) then
    match s.ctx? w.ctx with
    | some c => w.mapLanes allLanes (fun _ x => noteLane s c w touched x)
    | none => w
  else w

theorem noteWrite_warps (s : State) (touched : Target → Nat → Bool) : (noteWrite s touched).warps = s.warps.map (noted s touched) := by
  rw [noteWrite, noteWriteOf]
  simp only [Bool.true_and]
  rfl

section
variable (s : State) (touched : Target → Nat → Bool) (w : Warp)

theorem noted_cases : noted s touched w = w ∨ ∃ c, noted s touched w = w.mapLanes allLanes (fun _ x => noteLane s c w touched x) := by
  unfold noted
  split
  · split
    · exact .inr ⟨_, rfl⟩
    · exact .inl rfl
  · exact .inl rfl

theorem alike_noted : Alike w (noted s touched w) := by
  rcases noted_cases s touched w with h | ⟨c, h⟩
  · rw [h]; exact Alike.refl w
  · rw [h]
    exact alike_mapLanes w _ (fun _ _ => noteLane_isExited ..) (fun _ _ => noteLane_preds ..)
      (fun _ _ => noteLane_fpflags ..)

theorem noted_ops : (noted s touched w).ops = w.ops := by
  rcases noted_cases s touched w with h | ⟨c, h⟩ <;> rw [h]
  rw [mapLanes_ops]

end

/-! ### Registers of a warp whose operation has retired -/

theorem inMask_partLanes_one {p : Part} (hl : p.lane < 32) (l : Nat) : inMask (partLanes [p]) l = true ↔ l = p.lane := by
  rw [partLanes, inMask_maskOf]
  simp only [List.any_cons, List.any_nil, Bool.or_false, Bool.and_eq_true, decide_eq_true_eq, beq_iff_eq]
  omega

theorem gotOf_one (p : Part) : gotOf [p] p.lane = p.got := by
  simp [gotOf]

/-- The words of what one lane read. -/
theorem takes_one {w v : Warp} (h : Alike w v) {p : Part} {d k : Nat} (hl : p.lane < 32) (hlive : inMask w.live p.lane = true)
    (hd : d + k ≤ w.alloc) (x : Nat → Nat) :
    Takes v (v.takeWords (partLanes [p]) d k (fun l => x (gotOf [p] l))) (wordsAt p.lane d k (x p.got)) := by
  refine (takes_words (fun l => x (gotOf [p] l)) (fun l hm => ?_) k (by rw [h.regs]; exact hd)).congr (fun l _ n => ?_)
  · rw [(inMask_partLanes_one hl l).1 hm, h.live]
    exact hlive
  · simp only [inMask_partLanes_one hl, wordsAt]
    by_cases hlp : l = p.lane
    · rw [hlp, gotOf_one]
    · simp [hlp]

theorem retired_reg (w : Warp) (o : Op) (ps : List Part) (l n : Nat) :
    (retired w o ps).reg l n = (retireWrites (w.only (o.ended ps)) (o.ended ps)).reg l n := rfl

theorem retired_lane (w : Warp) (o : Op) (ps : List Part) (l : Nat) :
    (retired w o ps).lane l = (retireWrites (w.only (o.ended ps)) (o.ended ps)).lane l := rfl

/-- A warp whose operation has retired, from what the retirement wrote. -/
theorem retired_of_takes {t : State} {w v x : Warp} {o : Op} {ps : List Part} {new : Nat → Nat → Option Word}
    (hw : t.warp? w.id = some (retired v o ps)) (ha : Alike w v) (ht : Takes (v.only (o.ended ps)) x new)
    (hx : ∀ l n, (retireWrites (v.only (o.ended ps)) (o.ended ps)).reg l n = x.reg l n) : Retired t w new := by
  refine ⟨_, hw, rfl, ?_, fun l hl n => ?_⟩
  · exact (retireWrites_rest _ _).marks.trans ha.marks
  · rw [retired_reg, hx, ht.regs l hl]
    exact congrArg _ (ha.reg l n)

/-! ### The only operation of a warp -/

section
variable {s : State} {oid : Nat} {w : Warp} {o : Op} {ps : List Part} {c : Ctx} (h : Alone s oid w o ps c)
include h

theorem Alone.op? : s.op? oid = some (w, o) := (Option.filter_eq_some_iff.1 h.op).1

theorem Alone.sole : Sole s oid w o where
  warp := h.warp
  ops := h.ops
  id := by simpa using List.find?_some (mem_of_op? h.op?).2
  others := h.others

theorem Alone.orderOk {u : State} (hr : u.mod.remotes = s.mod.remotes) : orderOk u w o = true :=
  orderOk_sole h.ops h.fences (hr.trans h.answered.1)

end

theorem eventLanes_one {l : Nat} (hl : l < 32) : eventLanes (2 ^ l) = [l] := by
  have all : ∀ l < 32, eventLanes (2 ^ l) = [l] := by decide +kernel
  exact all l hl

theorem eventLanes_two {k l : Nat} (hl : l < 32) (hkl : k < l) : eventLanes (2 ^ k + 2 ^ l) = [k, l] := by
  have all : ∀ l < 32, ∀ k < l, eventLanes (2 ^ k + 2 ^ l) = [k, l] := by decide +kernel
  exact all l hl k hkl

/-- One part of the warp's only operation is left, and nothing orders it. -/
structure LastLeft (s : State) (oid : Nat) (w : Warp) (o : Op) (p : Part) : Prop where
  sole : Sole s oid w o
  running : o.state = .running
  tag : o.tag = none
  fences : w.fences = []
  remotes : s.mod.remotes = []
  find : ∀ l, o.parts.find? (fun r => r.lane == l && !r.done && r.refused.isNone) = if l = p.lane then some p else none
  lowest : ∀ r ∈ o.parts, r.done = true ∨ p.lane ≤ r.lane

/-- The last part is performed, whichever lanes the event names besides its own, and the operation retires. -/
theorem LastLeft.performOp {s u : State} {oid : Nat} {w v : Warp} {o : Op} {p q : Part} (h : LastLeft s oid w o p)
    {f : State → Warp → Op → Part → Performed} (hf : f s w o p = .yes u q) (hu : Sole u oid v o) (hid : v.id = w.id)
    {ps : List Part} (hput : updFirst (fun r => r.lane == q.lane) (fun _ => q) o.parts = ps) (hps : Performs ps) {ls : List Nat}
    (hl : p.lane ∈ ls) : (performOp f oid s ls).mem = u.mem ∧ (performOp f oid s ls).lines = u.lines ∧
      (performOp f oid s ls).warp? w.id = some (retired v o ps) := by
  have hclosed := hu.setPart_closed h.tag hput hps
  have hgo : (o.state == .running && orderOk s w o && partOk w o p) = true := by
    rw [h.running, orderOk_sole h.sole.ops h.fences h.remotes, partOk_sole h.sole.ops h.lowest]
    rfl
  have hparts : ∀ ls : List Nat, p.lane ∈ ls → performParts f oid s ls = setPart u oid q := by
    intro ls hl
    induction ls with
    | nil => cases hl
    | cons l ls ih =>
      by_cases hpl : l = p.lane
      · rw [performParts_yes h.sole.op? ((h.find l).trans (if_pos hpl)) hgo hf, hclosed.performParts]
      · rw [performParts_skip h.sole.op? ((h.find l).trans (if_neg hpl)), ih ((List.mem_cons.1 hl).resolve_left (Ne.symm hpl))]
  rw [Machine.performOp, hparts ls hl, hclosed.retireOp]
  refine ⟨?_, ?_, ?_⟩
  · rw [hu.setPart_eq h.tag hput hps]; rfl
  · rw [hu.setPart_eq h.tag hput hps]; rfl
  · rw [← hid, ← retired_id v o ps]
    exact hclosed.warp

/-- An operation with one part. -/
theorem Alone.lastLeft {s : State} {oid : Nat} {w : Warp} {o : Op} {p : Part} {c : Ctx} (h : Alone s oid w o [p] c) :
    LastLeft s oid w o p := by
  obtain ⟨hpd, hpr, -⟩ := h.left p (by simp)
  refine ⟨h.sole, h.running, h.tag, h.fences, h.answered.1, fun l => ?_, by simp [h.parts]⟩
  by_cases hl : l = p.lane
  · simp [h.parts, hl, hpd, hpr]
  · simp [h.parts, hl, Ne.symm hl]

theorem Alone.performOp {s u : State} {oid : Nat} {w v : Warp} {o : Op} {p q : Part} {c : Ctx} (h : Alone s oid w o [p] c)
    {f : State → Warp → Op → Part → Performed} (hf : f s w o p = .yes u q) (hu : Sole u oid v o) (hid : v.id = w.id)
    (hlane : q.lane = p.lane) (hdone : q.done = true) (href : q.refused = none) {ls : List Nat} (hl : p.lane ∈ ls) :
    (performOp f oid s ls).mem = u.mem ∧ (performOp f oid s ls).lines = u.lines ∧
      (performOp f oid s ls).warp? w.id = some (retired v o [q]) :=
  h.lastLeft.performOp hf hu hid (by simp [h.parts, updFirst, hlane]) (by simpa [Performs] using ⟨hdone, href⟩) hl

end Sys2Proof.Machine
end

section
/-! PROOF. O43, loads. -/

namespace Sys2Proof.Machine

set_option Elab.async false

/-! ### The traces of a launch that is not traced -/

theorem updFirst_fixed {α : Type} {p : α → Bool} {f : α → α} {l : List α} (h : ∀ x, l.find? p = some x → f x = x) :
    updFirst p f l = l := by
  induction l with
  | nil => rfl
  | cons y ys ih =>
    rw [updFirst]
    split
    case isTrue hy => rw [h y (List.find?_cons_of_pos hy)]
    case isFalse hy => rw [ih (fun x hx => h x (by rwa [List.find?_cons_of_neg hy]))]

/-- The launch of a warp, if it stands, is not traced. -/
def Untraced (s : State) (launch : Nat) : Prop := ∀ l, s.launch? launch = some l → l.rec_.trace = 0

section
variable {s : State} {launch : Nat} (h : Untraced s launch)
include h

theorem updTrace_untraced (origin : Nat) (f : TraceSet → TraceSet) : updTrace s launch origin f = s := by
  rw [updTrace, State.updLaunch, updFirst_fixed]
  intro l hl
  rw [if_pos (h l hl)]

theorem traceAlways_untraced (origin : Nat) : traceAlways s launch origin = s := updTrace_untraced h ..

theorem traceTile_untraced (ctx origin : Nat) (f : Nat → TraceSet → TraceSet) (other : Bool) (tile : Nat) :
    traceTile ctx launch origin f other s tile = s := by
  unfold traceTile
  split
  · split
    · exact updTrace_untraced h ..
    · split
      · exact traceAlways_untraced h _
      · rfl
  · rfl

theorem foldl_traceTile_untraced (ctx origin : Nat) (f : Nat → TraceSet → TraceSet) (other : Bool) (tiles : List Nat) :
    tiles.foldl (traceTile ctx launch origin f other) s = s := by
  induction tiles with
  | nil => rfl
  | cons t ts ih => rw [List.foldl_cons, traceTile_untraced h, ih]

theorem traceRead_untraced (ctx origin va n : Nat) : traceRead s ctx launch origin va n = s := by
  rw [traceRead, foldl_traceTile_untraced h, ite_self]

theorem traceWrite_untraced (ctx origin va n : Nat) : traceWrite s ctx launch origin va n = s := by
  rw [traceWrite, foldl_traceTile_untraced h, ite_self]

end

theorem tracePart_untraced {s : State} {w : Warp} (h : Untraced s w.launch) (p : Part) (leaf : Option Leaf) (rd wr always : Bool) :
    tracePart s w p leaf rd wr always = s := by
  unfold tracePart
  split
  · rfl
  · split
    · exact updTrace_untraced h ..
    · split
      · exact traceAlways_untraced h _
      · rfl

/-! ### A load of one lane -/

/-- An access's part with the value that it read. -/
def Part.took (p : Part) (got : Nat) (present : Bool) : Part := { p with done := true, got := got, present := present }

theorem placeNow_hbm {s : State} {c : Ctx} {w : Warp} {f : Form} {p : Part} {pa : Nat} {l : Leaf}
    (h : resolve s c w.block f.access f.kind p.va p.size = .ok ⟨.hbm pa, some l⟩) :
    placeNow s c w f p = .ok (⟨.hbm pa, some l⟩, false) := by
  rw [placeNow, h]
  cases f <;> rfl

theorem performLoad_hbm {s : State} {w : Warp} {p : Part} {c : Ctx} {pa : Nat} {l : Leaf} (o : Op) (hc : s.ctx? w.ctx = some c)
    (hp : Plain s c w.block .read 0 p.va p.size pa l) (hl : s.lines = []) (ht : Untraced s w.launch) :
    performLoad s w o p = .yes s (p.took (Memory.readN s.mem pa p.size) true) := by
  have hread := readChunk_hbm hp.place hp.still hl hp.good
  simp only [performLoad, hc, placeNow_hbm (f := .load) hp.place, tracePart_untraced ht, hread]
  rfl

/-- The warp with a lane's bit of SR.ABSENT set. -/
def Warp.missed (lane : Nat) (w : Warp) : Warp := { w with absent := w.absent ||| oneLane lane }

theorem performLoad_absent {s : State} {w : Warp} {p : Part} {c : Ctx} {l : Leaf} (o : Op) (hc : s.ctx? w.ctx = some c)
    (hp : resolve s c w.block .read 0 p.va p.size = .ok ⟨.absent, some l⟩) (ht : Untraced s w.launch) :
    performLoad s w o p = .yes (s.updWarp w.id (Warp.missed p.lane)) (p.took 0 false) := by
  have hplace : placeNow s c w .load p = .ok (⟨.absent, some l⟩, false) := by
    rw [placeNow, show resolve s c w.block Form.load.access Form.load.kind p.va p.size = .ok ⟨.absent, some l⟩ from hp]
    rfl
  simp only [performLoad, hc, hplace, tracePart_untraced ht]
  rfl

/-! ### A load's operation -/

theorem reg_markPreds (ps : List Part) (seq : Nat) (w : Warp) (l n : Nat) : (markPreds ps seq w).reg l n = w.reg l n := reg_mapLanes ..

theorem reg_markNv (ps : List Part) (w : Warp) (l n : Nat) : (markNv ps w).reg l n = w.reg l n := reg_mapLanes ..

/-- The predicates of a lane after a load of one lane retired. -/
theorem pred_markPreds (p : Part) (seq : Nat) (w : Warp) {j : Nat} (hj : j < 32) (k : Nat) :
    ((markPreds [p] seq w).lane j).pred k = if ((w.lane j).pred k).pend = some seq then
      { (w.lane j).pred k with val := decide (j = p.lane) && p.present } else (w.lane j).pred k := by
  have hval : (([p].find? (fun p => p.lane == j)).map Part.present).getD false = (decide (j = p.lane) && p.present) := by
    by_cases hjp : j = p.lane
    · simp [hjp]
    · simp [hjp, Ne.symm hjp]
  rw [markPreds, lane_mapLanes _ _ _ hj, if_pos (inMask_allLanes hj), hval]
  simp only [Lane.pred, Vector.getElem_map, beq_iff_eq]
  rfl

section
variable {t : State} {w v : Warp} {o : Op} {p : Part} {d n : Nat} {sgn pr : Bool} {acq : Option Nat}

/-- What a load that is not uniform leaves, once it has retired. -/
theorem retired_load (hk : o.kind = .load d n sgn false pr acq) (ha : Alike w v) (hl : p.lane < 32)
    (hlive : inMask w.live p.lane = true) (hd : d + (n + 3) / 4 ≤ w.alloc) (hw : t.warp? w.id = some (retired v o [p])) :
    Retired t w (wordsAt p.lane d ((n + 3) / 4) (extend sgn n p.got)) := by
  refine retired_of_takes hw ha (takes_one (ha.trans (alike_only v _)) hl hlive hd (extend sgn n)) (fun l k => ?_)
  rw [retireWrites_load _ (o.ended [p]) hk]
  split
  · exact reg_markPreds ..
  · rfl

/-- The predicates of its lanes. -/
theorem pred_retired_load (hk : o.kind = .load d n sgn false true acq) (ha : Alike w v) (hl : p.lane < 32)
    (hlive : inMask w.live p.lane = true) (hd : d + (n + 3) / 4 ≤ w.alloc) {j : Nat} (hj : j < 32) (k : Nat) :
    ((retired v o [p]).lane j).pred k = (if ((w.lane j).pred k).pend = some o.seq then
      { (w.lane j).pred k with val := decide (j = p.lane) && p.present } else (w.lane j).pred k) := by
  have htake := takes_one (ha.trans (alike_only v (o.ended [p]))) hl hlive hd (extend sgn n)
  have hpred : ∀ {x : Lane}, x.preds = (w.lane j).preds → x.pred k = (w.lane j).pred k := fun h => by rw [Lane.pred, Lane.pred, h]
  have hload := retireWrites_load (v.only (o.ended [p])) (o.ended [p]) hk
  rw [if_pos rfl] at hload
  rw [← hpred ((htake.preds hj).trans (ha.preds j hj)), ← pred_markPreds _ _ _ hj, retired_lane, hload]
  rfl

end

/-- LOAD_RETIRE of one lane performs it. -/
theorem exec_loadRetire_performs {s : State} {oid : Nat} {w : Warp} {o : Op} {p : Part} {c : Ctx} (h : Alone s oid w o [p] c) {d n : Nat}
    {sgn u pr : Bool} {acq : Option Nat} (hk : o.kind = .load d n sgn u pr acq) :
    exec (.loadRetire oid (2 ^ p.lane)) s = .next (performOp performLoad oid s [p.lane]) := by
  rw [exec_loadRetire, execLoadRetire, h.op]
  simp only [hk, eventLanes_one (h.lane p (by simp)).1]

/-! ### The clauses on loads -/

section
variable {s : State} {oid : Nat} {w : Warp} {o : Op} {p : Part} {c : Ctx} {d n : Nat} {sgn pr : Bool} {acq : Option Nat}
  (h : Alone s oid w o [p] c) (hd : d + (n + 3) / 4 ≤ w.alloc)
include h hd

/-- A load of a lane from plain memory. -/
theorem load_plain {pa : Nat} {l : Leaf} (hk : o.kind = .load d n sgn false pr acq) (hsize : p.size = n)
    (hp : Plain s c w.block .read 0 p.va n pa l) :
    ∃ t, exec (.loadRetire oid (2 ^ p.lane)) s = .next t ∧ t.mem = s.mem ∧
      Retired t w (wordsAt p.lane d ((n + 3) / 4) (extend sgn n (Memory.readN s.mem pa n))) ∧
      ∃ v, t.warp? w.id = some v ∧ v.absent = w.absent ∧ (pr = true → ∀ j, j < 32 → ∀ k, k < 8 →
        (v.lane j).pred k = (if ((w.lane j).pred k).pend = some o.seq then { (w.lane j).pred k with val := decide (j = p.lane) }
          else (w.lane j).pred k)) := by
  subst hsize
  obtain ⟨hl, hlive⟩ := h.lane p (by simp)
  obtain ⟨hmem, -, hw⟩ := h.performOp (performLoad_hbm o h.ctx hp h.lines h.untraced) h.sole rfl rfl rfl (h.left p (by simp)).2.1
    (List.mem_singleton_self p.lane)
  refine ⟨_, exec_loadRetire_performs h hk, hmem, retired_load (p := p.took _ true) hk (Alike.refl w) hl hlive hd hw, _, hw,
    retired_absent .., ?_⟩
  rintro rfl j hj k -
  rw [pred_retired_load (p := p.took _ true) hk (Alike.refl w) hl hlive hd hj k]
  simp only [Part.took, Bool.and_true]
  congr

/-- `m.ldu` from plain memory. -/
theorem ldu_plain {pa : Nat} {l : Leaf} (hk : o.kind = .load d n sgn true pr acq) (hsize : p.size = n)
    (hp : Plain s c w.block .read 0 p.va n pa l) :
    ∃ t, exec (.loadRetire oid (2 ^ p.lane)) s = .next t ∧ t.mem = s.mem ∧ ∃ v, t.warp? w.id = some v ∧ v.ops = [] ∧
      ∀ j, j < 32 → ∀ m, v.reg j m = (wordsAt j d ((n + 3) / 4) (extend sgn n (Memory.readN s.mem pa n)) j m).getD (w.reg j m) := by
  subst hsize
  obtain ⟨hmem, -, hw⟩ := h.performOp (performLoad_hbm o h.ctx hp h.lines h.untraced) h.sole rfl rfl rfl (h.left p (by simp)).2.1
    (List.mem_singleton_self p.lane)
  refine ⟨_, exec_loadRetire_performs h hk, hmem, _, hw, rfl, fun j hj m => ?_⟩
  set q := p.took (Memory.readN s.mem pa p.size) true
  have htake := takes_ldu (w := w.only (o.ended [q])) (extend sgn p.size q.got) ((p.size + 3) / 4) hd
  rw [retired_reg, retireWrites_ldu _ (o.ended [q]) hk]
  exact (htake.regs j hj m).trans (by simp [wordsAt, q, Part.took, (alike_only w _).reg])

/-- A load of a lane from a page that is not present. -/
theorem load_absent {l : Leaf} (hk : o.kind = .load d n sgn false pr acq) (hsize : p.size = n)
    (hp : resolve s c w.block .read 0 p.va n = .ok ⟨.absent, some l⟩) :
    ∃ t, exec (.loadRetire oid (2 ^ p.lane)) s = .next t ∧ t.mem = s.mem ∧ Retired t w (wordsAt p.lane d ((n + 3) / 4) 0) ∧
      ∃ v, t.warp? w.id = some v ∧ v.absent = (w.absent ||| oneLane p.lane) ∧
        ∀ j, j < 32 → ∀ k, k < 8 → ((w.lane j).pred k).pend = some o.seq → pr = true → ((v.lane j).pred k).val = false := by
  subst hsize
  obtain ⟨hl, hlive⟩ := h.lane p (by simp)
  have hmissed : Alike w (w.missed p.lane) := alike_absent w _
  obtain ⟨hmem, -, hw⟩ := h.performOp (performLoad_absent o h.ctx hp h.untraced)
    (h.sole.updWarp (f := Warp.missed p.lane) rfl rfl (fun _ => rfl)) rfl rfl rfl (h.left p (by simp)).2.1 (List.mem_singleton_self p.lane)
  have hret := retired_load (p := p.took 0 false) hk hmissed hl hlive hd hw
  rw [show (p.took 0 false).got = 0 from rfl, extend_zero] at hret
  refine ⟨_, exec_loadRetire_performs h hk, hmem, hret, _, hw, retired_absent .., ?_⟩
  rintro j hj k - hpend rfl
  rw [pred_retired_load (p := p.took 0 false) hk hmissed hl hlive hd hj k, if_pos hpend]
  exact Bool.and_false _

end

end Sys2Proof.Machine
end

section
/-! PROOF. O43, stores and atomics. -/

namespace Sys2Proof.Machine

set_option Elab.async false

/-! ### A write to plain memory -/

/-- The leaf that an access was resolved under is the one that maps its address. -/
theorem leafOf_of_resolve {s : State} {c : Ctx} {blk : Option Nat} {acc : Access} {kind va n : Nat} {tgt : Target} {l : Leaf}
    (h : resolve s c blk acc kind va n = .ok ⟨tgt, some l⟩) : leafOf s c va = some l := by
  unfold resolve at h
  unfold leafOf
  dsimp only at h
  repeat' split at h
  all_goals simp_all

/-- A write is resolved as an atomic is. -/
theorem resolve_write_eq (s : State) (c : Ctx) (blk : Option Nat) (kind va n : Nat) :
    resolve s c blk .write kind va n = resolve s c blk .atomic kind va n := rfl

/-- What an atomic may do to an address, a read may. -/
theorem resolve_read_of_atomic {s : State} {c : Ctx} {blk : Option Nat} {kind va n : Nat} {p : Place}
    (h : resolve s c blk .atomic kind va n = .ok p) : resolve s c blk .read kind va n = .ok p := by
  unfold resolve at h ⊢
  split at h
  case isTrue => cases h
  case isFalse hva =>
  rw [if_neg hva]
  split at h
  case isTrue hwin =>
    rw [if_pos hwin]
    rw [if_neg (by decide)] at h ⊢
    split at h
    case isTrue => cases h
    case isFalse hres =>
    rw [if_neg hres]
    exact h
  case isFalse hwin =>
  rw [if_neg hwin]
  split at h
  case h_1 => cases h
  case h_2 => cases h
  case h_3 l hl =>
  cases hw : l.w with
  | false => simp [hw] at h
  | true => simpa [hw] using h

theorem Plain.read {s : State} {c : Ctx} {blk : Option Nat} {kind va n pa : Nat} {l : Leaf} (h : Plain s c blk .atomic kind va n pa l) :
    Plain s c blk .read kind va n pa l := { h with place := resolve_read_of_atomic h.place }

theorem Plain.write {s : State} {c : Ctx} {blk : Option Nat} {kind va n pa : Nat} {l : Leaf} (h : Plain s c blk .atomic kind va n pa l) :
    Plain s c blk .write kind va n pa l := { h with place := (resolve_write_eq ..).trans h.place }

theorem pullLine_of_still {s : State} {c : Ctx} {l : Leaf} (h : moveOf c l = none) (va : Nat) : pullLine s c l va = s := by
  rw [pullLine, h]

theorem prepareWrite_still {s : State} {c : Ctx} {l : Leaf} {va : Nat} (hp : l.p = true) (hcow : l.cow = false)
    (hm : moveOf c l = none) : prepareWrite s c l va = .ok s := by
  simp [prepareWrite, hp, writePullFails, hcow, pullFails, hm, pullLine_of_still hm]

/-- A write to plain memory stores its bytes. -/
theorem writeChunk_hbm {s : State} {c : Ctx} {i : Nat} {blk : Option Nat} {kind va n pa : Nat} {l : Leaf} (hc : s.ctx? i = some c)
    (h : Plain s c blk .write kind va n pa l) (hl : s.lines = []) (v : Nat) :
    writeChunk s c blk kind va n v = .ok (rawStore s c.number l va pa n v) := by
  obtain rfl := ctx?_number hc
  have hplace := resolve_hbm h.place
  simp only [writeChunk, h.place, h.present, writeHome, mergeLine_of_no_lines hl, h.unsummed, hc, Option.bind_some,
    leafOf_of_resolve h.place, Option.map_some, prepareWrite_still h.present h.unshared h.still, hplace, Bool.not_true,
    Bool.false_eq_true, if_false]

/-! ### What a store at a frame place leaves -/

section
variable (s : State) (ctx : Nat) (l : Leaf) (va pa n v : Nat)

/-- A stamp is its context's alone. -/
theorem stampTile_eq : ∃ cs, stampTile s ctx l va = { s with ctxs := cs } := by
  unfold stampTile
  split
  · exact ⟨_, rfl⟩
  · exact ⟨_, rfl⟩

/-- A store changes its bytes, and what warps, contexts and the record of uncorrectable data make of it. -/
theorem rawStore_rest : { rawStore s ctx l va pa n v with
    warps := s.warps, ctxs := s.ctxs, mod := { (rawStore s ctx l va pa n v).mod with bad := s.mod.bad } } =
    { s with mem := Memory.writeN s.mem pa n v } := by
  obtain ⟨cs, hcs⟩ := stampTile_eq { s with mem := Memory.writeN s.mem pa n v } ctx l va
  simp only [rawStore, noteWrite, noteWriteOf, clearBad, hcs]

theorem rawStore_mem : (rawStore s ctx l va pa n v).mem = Memory.writeN s.mem pa n v :=
  show _ = ({ s with mem := Memory.writeN s.mem pa n v } : State).mem by rw [← rawStore_rest s ctx l va pa n v]

theorem rawStore_lines : (rawStore s ctx l va pa n v).lines = s.lines :=
  show _ = ({ s with mem := Memory.writeN s.mem pa n v } : State).lines by rw [← rawStore_rest s ctx l va pa n v]

theorem rawStore_launches : (rawStore s ctx l va pa n v).launches = s.launches :=
  show _ = ({ s with mem := Memory.writeN s.mem pa n v } : State).launches by rw [← rawStore_rest s ctx l va pa n v]

theorem rawStore_blocks : (rawStore s ctx l va pa n v).blocks = s.blocks :=
  show _ = ({ s with mem := Memory.writeN s.mem pa n v } : State).blocks by rw [← rawStore_rest s ctx l va pa n v]

theorem rawStore_remotes : (rawStore s ctx l va pa n v).mod.remotes = s.mod.remotes :=
  show _ = ({ s with mem := Memory.writeN s.mem pa n v } : State).mod.remotes by rw [← rawStore_rest s ctx l va pa n v]

/-- The state before monitors see the store. -/
def homed : State := clearBad (stampTile { s with mem := Memory.writeN s.mem pa n v } ctx l va) pa n

/-- The monitors of the warps see it, and nothing else of a warp changes. -/
theorem rawStore_warps : (rawStore s ctx l va pa n v).warps =
    s.warps.map (noted (homed s ctx l va pa n v) (fun t k => t.overlaps k (.hbm pa) n)) := by
  obtain ⟨cs, hcs⟩ := stampTile_eq { s with mem := Memory.writeN s.mem pa n v } ctx l va
  rw [rawStore, noteWrite_warps, hcs]
  simp only [clearBad, homed, hcs]

theorem rawStore_untraced {launch : Nat} (h : Untraced s launch) : Untraced (rawStore s ctx l va pa n v) launch := by
  unfold Untraced State.launch?
  rw [rawStore_launches]
  exact h

end

/-- The bytes of a place hold the value stored, whatever memory held. -/
theorem stored_of_write {s t : State} {pa n v : Nat} (hwf : Memory.wf s.mem = true) (h : t.mem = Memory.writeN s.mem pa n v) :
    Stored s t pa n v := by
  intro a
  rw [State.byte, h, Memory.read_writeN n hwf]
  rfl

/-- Memory that stays holds what was read there. -/
theorem stored_of_same {s t : State} {pa n : Nat} (h : t.mem = s.mem) : Stored s t pa n (Memory.readN s.mem pa n) := by
  intro a
  split
  case isTrue ha =>
    rw [Memory.byte_of_readN _ _ _ _ (by omega), State.byte, h]
    congr 1
    omega
  case isFalse => rw [State.byte, h]; rfl

/-- After a store at a frame place the operation still stands alone in its warp, which reads alike. -/
theorem Sole.rawStore {s : State} {oid : Nat} {w : Warp} {o : Op} (h : Sole s oid w o) (ctx : Nat) (l : Leaf) (va pa n v : Nat) :
    ∃ x, Alike w x ∧ Sole (rawStore s ctx l va pa n v) oid x o :=
  ⟨_, alike_noted _ _ w, h.map (fun v => (alike_noted _ _ v).id) (noted_ops _ _) (rawStore_warps s ctx l va pa n v)⟩

/-! ### A store of one lane -/

theorem performStore_hbm {s : State} {w : Warp} {p : Part} {c : Ctx} {pa : Nat} {l : Leaf} (o : Op) (hc : s.ctx? w.ctx = some c)
    (hp : Plain s c w.block .write 1 p.va p.size pa l) (hl : s.lines = []) (ht : Untraced s w.launch) :
    performStore s w o p = .yes (rawStore s c.number l p.va pa p.size p.data) { p with done := true } := by
  have hpresent : Place.present ⟨.hbm pa, some l⟩ = true := hp.present
  simp only [performStore, hc, placeNow_hbm (f := .store) hp.place, hpresent, Bool.not_true, Bool.false_and, Bool.false_eq_true,
    if_false, writePlace, writeChunk_hbm hc hp hl, tracePart_untraced (rawStore_untraced _ _ _ _ _ _ _ ht)]

theorem pushLines_of_no_lines {s : State} (h : s.lines = []) (core : Nat) : pushLines s core = s := by
  cases s
  cases h
  rfl

/-- STORE_PERFORM of one lane performs it: a release has no line to push. -/
theorem exec_storePerform_performs {s : State} {oid : Nat} {w : Warp} {o : Op} {p : Part} {c : Ctx} (h : Alone s oid w o [p] c)
    {rel : Option Nat} (hk : o.kind = .store rel) :
    exec (.storePerform oid (2 ^ p.lane)) s = .next (performOp performStore oid s [p.lane]) := by
  have hpush : (if rel.isSome then (match homeCore s w with | some c => pushLines s c | none => s) else s) = s := by
    split
    · split
      · exact pushLines_of_no_lines h.lines _
      · rfl
    · rfl
  rw [exec_storePerform, execStorePerform, h.op]
  simp only [hk, h.orderOk rfl, if_true, eventLanes_one (h.lane p (by simp)).1]
  exact congrArg (fun u => Host.Outcome.next (performOp performStore oid u [p.lane])) hpush

/-- A store of a lane to plain memory. -/
theorem store_plain {s : State} {oid : Nat} {w : Warp} {o : Op} {p : Part} {c : Ctx} {rel : Option Nat} {n pa : Nat} {l : Leaf}
    (h : Alone s oid w o [p] c) (hk : o.kind = .store rel) (hsize : p.size = n) (hp : Plain s c w.block .write 1 p.va n pa l)
    (hwf : Memory.wf s.mem = true) : ∃ t, exec (.storePerform oid (2 ^ p.lane)) s = .next t ∧ Stored s t pa n p.data ∧
      ∃ v, t.warp? w.id = some v ∧ v.ops = [] ∧ v.regs = w.regs := by
  subst hsize
  obtain ⟨x, halike, hsole⟩ := h.sole.rawStore c.number l p.va pa p.size p.data
  obtain ⟨hmem, -, hw⟩ := h.performOp (performStore_hbm o h.ctx hp h.lines h.untraced) hsole halike.id rfl rfl
    (h.left p (by simp)).2.1 (List.mem_singleton_self p.lane)
  refine ⟨_, exec_storePerform_performs h hk, stored_of_write hwf (hmem.trans (rawStore_mem ..)), _, hw, rfl, ?_⟩
  rw [retired, retireWrites_store _ (o.ended _) hk]
  exact halike.regs

/-! ### An atomic of one lane -/

/-- A state after an access that may store a value at its place. -/
def storeIf (s : State) (ctx : Nat) (l : Leaf) (va pa n : Nat) : Option Nat → State
  | none => s
  | some v => rawStore s ctx l va pa n v

section
variable {s : State} (ctx : Nat) (l : Leaf) (va pa n : Nat) (v : Option Nat)

theorem storeIf_untraced {launch : Nat} (h : Untraced s launch) : Untraced (storeIf s ctx l va pa n v) launch := by
  cases v with
  | none => exact h
  | some v => exact rawStore_untraced _ _ _ _ _ _ _ h

theorem Sole.storeIf {oid : Nat} {w : Warp} {o : Op} (h : Sole s oid w o) :
    ∃ x, Alike w x ∧ Sole (storeIf s ctx l va pa n v) oid x o := by
  cases v with
  | none => exact ⟨w, Alike.refl w, h⟩
  | some v =>
    obtain ⟨x, halike, hsole⟩ := h.rawStore ctx l va pa n v
    exact ⟨x, halike, hsole⟩

theorem storeIf_stored {t : State} (hwf : Memory.wf s.mem = true) (h : t.mem = (storeIf s ctx l va pa n v).mem) :
    Stored s t pa n (v.getD (Memory.readN s.mem pa n)) := by
  cases v with
  | none => exact stored_of_same h
  | some v => exact stored_of_write hwf (h.trans (rawStore_mem ..))

end

theorem performRmw_hbm {s : State} {w : Warp} {p : Part} {c : Ctx} {pa : Nat} {l : Leaf} (hc : s.ctx? w.ctx = some c)
    (hp : Plain s c w.block .atomic 2 p.va p.size pa l) (hl : s.lines = []) (pl : Place) (f : Nat → Option Nat) :
    performRmw s w p pl false f = .yes (storeIf s c.number l p.va pa p.size (f (Memory.readN s.mem pa p.size)))
      (p.took (Memory.readN s.mem pa p.size) true) := by
  have hread := readChunk_hbm hp.read.place hp.still hl hp.good
  simp only [performRmw, hc, hread, Bool.false_eq_true, if_false]
  cases f (Memory.readN s.mem pa p.size) with
  | none => rfl
  | some v => simp only [writePlace, Bool.false_eq_true, if_false, writeChunk_hbm hc hp.write hl]; rfl

theorem performAtomic_hbm {s : State} {w : Warp} {p : Part} {c : Ctx} {pa : Nat} {l : Leaf} (o : Op) (hc : s.ctx? w.ctx = some c)
    (hp : Plain s c w.block .atomic 2 p.va p.size pa l) (hl : s.lines = []) (ht : Untraced s w.launch) :
    performAtomic s w o p = .yes (storeIf s c.number l p.va pa p.size (atomEffect o.kind p (Memory.readN s.mem pa p.size)))
      (p.took (Memory.readN s.mem pa p.size) true) := by
  have hform : placeNow s c w (atomForm o.kind) p = .ok (⟨.hbm pa, some l⟩, false) := by
    refine placeNow_hbm ?_
    rw [← hp.place]
    cases o.kind <;> rfl
  simp only [performAtomic, hc, hform, performRmw_hbm hc hp hl]
  simp only [Part.took, if_true, tracePart_untraced (storeIf_untraced _ _ _ _ _ _ ht)]

/-- ATOMIC_PERFORM performs the lanes that it names. -/
theorem exec_atomicPerform_performs {s : State} {oid : Nat} {w : Warp} {o : Op} {ps : List Part} {c : Ctx} (h : Alone s oid w o ps c)
    (hk : (∃ fn d, o.kind = .atomic fn d) ∨ ∃ d n, o.kind = .cas d n) (m : Nat) :
    exec (.atomicPerform oid m) s = .next (performOp performAtomic oid s (eventLanes m)) := by
  rw [exec_atomicPerform, execAtomicPerform, h.op]
  rcases hk with ⟨fn, d, hk⟩ | ⟨d, n, hk⟩ <;> simp only [hk]

theorem words_of {n : Nat} (h : n = 4 ∨ n = 8) : (if n = 8 then 2 else 1) = (n + 3) / 4 := by
  rcases h with rfl | rfl <;> rfl

theorem AtomFn.bytes_cases (fn : AtomFn) : fn.bytes = 4 ∨ fn.bytes = 8 := by
  cases fn <;> simp [AtomFn.bytes]

section
variable {t : State} {w v : Warp} {o : Op} {p : Part} {d n : Nat} (ha : Alike w v) (hl : p.lane < 32) (hlive : inMask w.live p.lane = true)
  (hd : d + (n + 3) / 4 ≤ w.alloc) (hw : t.warp? w.id = some (retired v o [p]))
include ha hl hlive hd hw

/-- What an atomic leaves in the registers, once it has retired. -/
theorem retired_atomic {fn : AtomFn} (hn : fn.bytes = n) (hk : o.kind = .atomic fn d) :
    Retired t w (wordsAt p.lane d ((n + 3) / 4) p.got) := by
  refine retired_of_takes hw ha (takes_one (ha.trans (alike_only v _)) hl hlive hd (fun x => x)) (fun l k => ?_)
  rw [retireWrites_atomic _ (o.ended [p]) hk, words_of fn.bytes_cases, hn]
  split
  · exact reg_markNv ..
  · rfl

theorem retired_cas (hn : n = 4 ∨ n = 8) (hk : o.kind = .cas d n) : Retired t w (wordsAt p.lane d ((n + 3) / 4) p.got) := by
  refine retired_of_takes hw ha (takes_one (ha.trans (alike_only v _)) hl hlive hd (fun x => x)) (fun l k => ?_)
  rw [retireWrites_cas _ (o.ended [p]) hk, words_of hn]
  rfl

end

/-- NV of one lane's least or greatest. -/
theorem fpflags_markNv {p : Part} (hl : p.lane < 32) (w : Warp) {j : Nat} (hj : j < 32) :
    ((markNv [p] w).lane j).fpflags = ((w.lane j).fpflags ||| if j = p.lane ∧
      ((Fmt.f32.decode p.got).isSignalling = true ∨ (Fmt.f32.decode p.data).isSignalling = true) then flagNV else 0#5) := by
  rw [markNv, lane_mapLanes _ _ _ hj]
  by_cases hjp : j = p.lane
  · rw [if_pos ((inMask_partLanes_one hl j).2 hjp), hjp]
    simp [nvIf]
  · rw [if_neg (fun hm => hjp ((inMask_partLanes_one hl j).1 hm)), if_neg (fun h => hjp h.1), BitVec.or_zero]

/-- SR.FPFLAGS after an atomic of one lane. -/
theorem fpflags_retired_atomic {w v : Warp} {o : Op} {p : Part} {d : Nat} {fn : AtomFn} (ha : Alike w v) (hl : p.lane < 32)
    (hlive : inMask w.live p.lane = true) (hd : d + (fn.bytes + 3) / 4 ≤ w.alloc) (hk : o.kind = .atomic fn d) {j : Nat} (hj : j < 32) :
    ((retired v o [p]).lane j).fpflags = ((w.lane j).fpflags ||| if j = p.lane ∧ (fn = .minF32 ∨ fn = .maxF32) ∧
      ((Fmt.f32.decode p.got).isSignalling = true ∨ (Fmt.f32.decode p.data).isSignalling = true) then flagNV else 0#5) := by
  have htake := (takes_one (ha.trans (alike_only v (o.ended [p]))) hl hlive hd (fun x => x)).fpflags hj
  have hold := htake.trans (ha.fpflags j hj)
  rw [retired_lane, retireWrites_atomic _ (o.ended [p]) hk, words_of fn.bytes_cases]
  by_cases hfn : fn = .minF32 ∨ fn = .maxF32
  · rw [if_pos hfn, ← hold]
    simp only [hfn, true_and]
    exact fpflags_markNv hl _ hj
  · rw [if_neg hfn, if_neg (fun h => hfn h.2.1), BitVec.or_zero]
    exact hold

/-! ### The clauses on atomics of one lane -/

section
variable {s : State} {oid : Nat} {w : Warp} {o : Op} {p : Part} {c : Ctx} {d n pa : Nat} {l : Leaf} (h : Alone s oid w o [p] c)
  (hsize : p.size = n) (hp : Plain s c w.block .atomic 2 p.va n pa l)
include h hsize hp

/-- The operation is performed: memory takes what the atomic gives there, and the warp retires it. -/
theorem atomic_performs (hk : (∃ fn d, o.kind = .atomic fn d) ∨ ∃ d n, o.kind = .cas d n) (hwf : Memory.wf s.mem = true) :
    ∃ t x, exec (.atomicPerform oid (2 ^ p.lane)) s = .next t ∧ Alike w x ∧
      Stored s t pa n ((atomEffect o.kind p (Memory.readN s.mem pa n)).getD (Memory.readN s.mem pa n)) ∧
      t.warp? w.id = some (retired x o [p.took (Memory.readN s.mem pa n) true]) := by
  subst hsize
  obtain ⟨x, halike, hsole⟩ := h.sole.storeIf c.number l p.va pa p.size (atomEffect o.kind p (Memory.readN s.mem pa p.size))
  obtain ⟨hmem, -, hw⟩ := h.performOp (performAtomic_hbm o h.ctx hp h.lines h.untraced) hsole halike.id rfl rfl
    (h.left p (by simp)).2.1 (List.mem_singleton_self p.lane)
  refine ⟨_, x, ?_, halike, storeIf_stored _ _ _ _ _ _ hwf hmem, hw⟩
  rw [exec_atomicPerform_performs h hk, eventLanes_one (h.lane p (by simp)).1]

variable (hd : d + (n + 3) / 4 ≤ w.alloc)
include hd

/-- An atomic that returns the value it found. -/
theorem atomic_plain {fn : AtomFn} (hfn : fn.bytes = n) (hk : o.kind = .atomic fn d) (hwf : Memory.wf s.mem = true) :
    ∃ t, exec (.atomicPerform oid (2 ^ p.lane)) s = .next t ∧
      Stored s t pa n (fn.apply (Memory.readN s.mem pa n) p.data) ∧
      Retired t w (wordsAt p.lane d ((n + 3) / 4) (Memory.readN s.mem pa n)) ∧
      ∃ v, t.warp? w.id = some v ∧ ∀ j, j < 32 → (v.lane j).fpflags = ((w.lane j).fpflags |||
        if j = p.lane ∧ (fn = .minF32 ∨ fn = .maxF32) ∧ ((Fmt.f32.decode (Memory.readN s.mem pa n)).isSignalling = true ∨
          (Fmt.f32.decode p.data).isSignalling = true) then flagNV else 0#5) := by
  obtain ⟨hl, hlive⟩ := h.lane p (by simp)
  obtain ⟨t, x, hexec, halike, hstored, hw⟩ := atomic_performs h hsize hp (.inl ⟨fn, d, hk⟩) hwf
  rw [hk] at hstored
  subst hfn
  refine ⟨t, hexec, hstored, retired_atomic (p := p.took _ true) halike hl hlive hd hw rfl hk, _, hw, fun j hj => ?_⟩
  exact fpflags_retired_atomic (p := p.took _ true) halike hl hlive hd hk hj

/-- A compare-and-swap. -/
theorem cas_plain (hn : n = 4 ∨ n = 8) (hk : o.kind = .cas d n) (hwf : Memory.wf s.mem = true) :
    ∃ t, exec (.atomicPerform oid (2 ^ p.lane)) s = .next t ∧
      Stored s t pa n (if Memory.readN s.mem pa n = p.expect then p.data else Memory.readN s.mem pa n) ∧
      Retired t w (wordsAt p.lane d ((n + 3) / 4) (Memory.readN s.mem pa n)) := by
  obtain ⟨hl, hlive⟩ := h.lane p (by simp)
  obtain ⟨t, x, hexec, halike, hstored, hw⟩ := atomic_performs h hsize hp (.inr ⟨d, n, hk⟩) hwf
  rw [hk] at hstored
  refine ⟨t, hexec, ?_, retired_cas (p := p.took _ true) halike hl hlive hd hw hn hk⟩
  by_cases he : Memory.readN s.mem pa n = p.expect
  · simpa [atomEffect, he] using hstored
  · simpa [atomEffect, he] using hstored

end

end Sys2Proof.Machine
end

section
/-! PROOF. O43, an atomic of two lanes that name one address: the lower lane goes first, and the other finds what it stored. -/

namespace Sys2Proof.Machine

set_option Elab.async false

/-- Where an access leads depends on the tables and the blocks alone. -/
theorem resolve_congr {s t : State} (hm : t.mem = s.mem) (hb : t.blocks = s.blocks) (c : Ctx) (blk : Option Nat) (acc : Access)
    (kind va n : Nat) : resolve t c blk acc kind va n = resolve s c blk acc kind va n := by
  have hblk : t.block? = s.block? := by
    funext i
    rw [State.block?, State.block?, hb]
  have hwalk : ∀ va, walk t c va = walk s c va := fun va => by simp [walk, hm]
  simp only [resolve, hblk, hwalk]

section
variable (s : State) (ctx : Nat) (l : Leaf) (va pa n v : Nat)

theorem rawStore_ctxs_untracked (h : l.trk = false) : (rawStore s ctx l va pa n v).ctxs = s.ctxs := by
  simp only [rawStore, noteWrite, noteWriteOf, clearBad, stampTile, h, Bool.false_eq_true, if_false]

/-- A store brings no uncorrectable data. -/
theorem rawStore_badAt {a k : Nat} (h : badAt s a k = none) : badAt (rawStore s ctx l va pa n v) a k = none := by
  obtain ⟨cs, hcs⟩ := stampTile_eq { s with mem := Memory.writeN s.mem pa n v } ctx l va
  simp only [badAt, Option.map_eq_none_iff, List.find?_eq_none] at h ⊢
  intro b hb
  simp only [rawStore, noteWrite, noteWriteOf, clearBad, hcs] at hb
  exact h b (List.mem_of_mem_filter hb)

end

theorem setPart_running {s : State} {oid : Nat} {w : Warp} {o : Op} {p : Part} {ps : List Part} (hop : s.op? oid = some (w, o))
    (hps : updFirst (fun q => q.lane == p.lane) (fun _ => p) o.parts = ps) (hrun : partsState ps = .running) :
    setPart s oid p = s.setOp { o with parts := ps } := by
  simp only [setPart, hop, hps, hrun]

/-- The registers of two lanes. -/
theorem takes_two {w v : Warp} (h : Alike w v) {p q : Part} {d k : Nat} (hpl : p.lane < 32) (hql : q.lane < 32)
    (hplive : inMask w.live p.lane = true) (hqlive : inMask w.live q.lane = true) (hne : p.lane ≠ q.lane) (hd : d + k ≤ w.alloc) :
    Takes v (v.takeWords (partLanes [p, q]) d k (gotOf [p, q]))
      (fun j n => (wordsAt p.lane d k p.got j n).or (wordsAt q.lane d k q.got j n)) := by
  have hmem : ∀ l, inMask (partLanes [p, q]) l = true ↔ l = p.lane ∨ l = q.lane := by
    intro l
    rw [partLanes, inMask_maskOf]
    simp only [List.any_cons, List.any_nil, Bool.or_false, Bool.and_eq_true, decide_eq_true_eq, Bool.or_eq_true, beq_iff_eq]
    omega
  refine (takes_words (gotOf [p, q]) (fun l hm => ?_) k (by rw [h.regs]; exact hd)).congr (fun l _ n => ?_)
  · rw [h.live]
    rcases (hmem l).1 hm with rfl | rfl
    · exact hplive
    · exact hqlive
  · simp only [hmem, wordsAt]
    by_cases hlp : l = p.lane
    · have hgot : gotOf [p, q] p.lane = p.got := by simp [gotOf]
      rw [hlp, hgot]
      simp [hne]
    · by_cases hlq : l = q.lane
      · have hgot : gotOf [p, q] q.lane = q.got := by simp [gotOf, hne]
        rw [hlq, hgot]
        simp [Ne.symm hne]
      · simp [hlp, hlq]

/-! ### The lower lane -/

/-- The operation with the lower lane performed. -/
def Op.half (o : Op) (p q : Part) : Op := { o with parts := [p, q] }

/-- The state with it performed. -/
def halfDone (s : State) (c : Ctx) (l : Leaf) (o : Op) (p q : Part) (pa v : Nat) : State :=
  (rawStore s c.number l p.va pa p.size v).setOp (o.half (p.took (Memory.readN s.mem pa p.size) true) q)

section
variable {s : State} {oid : Nat} {w : Warp} {o : Op} {p q : Part} {c : Ctx} {pa v : Nat} {l : Leaf}
  (h : Alone s oid w o [p, q] c)
include h

theorem halfDone_performs (hlt : p.lane < q.lane) (hp : Plain s c w.block .atomic 2 p.va p.size pa l)
    (hv : atomEffect o.kind p (Memory.readN s.mem pa p.size) = some v) (ls : List Nat) :
    performParts performAtomic oid s (p.lane :: ls) = performParts performAtomic oid (halfDone s c l o p q pa v) ls := by
  obtain ⟨hpd, hpr, -⟩ := h.left p (by simp)
  obtain ⟨hqd, hqr, -⟩ := h.left q (by simp)
  have hfirst := performAtomic_hbm o h.ctx hp h.lines h.untraced
  rw [hv] at hfirst
  have hgo : (o.state == .running && orderOk s w o && partOk w o p) = true := by
    rw [h.running, h.orderOk rfl, partOk_sole h.ops (by rw [h.parts]; simp [hlt.le])]
    rfl
  obtain ⟨x, -, hsole⟩ := h.sole.rawStore c.number l p.va pa p.size v
  rw [performParts_yes h.op? (p := p) (by simp [h.parts, hpd, hpr]) hgo hfirst]
  refine congrArg (fun u => performParts performAtomic oid u ls) (setPart_running hsole.op? ?_ ?_)
  · simp [h.parts, updFirst, Part.took]
  · simp [partsState, hqd, hqr]

theorem halfDone_lastLeft : ∃ x, Alike w x ∧
    LastLeft (halfDone s c l o p q pa v) oid x (o.half (p.took (Memory.readN s.mem pa p.size) true) q) q := by
  obtain ⟨hqd, hqr, -⟩ := h.left q (by simp)
  obtain ⟨x, halike, hsole⟩ := h.sole.rawStore c.number l p.va pa p.size v
  have halike2 := halike.trans (alike_only x (o.half (p.took (Memory.readN s.mem pa p.size) true) q))
  refine ⟨_, halike2, hsole.setOp h.sole.id, h.running, h.tag, halike2.fences.trans h.fences,
    (rawStore_remotes ..).trans h.answered.1, fun k => ?_, by simp [Op.half, Part.took]⟩
  by_cases hk : k = q.lane
  · simp [Op.half, Part.took, hk, hqd, hqr]
  · simp [Op.half, Part.took, hk, Ne.symm hk]

end

section
variable {s : State} {w x : Warp} (o : Op) {p q : Part} {c : Ctx} {pa : Nat} (v : Nat) {l : Leaf}

/-- The other lane's access leads to the same place, where the table entries stand outside what was written. -/
theorem halfDone_plain (hp : Plain s c w.block .atomic 2 p.va p.size pa l) (hblk : x.block = w.block) (hva : p.va = q.va)
    (hsize : q.size = p.size)
    (hres : ∀ acc v, resolve { s with mem := Memory.writeN s.mem pa p.size v } c w.block acc 2 p.va p.size =
      resolve s c w.block acc 2 p.va p.size) :
    Plain (halfDone s c l o p q pa v) c x.block .atomic 2 q.va q.size pa l := by
  refine ⟨?_, hp.present, hp.unsummed, hp.unshared, hp.still, ?_⟩
  · rw [hblk, hsize, ← hva, ← hp.place, ← hres .atomic v]
    exact resolve_congr (s := { s with mem := Memory.writeN s.mem pa p.size v }) (rawStore_mem s c.number l p.va pa p.size v)
      (rawStore_blocks s c.number l p.va pa p.size v) ..
  · rw [hsize]
    exact rawStore_badAt _ _ _ _ _ _ _ hp.good

theorem halfDone_ctx (hc : s.ctx? w.ctx = some c) (hctx : x.ctx = w.ctx) (htrk : l.trk = false) :
    (halfDone s c l o p q pa v).ctx? x.ctx = some c := by
  rw [hctx, State.ctx?]
  exact (congrArg (List.find? _) (rawStore_ctxs_untracked _ _ _ _ _ _ _ htrk)).trans hc

end

/-! ### The clause -/

/-- Bytes stored twice hold what was stored last. -/
theorem stored_twice {s t : State} {pa n a b : Nat} (hwf : Memory.wf s.mem = true)
    (h : t.mem = Memory.writeN (Memory.writeN s.mem pa n a) pa n b) : Stored s t pa n b := by
  intro x
  rw [State.byte, h, Memory.read_writeN n (Memory.wf_writeN n pa a hwf)]
  split
  case isTrue => rfl
  case isFalse hx => rw [Memory.read_writeN n hwf, if_neg hx]; rfl

/-- What an atomic of two lanes leaves in the registers. -/
theorem retired_atomic_two {t : State} {w v : Warp} {o : Op} {p q : Part} {d : Nat} {fn : AtomFn} (ha : Alike w v) (hpl : p.lane < 32)
    (hql : q.lane < 32) (hplive : inMask w.live p.lane = true) (hqlive : inMask w.live q.lane = true) (hne : p.lane ≠ q.lane)
    (hd : d + (fn.bytes + 3) / 4 ≤ w.alloc) (hw : t.warp? w.id = some (retired v o [p, q])) (hk : o.kind = .atomic fn d) :
    Retired t w (fun j n =>
      (wordsAt p.lane d ((fn.bytes + 3) / 4) p.got j n).or (wordsAt q.lane d ((fn.bytes + 3) / 4) q.got j n)) := by
  refine retired_of_takes hw ha (takes_two (ha.trans (alike_only v _)) hpl hql hplive hqlive hne hd) (fun j n => ?_)
  rw [retireWrites_atomic _ (o.ended [p, q]) hk, words_of fn.bytes_cases]
  split
  · exact reg_markNv ..
  · rfl

/-- Two lanes of an atomic name one address of plain memory. -/
theorem atomic_two {s : State} {oid : Nat} {w : Warp} {o : Op} {p q : Part} {c : Ctx} {d pa : Nat} {fn : AtomFn} {l : Leaf}
    (h : Alone s oid w o [p, q] c) (hk : o.kind = .atomic fn d) (hps : p.size = fn.bytes) (hqs : q.size = fn.bytes)
    (hva : p.va = q.va) (hlt : p.lane < q.lane) (hd : d + (fn.bytes + 3) / 4 ≤ w.alloc)
    (hp : Plain s c w.block .atomic 2 p.va fn.bytes pa l) (htrk : l.trk = false) (hwf : Memory.wf s.mem = true)
    (hres : ∀ acc x, resolve { s with mem := Memory.writeN s.mem pa fn.bytes x } c w.block acc 2 p.va fn.bytes =
      resolve s c w.block acc 2 p.va fn.bytes) :
    let old := Memory.readN s.mem pa fn.bytes
    let mid := fn.apply old p.data % 256 ^ fn.bytes
    ∃ t, exec (.atomicPerform oid (2 ^ p.lane + 2 ^ q.lane)) s = .next t ∧ Stored s t pa fn.bytes (fn.apply mid q.data) ∧
      Retired t w (fun j n => (wordsAt p.lane d ((fn.bytes + 3) / 4) old j n).or (wordsAt q.lane d ((fn.bytes + 3) / 4) mid j n)) := by
  intro old mid
  obtain ⟨hpl, hplive⟩ := h.lane p (by simp)
  obtain ⟨hql, hqlive⟩ := h.lane q (by simp)
  have hpr := (h.left p (by simp)).2.1
  have hqr := (h.left q (by simp)).2.1
  have hne : p.lane ≠ q.lane := by omega
  rw [← hps] at hp
  obtain ⟨x, halike, hlast⟩ := halfDone_lastLeft (l := l) (pa := pa) (v := fn.apply old p.data) h
  set p1 := p.took (Memory.readN s.mem pa p.size) true with hp1
  set u := halfDone s c l o p q pa (fn.apply old p.data) with hu
  have humem : u.mem = Memory.writeN s.mem pa fn.bytes (fn.apply old p.data) := by
    rw [← hps]
    exact rawStore_mem ..
  have hmid : Memory.readN u.mem pa q.size = mid := by rw [humem, hqs, Memory.readN_writeN _ hwf]
  have hsecond := performAtomic_hbm (o.half p1 q) (halfDone_ctx o _ h.ctx halike.ctx htrk)
    (halfDone_plain o (fn.apply old p.data) hp halike.block hva (hqs.trans hps.symm) (by rw [hps]; exact hres))
    ((rawStore_lines ..).trans h.lines) (by rw [halike.launch]; exact rawStore_untraced _ _ _ _ _ _ _ h.untraced)
  rw [← hu, hmid] at hsecond
  obtain ⟨y, hy, hsole⟩ := hlast.sole.storeIf c.number l q.va pa q.size (atomEffect (o.half p1 q).kind q mid)
  have hput : updFirst (fun r => r.lane == (q.took mid true).lane) (fun _ => q.took mid true) (o.half p1 q).parts =
      [p1, q.took mid true] := by simp [Op.half, updFirst, hp1, Part.took, hne]
  obtain ⟨hmem, -, hw⟩ := hlast.performOp hsecond hsole hy.id hput (by simp [Performs, hp1, Part.took, hpr, hqr])
    (List.mem_singleton_self q.lane)
  have hboth : performOp performAtomic oid s [p.lane, q.lane] = performOp performAtomic oid u [q.lane] :=
    congrArg (fun t => retireOp t oid) (halfDone_performs h hlt hp (by rw [hk, hps]; rfl) [q.lane])
  refine ⟨_, exec_atomicPerform_performs h (.inl ⟨fn, d, hk⟩) _, ?_, ?_⟩ <;> rw [eventLanes_two hql hlt, hboth]
  · refine stored_twice hwf (a := fn.apply old p.data) (hmem.trans ?_)
    rw [show (o.half p1 q).kind = .atomic fn d from hk, ← humem, ← hqs]
    exact rawStore_mem ..
  · rw [halike.id] at hw
    have hret := retired_atomic_two (halike.trans hy) hpl hql hplive hqlive hne hd (p := p1) (q := q.took mid true) hw hk
    rwa [show p1.got = old by rw [hp1, hps]; rfl] at hret

end Sys2Proof.Machine
end

section
/-! PROOF. O43, reductions: a partial is left in the core's copy of its line, and a merge brings it home. -/

namespace Sys2Proof.Machine

set_option Elab.async false

/-! ### A reduction is placed -/

section
variable {s : State} {oid : Nat} {w : Warp} {o : Op} {p : Part} {c : Ctx} {fn : AtomFn} {pa core : Nat} {l : Leaf}

/-- The first partial of a core with no copy of any line. -/
theorem applyPartial_first (hl : s.lines = []) (core : Nat) (q : Partial) :
    applyPartial s core q = { s with lines := [{ core := core, line := q.pa / 128, parts := [{ q with
      value := q.fn.apply q.fn.identity q.value }] }] } := by
  simp [applyPartial, hl]

/-- The state in which a lane's partial stands in its core's copy of the line. -/
def copied (s : State) (w : Warp) (o : Op) (p : Part) (fn : AtomFn) (core pa : Nat) : State :=
  { s with lines := [{ core := core, line := pa / 128, parts := [{
    pa := pa, va := p.va, ctx := w.ctx, fn := fn, value := fn.apply fn.identity p.data, op := o.id }] }] }

/-- A lane's reduction on a page of plain memory goes to its core's copy of the line. -/
theorem placeLocal_copies (h : Alone s oid w o [p] c) (hcore : w.core? = some core)
    (hp : Plain s c w.block .atomic 2 p.va p.size pa l) (hmon : lineMonitored s (pa / 128) = false) :
    placeLocal s w o fn l c p = setPart (copied s w o p fn core pa) oid { p with done := true } := by
  obtain ⟨hpd, hpr, -⟩ := h.left p (by simp)
  have hmine : (o.parts.filter (fun q => q.va == p.va && !q.done && q.refused.isNone)).takeWhile (laneOk w o) = [p] := by
    simp [h.parts, hpd, hpr, laneOk_sole h.ops]
  have htrace : Untraced (copied s w o p fn core pa) w.launch := h.untraced
  simp only [placeLocal, hmine, combined, List.foldl_nil, prepareWrite_still hp.present hp.unshared hp.still, h.ctx, Option.bind_some,
    leafOf_of_resolve hp.place, Option.map_some, resolve_hbm hp.place, hp.unsummed, hmon, h.fences, List.any_nil, Bool.or_self, hcore,
    applyPartial_first h.lines, List.foldl_cons]
  exact (congrArg (fun u => setPart u o.id { p with done := true }) (traceWrite_untraced htrace ..)).trans (by rw [h.sole.id])

theorem placeParts_copies (h : Alone s oid w o [p] c) (hcore : w.core? = some core)
    (hp : Plain s c w.block .atomic 2 p.va p.size pa l) (hmon : lineMonitored s (pa / 128) = false) :
    placeParts oid fn s [p.lane] = setPart (copied s w o p fn core pa) oid { p with done := true } := by
  obtain ⟨hpd, hpr, -⟩ := h.left p (by simp)
  have hfind : o.parts.find? (fun q => q.lane == p.lane && !q.done && q.refused.isNone) = some p := by simp [h.parts, hpd, hpr]
  have hgo : (orderOk s w o && partOk w o p) = true := by
    rw [h.orderOk rfl, partOk_sole h.ops h.lastLeft.lowest]
    rfl
  simp only [placeParts, h.op?, hfind, h.ctx, hgo, if_true, hp.place]
  exact placeLocal_copies h hcore hp hmon

/-- A reduction of a lane. -/
theorem reduce_plain (h : Alone s oid w o [p] c) (hk : o.kind = .reduce fn) (hsize : p.size = fn.bytes) (hcore : w.core? = some core)
    (hp : Plain s c w.block .atomic 2 p.va fn.bytes pa l) (hmon : lineMonitored s (pa / 128) = false) :
    ∃ t, exec (.reductionPlace oid (2 ^ p.lane)) s = .next t ∧ t.mem = s.mem ∧
      t.lines = [{ core := core, line := pa / 128, parts := [{
        pa := pa, va := p.va, ctx := w.ctx, fn := fn, value := fn.apply fn.identity p.data, op := o.id }] }] ∧
      ∃ v, t.warp? w.id = some v ∧ v.ops = [] ∧ v.regs = w.regs := by
  obtain ⟨hl, -⟩ := h.lane p (by simp)
  obtain ⟨-, hpr, -⟩ := h.left p (by simp)
  rw [← hsize] at hp
  have hsole : Sole (copied s w o p fn core pa) oid w o := h.sole.congr rfl
  have hput : updFirst (fun q => q.lane == p.lane) (fun _ => { p with done := true }) o.parts = [{ p with done := true }] := by
    simp [h.parts, updFirst]
  have hdone : Performs [{ p with done := true }] := by simp [Performs, hpr]
  have hset := hsole.setPart_eq (p := { p with done := true }) h.tag hput hdone
  have hclosed := hsole.setPart_closed (p := { p with done := true }) h.tag hput hdone
  have hexec : exec (.reductionPlace oid (2 ^ p.lane)) s = .next (setPart (copied s w o p fn core pa) oid { p with done := true }) := by
    rw [exec_reductionPlace, execReductionPlace, h.op]
    simp only [hk, eventLanes_one hl, placeParts_copies h hcore hp hmon, hclosed.retireOp]
  have hw := hclosed.warp
  rw [retired_id] at hw
  refine ⟨_, hexec, by rw [hset]; rfl, by rw [hset]; rfl, _, hw, rfl, ?_⟩
  rw [retired, retireWrites_reduce _ (o.ended _) hk]
  rfl

end

/-! ### A copy of a line is merged -/

theorem mergePartial_home {s : State} {q : Partial} {c : Ctx} {l : Leaf} (hc : s.ctx? q.ctx = some c) (hl : leafOf s c q.va = some l)
    (hgood : badAt s q.pa q.fn.bytes = none) :
    mergePartial s q = rawStore s q.ctx l q.va q.pa q.fn.bytes (q.fn.apply (Memory.readN s.mem q.pa q.fn.bytes) q.value) := by
  simp only [mergePartial, hc, hgood, hl]

/-- The only copy of a line goes home. -/
theorem merge_only {s : State} {u : UpdateLine} {q : Partial} {c : Ctx} {l : Leaf} (hlines : s.lines = [u]) (hparts : u.parts = [q])
    (hc : s.ctx? q.ctx = some c) (hl : leafOf s c q.va = some l) (hgood : badAt s q.pa q.fn.bytes = none)
    (hwf : Memory.wf s.mem = true) : ∃ t, exec (.updateLineMerge u.core u.line) s = .next t ∧ t.lines = [] ∧
      Stored s t q.pa q.fn.bytes (q.fn.apply (Memory.readN s.mem q.pa q.fn.bytes) q.value) := by
  set r : State := { s with lines := [] } with hr
  have hleaf : leafOf r c q.va = some l := (leafOf_congr rfl rfl q.va).trans hl
  have hexec : exec (.updateLineMerge u.core u.line) s = .next (mergePartial r q) := by
    simp [exec_updateLineMerge, execUpdateLineMerge, hlines, hparts, hr]
  rw [mergePartial_home (s := r) hc hleaf hgood] at hexec
  refine ⟨_, hexec, rawStore_lines .., ?_⟩
  exact stored_of_write (s := s) hwf (rawStore_mem ..)

end Sys2Proof.Machine
end

section
/-! PROOF. O43, texture queries and texture accesses. -/

namespace Sys2Proof.Machine

set_option Elab.async false

/-! ### What a texture access reads -/

/-- The warp's only operation holds no range back from itself. -/
theorem rangeOk_sole {s : State} {w : Warp} {o : Op} (hops : w.ops = [o]) (lane va n : Nat) : rangeOk s w o.id lane va n = true := by
  simp [rangeOk, hops]

theorem texRead_ok {s : State} {w : Warp} {p : Part} {va n : Nat} {r : List Nat × State} (h : readMem s w.ctx w.block 0 va n = .ok r) :
    texRead s w p va n = .ok (some r.1, r.2) := by
  simp only [texRead, h]

/-- Ranges that are each read with no change of the state. -/
theorem texReads_ok {s : State} {w : Warp} {o : Op} {p : Part} (hops : w.ops = [o]) (ht : Untraced s w.launch) :
    ∀ {rs : List (Nat × Nat)} {bs : List (List Nat)}, bs.length = rs.length →
      (∀ q ∈ rs.zip bs, readMem s w.ctx w.block 0 q.1.1 q.1.2 = .ok (q.2, s)) → texReads w o.id p s rs = .ok (some bs, s)
  | [], [], _, _ => rfl
  | (va, n) :: rs, b :: bs, hlen, hread => by
    have hhead := hread ((va, n), b) (by simp)
    have htail := texReads_ok (p := p) hops ht (rs := rs) (bs := bs) (by simpa using hlen)
      (fun q hq => hread q (by rw [List.zip_cons_cons]; exact List.mem_cons_of_mem _ hq))
    simp only [texReads, rangeOk_sole hops, texRead_ok hhead, traceRead_untraced ht, htail, Bool.not_true, Bool.false_eq_true, if_false]

/-- The state in which a texture access reads its texels. -/
def texelState (s : State) (o : Op) : State := { asReader s o.id with free := s.free + 16 }

/-- The plan of a lane's access: a query has none. -/
def lanePlan (query : Bool) (fn : Nat) (b : List Nat) (p : Part) (s : State) : TexPlan :=
  if query then .unstated else planOf (TexDesc.read b) fn p.args s.free

/-- The ranges that it reads besides its descriptor. -/
def laneRanges (query : Bool) (fn : Nat) (b : List Nat) (p : Part) (s : State) : List (Nat × Nat) :=
  if query then [] else planRanges (TexDesc.read b) (lanePlan query fn b p s)

section
variable {s : State} {oid : Nat} {w : Warp} {o : Op} {p : Part} {c : Ctx} {d fn : Nat} {b : List Nat} (h : Alone s oid w o [p] c)
  (hread : readMem (asReader s o.id) w.ctx w.block 0 p.va 64 = .ok (b, asReader s o.id)) (hok : descOk b = true)
  {query : Bool} {bytes : List (List Nat)}
  (hbytes : texReads w o.id p (texelState s o) (laneRanges query fn b p s) = .ok (some bytes, texelState s o))
include h hread hok hbytes

/-- The value of a lane's access, its ranges read. -/
theorem texLane_ok : texLane query fn (asReader s o.id) w o p =
    .ok (some (texValue (TexDesc.read b) query fn (lanePlan query fn b p s) p.args s.free bytes), texelState s o) := by
  have hdesc : texReads w o.id p (asReader s o.id) [(p.va, 64)] = .ok (some [b], asReader s o.id) :=
    texReads_ok (s := asReader s o.id) (rs := [(p.va, 64)]) (bs := [b]) h.ops h.untraced rfl (by simpa using hread)
  simp only [texLane, hdesc, hok, Bool.not_true, Bool.false_eq_true, if_false]
  rw [laneRanges, lanePlan, texelState, show s.free = (asReader s o.id).free from rfl] at hbytes
  rw [hbytes]
  rfl

/-- TEX_RETIRE performs the only part, and the operation retires. -/
theorem tex_performs (hk : o.kind = if query then .texq fn d else .tex fn d) :
    ∃ t, exec (.texRetire oid) s = .next t ∧ t.mem = s.mem ∧ t.warp? w.id = some (retired w o
      [p.took (texValue (TexDesc.read b) query fn (lanePlan query fn b p s) p.args s.free bytes) true]) := by
  have hyes : performTex query fn s w o p = .yes (asReader (texelState s o) 0)
      (p.took (texValue (TexDesc.read b) query fn (lanePlan query fn b p s) p.args s.free bytes) true) := by
    simp only [performTex, texLane_ok h hread hok hbytes]
    rfl
  have hsole : Sole (asReader (texelState s o) 0) oid w o := h.sole.congr rfl
  obtain ⟨hmem, -, hw⟩ := h.performOp hyes hsole rfl rfl rfl (h.left p (by simp)).2.1 (List.mem_range.2 (h.lane p (by simp)).1)
  refine ⟨_, ?_, hmem, hw⟩
  rw [exec_texRetire, execTexRetire, h.op]
  cases query <;> simp only [hk] <;> rfl

end

/-! ### What its retirement writes -/

section
variable {t : State} {w v : Warp} {o : Op} {p : Part} {d fn : Nat} (ha : Alike w v) (hl : p.lane < 32)
  (hlive : inMask w.live p.lane = true) (hw : t.warp? w.id = some (retired v o [p]))
include ha hl hlive hw

theorem retired_texq (hk : o.kind = .texq fn d) (hd : d + 2 ≤ w.alloc) :
    Retired t w (wordsAt p.lane d (if fn = 0 then 2 else 1) p.got) := by
  refine retired_of_takes hw ha (takes_one (ha.trans (alike_only v _)) hl hlive (by split <;> omega) (fun x => x)) (fun l k => ?_)
  rw [retireWrites_texq _ (o.ended [p]) hk]
  rfl

theorem retired_tex (hk : o.kind = .tex fn d) (hd : d + 4 ≤ w.alloc) : Retired t w (wordsAt p.lane d 4 p.got) := by
  refine retired_of_takes hw ha (takes_one (ha.trans (alike_only v _)) hl hlive hd (fun x => x)) (fun l k => ?_)
  rw [retireWrites_tex _ (o.ended [p]) hk]
  rfl

end

theorem Retired.congr {t : State} {w : Warp} {f g : Nat → Nat → Option Word} (h : Retired t w f) (hfg : ∀ j n, f j n = g j n) :
    Retired t w g := by
  obtain rfl : f = g := funext fun j => funext (hfg j)
  exact h

/-! ### The four results of an access -/

/-- The words of a packed list. -/
theorem packWords_word (k : Nat) : ∀ ws : List Nat, packWords ws / 2 ^ (32 * k) % 2 ^ 32 = ws.getD k 0 % 2 ^ 32
  | [] => by simp [packWords]
  | v :: ws => by
    rw [packWords, List.foldr_cons]
    cases k with
    | zero => simp only [Nat.mul_zero, Nat.pow_zero, Nat.div_one, List.getD_cons_zero]; omega
    | succ k =>
      rw [show 32 * (k + 1) = 32 + 32 * k by ring, Nat.pow_add, ← Nat.div_div_eq_div_mul, List.getD_cons_succ, ← packWords_word k ws]
      congr 2
      rw [packWords]
      omega

theorem canonF32_eq (v : Nat) : canonF32 v = if (Fmt.f32.decode v).isNan then 0x7FC00000 else v := by
  have hcanon : Fmt.f32.canonical = 0x7FC00000 := by decide
  rw [canonF32, hcanon]

theorem canonF32_zero : canonF32 0 = 0 := by decide

theorem getD_map_canon (vs : List Nat) (k : Nat) : (vs.map canonF32).getD k 0 = canonF32 (vs.getD k 0) := by
  rw [← canonF32_zero, List.getD_map, canonF32_zero]

/-- The registers of the results. -/
theorem wordsAt_packed (l d : Nat) (vs : List Nat) (j n : Nat) : wordsAt l d 4 (packWords (vs.map canonF32)) j n =
    if j = l ∧ d ≤ n ∧ n < d + 4 then some (BitVec.ofNat 32 (if (Fmt.f32.decode (vs.getD (n - d) 0)).isNan then 0x7FC00000
      else vs.getD (n - d) 0)) else none := by
  rw [wordsAt, ← canonF32_eq, ← getD_map_canon, ← ofNat_mod32, packWords_word, ofNat_mod32]

/-! ### The clauses -/

section
variable {s : State} {oid : Nat} {w : Warp} {o : Op} {p : Part} {c : Ctx} {d fn : Nat} {b : List Nat} (h : Alone s oid w o [p] c)
  (hread : readMem (asReader s o.id) w.ctx w.block 0 p.va 64 = .ok (b, asReader s o.id)) (hok : descOk b = true)
include h hread hok

/-- A texture query. -/
theorem texq_plain (hk : o.kind = .texq fn d) (hd : d + 2 ≤ w.alloc) :
    let e := TexDesc.read b
    let level := p.args.getD 0 0
    ∃ t, exec (.texRetire oid) s = .next t ∧ t.mem = s.mem ∧
      (fn = 0 → Retired t w (wordsAt p.lane d 2
        (if e.levels ≤ level then 0 else max 1 (e.width / 2 ^ level) + 2 ^ 32 * max 1 (e.height / 2 ^ level)))) ∧
      (fn = 1 → Retired t w (wordsAt p.lane d 1 e.levels)) ∧
      (fn = 2 → Retired t w (wordsAt p.lane d 1 (e.fmt + 256 * e.flags))) := by
  intro e level
  obtain ⟨hl, hlive⟩ := h.lane p (by simp)
  obtain ⟨t, hexec, hmem, hw⟩ := tex_performs (fn := fn) (d := d) (query := true) (bytes := []) h hread hok rfl (by rw [hk]; rfl)
  have hret := retired_texq (p := p.took _ true) (Alike.refl w) hl hlive hw hk hd
  refine ⟨t, hexec, hmem, ?_, ?_, ?_⟩ <;> rintro rfl <;> exact hret

/-- A texture access whose plan's ranges are read. -/
theorem tex_plain {bytes : List (List Nat)} (hk : o.kind = .tex fn d) (hd : d + 4 ≤ w.alloc) {plan : TexPlan}
    (hplan : planOf (TexDesc.read b) fn p.args s.free = plan) (hstated : plan ≠ .unstated)
    (hlen : bytes.length = (planRanges (TexDesc.read b) plan).length)
    (hbytes : ∀ q ∈ (planRanges (TexDesc.read b) plan).zip bytes,
      readMem (texelState s o) w.ctx w.block 0 q.1.1 q.1.2 = .ok (q.2, texelState s o)) :
    let texels := (plan.taps.zip bytes).map (fun x => texelChannels (TexDesc.read b) x.2 x.1.2.1 x.1.2.2)
    let value (k : Nat) : Nat := (texResult (TexDesc.read b) (bytes.getLast?.getD []) plan texels).getD k 0
    ∃ t, exec (.texRetire oid) s = .next t ∧ t.mem = s.mem ∧ Retired t w (fun j n => if j = p.lane ∧ d ≤ n ∧ n < d + 4 then
      some (BitVec.ofNat 32 (if (Fmt.f32.decode (value (n - d))).isNan then 0x7FC00000 else value (n - d))) else none) := by
  intro texels value
  subst hplan
  obtain ⟨hl, hlive⟩ := h.lane p (by simp)
  have hreads := texReads_ok (s := texelState s o) (p := p) h.ops h.untraced hlen hbytes
  obtain ⟨t, hexec, hmem, hw⟩ := tex_performs (fn := fn) (d := d) (query := false) h hread hok hreads (by rw [hk]; rfl)
  have hret := retired_tex (p := p.took _ true) (Alike.refl w) hl hlive hw hk hd
  have hvalue : texValue (TexDesc.read b) false fn (planOf (TexDesc.read b) fn p.args s.free) p.args s.free bytes =
      packWords ((texResult (TexDesc.read b) (bytes.getLast?.getD []) (planOf (TexDesc.read b) fn p.args s.free) texels).map canonF32) := by
    cases hplan : planOf (TexDesc.read b) fn p.args s.free with
    | unstated => exact absurd hplan hstated
    | _ => simp only [texValue, texels, hplan]; rfl
  refine ⟨t, hexec, hmem, hret.congr (fun j n => ?_)⟩
  rw [← wordsAt_packed, ← hvalue]
  rfl

end

/-! ### A fetch of an 8-bit texel -/

/-- An index that lies in the level stays. -/
theorem reduceIndex_inside (mode : Nat) {w i : Nat} (h : i < w) : reduceIndex mode w (i : Int) = i := by
  have hmod : ((i : Int) % (w : Int)).toNat = i := by
    rw [Int.emod_eq_of_lt (by omega) (by omega)]
    rfl
  have hmod2 : ((i : Int) % (2 * (w : Int))).toNat = i := by
    rw [Int.emod_eq_of_lt (by omega) (by omega)]
    rfl
  unfold reduceIndex
  split
  · exact hmod
  · rw [if_neg (by omega)]
    omega
  · simp only [hmod2]
    rw [if_neg (by omega)]

/-- An 8-bit code as f32 is no NaN. -/
theorem unorm8_canon {v : Nat} (h : v < 256) :
    canonF32 (roundFrac .f32 .rne false false v 255).1 = (roundFrac .f32 .rne false false v 255).1 := by
  have all : ∀ v < 256, canonF32 (roundFrac .f32 .rne false false v 255).1 = (roundFrac .f32 .rne false false v 255).1 := by
    decide +kernel
  exact all v h

theorem getD_lt {px : List Nat} (h : ∀ v ∈ px, v < 256) (k : Nat) : px.getD k 0 < 256 := by
  rw [List.getD_eq_getElem?_getD]
  cases hk : px[k]? with
  | none => simp
  | some v => exact h v (List.mem_of_getElem? hk)

/-- `m.tex.fetch` of an 8-bit texel gives its four channels. -/
theorem fetch_plain {s : State} {oid : Nat} {w : Warp} {o : Op} {p : Part} {c : Ctx} {d : Nat} {b px : List Nat}
    (h : Alone s oid w o [p] c) (hk : o.kind = .tex 3 d) (hd : d + 4 ≤ w.alloc)
    (hread : readMem (asReader s o.id) w.ctx w.block 0 p.va 64 = .ok (b, asReader s o.id)) (hok : descOk b = true)
    (hfmt : (TexDesc.read b).fmt = 1) (hsrgb : (TexDesc.read b).srgb = false) (hlevel : p.args.getD 2 0 < (TexDesc.read b).levels)
    (hx : p.args.getD 0 0 < levelWidth (TexDesc.read b) (p.args.getD 2 0))
    (hy : p.args.getD 1 0 < levelHeight (TexDesc.read b) (p.args.getD 2 0))
    (htexel : readMem (texelState s o) w.ctx w.block 0
      (unitAddr (TexDesc.read b) (p.args.getD 2 0) (p.args.getD 0 0) (p.args.getD 1 0)) 4 = .ok (px, texelState s o))
    (hpx : ∀ v ∈ px, v < 256) : ∃ t, exec (.texRetire oid) s = .next t ∧ t.mem = s.mem ∧ Retired t w (fun j n =>
      if j = p.lane ∧ d ≤ n ∧ n < d + 4 then some (BitVec.ofNat 32 (roundFrac .f32 .rne false false (px.getD (n - d) 0) 255).1)
      else none) := by
  set e := TexDesc.read b with he
  have hplan : planOf e 3 p.args s.free = .point (p.args.getD 2 0, p.args.getD 0 0, p.args.getD 1 0) := by
    simp only [planOf, if_true, if_neg (Nat.not_le.2 hlevel), reduceIndex_inside _ hx, reduceIndex_inside _ hy]
  have hranges : planRanges e (.point (p.args.getD 2 0, p.args.getD 0 0, p.args.getD 1 0)) =
      [(unitAddr e (p.args.getD 2 0) (p.args.getD 0 0) (p.args.getD 1 0), 4)] := by
    simp [planRanges, TexPlan.taps, hfmt, unitBytes]
  obtain ⟨t, hexec, hmem, hret⟩ := tex_plain (bytes := [px]) h hread hok hk hd hplan nofun (by rw [hranges]; rfl)
    (by rw [hranges]; simpa using htexel)
  refine ⟨t, hexec, hmem, hret.congr (fun j n => ?_)⟩
  by_cases hn : j = p.lane ∧ d ≤ n ∧ n < d + 4
  · have hk4 : n - d < 4 := by omega
    have hvalue : (texelChannels e px (p.args.getD 0 0) (p.args.getD 1 0)).getD (n - d) 0 =
        (roundFrac .f32 .rne false false (px.getD (n - d) 0) 255).1 := by
      simp [texelChannels, hfmt, hsrgb, List.getD_eq_getElem?_getD, hk4]
    have hresult : ∀ net, texResult e net (.point (p.args.getD 2 0, p.args.getD 0 0, p.args.getD 1 0))
        [texelChannels e px (p.args.getD 0 0) (p.args.getD 1 0)] = texelChannels e px (p.args.getD 0 0) (p.args.getD 1 0) :=
      fun net => by simp [texResult, hfmt]
    simp only [if_pos hn, ← canonF32_eq, TexPlan.taps, List.zip_cons_cons, List.zip_nil_right, List.map_cons, List.map_nil]
    rw [hresult, hvalue, unorm8_canon (getD_lt hpx _)]
  · rw [if_neg hn, if_neg hn]

end Sys2Proof.Machine
end

section
/-! PROOF. O43: accesses perform. -/

namespace Sys2Proof.Machine

set_option Elab.async false

/-- Settles O43, clause by clause: each access is performed as its place in memory has it (`load_plain`, `store_plain`,
`atomic_performs`, `halfDone_performs`, `placeParts_copies`, `tex_performs`), and the only operation of the warp retires
(`LastLeft.performOp`), which writes the registers (`Takes`). -/
theorem accessesPerform : Obligations.AccessesPerform := by
  unfold Obligations.AccessesPerform
  refine ⟨?load, ?ldu, ?absent, ?store, ?atomic, ?two, ?reduce, ?merge, ?query, ?texture, ?fetch⟩
  case load =>
    intro s oid w o p c d n sgn pr acq pa l h hk _ _ hsize hd hp
    exact load_plain h hd hk hsize hp
  case ldu =>
    intro s oid w o p c d n sgn acq pa l h hk _ _ hsize hd hp
    obtain ⟨t, hexec, hmem, v, hw, hops, hreg⟩ := ldu_plain h hd hk hsize hp
    exact ⟨t, hexec, hmem, v, hw, hops, fun j hj m _ => hreg j hj m⟩
  case absent =>
    intro s oid w o p c d n sgn pr acq l h hk _ hsize hd hp
    exact load_absent h hd hk hsize hp
  case store =>
    intro s oid w o p c rel n pa l h hk hsize _ hp hwf
    exact store_plain h hk hsize hp hwf
  case atomic =>
    intro s oid w o p c d n pa l h hsize hn hd hp hwf
    exact ⟨fun fn hfn hk => atomic_plain h hsize hp hd hfn hk hwf, fun hk => cas_plain h hsize hp hd hn hk hwf⟩
  case two =>
    intro s oid w o p q c d fn pa l h hk hps hqs hva hlt hd hp htrk hwf hres
    exact atomic_two h hk hps hqs hva hlt hd hp htrk hwf hres
  case reduce =>
    intro s oid w o p c fn pa l core h hk hsize hcore hp hmon
    exact reduce_plain h hk hsize hcore hp hmon
  case merge =>
    intro s u q c l hlines hparts hc hl _ hgood hwf
    exact merge_only hlines hparts hc hl hgood hwf
  case query =>
    intro s oid w o p c d b fn h hk hd hread hok
    exact texq_plain h hread hok hk hd
  case texture =>
    intro s oid w o p c d b fn bytes h hk hd hread hok e r plan hstated hlen hbytes
    exact ⟨rfl, tex_plain h hread hok hk hd rfl hstated hlen hbytes⟩
  case fetch =>
    intro s oid w o p c d b px h hk hd hread hok e x y level r hfmt hsrgb hlevel hx hy htexel hpx
    exact fetch_plain h hk hd hread hok hfmt hsrgb hlevel hx hy htexel hpx

end Sys2Proof.Machine
end

section
/-! SUPPORT. Bytes that lie in one line of plain memory, read and written by the device and by engines (R164, R274, R364). -/

namespace Sys2Proof.Machine

set_option Elab.async false

theorem bitAt_eq_testBit (e i : Nat) : bitAt e i = e.testBit i := by
  rw [Nat.testBit_eq_decide_div_mod_eq]
  rfl

theorem leNat_natLe : ∀ n v : Nat, leNat (natLe n v) = v % 256 ^ n
  | 0, v => by simp [natLe, leNat, Nat.mod_one]
  | n + 1, v => by
    rw [natLe, leNat, leNat_natLe n, Nat.pow_succ', Nat.mod_mul, Nat.mod_mod]

@[simp] theorem natLe_length : ∀ n v : Nat, (natLe n v).length = n
  | 0, _ => rfl
  | n + 1, v => congrArg (· + 1) (natLe_length n (v / 256))

section
variable {s : State} {c : Ctx} {i : Nat} {blk : Option Nat} {kind va pa : Nat} {l : Leaf}

/-- Bytes of one line are read at once. -/
theorem readMem_line {n : Nat} (hc : s.ctx? i = some c) (h : Plain s c blk .read kind va n pa l) (hl : s.lines = []) (hn : 0 < n)
    (hline : va % 128 + n ≤ 128) : readMem s i blk kind va n = .ok (natLe n (Memory.readN s.mem pa n), s) := by
  obtain ⟨m, rfl⟩ : ∃ m, n = m + 1 := ⟨n - 1, by omega⟩
  have hk : min (m + 1) (128 - va % 128) = m + 1 := by omega
  simp only [readMem, readBytes, Nat.succ_ne_zero, if_false, hc, hk, readChunk_hbm h.place h.still hl h.good, Nat.sub_self, if_true,
    List.append_nil]

/-- Bytes of one line are written at once. -/
theorem writeMem_line {bytes : List Nat} (hc : s.ctx? i = some c) (h : Plain s c blk .write kind va bytes.length pa l) (hl : s.lines = [])
    (hne : bytes ≠ []) (hline : va % 128 + bytes.length ≤ 128) :
    writeMem s i blk kind va bytes = .ok (rawStore s c.number l va pa bytes.length (leNat bytes)) := by
  obtain ⟨b, bs, rfl⟩ := List.exists_cons_of_ne_nil hne
  have hk : min (b :: bs).length (128 - va % 128) = (b :: bs).length := by omega
  rw [writeMem, writeBytes]
  simp only [hc, hk, List.take_length, writeChunk_hbm hc h hl, List.drop_length]
  rfl

/-- No plain place is a kick register. -/
theorem kickTarget_plain {n : Nat} (hc : s.ctx? i = some c) (h : Plain s c none .write 1 va n pa l) : kickTarget s i va n = none := by
  unfold kickTarget
  split
  case isTrue hn =>
    obtain ⟨rfl, -⟩ : n = 8 ∧ va % 8 = 0 := by simpa using hn
    simp only [hc, Option.map_some, h.place]
  case isFalse => rfl

/-- The device's own store into plain memory. -/
theorem deviceStore_line {bytes : List Nat} (hc : s.ctx? i = some c) (h : Plain s c none .write 1 va bytes.length pa l) (hl : s.lines = [])
    (hne : bytes ≠ []) (hline : va % 128 + bytes.length ≤ 128) :
    deviceStore s i va bytes = .ok (rawStore s c.number l va pa bytes.length (leNat bytes)) := by
  simp only [deviceStore, kickTarget_plain hc h, writeMem_line hc h hl hne hline]

end

end Sys2Proof.Machine
end

section
/-! PROOF. O53: what hosts and peers do to an exposed region (R221, R350, R351). -/

namespace Sys2Proof.Machine

set_option Elab.async false

/-! ### The checks of a request (R351) -/

/-- The first three checks, in their order. -/
theorem regionRefuses_eq (s : State) (r : Region) (q : Inbound) : regionRefuses s (some r) q =
    if r.key ≠ q.key then some 1
    else if r.perm.testBit (match q.kind with | 0 => 1 | 1 => 0 | _ => 2) = false ∨ r.length < q.addr + q.size ∨
      (2 ≤ q.kind ∧ (r.vbase + q.addr) % 8 ≠ 0) then some 2
    else match s.ctx? r.ctx with
      | none => some 4
      | some c => if c.live then none else some 4 := by
  have hbit : (if q.kind = 0 then 1 else if q.kind = 1 then 0 else 2) = (match q.kind with | 0 => 1 | 1 => 0 | _ => 2) := by
    rcases q.kind with _ | _ | _ <;> rfl
  have hlive : (if ((s.ctx? r.ctx).map Ctx.live).getD false = false then some 4 else none) =
      (match s.ctx? r.ctx with | none => some 4 | some c => if c.live then none else some 4 : Option Nat) := by
    cases s.ctx? r.ctx with
    | none => rfl
    | some c => cases hl : c.live <;> simp [hl]
  simp only [regionRefuses, bitAt_eq_testBit, hbit, hlive, Bool.or_eq_true, Bool.and_eq_true, Bool.not_eq_true', decide_eq_true_eq,
    bne_iff_ne, or_assoc, gt_iff_lt, ge_iff_le]

/-- The context of a request that is not refused lives. -/
theorem live_of_accepted {s : State} {r : Region} {q : Inbound} {c : Ctx} (h : regionRefuses s (some r) q = none)
    (hc : s.ctx? r.ctx = some c) : c.live = true := by
  by_contra hl
  rw [Bool.not_eq_true] at hl
  have hdead : (!((s.ctx? r.ctx).map Ctx.live).getD false) = true := by simp [hc, hl]
  simp only [regionRefuses, hdead, if_true, ite_eq_iff, reduceCtorEq, and_false, or_false] at h

theorem streamBlocked_iff (s : State) (q : Inbound) : streamBlocked s q = true ↔ q.kind = 0 ∧ q.stream ≠ 0 ∧
    ∃ r ∈ s.mod.regions, ∃ x ∈ r.queue, x.kind = 0 ∧ x.host = q.host ∧ x.stream = q.stream ∧ x.order < q.order := by
  simp only [streamBlocked, Bool.and_eq_true, beq_iff_eq, bne_iff_ne, List.any_eq_true, decide_eq_true_eq, and_assoc]

/-- No request of a region waits for rate where each of them is held for another reason. -/
theorem late_eq_zero_iff (r : Region) : r.late = 0 ↔ ∀ x ∈ r.queue, x.held = true := by
  simp [Region.late, List.filter_eq_nil_iff]

/-! ### Serving a request -/

section
variable {s : State} {i : Nat} {r : Region} {q : Inbound} {c : Ctx}

section
variable (hr : regionOf s i = some r) (hok : regionRefuses s (some r) q = none) (hc : s.ctx? r.ctx = some c)
include hr hok hc

/-- A request that has been handed to the ports waits for its target alone. -/
theorem serveInbound_sent (hs : q.sent = true) : serveInbound s i q = serveFar s c (r.vbase + q.addr) q := by
  simp only [serveInbound, hs, if_true, hr, hc, Option.filter_some, live_of_accepted hok hc]

variable (hs : q.sent = false)
include hs

/-- A page that is not resident holds the request. -/
theorem serveInbound_waits {a page : Nat} (hb : inboundBarred s c (r.vbase + q.addr) q = some (.wait a page)) :
    serveInbound s i q = .error (requestPage s r.ctx page, q) := by
  simp [serveInbound, hs, hr, hok, hc, Option.filter_some, live_of_accepted hok hc, hb]

/-- A refusal of translation is answered with status 3. -/
theorem serveInbound_traps {k a : Nat} {d : List Nat} (hb : inboundBarred s c (r.vbase + q.addr) q = some (.trap k a d)) :
    serveInbound s i q = .ok (answer s q.host 3 []) := by
  simp [serveInbound, hs, hr, hok, hc, Option.filter_some, live_of_accepted hok hc, hb, inboundRefused]

variable (hb : inboundBarred s c (r.vbase + q.addr) q = none)
include hb

/-- A part on a page with REM = 1 is carried to its target (R176). -/
theorem serveInbound_far (hfar : farPieces s c q (pagePieces (q.size + 1) (r.vbase + q.addr) q.size) ≠ []) :
    serveInbound s i q = serveFar s c (r.vbase + q.addr) q := by
  have hne : (farPieces s c q (pagePieces (q.size + 1) (r.vbase + q.addr) q.size)).isEmpty = false := by simpa using hfar
  simp [serveInbound, hs, hr, hok, hc, Option.filter_some, live_of_accepted hok hc, hb, hne]

variable (hnear : farPieces s c q (pagePieces (q.size + 1) (r.vbase + q.addr) q.size) = [])
include hnear

theorem serveInbound_near {b : List Nat} {u : State} (ha : inboundAccess s r.ctx (r.vbase + q.addr) q = .ok (b, u)) :
    serveInbound s i q = .ok (answer u q.host 0 b) := by
  simp [serveInbound, hs, hr, hok, hc, Option.filter_some, live_of_accepted hok hc, hb, hnear, ha]

theorem serveInbound_near_waits {a page : Nat} (ha : inboundAccess s r.ctx (r.vbase + q.addr) q = .error (.wait a page)) :
    serveInbound s i q = .error (requestPage s r.ctx page, q) := by
  simp [serveInbound, hs, hr, hok, hc, Option.filter_some, live_of_accepted hok hc, hb, hnear, ha]

end

/-! ### A request that a remote target has to answer (R176) -/

variable {va : Nat}

/-- A write or an atomic is handed to the ports. -/
theorem serveFar_puts {u : State} (hk : q.kind ≠ 1) (hs : q.sent = false)
    (h : farPuts c q va (farPieces s c q (pagePieces (q.size + 1) va q.size)) s (pagePieces (q.size + 1) va q.size) = .ok u) :
    serveFar s c va q = .error (u, { q with sent := true }) := by
  simp [serveFar, hk, hs, h]

/-- A read asks its target. -/
theorem serveFar_asks {a peer far n : Nat} {u : State} (hk : q.kind = 1)
    (hr : readMem (asReader s q.order) c.number none 0 va q.size = .error (.remote a peer far n))
    (ha : askRemote s c 0 q.order 0 a peer far n = .ok u) : serveFar s c va q = .error (u, q) := by
  simp [serveFar, hk, hr, ha]

/-- A read is answered when its bytes have come. -/
theorem serveFar_reads {b : List Nat} {u : State} (hk : q.kind = 1)
    (hr : readMem (asReader s q.order) c.number none 0 va q.size = .ok (b, u)) :
    serveFar s c va q = .ok (answer (dropBrought u q.order) q.host 0 b) := by
  simp [serveFar, hk, hr]

/-- A write is answered when it is sent. -/
theorem serveFar_written (hk : q.kind = 0) (hs : q.sent = true) (h : ∀ x ∈ s.mod.remotes, x.op = q.order → x.sentAt ≠ none) :
    serveFar s c va q = .ok (answer s q.host 0 []) := by
  have hgone : s.mod.remotes.any (fun x => x.op == q.order && x.sentAt.isNone) = false := by
    simpa [List.any_eq_false, Option.isSome_iff_ne_none] using h
  simp [serveFar, hk, hs, hgone]

/-- An atomic is answered when its old value has come. -/
theorem serveFar_atomic {b : Brought} (hk : 2 ≤ q.kind) (hs : q.sent = true)
    (h : s.mod.brought.find? (fun b => b.user == q.order) = some b) :
    serveFar s c va q = .ok (answer (dropBrought s q.order) q.host 0 b.bytes) := by
  have h0 : q.kind ≠ 0 := by omega
  have h1 : q.kind ≠ 1 := by omega
  simp [serveFar, h0, h1, hs, h]

end

/-! ### Arrival -/

/-- The request that a message makes: 2^64 × region + offset is its address, bits 31:16 of its initiator number are its stream
(log 46). -/
def arriving (s : State) (host kind key addr : Nat) (values : List Nat) : Inbound where
  host := host - 2 ^ 16 * (host / 2 ^ 16 % 2 ^ 16)
  stream := host / 2 ^ 16 % 2 ^ 16
  kind := kind
  key := key
  addr := addr % 2 ^ 64
  values := values
  order := s.nextId
  held := false
  sent := false

theorem exec_inbound {s : State} {host key addr len value expect new : Nat} {data : List Nat} {e : Instr × Nat × List Nat}
    (he : e ∈ [(Instr.inboundRmaWrite host key addr data, 0, data), (Instr.inboundRmaRead host key addr len, 1, [len]),
      (Instr.inboundFetchAdd host key addr value, 2, [value]), (Instr.inboundSwap host key addr value, 3, [value]),
      (Instr.inboundCas host key addr expect new, 4, [expect, new])]) :
    exec e.1 s = .next (arriveInbound s host e.2.1 key addr e.2.2) := by
  simp only [List.mem_cons, List.not_mem_nil, or_false] at he
  rcases he with rfl | rfl | rfl | rfl | rfl
  · exact exec_inboundRmaWrite s
  · exact exec_inboundRmaRead s
  · exact exec_inboundFetchAdd s
  · exact exec_inboundSwap s
  · exact exec_inboundCas s

section
variable {s : State} {host kind key addr : Nat} {values : List Nat} {q : Inbound} (hq : arriving s host kind key addr values = q)
include hq

theorem arriveInbound_nowhere (hr : regionOf s (addr / 2 ^ 64) = none) :
    arriveInbound s host kind key addr values = answer s q.host 1 [] := by
  subst hq
  simp only [arriveInbound, hr, regionRefuses]
  rfl

variable {r : Region} (hr : regionOf s (addr / 2 ^ 64) = some r)
include hr

theorem arriveInbound_refused {status : Nat} (h : regionRefuses s (some r) q = some status) :
    arriveInbound s host kind key addr values = answer s q.host status [] := by
  subst hq
  rw [arriving] at h
  simp only [arriveInbound, hr, h]
  rfl

variable (hok : regionRefuses s (some r) q = none)
include hok

/-- A request that is not refused takes a number; it is tried at once where the rate allows it and none waits for rate. -/
theorem arriveInbound_accepted : arriveInbound s host kind key addr values =
    if rateAllows s r = true ∧ ∀ x ∈ r.queue, x.held = true then
      if streamBlocked s q then enqueueInbound (numbered s) (addr / 2 ^ 64) { q with held := true }
      else
        match serveInbound (numbered s) (addr / 2 ^ 64) q with
        | .ok t => countRate t (addr / 2 ^ 64)
        | .error (t, p) => enqueueInbound t (addr / 2 ^ 64) { p with held := true }
    else queueInbound (numbered s) r q := by
  subst hq
  have hnow : (rateAllows s r && r.late == 0) = true ↔ rateAllows s r = true ∧ ∀ x ∈ r.queue, x.held = true := by
    rw [Bool.and_eq_true, beq_iff_eq, late_eq_zero_iff]
  rw [arriving] at hok
  simp only [arriveInbound, hr, hok, ← hnow]
  rfl

/-- The request waits for rate, or finds 4,096 that do. -/
theorem arriveInbound_late (hlate : rateAllows s r = false ∨ ∃ x ∈ r.queue, x.held = false) :
    arriveInbound s host kind key addr values = queueInbound (numbered s) r q := by
  rw [arriveInbound_accepted hq hr hok, if_neg]
  rintro ⟨hrate, hheld⟩
  rcases hlate with h | ⟨x, hx, h⟩
  · rw [hrate] at h
    cases h
  · rw [hheld x hx] at h
    cases h

variable (hrate : rateAllows s r = true) (hheld : ∀ x ∈ r.queue, x.held = true)
include hrate hheld

/-- It waits behind an earlier write of its ordered stream (R221). -/
theorem arriveInbound_blocked (hb : streamBlocked s q = true) :
    arriveInbound s host kind key addr values = enqueueInbound (numbered s) (addr / 2 ^ 64) { q with held := true } := by
  rw [arriveInbound_accepted hq hr hok, if_pos ⟨hrate, hheld⟩, if_pos hb]

variable (hb : streamBlocked s q = false)
include hb

theorem arriveInbound_served {t : State} (h : serveInbound (numbered s) (addr / 2 ^ 64) q = .ok t) :
    arriveInbound s host kind key addr values = countRate t (addr / 2 ^ 64) := by
  rw [arriveInbound_accepted hq hr hok, if_pos ⟨hrate, hheld⟩, if_neg (by simp [hb]), h]

/-- It waits for its page or for a remote target. -/
theorem arriveInbound_held {t : State} {p : Inbound} (h : serveInbound (numbered s) (addr / 2 ^ 64) q = .error (t, p)) :
    arriveInbound s host kind key addr values = enqueueInbound t (addr / 2 ^ 64) { p with held := true } := by
  rw [arriveInbound_accepted hq hr hok, if_pos ⟨hrate, hheld⟩, if_neg (by simp [hb]), h]

end

theorem regionOf_index {s : State} {i : Nat} {r : Region} (h : regionOf s i = some r) : r.index = i := by
  simpa using List.find?_some h

/-- Fewer than 4,096 wait for rate: the request joins them. -/
theorem queueInbound_waits {s : State} {r : Region} (h : (r.queue.filter (fun x => !x.held)).length < 4096) (q : Inbound) :
    queueInbound s r q = enqueueInbound s r.index q :=
  if_neg (Nat.not_le.2 h)

theorem queueInbound_drops {s : State} {r : Region} (h : 4096 ≤ (r.queue.filter (fun x => !x.held)).length) (q : Inbound) :
    queueInbound s r q = dropInbound s r.ctx :=
  if_pos h

/-! ### A request served from its queue -/

/-- A request that may go on, leaves the queue when it has been served. -/
theorem execInboundRateRelease_served {s t : State} {i place : Nat} {r : Region} {q : Inbound} (hr : regionOf s i = some r)
    (hq : r.queue[place]? = some q) (hrate : rateAllows s r = true) (hb : streamBlocked s q = false) (h : serveInbound s i q = .ok t) :
    exec (.inboundRateRelease i place) s =
      .next (countRate (updRegion t i (fun r => { r with queue := r.queue.eraseIdx place })) i) := by
  rw [exec_inboundRateRelease]
  simp only [execInboundRateRelease, hr, hq, hrate, hb, h, Bool.not_false, Bool.and_self, if_true]

/-! ### Refusals by a target, and drops -/

/-- The target's own refusal is the status answered. -/
theorem farStatus_named {cause : Nat} (h : cause = 0x40 ∨ cause = 0x46 ∨ cause = 0x49 ∨ cause = 0x4D) (detail : List Nat) :
    farStatus cause detail = detail.headD 3 :=
  if_pos h

theorem refuseRemote_inbound {s : State} {r : RemoteReq} {g : Region} {q : Inbound} (h : inboundOf s r.op = some (g, q)) (cause : Nat)
    (detail : List Nat) : refuseRemote s r cause detail =
      countRate (answer (inboundLeaves s g.index q.order) q.host (farStatus cause detail) []) g.index := by
  simp only [refuseRemote, h]

section
variable {s : State} {n : Nat} {c : Ctx} (hc : s.ctx? n = some c)
include hc

/-- No INBOUND_OVERRUN within the last 100 µs: the context is told, with the number dropped. -/
theorem dropInbound_told (h : ∀ t, c.droppedTrap = some t → t + 60000 ≤ s.mod.clock) : dropInbound s n =
    contextCause (s.updCtx n (fun c => { c with dropped := 0, droppedTrap := some s.mod.clock })) n 0x4F [c.dropped + 1] := by
  have hdue : (c.droppedTrap.map (fun t => decide (s.mod.clock ≥ t + 60000))).getD true = true := by
    cases ht : c.droppedTrap with
    | none => rfl
    | some t => simpa using h t ht
  simp only [dropInbound, hc, hdue, if_true]

theorem dropInbound_counted {t : Nat} (ht : c.droppedTrap = some t) (h : s.mod.clock < t + 60000) :
    dropInbound s n = s.updCtx n (fun c => { c with dropped := c.dropped + 1 }) := by
  have hdue : (c.droppedTrap.map (fun t => decide (s.mod.clock ≥ t + 60000))).getD true = false := by
    simpa [ht] using h
  simp only [dropInbound, hc, hdue, Bool.false_eq_true, if_false]

end

/-! ### Accesses to plain memory -/

section
variable {s : State} {n va pa : Nat} {c : Ctx} {l : Leaf} {q : Inbound} (hc : s.ctx? n = some c) (hl : s.lines = [])
include hc hl

/-- A write stores its bytes. -/
theorem inboundAccess_write (hk : q.kind = 0) (hne : q.values ≠ []) (hline : va % 128 + q.values.length ≤ 128)
    (hp : Plain s c none .write 1 va q.values.length pa l) :
    inboundAccess s n va q = .ok ([], rawStore s c.number l va pa q.values.length (leNat q.values)) := by
  simp only [inboundAccess, hk, deviceStore_line hc hp hl hne hline]

/-- A read gives them. -/
theorem inboundAccess_read {k : Nat} (hk : q.kind = 1) (hv : q.values = [k]) (hpos : 0 < k) (hline : va % 128 + k ≤ 128)
    (hp : Plain s c none .read 0 va k pa l) : inboundAccess s n va q = .ok (natLe k (Memory.readN s.mem pa k), s) := by
  have hsize : q.size = k := by simp [Inbound.size, hk, hv]
  simp only [inboundAccess, hk, hsize, readMem_line hc hp hl hpos hline, hc, Option.map_some]
  split
  case h_1 hkick =>
    split at hkick
    case isTrue h8 =>
      obtain rfl : k = 8 := by simp at h8; exact h8.1
      rw [hp.place] at hkick
      cases hkick
    case isFalse => cases hkick
  case h_2 => rfl

variable (hp : Plain s c none .atomic 2 va 8 pa l) (hal : va % 8 = 0)
include hp hal

/-- An atomic gives the eight bytes that it finds, and stores there what it makes of them. -/
theorem inboundAtomic_plain {f : Nat → Option Nat} {v : Nat} (hwf : Memory.wf s.mem = true)
    (hf : (f (Memory.readN s.mem pa 8)).getD (Memory.readN s.mem pa 8) = v) (hv : v < 2 ^ 64) :
    ∃ u, inboundAtomic s n va f = .ok (Memory.readN s.mem pa 8, u) ∧ Stored s u pa 8 v := by
  have hread := readChunk_hbm hp.read.place hp.still hl hp.good
  simp only [inboundAtomic, hc, hp.place, hread]
  cases hfo : f (Memory.readN s.mem pa 8) with
  | none =>
    rw [hfo] at hf
    exact ⟨s, rfl, hf ▸ stored_of_same rfl⟩
  | some x =>
    obtain rfl : x = v := by simpa [hfo] using hf
    have hw := writeMem_line (bytes := natLe 8 x) hc (by simpa using hp.write) hl (by simp [natLe]) (by simp; omega)
    simp only [natLe_length, leNat_natLe, Nat.mod_eq_of_lt (show x < 256 ^ 8 from hv)] at hw
    simp only [hw]
    exact ⟨_, rfl, stored_of_write hwf (rawStore_mem ..)⟩

variable (hwf : Memory.wf s.mem = true)
include hwf

theorem inboundAccess_add (hk : q.kind = 2) : ∃ u, inboundAccess s n va q = .ok (natLe 8 (Memory.readN s.mem pa 8), u) ∧
    Stored s u pa 8 ((Memory.readN s.mem pa 8 + q.values.getD 0 0 % 2 ^ 64) % 2 ^ 64) := by
  obtain ⟨u, hu, hst⟩ := inboundAtomic_plain (f := fun x => some (AtomFn.add64.apply x (q.values.headD 0 % 2 ^ 64))) hc hl hp hal hwf rfl
    (Nat.mod_lt _ (Nat.two_pow_pos 64))
  refine ⟨u, by simp only [inboundAccess, hk, hu], ?_⟩
  rwa [AtomFn.apply, List.headD_eq_getD] at hst

theorem inboundAccess_swap (hk : q.kind = 3) : ∃ u, inboundAccess s n va q = .ok (natLe 8 (Memory.readN s.mem pa 8), u) ∧
    Stored s u pa 8 (q.values.getD 0 0 % 2 ^ 64) := by
  obtain ⟨u, hu, hst⟩ := inboundAtomic_plain (f := fun _ => some (q.values.headD 0 % 2 ^ 64)) hc hl hp hal hwf rfl
    (Nat.mod_lt _ (Nat.two_pow_pos 64))
  refine ⟨u, by simp only [inboundAccess, hk, hu], ?_⟩
  rwa [List.headD_eq_getD] at hst

theorem inboundAccess_cas (hk : q.kind = 4) : ∃ u, inboundAccess s n va q = .ok (natLe 8 (Memory.readN s.mem pa 8), u) ∧
    Stored s u pa 8 (if Memory.readN s.mem pa 8 = q.values.getD 0 0 % 2 ^ 64 then q.values.getD 1 0 % 2 ^ 64 else Memory.readN s.mem pa 8) := by
  obtain ⟨u, hu, hst⟩ := inboundAtomic_plain (f := fun x => if x = q.values.headD 0 % 2 ^ 64 then some (q.values.getD 1 0 % 2 ^ 64) else none)
    (v := if Memory.readN s.mem pa 8 = q.values.headD 0 % 2 ^ 64 then q.values.getD 1 0 % 2 ^ 64 else Memory.readN s.mem pa 8)
    hc hl hp hal hwf (by split <;> rfl) (by split; exacts [Nat.mod_lt _ (Nat.two_pow_pos 64), Memory.readN_lt ..])
  refine ⟨u, by simp only [inboundAccess, hk, hu], ?_⟩
  rwa [List.headD_eq_getD] at hst

end

/-- Settles O53, clause by clause: arrival (`arriveInbound_accepted` and the ways a request is served), service from the queue,
refusals by a target, drops, and accesses to plain memory. -/
theorem inboundRequests : Obligations.InboundRequests := by
  unfold Obligations.InboundRequests
  refine ⟨?arrives, ?released, ?refused, streamBlocked_iff, ?dropped, regionRefuses_eq, ?performed⟩
  case arrives =>
    intro s host key addr data len value expect new e he i stream q
    have hq : arriving s host e.2.1 key addr e.2.2 = q := rfl
    rw [exec_inbound he]
    refine ⟨fun hr => congrArg _ (arriveInbound_nowhere hq hr), fun r hr => ⟨fun status h => congrArg _ (arriveInbound_refused hq hr h),
      fun hok => ⟨fun hrate hheld => ⟨fun hb => congrArg _ (arriveInbound_blocked hq hr hok hrate hheld hb), fun hb c hc => ?tried⟩,
        fun hlate => ⟨fun hfew => ?joins, fun hmany => ?drops⟩⟩⟩⟩
    case joins =>
      rw [arriveInbound_late hq hr hok hlate, queueInbound_waits hfew, regionOf_index hr]
      rfl
    case drops => rw [arriveInbound_late hq hr hok hlate, queueInbound_drops hmany]
    case tried =>
      have served {t : State} := arriveInbound_served hq hr hok hrate hheld hb (t := t)
      have held {t : State} {p : Inbound} := arriveInbound_held hq hr hok hrate hheld hb (t := t) (p := p)
      have hr' : regionOf (numbered s) (addr / 2 ^ 64) = some r := hr
      have hok' : regionRefuses (numbered s) (some r) q = none := hok
      have hc' : (numbered s).ctx? r.ctx = some c := hc
      refine ⟨fun a page h => congrArg _ (held (serveInbound_waits hr' hok' hc' rfl h)),
        fun k a d h => congrArg _ (served (serveInbound_traps hr' hok' hc' rfl h)),
        fun h hnear => ⟨fun b u ha => congrArg _ (served (serveInbound_near hr' hok' hc' rfl h hnear ha)),
          fun a page ha => congrArg _ (held (serveInbound_near_waits hr' hok' hc' rfl h hnear ha))⟩,
        fun h hfar => ⟨fun u hk hputs => ?puts, fun a peer far n u hk hread hask => ?asks⟩⟩
      case puts => exact congrArg _ (held ((serveInbound_far hr' hok' hc' rfl h hfar).trans (serveFar_puts hk rfl hputs)))
      case asks =>
        rw [← ctx?_number hc] at hread
        exact congrArg _ (held ((serveInbound_far hr' hok' hc' rfl h hfar).trans (serveFar_asks hk hread hask)))
  case released =>
    intro s i place r q c hr hq hrate hb hok hc va served
    have hserved {b : List Nat} {u : State} : serveInbound s i q = .ok (answer u q.host 0 b) → served u b :=
      execInboundRateRelease_served hr hq hrate hb
    refine ⟨fun b u hs h hnear ha => hserved (serveInbound_near hr hok hc hs h hnear ha), fun b u hs hk h hfar hread => ?reads,
      fun hs hk hsent => hserved ((serveInbound_sent hr hok hc hs).trans (serveFar_written hk hs hsent)),
      fun b hs hk hbr => hserved ((serveInbound_sent hr hok hc hs).trans (serveFar_atomic hk hs hbr))⟩
    case reads => exact hserved ((serveInbound_far hr hok hc hs h hfar).trans (serveFar_reads hk hread))
  case refused =>
    intro s r q cause detail a h hcause
    rw [refuseRemote_inbound h, farStatus_named hcause]
  case dropped => exact fun s n c hc => ⟨dropInbound_told hc, fun t ht h => dropInbound_counted hc ht h⟩
  case performed =>
    intro s n va c pa l q hc hl hwf
    refine ⟨fun k hk _ hlen hpos hline hp => ?write, fun k hk hv hpos hline hp => inboundAccess_read hc hl hk hv hpos hline hp, ?atomic⟩
    case write =>
      subst hlen
      exact ⟨_, inboundAccess_write hc hl hk (List.length_pos_iff.1 hpos) hline hp, stored_of_write hwf (rawStore_mem ..)⟩
    case atomic =>
      intro hp hal old v ⟨kind, stored⟩ hmem hk
      change q.kind = kind at hk
      change ∃ u, inboundAccess s n va q = .ok (natLe 8 old, u) ∧ Stored s u pa 8 stored
      simp only [List.mem_cons, Prod.mk.injEq, List.not_mem_nil, or_false] at hmem
      rcases hmem with ⟨rfl, rfl⟩ | ⟨rfl, rfl⟩ | ⟨rfl, rfl⟩
      · exact inboundAccess_add hc hl hp hal hwf hk
      · exact inboundAccess_swap hc hl hp hal hwf hk
      · exact inboundAccess_cas hc hl hp hal hwf hk

end Sys2Proof.Machine
end

section
/-! SUPPORT. Tile transfers (R217, R277): the sectors of elements ascending, the bytes each holds, the runs written; and what an engine's
reads give (R274). -/

namespace Sys2Proof.Machine

set_option Elab.async false

/-! ### Ascending lists -/

theorem mem_insertAsc {x y : Nat} : ∀ {l : List Nat}, y ∈ insertAsc x l ↔ y = x ∨ y ∈ l
  | [] => by simp [insertAsc]
  | z :: zs => by
    unfold insertAsc
    split
    · simp
    · split
      · next h => simp [h]
      · rw [List.mem_cons, mem_insertAsc, List.mem_cons]
        exact or_left_comm

theorem pairwise_insertAsc {x : Nat} : ∀ {l : List Nat}, l.Pairwise (· < ·) → (insertAsc x l).Pairwise (· < ·)
  | [], _ => List.pairwise_singleton ..
  | z :: zs, h => by
    have hz := List.pairwise_cons.1 h
    unfold insertAsc
    split
    case isTrue hlt =>
      refine List.pairwise_cons.2 ⟨fun y hy => ?_, h⟩
      rcases List.mem_cons.1 hy with rfl | hy
      · exact hlt
      · exact Nat.lt_trans hlt (hz.1 y hy)
    case isFalse hlt =>
      split
      · exact h
      · refine List.pairwise_cons.2 ⟨fun y hy => ?_, pairwise_insertAsc hz.2⟩
        rcases mem_insertAsc.1 hy with rfl | hy
        · omega
        · exact hz.1 y hy

theorem pairwise_sectorsOf (addrs : List Nat) : (sectorsOf addrs).Pairwise (· < ·) := by
  induction addrs with
  | nil => exact List.Pairwise.nil
  | cons a as ih => exact pairwise_insertAsc ih

theorem mem_sectorsOf {addrs : List Nat} {k : Nat} : k ∈ sectorsOf addrs ↔ ∃ a ∈ addrs, k = a / 32 := by
  induction addrs with
  | nil => simp [sectorsOf]
  | cons a as ih =>
    show k ∈ insertAsc (a / 32) (sectorsOf as) ↔ _
    rw [mem_insertAsc, ih]
    simp

/-! ### The bytes of a sector -/

/-- The last of a list that qualifies is what a pass over it keeps. -/
theorem foldl_keeps_last {α β : Type} (p : α → Bool) (g : α → β) (xs : List α) :
    xs.foldl (fun r e => if p e then some (g e) else r) none = (xs.reverse.find? p).map g := by
  induction xs using List.reverseRecOn with
  | nil => rfl
  | append_singleton xs x ih =>
    rw [List.foldl_append, ih, List.reverse_append, List.reverse_singleton, List.singleton_append, List.find?_cons]
    cases h : p x <;> simp [h]

/-- Each byte is as the last element that covers it gives it. -/
theorem sectorCells_getD (es : List Elem) (k : Nat) {i : Nat} (hi : i < 32) : (sectorCells es k).getD i none =
    (es.reverse.find? (fun e => e.1 / 32 == k && decide (e.1 ≤ 32 * k + i) && decide (32 * k + i < e.1 + e.2.length))).map
      (fun e => e.2.getD (32 * k + i - e.1) 0) := by
  have hcell : (sectorCells es k).getD i none = (es.filter (fun e => e.1 / 32 == k)).foldl (fun r e =>
      if (decide (e.1 ≤ 32 * k + i) && decide (32 * k + i < e.1 + e.2.length)) = true then some (e.2.getD (32 * k + i - e.1) 0) else r) none := by
    simp [sectorCells, List.getD_eq_getElem?_getD, hi]
  rw [hcell, foldl_keeps_last (fun e : Elem => decide (e.1 ≤ 32 * k + i) && decide (32 * k + i < e.1 + e.2.length)),
    ← List.filter_reverse, List.find?_filter]
  simp only [Bool.decide_and, Bool.decide_eq_true, Bool.and_assoc]

/-! ### Runs -/

@[simp] theorem regsFrom_zero (a : Nat) : regsFrom a 0 = [] := rfl

@[simp] theorem regsFrom_one (a : Nat) : regsFrom a 1 = [a] := rfl

@[simp] theorem length_regsFrom (a n : Nat) : (regsFrom a n).length = n := by simp [regsFrom]

theorem regsFrom_succ (a n : Nat) : regsFrom a (n + 1) = a :: regsFrom (a + 1) n := by
  simp only [regsFrom, List.range_succ_eq_map, List.map_cons, List.map_map, Nat.add_zero]
  congr 1
  exact List.map_congr_left (fun i _ => by simp only [Function.comp_apply]; omega)

/-- The bytes of an element, each with its address. -/
def elemCells (e : Elem) : List (Nat × Nat) := (List.range e.2.length).map (fun i => (e.1 + i, e.2.getD i 0))

theorem elemCells_cons (a b : Nat) (bs : List Nat) : elemCells (a, b :: bs) = (a, b) :: elemCells (a + 1, bs) := by
  simp only [elemCells, List.length_cons, List.range_succ_eq_map, List.map_cons, List.map_map, Nat.add_zero, List.getD_cons_zero]
  congr 1
  exact List.map_congr_left (fun i _ => by simp only [Function.comp_apply, List.getD_cons_succ]; congr 1; omega)

/-- A filled cell begins a run or joins the run after it; its byte comes first either way. -/
theorem elemCells_cellRuns_cons (a b : Nat) (cs : List (Option Nat)) :
    (cellRuns a (some b :: cs)).flatMap elemCells = (a, b) :: (cellRuns (a + 1) cs).flatMap elemCells := by
  rw [cellRuns]
  cases cellRuns (a + 1) cs with
  | nil => simp [elemCells]
  | cons e rest =>
    by_cases h : e.1 = a + 1
    · simp only [h, if_true, List.flatMap_cons, elemCells_cons, List.cons_append]
      rw [← h]
    · simp only [h, if_false, List.flatMap_cons, elemCells_cons, List.cons_append]
      rfl

/-- The runs hold the filled cells, byte by byte. -/
theorem elemCells_cellRuns (a : Nat) (cells : List (Option Nat)) : (cellRuns a cells).flatMap elemCells =
    (cells.zip (regsFrom a cells.length)).filterMap (fun q => q.1.map (fun b => (q.2, b))) := by
  induction cells generalizing a with
  | nil => rfl
  | cons x cs ih =>
    rw [List.length_cons, regsFrom_succ, List.zip_cons_cons]
    cases x with
    | none => exact ih (a + 1)
    | some b => rw [elemCells_cellRuns_cons, ih]; rfl

section
variable {w : Warp} {oid : Nat} {c : Command} {s : State}

theorem writeRuns_append (xs ys : List Elem) : writeRuns w oid c s (xs ++ ys) = (writeRuns w oid c s xs).bind (fun t => writeRuns w oid c t ys) := by
  induction xs generalizing s with
  | nil => rfl
  | cons e es ih =>
    simp only [List.cons_append, writeRuns]
    cases engWrite s w oid c e.1 e.2 with
    | error x => rfl
    | ok t => exact ih

/-- The sectors are written one by one, the runs of each. -/
theorem writeSectors_eq (es : List Elem) (ks : List Nat) :
    writeSectors w oid c es s ks = writeRuns w oid c s (ks.flatMap (fun k => cellRuns (32 * k) (sectorCells es k))) := by
  induction ks generalizing s with
  | nil => rfl
  | cons k ks ih =>
    rw [List.flatMap_cons, writeRuns_append, writeSectors]
    cases writeRuns w oid c s (cellRuns (32 * k) (sectorCells es k)) with
    | error x => rfl
    | ok t => exact ih

theorem writeTile_eq (es : List Elem) : writeTile s w oid c es = writeRuns w oid c s
    ((sectorsOf (es.map Prod.fst)).flatMap (fun k => cellRuns (32 * k) (sectorCells es k))) := writeSectors_eq ..

/-! ### Reads -/

/-- Items that the engine finds, read in order. -/
theorem engReads_map {α : Type} {n : Nat} {xs : List α} {a v : α → Nat} (h : ∀ x ∈ xs, engNat s w c (a x) n = .ok (v x, s)) :
    engReads w c n s (xs.map a) = .ok (xs.map v, s) := by
  induction xs with
  | nil => rfl
  | cons x xs ih =>
    simp only [List.map_cons, engReads, h x (List.mem_cons_self ..), ih (fun y hy => h y (List.mem_cons_of_mem _ hy))]

theorem engReads_finds {n : Nat} {addrs : List Nat} {v : Nat → Nat} (h : Finds s w c n addrs v) :
    engReads w c n s addrs = .ok (addrs.map v, s) := by
  simpa using engReads_map (a := id) h

/-- The elements that a copy finds are those it writes. -/
theorem copyElems_finds {n : Nat} {from_ to_ : List Nat} {v : Nat → Nat} (h : Finds s w c n from_ v) :
    copyElems s w oid c n from_ to_ = writeTile s w oid c (to_.zip (from_.map (fun a => natLe n (v a)))) := by
  simp only [copyElems, engReads_finds h, List.map_map]
  rfl

/-! ### A write to plain memory -/

theorem pagePieces_line {va n : Nat} (hn : 0 < n) (hline : va % 128 + n ≤ 128) : pagePieces (n + 1) va n = [(va, n)] := by
  obtain ⟨m, rfl⟩ : ∃ m, n = m + 1 := ⟨n - 1, by omega⟩
  have hk : min (m + 1) (65536 - va % 65536) = m + 1 := by omega
  simp only [pagePieces, Nat.succ_ne_zero, if_false, hk, Nat.sub_self, if_true]

/-- A write that stays in a line of plain memory stores its bytes. -/
theorem engWrite_line {va pa : Nat} {bytes : List Nat} {l : Leaf} {x : Ctx} (hc : s.ctx? w.ctx = some x) (hl : s.lines = [])
    (hne : bytes ≠ []) (hline : va % 128 + bytes.length ≤ 128) (ht : inTiles va = false)
    (hp : Plain s x w.block .write 3 va bytes.length pa l) : engWrite s w oid c va bytes =
      .ok (traceWrite (rawStore s x.number l va pa bytes.length (leNat bytes)) w.ctx w.launch (w.origin c.lane) va bytes.length) := by
  have hbar : tileBarred c va = false := by rw [tileBarred, ht, Bool.false_and]
  simp only [engWrite, hbar, Bool.false_eq_true, if_false, pagePieces_line (List.length_pos_iff.2 hne) hline, engPuts, engPut,
    List.take_length, writeMem_line hc hp hl hne hline]

end

end Sys2Proof.Machine
end

section
/-! SUPPORT. The masks that the search of `e.msrch` chooses (R288): two kept in each row and column, and the swap of the greatest gain. -/

namespace Sys2Proof.Machine

set_option Elab.async false

/-! ### Swaps -/

theorem pairs4_lt {r : Nat × Nat} (h : r ∈ pairs4) : r.1 < r.2 ∧ r.2 < 4 := by
  revert r
  decide

theorem mask4_eq_testBit (m i j : Nat) : mask4 m i j = m.testBit (4 * i + j) := bitAt_eq_testBit ..

/-- The four bits that a swap flips. -/
theorem testBit_swapBits : ∀ r ∈ pairs4, ∀ k ∈ pairs4, ∀ i < 4, ∀ j < 4,
    (2 ^ (4 * r.1 + k.1) + 2 ^ (4 * r.1 + k.2) + 2 ^ (4 * r.2 + k.1) + 2 ^ (4 * r.2 + k.2)).testBit (4 * i + j) =
      (decide (i = r.1 ∨ i = r.2) && decide (j = k.1 ∨ j = k.2)) := by decide

theorem mask4_flipSwap {m : Nat} {r k : Nat × Nat} (hr : r ∈ pairs4) (hk : k ∈ pairs4) {i j : Nat} (hi : i < 4) (hj : j < 4) :
    mask4 (flipSwap m r k) i j = (mask4 m i j ^^ (decide (i = r.1 ∨ i = r.2) && decide (j = k.1 ∨ j = k.2))) := by
  rw [mask4_eq_testBit, mask4_eq_testBit, flipSwap, Nat.testBit_xor, testBit_swapBits r hr k hk i hi j hj]

/-- A swap is admitted where each of its rows keeps one of the two columns, and not the same one. -/
theorem swapGain_some {g : Nat → Nat → Nat} {m : Nat} {r k : Nat × Nat} {u : Int} (h : swapGain g m r k = some u) :
    mask4 m r.1 k.1 = mask4 m r.2 k.2 ∧ mask4 m r.1 k.2 = mask4 m r.2 k.1 ∧ mask4 m r.1 k.1 ≠ mask4 m r.1 k.2 := by
  unfold swapGain at h
  split at h
  case isTrue hadm => simpa [and_assoc] using hadm
  case isFalse => cases h

/-! ### Two of four -/

/-- How many of four places are kept. -/
def keptOf4 (p : Nat → Bool) : Nat := ((List.range 4).filter p).length

theorem keptOf4_eq (p : Nat → Bool) : keptOf4 p = (p 0).toNat + (p 1).toNat + (p 2).toNat + (p 3).toNat := by
  rw [keptOf4, ← List.countP_eq_length_filter]
  simp only [show List.range 4 = [0, 1, 2, 3] from rfl, List.countP_cons, List.countP_nil]
  cases p 0 <;> cases p 1 <;> cases p 2 <;> cases p 3 <;> rfl

theorem keptOf4_congr {p q : Nat → Bool} (h : ∀ i < 4, p i = q i) : keptOf4 p = keptOf4 q := by
  rw [keptOf4_eq, keptOf4_eq, h 0 (by decide), h 1 (by decide), h 2 (by decide), h 3 (by decide)]

/-- Of two places of which one is kept, one is kept after both are flipped. -/
theorem toNat_flip : ∀ a b : Bool, a ≠ b → (a ^^ true).toNat + (b ^^ true).toNat = a.toNat + b.toNat := by decide

/-- Two places of which one is kept change over. -/
theorem keptOf4_flip {k : Nat × Nat} (hk : k ∈ pairs4) {p : Nat → Bool} (h : p k.1 ≠ p k.2) :
    keptOf4 (fun j => p j ^^ decide (j = k.1 ∨ j = k.2)) = keptOf4 p := by
  have hsum := toNat_flip _ _ h
  rw [keptOf4_eq, keptOf4_eq]
  simp only [pairs4, List.mem_cons, List.not_mem_nil, or_false] at hk
  rcases hk with rfl | rfl | rfl | rfl | rfl | rfl <;> (simp at hsum ⊢; omega)

/-- A mask keeps two places of each row and of each column of a block. -/
def TwoOfFour (m : Nat) : Prop := ∀ i, i < 4 → keptOf4 (fun j => mask4 m i j) = 2 ∧ keptOf4 (fun j => mask4 m j i) = 2

theorem twoOfFour_maskStart : TwoOfFour maskStart := by
  unfold TwoOfFour
  decide

/-- An admitted swap keeps two of four. -/
theorem TwoOfFour.flipSwap {g : Nat → Nat → Nat} {m : Nat} {r k : Nat × Nat} {u : Int} (h : TwoOfFour m) (hr : r ∈ pairs4) (hk : k ∈ pairs4)
    (hu : swapGain g m r k = some u) : TwoOfFour (flipSwap m r k) := by
  obtain ⟨hdiag, hanti, hne⟩ := swapGain_some hu
  intro i hi
  constructor
  · rw [← (h i hi).1, keptOf4_congr (fun j hj => mask4_flipSwap hr hk hi hj)]
    by_cases hir : i = r.1 ∨ i = r.2
    · simp only [hir, decide_true, Bool.true_and]
      refine keptOf4_flip hk ?_
      rcases hir with rfl | rfl
      · exact hne
      · rw [← hdiag, ← hanti]
        exact hne.symm
    · simp only [hir, decide_false, Bool.false_and, Bool.xor_false]
  · rw [← (h i hi).2, keptOf4_congr (fun j hj => mask4_flipSwap hr hk hj hi)]
    by_cases hik : i = k.1 ∨ i = k.2
    · simp only [hik, decide_true, Bool.and_true]
      refine keptOf4_flip hr (p := fun j => mask4 m j i) ?_
      rcases hik with rfl | rfl
      · rw [← hanti]
        exact hne
      · rw [← hdiag]
        exact hne.symm
    · simp only [hik, decide_false, Bool.and_false, Bool.xor_false]

/-! ### The best swap -/

/-- The swap that the search keeps after it has looked at one more. -/
def betterSwap (g : Nat → Nat → Nat) (m : Nat) (best : Option (Int × (Nat × Nat) × (Nat × Nat))) (p : (Nat × Nat) × (Nat × Nat)) :
    Option (Int × (Nat × Nat) × (Nat × Nat)) :=
  match swapGain g m p.1 p.2 with
  | none => best
  | some v => if v > 0 && (match best with | none => true | some b => decide (v > b.1)) then some (v, p.1, p.2) else best

/-- The swaps that the search looks at. -/
def swaps4 : List ((Nat × Nat) × (Nat × Nat)) := pairs4.flatMap (fun r => pairs4.map (fun c => (r, c)))

theorem bestSwap_eq (g : Nat → Nat → Nat) (m : Nat) : bestSwap g m = swaps4.foldl (betterSwap g m) none := rfl

theorem mem_swaps4 {p : (Nat × Nat) × (Nat × Nat)} : p ∈ swaps4 ↔ p.1 ∈ pairs4 ∧ p.2 ∈ pairs4 := by
  obtain ⟨r, k⟩ := p
  simp only [swaps4, List.mem_flatMap, List.mem_map, Prod.mk.injEq]
  constructor
  · rintro ⟨r, hr, k, hk, rfl, rfl⟩
    exact ⟨hr, hk⟩
  · rintro ⟨hr, hk⟩
    exact ⟨r, hr, k, hk, rfl, rfl⟩

/-- The gain of the swap kept, 0 where none is. -/
def gainOf (best : Option (Int × (Nat × Nat) × (Nat × Nat))) : Int := (best.map Prod.fst).getD 0

/-- `best` is a swap of those looked at with a positive gain, or none; no gain among them exceeds its own. -/
structure Best (g : Nat → Nat → Nat) (m : Nat) (seen : List ((Nat × Nat) × (Nat × Nat)))
    (best : Option (Int × (Nat × Nat) × (Nat × Nat))) : Prop where
  greatest : ∀ p ∈ seen, ∀ u, swapGain g m p.1 p.2 = some u → u ≤ gainOf best
  found : ∀ v x y, best = some (v, x, y) → 0 < v ∧ (x, y) ∈ seen ∧ swapGain g m x y = some v

section
variable {g : Nat → Nat → Nat} {m : Nat} {seen : List ((Nat × Nat) × (Nat × Nat))} {best : Option (Int × (Nat × Nat) × (Nat × Nat))}

theorem Best.gainOf_nonneg (h : Best g m seen best) : 0 ≤ gainOf best := by
  cases hb : best with
  | none => exact le_refl 0
  | some b => exact (h.found b.1 b.2.1 b.2.2 hb).1.le

/-- A swap takes the place of the one kept where its gain is greater. -/
theorem Best.betterSwap_eq (h : Best g m seen best) {p : (Nat × Nat) × (Nat × Nat)} {v : Int} (hv : swapGain g m p.1 p.2 = some v) :
    betterSwap g m best p = if gainOf best < v then some (v, p.1, p.2) else best := by
  have hpos := h.gainOf_nonneg
  cases best with
  | none => simp [betterSwap, hv, gainOf]
  | some b =>
    simp only [gainOf, Option.map_some, Option.getD_some] at hpos ⊢
    have hcond : (decide (v > 0) && decide (v > b.1)) = true ↔ b.1 < v := by
      simp only [Bool.and_eq_true, decide_eq_true_eq]
      omega
    rw [betterSwap, hv]
    exact if_congr hcond rfl rfl

theorem Best.step (h : Best g m seen best) (p : (Nat × Nat) × (Nat × Nat)) : Best g m (seen ++ [p]) (betterSwap g m best p) := by
  cases hv : swapGain g m p.1 p.2 with
  | none =>
    have hsame : betterSwap g m best p = best := by simp only [betterSwap, hv]
    rw [hsame]
    refine ⟨fun q hq u hu => ?_, fun v x y hb => ?_⟩
    · rcases List.mem_append.1 hq with hq | hq
      · exact h.greatest q hq u hu
      · rw [List.mem_singleton.1 hq, hv] at hu
        cases hu
    · obtain ⟨hpos, hmem, hgain⟩ := h.found v x y hb
      exact ⟨hpos, List.mem_append_left _ hmem, hgain⟩
  | some v =>
    have hle (q) (hq : q ∈ seen ++ [p]) (u) (hu : swapGain g m q.1 q.2 = some u) : u ≤ gainOf best ∨ u = v := by
      rcases List.mem_append.1 hq with hq | hq
      · exact .inl (h.greatest q hq u hu)
      · rw [List.mem_singleton.1 hq, hv] at hu
        exact .inr (Option.some.inj hu).symm
    rw [h.betterSwap_eq hv]
    split
    case isTrue hlt =>
      refine ⟨fun q hq u hu => ?_, fun v' x y hb => ?_⟩
      · show u ≤ v
        rcases hle q hq u hu with hu | rfl
        · omega
        · exact le_refl u
      · obtain ⟨rfl, rfl⟩ : v = v' ∧ p = (x, y) := by simpa using hb
        exact ⟨lt_of_le_of_lt h.gainOf_nonneg hlt, by simp, hv⟩
    case isFalse hge =>
      refine ⟨fun q hq u hu => ?_, fun v' x y hb => ?_⟩
      · rcases hle q hq u hu with hu | rfl
        · exact hu
        · omega
      · obtain ⟨hpos, hmem, hgain⟩ := h.found v' x y hb
        exact ⟨hpos, List.mem_append_left _ hmem, hgain⟩

theorem Best.foldl (h : Best g m seen best) (ps : List ((Nat × Nat) × (Nat × Nat))) : Best g m (seen ++ ps) (ps.foldl (betterSwap g m) best) := by
  induction ps generalizing seen best with
  | nil => simpa using h
  | cons p ps ih => simpa using ih (h.step p)

end

theorem best_bestSwap (g : Nat → Nat → Nat) (m : Nat) : Best g m swaps4 (bestSwap g m) :=
  Best.foldl (seen := []) (best := none) ⟨fun _ h => absurd h List.not_mem_nil, fun _ _ _ h => nomatch h⟩ swaps4

/-- The swap chosen has the greatest gain, a positive one; where none is chosen no gain is positive. -/
theorem bestSwap_greatest {g : Nat → Nat → Nat} {m : Nat} {r k : Nat × Nat} (hr : r ∈ pairs4) (hk : k ∈ pairs4) {u : Int}
    (hu : swapGain g m r k = some u) : (bestSwap g m = none → u ≤ 0) ∧
      ∀ v x y, bestSwap g m = some (v, x, y) → u ≤ v ∧ 0 < v ∧ swapGain g m x y = some v := by
  have hbest := best_bestSwap g m
  have hle := hbest.greatest (r, k) (mem_swaps4.2 ⟨hr, hk⟩) u hu
  refine ⟨fun hb => ?_, fun v x y hb => ?_⟩
  · rwa [hb] at hle
  · obtain ⟨hpos, -, hgain⟩ := hbest.found v x y hb
    rw [hb] at hle
    exact ⟨hle, hpos, hgain⟩

/-- However many swaps are made, two of four stay. -/
theorem twoOfFour_searchMask (g : Nat → Nat → Nat) (n : Nat) {m : Nat} (h : TwoOfFour m) : TwoOfFour (searchMask g n m) := by
  induction n generalizing m with
  | zero => exact h
  | succ n ih =>
    unfold searchMask
    split
    case h_1 => exact h
    case h_2 v r k hb =>
      obtain ⟨-, hmem, hgain⟩ := (best_bestSwap g m).found v r k hb
      obtain ⟨hr, hk⟩ := mem_swaps4.1 hmem
      exact ih (h.flipSwap hr hk hgain)

/-! ### The search looks at its block alone -/

section
variable {g g' : Nat → Nat → Nat} (h : ∀ i < 4, ∀ j < 4, g i j = g' i j)
include h

theorem swapGain_congr (m : Nat) {r k : Nat × Nat} (hr : r ∈ pairs4) (hk : k ∈ pairs4) : swapGain g m r k = swapGain g' m r k := by
  obtain ⟨hr1, hr2⟩ := pairs4_lt hr
  obtain ⟨hk1, hk2⟩ := pairs4_lt hk
  unfold swapGain
  rw [h r.1 (by omega) k.1 (by omega), h r.1 (by omega) k.2 hk2, h r.2 hr2 k.1 (by omega), h r.2 hr2 k.2 hk2]

theorem bestSwap_congr (m : Nat) : bestSwap g m = bestSwap g' m := by
  rw [bestSwap_eq, bestSwap_eq]
  refine List.foldl_ext _ _ none (fun best p hp => ?_)
  obtain ⟨hr, hk⟩ := mem_swaps4.1 hp
  rw [betterSwap, betterSwap, swapGain_congr h m hr hk]

theorem searchMask_congr (n m : Nat) : searchMask g n m = searchMask g' n m := by
  induction n generalizing m with
  | zero => rfl
  | succ n ih => simp only [searchMask, bestSwap_congr h, ih]

end

/-! ### Magnitudes -/

/-- No format has a value with a lower exponent than f32's least. -/
theorem exponent_of_decode {f : Fmt} {k m : Nat} {n : Bool} {e : Int} (h : f.decode k = .fin n m e) : -149 ≤ e := by
  have hleast : -149 ≤ 1 - (f.bias : Int) - f.mant := by cases f <;> decide
  unfold Fmt.decode at h
  dsimp only at h
  split at h
  · split at h <;> cases h
  · split at h
    · cases h
    · split at h
      case isTrue =>
        cases h
        exact hleast
      case isFalse hex =>
        cases h
        have : k / 2 ^ f.mant % 2 ^ (f.bits - 1 - f.mant) ≠ 0 := by simpa using hex
        omega

/-- The magnitude counts units of 2^−149. -/
theorem msrchMagnitude_rat {f : Fmt} {k : Nat} (h : (f.decode k).isFinite = true) :
    (msrchMagnitude (f.decode k) : ℚ) = |(f.decode k).rat| * 2 ^ 149 := by
  cases hd : f.decode k with
  | nan => rw [hd] at h; cases h
  | inf => rw [hd] at h; cases h
  | fin n m e =>
    obtain ⟨i, hi⟩ : ∃ i : Nat, e + 149 = i := Int.eq_ofNat_of_zero_le (by have := exponent_of_decode hd; omega)
    have habs : |(FVal.fin n m e).rat| = m * 2 ^ e := by
      cases n <;> simp [FVal.rat, abs_mul, abs_zpow]
    have hpow : (2 : ℚ) ^ e * 2 ^ 149 = 2 ^ i := by
      rw [← zpow_natCast, ← zpow_natCast, ← zpow_add₀ two_ne_zero, ← hi]
      rfl
    rw [habs, mul_assoc, hpow, msrchMagnitude, hi, Int.toNat_natCast]
    push_cast
    rfl

end Sys2Proof.Machine
end

section
/-! SUPPORT. Copies, gathers and scatters (R277, R281, R283): what a unit writes, once its reads give values. -/

namespace Sys2Proof.Machine

set_option Elab.async false

section
variable {s t : State} {w : Warp} {oid : Nat} {c : Command}

/-! ### Copies -/

theorem prepare_cpy {v : Nat → Nat} (hop : c.op = .cpy)
    (h : Finds s w c (cpyElem c) (((cpyFrom c).drop c.held.length).take (fieldAt c.params 24 4)) v) : prepare s w c =
      .ok (s, { c with held := c.held ++ (((cpyFrom c).drop c.held.length).take (fieldAt c.params 24 4)).map v }) := by
  simp only [prepare, hop, cpyPrepare, engReads_finds h]

theorem prepared_cpy (hop : c.op = .cpy) : prepared c = true ↔ fieldAt c.params 20 4 * fieldAt c.params 24 4 ≤ c.held.length := by
  simp only [prepared, hop, cpyReady, decide_eq_true_eq, ge_iff_le]

/-- A copy writes its next sector. -/
theorem doUnit_cpy (hop : c.op = .cpy) (h : writeRuns w oid c s (cellRuns (32 * (sectorsOf (cpyTo c)).getD c.progress 0)
      (sectorCells ((cpyTo c).zip (c.held.map (natLe (cpyElem c)))) ((sectorsOf (cpyTo c)).getD c.progress 0))) = .ok t) :
    doUnit s w oid c = .ok (t, { c with progress := c.progress + 1 }) := by
  simp only [doUnit, hop, cpyUnit, writeSectors_eq, List.flatMap_cons, List.flatMap_nil, List.append_nil, h]

/-! ### Gathers -/

theorem tileAddrs_row (t : Tensor) (r c0 m : Nat) : tileAddrs t r 1 c0 m = (List.range m).map (fun j => t.addr r (c0 + j)) := by
  simp [tileAddrs, regsFrom, Function.comp_def]

/-- A batch's indices are read in order. -/
theorem readBatch_finds {idx : Nat → Nat} (h : ∀ i, i < min 8 (fieldAt c.params 16 4 - 8 * c.progress) →
      engNat s w c (fieldAt c.params 40 8 + 4 * (8 * c.progress + i)) 4 = .ok (idx i, s)) :
    readBatch s w c = .ok ((List.range (min 8 (fieldAt c.params 16 4 - 8 * c.progress))).map idx, s) := by
  simp only [readBatch, regsFrom, List.map_map]
  exact engReads_map (fun i hi => h i (List.mem_range.1 hi))

/-- A status byte has a bit for each index that is none of the table's rows. -/
theorem statusByte_eq {rows n st : Nat} {idx : Nat → Nat} (hn : n ≤ 8) (hst : st < 256)
    (h : ∀ i, i < 8 → bitAt st i = (decide (i < n) && decide (rows ≤ idx i))) : statusByte rows ((List.range n).map idx) = st := by
  have hzip : ((List.range n).map idx).zip (List.range 8) = (List.range n).map (fun i => (idx i, i)) :=
    List.ext_getElem (by simp; omega) (by simp)
  have hfold : statusByte rows ((List.range n).map idx) =
      (List.range n).foldl (fun v i => if decide (rows ≤ idx i) = true then v + 2 ^ i else v) 0 := by
    rw [statusByte, hzip, List.foldl_map]
    simp
  rw [hfold]
  refine Nat.eq_of_testBit_eq (fun i => ?_)
  rw [fold_bits_testBit]
  by_cases hi : i < 8
  · rw [← bitAt_eq_testBit, h i hi]
  · rw [Nat.testBit_lt_two_pow (Nat.lt_of_lt_of_le hst (Nat.pow_le_pow_right (n := 2) (by decide) (by omega : 8 ≤ i))),
      decide_eq_false (by omega : ¬ i < n), Bool.false_and]

/-- The elements of a gathered row: those of the table, or zeros where the index is none of its rows. -/
def gathered (c : Command) (tbl dst : Tensor) (val : Nat → Nat) (i x : Nat) : List Elem :=
  (List.range (fieldAt c.params 20 4)).map (fun j => (dst.addr (fieldAt c.params 8 4 + i) (fieldAt c.params 12 4 + j),
    natLe (elemBytes tbl.fmt) (if x < tbl.rows then val (tbl.addr x (fieldAt c.params 4 4 + j)) else 0)))

/-- Rows are gathered one after the other. -/
theorem gathRows_finds {tbl dst : Tensor} {val : Nat → Nat} {rows : List (Nat × Nat)} (h : ∀ p ∈ rows, p.2 < tbl.rows →
      Finds s w c (elemBytes tbl.fmt) (tileAddrs tbl p.2 1 (fieldAt c.params 4 4) (fieldAt c.params 20 4)) val) :
    gathRows w c tbl dst s rows = .ok (rows.flatMap (fun p => gathered c tbl dst val p.1 p.2), s) := by
  induction rows with
  | nil => rfl
  | cons p rows ih =>
    obtain ⟨i, x⟩ := p
    have hread : (if x < tbl.rows then engReads w c (elemBytes tbl.fmt) s (tileAddrs tbl x 1 (fieldAt c.params 4 4) (fieldAt c.params 20 4))
        else .ok (List.replicate (fieldAt c.params 20 4) 0, s)) = .ok ((List.range (fieldAt c.params 20 4)).map (fun j =>
          if x < tbl.rows then val (tbl.addr x (fieldAt c.params 4 4 + j)) else 0), s) := by
      split
      case isTrue hx =>
        rw [engReads_finds (h (i, x) (List.mem_cons_self ..) hx), tileAddrs_row, List.map_map]
        rfl
      case isFalse => rw [List.map_const', List.length_range]
    simp only [gathRows, hread, ih (fun p hp => h p (List.mem_cons_of_mem _ hp)), List.flatMap_cons]
    simp only [gathRow, tileAddrs_row, List.map_map, List.zip_map', gathered]
    rfl

/-- A part of one batch: its rows are read and written, its status byte is kept for the completion. -/
theorem doUnit_gath {tbl dst : Tensor} {idx val : Nat → Nat} {st : Nat} (hop : c.op = .gath) (h0 : c.tensor 0 = some tbl)
    (h1 : c.tensor 1 = some dst) (hend : unitEnd c = c.progress + 1)
    (hidx : ∀ i, i < min 8 (fieldAt c.params 16 4 - 8 * c.progress) →
      engNat s w c (fieldAt c.params 40 8 + 4 * (8 * c.progress + i)) 4 = .ok (idx i, s))
    (hval : ∀ i, i < min 8 (fieldAt c.params 16 4 - 8 * c.progress) → idx i < tbl.rows →
      Finds s w c (elemBytes tbl.fmt) (tileAddrs tbl (idx i) 1 (fieldAt c.params 4 4) (fieldAt c.params 20 4)) val)
    (hst : st < 256) (hbits : ∀ i, i < 8 →
      bitAt st i = (decide (i < min 8 (fieldAt c.params 16 4 - 8 * c.progress)) && decide (tbl.rows ≤ idx i)))
    (hcan : ∃ u, engWrite s w oid c (fieldAt c.params 48 8 + c.progress) [st] = .ok u)
    (hwrite : writeTile s w oid c ((List.range (min 8 (fieldAt c.params 16 4 - 8 * c.progress))).flatMap (fun i =>
      gathered c tbl dst val (8 * c.progress + i) (idx i))) = .ok t) :
    doUnit s w oid c = .ok (t, { c with progress := c.progress + 1, held := c.held ++ [st] }) := by
  have hend' : gathEnd c = c.progress + 1 := by simpa only [unitEnd, hop] using hend
  obtain ⟨u, hu⟩ := hcan
  have hstatus := statusByte_eq (Nat.min_le_left ..) hst hbits
  have hrows : gathRows w c tbl dst s ((List.range (min 8 (fieldAt c.params 16 4 - 8 * c.progress))).map (fun i =>
      (8 * c.progress + i, idx i))) = .ok ((List.range (min 8 (fieldAt c.params 16 4 - 8 * c.progress))).flatMap (fun i =>
        gathered c tbl dst val (8 * c.progress + i) (idx i)), s) := by
    rw [gathRows_finds (val := val), List.flatMap_map]
    rintro p hp hlt
    obtain ⟨i, hi, rfl⟩ := List.mem_map.1 hp
    exact hval i (List.mem_range.1 hi) hlt
  have hbatch : gathBatches w oid c tbl dst s [c.progress] = .ok ((List.range (min 8 (fieldAt c.params 16 4 - 8 * c.progress))).flatMap
      (fun i => gathered c tbl dst val (8 * c.progress + i) (idx i)), [st], s) := by
    simp only [gathBatches, readBatch_finds hidx, hstatus, statusOk, hu, List.length_map, List.length_range, regsFrom,
      List.zip_map', hrows, List.append_nil]
  have hunit : doUnit s w oid c = gathUnit s w oid c := by simp only [doUnit, hop]
  simp only [hunit, gathUnit, h0, h1, hend', Nat.add_sub_cancel_left, regsFrom_one, hbatch, hwrite]

/-! ### Values for one place -/

/-- A value is for a place. -/
def atPlace (a n : Nat) (x : Item) : Bool := x.1 == a && x.2.1 == n

theorem atPlace_iff {a n : Nat} {x : Item} : atPlace a n x = true ↔ x.1 = a ∧ x.2.1 = n := by simp [atPlace]

theorem filter_updFirst_same {α : Type} {p : α → Bool} {f : α → α} (hf : ∀ x, p x = true → p (f x) = true) :
    ∀ l : List α, (updFirst p f l).filter p = updFirst p f (l.filter p)
  | [] => rfl
  | x :: xs => by
    cases hx : p x with
    | true => simp only [updFirst, hx, if_true, List.filter_cons_of_pos, hf x hx]
    | false => simpa [updFirst, hx] using filter_updFirst_same hf xs

theorem filter_updFirst_other {α : Type} {p q : α → Bool} {f : α → α} (hf : ∀ x, p x = true → q x = false ∧ q (f x) = false) :
    ∀ l : List α, (updFirst p f l).filter q = l.filter q
  | [] => rfl
  | x :: xs => by
    cases hx : p x with
    | true => simp [updFirst, hx, hf x hx]
    | false => simp [updFirst, hx, List.filter_cons, filter_updFirst_other hf xs]

/-- A value takes a place of its own, or is combined with what stands for its place. -/
theorem combineItems_cons (fn : AtomFn) (a n v : Nat) (done items : List Item) : combineItems fn done ((a, n, v) :: items) =
    if done.any (atPlace a n) then combineItems fn (updFirst (atPlace a n) (fun d => (d.1, d.2.1, reduceFn fn n d.2.2 v)) done) items
    else combineItems fn (done ++ [(a, n, v)]) items := rfl

/-- What is combined for a place comes of the values for that place alone. -/
theorem filter_combineItems (fn : AtomFn) (a n : Nat) (done items : List Item) :
    (combineItems fn done items).filter (atPlace a n) = combineItems fn (done.filter (atPlace a n)) (items.filter (atPlace a n)) := by
  induction items generalizing done with
  | nil => rfl
  | cons x xs ih =>
    obtain ⟨b, k, v⟩ := x
    by_cases hx : atPlace a n (b, k, v) = true
    · obtain ⟨rfl, rfl⟩ := atPlace_iff.1 hx
      have hany : (done.filter (atPlace b k)).any (atPlace b k) = done.any (atPlace b k) := by
        simp [List.any_filter]
      rw [List.filter_cons_of_pos hx, combineItems_cons, combineItems_cons, hany]
      split
      · rw [ih, filter_updFirst_same (p := atPlace b k) (f := fun d => (d.1, d.2.1, reduceFn fn k d.2.2 v)) (fun d hd => hd)]
      · rw [ih, List.filter_append, List.filter_cons_of_pos hx, List.filter_nil]
    · rw [List.filter_cons_of_neg hx, combineItems_cons]
      split
      · rw [ih, filter_updFirst_other (p := atPlace b k) (fun d hd => ?_)]
        obtain ⟨rfl, rfl⟩ := atPlace_iff.1 hd
        exact ⟨Bool.eq_false_iff.2 hx, Bool.eq_false_iff.2 hx⟩
      · rw [ih, List.filter_append, List.filter_cons_of_neg hx, List.filter_nil, List.append_nil]

/-- Values for one place are combined in order. -/
theorem combineItems_one (fn : AtomFn) (a n v : Nat) (xs : List Item) (h : ∀ x ∈ xs, atPlace a n x = true) :
    combineItems fn [(a, n, v)] xs = [(a, n, xs.foldl (fun v y => reduceFn fn n v y.2.2) v)] := by
  induction xs generalizing v with
  | nil => rfl
  | cons x xs ih =>
    obtain ⟨b, k, u⟩ := x
    obtain ⟨rfl, rfl⟩ := atPlace_iff.1 (h (b, k, u) (List.mem_cons_self ..))
    have hself : atPlace b k (b, k, v) = true := atPlace_iff.2 ⟨rfl, rfl⟩
    simp only [combineItems_cons, List.any_cons, hself, Bool.true_or, if_true, updFirst,
      ih _ (fun x hx => h x (List.mem_cons_of_mem _ hx)), List.foldl_cons]

/-- The values for a place become one, in their order. -/
theorem combineItems_place (fn : AtomFn) (items : List Item) (a n : Nat) : (combineItems fn [] items).filter (atPlace a n) =
    match items.filter (atPlace a n) with
    | [] => []
    | x :: xs => [(a, n, xs.foldl (fun v y => reduceFn fn n v y.2.2) x.2.2)] := by
  rw [filter_combineItems]
  cases hxs : items.filter (atPlace a n) with
  | nil => rfl
  | cons x xs =>
    have hall : ∀ y ∈ x :: xs, atPlace a n y = true := fun y hy => (List.mem_filter.1 (hxs ▸ hy)).2
    obtain ⟨b, k, u⟩ := x
    obtain ⟨rfl, rfl⟩ := atPlace_iff.1 (hall (b, k, u) (List.mem_cons_self ..))
    exact combineItems_one fn _ _ u xs (fun y hy => hall y (List.mem_cons_of_mem _ hy))

/-! ### Completions -/

/-- The status bytes are written with the completion; a scatter's sums are placed before them. -/
theorem doFinish_status {u : State} (h : c.op = .gath ∧ t = s ∨ ∃ fn, c.op = .scat fn ∧ reduceItems w c oid fn s c.items = .ok t)
    (hw : engWrite t w oid c (fieldAt c.params 48 8 + c.progress - c.held.length) c.held = .ok u) :
    doFinish s w oid c = .ok (u, none) := by
  rcases h with ⟨hop, rfl⟩ | ⟨fn, hop, hred⟩
  · simp only [doFinish, hop, putStatus, hw]
  · simp only [doFinish, hop, scatFinish, hred, putStatus, hw]

end

end Sys2Proof.Machine
end

section
/-! SUPPORT. Units of the matrix commands (R285, R288, R289, R290), once their reads give values. -/

namespace Sys2Proof.Machine

set_option Elab.async false

section
variable {s t : State} {w : Warp} {oid : Nat} {c : Command}

/-! ### Products -/

/-- The elements of a row, column by column. -/
theorem mmaOutput_columns {narrow : Bool} {b : Tensor} {la : List Line} {lb : Nat → List Line} {cols : List (Nat × Nat)}
    (h : ∀ p ∈ cols, mmaColumn s w c b p.1 = .ok (lb p.1, s)) :
    mmaOutput w c narrow b la s cols = .ok (cols.map (fun p => mmaElement narrow p.2 la (lb p.1)), s) := by
  induction cols with
  | nil => rfl
  | cons p cols ih =>
    obtain ⟨j, acc⟩ := p
    simp only [mmaOutput, h (j, acc) (List.mem_cons_self ..), ih (fun p hp => h p (List.mem_cons_of_mem _ hp)), List.map_cons]

/-- A row of a product is computed whole and written. -/
theorem doUnit_mma {a b : Tensor} {la : List Line} {lb : Nat → List Line} {prior : Nat → Nat} (hop : c.op = .mma) (h0 : c.tensor 0 = some a)
    (h1 : c.tensor 1 = some b) (hrow : mmaRow s w c a c.progress = .ok (la, s))
    (hcol : ∀ j, j < fieldAt c.params 26 2 → mmaColumn s w c b j = .ok (lb j, s))
    (hprior : if mmaFlag c.params 0 then ∀ j, prior j = 0 else
      ∀ j, j < fieldAt c.params 26 2 → engNat s w c (tileRow (c.params.getD 20 0) c.progress + 4 * j) 4 = .ok (prior j, s))
    (hwrite : engWrite s w oid c (tileRow (c.params.getD 20 0) c.progress) ((List.range (fieldAt c.params 26 2)).flatMap (fun j =>
      natLe 4 (mmaElement (isNarrow a.fmt) (prior j) la (lb j)))) = .ok t) :
    doUnit s w oid c = .ok (t, { c with progress := c.progress + 1 }) := by
  have hold : (if mmaFlag c.params 0 then .ok (List.replicate (fieldAt c.params 26 2) 0, s)
      else engReads w c 4 s ((List.range (fieldAt c.params 26 2)).map (fun j => tileRow (c.params.getD 20 0) c.progress + 4 * j))) =
      .ok ((List.range (fieldAt c.params 26 2)).map prior, s) := by
    split
    case isTrue hz =>
      rw [if_pos hz] at hprior
      rw [show prior = fun _ => 0 from funext hprior, List.map_const', List.length_range]
    case isFalse hz =>
      rw [if_neg hz] at hprior
      exact engReads_map (fun j hj => hprior j (List.mem_range.1 hj))
  have hzip : (List.range (fieldAt c.params 26 2)).zip ((List.range (fieldAt c.params 26 2)).map prior) =
      (List.range (fieldAt c.params 26 2)).map (fun j => (j, prior j)) := by
    simpa using List.zip_map' (f := id) (g := prior) (l := List.range (fieldAt c.params 26 2))
  have hout := mmaOutput_columns (narrow := isNarrow a.fmt) (la := la) (lb := lb)
    (cols := (List.range (fieldAt c.params 26 2)).map (fun j => (j, prior j))) (by simpa using hcol)
  rw [List.map_map] at hout
  simp only [doUnit, hop, mmaUnit, h0, h1, hrow, hold, hzip, hout, List.flatMap_map, Function.comp_apply, hwrite]

/-! ### Searches -/

/-- The element of a grid listed row by row. -/
theorem grid_getD {α : Type} (g : Nat → Nat → α) (d : α) {m n i j : Nat} (hi : i < m) (hj : j < n) :
    ((List.range m).flatMap (fun i => (List.range n).map (g i))).getD (n * i + j) d = g i j := by
  induction m with
  | zero => omega
  | succ m ih =>
    have hlen : ((List.range m).flatMap (fun i => (List.range n).map (g i))).length = n * m := by
      simp [List.length_flatMap, Nat.mul_comm]
    rw [List.range_succ, List.flatMap_append, List.flatMap_singleton, List.getD_eq_getElem?_getD]
    rcases Nat.lt_or_eq_of_le (Nat.le_of_lt_succ hi) with him | rfl
    · have hlt : n * i + j < n * m := calc
        n * i + j < n * i + n := by omega
        _ = n * (i + 1) := (Nat.mul_succ n i).symm
        _ ≤ n * m := Nat.mul_le_mul_left n him
      rw [List.getElem?_append_left (by rwa [hlen]), ← List.getD_eq_getElem?_getD, ih him]
    · rw [List.getElem?_append_right (by omega), hlen, Nat.add_sub_cancel_left]
      simp [hj]

/-- The places of a band: 8 rows along K of `n` columns. -/
def bandPlaces (n : Nat) : List (Nat × Nat) := (List.range 8).flatMap (fun i => (List.range n).map (fun j => (i, j)))

theorem mem_bandPlaces {n : Nat} {p : Nat × Nat} : p ∈ bandPlaces n ↔ p.1 < 8 ∧ p.2 < n := by
  obtain ⟨i, j⟩ := p
  simp [bandPlaces]

/-- The bits of a byte, each added where it is kept. -/
theorem foldl_bits_eq_sum (p : Nat → Bool) (l : List Nat) (v : Nat) :
    l.foldl (fun v i => if p i then v + 2 ^ i else v) v = v + (l.map (fun i => if p i then 2 ^ i else 0)).sum := by
  induction l generalizing v with
  | nil => rfl
  | cons i l ih =>
    rw [List.foldl_cons, ih, List.map_cons, List.sum_cons]
    split <;> omega

/-- The place of a band that the search keeps: it looks at the block of 4 × 4 around it. -/
def bandKept (f : Fmt) (code : Nat → Nat → Nat) (i j : Nat) : Bool :=
  mask4 (searchMask (fun ra ca => msrchMagnitude (f.decode (code (i / 4 * 4 + ra) (j / 4 * 4 + ca)))) 8 maskStart) (i % 4) (j % 4)

/-- The masks of a band, block by block. -/
def bandMasks (g : Nat → Nat → Nat) (n : Nat) : List (List Nat) :=
  (List.range 2).map (fun bi => (List.range (n / 4)).map (fun bj => searchMask (fun ra ca => g (4 * bi + ra) (4 * bj + ca)) 8 maskStart))

/-- The mask of a block is what the search makes of the codes in it. -/
theorem mask4_bandMasks {f : Fmt} {g code : Nat → Nat → Nat} {n i j : Nat} (h4 : n % 4 = 0) (hi : i < 8) (hj : j < n)
    (hg : ∀ i j, i < 8 → j < n → g i j = msrchMagnitude (f.decode (code i j))) :
    mask4 (((bandMasks g n).getD (i / 4) []).getD (j / 4) 0) (i % 4) (j % 4) = bandKept f code i j := by
  have hmask : ((bandMasks g n).getD (i / 4) []).getD (j / 4) 0 =
      searchMask (fun ra ca => g (4 * (i / 4) + ra) (4 * (j / 4) + ca)) 8 maskStart := by
    have hbi : i / 4 < 2 := by omega
    have hbj : j / 4 < n / 4 := by omega
    simp [bandMasks, List.getD_eq_getElem?_getD, hbi, hbj]
  rw [hmask, bandKept]
  congr 1
  refine searchMask_congr (fun ra hra ca hca => ?_) 8 maskStart
  rw [hg _ _ (by omega) (by omega), Nat.mul_comm 4, Nat.mul_comm 4]

/-- What is written for a band: the elements kept, zeros for the others, and a byte of the mask for each column. -/
def bandWrites (c : Command) (src dst m : Tensor) (kept : Nat → Nat → Bool) (code : Nat → Nat → Nat) : List Elem :=
  (bandPlaces (fieldAt c.params 20 4)).map (fun p =>
    (msrchAddr dst (fieldAt c.params 8 4 + 8 * c.progress + p.1) (fieldAt c.params 12 4 + p.2),
      natLe (elemBytes src.fmt) (if kept p.1 p.2 then code p.1 p.2 else 0))) ++
  (List.range (fieldAt c.params 20 4)).map (fun j => (m.addr (fieldAt c.params 12 4 + j) ((fieldAt c.params 8 4 + 8 * c.progress) / 8),
    [((List.range 8).map (fun i => if kept i j then 2 ^ i else 0)).sum]))

theorem bandWrites_congr {src dst m : Tensor} {kept kept' : Nat → Nat → Bool} {code code' : Nat → Nat → Nat}
    (hkept : ∀ i j, i < 8 → j < fieldAt c.params 20 4 → kept i j = kept' i j)
    (hcode : ∀ i j, i < 8 → j < fieldAt c.params 20 4 → code i j = code' i j) :
    bandWrites c src dst m kept code = bandWrites c src dst m kept' code' := by
  unfold bandWrites
  congr 1
  · refine List.map_congr_left (fun p hp => ?_)
    obtain ⟨hi, hj⟩ := mem_bandPlaces.1 hp
    rw [hkept _ _ hi hj, hcode _ _ hi hj]
  · refine List.map_congr_left (fun j hj => ?_)
    congr 3
    exact List.map_congr_left (fun i hi => by rw [hkept _ _ (List.mem_range.1 hi) (List.mem_range.1 hj)])

/-- The elements of a band as they are read. -/
def bandFrom (c : Command) (src : Tensor) : List Nat := (bandPlaces (fieldAt c.params 20 4)).map (fun p =>
  msrchAddr src (fieldAt c.params 8 4 + 8 * c.progress + p.1) (fieldAt c.params 12 4 + p.2))

/-- A band is read, searched block by block, and written. -/
theorem msrchUnit_read {src dst m : Tensor} {f : Fmt} {vs : List Nat} (h0 : c.tensor 0 = some src) (h1 : c.tensor 1 = some dst)
    (h2 : c.tensor 2 = some m) (hf : fmtOfCode src.fmt = some f) (hread : engReads w c (elemBytes src.fmt) s (bandFrom c src) = .ok (vs, s))
    (hwrite : writeTile s w oid c (bandWrites c src dst m
      (fun i j => mask4 (((bandMasks (fun i j => msrchMagnitude (f.decode (vs.getD (fieldAt c.params 20 4 * i + j) 0)))
        (fieldAt c.params 20 4)).getD (i / 4) []).getD (j / 4) 0) (i % 4) (j % 4))
      (fun i j => vs.getD (fieldAt c.params 20 4 * i + j) 0)) = .ok t) :
    msrchUnit s w oid c = .ok (t, { c with progress := c.progress + 1 }) := by
  delta bandWrites bandMasks at hwrite
  beta_reduce at hwrite
  simp only [msrchUnit, h0, h1, h2]
  rw [show List.flatMap _ (List.range 8) = bandPlaces (fieldAt c.params 20 4) from rfl]
  rw [bandFrom] at hread
  simp only [hread, hf, Option.map_some, Option.getD_some, foldl_bits_eq_sum, Nat.zero_add, hwrite]

/-- A unit keeps what the search keeps of the codes that it finds. -/
theorem doUnit_msrch {src dst m : Tensor} {f : Fmt} {v : Nat → Nat} (hop : c.op = .msrch) (h0 : c.tensor 0 = some src)
    (h1 : c.tensor 1 = some dst) (h2 : c.tensor 2 = some m) (hf : fmtOfCode src.fmt = some f) (h4 : fieldAt c.params 20 4 % 4 = 0)
    (code : Nat → Nat → Nat) (hcode : ∀ i j, code i j =
      v (msrchAddr src (fieldAt c.params 8 4 + 8 * c.progress + i) (fieldAt c.params 12 4 + j)))
    (hfinds : Finds s w c (elemBytes src.fmt) (bandFrom c src) v)
    (hwrite : writeTile s w oid c (bandWrites c src dst m (bandKept f code) code) = .ok t) :
    doUnit s w oid c = .ok (t, { c with progress := c.progress + 1 }) := by
  have hcodes (i j : Nat) (hi : i < 8) (hj : j < fieldAt c.params 20 4) :
      ((bandFrom c src).map v).getD (fieldAt c.params 20 4 * i + j) 0 = code i j := by
    have hgrid : (bandFrom c src).map v = (List.range 8).flatMap (fun i => (List.range (fieldAt c.params 20 4)).map (code i)) := by
      simp only [bandFrom, bandPlaces, List.map_flatMap, List.map_map]
      exact List.flatMap_congr (fun i _ => List.map_congr_left (fun j _ => (hcode i j).symm))
    rw [hgrid]
    exact grid_getD code 0 hi hj
  have hunit : doUnit s w oid c = msrchUnit s w oid c := by simp only [doUnit, hop]
  rw [hunit]
  refine msrchUnit_read h0 h1 h2 hf (engReads_finds hfinds) ?_
  rw [← hwrite]
  congr 1
  exact bandWrites_congr (fun i j hi hj => mask4_bandMasks h4 hi hj (fun i j hi hj => by rw [hcodes i j hi hj])) hcodes

/-! ### Quantisation -/

theorem quantDests_eq {tn : Tensor} (h0 : c.tensor 0 = some tn) (i : Nat) : quantDests c i =
    (List.range 128).map (fun b => tn.slotAddr (fieldAt c.params 4 4 + i) (fieldAt c.params 8 4) + b) := by
  simp only [quantDests, h0]

/-- The addresses of a row of the tile that the command reads. -/
def quantFrom (c : Command) (i : Nat) : List Nat :=
  (List.range (fieldAt c.params 18 2)).map (fun j => tileRow (c.params.getD 12 0) i + 4 * j)

theorem quantRow_finds {x : Nat → Nat} {i : Nat} (h : Finds s w c 4 (quantFrom c i) x) :
    quantRow s w c i = .ok ((quantFrom c i).map x, s) := engReads_finds h

/-- A tagged tensor's tag byte takes the block's two bits. -/
theorem putTag_tagged {u v : State} {tn : Tensor} {n tag b : Nat} (h : tn.fmt = 0x10) (hr : engNat u w c (tn.tagb + n / 4) 1 = .ok (b, u))
    (hw : engWrite u w oid c (tn.tagb + n / 4) [b - b / 4 ^ (n % 4) % 4 * 4 ^ (n % 4) + tag * 4 ^ (n % 4)] = .ok v) :
    putTag u w oid c tn n tag = .ok v := by
  simp only [putTag, h, if_true, hr, hw]

theorem putTag_untagged {tn : Tensor} (h : tn.fmt ≠ 0x10) (n tag : Nat) : putTag s w oid c tn n tag = .ok s := if_neg h

/-- A part of one row: its scale, where the tensor has scales, its tag, where it has tags, then the slot's sectors. -/
theorem doUnit_quant {u v y : State} {tn : Tensor} {f : Fmt} {x : Nat → Nat} (hop : c.op = .quant) (h0 : c.tensor 0 = some tn)
    (hf : fmtOfCode (quantCode c.params) = some f) (hend : unitEnd c = c.progress + 1) (hfinds : Finds s w c 4 (quantFrom c c.progress) x)
    (n : Nat) (hn : n = tn.blockNo (fieldAt c.params 4 4 + c.progress) (fieldAt c.params 8 4))
    (xs : List Nat) (hxs : xs = (quantFrom c c.progress).map x)
    (hscale : if tn.scaleb = 0 then u = s else
      engWrite s w oid c (tn.scaleb + 4 * n) (natLe 4 (quantScale f (quantGiven c) xs)) = .ok u)
    (htag : putTag u w oid c tn n (quantCode c.params - 5) = .ok v)
    (hslot : writeTile v w oid c (((List.range 128).zip (quantSlot (quantCode c.params)
      (xs.map (quantElement f (quantScale f (quantGiven c) xs))))).map (fun q =>
        (tn.slotAddr (fieldAt c.params 4 4 + c.progress) (fieldAt c.params 8 4) + q.1, [q.2]))) = .ok y) :
    doUnit s w oid c = .ok (y, { c with progress := c.progress + 1 }) := by
  subst hn hxs
  have hend' : quantEnd c = c.progress + 1 := by simpa only [unitEnd, hop] using hend
  have hsc : (if tn.scaleb = 0 then .ok s else engWrite s w oid c
      (tn.scaleb + 4 * tn.blockNo (fieldAt c.params 4 4 + c.progress) (fieldAt c.params 8 4))
      (natLe 4 (quantScale f (quantGiven c) ((quantFrom c c.progress).map x)))) = .ok u := by
    split at hscale
    case isTrue hz => rw [if_pos hz, hscale]
    case isFalse hz => rw [if_neg hz, hscale]
  have hzip (slot : List Nat) : (quantDests c c.progress).zip (slot.map (fun b => [b])) = ((List.range 128).zip slot).map (fun q =>
      (tn.slotAddr (fieldAt c.params 4 4 + c.progress) (fieldAt c.params 8 4) + q.1, [q.2])) := by
    rw [quantDests_eq h0, List.zip_map]
    rfl
  simp only [doUnit, hop, quantUnit, h0, hf, hend', Nat.add_sub_cancel_left, regsFrom_one, quantBlocks, quantRow_finds hfinds, hsc, htag,
    hzip, List.append_nil, hslot]

/-- The rows of the region, as the tile holds them. -/
theorem quantRows_finds {x : Nat → Nat} {is : List Nat} (h : ∀ i ∈ is, Finds s w c 4 (quantFrom c i) x) :
    quantRows w c s is = .ok (is.map (fun i => (quantFrom c i).map x), s) := by
  induction is with
  | nil => rfl
  | cons i is ih =>
    simp only [quantRows, quantRow_finds (h i (List.mem_cons_self ..)), ih (fun j hj => h j (List.mem_cons_of_mem _ hj)), List.map_cons]

theorem foldl_add_eq_sum {α : Type} (f : α → Nat) (l : List α) (v : Nat) : l.foldl (fun n x => n + f x) v = v + (l.map f).sum := by
  induction l generalizing v with
  | nil => rfl
  | cons x l ih => rw [List.foldl_cons, ih, List.map_cons, List.sum_cons, Nat.add_assoc]

/-- The trailer of a tensor with TRL = 1 is written with the completion (R290). -/
theorem doFinish_quant {u : State} {tn : Tensor} {f : Fmt} {x : Nat → Nat} {bytes : List Nat} (hop : c.op = .quant)
    (h0 : c.tensor 0 = some tn) (hf : fmtOfCode (quantCode c.params) = some f) (htrl : tn.trl = true)
    (hfinds : ∀ i, i < fieldAt c.params 16 2 → Finds s w c 4 (quantFrom c i) x) (xs : Nat → List Nat)
    (hxs : xs = fun i => (quantFrom c i).map x)
    (hcrc : crcBlocks (fun s a n => engRead s w c a n) id tn (fieldAt c.params 8 4) s
      (regsFrom (fieldAt c.params 4 4) (fieldAt c.params 16 2)) = .ok (bytes, s))
    (hwrite : engWrite s w oid c (tn.scaleb - 32) ([amax ((List.range (fieldAt c.params 16 2)).flatMap xs),
      ((List.range (fieldAt c.params 16 2)).map (fun i => ((xs i).filter (quantCounted f (quantScale f (quantGiven c) (xs i)))).length)).sum,
      crc32c bytes, fieldAt c.params 16 2, fieldAt c.params 4 4, fieldAt c.params 8 4 / 128, 0, 0].flatMap (natLe 4)) = .ok u) :
    doFinish s w oid c = .ok (u, none) := by
  subst hxs
  beta_reduce at hwrite
  have hrows := quantRows_finds (fun i hi => hfinds i (List.mem_range.1 hi))
  simp only [doFinish, hop, putTrailer, h0, hf, htrl, Bool.not_true, Bool.false_eq_true, if_false, hrows, hcrc,
    foldl_add_eq_sum (fun xs : List Nat => (xs.filter (quantCounted f (quantScale f (quantGiven c) xs))).length), Nat.zero_add, List.map_map,
    Function.comp_def, ← List.flatMap_def, hwrite]

end

end Sys2Proof.Machine
end

section
/-! SUPPORT. Units of the percolator (R319, R326, R328), once their reads give values. -/

namespace Sys2Proof.Machine

set_option Elab.async false

section
variable {s t u : State} {w : Warp} {oid : Nat} {c : Command}

/-! ### Selections -/

theorem halves_take {b : List Nat} {d : Nat} (h : b.length = 4 * d) : (halves b).take d = (List.range d).map (fun i => fieldAt b (2 * i) 2) := by
  have hlen : b.length / 2 = d + d := by omega
  rw [halves, hlen, List.range_add, List.map_append, List.take_left' (by simp)]

theorem halves_drop {b : List Nat} {d : Nat} (h : b.length = 4 * d) :
    (halves b).drop d = (List.range d).map (fun i => fieldAt b (2 * (d + i)) 2) := by
  have hlen : b.length / 2 = d + d := by omega
  rw [halves, hlen, List.range_add, List.map_append, List.drop_left' (by simp), List.map_map]
  rfl

theorem doUnit_ksel (hop : c.op = .kselThr ∨ c.op = .kselTopk) : doUnit s w oid c = kselUnit s w c := by
  rcases hop with hop | hop <;> simp only [doUnit, hop]

theorem doFinish_ksel (hop : c.op = .kselThr ∨ c.op = .kselTopk) : doFinish s w oid c = kselFinish s w oid c := by
  rcases hop with hop | hop <;> simp only [doFinish, hop]

/-- A selection takes the bound of its next page. -/
theorem kselUnit_bound {tn : Tensor} {b : List Nat} (h0 : c.tensor 0 = some tn)
    (hr : engRead s w c (tn.sumb + 4 * tn.cols * (fieldAt c.params 4 4 + c.progress)) (4 * tn.cols) = .ok (b, s))
    (hlen : b.length = 4 * tn.cols) : kselUnit s w c = .ok (s, { c with
      progress := c.progress + 1
      held := (selectPage (c.op == .kselTopk) (fieldAt c.params 12 4) (fieldAt c.params 36 4) (c.selection tn.cols)
        (fieldAt c.params 4 4 + c.progress) (boundOf (c.selection tn.cols).query ((List.range tn.cols).map (fun i => fieldAt b (2 * i) 2))
          ((List.range tn.cols).map (fun i => fieldAt b (2 * (tn.cols + i)) 2)))).held }) := by
  simp only [kselUnit, h0, pageBound, hr, halves_take hlen, halves_drop hlen]

theorem foldl_insertAsc_pairwise (ps : List (Nat × Nat)) {l : List Nat} (h : l.Pairwise (· < ·)) :
    (ps.foldl (fun l p => insertAsc p.1 l) l).Pairwise (· < ·) := by
  induction ps generalizing l with
  | nil => exact h
  | cons p ps ih => exact ih (pairwise_insertAsc h)

theorem mem_foldl_insertAsc {g : Nat} (ps : List (Nat × Nat)) (l : List Nat) :
    g ∈ ps.foldl (fun l p => insertAsc p.1 l) l ↔ g ∈ l ∨ ∃ b, (g, b) ∈ ps := by
  induction ps generalizing l with
  | nil => simp
  | cons p ps ih =>
    obtain ⟨k, d⟩ := p
    rw [List.foldl_cons, ih, mem_insertAsc]
    simp only [List.mem_cons, Prod.mk.injEq, exists_or]
    constructor
    · rintro ((rfl | h) | h)
      · exact .inr (.inl ⟨d, rfl, rfl⟩)
      · exact .inl h
      · exact .inr (.inr h)
    · rintro (h | ⟨b, rfl, -⟩ | h)
      · exact .inl (.inr h)
      · exact .inl (.inl rfl)
      · exact .inr h

theorem pairwise_list (x : Selection) : x.list.Pairwise (· < ·) := foldl_insertAsc_pairwise x.pages List.Pairwise.nil

/-- The list of a selection is of the pages that it holds. -/
theorem mem_list {x : Selection} {g : Nat} : g ∈ x.list ↔ ∃ b, (g, b) ∈ x.pages :=
  (mem_foldl_insertAsc x.pages []).trans (by simp)

/-- The list is written at the end; the full number is reported where it exceeds CAP. -/
theorem kselFinish_list {tn : Tensor} (h0 : c.tensor 0 = some tn)
    (hw : engWrite s w oid c (fieldAt c.params 24 8) (natLe 4 (c.selection tn.cols).list.length ++ (c.selection tn.cols).list.flatMap (natLe 4)) =
      .ok u) : kselFinish s w oid c = .ok (u, if c.op = .kselThr ∧ fieldAt c.params 36 4 < (c.selection tn.cols).count
        then some { cause := 0x2A, lanes := 0#32, addr := fieldAt c.params 24 8, detail := [(c.selection tn.cols).count] } else none) := by
  simp only [kselFinish, h0, Option.map_some, Option.getD_some, putList, List.flatMap_cons, hw, Bool.and_eq_true, beq_iff_eq,
    decide_eq_true_eq, gt_iff_lt]

/-! ### Gathers of pages -/

section
variable {k v kd vd : Tensor} {g : Nat} (hg : kgatEntry c k c.progress = some g)
include hg

theorem kgatRows_entry : kgatRows c k c.progress = min 64 (k.rows - 64 * g) := by
  simp only [kgatRows, hg, pageRows]

/-- A page of the tensor has a row. -/
theorem rows_of_entry : 1 ≤ min 64 (k.rows - 64 * g) := by
  have hlt : g < k.pages := by
    unfold kgatEntry at hg
    split at hg
    · cases hg
    · split at hg
      case isTrue h =>
        cases hg
        exact h
      case isFalse => cases hg
  unfold Tensor.pages at hlt
  omega

/-- The rows of an entry that a destination holds. -/
theorem kgatFit_entry (src dst : Tensor) : kgatFit c k src dst c.progress =
    if src.cols ≤ dst.cols then min (min 64 (k.rows - 64 * g)) (dst.rows - (fieldAt c.params 16 4 + 64 * c.progress)) else 0 := by
  rw [kgatFit, kgatRows_entry hg, kgatRow]

/-- All of an entry's rows fit where its tile lies within the destination. -/
theorem kgatRoom_iff (src dst : Tensor) : kgatRoom c k src dst c.progress = true ↔
    dst.holds (fieldAt c.params 16 4 + 64 * c.progress) (min 64 (k.rows - 64 * g)) 0 src.cols = true := by
  have hn := rows_of_entry hg
  simp only [kgatRoom, beq_iff_eq, kgatFit_entry hg, kgatRows_entry hg, Tensor.holds, Bool.and_eq_true, decide_eq_true_eq, Nat.zero_add]
  split <;> omega

theorem kgatWhole_iff : kgatWhole c k v kd vd c.progress = true ↔
    kd.holds (fieldAt c.params 16 4 + 64 * c.progress) (min 64 (k.rows - 64 * g)) 0 k.cols = true ∧
      vd.holds (fieldAt c.params 16 4 + 64 * c.progress) (min 64 (k.rows - 64 * g)) 0 v.cols = true := by
  simp only [kgatWhole, hg, Option.isSome_some, Bool.true_and, Bool.and_eq_true, kgatRoom_iff hg]

/-- One entry's rows are copied, those that fit. -/
theorem kgatCopy_entry (src dst : Tensor) : kgatCopy s w oid c k src dst [c.progress] = copyElems s w oid c (elemBytes src.fmt)
    (tileAddrs src (64 * g) (kgatFit c k src dst c.progress) 0 src.cols)
    (tileAddrs dst (fieldAt c.params 16 4 + 64 * c.progress) (kgatFit c k src dst c.progress) 0 src.cols) := by
  simp only [kgatCopy, List.flatMap_cons, List.flatMap_nil, List.append_nil, hg, Option.getD_some, kgatTo, kgatRow]

end

/-- A copy of no entry changes nothing. -/
theorem kgatCopy_nil (k src dst : Tensor) : kgatCopy s w oid c k src dst [] = .ok s := rfl

/-- The next part of a gather of pages has an entry. -/
theorem lt_kgatEnd (c : Command) (k v kd vd : Tensor) : c.progress < kgatEnd c k v kd vd := by
  unfold kgatEnd
  split
  case h_1 e he =>
    have hmem := List.mem_of_find?_eq_some he
    simp only [regsFrom, List.mem_map] at hmem
    omega
  case h_2 => exact Nat.lt_succ_self _

section
variable {k v kd vd : Tensor} (hop : c.op = .kgat) (h0 : c.tensor 0 = some k) (h1 : c.tensor 1 = some v) (h2 : c.tensor 2 = some kd)
  (h3 : c.tensor 3 = some vd)
include hop h0 h1 h2 h3

theorem doUnit_kgat_whole (ha : c.again = false) (hwhole : kgatWhole c k v kd vd c.progress = true)
    (hend : kgatEnd c k v kd vd = c.progress + 1) (hk : kgatCopy s w oid c k k kd [c.progress] = .ok t)
    (hv : kgatCopy t w oid c k v vd [c.progress] = .ok u) : doUnit s w oid c = .ok (u, { c with progress := c.progress + 1 }) := by
  have hstop : kgatStop c k v kd vd = none := by simp [kgatStop, hend, hwhole]
  simp only [doUnit, hop, kgatUnit, h0, h1, h2, h3, ha, Bool.false_eq_true, if_false, hstop, hend, Nat.add_sub_cancel_left, regsFrom_one,
    kgatBoth, hk, hv]

/-- The rows of an entry that fit are copied before TILE_RANGE. -/
theorem doUnit_kgat_partial {g : Nat} (hg : kgatEntry c k c.progress = some g) (ha : c.again = false)
    (hwhole : kgatWhole c k v kd vd c.progress = false) (hk : kgatCopy s w oid c k k kd [c.progress] = .ok t)
    (hv : kgatCopy t w oid c k v vd (if kgatRoom c k k kd c.progress then [c.progress] else []) = .ok u) :
    doUnit s w oid c = .ok (u, { c with again := true }) := by
  have hstop : kgatStop c k v kd vd = some c.progress := by
    obtain ⟨n, hn⟩ : ∃ n, kgatEnd c k v kd vd - c.progress = n + 1 :=
      ⟨kgatEnd c k v kd vd - c.progress - 1, by have := lt_kgatEnd c k v kd vd; omega⟩
    rw [kgatStop, hn, regsFrom_succ, List.find?_cons, hwhole]
    rfl
  simp only [doUnit, hop, kgatUnit, h0, h1, h2, h3, ha, Bool.false_eq_true, if_false, hstop, hg, Option.isNone_some, Nat.sub_self,
    regsFrom_zero, List.nil_append, kgatBoth, hk, hv]

/-- TILE_RANGE of the destination that does not hold the entry. -/
theorem doUnit_kgat_range (ha : c.again = true) : doUnit s w oid c = .error (.fault s
    { cause := 0x27, lanes := 0#32, addr := 0, detail := [if kgatRoom c k k kd c.progress then vd.id else kd.id] } false) := by
  simp only [doUnit, hop, kgatUnit, h0, h1, h2, h3, ha, if_true]
  split <;> rfl

end

/-! ### Summaries -/

/-- The bounds of a page's channels are of the elements of its rows. -/
theorem prepare_ksum {tn : Tensor} {f : Fmt} {v : Nat → Nat} (hop : c.op = .ksum) (h0 : c.tensor 0 = some tn)
    (hf : fmtOfCode tn.fmt = some f) (g n : Nat) (hgn : g = fieldAt c.params 4 4 + c.progress) (hn : n = min 64 (tn.rows - 64 * g))
    (hfinds : Finds s w c (elemBytes tn.fmt) (tileAddrs tn (64 * g) n 0 tn.cols) v) (of : Nat → Nat × Nat)
    (hof : of = fun ch => channelBounds ((List.range n).map (fun i => f.decode (v (tn.addr (64 * g + i) ch))))) :
    prepare s w c = .ok (s, { c with
      held := (List.range tn.cols).map (fun ch => (of ch).1) ++ (List.range tn.cols).map (fun ch => (of ch).2) }) := by
  have hvs : ∀ r ch, r < n → ch < tn.cols → ((tileAddrs tn (64 * g) n 0 tn.cols).map v).getD (r * tn.cols + ch) 0 =
      v (tn.addr (64 * g + r) ch) := fun r ch hr hch => by
    have hgrid : (tileAddrs tn (64 * g) n 0 tn.cols).map v =
        (List.range n).flatMap (fun r => (List.range tn.cols).map (fun ch => v (tn.addr (64 * g + r) ch))) := by
      simp [tileAddrs, regsFrom, List.map_flatMap, List.flatMap_map, Function.comp_def]
    rw [hgrid, Nat.mul_comm r]
    exact grid_getD (fun r ch => v (tn.addr (64 * g + r) ch)) 0 hr hch
  have hbounds : (List.range tn.cols).map (fun ch => channelBounds ((List.range n).map (fun r =>
      f.decode (((tileAddrs tn (64 * g) n 0 tn.cols).map v).getD (r * tn.cols + ch) 0)))) = (List.range tn.cols).map of := by
    subst hof
    refine List.map_congr_left (fun ch hch => congrArg _ (List.map_congr_left (fun r hr => ?_)))
    rw [hvs r ch (List.mem_range.1 hr) (List.mem_range.1 hch)]
  subst hgn hn
  simp only [prepare, hop, ksumPrepare, h0, engReads_finds hfinds, hf, Option.map_some, Option.getD_some, hbounds, List.map_map]
  rfl

/-- The bounds are installed in the page's summary. -/
theorem doUnit_ksum {tn : Tensor} (hop : c.op = .ksum) (h0 : c.tensor 0 = some tn)
    (hw : engWrite s w oid c (tn.sumb + 4 * tn.cols * (fieldAt c.params 4 4 + c.progress)) (c.held.flatMap (natLe 2)) = .ok u) :
    doUnit s w oid c = .ok (u, { c with held := [], progress := c.progress + 1 }) := by
  simp only [doUnit, hop, ksumUnit, h0, hw]

end

end Sys2Proof.Machine
end

section
/-! PROOF. O45: what the units of engine commands write. -/

namespace Sys2Proof.Machine

set_option Elab.async false

theorem mask4_maskStart : ∀ ra ca, ra < 4 → ca < 4 → mask4 maskStart ra ca = (decide (ca = ra) || decide (ca = (ra + 1) % 4)) := by
  have h : ∀ ra < 4, ∀ ca < 4, mask4 maskStart ra ca = (decide (ca = ra) || decide (ca = (ra + 1) % 4)) := by decide
  exact fun ra ca hra hca => h ra hra ca hca

/-- Settles O45, clause by clause: a write to plain memory, the order and the bytes of a tile transfer, and for each unit what it writes
once its reads give values. -/
theorem engineWrites : Obligations.EngineWrites := by
  unfold Obligations.EngineWrites
  refine ⟨?plain, fun addrs => ⟨pairwise_sectorsOf addrs, fun k => mem_sectorsOf⟩, fun es k i hi => sectorCells_getD es k hi, elemCells_cellRuns,
    fun s w oid c es => writeTile_eq es, ?cpy, ?gath, fun fn items a n => combineItems_place fn items a n,
    fun s w oid c t u h hw => doFinish_status h hw, ?mma, ?msrch, mask4_maskStart, ?kept, fun g m r hr k hk u hu => bestSwap_greatest hr hk hu,
    fun f k h => msrchMagnitude_rat h, ?quant, ?ksel, ?list, ?whole, ?range, fun s w oid c n from_ to_ v h => copyElems_finds h, ?ksum,
    fun s w oid c t u hop h0 hw => doUnit_ksum hop h0 hw⟩
  case plain =>
    intro s w oid c va bytes pa l x hc hl hne hline ht hp hwf
    exact ⟨_, engWrite_line hc hl hne hline ht hp, stored_of_write hwf ((traceWrite_mem ..).trans (rawStore_mem ..))⟩
  case cpy => exact fun s w oid c v hop => ⟨prepare_cpy hop, prepared_cpy hop, fun t h => doUnit_cpy hop h⟩
  case gath =>
    intro s w oid c tbl dst idx val st t hop h0 h1 hend n cols es hidx hval hst hbits hcan hwrite
    exact doUnit_gath hop h0 h1 hend hidx hval hst hbits hcan hwrite
  case mma =>
    intro s w oid c a b la lb prior t hop h0 h1 at_ n hrow hcol hprior hwrite
    exact doUnit_mma hop h0 h1 hrow hcol hprior hwrite
  case msrch =>
    intro s w oid c src dst m f v t hop h0 h1 h2 hf row col n places code kept h4 hfinds hwrite
    exact doUnit_msrch hop h0 h1 h2 hf h4 code (fun _ _ => rfl) hfinds hwrite
  case kept => exact fun g n => twoOfFour_searchMask g n twoOfFour_maskStart
  case quant =>
    intro s w oid c t f x hop h0 hf col at_ cols xs scale
    have hxs (i : Nat) : xs i = (quantFrom c i).map x := (List.map_map ..).symm
    refine ⟨?row, ?trailer⟩
    case row =>
      intro u v y hend hfinds row n hscale htag hslot
      refine doUnit_quant hop h0 hf hend hfinds n rfl (xs c.progress) (hxs _) hscale ?_ hslot
      split at htag
      case isTrue h10 =>
        obtain ⟨b, hb, hw⟩ := htag
        exact putTag_tagged h10 hb hw
      case isFalse h10 => exact htag ▸ putTag_untagged h10 ..
    case trailer =>
      intro bytes u htrl m row hfinds hcrc hw
      exact doFinish_quant hop h0 hf htrl hfinds xs (funext hxs) hcrc hw
  case ksel =>
    intro s w oid c t b hop h0 g hr h bound hlen
    rw [doUnit_ksel hop]
    exact kselUnit_bound h0 hr hlen
  case list =>
    intro s w oid c t u hop h0 x
    refine ⟨pairwise_list x, fun g => mem_list, fun hw => ?_⟩
    rw [doFinish_ksel hop]
    exact kselFinish_list h0 hw
  case whole =>
    intro s w oid c k v kd vd t u hop h0 h1 h2 h3 ha hwhole hend g hg copies hk hv
    have hfit {src dst : Tensor} (hroom : kgatRoom c k src dst c.progress = true) :
        kgatFit c k src dst c.progress = min 64 (k.rows - 64 * g) := by
      rw [← kgatRows_entry hg]
      exact eq_of_beq hroom
    have hrooms : kgatRoom c k k kd c.progress = true ∧ kgatRoom c k v vd c.progress = true := by
      simpa [kgatWhole, hg] using hwhole
    refine doUnit_kgat_whole hop h0 h1 h2 h3 ha hwhole hend (t := t) ?_ ?_
    · rw [kgatCopy_entry hg, hfit hrooms.1]
      exact hk
    · rw [kgatCopy_entry hg, hfit hrooms.2]
      exact hv
  case range =>
    intro s w oid c k v kd vd g hop h0 h1 h2 h3 hg n row fits room copies
    have hcopy (s t : State) (src dst : Tensor) (h : copies s src dst t) : kgatCopy s w oid c k src dst [c.progress] = .ok t := by
      rw [kgatCopy_entry hg, kgatFit_entry hg]
      exact h
    have hroom (src dst : Tensor) : kgatRoom c k src dst c.progress = fits src dst := Bool.eq_iff_iff.2 (kgatRoom_iff hg src dst)
    refine ⟨kgatWhole_iff hg, fun hnot ha t u hk hv => ?_, fun hnot ha => ?_⟩
    · refine doUnit_kgat_partial hop h0 h1 h2 h3 hg ha (Bool.eq_false_iff.2 (fun h => hnot ((kgatWhole_iff hg).1 h))) (hcopy _ _ _ _ hk) ?_
      rw [hroom]
      split at hv
      case isTrue hf => rw [if_pos hf, hcopy _ _ _ _ hv]
      case isFalse hf => rw [if_neg hf, hv, kgatCopy_nil]
    · rw [doUnit_kgat_range hop h0 h1 h2 h3 ha, hroom]
  case ksum =>
    intro s w c t v hop h0 g n hfinds f hf of
    exact prepare_ksum hop h0 hf g n rfl rfl hfinds of rfl

end Sys2Proof.Machine
end
